-- ==== Sys2Proof/Word.lean ====
section
/-! DEFINITION. The word types of the Frezatin L1024 model. -/

namespace Sys2Proof

/-- One byte of memory, of a frame or of a packed field (spec/00, R11, R12). -/
abbrev Byte := BitVec 8

/-- One 32-bit register of the host window or of the device region (spec/00, R14). -/
abbrev Word32 := BitVec 32

/-- One 64-bit general register (spec/05, Table 5.1). -/
abbrev Word := BitVec 64

/-- A 40-bit physical address (spec/01, R29). -/
abbrev PhysAddr := BitVec 40

/-- A 48-bit virtual address (spec/05, Table 5.1, PC). -/
abbrev VirtAddr := BitVec 48

/-- A tenant or site number, 0 to 1,023 (spec/00, Table 0.2). -/
abbrev SiteId := BitVec 10

/-- A Caruthen link number, 0 to 63 (spec/01, Table 1.1). -/
abbrev LinkId := BitVec 6

/-- A station number on a link, 0 to 15 (spec/00, Table 0.2). -/
abbrev StationId := BitVec 4

/-- A ledger core number, 0 to 15 (spec/00, Table 0.2). -/
abbrev CoreId := BitVec 4

/-- A context number as R364 counts them: 4c + x for ledger core c, context x; 64 for the boot core. -/
abbrev CtxId := Fin 65

/-- The world of an access or of a source (spec/00, Table 0.2). -/
inductive World where
  | nonSecure
  | secure
  deriving DecidableEq, Repr

/-- The context number of the boot core (R364). -/
abbrev bootCtx : CtxId := 64

end Sys2Proof
end

