-- ==== Sys2Proof/Syntax.lean ====
section
/-! DEFINITION. The commands of the L1024 and their operands. One constructor per row of spec/opcode_table.json; the
table gives no bits, so the operands are this model's own (notes/assumptions/1.md). -/

namespace Sys2Proof

/-- Who makes a register access (R23): the host interface, a hardware context, or the debug access engine in a world. -/
inductive Requester where
  | host
  | ctx (k : CtxId)
  | dae (w : World)
  deriving DecidableEq, Repr

/-- One register access: its requester, the enabled byte lanes (R19), and the parity a host cycle carries (R45).
`hap` is HAP and `hdp` is HDP[3:0] at their electrical levels; only a host cycle's parity is looked at. -/
structure Access where
  req : Requester
  be : BitVec 4
  hap : Bool
  hdp : BitVec 4
  deriving DecidableEq, Repr

/-- A frame as it arrives on a link (R89, R92): its bytes from the header to the CRC, and whether a coding error fell
between its start and terminate blocks. -/
structure RxFrame where
  coding : Bool
  bytes : List Byte
  deriving DecidableEq, Repr


/-- One memory channel as training finds it (R444, R563): whether a DIMM is there, its serial number, its capacity in GiB,
whether full training passes, and whether stored training data verifies. -/
structure Channel where
  present : Bool
  serial : Word32
  gib : Byte
  passes : Bool
  verifies : Bool
  deriving DecidableEq, Repr

/-- What an instruction or access meets in the arrays it uses, beside what State shows: nothing; the word of a physical address
corrected, or found uncorrectable, in an array, 0 DRAM, 1 L3, 2 L2, 3 SRAM (R335, R336), or an L1 parity failure repaired by
refetch, and what it meets besides; a parity failure of a register it reads, 0 to 31 G, 32 to 39 D, 40 to 43 A (R342); a
parity failure at an address of the micro-store 0, the nano-store 1 or the hook table 2, and whether the secure patch copy's word
for it is uncorrectable (R482, R483); a failed result check of Avocet, and whether its repeat fails too (R198). -/
inductive Upset where
  | none
  | corrected (addr : PhysAddr) (array : BitVec 2) (rest : Upset)
  | uncorrectable (addr : PhysAddr) (array : BitVec 2) (rest : Upset)
  | refetched (rest : Upset)
  | register (r : BitVec 6)
  | store (store : BitVec 2) (addr : BitVec 14) (copyBad : Bool)
  | residue (again : Bool)
  deriving DecidableEq, Repr

/-- What the read of a word finds: a good word, a correctable one, or an uncorrectable one (R335, R336). -/
inductive WordFound where
  | good | corrected | uncorrectable
  deriving DecidableEq, Repr

/-- What the in-package flash does not do as told (R466, R470, Table 19.7): nothing; the first tries of a record write do not read back;
or a block of an ERASE, or a page of a WRITE, by number, does not erase or program. -/
inductive FlashFault where
  | none
  | slots (n : Nat)
  | unit (k : Nat)
  deriving DecidableEq, Repr

/-- The raw readings of the four thermal sensors, signed, in units of 0.125 °C (R537). -/
structure Therm where
  r0 : BitVec 16
  r1 : BitVec 16
  r2 : BitVec 16
  r3 : BitVec 16
  deriving DecidableEq, Repr

/-- The commands of the L1024, one per row of spec/opcode_table.json (spec/95). -/
inductive Instr where
  /-- R14. A host or core write to a register field that has no row of its own stores or ignores the data as the field's access type states. -/
  | registerWrite (a : Access) (addr : PhysAddr) (data : Word32)
  /-- R44. HADS_N sampled asserted during a cycle is ignored and sets HINT_STATUS.PROTO. -/
  | strobeDuringCycle
  /-- R20. A read of a register with an RC field returns the value and clears the field, keeping any event of the same cycle. -/
  | rcRead (a : Access) (addr : PhysAddr)
  /-- R22. A read of a _LO register captures its _HI register into the requester's snapshot. -/
  | loRead (a : Access) (addr : PhysAddr)
  /-- R22. A read of a _HI register returns and consumes the pending snapshot, or the live value when none is pending. -/
  | hiRead (a : Access) (addr : PhysAddr)
  /-- R22. A write to a _LO register is staged lane by lane for the requester and has no effect yet. -/
  | loWrite (a : Access) (addr : PhysAddr) (data : Word32)
  /-- R22. A write to a _HI register applies the pair with the staged _LO bytes as one indivisible update, or drops the staged value if refused. -/
  | hiWrite (a : Access) (addr : PhysAddr) (data : Word32)
  /-- R50. Writing 1 to the VALID bit of BUS_ERR_INFO, MCHK_STATUS or INTEG_REC_INFO clears the record and frees it. -/
  | validClear (a : Access) (addr : PhysAddr) (data : Word32)
  /-- R55. A host read in the DRAM aperture reads the mapped physical word non-securely, or is refused with HOLE, WEIR, ENCLAVE or ECC. -/
  | apertureRead (a : Access) (addr : PhysAddr) (u : Upset := .none)
  /-- R55. A host write in the DRAM aperture writes the enabled bytes of the mapped physical word non-securely, or is refused. -/
  | apertureWrite (a : Access) (addr : PhysAddr) (data : Word32)
  /-- R49. An aperture access not complete by the timeout edge is refused with TIMEOUT, an issued write still being performed. -/
  | timeout (a : Access) (addr : PhysAddr) (write : Bool) (issued : Bool) (data : Word32)
  /-- R54. A host write to the host-to-device buffer stores the bytes while the mailbox is open and H2D_FULL is clear, else is refused with MBX. -/
  | mailboxWrite (a : Access) (addr : PhysAddr) (data : Word32)
  /-- R54. A host read of a mailbox buffer returns its contents or zero, or is refused with MBX while the mailbox is closed. -/
  | mailboxRead (a : Access) (addr : PhysAddr) (found : WordFound := .good)
  /-- R54. Writing 1 to MBX_CTRL.H2D_POST posts the host-to-device message and sets H2D_FULL, or is refused with MBX. -/
  | h2dPost (a : Access) (data : Word32)
  /-- R54. Writing 1 to MBX_CTRL.D2H_ACK clears D2H_FULL and releases the reply buffer. -/
  | d2hAck (a : Access) (data : Word32)
  /-- R54. The device side clears H2D_FULL when it has consumed a host message. -/
  | messageConsumed (words : List (BitVec 12 × WordFound) := []) (u : Upset := .none)
  /-- R54. The device side posts a reply, setting D2H_FULL with CODE and D2H_LEN. -/
  | reply (code : Byte) (bytes : List Byte)
  /-- R60. At the end of each 10 µs window HOST_STATUS.HBCLK_MHZ takes the HBCLK frequency measured against REFCLK. -/
  | hbclkMeasure (mhz : Byte)
  /-- R417. A host read of RNG_DATA returns 32 fresh DRBG bits while READY is set, and zero otherwise. -/
  | rngDataRead (a : Access)
  /-- R552. A write to CLK_CTRL sets the core PLL down-spread when every ledger core is held or fenced, else is refused with BUSY. -/
  | clkCtrlWrite (a : Access) (data : Word32)
  /-- R450. A secure write to BOOT_STATUS.PHASE moves it from MONITOR to EXEC_RUN or RECOVERY and is otherwise ignored. -/
  | phaseWrite (a : Access) (data : Word32)
  /-- R473. Writing 1 to UPD_CTRL.START holds an update-session request for the monitor and sets interrupt line 1. -/
  | start (a : Access) (data : Word32)
  /-- R473. Writing 1 to UPD_CTRL.ABORT holds an abandon request for the monitor and sets interrupt line 1. -/
  | abort (a : Access) (data : Word32)
  /-- R473. A secure read of UPD_CTRL returns the held START and ABORT requests and clears them. -/
  | updCtrlSecureRead (a : Access)
  /-- R502. Writing 1 to CFG_COMMIT.COMMIT starts a tide over every staged entry, atomic or tenant by tenant, or is refused with BUSY during a tide. -/
  | commit (a : Access) (data : Word32)
  /-- R501. Writing 1 to CFG_COMMIT.DISCARD drops every staged entry not part of a tide in progress. -/
  | discard (a : Access) (data : Word32)
  /-- R498. A write to a tide-class field while STAGE is set is placed in or merged into the staged set. -/
  | tideStageWrite (a : Access) (addr : PhysAddr) (data : Word32)
  /-- R500. A write to a tide-class field while STAGE is clear is staged and committed as if COMMIT followed in the next cycle. -/
  | tideImmediateWrite (a : Access) (addr : PhysAddr) (data : Word32)
  /-- R508. In a tenant-by-tenant tide a site's entries all take effect together once its tenant is not loaded or reaches a dispatch boundary with no Curlew operation in flight. -/
  | tenantConversion (n : SiteId) (u : Upset := .none)
  /-- R508. A tenant still unconverted and loaded 1 ms after the commit is saved by the dispatcher and converts at that save. -/
  | tideForce (n : SiteId)
  /-- R511. Writing 1 to CORE_FENCE.FENCE_REQ fences a running or held ledger core, saving its tenants and taking it out of coherence. -/
  | fenceReq (a : Access) (data : Word32)
  /-- R511. Once a fenced core's contexts are stopped and its store buffer drained, its arrays are invalidated, POOL cleared and CORE_STATE reads FENCED. -/
  | coreFenceDone (c : CoreId) (u : Upset := .none)
  /-- R452. A secure write of 1 to a CORE_RELEASE bit releases the ledger core when every lock, SEC_ROOT and CORE_VEC condition holds. -/
  | coreRelease (a : Access) (data : Word32)
  /-- R453. A released core loads its patch stores, invalidates its arrays, enables snooping and starts context 0 at CORE_VEC within 20 µs. -/
  | coreStart (c : CoreId) (bad : Option (BitVec 2 × BitVec 14) := none)
  /-- R514. A secure write of 1 to a CORE_RETURN bit starts the return of a fenced core through patch reload, double-read check, invalidation and start. -/
  | coreReturn (a : Access) (data : Word32)
  /-- R514. A returning core that passes its checks starts context 0 at CORE_VEC, locks CORE_VEC and reads RUNNING, or reads FENCED again on failure. -/
  | coreReturnDone (c : CoreId) (failed : BitVec 2) (addr : BitVec 14) (store : BitVec 2)
  /-- R454. A write to CX_START_HI starts a free, unpooled context at the written code pointer in the writer's world. -/
  | cxStart (a : Access) (x : CtxId) (data : Word32)
  /-- R73. Writing 1 to SB_CTRL.EN installs the tenant, or is ignored with EN_REFUSED before both base pairs are set. -/
  | enWritten1 (a : Access) (n : SiteId) (data : Word32)
  /-- R75. Writing 0 to SB_CTRL.EN removes the tenant when TXN is idle, making the clear pending while it is loaded, or is refused during a transaction. -/
  | enWritten0 (a : Access) (n : SiteId) (data : Word32)
  /-- R80. Setting SB_CTRL.HOLD puts the tenant in HELD, saving it first when loaded. -/
  | holdWritten1 (a : Access) (n : SiteId) (data : Word32)
  /-- R71. Clearing SB_CTRL.HOLD takes a held tenant to IDLE, or PENDING when events wait. -/
  | holdWritten0 (a : Access) (n : SiteId) (data : Word32)
  /-- R81. Writing 1 to SB_CTRL.FAULT puts the tenant in FAULTED with CODE 0x80, after a save when loaded. -/
  | fault (a : Access) (n : SiteId) (data : Word32)
  /-- R81. Writing 1 to SB_CTRL.RESUME takes a faulted tenant out of FAULTED and clears CODE. -/
  | resume (a : Access) (n : SiteId) (data : Word32)
  /-- R120. Writing 1 to SB_CTRL.AUTO_REPLAY lets an undelivered transaction replay, starting it at once when the station is present. -/
  | autoReplay (a : Access) (n : SiteId) (data : Word32) (u : Upset := .none)
  /-- R67. Writing 1 to SB_CTRL.CTR_CLEAR requests a clear settlement and sets CLEAR_PENDING. -/
  | ctrClear (a : Access) (n : SiteId) (data : Word32)
  /-- R67. Once TXN reads IDLE a pending clear zeroes all 20 counters together with a CLEAR journal record and sets SB_ATTN.CLEARED. -/
  | clearSettlement (n : SiteId) (u : Upset := .none)
  /-- R421. A write to SB_JRNL_TAIL advances the tail when the value lies from TAIL to HEAD + 1, freeing the slots below. -/
  | sbJrnlTailWrite (a : Access) (n : SiteId) (data : Word32) (u : Upset := .none)
  /-- R419. A secure write to SB_JRNL_BASE_HI installs a valid journal ring, zeroes HEAD and starts a new chain with an OPEN record. -/
  | ringInstall (a : Access) (n : SiteId) (data : Word32)
  /-- R80. Writing 1 to a CB_PREEMPT bit saves the tenant on that context. -/
  | cbPreempt (a : Access) (c : CoreId) (data : Word32)
  /-- R80. Clearing a CB_DISPATCH.POOL bit saves the tenant on that context and removes the context from the pool. -/
  | poolClear (a : Access) (c : CoreId) (data : Word32)
  /-- R70. A write to CTX_BASE_HI sets CTX_BASE when every tenant is absent and the area is above the weir within DRAM, else is ignored. -/
  | ctxBaseWrite (a : Access) (data : Word32)
  /-- R103. A write to SITE_BUF_BASE_HI sets SITE_BUF_BASE when every tenant is absent and the area is placed validly, else is ignored. -/
  | siteBufBaseWrite (a : Access) (data : Word32)
  /-- R267. A write to KEY_BASE_HI sets the key array base and valid bit unless locked or misplaced. -/
  | keyBaseWrite (a : Access) (data : Word32)
  /-- R374. A secure write to SEC_WEIR_HI moves the weir unless locked, cores released, or the key array or site areas would be misplaced. -/
  | secWeirWrite (a : Access) (data : Word32)
  /-- R374. A secure write to SRAM_WEIR sets the SRAM weir offset unless locked or cores have been released. -/
  | sramWeirWrite (a : Access) (data : Word32)
  /-- R376. A secure write to an ASSIGN register gives each source its world until ASSIGN_LOCK is set. -/
  | assignWrite (a : Access) (addr : PhysAddr) (data : Word32)
  /-- R385. Writing 1 to ENCL_COMMIT.COMMIT validates the enclave table and applies it, or keeps the old table with a RESULT. -/
  | enclCommit (a : Access) (data : Word32)
  /-- R393. A secure write to DBG_EN sets each enable up to its life-cycle ceiling, releasing halted contexts of a world whose invasive enable it clears. -/
  | dbgEnWrite (a : Access) (data : Word32)
  /-- R398. A secure write to WDT_CTRL enables Bittern or changes its timeout and restarts the count, until locked. -/
  | wdtCtrlWrite (a : Access) (data : Word32)
  /-- R399. A secure write to WDT_KICK sets Bittern's count to zero and clears WARNED. -/
  | wdtKick (a : Access) (data : Word32)
  /-- R399. At half the timeout count Bittern sets vector 28 pending on the boot core, HINT_STATUS.WDT and WARNED. -/
  | watchdogWarning
  /-- R399. At the full timeout count Bittern resets the whole chip with cause SWDT. -/
  | swdt
  /-- R362. Writing 1 to CX_DOORBELL.RING sets the context's DOORBELL pending bit. -/
  | ring (a : Access) (x : CtxId) (data : Word32)
  /-- R364. While EN is set and TIME reaches TMR_CMP, the context's TIMER pending bit is set. -/
  | timerCompare (x : CtxId)
  /-- R365. An assertion of NMI_N that passes its glitch filter sets CX_NMI.PEND on the boot core and selected ledger cores. -/
  | nmiN
  /-- R365. A pending NMI not blocked is taken at a boundary and enters vector 2 of the secure world. -/
  | nmiEntry (x : CtxId) (u : Upset := .none)
  /-- R361. An offered interrupt permitted by world and IE is taken at a boundary and entered at its vector. -/
  | interruptEntry (x : CtxId) (u : Upset := .none)
  /-- R357. A recorded store bus error of the current world is taken at a boundary while IE is set, entering vector 3. -/
  | busErrorEntry (x : CtxId) (u : Upset := .none)
  /-- R356. A retired store refused at a hole, at poison or for store-buffer parity is recorded for its context with its address. -/
  | storeBusError (x : CtxId) (parity : Bool)
  /-- R78. A dispatcher loads the pending tenant of highest priority onto the eligible context of the least-occupied core. -/
  | dispatchLoad (cl : BitVec 2) (u : Upset := .none)
  /-- R129. A tenant stopped at a save point is written whole to its context block and leaves LOADED. -/
  | tenantSave (n : SiteId) (u : Upset := .none)
  /-- R79. A loaded tenant that has held its context for CB_QUANTUM while a tenant waits is chosen for a save. -/
  | quantum (cl : BitVec 2)
  /-- R86. Signal appearing on an enabled, unfenced link moves it from DOWN to TRAINING with the effective equaliser values. -/
  | signalPresent (k : LinkId)
  /-- R86. Loss of signal moves a link to DOWN, losing its stations. -/
  | signalLost (k : LinkId)
  /-- R86. Block lock with 16 clean idle blocks moves a training link to UP. -/
  | blockLock (k : LinkId)
  /-- R86. Losing block lock moves an UP link to TRAINING and declares its stations lost. -/
  | blockLockLost (k : LinkId)
  /-- R86. Writing LB_CTRL.EN enables a link or makes it DOWN, losing its stations. -/
  | en (a : Access) (k : LinkId) (data : Word32)
  /-- R516. Writing 1 to LB_CTRL.FENCE fences the link, losing every present station and sending electrical idle. -/
  | fenceWritten1 (a : Access) (k : LinkId) (data : Word32)
  /-- R517. Writing 0 to LB_CTRL.FENCE puts the link in TRAINING or DOWN so stations can return. -/
  | fenceWritten0 (a : Access) (k : LinkId) (data : Word32)
  /-- R88. Writing LB_CTRL.LOOPBACK on a fenced link enables or leaves internal PRBS loopback. -/
  | loopback (a : Access) (k : LinkId) (data : Word32)
  /-- R88. The PRBS checker locks within 10 µs and the link enters LOOPBACK, counting errored blocks in LC_PRBS_ERR. -/
  | loopbackLock (k : LinkId) (errors : Word32)
  /-- R94. A received DATA frame passing the receive checks is written to the inbox, treated as a duplicate, or answered with a NAK. -/
  | data (k : LinkId) (f : RxFrame) (u : Upset := .none)
  /-- R93. A received ACK applies its acknowledgement, freeing hold slots and possibly starting the settlement append. -/
  | ack (k : LinkId) (f : RxFrame) (u : Upset := .none)
  /-- R96. A received NAK applies its acknowledgement and sends again the unacknowledged outbound frames go-back-N. -/
  | nak (k : LinkId) (f : RxFrame) (u : Upset := .none)
  /-- R99. A received HEARTBEAT counts as station activity and carries an acknowledgement. -/
  | heartbeat (k : LinkId) (f : RxFrame) (u : Upset := .none)
  /-- R98. A received HELLO makes a station number present, answers HELLO_ACK and applies its report, resending unacknowledged frames. -/
  | hello (k : LinkId) (f : RxFrame) (u : Upset := .none)
  /-- R95. 2 µs after accepting a DATA frame without a new acknowledgement sent, the L1024 sends an ACK frame. -/
  | ackTimer (k : LinkId) (t : StationId)
  /-- R96. 20 µs without acknowledgement after the oldest frame was sent triggers a go-back, or station loss after 16 go-backs. -/
  | retransmitTimeout (n : SiteId) (u : Upset := .none)
  /-- R99. The L1024 sends a HEARTBEAT to a present station number when no other frame went to it in the 10 µs interval. -/
  | heartbeatTimer (k : LinkId) (t : StationId)
  /-- R100. No accepted frame from a present station number for 64 µs declares it lost. -/
  | stationLossTimeout (k : LinkId) (t : StationId)
  /-- R115. The hold timer reaching SB_HOLD_LIMIT moves the transaction to UNDELIVERED and sets SB_ATTN.UNSETTLED. -/
  | holdTimer (n : SiteId) (u : Upset := .none)
  /-- R120. An LC_DISPOSE REPLAY starts or arms the replay of an undelivered transaction. -/
  | replay (a : Access) (k : LinkId) (data : Word32) (u : Upset := .none)
  /-- R118. An LC_DISPOSE WRITE_OFF closes an undelivered or unloaded taken transaction and starts a write-off settlement. -/
  | writeOff (a : Access) (k : LinkId) (data : Word32) (u : Upset := .none)
  /-- R426. Curlew completes an append, advancing SB_JRNL_HEAD and applying its settlement's counter changes together. -/
  | appendComplete (n : SiteId) (u : Upset := .none)
  /-- R410. An operation for a tenant whose key is not loaded unwraps it into a free or least recently used slot, or waits and records in CW_REQ. -/
  | keyLoadOnDemand (n : SiteId) (u : Upset := .none)
  /-- R410. A waiting Curlew operation is tried again every 1 ms and after each GENKEY, KLOAD or CW_REQ clear naming its tenant. -/
  | curlewRetry (n : SiteId) (u : Upset := .none)
  /-- R410. Writing 1 to CW_REQ.VALID clears the request record and retries waiting operations. -/
  | cwReqClear (a : Access) (data : Word32) (u : Upset := .none)
  /-- R411. A queued key load unwraps the vault entry into a slot within 2 µs and updates SB_KEY_STATE. -/
  | kloadDone (u : Upset := .none)
  /-- R429. Writing CR_PROD posts descriptors that Curlew consumes in order, writing RESULT and STATUS and advancing CR_CONS. -/
  | crProdWrite (a : Access) (k : BitVec 3) (data : Word32) (u : Upset := .none)
  /-- R430. A GENKEY descriptor draws fresh master keys and writes vault entries with the next epoch for a tenant range. -/
  | genkey (k : BitVec 3) (u : Upset := .none)
  /-- R408. A KWRAP_STAGED descriptor rewraps each tenant's key under the staged monitor's wrapping key into the staged vault. -/
  | kwrapStaged (k : BitVec 3) (u : Upset := .none)
  /-- R430. A VERIFY descriptor recomputes the chained tags of a tenant's retained records and reports the first mismatch. -/
  | verify (k : BitVec 3) (u : Upset := .none)
  /-- R344. After a failed counter residue check Curlew holds the settlement and tries the append again 1 ms later. -/
  | counterResidueRetry (n : SiteId)
  /-- R240. A Spoonbill COUNT command writes the row and column fail counts of the window and their total. -/
  | count (u : BitVec 2) (up : Upset := .none)
  /-- R240. A Spoonbill REPAIR command assigns the forced must-repair rows and columns and writes the repair list and tally. -/
  | repair (u : BitVec 2) (up : Upset := .none)
  /-- R414. With 512 conditioned bits collected and the DRBG instantiated, RNG_STATUS.READY and line 13 are set. -/
  | rngReady
  /-- R416. A continuous entropy test failure sets HEALTH_FAIL, clears READY and restarts the start-up tests. -/
  | healthFail
  /-- R415. After 65,536 generate requests or 100 ms the DRBG reseeds with 384 fresh bits. -/
  | drbgReseed (entropy : Bool)
  /-- R338. The patrol scrubber reads each DRAM word once per period, correcting or poisoning it. -/
  | patrolScrub (outcome : BitVec 2) (apart : Bool := false)
  /-- R298. A retired TLBI completes once its entries are removed everywhere and every access and Spoonbill command using them is done. -/
  | tlbiComplete (core : Fin 17)
  /-- R433. Asserting PORST_N starts a power-on chip reset that makes all DRAM pending-zero. -/
  | porstN (asserted : Bool := true)
  /-- R433. Asserting RESET_N for at least 1 µs starts a warm chip reset that keeps DRAM with the reset scrub. -/
  | resetN (asserted : Bool := true)
  /-- R550. A REFCLK loss detected while REFCLK_OK is set, or a core, fabric or memory PLL losing lock, starts a CLKLOSS chip reset. -/
  | clkloss (what : BitVec 2)
  /-- R550. 256 consecutive in-range ring periods set CLK_STATUS.REFCLK_OK. -/
  | refclkOk
  /-- R551. The SerDes PLL losing lock drops every link out of UP, relocks within 100 µs and retrains. -/
  | serdesLossOfLock
  /-- R547. A rail below its brown-out threshold for 1 µs starts a BROWNOUT chip reset, or refuses fuse work for VDD_FUSE. -/
  | brownout (rail : BitVec 3)
  /-- R547. A rail outside its window for 100 ns sets its DROOP bit, HINT_STATUS.VMON and line 12. -/
  | droop (out : BitVec 6)
  /-- R543. The hottest sensor reading 120 °C starts a THERMTRIP chip reset within 10 µs. -/
  | thermtrip (t : Therm)
  /-- R543. TMAX rising to 100 °C sets THERM_STATUS.WARN, HINT_STATUS.THERM and line 11. -/
  | warn (t : Therm)
  /-- R543. TMAX rising to 105 °C sets THERM_STATUS.CRIT, HINT_STATUS.THERM and line 11. -/
  | crit (t : Therm)
  /-- R546. The adaptive control moves the VID code one step, at most every 10 µs, as the speed monitors call for. -/
  | vidStep (up : Bool)
  /-- R436. 200 µs after the reset inputs release and REFCLK is stable the internal reset ends, fuses are sensed, straps sampled and the boot core starts the ROM. -/
  | internalResetEnd (bmode : BitVec 3)
  /-- R435. When the background zeroing leaves no pending-zero line, BC_STATUS.ZERO_DONE is set. -/
  | zeroDone
  /-- R443. The boot ROM initialises SRAM, checks its stores, derives SR, trains DRAM, loads and measures a monitor, derives BBK and jumps. -/
  | bootRom (sramOk romOk : Bool) (badPatches : Nat) (nor : Option (List Byte)) (u : Upset := .none)
  /-- R444. DRAM training ends on every channel, fixing DRAM_STATUS and the installed layout. -/
  | trainingDone (c0 c1 c2 c3 : Channel) (u : Upset := .none)
  /-- R440. A boot source with no first message in its timeout, or a stream stopped for 1 s, fails with TIMEOUT. -/
  | sourceTimeout (u : Upset := .none)
  /-- R443. The ROM's 20 ms wait for RNG readiness expiring sets RNG_FAIL and enters recovery. -/
  | rngWaitTimeout
  /-- R440. A BOOT_DATA mailbox message is consumed as the next part of the monitor image stream. -/
  | bootData (words : List (BitVec 12 × WordFound) := []) (u : Upset := .none)
  /-- R440. A BOOT_END mailbox message ends the image stream and the ROM replies with the result code. -/
  | bootEnd (u : Upset := .none)
  /-- R446. A RESET mailbox message in recovery starts a SOFT chip reset. -/
  | reset
  /-- R450. A keyed secure write to BC_SOFT_RESET starts a SOFT chip reset. -/
  | soft (a : Access) (data : Word32)
  /-- R447. Setting BC_ROM_LOCK.LOCK locks the boot ROM away at the boot core's first fetch outside it. -/
  | romLock (a : Access) (data : Word32)
  /-- R470. The update engine's EMPTY command makes the target bank EMPTY with a new journal record. -/
  | empty (a : Access)
  /-- R470. The update engine's ERASE command erases every unerased block of the target bank. -/
  | erase (a : Access)
  /-- R470. The update engine's WRITE command programs LEN pages from SRC into the target bank at OFS. -/
  | write (a : Access)
  /-- R470. The update engine's MARK_WRITTEN command records the target bank as WRITTEN. -/
  | markWritten (a : Access)
  /-- R471. The update engine's VERIFY command checks the target image set, measures its monitor and records it VALID with STAGE_VALID. -/
  | ueVerify (a : Access)
  /-- R472. The update engine's ACTIVATE command makes a verified, fully rewrapped target TRIAL with three attempts. -/
  | activate (a : Access)
  /-- R470. The update engine's CONFIRM command makes the trial-booted bank CONFIRMED and CUR. -/
  | confirm (a : Access)
  /-- R470. The update engine's RETIRE command makes the other CONFIRMED bank RETIRED. -/
  | retire (a : Access)
  /-- R475. The update engine's CAL_SAVE command writes a calibration record to the older calibration half. -/
  | calSave (a : Access)
  /-- R470. An update engine command's flash work ends, clearing BUSY and writing RESULT and UPD_STATUS. -/
  | ueCommandDone (flash : FlashFault := .none) (u : Upset := .none)
  /-- R492. Writing 1 to UC_CTRL.DISABLE before any core release invalidates every hook and zeroes the secure patch copy. -/
  | disable (a : Access) (data : Word32)
  /-- R531. A FUSE_CTRL PROGRAM operation pulses an owner fuse bit and verifies it up to three times. -/
  | program (a : Access) (fuse : BitVec 12)
  /-- R533. A FUSE_CTRL LC_ADV operation blows the target state's fuse pair to advance the life cycle. -/
  | fuseCtrlLcAdv (a : Access) (target : BitVec 3)
  /-- R406. A write to KVAULT_HI or KSTAGE_HI sets the vault base unless the valid area is misplaced. -/
  | kvaultWrite (a : Access) (addr : PhysAddr) (data : Word32)
  /-- R518. The TAP entering Test-Logic-Reset loads IDCODE and abandons pending halt requests and debug accesses. -/
  | testLogicReset
  /-- R522. The EXTEST instruction selects the boundary register and holds a TAP chip reset while current. -/
  | extest (pins update : Nat)
  /-- R520. The IDCODE instruction returns the device identification 0xB102_45CF. -/
  | idcode
  /-- R520. The SAMPLE/PRELOAD instruction captures and preloads the boundary register. -/
  | samplePreload (pins update : Nat)
  /-- R522. The CLAMP instruction selects bypass, drives the boundary register and holds a TAP chip reset. -/
  | clamp
  /-- R522. The HIGHZ instruction selects bypass, floats outputs and holds a TAP chip reset. -/
  | highz
  /-- R520. The BYPASS instruction, or any unassigned code, selects the one-bit bypass register. -/
  | bypass (code : Byte := 0xFF)
  /-- R523. The ID_READ instruction captures twelve identity and status words. -/
  | idRead
  /-- R538. The CAL_READ instruction captures the factory calibration fuse bits. -/
  | calRead
  /-- R523. On the 4,096th Run-Test/Idle edge after ID_READ or CAL_READ with no sense yet, the port senses the fuses and sets SENSED. -/
  | portFuseSense
  /-- R529. A FUSE_PROG program request through the port pulses a vendor fuse bit over 256 Run-Test/Idle edges, or is refused. -/
  | fuseProg (v : BitVec 20)
  /-- R529. A port fuse pulse completes after 256 Run-Test/Idle edges and sets DONE. -/
  | fusePulseDone (complete : Bool)
  /-- R530. The SORT_GEN operation draws 320 DRBG bits and blows them into UID_RANDOM and DRK. -/
  | sortGen (v : BitVec 16) (edges : Nat)
  /-- R533. The port's LC_ADV blows the target state's pair of LC fuse bits when the advance is permitted. -/
  | lcAdv (v : BitVec 16) (edges : Nat)
  /-- R524. A DAE Update-DR with GO starts a debug access engine read or write, checked against DBG_EN. -/
  | dae (v : BitVec 112)
  /-- R525. A debug access completes on a Run-Test/Idle edge, its data entering RDATA with DONE and RESULT. -/
  | daeComplete (u : Upset := .none)
  /-- R525. A debug access not complete after 4,096 Run-Test/Idle edges ends with TIMEOUT. -/
  | daeTimeout (performed : Bool)
  /-- R527. The DBG_CTRL HALT operation requests a debug halt of a context, taken when its world's invasive enable allows. -/
  | halt (n : BitVec 7) (ask : Bool := true)
  /-- R355. A pending debug halt is taken at a boundary and the context stops. -/
  | debugHalt (x : CtxId)
  /-- R527. The DBG_CTRL RELEASE operation loads state written through the window and resumes the context. -/
  | release (n : BitVec 7)
  /-- R527. The DBG_CTRL STEP operation releases a halted context for one instruction, bundle or step and halts it again. -/
  | step (n : BitVec 7)
  /-- R528. A TAP_RESET Update-DR of 0xA5 starts a TAP chip reset when NSI or SI is set. -/
  | tapReset (v : Byte)
  /-- R252. NOP does nothing. -/
  | nop (x : CtxId) (u : Upset := .none)
  /-- R355. TRAP completes and enters vector 23 with its code. -/
  | trap (x : CtxId) (u : Upset := .none)
  /-- R359. BKPT raises vector 22 with BKPT. -/
  | bkpt (x : CtxId) (u : Upset := .none)
  /-- R358. SYNC waits until earlier stores are visible and earlier TLBIs complete, or raises a recorded store bus error. -/
  | sync (x : CtxId) (u : Upset := .none)
  /-- R151. FORM.W is a mode change that continues execution in W-form. -/
  | formW (x : CtxId) (u : Upset := .none)
  /-- R151. FORM.B is a mode change that continues execution in B-form. -/
  | formB (x : CtxId) (u : Upset := .none)
  /-- R353. SYSC enters the current world's fast-entry code, exchanging stack and CSW with the fast-entry set. -/
  | sysc (x : CtxId) (u : Upset := .none)
  /-- R352. SYSRET installs XCSW and XPC and restores the stack from XSP. -/
  | sysret (x : CtxId) (u : Upset := .none)
  /-- R352. XRET installs XCSW and XPC and exchanges G31 with XSP. -/
  | xret (x : CtxId) (u : Upset := .none)
  /-- R369. GCALL checks a gate descriptor and its arguments, builds a frame, pushes a gate return and enters the target. -/
  | gcall (x : CtxId) (u : Upset := .none)
  /-- R370. GRET checks the gate return and frame and restores the caller's stack, CSW and PC. -/
  | gret (x : CtxId) (u : Upset := .none)
  /-- R380. MONCALL enters the secure monitor through the secure fast-entry registers and blocks NMI. -/
  | moncall (x : CtxId) (u : Upset := .none)
  /-- R381. MONRET returns from the monitor to the secure XCSW and XPC and clears the NMI block. -/
  | monret (x : CtxId) (u : Upset := .none)
  /-- R123. MFSR copies a system register into a G register. -/
  | mfsr (x : CtxId) (u : Upset := .none)
  /-- R123. MTSR copies a G register into a system register, in force from the next instruction. -/
  | mtsr (x : CtxId) (u : Upset := .none)
  /-- R417. RAND writes 64 DRBG bits and a valid flag, or zeros while READY is clear. -/
  | rand (x : CtxId) (u : Upset := .none)
  /-- R153. ADD writes the sum modulo 2^64. -/
  | add (x : CtxId) (u : Upset := .none)
  /-- R153. SUB writes the difference modulo 2^64. -/
  | sub (x : CtxId) (u : Upset := .none)
  /-- R153. AND writes the bitwise and. -/
  | and (x : CtxId) (u : Upset := .none)
  /-- R153. OR writes the bitwise or. -/
  | or (x : CtxId) (u : Upset := .none)
  /-- R153. XOR writes the bitwise exclusive or. -/
  | xor (x : CtxId) (u : Upset := .none)
  /-- R153. ANDN writes Ga and not Gb. -/
  | andn (x : CtxId) (u : Upset := .none)
  /-- R153. SHL shifts left by a 6-bit count. -/
  | shl (x : CtxId) (u : Upset := .none)
  /-- R153. SHR shifts right logically by a 6-bit count. -/
  | shr (x : CtxId) (u : Upset := .none)
  /-- R153. SAR shifts right arithmetically by a 6-bit count. -/
  | sar (x : CtxId) (u : Upset := .none)
  /-- R153. ROR rotates right by a 6-bit count. -/
  | ror (x : CtxId) (u : Upset := .none)
  /-- R153. MIN writes the smaller signed value. -/
  | min (x : CtxId) (u : Upset := .none)
  /-- R153. MAX writes the larger signed value. -/
  | max (x : CtxId) (u : Upset := .none)
  /-- R153. MINU writes the smaller unsigned value. -/
  | minu (x : CtxId) (u : Upset := .none)
  /-- R153. MAXU writes the larger unsigned value. -/
  | maxu (x : CtxId) (u : Upset := .none)
  /-- R153. CMP writes −1, 0 or +1 from a signed comparison. -/
  | cmp (x : CtxId) (u : Upset := .none)
  /-- R153. CMPU writes −1, 0 or +1 from an unsigned comparison. -/
  | cmpu (x : CtxId) (u : Upset := .none)
  /-- R153. MUL writes the low 64 bits of the product. -/
  | mul (x : CtxId) (u : Upset := .none)
  /-- R153. MULH writes the high 64 bits of the signed product. -/
  | mulh (x : CtxId) (u : Upset := .none)
  /-- R153. MULHU writes the high 64 bits of the unsigned product. -/
  | mulhu (x : CtxId) (u : Upset := .none)
  /-- R154. DIV writes the signed quotient, with fixed results for zero divisor and overflow. -/
  | div (x : CtxId) (u : Upset := .none)
  /-- R154. DIVU writes the unsigned quotient, or 0 for a zero divisor. -/
  | divu (x : CtxId) (u : Upset := .none)
  /-- R154. REM writes the signed remainder, or Ga for a zero divisor. -/
  | rem (x : CtxId) (u : Upset := .none)
  /-- R154. REMU writes the unsigned remainder, or Ga for a zero divisor. -/
  | remu (x : CtxId) (u : Upset := .none)
  /-- R153. CLZ writes the count of leading zero bits. -/
  | clz (x : CtxId) (u : Upset := .none)
  /-- R153. CTZ writes the count of trailing zero bits. -/
  | ctz (x : CtxId) (u : Upset := .none)
  /-- R153. POPC writes the count of set bits. -/
  | popc (x : CtxId) (u : Upset := .none)
  /-- R153. SEXT sign-extends a byte, halfword or word. -/
  | sext (x : CtxId) (u : Upset := .none)
  /-- R153. ZEXT zero-extends a byte, halfword or word. -/
  | zext (x : CtxId) (u : Upset := .none)
  /-- R153. LI loads a sign-extended immediate. -/
  | li (x : CtxId) (u : Upset := .none)
  /-- R153. LIS inserts a 16-bit immediate at a shifted position. -/
  | lis (x : CtxId) (u : Upset := .none)
  /-- R155. LD reads 1, 2, 4 or 8 aligned bytes and sign- or zero-extends them. -/
  | ld (x : CtxId) (u : Upset := .none)
  /-- R155. ST writes the low 1, 2, 4 or 8 bytes of a register to an aligned address. -/
  | st (x : CtxId) (u : Upset := .none)
  /-- R156. CAS.D indivisibly compares 8 bytes with Gd and writes Gs when equal, returning the old value. -/
  | casD (x : CtxId) (u : Upset := .none)
  /-- R276. LDU loads with user access rights and zero-extends. -/
  | ldu (x : CtxId) (u : Upset := .none)
  /-- R276. STU stores with user access rights. -/
  | stu (x : CtxId) (u : Upset := .none)
  /-- R158. Bcc transfers when its integer condition holds. -/
  | bcc (x : CtxId) (u : Upset := .none)
  /-- R185. DBcc validates two decimal registers and transfers when the decimal condition holds. -/
  | dbcc (x : CtxId) (u : Upset := .none)
  /-- R230. BBS transfers when a bit of the bit space is set. -/
  | bbs (x : CtxId) (u : Upset := .none)
  /-- R230. BBC transfers when a bit of the bit space is clear. -/
  | bbc (x : CtxId) (u : Upset := .none)
  /-- R158. BR transfers to a direct target. -/
  | br (x : CtxId) (u : Upset := .none)
  /-- R159. JMP transfers to the register address in the current form. -/
  | jmp (x : CtxId) (u : Upset := .none)
  /-- R161. CALL transfers and pushes the return code pointer, wrapping or trapping at 16 entries. -/
  | call (x : CtxId) (u : Upset := .none)
  /-- R161. CALLR transfers to a register address and pushes the return code pointer. -/
  | callr (x : CtxId) (u : Upset := .none)
  /-- R160. BAL writes the return code pointer to Gd and transfers. -/
  | bal (x : CtxId) (u : Upset := .none)
  /-- R160. BALR writes the return code pointer to Gd and transfers to Gs. -/
  | balr (x : CtxId) (u : Upset := .none)
  /-- R162. RET pops the return stack and transfers in the popped form, or raises underflow. -/
  | ret (x : CtxId) (u : Upset := .none)
  /-- R164. LOOP arms a hardware loop level with start, end and count, or raises loop fault. -/
  | loop (x : CtxId) (u : Upset := .none)
  /-- R168. LEXIT clears the active loop levels from k upwards. -/
  | lexit (x : CtxId) (u : Upset := .none)
  /-- R183. MOVP copies a validated packed decimal field with a produced sign. -/
  | movp (x : CtxId) (u : Upset := .none)
  /-- R183. ADDP adds two packed decimal memory fields into the first. -/
  | addp (x : CtxId) (u : Upset := .none)
  /-- R183. SUBP subtracts two packed decimal memory fields into the first. -/
  | subp (x : CtxId) (u : Upset := .none)
  /-- R183. MULP multiplies two packed decimal memory fields into the first. -/
  | mulp (x : CtxId) (u : Upset := .none)
  /-- R183. DIVP divides two packed decimal memory fields, writing the quotient into the first. -/
  | divp (x : CtxId) (u : Upset := .none)
  /-- R181. SHRP shifts and rounds a packed decimal memory field. -/
  | shrp (x : CtxId) (u : Upset := .none)
  /-- R183. CMPP compares two packed decimal memory fields into Gd. -/
  | cmpp (x : CtxId) (u : Upset := .none)
  /-- R184. PACKA converts ASCII digits with an optional sign to a packed decimal field. -/
  | packa (x : CtxId) (u : Upset := .none)
  /-- R184. UNPKA writes the magnitude of a packed decimal field as ASCII digits. -/
  | unpka (x : CtxId) (u : Upset := .none)
  /-- R182. DADD adds two decimal registers. -/
  | dadd (x : CtxId) (u : Upset := .none)
  /-- R182. DSUB subtracts two decimal registers. -/
  | dsub (x : CtxId) (u : Upset := .none)
  /-- R182. DNEG negates a decimal register. -/
  | dneg (x : CtxId) (u : Upset := .none)
  /-- R182. DABS writes the magnitude of a decimal register. -/
  | dabs (x : CtxId) (u : Upset := .none)
  /-- R182. DMUL multiplies two decimal registers. -/
  | dmul (x : CtxId) (u : Upset := .none)
  /-- R182. DDIV divides two decimal registers toward zero. -/
  | ddiv (x : CtxId) (u : Upset := .none)
  /-- R182. DREM writes the decimal remainder. -/
  | drem (x : CtxId) (u : Upset := .none)
  /-- R181. DSRR shifts and rounds a decimal register. -/
  | dsrr (x : CtxId) (u : Upset := .none)
  /-- R182. DCMP compares two decimal registers into Gd. -/
  | dcmp (x : CtxId) (u : Upset := .none)
  /-- R179. DMOV copies a decimal register nibble for nibble without validation. -/
  | dmov (x : CtxId) (u : Upset := .none)
  /-- R182. CVBD converts a signed 64-bit integer to decimal. -/
  | cvbd (x : CtxId) (u : Upset := .none)
  /-- R182. CVDB converts a decimal register to a signed 64-bit integer. -/
  | cvdb (x : CtxId) (u : Upset := .none)
  /-- R188. DLD loads L bytes into a decimal register without validation. -/
  | dld (x : CtxId) (u : Upset := .none)
  /-- R188. DST stores a validated decimal register into L bytes with a produced sign. -/
  | dst (x : CtxId) (u : Upset := .none)
  /-- R199. MVST moves a byte string position by position in 64-byte steps. -/
  | mvst (x : CtxId) (steps : Nat) (u : Upset := .none)
  /-- R276. MVST.U moves a byte string with user rights on user pages. -/
  | mvstU (x : CtxId) (steps : Nat) (u : Upset := .none)
  /-- R199. TRST translates a byte string through a 256-byte table. -/
  | trst (x : CtxId) (steps : Nat) (u : Upset := .none)
  /-- R202. SCNS scans a string for the first byte whose table entry is non-zero. -/
  | scns (x : CtxId) (steps : Nat) (u : Upset := .none)
  /-- R203. CMPS finds the first differing byte of two strings. -/
  | cmps (x : CtxId) (steps : Nat) (u : Upset := .none)
  /-- R207. EDIT formats packed decimal fields into text under a pattern. -/
  | edit (x : CtxId) (steps : Nat) (u : Upset := .none)
  /-- R207. EDPOS edits as EDIT and records where significance opened. -/
  | edpos (x : CtxId) (steps : Nat) (u : Upset := .none)
  /-- R225. FADD adds two fractions. -/
  | fadd (x : CtxId) (u : Upset := .none)
  /-- R225. FSUB subtracts two fractions. -/
  | fsub (x : CtxId) (u : Upset := .none)
  /-- R225. FNEG negates a fraction. -/
  | fneg (x : CtxId) (u : Upset := .none)
  /-- R225. FABS writes the magnitude of a fraction. -/
  | fabs (x : CtxId) (u : Upset := .none)
  /-- R225. FMUL multiplies two fractions with rounding. -/
  | fmul (x : CtxId) (u : Upset := .none)
  /-- R225. FMAC adds a product to an accumulator. -/
  | fmac (x : CtxId) (u : Upset := .none)
  /-- R225. FMSU subtracts a product from an accumulator. -/
  | fmsu (x : CtxId) (u : Upset := .none)
  /-- R225. FACL loads a fraction into an accumulator. -/
  | facl (x : CtxId) (u : Upset := .none)
  /-- R225. FSHA scales an accumulator by a power of two with rounding. -/
  | fsha (x : CtxId) (u : Upset := .none)
  /-- R225. FRND rounds an accumulator into a Q1.15 or Q1.31 register. -/
  | frnd (x : CtxId) (u : Upset := .none)
  /-- R225. FMVA moves an accumulator's raw bits to a G register. -/
  | fmva (x : CtxId) (u : Upset := .none)
  /-- R225. FMVG moves raw bits from a G register to an accumulator. -/
  | fmvg (x : CtxId) (u : Upset := .none)
  /-- R230. BSET sets a bit of the bit space indivisibly. -/
  | bset (x : CtxId) (u : Upset := .none)
  /-- R230. BCLR clears a bit of the bit space indivisibly. -/
  | bclr (x : CtxId) (u : Upset := .none)
  /-- R230. BTAS returns a bit and sets it indivisibly. -/
  | btas (x : CtxId) (u : Upset := .none)
  /-- R230. BTST returns a bit of the bit space. -/
  | btst (x : CtxId) (u : Upset := .none)
  /-- R230. BFEXT extracts a bit field. -/
  | bfext (x : CtxId) (u : Upset := .none)
  /-- R230. BFINS inserts a bit field. -/
  | bfins (x : CtxId) (u : Upset := .none)
  /-- R230. BPOP counts the set bits of a bit range. -/
  | bpop (x : CtxId) (u : Upset := .none)
  /-- R230. BFF finds the first set bit of a bit range. -/
  | bff (x : CtxId) (u : Upset := .none)
  /-- R234. SPB.GO submits a Spoonbill descriptor to the tenant's unit and takes a ticket. -/
  | spbGo (x : CtxId) (u : Upset := .none)
  /-- R235. SPB.WAIT collects a ticket's completion, waiting unless .N is given. -/
  | spbWait (x : CtxId) (u : Upset := .none)
  /-- R109. SITE.TAKE claims the oldest takeable frame into the tenant's buffer, or gives up the context or returns NONE. -/
  | siteTake (x : CtxId) (u : Upset := .none)
  /-- R110. SITE.POST copies an output frame to a hold slot, assigns the next sequence and sends or holds it. -/
  | sitePost (x : CtxId) (u : Upset := .none)
  /-- R111. SITE.SETTLE stores the settlement word and body and closes the transaction toward settlement. -/
  | siteSettle (x : CtxId) (u : Upset := .none)
  /-- R427. LAPP queues an APPEND record of the tenant's journal. -/
  | lapp (x : CtxId) (u : Upset := .none)
  /-- R296. TLBI removes selected translations on every core, retiring before it completes. -/
  | tlbi (x : CtxId) (u : Upset := .none)
  /-- R293. TLBL loads a locked TLB slot with a translation. -/
  | tlbl (x : CtxId) (u : Upset := .none)
  /-- R294. TLBU empties a locked TLB slot. -/
  | tlbu (x : CtxId) (u : Upset := .none)
  /-- R281. KSET writes a frame's key byte and completes when every later key check uses it. -/
  | kset (x : CtxId) (u : Upset := .none)
  /-- R281. KGET returns a frame's key byte. -/
  | kget (x : CtxId) (u : Upset := .none)
  /-- R281. KRST returns a frame's key byte and clears its REF bit indivisibly. -/
  | krst (x : CtxId) (u : Upset := .none)
  /-- R411. KLOAD queues a load of a tenant's vault entry into a key slot. -/
  | kload (x : CtxId) (u : Upset := .none)
  /-- R412. KERASE zeroes the slot holding a tenant's key and marks the key REVOKED. -/
  | kerase (x : CtxId) (u : Upset := .none)
  /-- R313. A retired store leaves the store buffer in program order and is performed in memory, becoming visible to every agent and setting CHG. -/
  | storePerformed (x : CtxId)
  /-- R531. A FUSE_CTRL operation ends after its 20 µs pulses and verification, clearing FUSE_STATUS.BUSY, writing RESULT and BIT, and counting a verified VERSION_FLOOR bit in F. -/
  | fuseCtrlDone (verified : Bool)
  /-- R385. An enclave commit completes when every later check uses the new table and every access checked under the old one is performed, clearing ENCL_STATUS.BUSY and writing RESULT. -/
  | enclCommitDone (u : Upset := .none)
  /-- R57. 10 µs after the internal reset ends, with HBCLK running, the host interface begins to accept bus cycles. -/
  | interfaceAcceptsCycles
  deriving DecidableEq, Repr

end Sys2Proof
end

