-- ==== Sys2Proof/Machine/Sparse.lean ====
section
/-! DEFINITION. Sparse maps with natural-number keys: a list of entries in one canonical form (keys strictly rising,
no entry equal to the value an unlisted key has), and the byte, lane and list helpers the operations share. -/

namespace Sys2Proof.Machine

/-- A sparse map: listed keys with their values. What an unlisted key has is given at each use. -/
abbrev SMap (α : Type) := List (Nat × α)

/-- The value of key `k`; `d` where the key is not listed. -/
def smGet {α : Type} (m : SMap α) (d : α) (k : Nat) : α :=
  match m with
  | [] => d
  | (k', v) :: t => if k' = k then v else smGet t d k

/-- Put an entry before the first larger key. -/
def smPut {α : Type} (m : SMap α) (k : Nat) (v : α) : SMap α :=
  match m with
  | [] => [(k, v)]
  | (k', v') :: t => if k < k' then (k, v) :: (k', v') :: t else (k', v') :: smPut t k v

/-- Remove every entry of key `k`. -/
def smDrop {α : Type} (m : SMap α) (k : Nat) : SMap α :=
  m.filter (fun e => e.1 != k)

/-- Give key `k` the value `v`, keeping the canonical form: an entry equal to the default `d` is not listed. -/
def smSet {α : Type} [DecidableEq α] (m : SMap α) (d : α) (k : Nat) (v : α) : SMap α :=
  if v = d then smDrop m k else smPut (smDrop m k) k v

/-- The keys rise strictly. -/
def smRising {α : Type} (m : SMap α) : Bool :=
  match m with
  | [] => true
  | [_] => true
  | (k, _) :: (k', v') :: t => decide (k < k') && smRising ((k', v') :: t)

/-- The canonical form: keys strictly rising and no entry equal to the default. -/
def smWf {α : Type} [DecidableEq α] (m : SMap α) (d : α) : Bool :=
  smRising m && m.all (fun e => decide (e.2 ≠ d))

/-- Byte `k` (0 is the least significant) of a number (R11). -/
def byteOf (v k : Nat) : Byte := BitVec.ofNat 8 (v >>> (8 * k))

/-- The number whose bytes are listed least significant first (R11). -/
def leNat (bs : List Byte) : Nat :=
  match bs with
  | [] => 0
  | b :: t => b.toNat + 256 * leNat t

/-- The number whose bytes are listed most significant first (R12). -/
def beNat (bs : List Byte) : Nat :=
  bs.foldl (fun a b => a * 256 + b.toNat) 0

/-- The `n` low bytes of a number, least significant first (R11). -/
def leBytes (n v : Nat) : List Byte :=
  (List.range n).map (byteOf v)

/-- The `n` low bytes of a number, most significant first (R12). -/
def beBytes (n v : Nat) : List Byte := (leBytes n v).reverse

/-- The 32-bit mask whose byte lane k is all ones where lane k is enabled (R19). -/
def laneMask (be : BitVec 4) : Word32 :=
  (if be.getLsbD 3 then 0xFF#8 else 0#8) ++ (if be.getLsbD 2 then 0xFF#8 else 0#8) ++
  (if be.getLsbD 1 then 0xFF#8 else 0#8) ++ (if be.getLsbD 0 then 0xFF#8 else 0#8)

/-- Merge `new` into `old` at the bits of a mask. -/
def mergeBits {w : Nat} (old mask new : BitVec w) : BitVec w := (old &&& ~~~mask) ||| (new &&& mask)

/-- Bits [hi:lo] of a word, as a number (R10). -/
def bitsOf {w : Nat} (v : BitVec w) (hi lo : Nat) : Nat := (v.toNat >>> lo) % 2 ^ (hi + 1 - lo)

/-- Whether bit `k` of a word is set (R10). -/
def bitAt {w : Nat} (v : BitVec w) (k : Nat) : Bool := v.getLsbD k

/-- The word with bits [hi:lo] holding the low bits of `x`. -/
def setBits {w : Nat} (v : BitVec w) (hi lo x : Nat) : BitVec w :=
  mergeBits v (BitVec.ofNat w ((2 ^ (hi + 1 - lo) - 1) <<< lo)) (BitVec.ofNat w (x <<< lo))

/-- The word with bit `k` at `b`. -/
def setBit {w : Nat} (v : BitVec w) (k : Nat) (b : Bool) : BitVec w := setBits v k k b.toNat

/-- One, as a bit of a number. -/
def bit (b : Bool) : Nat := if b then 1 else 0

/-- The sum of the numbers of a list. -/
def sumNat (l : List Nat) : Nat := l.foldl (· + ·) 0

/-- The word whose bit k is `f k`, for k below `n`. -/
def bitsFrom {w : Nat} (n : Nat) (f : Nat → Bool) : BitVec w :=
  BitVec.ofNat w (sumNat ((List.range n).map (fun k => if f k then 2 ^ k else 0)))

/-- The first element of a list with the smallest measure. -/
def minBy {α : Type} (f : α → Nat) : List α → Option α
  | [] => none
  | a :: t =>
    match minBy f t with
    | none => some a
    | some b => if f a ≤ f b then some a else some b

/-- Whether the low `n` bits of a number hold an odd number of ones (R45). -/
def parityOf (n v : Nat) : Bool :=
  (sumNat ((List.range n).map (fun k => (v >>> k) % 2))) % 2 == 1

end Sys2Proof.Machine
end

