-- ==== Sys2Proof/Machine/Crypto.lean ====
section
/-! DEFINITION. SHA-384, HMAC-SHA-384 and AES-256-GCM, which the spec names through their standards (R402, R407, R425,
R460): FIPS 180-4, FIPS 198-1, FIPS 197 and SP 800-38D (notes/assumptions/3.md). -/

namespace Sys2Proof.Machine

/-! ## SHA-384 -/

/-- K of rounds 0 to 15 (FIPS 180-4, 4.2.3). -/
def shaK0 : List Word :=
  [0x428A2F98D728AE22, 0x7137449123EF65CD, 0xB5C0FBCFEC4D3B2F, 0xE9B5DBA58189DBBC,
   0x3956C25BF348B538, 0x59F111F1B605D019, 0x923F82A4AF194F9B, 0xAB1C5ED5DA6D8118,
   0xD807AA98A3030242, 0x12835B0145706FBE, 0x243185BE4EE4B28C, 0x550C7DC3D5FFB4E2,
   0x72BE5D74F27B896F, 0x80DEB1FE3B1696B1, 0x9BDC06A725C71235, 0xC19BF174CF692694]

/-- K of rounds 16 to 31 (FIPS 180-4, 4.2.3). -/
def shaK1 : List Word :=
  [0xE49B69C19EF14AD2, 0xEFBE4786384F25E3, 0x0FC19DC68B8CD5B5, 0x240CA1CC77AC9C65,
   0x2DE92C6F592B0275, 0x4A7484AA6EA6E483, 0x5CB0A9DCBD41FBD4, 0x76F988DA831153B5,
   0x983E5152EE66DFAB, 0xA831C66D2DB43210, 0xB00327C898FB213F, 0xBF597FC7BEEF0EE4,
   0xC6E00BF33DA88FC2, 0xD5A79147930AA725, 0x06CA6351E003826F, 0x142929670A0E6E70]

/-- K of rounds 32 to 47 (FIPS 180-4, 4.2.3). -/
def shaK2 : List Word :=
  [0x27B70A8546D22FFC, 0x2E1B21385C26C926, 0x4D2C6DFC5AC42AED, 0x53380D139D95B3DF,
   0x650A73548BAF63DE, 0x766A0ABB3C77B2A8, 0x81C2C92E47EDAEE6, 0x92722C851482353B,
   0xA2BFE8A14CF10364, 0xA81A664BBC423001, 0xC24B8B70D0F89791, 0xC76C51A30654BE30,
   0xD192E819D6EF5218, 0xD69906245565A910, 0xF40E35855771202A, 0x106AA07032BBD1B8]

/-- K of rounds 48 to 63 (FIPS 180-4, 4.2.3). -/
def shaK3 : List Word :=
  [0x19A4C116B8D2D0C8, 0x1E376C085141AB53, 0x2748774CDF8EEB99, 0x34B0BCB5E19B48A8,
   0x391C0CB3C5C95A63, 0x4ED8AA4AE3418ACB, 0x5B9CCA4F7763E373, 0x682E6FF3D6B2B8A3,
   0x748F82EE5DEFB2FC, 0x78A5636F43172F60, 0x84C87814A1F0AB72, 0x8CC702081A6439EC,
   0x90BEFFFA23631E28, 0xA4506CEBDE82BDE9, 0xBEF9A3F7B2C67915, 0xC67178F2E372532B]

/-- K of rounds 64 to 79 (FIPS 180-4, 4.2.3). -/
def shaK4 : List Word :=
  [0xCA273ECEEA26619C, 0xD186B8C721C0C207, 0xEADA7DD6CDE0EB1E, 0xF57D4F7FEE6ED178,
   0x06F067AA72176FBA, 0x0A637DC5A2C898A6, 0x113F9804BEF90DAE, 0x1B710B35131C471B,
   0x28DB77F523047D84, 0x32CAAB7B40C72493, 0x3C9EBE0A15C9BEBC, 0x431D67C49C100D4C,
   0x4CC5D4BECB3E42B6, 0x597F299CFC657E2A, 0x5FCB6FAB3AD6FAEC, 0x6C44198C4A475817]

/-- The round constants. -/
def shaK : List Word := shaK0 ++ shaK1 ++ shaK2 ++ shaK3 ++ shaK4

/-- The eight working words. -/
structure Sha where
  a : Word
  b : Word
  c : Word
  d : Word
  e : Word
  f : Word
  g : Word
  h : Word
  deriving DecidableEq, Repr

/-- The initial hash value of SHA-384 (FIPS 180-4, 5.3.4). -/
def Sha.init : Sha :=
  ⟨0xCBBB9D5DC1059ED8, 0x629A292A367CD507, 0x9159015A3070DD17, 0x152FECD8F70E5939,
   0x67332667FFC00B31, 0x8EB44A8768581511, 0xDB0C2E0D64F98FA7, 0x47B5481DBEFA4FA4⟩

/-- The exclusive or of three rotations to the right. -/
def rot3 (x : Word) (i j k : Nat) : Word := x.rotateRight i ^^^ x.rotateRight j ^^^ x.rotateRight k

/-- One round, with its constant and its schedule word. -/
def Sha.round (s : Sha) (k : Word × Word) : Sha :=
  let t := s.h + rot3 s.e 14 18 41 + ((s.e &&& s.f) ^^^ (~~~s.e &&& s.g)) + k.1 + k.2
  let u := rot3 s.a 28 34 39 + ((s.a &&& s.b) ^^^ (s.a &&& s.c) ^^^ (s.b &&& s.c))
  ⟨t + u, s.a, s.b, s.c, s.d + t, s.e, s.f, s.g⟩

/-- The sum of two hash values. -/
def Sha.add (s t : Sha) : Sha := ⟨s.a + t.a, s.b + t.b, s.c + t.c, s.d + t.d, s.e + t.e, s.f + t.f, s.g + t.g, s.h + t.h⟩

/-- Extend the message schedule by `n` words; the newest word stands first. -/
def shaSchedule : Nat → List Word → List Word
  | 0, l => l
  | n + 1, l =>
    let p := fun k => l.getD k 0
    let s0 := (p 14).rotateRight 1 ^^^ (p 14).rotateRight 8 ^^^ (p 14 >>> 7)
    let s1 := (p 1).rotateRight 19 ^^^ (p 1).rotateRight 61 ^^^ (p 1 >>> 6)
    shaSchedule n ((s1 + p 6 + s0 + p 15) :: l)

/-- The bytes of a message block as sixteen words, the first byte the most significant. -/
def shaWords (b : List Byte) : List Word :=
  (List.range 16).map (fun i => BitVec.ofNat 64 (beNat ((b.drop (8 * i)).take 8)))

/-- Hash one block. -/
def Sha.block (s : Sha) (b : List Byte) : Sha :=
  s.add ((shaK.zip (shaSchedule 64 (shaWords b).reverse).reverse).foldl Sha.round s)

/-- Hash `n` blocks. -/
def Sha.blocks : Nat → Sha → List Byte → Sha
  | 0, s, _ => s
  | n + 1, s, bs => Sha.blocks n (s.block (bs.take 128)) (bs.drop 128)

/-- The padding of a message of `n` bytes. -/
def shaPad (n : Nat) : List Byte := 0x80 :: (List.replicate ((239 - n % 128) % 128) 0 ++ beBytes 16 (8 * n))

/-- SHA-384 of a message (FIPS 180-4), its first byte the most significant. -/
@[irreducible] def sha384 (m : List Byte) : BitVec 384 :=
  let p := m ++ shaPad m.length
  let s := Sha.init.blocks (p.length / 128) p
  s.a ++ s.b ++ s.c ++ s.d ++ s.e ++ s.f

/-- The 48 bytes of a SHA-384 value. -/
def digestBytes (d : BitVec 384) : List Byte := beBytes 48 d.toNat

/-- HMAC-SHA-384 of a key of at most 128 bytes and a message (FIPS 198-1). -/
@[irreducible] def hmacSha384 (key m : List Byte) : BitVec 384 :=
  let k := key ++ List.replicate (128 - key.length) 0
  sha384 (k.map (· ^^^ 0x5C) ++ digestBytes (sha384 (k.map (· ^^^ 0x36) ++ m)))

/-! ## AES-256 -/

/-- The S-box at 0x00 to 0x3F (FIPS 197, Figure 7). -/
def aesBox0 : List Byte :=
  [0x63, 0x7C, 0x77, 0x7B, 0xF2, 0x6B, 0x6F, 0xC5, 0x30, 0x01, 0x67, 0x2B, 0xFE, 0xD7, 0xAB, 0x76,
   0xCA, 0x82, 0xC9, 0x7D, 0xFA, 0x59, 0x47, 0xF0, 0xAD, 0xD4, 0xA2, 0xAF, 0x9C, 0xA4, 0x72, 0xC0,
   0xB7, 0xFD, 0x93, 0x26, 0x36, 0x3F, 0xF7, 0xCC, 0x34, 0xA5, 0xE5, 0xF1, 0x71, 0xD8, 0x31, 0x15,
   0x04, 0xC7, 0x23, 0xC3, 0x18, 0x96, 0x05, 0x9A, 0x07, 0x12, 0x80, 0xE2, 0xEB, 0x27, 0xB2, 0x75]

/-- The S-box at 0x40 to 0x7F (FIPS 197, Figure 7). -/
def aesBox1 : List Byte :=
  [0x09, 0x83, 0x2C, 0x1A, 0x1B, 0x6E, 0x5A, 0xA0, 0x52, 0x3B, 0xD6, 0xB3, 0x29, 0xE3, 0x2F, 0x84,
   0x53, 0xD1, 0x00, 0xED, 0x20, 0xFC, 0xB1, 0x5B, 0x6A, 0xCB, 0xBE, 0x39, 0x4A, 0x4C, 0x58, 0xCF,
   0xD0, 0xEF, 0xAA, 0xFB, 0x43, 0x4D, 0x33, 0x85, 0x45, 0xF9, 0x02, 0x7F, 0x50, 0x3C, 0x9F, 0xA8,
   0x51, 0xA3, 0x40, 0x8F, 0x92, 0x9D, 0x38, 0xF5, 0xBC, 0xB6, 0xDA, 0x21, 0x10, 0xFF, 0xF3, 0xD2]

/-- The S-box at 0x80 to 0xBF (FIPS 197, Figure 7). -/
def aesBox2 : List Byte :=
  [0xCD, 0x0C, 0x13, 0xEC, 0x5F, 0x97, 0x44, 0x17, 0xC4, 0xA7, 0x7E, 0x3D, 0x64, 0x5D, 0x19, 0x73,
   0x60, 0x81, 0x4F, 0xDC, 0x22, 0x2A, 0x90, 0x88, 0x46, 0xEE, 0xB8, 0x14, 0xDE, 0x5E, 0x0B, 0xDB,
   0xE0, 0x32, 0x3A, 0x0A, 0x49, 0x06, 0x24, 0x5C, 0xC2, 0xD3, 0xAC, 0x62, 0x91, 0x95, 0xE4, 0x79,
   0xE7, 0xC8, 0x37, 0x6D, 0x8D, 0xD5, 0x4E, 0xA9, 0x6C, 0x56, 0xF4, 0xEA, 0x65, 0x7A, 0xAE, 0x08]

/-- The S-box at 0xC0 to 0xFF (FIPS 197, Figure 7). -/
def aesBox3 : List Byte :=
  [0xBA, 0x78, 0x25, 0x2E, 0x1C, 0xA6, 0xB4, 0xC6, 0xE8, 0xDD, 0x74, 0x1F, 0x4B, 0xBD, 0x8B, 0x8A,
   0x70, 0x3E, 0xB5, 0x66, 0x48, 0x03, 0xF6, 0x0E, 0x61, 0x35, 0x57, 0xB9, 0x86, 0xC1, 0x1D, 0x9E,
   0xE1, 0xF8, 0x98, 0x11, 0x69, 0xD9, 0x8E, 0x94, 0x9B, 0x1E, 0x87, 0xE9, 0xCE, 0x55, 0x28, 0xDF,
   0x8C, 0xA1, 0x89, 0x0D, 0xBF, 0xE6, 0x42, 0x68, 0x41, 0x99, 0x2D, 0x0F, 0xB0, 0x54, 0xBB, 0x16]

/-- The S-box. -/
def aesBox : List Byte := aesBox0 ++ aesBox1 ++ aesBox2 ++ aesBox3

/-- One byte through the S-box. -/
def aesSub (b : Byte) : Byte := aesBox.getD b.toNat 0

/-- The exclusive or of two byte strings. -/
def xorBytes (a b : List Byte) : List Byte := (a.zip b).map (fun p => p.1 ^^^ p.2)

/-- Word `i` of the key schedule, from the words before it, the newest first. -/
def aesKeyWord (i : Nat) (l : List (List Byte)) : List Byte :=
  let t := l.getD 0 []
  let u := if i % 8 = 0 then xorBytes ((t.drop 1 ++ t.take 1).map aesSub) [BitVec.ofNat 8 (2 ^ (i / 8 - 1)), 0, 0, 0]
           else if i % 8 = 4 then t.map aesSub else t
  xorBytes (l.getD 7 []) u

/-- Extend the key schedule by `n` words. -/
def aesExpand : Nat → List (List Byte) → List (List Byte)
  | 0, l => l
  | n + 1, l => aesExpand n (aesKeyWord l.length l :: l)

/-- The fifteen round keys of a 256-bit key. -/
def aesKeys (key : List Byte) : List (List Byte) :=
  let w := (aesExpand 52 ((List.range 8).map (fun i => (key.drop (4 * i)).take 4)).reverse).reverse
  (List.range 15).map (fun r => ((w.drop (4 * r)).take 4).flatten)

/-- Twice a byte in the field of AES. -/
def xtime (b : Byte) : Byte := if b.getLsbD 7 then (b <<< 1) ^^^ 0x1B else b <<< 1

/-- SubBytes and ShiftRows. -/
def aesShift (s : List Byte) : List Byte := (List.range 16).map (fun i => aesSub (s.getD ((i + 4 * (i % 4)) % 16) 0))

/-- MixColumns. -/
def aesMix (s : List Byte) : List Byte :=
  (List.range 16).map (fun i =>
    let p := fun k => s.getD (i / 4 * 4 + (i + k) % 4) 0
    xtime (p 0) ^^^ (xtime (p 1) ^^^ p 1) ^^^ p 2 ^^^ p 3)

/-- The rounds of a block with the round keys that remain. -/
def aesRounds (s : List Byte) : List (List Byte) → List Byte
  | [] => s
  | [k] => xorBytes (aesShift s) k
  | k :: t => aesRounds (xorBytes (aesMix (aesShift s)) k) t

/-- AES encryption of a block of 16 bytes under round keys. -/
def aesBlock (keys : List (List Byte)) (b : List Byte) : List Byte :=
  match keys with
  | [] => b
  | k :: t => aesRounds (xorBytes b k) t

/-! ## GCM (SP 800-38D), with an IV of 12 bytes -/

/-- The bytes of a 256-bit key, the first the most significant. -/
def keyBytes (key : BitVec 256) : List Byte := beBytes 32 key.toNat

/-- The counter block with a count. -/
def gcmCounter (iv : List Byte) (n : Nat) : List Byte := iv ++ beBytes 4 n

/-- The key stream of `n` blocks from a count on. -/
def gcmBlocks (keys : List (List Byte)) (iv : List Byte) (first n : Nat) : List Byte :=
  (List.range n).flatMap (fun i => aesBlock keys (gcmCounter iv (first + i)))

/-- The first `n` bytes of the key stream. -/
@[irreducible] def gcmStream (key : BitVec 256) (iv : List Byte) (n : Nat) : List Byte :=
  (gcmBlocks (aesKeys (keyBytes key)) iv 2 ((n + 15) / 16)).take n

/-- A block as a number, its first bit the most significant. -/
def blockNum (b : List Byte) : BitVec 128 := BitVec.ofNat 128 (beNat b)

/-- The product of two blocks. -/
def gcmMul (x y : BitVec 128) : BitVec 128 :=
  ((List.range 128).foldl (fun (zv : BitVec 128 × BitVec 128) i =>
    (if x.getLsbD (127 - i) then zv.1 ^^^ zv.2 else zv.1,
     if zv.2.getLsbD 0 then (zv.2 >>> 1) ^^^ 0xE1000000000000000000000000000000#128 else zv.2 >>> 1)) (0, y)).1

/-- GHASH of `n` blocks. -/
def ghash (h : BitVec 128) : Nat → BitVec 128 → List Byte → BitVec 128
  | 0, y, _ => y
  | n + 1, y, bs => ghash h n (gcmMul (y ^^^ blockNum (bs.take 16)) h) (bs.drop 16)

/-- A byte string padded with zeros to whole blocks. -/
def padBlocks (b : List Byte) : List Byte := b ++ List.replicate ((16 - b.length % 16) % 16) 0

/-- The tag for a key, an IV, additional data and a ciphertext; its byte k is bits [8k+7:8k]. -/
@[irreducible] def gcmTag (key : BitVec 256) (iv aad ct : List Byte) : BitVec 128 :=
  let keys := aesKeys (keyBytes key)
  let x := padBlocks aad ++ padBlocks ct ++ beBytes 8 (8 * aad.length) ++ beBytes 8 (8 * ct.length)
  let y := ghash (blockNum (aesBlock keys (List.replicate 16 0))) (x.length / 16) 0 x
  BitVec.ofNat 128 (leNat (beBytes 16 (y ^^^ blockNum (aesBlock keys (gcmCounter iv 1))).toNat))

end Sys2Proof.Machine
end

