-- ==== Sys2Proof/Config.lean ====
section
/-! DEFINITION. What an implementation fixes and the values the spec leaves free: opaque constants, which nothing in
Lean can evaluate (notes/assumptions/2.md). -/

namespace Sys2Proof.Config

/-- Fresh free 64-bit values, applied to the model's own counter in State: DRBG outputs (R414-R418) and every value the
spec leaves open (notes/assumptions/2.md). -/
opaque freeWord : Nat → Word

/-- A byte of the mask boot ROM (R29); its contents are not in the spec. -/
opaque romByte : Nat → Byte

/-- The words of the micro-store ROM and of the nano-store ROM (Table 20.1); their contents are not in the spec (R478). -/
opaque microRom : Nat → BitVec 20
/-- The words of the nano-store ROM. -/
opaque nanoRom : Nat → BitVec 176

/-- The register that a W-form CAS.D syllable stores: the spec gives its data register and address but no field for Gs
(R253; notes/assumptions/30.md). -/
opaque casSource : BitVec 32 → BitVec 5

end Sys2Proof.Config
end

