-- ==== Sys2Proof/Machine/Regs.lean ====
section
/-! DEFINITION. The registers of the device region and of the host window, by name: their places, their reset values
and the access type of each bit (spec/00 R14-R19, spec/01 Table 1.3, and the register tables of spec/02 to spec/23). -/

namespace Sys2Proof.Machine

/-- Global registers (spec/02, Table 2.7). -/
inductive GReg where
  | chipId | chipRev
  | uid (k : BitVec 2)
  | lcState | resetCause | bootStatus | bootSrcUsed | hostCtrl | hostStatus | hintStatus | hintEnable
  | busErrAddr | busErrInfo | aperBaseLo | aperBaseHi | mbxCtrl | mbxStatus | cfgEpoch | cfgCommit | cfgProgress
  | coreRelease | coreState | coreFence | siteAttnSum | linkUpLo | linkUpHi | thermStatus | vmonStatus | clkCtrl
  | clkStatus | dramStatus | rngStatus | wdtStatus | updCtrl | updStatus | mchkStatus | nmiCtrl | hostTimeout
  | scratch0 | scratch1 | bankJournal | thermUserOfs | drvUserAdj | entropyLevel | rngData
  deriving DecidableEq, Repr

/-- System registers of the device region above offset 0x3FF. -/
inductive DReg where
  | ctxBaseLo | ctxBaseHi | siteBufBaseLo | siteBufBaseHi
  | spaceBaseLo | spaceBaseHi | secRootLo | secRootHi | keyBaseLo | keyBaseHi
  | l3WayMap (k : BitVec 4)
  | l3SecWays | l3Ctrl
  | integCeDram | integCeL3 | integCeL2 | integCeSram | integL1Refetch | integPoisonUse | integPoisonDrop
  | integCrcStomp | integRecInfo | integRecAddrLo | integRecAddrHi | scrubCtrl | scrubStatus
  | irqLinePend | irqLineEn
  | irqRoute (k : BitVec 5)
  | secWeirLo | secWeirHi | sramWeir | enclCtrl | enclCommit | enclStatus
  | assignLinkLo | assignLinkHi | assignTimerLo | assignTimerHi | assignDbellLo | assignDbellHi
  | assignLine | assignRing | assignLock
  | dbgEn | wdtCtrl | wdtKick | coreReturn | coreReturnStatus
  | ueCmd | ueStatus | ueSrcLo | ueSrcHi | ueOfs | ueLen
  | ueMeas (k : Fin 12)
  | ueInfo | ueVaultLo | ueVaultHi
  | ucStatus | ucCtrl | ucPatchId | ucCounts
  | ucPatchMeas (k : Fin 12)
  | calThermFact | calThermGain | calThermEff | calVmonFact | calVmonUser | calVmonEff | calDrvFact | calHostDly
  | calEqFact (g : BitVec 2)
  | fuseCtrl | fuseStatus | fuseBootLo | fuseBootHi | fuseOwnerFlags
  | fuseFloor (k : BitVec 2)
  | sfIoCtrl
  deriving DecidableEq, Repr

/-- Interrupt registers and start pair of one context (spec/15, Table 15.5; spec/18, R454). -/
inductive XReg where
  | irqPend | irqEn | doorbell | nmi | startLo | startHi
  deriving DecidableEq, Repr

/-- Registers of one ledger core (spec/03, Table 3.8; spec/07 R198; spec/18 R451; spec/20 R486). -/
inductive CReg where
  | status
  | ctx (x : BitVec 2)
  | dispatch | quantum | preempt | dispatchCount | fenceInfo | asyncErrLo | asyncErrHi
  | avocetRetry | ucErr
  | cx (x : BitVec 2) (r : XReg)
  | coreVecLo | coreVecHi
  deriving DecidableEq, Repr

/-- Registers of the boot core (spec/18, Table 18.6; spec/15 R362; spec/20 R486). -/
inductive BReg where
  | status | step | srcResult | elapsed
  | monMeas (k : Fin 12)
  | monSvn | monEntryLo | monEntryHi | train | softReset | romLock
  | ucErr
  | cx (r : XReg)
  deriving DecidableEq, Repr

/-- Registers of one site block (spec/03, Table 3.1). -/
inductive SReg where
  | ctrl | status | attn | attnEn | groupAttn | tenantState | faultInfo | link | cls | affinity | holdLimit
  | seqOut | seqAck
  | bin (k : BitVec 4)
  | totalPass | totalFail | totalRetest | totalWoff
  | jrnlBaseLo | jrnlBaseHi | jrnlHead | jrnlTail | keyState
  deriving DecidableEq, Repr

/-- Registers of one link controller (spec/03, Table 3.9; spec/04, Table 4.8). -/
inductive LReg where
  | ctrl | status | eq | eqEff | crcErr | retry | lost
  | dispose | disposeResult | prbsErr | badFrame | offWindow
  | inSeq (s : StationId)
  deriving DecidableEq, Repr

/-- Curlew control registers (spec/17, Table 17.6). -/
inductive KReg where
  | vaultLo | vaultHi | stageLo | stageHi | ladderStatus | cwReq
  | slotStatus (k : LinkId)
  | crBaseLo (k : BitVec 3) | crBaseHi (k : BitVec 3) | crProd (k : BitVec 3) | crCons (k : BitVec 3)
  deriving DecidableEq, Repr

/-- The doorbell page of one tenant (spec/17, R428). -/
inductive PReg where
  | cdHead | cdTail | cdKeyState | cdDone | cdLastSeq | cdLastStatus
  deriving DecidableEq, Repr

/-- Timer registers (spec/15, R364). -/
inductive TReg where
  | timeLo | timeHi
  | cmpLo (x : CtxId) | cmpHi (x : CtxId) | ctrl (x : CtxId)
  deriving DecidableEq, Repr

/-- A register of the device region. -/
inductive Reg where
  | g (r : GReg)
  | d (r : DReg)
  | core (c : CoreId) (r : CReg)
  | boot (r : BReg)
  | site (n : SiteId) (r : SReg)
  | link (k : LinkId) (r : LReg)
  | curlew (r : KReg)
  | door (n : SiteId) (r : PReg)
  | timer (r : TReg)
  deriving DecidableEq, Repr

/-- Offset in the host window and in the system registers (Table 2.7). -/
def GReg.off : GReg → Nat
  | .chipId => 0x000 | .chipRev => 0x004 | .uid k => 0x008 + 4 * k.toNat
  | .lcState => 0x018 | .resetCause => 0x01C | .bootStatus => 0x020 | .bootSrcUsed => 0x024
  | .hostCtrl => 0x028 | .hostStatus => 0x02C | .hintStatus => 0x030 | .hintEnable => 0x034
  | .busErrAddr => 0x038 | .busErrInfo => 0x03C | .aperBaseLo => 0x040 | .aperBaseHi => 0x044
  | .mbxCtrl => 0x048 | .mbxStatus => 0x04C | .cfgEpoch => 0x050 | .cfgCommit => 0x054 | .cfgProgress => 0x058
  | .coreRelease => 0x05C | .coreState => 0x060 | .coreFence => 0x064 | .siteAttnSum => 0x068
  | .linkUpLo => 0x06C | .linkUpHi => 0x070 | .thermStatus => 0x074 | .vmonStatus => 0x078 | .clkCtrl => 0x07C
  | .clkStatus => 0x080 | .dramStatus => 0x084 | .rngStatus => 0x088 | .wdtStatus => 0x08C | .updCtrl => 0x090
  | .updStatus => 0x094 | .mchkStatus => 0x098 | .nmiCtrl => 0x09C | .hostTimeout => 0x0A0 | .scratch0 => 0x0A4
  | .scratch1 => 0x0A8 | .bankJournal => 0x0AC | .thermUserOfs => 0x0B0 | .drvUserAdj => 0x0B4
  | .entropyLevel => 0x0B8 | .rngData => 0x0BC

/-- Offset from 0xF1_0000_0000 (Tables 11.1, 13.4, 14.4, 15.6, 16.1, 16.2, 16.5, 16.10, 19.5, 20.6, 21.3, 22.4a, 22.7,
23.10). -/
def DReg.off : DReg → Nat
  | .ctxBaseLo => 0x400 | .ctxBaseHi => 0x404 | .siteBufBaseLo => 0x408 | .siteBufBaseHi => 0x40C
  | .spaceBaseLo => 0x410 | .spaceBaseHi => 0x414 | .secRootLo => 0x418 | .secRootHi => 0x41C
  | .keyBaseLo => 0x420 | .keyBaseHi => 0x424
  | .l3WayMap k => 0x500 + 4 * k.toNat | .l3SecWays => 0x540 | .l3Ctrl => 0x544
  | .integCeDram => 0x600 | .integCeL3 => 0x604 | .integCeL2 => 0x608 | .integCeSram => 0x60C
  | .integL1Refetch => 0x610 | .integPoisonUse => 0x614 | .integPoisonDrop => 0x618 | .integCrcStomp => 0x61C
  | .integRecInfo => 0x620 | .integRecAddrLo => 0x624 | .integRecAddrHi => 0x628
  | .scrubCtrl => 0x630 | .scrubStatus => 0x634
  | .irqLinePend => 0x700 | .irqLineEn => 0x704 | .irqRoute k => 0x780 + 4 * k.toNat
  | .secWeirLo => 0x800 | .secWeirHi => 0x804 | .sramWeir => 0x808
  | .enclCtrl => 0x810 | .enclCommit => 0x814 | .enclStatus => 0x818
  | .assignLinkLo => 0x820 | .assignLinkHi => 0x824 | .assignTimerLo => 0x828 | .assignTimerHi => 0x82C
  | .assignDbellLo => 0x830 | .assignDbellHi => 0x834 | .assignLine => 0x838 | .assignRing => 0x83C
  | .assignLock => 0x840 | .dbgEn => 0x850 | .wdtCtrl => 0x860 | .wdtKick => 0x864
  | .coreReturn => 0x900 | .coreReturnStatus => 0x904
  | .ueCmd => 0xA00 | .ueStatus => 0xA04 | .ueSrcLo => 0xA08 | .ueSrcHi => 0xA0C | .ueOfs => 0xA10 | .ueLen => 0xA14
  | .ueMeas k => 0xA20 + 4 * k.val | .ueInfo => 0xA50 | .ueVaultLo => 0xA58 | .ueVaultHi => 0xA5C
  | .ucStatus => 0xB00 | .ucCtrl => 0xB04 | .ucPatchId => 0xB08 | .ucCounts => 0xB0C
  | .ucPatchMeas k => 0xB10 + 4 * k.val
  | .calThermFact => 0xC00 | .calThermGain => 0xC04 | .calThermEff => 0xC08 | .calVmonFact => 0xC0C
  | .calVmonUser => 0xC10 | .calVmonEff => 0xC14 | .calDrvFact => 0xC18 | .calHostDly => 0xC1C
  | .calEqFact g => 0xC20 + 4 * g.toNat
  | .fuseCtrl => 0xD00 | .fuseStatus => 0xD04 | .fuseBootLo => 0xD08 | .fuseBootHi => 0xD0C
  | .fuseOwnerFlags => 0xD10 | .fuseFloor k => 0xD14 + 4 * k.toNat
  | .sfIoCtrl => 0xE00

/-- Offset from a context's interrupt registers (Table 15.5). -/
def XReg.off : XReg → Nat
  | .irqPend => 0x0 | .irqEn => 0x4 | .doorbell => 0x8 | .nmi => 0xC | .startLo => 0x10 | .startHi => 0x14

/-- Offset in a core block (Table 3.8 and the device-region registers above it). -/
def CReg.off : CReg → Nat
  | .status => 0x000 | .ctx x => 0x010 + 4 * x.toNat | .dispatch => 0x020 | .quantum => 0x024 | .preempt => 0x028
  | .dispatchCount => 0x030 | .fenceInfo => 0x034 | .asyncErrLo => 0x038 | .asyncErrHi => 0x03C
  | .avocetRetry => 0x100 | .ucErr => 0x104 | .cx x r => 0x200 + 0x40 * x.toNat + r.off
  | .coreVecLo => 0x300 | .coreVecHi => 0x304

/-- Offset in the boot core block (Table 18.6). -/
def BReg.off : BReg → Nat
  | .status => 0x000 | .step => 0x004 | .srcResult => 0x008 | .elapsed => 0x00C | .monMeas k => 0x010 + 4 * k.val
  | .monSvn => 0x040 | .monEntryLo => 0x048 | .monEntryHi => 0x04C | .train => 0x050 | .softReset => 0x054
  | .romLock => 0x058 | .ucErr => 0x104 | .cx r => 0x200 + r.off

/-- Offset in a site block (Table 3.1). -/
def SReg.off : SReg → Nat
  | .ctrl => 0x000 | .status => 0x004 | .attn => 0x008 | .attnEn => 0x00C | .groupAttn => 0x010
  | .tenantState => 0x014 | .faultInfo => 0x018 | .link => 0x020 | .cls => 0x024 | .affinity => 0x028
  | .holdLimit => 0x02C | .seqOut => 0x030 | .seqAck => 0x034 | .bin k => 0x040 + 4 * k.toNat
  | .totalPass => 0x080 | .totalFail => 0x084 | .totalRetest => 0x088 | .totalWoff => 0x08C
  | .jrnlBaseLo => 0x0A0 | .jrnlBaseHi => 0x0A4 | .jrnlHead => 0x0A8 | .jrnlTail => 0x0AC | .keyState => 0x0B0

/-- Offset in a link controller (Tables 3.9 and 4.8). -/
def LReg.off : LReg → Nat
  | .ctrl => 0x000 | .status => 0x004 | .eq => 0x008 | .eqEff => 0x00C | .crcErr => 0x010 | .retry => 0x014
  | .lost => 0x018 | .dispose => 0x100 | .disposeResult => 0x104 | .prbsErr => 0x108 | .badFrame => 0x10C
  | .offWindow => 0x110 | .inSeq s => 0x140 + 4 * s.toNat

/-- Offset in the Curlew control registers (Table 17.6). -/
def KReg.off : KReg → Nat
  | .vaultLo => 0x000 | .vaultHi => 0x004 | .stageLo => 0x008 | .stageHi => 0x00C | .ladderStatus => 0x010
  | .cwReq => 0x014 | .slotStatus k => 0x100 + 4 * k.toNat
  | .crBaseLo k => 0x400 + 0x20 * k.toNat | .crBaseHi k => 0x404 + 0x20 * k.toNat
  | .crProd k => 0x408 + 0x20 * k.toNat | .crCons k => 0x40C + 0x20 * k.toNat

/-- Offset in a doorbell page (R428). -/
def PReg.off : PReg → Nat
  | .cdHead => 0x000 | .cdTail => 0x004 | .cdKeyState => 0x008 | .cdDone => 0x00C | .cdLastSeq => 0x010
  | .cdLastStatus => 0x014

/-- Offset in the timer registers (R364). -/
def TReg.off : TReg → Nat
  | .timeLo => 0x000 | .timeHi => 0x004
  | .cmpLo x => 0x100 + 0x10 * x.val | .cmpHi x => 0x104 + 0x10 * x.val | .ctrl x => 0x108 + 0x10 * x.val

/-- The physical address of a register (Table 1.3). -/
def Reg.addr : Reg → Nat
  | .g r => 0xF100000000 + r.off
  | .d r => 0xF100000000 + r.off
  | .core c r => 0xF100100000 + 0x10000 * c.toNat + r.off
  | .boot r => 0xF100200000 + r.off
  | .link k r => 0xF101000000 + 0x10000 * k.toNat + r.off
  | .curlew r => 0xF102000000 + r.off
  | .door n r => 0xF103000000 + 0x1000 * n.toNat + r.off
  | .timer r => 0xF104000000 + r.off
  | .site n r => 0xF105000000 + 0x400 * n.toNat + r.off

/-- The host address of a register that lies in the host window (Table 2.6). -/
def Reg.hostAddr : Reg → Option Nat
  | .g r => some r.off
  | .core c r => if r.off < 0x100 then some (0x1000 + 0x100 * c.toNat + r.off) else none
  | .boot r => if r.off < 0x100 then some (0x2000 + r.off) else none
  | .link k r => if r.off < 0x100 then some (0x4000 + 0x100 * k.toNat + r.off) else none
  | .site n r => some (0x400000 + 0x400 * n.toNat + r.off)
  | .d _ | .curlew _ | .door _ _ | .timer _ => none

/-- The global register at an offset. -/
def GReg.ofOff (o : Nat) : Option GReg :=
  if 0x008 ≤ o ∧ o < 0x018 ∧ o % 4 = 0 then some (.uid (BitVec.ofNat 2 ((o - 0x008) / 4))) else
  ([.chipId, .chipRev, .lcState, .resetCause, .bootStatus, .bootSrcUsed, .hostCtrl, .hostStatus, .hintStatus,
    .hintEnable, .busErrAddr, .busErrInfo, .aperBaseLo, .aperBaseHi, .mbxCtrl, .mbxStatus, .cfgEpoch, .cfgCommit,
    .cfgProgress, .coreRelease, .coreState, .coreFence, .siteAttnSum, .linkUpLo, .linkUpHi, .thermStatus,
    .vmonStatus, .clkCtrl, .clkStatus, .dramStatus, .rngStatus, .wdtStatus, .updCtrl, .updStatus, .mchkStatus,
    .nmiCtrl, .hostTimeout, .scratch0, .scratch1, .bankJournal, .thermUserOfs, .drvUserAdj, .entropyLevel,
    .rngData] : List GReg).find? (fun r => r.off == o)

/-- The system register above 0x3FF at an offset. -/
def DReg.ofOff (o : Nat) : Option DReg :=
  if o % 4 ≠ 0 then none else
  if 0x500 ≤ o ∧ o < 0x540 then some (.l3WayMap (BitVec.ofNat 4 ((o - 0x500) / 4))) else
  if 0x780 ≤ o ∧ o < 0x800 then some (.irqRoute (BitVec.ofNat 5 ((o - 0x780) / 4))) else
  if 0xA20 ≤ o ∧ o < 0xA50 then some (.ueMeas (Fin.ofNat 12 ((o - 0xA20) / 4))) else
  if 0xB10 ≤ o ∧ o < 0xB40 then some (.ucPatchMeas (Fin.ofNat 12 ((o - 0xB10) / 4))) else
  if 0xC20 ≤ o ∧ o < 0xC30 then some (.calEqFact (BitVec.ofNat 2 ((o - 0xC20) / 4))) else
  if 0xD14 ≤ o ∧ o < 0xD24 then some (.fuseFloor (BitVec.ofNat 2 ((o - 0xD14) / 4))) else
  ([.ctxBaseLo, .ctxBaseHi, .siteBufBaseLo, .siteBufBaseHi, .spaceBaseLo, .spaceBaseHi, .secRootLo, .secRootHi,
    .keyBaseLo, .keyBaseHi, .l3SecWays, .l3Ctrl, .integCeDram, .integCeL3, .integCeL2, .integCeSram,
    .integL1Refetch, .integPoisonUse, .integPoisonDrop, .integCrcStomp, .integRecInfo, .integRecAddrLo,
    .integRecAddrHi, .scrubCtrl, .scrubStatus, .irqLinePend, .irqLineEn, .secWeirLo, .secWeirHi, .sramWeir,
    .enclCtrl, .enclCommit, .enclStatus, .assignLinkLo, .assignLinkHi, .assignTimerLo, .assignTimerHi,
    .assignDbellLo, .assignDbellHi, .assignLine, .assignRing, .assignLock, .dbgEn, .wdtCtrl, .wdtKick,
    .coreReturn, .coreReturnStatus, .ueCmd, .ueStatus, .ueSrcLo, .ueSrcHi, .ueOfs, .ueLen, .ueInfo, .ueVaultLo,
    .ueVaultHi, .ucStatus, .ucCtrl, .ucPatchId, .ucCounts, .calThermFact, .calThermGain, .calThermEff,
    .calVmonFact, .calVmonUser, .calVmonEff, .calDrvFact, .calHostDly, .fuseCtrl, .fuseStatus, .fuseBootLo,
    .fuseBootHi, .fuseOwnerFlags, .sfIoCtrl] : List DReg).find? (fun r => r.off == o)

/-- The interrupt register of a context at an offset. -/
def XReg.ofOff (o : Nat) : Option XReg :=
  ([.irqPend, .irqEn, .doorbell, .nmi, .startLo, .startHi] : List XReg).find? (fun r => r.off == o)

/-- The core register at an offset. -/
def CReg.ofOff (o : Nat) : Option CReg :=
  if 0x010 ≤ o ∧ o < 0x020 ∧ o % 4 = 0 then some (.ctx (BitVec.ofNat 2 ((o - 0x010) / 4))) else
  if 0x200 ≤ o ∧ o < 0x300 then (XReg.ofOff ((o - 0x200) % 0x40)).map (.cx (BitVec.ofNat 2 ((o - 0x200) / 0x40))) else
  ([.status, .dispatch, .quantum, .preempt, .dispatchCount, .fenceInfo, .asyncErrLo, .asyncErrHi, .avocetRetry,
    .ucErr, .coreVecLo, .coreVecHi] : List CReg).find? (fun r => r.off == o)

/-- The boot core register at an offset. -/
def BReg.ofOff (o : Nat) : Option BReg :=
  if 0x010 ≤ o ∧ o < 0x040 ∧ o % 4 = 0 then some (.monMeas (Fin.ofNat 12 ((o - 0x010) / 4))) else
  if 0x200 ≤ o ∧ o < 0x240 then (XReg.ofOff (o - 0x200)).map .cx else
  ([.status, .step, .srcResult, .elapsed, .monSvn, .monEntryLo, .monEntryHi, .train, .softReset, .romLock,
    .ucErr] : List BReg).find? (fun r => r.off == o)

/-- The site register at an offset. -/
def SReg.ofOff (o : Nat) : Option SReg :=
  if 0x040 ≤ o ∧ o < 0x080 ∧ o % 4 = 0 then some (.bin (BitVec.ofNat 4 ((o - 0x040) / 4))) else
  ([.ctrl, .status, .attn, .attnEn, .groupAttn, .tenantState, .faultInfo, .link, .cls, .affinity, .holdLimit,
    .seqOut, .seqAck, .totalPass, .totalFail, .totalRetest, .totalWoff, .jrnlBaseLo, .jrnlBaseHi, .jrnlHead,
    .jrnlTail, .keyState] : List SReg).find? (fun r => r.off == o)

/-- The link controller register at an offset. -/
def LReg.ofOff (o : Nat) : Option LReg :=
  if 0x140 ≤ o ∧ o < 0x180 ∧ o % 4 = 0 then some (.inSeq (BitVec.ofNat 4 ((o - 0x140) / 4))) else
  ([.ctrl, .status, .eq, .eqEff, .crcErr, .retry, .lost, .dispose, .disposeResult, .prbsErr, .badFrame,
    .offWindow] : List LReg).find? (fun r => r.off == o)

/-- The Curlew register at an offset. -/
def KReg.ofOff (o : Nat) : Option KReg :=
  if 0x100 ≤ o ∧ o < 0x200 ∧ o % 4 = 0 then some (.slotStatus (BitVec.ofNat 6 ((o - 0x100) / 4))) else
  if 0x400 ≤ o ∧ o < 0x500 then
    let k := BitVec.ofNat 3 ((o - 0x400) / 0x20)
    match (o - 0x400) % 0x20 with
    | 0x0 => some (.crBaseLo k) | 0x4 => some (.crBaseHi k) | 0x8 => some (.crProd k) | 0xC => some (.crCons k)
    | _ => none
  else ([.vaultLo, .vaultHi, .stageLo, .stageHi, .ladderStatus, .cwReq] : List KReg).find? (fun r => r.off == o)

/-- The doorbell register at an offset. -/
def PReg.ofOff (o : Nat) : Option PReg :=
  ([.cdHead, .cdTail, .cdKeyState, .cdDone, .cdLastSeq, .cdLastStatus] : List PReg).find? (fun r => r.off == o)

/-- The timer register at an offset. -/
def TReg.ofOff (o : Nat) : Option TReg :=
  if 0x100 ≤ o ∧ o < 0x100 + 0x10 * 65 then
    let x := Fin.ofNat 65 ((o - 0x100) / 0x10)
    match (o - 0x100) % 0x10 with
    | 0x0 => some (.cmpLo x) | 0x4 => some (.cmpHi x) | 0x8 => some (.ctrl x) | _ => none
  else if o = 0 then some .timeLo else if o = 4 then some .timeHi else none

/-- What an address of the device region is: inside no range of Table 1.3, a place without a register (R18), or a register. -/
inductive DevPlace where
  | hole
  | empty
  | reg (r : Reg)
  deriving DecidableEq, Repr

/-- A place of a listed range: the register there, or none. -/
def devPlaceOf (r : Option Reg) : DevPlace :=
  match r with
  | none => .empty
  | some r => .reg r

/-- What lies at a physical address of the device region (Table 1.3). -/
def devPlace (a : Nat) : DevPlace :=
  if a < 0xF100000000 then .hole
  else if a < 0xF100100000 then
    let o := a - 0xF100000000
    devPlaceOf (if o < 0x400 then (GReg.ofOff o).map .g else (DReg.ofOff o).map .d)
  else if a < 0xF100200000 then
    let o := a - 0xF100100000
    devPlaceOf ((CReg.ofOff (o % 0x10000)).map (.core (BitVec.ofNat 4 (o / 0x10000))))
  else if a < 0xF100210000 then devPlaceOf ((BReg.ofOff (a - 0xF100200000)).map .boot)
  else if a < 0xF101000000 then .hole
  else if a < 0xF101400000 then
    let o := a - 0xF101000000
    devPlaceOf ((LReg.ofOff (o % 0x10000)).map (.link (BitVec.ofNat 6 (o / 0x10000))))
  else if a < 0xF102000000 then .hole
  else if a < 0xF102100000 then devPlaceOf ((KReg.ofOff (a - 0xF102000000)).map .curlew)
  else if a < 0xF103000000 then .hole
  else if a < 0xF103400000 then
    let o := a - 0xF103000000
    devPlaceOf ((PReg.ofOff (o % 0x1000)).map (.door (BitVec.ofNat 10 (o / 0x1000))))
  else if a < 0xF104000000 then .hole
  else if a < 0xF104100000 then devPlaceOf ((TReg.ofOff (a - 0xF104000000)).map .timer)
  else if a < 0xF105000000 then .hole
  else if a < 0xF105100000 then
    let o := a - 0xF105000000
    devPlaceOf ((SReg.ofOff (o % 0x400)).map (.site (BitVec.ofNat 10 (o / 0x400))))
  else .hole

/-- What lies at an address of the host window (Table 2.6). -/
inductive HostPlace where
  | empty
  | reg (r : Reg)
  | h2d (o : Nat)
  | d2h (o : Nat)
  | aperture (o : Nat)
  deriving DecidableEq, Repr

/-- A place of the window's register ranges. -/
def hostPlaceOf (r : Option Reg) : HostPlace :=
  match r with
  | none => .empty
  | some r => .reg r

/-- The region of a word address of the host window (Table 2.6, R53). -/
def hostPlace (a : Nat) : HostPlace :=
  if a < 0x400 then hostPlaceOf ((GReg.ofOff a).map .g)
  else if a < 0x1000 then .empty
  else if a < 0x2000 then
    hostPlaceOf ((CReg.ofOff ((a - 0x1000) % 0x100)).map (.core (BitVec.ofNat 4 ((a - 0x1000) / 0x100))))
  else if a < 0x2100 then hostPlaceOf ((BReg.ofOff (a - 0x2000)).map .boot)
  else if a < 0x4000 then .empty
  else if a < 0x8000 then
    hostPlaceOf ((LReg.ofOff ((a - 0x4000) % 0x100)).map (.link (BitVec.ofNat 6 ((a - 0x4000) / 0x100))))
  else if a < 0x10000 then .empty
  else if a < 0x18000 then .h2d (a - 0x10000)
  else if a < 0x20000 then .d2h (a - 0x18000)
  else if a < 0x400000 then .empty
  else if a < 0x500000 then
    hostPlaceOf ((SReg.ofOff ((a - 0x400000) % 0x400)).map (.site (BitVec.ofNat 10 ((a - 0x400000) / 0x400))))
  else if a < 0x800000 then .empty
  else .aperture (a - 0x800000)

/-- How the bits of a register behave when written (Table 0.4). Bits in no mask are RO, WO or computed on reading. -/
structure RegSpec where
  reset : Word32 := 0
  /-- RW bits, and RWL bits while their lock is clear -/
  rw : Word32 := 0
  w1c : Word32 := 0
  w1s : Word32 := 0
  rc : Word32 := 0
  deriving DecidableEq, Repr

/-- Access types of the global registers (Tables 2.7 to 2.24). Levels and fuse fields are computed on reading. The value
that the boot ROM leaves in NMI_CTRL is 0 (notes/assumptions/84.md). -/
def GReg.spec : GReg → RegSpec
  | .chipId => { reset := 0x0F2E1024 }
  | .chipRev => { reset := 0x00000B00 }
  | .resetCause => { reset := 0x00000001, w1c := 0xFF }
  | .hostCtrl => { reset := 0x10, rw := 0x133 }
  | .hintStatus => { w1c := 0x03FF007C }
  | .hintEnable => { rw := 0x03FF007F }
  | .aperBaseLo => { rw := 0xFF800000 }
  | .aperBaseHi => { rw := 0xFF }
  | .mbxCtrl => { rw := 0xFF00FFFF }
  | .thermStatus => { w1c := 0x30000 }
  | .vmonStatus => { w1c := 0x3F0000 }
  | .clkCtrl => { rw := 0x3 }
  | .dramStatus => { w1c := 0x1000000 }
  | .hostTimeout => { reset := 0x1000, rw := 0xFFFF }
  | .scratch0 => { rw := 0xFFFFFFFF }
  | .scratch1 => { rw := 0xFFFFFFFF }
  | .thermUserOfs => { rw := 0xFFFFFFFF }
  | .drvUserAdj => { rw := 0xFFFF }
  | .uid _ | .lcState | .bootStatus | .bootSrcUsed | .hostStatus | .busErrAddr | .busErrInfo | .mbxStatus | .cfgEpoch
  | .cfgCommit | .cfgProgress | .coreRelease | .coreState | .coreFence | .siteAttnSum | .linkUpLo | .linkUpHi
  | .clkStatus | .rngStatus | .wdtStatus | .updCtrl | .updStatus | .mchkStatus | .nmiCtrl | .bankJournal
  | .entropyLevel | .rngData => {}

/-- Access types of the system registers above 0x3FF. -/
def DReg.spec : DReg → RegSpec
  | .ctxBaseLo => { rw := 0xFFF00000 }
  | .ctxBaseHi => { rw := 0xFF }
  | .siteBufBaseLo => { rw := 0xFFF80000 }
  | .siteBufBaseHi => { rw := 0xFF }
  | .spaceBaseLo => { rw := 0xFFFFF001 }
  | .spaceBaseHi => { rw := 0xFF }
  | .secRootLo => { rw := 0xFFFFF001 }
  | .secRootHi => { rw := 0xFF }
  | .keyBaseLo => { rw := 0xFFFFF001 }
  | .keyBaseHi => { rw := 0xFF, w1s := 0x80000000 }
  | .l3WayMap _ => { reset := 0x00FFFFFF, rw := 0x00FFFFFF }
  | .l3SecWays => { rw := 0x00FFFFFF, w1s := 0x80000000 }
  | .l3Ctrl => { reset := 0x100, rw := 0x10F }
  | .integCeDram | .integCeL3 | .integCeL2 | .integCeSram | .integL1Refetch | .integPoisonUse | .integPoisonDrop
  | .integCrcStomp => { rc := 0xFFFFFFFF }
  | .scrubCtrl => { reset := 0x1801, rw := 0xFF01 }
  | .irqLinePend => { w1c := 0xFFFFFFFF }
  | .irqLineEn => { rw := 0xFFFFFFFF }
  | .irqRoute _ => { rw := 0x13F }
  | .secWeirLo => { rw := 0xFFF00000 }
  | .secWeirHi => { reset := 0x80, rw := 0xFF, w1s := 0x80000000 }
  | .sramWeir => { reset := 0x00800000, rw := 0x00FFF000, w1s := 0x80000000 }
  | .enclCtrl => { rw := 0x7F0001 }
  | .assignLinkLo | .assignLinkHi | .assignTimerLo | .assignTimerHi | .assignDbellLo | .assignDbellHi
  | .assignLine => { reset := 0xFFFFFFFF, rw := 0xFFFFFFFF }
  | .assignRing => { reset := 0xFF, rw := 0xFF }
  | .assignLock => { w1s := 0x1 }
  | .wdtCtrl => { reset := 0x0003E800, rw := 0x00FFFF01, w1s := 0x80000000 }
  | .ueSrcLo => { rw := 0xFFFFFFFF }
  | .ueSrcHi => { rw := 0xFF }
  | .ueOfs => { rw := 0x007FFF00 }
  | .ueLen => { rw := 0x001FFF00 }
  | .ucStatus => { reset := 0x0102 }
  | .ucCtrl => { w1s := 0x1 }
  | .calVmonUser => { rw := 0x00FFFFFF }
  | .calHostDly => { rw := 0xF00 }
  | .fuseCtrl => { rw := 0x07000FFF }
  | .sfIoCtrl => { reset := 0x1, rw := 0x3 }
  | .integRecInfo | .integRecAddrLo | .integRecAddrHi | .scrubStatus | .enclCommit | .enclStatus | .dbgEn | .wdtKick
  | .coreReturn | .coreReturnStatus | .ueCmd | .ueStatus | .ueMeas _ | .ueInfo | .ueVaultLo | .ueVaultHi
  | .ucPatchId | .ucCounts | .ucPatchMeas _ | .calThermFact | .calThermGain | .calThermEff | .calVmonFact
  | .calVmonEff | .calDrvFact | .calEqFact _ | .fuseStatus | .fuseBootLo | .fuseBootHi | .fuseOwnerFlags
  | .fuseFloor _ => {}

/-- Access types of a context's interrupt registers (Table 15.5); `boot` is the boot core, which alone has WDT. -/
def XReg.spec (boot : Bool) : XReg → RegSpec
  | .irqPend => { w1c := if boot then 0xF else 0x7 }
  | .irqEn => { rw := 0xF }
  | .doorbell | .startLo | .startHi => {}
  | .nmi => { rw := 0x2 }

/-- Access types of the core registers (Table 3.8). -/
def CReg.spec : CReg → RegSpec
  | .dispatch => { rw := 0xF }
  | .quantum => { rw := 0xFFFF }
  | .avocetRetry => { rc := 0xFFFFFFFF }
  | .cx _ r => r.spec false
  | .coreVecLo => { rw := 0xFFFFFFFF }
  | .coreVecHi => { rw := 0xFFFFFFFF }
  | .status | .ctx _ | .preempt | .dispatchCount | .fenceInfo | .asyncErrLo | .asyncErrHi | .ucErr => {}

/-- Access types of the boot core registers (Table 18.6). -/
def BReg.spec : BReg → RegSpec
  | .romLock => { w1s := 0x1 }
  | .cx r => r.spec true
  | .status | .step | .srcResult | .elapsed | .monMeas _ | .monSvn | .monEntryLo | .monEntryHi | .train | .softReset
  | .ucErr => {}

/-- Access types of the registers of site block n (Tables 3.1 to 3.5). -/
def SReg.spec (n : SiteId) : SReg → RegSpec
  | .ctrl => { rw := 0x7 }
  | .status => { w1c := 0x200 }
  | .attn => { w1c := 0x3FF }
  | .attnEn => { rw := 0x3FF }
  | .faultInfo => { rw := 0xFF00 }
  | .link => { reset := BitVec.ofNat 32 (n.toNat / 16 + (n.toNat % 16) * 256), rw := 0xF3F }
  | .cls => { rw := 0xF }
  | .affinity => { reset := BitVec.ofNat 32 (0xF0 + n.toNat % 4), rw := 0x3F3 }
  | .holdLimit => { reset := 0x1F4, rw := 0xFFFF }
  | .jrnlTail => { rw := 0xFFFFFFFF }
  | .groupAttn | .tenantState | .seqOut | .seqAck | .bin _ | .totalPass | .totalFail | .totalRetest | .totalWoff
  | .jrnlBaseLo | .jrnlBaseHi | .jrnlHead | .keyState => {}

/-- Access types of the link controller registers (Tables 3.9 and 4.8). -/
def LReg.spec : LReg → RegSpec
  | .ctrl => { reset := 0x1, rw := 0x7 }
  | .eq => { rw := 0x001F1F1F }
  | .crcErr | .retry | .lost | .prbsErr | .badFrame | .offWindow => { rc := 0xFFFFFFFF }
  | .status | .eqEff | .dispose | .disposeResult | .inSeq _ => {}

/-- Access types of the Curlew registers (Table 17.6). -/
def KReg.spec : KReg → RegSpec
  | .vaultLo | .stageLo => { rw := 0xFFFE0001 }
  | .vaultHi | .stageHi => { rw := 0xFF }
  | .crBaseLo _ => { rw := 0xFFFFF00F }
  | .crBaseHi _ => { rw := 0xFF }
  | .crProd _ => { rw := 0xFFFF }
  | .ladderStatus | .cwReq | .slotStatus _ | .crCons _ => {}

/-- Access types of the timer registers (R364). -/
def TReg.spec : TReg → RegSpec
  | .cmpLo _ | .cmpHi _ => { rw := 0xFFFFFFFF }
  | .ctrl _ => { rw := 0x1 }
  | .timeLo | .timeHi => {}

/-- Access types of a register. -/
def Reg.spec : Reg → RegSpec
  | .g r => r.spec
  | .d r => r.spec
  | .core _ r => r.spec
  | .boot r => r.spec
  | .site n r => r.spec n
  | .link _ r => r.spec
  | .curlew r => r.spec
  | .door _ _ => {}
  | .timer r => r.spec

/-- The two halves of a register pair (R22): the `_LO` register a register belongs to, and whether it is the `_HI` half. -/
def Reg.pairOf : Reg → Option (Reg × Bool)
  | .g .aperBaseLo => some (.g .aperBaseLo, false) | .g .aperBaseHi => some (.g .aperBaseLo, true)
  | .g .linkUpLo => some (.g .linkUpLo, false) | .g .linkUpHi => some (.g .linkUpLo, true)
  | .d .ctxBaseLo => some (.d .ctxBaseLo, false) | .d .ctxBaseHi => some (.d .ctxBaseLo, true)
  | .d .siteBufBaseLo => some (.d .siteBufBaseLo, false) | .d .siteBufBaseHi => some (.d .siteBufBaseLo, true)
  | .d .spaceBaseLo => some (.d .spaceBaseLo, false) | .d .spaceBaseHi => some (.d .spaceBaseLo, true)
  | .d .secRootLo => some (.d .secRootLo, false) | .d .secRootHi => some (.d .secRootLo, true)
  | .d .keyBaseLo => some (.d .keyBaseLo, false) | .d .keyBaseHi => some (.d .keyBaseLo, true)
  | .d .integRecAddrLo => some (.d .integRecAddrLo, false) | .d .integRecAddrHi => some (.d .integRecAddrLo, true)
  | .d .secWeirLo => some (.d .secWeirLo, false) | .d .secWeirHi => some (.d .secWeirLo, true)
  | .d .ueSrcLo => some (.d .ueSrcLo, false) | .d .ueSrcHi => some (.d .ueSrcLo, true)
  | .d .ueVaultLo => some (.d .ueVaultLo, false) | .d .ueVaultHi => some (.d .ueVaultLo, true)
  | .d .fuseBootLo => some (.d .fuseBootLo, false) | .d .fuseBootHi => some (.d .fuseBootLo, true)
  | .core c .asyncErrLo => some (.core c .asyncErrLo, false) | .core c .asyncErrHi => some (.core c .asyncErrLo, true)
  | .core c .coreVecLo => some (.core c .coreVecLo, false) | .core c .coreVecHi => some (.core c .coreVecLo, true)
  | .boot .monEntryLo => some (.boot .monEntryLo, false) | .boot .monEntryHi => some (.boot .monEntryLo, true)
  | .site n .jrnlBaseLo => some (.site n .jrnlBaseLo, false) | .site n .jrnlBaseHi => some (.site n .jrnlBaseLo, true)
  | .curlew .vaultLo => some (.curlew .vaultLo, false) | .curlew .vaultHi => some (.curlew .vaultLo, true)
  | .curlew .stageLo => some (.curlew .stageLo, false) | .curlew .stageHi => some (.curlew .stageLo, true)
  | .curlew (.crBaseLo k) => some (.curlew (.crBaseLo k), false)
  | .curlew (.crBaseHi k) => some (.curlew (.crBaseLo k), true)
  | .timer .timeLo => some (.timer .timeLo, false) | .timer .timeHi => some (.timer .timeLo, true)
  | .timer (.cmpLo x) => some (.timer (.cmpLo x), false) | .timer (.cmpHi x) => some (.timer (.cmpLo x), true)
  | .d .assignLinkLo => some (.d .assignLinkLo, false) | .d .assignLinkHi => some (.d .assignLinkLo, true)
  | .d .assignTimerLo => some (.d .assignTimerLo, false) | .d .assignTimerHi => some (.d .assignTimerLo, true)
  | .d .assignDbellLo => some (.d .assignDbellLo, false) | .d .assignDbellHi => some (.d .assignDbellLo, true)
  | .core c (.cx x .startLo) => some (.core c (.cx x .startLo), false)
  | .core c (.cx x .startHi) => some (.core c (.cx x .startLo), true)
  | .boot (.cx .startLo) => some (.boot (.cx .startLo), false) | .boot (.cx .startHi) => some (.boot (.cx .startLo), true)
  | _ => none

/-- The `_HI` register of the pair whose `_LO` register is given. -/
def Reg.hiOf : Reg → Reg
  | .g .aperBaseLo => .g .aperBaseHi | .g .linkUpLo => .g .linkUpHi
  | .d .ctxBaseLo => .d .ctxBaseHi | .d .siteBufBaseLo => .d .siteBufBaseHi | .d .spaceBaseLo => .d .spaceBaseHi
  | .d .secRootLo => .d .secRootHi | .d .keyBaseLo => .d .keyBaseHi | .d .integRecAddrLo => .d .integRecAddrHi
  | .d .secWeirLo => .d .secWeirHi | .d .ueSrcLo => .d .ueSrcHi | .d .ueVaultLo => .d .ueVaultHi
  | .d .fuseBootLo => .d .fuseBootHi
  | .core c .asyncErrLo => .core c .asyncErrHi | .core c .coreVecLo => .core c .coreVecHi
  | .boot .monEntryLo => .boot .monEntryHi
  | .site n .jrnlBaseLo => .site n .jrnlBaseHi
  | .curlew .vaultLo => .curlew .vaultHi | .curlew .stageLo => .curlew .stageHi
  | .curlew (.crBaseLo k) => .curlew (.crBaseHi k)
  | .timer .timeLo => .timer .timeHi | .timer (.cmpLo x) => .timer (.cmpHi x)
  | .d .assignLinkLo => .d .assignLinkHi
  | .d .assignTimerLo => .d .assignTimerHi
  | .d .assignDbellLo => .d .assignDbellHi
  | .core c (.cx x .startLo) => .core c (.cx x .startHi) | .boot (.cx .startLo) => .boot (.cx .startHi)
  | r => r

end Sys2Proof.Machine
end

