-- ==== Sys2Proof/Machine/State.lean ====
section
/-! DEFINITION. The state of the L1024 as plain data, every field with its value after reset, and the reasons a
command can stop. INVENTORY.md lists each field with the rule of spec/ that names it. -/

namespace Sys2Proof.Machine

/-- Reasons the machine stops with a fault. None is raised by any meaning: the spec gives every command an effect. -/
inductive Fault where
  /-- Raised by nobody (safe): kept so that the interface's fault outcome has a reason type with an inhabitant. -/
  | none
  deriving DecidableEq, Repr

/-- Reasons a command has no meaning. -/
inductive Refusal where
  /-- Raised by the dispatch alone, for a command that has no meaning yet (safe). -/
  | notModelled (mnemonic : String)
  deriving DecidableEq, Repr

/-- The tenant states of Table 3.5. -/
inductive TState where
  | absent | idle | pending | loaded | held | faulted
  deriving DecidableEq, Repr

/-- The transaction states of Table 3.3. -/
inductive Txn where
  | idle | taken | settling | unsettled | undelivered | replaying
  deriving DecidableEq, Repr

/-- The states of Table 4.1. -/
inductive LinkState where
  | down | training | up | fenced | loopback
  deriving DecidableEq, Repr

/-- Why the dispatcher is to save a loaded tenant (R79, R80, R75, R508). -/
inductive SaveReason where
  | hold | fault | en0 | preempt | pool | fence | quantum | tide | giveUp
  deriving DecidableEq, Repr

/-- An accepted inbound frame in an inbox slot (R94, R104), with the order in which its CRC check passed (R77). -/
structure InFrame where
  slot : Nat
  seq : BitVec 24
  utype : Byte
  len : Nat
  stamp : Nat
  deriving DecidableEq, Repr

/-- An outbound frame in a hold slot, not yet acknowledged (R93, Table 4.5). -/
structure OutFrame where
  slot : Nat
  seq : BitVec 24
  utype : Byte
  len : Nat
  deriving DecidableEq, Repr

/-- The kinds of append of Table 17.7. -/
inductive AppendKind where
  | opening
  | settle
  | writeOff
  | undelivered (f : OutFrame)
  | clear
  | lapp (sub : Byte) (enc : Bool) (notify : Bool) (body : List Byte)
  deriving DecidableEq, Repr

/-- The engine-private copy an append works from (R413): the key, its epoch, whether site records are encrypted, the
slot it was read from and its generation, the TIME the record began, and what has happened to the slot since. -/
structure OpCopy where
  key : BitVec 256
  epoch : BitVec 16
  encSite : Bool
  slot : Nat
  gen : BitVec 16
  time : Nat
  superseded : Bool
  revoked : Bool
  deriving DecidableEq, Repr

/-- One accepted append of a tenant (R426); `began` holds the copy while it is in progress. -/
structure Append where
  kind : AppendKind
  began : Option OpCopy := none
  waitSpace : Bool := false
  deriving DecidableEq, Repr

/-- What the machine holds for one site and its tenant beside its registers (spec/03, spec/04, spec/17). -/
structure Site where
  tstate : TState := .absent
  onCtx : CtxId := 0
  enClear : Bool := false
  save : Option SaveReason := none
  inbox : List InFrame := []
  unacked : List OutFrame := []
  anyAck : Bool := false
  goBacks : Nat := 0
  txn : Txn := .idle
  inFirst : BitVec 24 := 0
  inLast : BitVec 24 := 0
  inCount : Nat := 0
  outFirst : BitVec 24 := 0
  outLast : BitVec 24 := 0
  outCount : Nat := 0
  sword : Byte := 0
  bodyLen : Nat := 0
  settled : Bool := false
  woffPending : Bool := false
  clearPending : Bool := false
  holdTimer : Option Nat := none
  copied : Bool := false
  armed : Bool := false
  noticedConflict : Bool := false
  ringSet : Bool := false
  lastTag : List Byte := []
  prevRing : Option (Nat × List Byte) := none
  appends : List Append := []
  keyState : BitVec 2 := 0
  /-- the waiting tenant has caused its one save by the quantum rule (R79) -/
  quantumAsked : Bool := false
  deriving DecidableEq, Repr

/-- One station number of a link (R94, R95, R98). -/
structure Station where
  present : Bool := false
  inSeq : BitVec 24 := 0
  any : Bool := false
  ackOwed : Bool := false
  lastNak : Option Nat := none
  deriving DecidableEq, Repr

/-- One link beside its registers (R86, R88). -/
structure Link where
  state : LinkState := .down
  signal : Bool := false
  stations : SMap Station := []
  deriving DecidableEq, Repr

/-- A frame the L1024 has sent on a link (R89), as its bytes; the model's own record of what left the part. -/
structure TxFrame where
  link : LinkId
  bytes : List Byte
  deriving DecidableEq, Repr

/-- The completion of the last register or window access (R42, R47): the error code of Table 2.5 (0 where accepted),
and the data returned. -/
structure Resp where
  code : BitVec 4 := 0
  data : Word32 := 0
  hdp : BitVec 4 := 0xF
  deriving DecidableEq, Repr

/-- One Curlew key slot (R409). -/
structure KeySlot where
  loaded : Bool := false
  tenant : SiteId := 0
  key : BitVec 256 := 0
  epoch : BitVec 16 := 0
  encSite : Bool := false
  gen : BitVec 16 := 0
  used : Nat := 0
  deriving DecidableEq, Repr

/-- Curlew beside its registers: the ladder (R401), the slots (R409) and the queued key loads (R411). -/
structure Curlew where
  sr : BitVec 256 := 0
  bbk : BitVec 256 := 0
  /-- LADDER_STATUS.BBK_VALID (R405) -/
  bbkValid : Bool := false
  drkOff : Bool := false
  belowFloor : Bool := false
  slots : SMap KeySlot := []
  loads : List SiteId := []
  useCount : Nat := 0
  deriving DecidableEq, Repr

/-- The entropy source and DRBG (R414-R416). -/
structure Drbg where
  collected : Nat := 0
  startupPass : Bool := false
  instantiated : Bool := false
  healthFail : Bool := false
  requests : Nat := 0
  reseeds : Nat := 0
  deriving DecidableEq, Repr

/-- One entry of the staged set or of a tide (R498): the bytes and lanes of one register. -/
structure StagedEntry where
  data : Word32
  lanes : BitVec 4
  deriving DecidableEq, Repr

/-- The staged set and the tide in progress (R498-R508), by register address. -/
structure Tide where
  staged : SMap StagedEntry := []
  overrun : Bool := false
  entries : SMap StagedEntry := []
  busy : Bool := false
  /-- an atomic tide stops the contexts (R505 steps 1 and 2) -/
  stopping : Bool := false
  /-- the frames accepted meanwhile, in order, whose sites are chosen at step 4 (R505) -/
  deferred : List (LinkId × RxFrame) := []
  /-- the contexts whose stop has been made (R505 step 1) -/
  stops : List CtxId := []
  deriving DecidableEq, Repr

/-- One bank of the world-banked registers (Table 5.2). -/
structure Bank where
  vbr : VirtAddr := 0
  xpc : VirtAddr := 0
  xsp : Word := 0
  xcsw : Word := 0
  xdt : Word := 0
  xaddr : Word := 0
  xinfo : Word := 0
  xinst : BitVec 128 := 0
  fePc : Word := 0
  feSp : Word := 0
  feCsw : Word := 0
  gateBase : VirtAddr := 0
  deriving DecidableEq, Repr

/-- Who occupies a context (Table 3.8, CB_CTXx.OCC). -/
inductive Occ where
  | free
  | tenant (n : SiteId)
  | exec
  | monitor
  deriving DecidableEq, Repr

/-- How the next fetch of a context may arrive in an enclave (R387): not at all, after a GCALL into enclave e, or after a
return or a dispatcher load to the recorded address. -/
inductive Arrival where
  | none
  | gate (e : Nat)
  | back
  deriving DecidableEq, Repr

/-- A W-form load that has issued and not written (R143): register (0 to 31 a G register, 32 to 39 a D register), value,
bundles left. -/
structure PendLoad where
  reg : Nat
  val : BitVec 128
  left : Nat
  deriving DecidableEq, Repr

/-- A retired branch bundle whose delay bundle is next (R146, R147): its address, the target as a code pointer, whether it
is taken, whether it is a call that pushes when the delay bundle retires, whether a return has installed it, so that
the branch bundle is skipped first (R147), and whether it executed as a shadow (R152). -/
structure DelayBranch where
  addr : VirtAddr
  target : Word
  taken : Bool
  call : Bool
  replay : Bool
  shadow : Bool
  deriving DecidableEq, Repr

/-- A retired store waiting in its context's store buffer (R313). -/
structure StoreEntry where
  addr : Nat
  bytes : List Byte
  world : World
  /-- made by an integer store, the only kind that may reach the device region (R32) -/
  word : Bool
  deriving DecidableEq, Repr

/-- A recorded store bus error (R356). -/
structure StoreErr where
  addr : Nat
  world : World
  cause : BitVec 8
  ovf : Bool
  deriving DecidableEq, Repr

/-- One hardware context (Tables 5.1 and 5.2), with what it holds between instructions. -/
structure Ctx where
  g : SMap Word := []
  d : SMap (BitVec 128) := []
  dres : SMap Byte := []
  a : SMap (BitVec 40) := []
  pc : VirtAddr := 0
  /-- bits [62:48] of the code pointer transferred to, or the carry of sequential fetch past the last address (R265) -/
  pcHi : BitVec 15 := 0
  csw : Word := 0
  fstat : Word := 0
  dstat : Word := 0
  rsp : BitVec 5 := 0
  rs : SMap Word := []
  kmaskRd : Word := 0
  kmaskWr : Word := 0
  bitspace : VirtAddr := 0
  lps : SMap VirtAddr := []
  lpe : SMap VirtAddr := []
  lpc : SMap Word32 := []
  mb : SMap VirtAddr := []
  ml : SMap Word32 := []
  strx : SMap Word := []
  bankNs : Bank := {}
  bankS : Bank := {}
  occ : Occ := .free
  heldSince : Nat := 0
  stopped : Bool := false
  storeBuf : List StoreEntry := []
  storeErr : Option StoreErr := none
  inEncl : Option Nat := none
  arrival : Arrival := .none
  /-- the xpc of an entry whose handler has retired nothing yet (R350) -/
  entering : Option VirtAddr := none
  /-- W-form loads that have not written yet (R143) -/
  loads : List PendLoad := []
  /-- a branch bundle whose delay bundle has not executed (R146) -/
  delay : Option DelayBranch := none
  /-- the next instruction or bundle is a shadow (R152) -/
  shadow : Bool := false
  /-- how many mode changes the context has made (R149) -/
  modes : Nat := 0
  /-- vector 23 due for a retired TRAP, with its code (R355) -/
  trapDue : Option Byte := none
  /-- vector 22 with STEP due (R355) -/
  stepDue : Bool := false
  nmiPend : Bool := false
  haltReq : Bool := false
  halted : Bool := false
  /-- the port released the context for one step (R527) -/
  stepping : Bool := false
  /-- bytes written through the debug-state window, not yet in effect (R526) -/
  dbgBytes : SMap (Option Byte) := []
  deriving DecidableEq, Repr

/-- A translation held by a core (R288): the page, its leaf bits, its output and its tags; the tenant tag of a global leaf
is 0. -/
structure TlbEntry where
  page : Nat
  level : Nat
  w : Bool
  x : Bool
  u : Bool
  g : Bool
  nc : Bool
  out : Nat
  world : World
  tag : SiteId
  deriving DecidableEq, Repr

/-- A walk-cache entry (R288): the level, the virtual prefix that selects it, the next table, and its world and space
(tenant number, 1,024 for an own space). -/
structure WalkEntry where
  level : Nat
  pre : Nat
  next : Nat
  world : World
  space : Nat
  deriving DecidableEq, Repr

/-- The replaceable translation arrays of a core (Table 12.1): the instruction, data and unified TLBs. -/
structure Tlbs where
  instr : List TlbEntry := []
  data : List TlbEntry := []
  unified : List TlbEntry := []
  deriving DecidableEq, Repr

/-- A retired TLBI that has not completed (R298, R299). -/
structure Tlbi where
  ctx : CtxId
  span : BitVec 2
  walk : Bool
  va : Nat
  sel : Word
  deriving DecidableEq, Repr

/-- A Spoonbill command accepted by SPB.GO (R234, R238): the tenant and its ticket, the copy of the descriptor and its
physical address, and what was captured of the submitting context. -/
structure SpbCmd where
  tenant : SiteId
  ticket : BitVec 2
  desc : List Byte
  addr : Nat
  csw : Word
  kmaskRd : Word
  kmaskWr : Word
  bitspace : VirtAddr
  deriving DecidableEq, Repr

/-- A Spoonbill ticket (R233, R235): free, its command not complete, or complete with a STATUS word. -/
inductive Ticket where
  | free
  | busy
  | done (status : Word32)
  deriving DecidableEq, Repr

/-- A committed enclave (R384, R385), by its descriptor number. -/
structure Enclave where
  num : Nat
  dbg : Bool
  base : Nat
  limit : Nat
  owner : SiteId
  gfirst : Nat
  gcount : Nat
  deriving DecidableEq, Repr

/-- A word of the micro-store patch RAM with its parity bits (Table 20.1): odd parity over [9:0] and over [19:10]. -/
structure MicroWord where
  bits : BitVec 20 := 0
  parity : BitVec 2 := 3
  deriving DecidableEq, Repr

/-- A word of the nano-store patch RAM with its parity bits (Table 20.1): bit k is odd parity over [16k+15:16k]. -/
structure NanoWord where
  bits : BitVec 176 := 0
  parity : BitVec 11 := 0x7FF
  deriving DecidableEq, Repr

/-- An entry of the hook table with its odd parity over the 27 bits (Table 20.1). -/
structure Hook where
  frm : BitVec 14 := 0
  dest : BitVec 12 := 0
  v : Bool := false
  parity : Bool := true
  deriving DecidableEq, Repr

/-- The stores of a core that can be written (R478): the hook table, and the patch RAM of the micro-store by address from 0x3000
and of the nano-store by address from 0x800. -/
structure Stores where
  hooks : SMap Hook := []
  micro : SMap MicroWord := []
  nano : SMap NanoWord := []
  deriving DecidableEq, Repr

/-- The states of Table 2.7, CORE_STATE. -/
inductive CoreState where
  | held | running | fenced | returning
  deriving DecidableEq, Repr

/-- One core (0 to 15 the ledger cores, 16 the boot core) beside its contexts and registers. -/
structure Core where
  state : CoreState := .held
  fencing : Bool := false
  /-- an NMI waits for the first context of the core to become occupied (R365) -/
  nmiWait : Bool := false
  vecWritten : Bool := false
  /-- why the fence under way was asked for, as CB_FENCE_INFO.REASON gives it (R484, R511) -/
  fenceWhy : Nat := 1
  /-- the TIME of the last parity failure of the micro-store 0 and the nano-store 1 (R484) -/
  ucLast : SMap (Option Nat) := []
  /-- stores and addresses that have failed since the core was last released or returned (R484) -/
  ucSeen : List (Nat × Nat) := []
  /-- the hook table and the patch RAM (R478) -/
  stores : Stores := {}
  /-- where the double-read check of its ROM stores fails, by address and store: it fails there at every return (R515) -/
  romBad : Option (BitVec 14 × BitVec 2) := none
  tlbs : Tlbs := {}
  /-- the walk caches of levels 1 to 3, by the level of the entry -/
  wcache : List WalkEntry := []
  locked : SMap (Option TlbEntry) := []
  tlbis : List Tlbi := []
  deriving DecidableEq, Repr

/-- Where the boot ROM stands between two commands (R443). -/
inductive BootPhase where
  /-- no ROM runs: in reset, halted, or past the jump to the monitor -/
  | off
  /-- the internal reset has ended and step 1 is next -/
  | ready
  /-- step 5, a source under way -/
  | source
  /-- step 8, waiting for the training to end -/
  | train
  /-- step 9, waiting for randomness -/
  | rng
  /-- recovery (R446) -/
  | recovery
  deriving DecidableEq, Repr

/-- What the ROM keeps of the monitor image it has loaded (R441, R460): the header and the measurement. -/
structure MonImage where
  header : List Byte
  meas : BitVec 384
  deriving DecidableEq, Repr

/-- The boot ROM between two commands, and the straps (R436 to R446). -/
structure Boot where
  phase : BootPhase := .off
  bmode : BitVec 3 := 0
  /-- contents of the external serial NOR, none where no device answers (R440) -/
  nor : Option (List Byte) := none
  entry : Nat := 0
  probed : Bool := false
  /-- the in-package bank being loaded, and whether it is the second one tried (R468) -/
  bank : Bool := false
  second : Bool := false
  stream : List Byte := []
  streamEnd : Bool := false
  /-- the stream ended by a message or frame of another type (R440) -/
  streamBad : Bool := false
  /-- the first message or frame of the stream has come (R440) -/
  began : Bool := false
  /-- a load into DRAM waits for training to end, and the ROM reads no payload byte (R442) -/
  waitTrain : Bool := false
  /-- the ROM serves station 0 of CL0, and takes its frames as the image (R440) -/
  cl0 : Bool := false
  cl0Data : Bool := false
  trained : Bool := false
  /-- training has ended and step 8, which writes DRAM_STATUS, has not come (R443) -/
  dramHeld : Bool := false
  /-- the DIMM serial number of each channel that trained, and which of them reused stored data (R444, R475) -/
  serials : SMap Word32 := []
  /-- the trained values in each channel's memory PHY, which nothing shows (R475): one word stands for them -/
  phy : SMap Word := []
  /-- how far the images of the source under way have been read and decided on (R441) -/
  scanned : Nat := 0
  patchSeen : Bool := false
  /-- a patch has been applied in this boot (R489) -/
  patchDone : Bool := false
  /-- how many of the next patches the ROM writes read back wrong (R489 step 4) -/
  patchBad : Nat := 0
  mon : Option MonImage := none
  src : Nat := 0
  /-- the in-package bank the monitor came from -/
  booted : Option Bool := none
  /-- the REPLY codes that wait for the host to release the one before, oldest first -/
  replyDue : List Byte := []
  /-- the ROM lock is in force (R447) -/
  locked : Bool := false
  deriving DecidableEq, Repr

/-- A command that the update engine is carrying out, with the parameters it took (R470). -/
structure UeOp where
  op : BitVec 4
  src : Nat
  ofs : Nat
  len : Nat
  /-- the conditions of R472 held when ACTIVATE began -/
  ok : Bool
  /-- the pages that a WRITE has programmed -/
  pages : Nat := 0
  deriving DecidableEq, Repr

/-- The update engine, its flash records beside the banks, and the microcode patch copy (spec/19, spec/20). -/
structure Ue where
  busy : Option UeOp := none
  /-- the 64 KiB block of the flash window, by number, that the engine is erasing or programming (R462) -/
  block : Option Nat := none
  stageValid : Bool := false
  stageMeas : BitVec 384 := 0
  stageSvn : Byte := 0
  /-- tenants that KWRAP_STAGED has completed since STAGE_VALID became 1 (R472) -/
  wrapped : SMap Bool := []
  reqStart : Bool := false
  reqAbort : Bool := false
  /-- the payload in the secure patch copy (R490) -/
  patch : Option (List Byte) := none
  /-- the words of the copy that have been found uncorrectable, by the store and address they are loaded to: they are poisoned
  (R336, R490) -/
  patchPoison : List (Nat × Nat) := []
  deriving DecidableEq, Repr

/-- Supplies, clocks and temperature (spec/23). -/
structure Elec where
  refclkOk : Bool := false
  pllLock : BitVec 4 := 0
  /-- rails outside their windows, in the bit order of VMON_STATUS -/
  railOut : BitVec 6 := 0
  vid : BitVec 6 := 30
  therm : Option Therm := none
  /-- the last TMAX compared with the limits of R543 -/
  tmaxSeen : Option Int := none
  /-- PORST_N is asserted (R436, R547) -/
  porst : Bool := false
  /-- RESET_N is asserted (R433) -/
  resetN : Bool := false
  deriving DecidableEq, Repr

/-- The instructions of Table 22.1. -/
inductive PortIns where
  | extest | idcode | sample | clamp | highz | idRead | calRead | fuseProg | sortGen | lcAdv | dae | dbgCtrl | tapReset
  | bypass
  deriving DecidableEq, Repr

/-- A fuse request at the port and its outcome (R529, R530, R533). -/
structure PortFuse where
  addr : BitVec 12 := 0
  busy : Bool := false
  done : Bool := false
  reason : BitVec 4 := 0
  deriving DecidableEq, Repr

/-- The debug access engine (R524, R525). -/
structure Dae where
  req : BitVec 112 := 0
  pending : Bool := false
  done : Bool := false
  result : BitVec 4 := 0
  rdata : Word := 0
  deriving DecidableEq, Repr

/-- The maintenance port (spec/22). -/
structure Port where
  ir : PortIns := .idcode
  /-- the value the last Capture-IR loaded (R521) -/
  irCap : BitVec 8 := 0
  /-- the value the last Capture-DR loaded -/
  dr : Nat := 0
  boundary : Nat := 0
  sensed : Bool := false
  fuse : PortFuse := {}
  sort : PortFuse := {}
  sortBits : Nat := 0
  lcAdv : PortFuse := {}
  dae : Dae := {}
  dbgCtx : BitVec 7 := 0
  deriving DecidableEq, Repr

/-- A fuse operation of the monitor's path in progress (R531). -/
structure FuseCtrl where
  busy : Bool := false
  op : BitVec 3 := 0
  addr : BitVec 12 := 0
  target : BitVec 3 := 0
  deriving DecidableEq, Repr

/-- A byte of memory that a store has replaced: its address, what it held, and the mode changes that each context had made then
(R149, R314). -/
structure Replaced where
  addr : Nat
  old : Byte
  modes : SMap Nat
  deriving DecidableEq, Repr

/-- The whole machine. -/
structure State where
  /-- stored bits of the registers, by physical address -/
  regs : SMap Word32 := []
  /-- R22, R23: `_HI` snapshots by requester and pair -/
  snaps : SMap (Option Word32) := []
  /-- R22, R23: staged `_LO` bytes and their lanes by requester and pair -/
  stagedLo : SMap (Option (Word32 × BitVec 4)) := []
  resp : Resp := {}
  accepting : Bool := false
  hbclkMhz : Byte := 0
  h2d : SMap Byte := []
  d2h : SMap Byte := []
  /-- R336: the poisoned 8-byte words of the mailbox buffers, by number: the host's from 0, the device's from 4,096 -/
  mbxPoison : SMap Bool := []
  mbxOpen : Bool := false
  h2dFull : Bool := false
  d2hFull : Bool := false
  mem : List Host.Cell := []
  /-- the in-package flash by offset: the banks, the bank journal and the calibration sector (R461); erased bytes read 0xFF -/
  flash : SMap Byte := []
  poison : SMap Bool := []
  /-- R338: the words whose copy in DRAM may hold poison that the word, in a cache, does not hold -/
  stale : SMap Bool := []
  sites : SMap Site := []
  links : SMap Link := []
  ctxs : SMap Ctx := []
  cores : SMap Core := []
  curlew : Curlew := {}
  drbg : Drbg := {}
  tide : Tide := {}
  /-- commands accepted by each Spoonbill unit, oldest first (R233) -/
  spb : SMap (List SpbCmd) := []
  /-- tickets by 4 × tenant + ticket number (R233) -/
  tickets : SMap Ticket := []
  encl : List Enclave := []
  /-- address of the committed enclave table; its exit records are live (R385, R387) -/
  enclTable : Nat := 0
  enclV : Bool := false
  /-- the channels, in ascending order, over which the contents of DRAM are dealt (R30) -/
  dramChans : List Nat := []
  /-- ENCL_CTRL as the commit in progress took it (R384) -/
  enclCtl : Word32 := 0
  ctxBaseSet : Bool := false
  siteBufSet : Bool := false
  /-- the fuse array as blown, by bit address (Table 22.4) -/
  fuses : SMap Bool := []
  /-- the fuse array as sensed at the last chip reset -/
  sensed : SMap Bool := []
  inReset : Bool := true
  boot : Boot := {}
  ue : Ue := {}
  elec : Elec := {}
  port : Port := {}
  fuseCtrl : FuseCtrl := {}
  /-- SORT_GEN has completed on this part (R530, Table 22.5) -/
  sortGen : Bool := false
  /-- Bittern's count has passed T x 500, and it has warned since the last kick (R398, R399) -/
  wdtHalf : Bool := false
  wdtWarned : Bool := false
  /-- the DRAM address the patrol scrubber reads next (R338) -/
  scrubPos : Nat := 0
  /-- bytes that stores have replaced, newest first, with what they held: a context may have fetched them before (R314) -/
  replaced : List Replaced := []
  time : Nat := 0
  arrivals : Nat := 0
  sent : List TxFrame := []
  /-- the model's own: the words, with their arrays, that the command under way finds uncorrectable when it reads them (R336) -/
  upset : List (Nat × BitVec 2) := []
  /-- the model's own counter of free values -/
  free : Nat := 0
  /-- the commands that are waiting, first in, first out -/
  pending : List Instr := []
  deriving DecidableEq, Repr

/-- What a command answers. -/
abbrev Out := Host.Outcome State Fault Refusal

/-- The machine right after reset: every field at the value its declaration gives. -/
def State.reset : State := {}

end Sys2Proof.Machine
end

