-- ==== Sys2Proof/Machine/Ops.lean ====
section
/-! DEFINITION. The named operations over registers, memory, attention and interrupt bits that every family shares. -/

namespace Sys2Proof.Machine

/-! ## Registers -/

/-- The stored bits of a register. -/
def State.reg (s : State) (r : Reg) : Word32 := smGet s.regs r.spec.reset r.addr

/-- Store the bits of a register. -/
def State.setReg (s : State) (r : Reg) (v : Word32) : State :=
  { s with regs := smSet s.regs r.spec.reset r.addr v }

/-- Set the bits of a mask in a register. -/
def State.orReg (s : State) (r : Reg) (m : Word32) : State := s.setReg r (s.reg r ||| m)

/-- Clear the bits of a mask in a register. -/
def State.clrReg (s : State) (r : Reg) (m : Word32) : State := s.setReg r (s.reg r &&& ~~~m)

/-- Add to a 32-bit counter that saturates at all ones (Tables 3.9, 4.8, 14.4). -/
def State.bumpSat (s : State) (r : Reg) (k : Nat) : State :=
  s.setReg r (BitVec.ofNat 32 (min ((s.reg r).toNat + k) 0xFFFFFFFF))

/-- Add to a 32-bit counter that wraps. -/
def State.bumpWrap (s : State) (r : Reg) (k : Nat) : State := s.setReg r (s.reg r + BitVec.ofNat 32 k)

/-- The 40-bit base a pair holds: `_LO` bits above `lowBit` and `_HI` bits [7:0]. -/
def State.pairBase (s : State) (lo hi : Reg) (lowBit : Nat) : Nat :=
  ((s.reg hi).toNat % 256) * 2 ^ 32 + ((s.reg lo).toNat >>> lowBit) <<< lowBit

/-! ## Parts of the state by number -/

/-- Site n beside its registers. -/
def State.site (s : State) (n : SiteId) : Site := smGet s.sites {} n.toNat

/-- Change site n. -/
def State.setSite (s : State) (n : SiteId) (v : Site) : State := { s with sites := smSet s.sites {} n.toNat v }

/-- Apply a function to site n. -/
def State.upSite (s : State) (n : SiteId) (f : Site → Site) : State := s.setSite n (f (s.site n))

/-- Link k beside its registers. -/
def State.link (s : State) (k : LinkId) : Link := smGet s.links {} k.toNat

/-- Change link k. -/
def State.setLink (s : State) (k : LinkId) (v : Link) : State := { s with links := smSet s.links {} k.toNat v }

/-- Station t of link k. -/
def State.station (s : State) (k : LinkId) (t : StationId) : Station := smGet (s.link k).stations {} t.toNat

/-- Change station t of link k. -/
def State.setStation (s : State) (k : LinkId) (t : StationId) (v : Station) : State :=
  s.setLink k { s.link k with stations := smSet (s.link k).stations {} t.toNat v }

/-- Context x. -/
def State.ctx (s : State) (x : CtxId) : Ctx := smGet s.ctxs {} x.val

/-- Change context x. -/
def State.setCtx (s : State) (x : CtxId) (v : Ctx) : State := { s with ctxs := smSet s.ctxs {} x.val v }

/-- Apply a function to context x. -/
def State.upCtx (s : State) (x : CtxId) (f : Ctx → Ctx) : State := s.setCtx x (f (s.ctx x))

/-- Core c: 0 to 15 the ledger cores, 16 the boot core. -/
def State.core (s : State) (c : Nat) : Core := smGet s.cores {} c

/-- Change core c. -/
def State.setCore (s : State) (c : Nat) (v : Core) : State := { s with cores := smSet s.cores {} c v }

/-- The core of a context (R364): 16 for the boot core. -/
def coreOf (x : CtxId) : Nat := x.val / 4

/-- Context i of ledger core c (R364). -/
def ctxOf (c : CoreId) (i : BitVec 2) : CtxId := Fin.ofNat 65 (4 * c.toNat + i.toNat)

/-- The interrupt register of a context (R362). -/
def cxReg (x : CtxId) (r : XReg) : Reg :=
  if x.val = 64 then .boot (.cx r)
  else .core (BitVec.ofNat 4 (x.val / 4)) (.cx (BitVec.ofNat 2 (x.val % 4)) r)

/-- A fresh free value (notes/assumptions/2.md), and the state with the counter advanced. -/
def State.fresh (s : State) : Word × State := (Config.freeWord s.free, { s with free := s.free + 1 })

/-- `n` fresh free bytes, and the state with the counter advanced. -/
def State.freshBytes (s : State) (n : Nat) : List Byte × State :=
  ((List.range n).map (fun i => (Config.freeWord (s.free + i)).setWidth 8), { s with free := s.free + n })

/-- The DRBG reseeds with fresh bits (R415). -/
def Drbg.reseed (d : Drbg) : Drbg := { d with requests := 0, reseeds := d.reseeds + 1 }

/-- The DRBG after one generate request: the 65,536th since the last reseed is followed by a reseed (R415,
notes/assumptions/77.md). -/
def Drbg.request (d : Drbg) : Drbg :=
  if 65535 ≤ d.requests then d.reseed else { d with requests := d.requests + 1 }

/-- `n` bytes of the DRBG, as one generate request (R415). -/
def State.drawBytes (s : State) (n : Nat) : List Byte × State :=
  let f := s.freshBytes n
  (f.1, { f.2 with drbg := f.2.drbg.request })

/-! ## Attention and interrupt bits -/

/-- Set a bit of HINT_STATUS (Table 2.14). -/
def State.setHint (s : State) (k : Nat) : State := s.orReg (.g .hintStatus) (BitVec.ofNat 32 (2 ^ k))

/-- Set the pending bit of an interrupt line (Table 15.7). -/
def State.setLine (s : State) (k : Nat) : State := s.orReg (.d .irqLinePend) (BitVec.ofNat 32 (2 ^ k))

/-- The interrupt line that an SB_ATTN bit sets (Table 15.7): 5 for STATION_LOST and STATION_BACK, 6 for UNSETTLED,
7 for FAULT, 8 for JRNL_FULL and KEY. -/
def attnLine (k : Nat) : Option Nat :=
  match k with
  | 1 => some 6
  | 2 => some 5
  | 3 => some 5
  | 4 => some 7
  | 6 => some 8
  | 7 => some 8
  | _ => none

/-- Set a line's pending bit, where there is one. -/
def State.setLineOpt (s : State) (k : Option Nat) : State :=
  match k with
  | none => s
  | some k => s.setLine k

/-- A hardware event sets bit k of site n's SB_ATTN (R69) and its line. -/
def State.setAttn (s : State) (n : SiteId) (k : Nat) : State :=
  (s.orReg (.site n .attn) (BitVec.ofNat 32 (2 ^ k))).setLineOpt (attnLine k)

/-- Set a pending bit of a context's CX_IRQ_PEND (Table 15.5): 0 SITE, 1 TIMER, 2 DOORBELL, 3 WDT. -/
def State.setIrq (s : State) (x : CtxId) (k : Nat) : State := s.orReg (cxReg x .irqPend) (BitVec.ofNat 32 (2 ^ k))

/-! ## Physical memory -/

/-- The number of trained channels (R30). -/
def State.channels (s : State) : Nat :=
  let v := s.reg (.g .dramStatus)
  bit (bitAt v 4) + bit (bitAt v 5) + bit (bitAt v 6) + bit (bitAt v 7)

/-- The size of installed DRAM in bytes: N × C GiB (R30). -/
def State.dramSize (s : State) : Nat := s.channels * bitsOf (s.reg (.g .dramStatus)) 23 16 * 2 ^ 30

/-- The regions of Table 1.2. -/
inductive Region where
  | dram | sram | device | flash | rom | hole
  deriving DecidableEq, Repr

/-- The region a physical address lies in (Table 1.2); DRAM beyond the installed memory is a hole (R29). -/
def State.region (s : State) (a : Nat) : Region :=
  if a < 0x8000000000 then (if a < s.dramSize then .dram else .hole)
  else if 0xF000000000 ≤ a ∧ a < 0xF000800000 then .sram
  else if 0xF100000000 ≤ a ∧ a < 0xF200000000 then .device
  else if 0xF200000000 ≤ a ∧ a < 0xF201000000 then .flash
  else if 0xFFFFF00000 ≤ a ∧ a < 0xFFFFF40000 then .rom
  else .hole

/-- The secure watermark SEC_WEIR (Table 16.1). -/
def State.secWeir (s : State) : Nat := s.pairBase (.d .secWeirLo) (.d .secWeirHi) 20

/-- The address below which on-chip SRAM is secure (Table 16.1). -/
def State.sramWeir (s : State) : Nat := 0xF000000000 + bitsOf (s.reg (.d .sramWeir)) 23 12 * 4096

/-- Whether the key array is valid (R278). -/
def State.keyV (s : State) : Bool := bitAt (s.reg (.d .keyBaseLo)) 0

/-- KEY_BASE (Table 11.1). -/
def State.keyBase (s : State) : Nat := s.pairBase (.d .keyBaseLo) (.d .keyBaseHi) 12

/-- Whether an address lies in the valid key array (R278, R283). -/
def State.inKeyArray (s : State) (a : Nat) : Bool :=
  s.keyV && decide (s.keyBase ≤ a) && decide (a < s.keyBase + s.dramSize / 4096)

/-- Whether a range of addresses meets the valid key array. -/
def State.meetsKeyArray (s : State) (a n : Nat) : Bool :=
  s.keyV && decide (a < s.keyBase + s.dramSize / 4096) && decide (s.keyBase < a + n)

/-- The stored byte of DRAM or SRAM at an address; an unlisted address reads zero (notes/assumptions/4.md). -/
def State.memByte (s : State) (a : Nat) : Byte := smGet s.mem 0 a

/-- Store one byte of DRAM or SRAM. -/
def memSet (m : List Host.Cell) (a : Nat) (b : Byte) : List Host.Cell := smSet m 0 a b

/-- Store bytes at rising addresses. -/
def memSetAll (m : List Host.Cell) (a : Nat) (bs : List Byte) : List Host.Cell :=
  match bs with
  | [] => m
  | b :: t => memSetAll (memSet m a b) (a + 1) t

/-- The canonical form of memory: addresses strictly rising and no entry equal to zero. -/
def Memory.wf (m : List Host.Cell) : Bool := smWf m 0

/-- The aligned 8-byte word an address lies in. -/
def wordOf (a : Nat) : Nat := a / 8 * 8

/-- Whether the 8-byte word of an address is poisoned (R336). -/
def State.poisoned (s : State) (a : Nat) : Bool := smGet s.poison false (wordOf a)

/-- Whether any word that a range touches is poisoned. -/
def State.anyPoison (s : State) (a len : Nat) : Bool := (List.range len).any (fun i => s.poisoned (a + i))

/-- `len` stored bytes at rising addresses. A poisoned word reads as zeros (R336). -/
def State.memRead (s : State) (a len : Nat) : List Byte :=
  (List.range len).map (fun i => if s.poisoned (a + i) then 0 else s.memByte (a + i))

/-- Whether a write of `len` bytes at `a` covers the whole 8-byte word of address `x`. -/
def covers (a len x : Nat) : Bool := decide (a ≤ wordOf x) && decide (wordOf x + 8 ≤ a + len)

/-- The first addresses of the poisoned words that a write touches without covering them (R337). -/
def State.droppedWords (s : State) (a len : Nat) : List Nat :=
  (((List.range len).map (fun i => wordOf (a + i))).eraseDups).filter (fun w => s.poisoned w && !covers a len w)

/-- Store bytes, leaving alone those of the listed words. -/
def memSetBut (m : List Host.Cell) (a : Nat) (bs : List Byte) (but : List Nat) : List Host.Cell :=
  match bs with
  | [] => m
  | b :: t => memSetBut (if but.contains (wordOf a) then m else memSet m a b) (a + 1) t but

/-- Drop the poison of the listed words. -/
def dropPoison (p : SMap Bool) (ws : List Nat) : SMap Bool := ws.foldl (fun p w => smSet p false w false) p

/-- The listed words of DRAM are cured, perhaps in a cache alone: their copies in DRAM may still hold the poison (R338). -/
def State.noteStale (s : State) (ws : List Nat) : SMap Bool :=
  (ws.filter (fun w => s.poisoned w && decide (w < 0x8000000000))).foldl (fun m w => smSet m false w true) s.stale

/-- Write bytes to DRAM or SRAM. A write of a whole poisoned word cures it; a partial one is not performed and is
counted (R337). -/
def State.memWrite (s : State) (a : Nat) (bs : List Byte) : State :=
  let but := s.droppedWords a bs.length
  let ws := (((List.range bs.length).map (fun i => wordOf (a + i))).eraseDups).filter (fun w => covers a bs.length w)
  let s1 := { s with mem := memSetBut s.mem a bs but, poison := dropPoison s.poison ws, stale := s.noteStale ws }
  if but.isEmpty then s1 else s1.bumpSat (.d .integPoisonDrop) but.length

/-- Poison the 8-byte word of an address: its bits become zero (R336). -/
def State.poisonWord (s : State) (a : Nat) : State :=
  { s with
    mem := memSetAll s.mem (wordOf a) (List.replicate 8 0)
    poison := smSet s.poison false (wordOf a) true }

/-- Set bits of the key byte of a DRAM frame while the key array is valid (R280); in a poisoned word they are not written
(R337). -/
def State.markFrame (s : State) (f : Nat) (m : Byte) : State :=
  if s.keyV && decide (f * 4096 < s.dramSize) then
    if s.poisoned (s.keyBase + f) then s.bumpSat (.d .integPoisonDrop) 1
    else { s with mem := memSet s.mem (s.keyBase + f) (s.memByte (s.keyBase + f) ||| m) }
  else s

/-- The frames that a range of addresses touches. -/
def framesOf (a len : Nat) : List Nat :=
  if len = 0 then [] else (List.range ((a + len - 1) / 4096 + 1 - a / 4096)).map (fun i => a / 4096 + i)

/-- Record REF, and CHG for a write, of every DRAM frame of a performed access (R280). -/
def State.touch (s : State) (a len : Nat) (write : Bool) : State :=
  (framesOf a len).foldl (fun s f => s.markFrame f (if write then 0xC0 else 0x40)) s

/-- The frames in which a write of `len` bytes at `a` is performed: where it covers poisoned words in part, those that it writes
besides (R337). -/
def State.writtenFrames (s : State) (a len : Nat) : List Nat :=
  let but := s.droppedWords a len
  if but.isEmpty then framesOf a len
  else (framesOf a len).filter (fun f => (List.range len).any (fun i =>
    decide ((a + i) / 4096 = f) && !but.contains (wordOf (a + i))))

/-- A write performed by an agent: the bytes, and REF and CHG of the frames in which it is performed (R280). -/
def State.agentWrite (s : State) (a : Nat) (bs : List Byte) : State :=
  (s.writtenFrames a bs.length).foldl (fun s f => s.markFrame f 0xC0) (s.memWrite a bs)

/-- A store replaces bytes: what they held stays with the contexts that may have fetched them (R314). -/
def State.noteStore (s : State) (a : Nat) (bs : List Byte) : State :=
  let m := (s.ctxs.filter (fun e => decide (e.2.occ ≠ .free))).map (fun e => (e.1, e.2.modes))
  let l := (bs.zipIdx.map (fun p => ({ addr := a + p.2, old := s.memByte (a + p.2), modes := m } : Replaced))).filter (fun r =>
    decide (bs[r.addr - a]? ≠ some r.old) && !s.replaced.contains r)
  { s with replaced := l ++ s.replaced }

/-- A store of a context is performed in memory. -/
def State.storeWrite (s : State) (a : Nat) (bs : List Byte) : State := (s.noteStore a bs).agentWrite a bs

/-- What a byte held while a context may have fetched it: in each store since its last mode change (R149, R314). -/
def State.fetchedOld (s : State) (x : CtxId) (a : Nat) : List Byte :=
  (s.replaced.filter (fun r => decide (r.addr = a) && r.modes.contains (x.val, (s.ctx x).modes))).map (·.old)

/-- The ROM lock takes effect (R447, R448): BC_STATUS shows it, the debug hold ends, and the ROM serves CL0 no more (R440). -/
def State.lockRom (s : State) : State :=
  let st := s.reg (.boot .status)
  { s.setReg (.boot .status) (setBit (setBit st 0 true) 3 false) with
    boot := { s.boot with locked := true, cl0 := false, cl0Data := false } }

/-! ## Records (R50, R345) -/

/-- Make an MCHK_STATUS record (R50, Table 2.23): source, core and whether the boot core is concerned; line 9. -/
def State.mchk (s : State) (source core : Nat) (boot : Bool) : State :=
  let v := s.reg (.g .mchkStatus)
  if bitAt v 0 then s.setReg (.g .mchkStatus) (v ||| 2)
  else ((s.setReg (.g .mchkStatus) (BitVec.ofNat 32 (1 + source * 16 + core * 256 + bit boot * 4096))).setHint 18).setLine 9

/-- Make an integrity record (R345, Table 14.4): path, cause, core, agent and word address; line 10. -/
def State.integRec (s : State) (path cause core agent : Nat) (a : Nat) : State :=
  let v := s.reg (.d .integRecInfo)
  if bitAt v 0 then s.setReg (.d .integRecInfo) (v ||| 2)
  else
    (((s.setReg (.d .integRecInfo)
        (BitVec.ofNat 32 (1 + path * 16 + cause * 256 + core * 65536 + agent * 1048576))).setReg
      (.d .integRecAddrLo) (BitVec.ofNat 32 (a % 2 ^ 32 / 8 * 8))).setReg
      (.d .integRecAddrHi) (BitVec.ofNat 32 (a / 2 ^ 32 % 256))).setLine 10

/-- The MCHK_STATUS source of an array's uncorrectable word (Table 2.23): DRAM, L3, L2, SRAM. -/
def ueSource (array : BitVec 2) : Nat :=
  match array.toNat with
  | 0 => 6
  | 1 => 5
  | 2 => 4
  | _ => 8

/-- An agent's read finds a mailbox word uncorrectable (R336, Table 14.1): the word is poisoned, with its records of a path. -/
def State.mbxFound (s : State) (path agent o : Nat) : State :=
  let f := s.fresh
  let t : State := { f.2 with
    mbxPoison := smSet s.mbxPoison false (o / 8) true
    h2d := if o < 0x8000 then (List.range 8).foldl (fun m k => smSet m 0 (o / 8 * 8 + k) 0) s.h2d else s.h2d
    d2h := if o < 0x8000 then s.d2h else (List.range 8).foldl (fun m k => smSet m 0 (o / 8 * 8 - 0x8000 + k) 0) s.d2h }
  (t.mchk 8 0 (decide (agent = 1))).integRec path 4 0 agent (f.1.toNat % 2 ^ 40)

/-- The records of a first detection of an uncorrectable word of an array, in MCHK_STATUS with a source (R336, Table 14.5). -/
def State.noteUe (s : State) (source a : Nat) (array : BitVec 2) (core agent : Nat) : State :=
  let s1 := (s.integRec 5 (array.toNat + 1) core agent (wordOf a)).mchk source core (decide (agent = 1))
  if array = 0 then (s1.orReg (.g .dramStatus) 0x1000000).setHint 22 else s1

/-- An agent finds a word of an array uncorrectable: it is poisoned and recorded. -/
def State.ueFoundAs (s : State) (source a : Nat) (array : BitVec 2) (core agent : Nat) : State :=
  (s.poisonWord a).noteUe source a array core agent

/-- An agent finds a word of an array uncorrectable: the record's source is that of the array. -/
def State.ueFound (s : State) (a : Nat) (array : BitVec 2) (core agent : Nat) : State :=
  s.ueFoundAs (ueSource array) a array core agent

/-- Whether the poison of a word is a detection of the command under way. -/
def State.detects (s : State) (a : Nat) : Bool := s.upset.any (fun e => decide (e.1 = wordOf a))

/-- The array in which the command under way finds a word uncorrectable; none where it does not. -/
def State.foundIn (s : State) (a : Nat) : Option (BitVec 2) := (s.upset.find? (fun e => decide (e.1 = wordOf a))).map (·.2)

/-- An agent reads a poisoned word: where the command under way finds it uncorrectable, the detection is recorded. -/
def State.meet (s : State) (a core agent : Nat) : State :=
  match s.foundIn a with
  | none => s
  | some array => { s with upset := s.upset.filter (fun e => decide (e.1 ≠ wordOf a)) }.ueFound (wordOf a) array core agent

/-- A walk reads a poisoned table entry (Table 12.6, R345): where the command under way finds it uncorrectable, the cause of
its array is recorded and MCHK_STATUS shows SOURCE 0x7; otherwise it is a consumption (R336). -/
def State.meetEntry (s : State) (a core agent : Nat) : State :=
  match s.foundIn a with
  | none => s.bumpSat (.d .integPoisonUse) 1
  | some array =>
    { s with upset := s.upset.filter (fun e => decide (e.1 ≠ wordOf a)) }.ueFoundAs 7 (wordOf a) array core agent

/-- An agent consumes the poison of a word, with a record of a path (R336), or detects it. -/
def State.usePoison (s : State) (path core agent a : Nat) : State :=
  if s.detects a then s.meet a core agent
  else (s.bumpSat (.d .integPoisonUse) 1).integRec path 5 core agent (wordOf a)

/-- The poisoned words that a range touches, in rising order. -/
def State.poisonWords (s : State) (a len : Nat) : List Nat :=
  if len = 0 then []
  else ((List.range ((a + len - 1) / 8 + 1 - a / 8)).map (fun i => (a / 8 + i) * 8)).filter (fun w => s.poisoned w)

/-- An agent consumes or detects the listed poisoned words, consumptions without a record (R336). -/
def State.countPoison (s : State) (core agent : Nat) (ws : List Nat) : State :=
  ws.foldl (fun s w => if s.detects w then s.meet w core agent else s.bumpSat (.d .integPoisonUse) 1) s

/-- An agent reads the listed poisoned words in one access: each is consumed, with one record of a path, or detected. -/
def State.consumeAll (s : State) (path core agent : Nat) (ws : List Nat) : State :=
  match ws with
  | [] => s
  | w :: t => (s.usePoison path core agent w).countPoison core agent t

/-- Whether an array can hold the word of an address (Table 13.1, R311): DRAM, L3 or L2 for DRAM; L2 or the SRAM for on-chip
SRAM; L3 or L2 for the flash window. -/
def State.held (s : State) (a : Nat) (array : BitVec 2) : Bool :=
  match s.region a with
  | .dram => decide (array ≠ 3)
  | .sram => decide (array = 2) || decide (array = 3)
  | .flash => decide (array = 1) || decide (array = 2)
  | .device | .rom | .hole => false

/-- Whether a word can be found uncorrectable, or corrected, in an array: one held there that is not poisoned yet. -/
def State.mayFind (s : State) (e : Nat × BitVec 2) : Bool := s.held e.1 e.2 && !s.poisoned e.1

/-- The listed words are poisoned, and the command under way detects them where it reads them. -/
def State.withFound (s : State) (l : List (Nat × BitVec 2)) : State :=
  { l.foldl (fun s e => s.poisonWord e.1) s with upset := l }

/-- A found line of the flash window is clean: its copy in the flash stands, and the poison goes with the line
(notes/assumptions/67.md). -/
def State.dropFlashPoison (s : State) : State :=
  { s with poison := s.poison.filter (fun e => decide (s.region e.1 ≠ .flash)) }

/-- Run a command that finds the listed words uncorrectable where it reads them, and that is as ever where it does not. -/
def State.finding (f : State → State) : Nat → List (Nat × BitVec 2) → State → State
  | 0, _, s => f s
  | n + 1, l, s =>
    if l.isEmpty then f s
    else
      let t := f (s.withFound l)
      if t.upset.isEmpty then t.dropFlashPoison
      else State.finding f n (l.filter (fun e => !t.upset.any (fun g => decide (g.1 = e.1)))) s

/-- The counter of corrected words of an array (R335, Table 14.4). -/
def ceCounter (array : BitVec 2) : DReg :=
  match array.toNat with
  | 0 => .integCeDram
  | 1 => .integCeL3
  | 2 => .integCeL2
  | _ => .integCeSram

/-- The words that a command meets uncorrectable, with their arrays. -/
def lostWords : Upset → List (Nat × BitVec 2)
  | .uncorrectable a array rest => (wordOf a.toNat, array) :: lostWords rest
  | .corrected _ _ rest | .refetched rest => lostWords rest
  | .none | .register _ | .store _ _ _ | .residue _ => []

/-- The words that a command meets correctable, with their arrays. -/
def mendedWords : Upset → List (Nat × BitVec 2)
  | .corrected a array rest => (wordOf a.toNat, array) :: mendedWords rest
  | .uncorrectable _ _ rest | .refetched rest => mendedWords rest
  | .none | .register _ | .store _ _ _ | .residue _ => []

/-- How many L1 parity failures a command meets. -/
def refetches : Upset → Nat
  | .refetched rest => refetches rest + 1
  | .uncorrectable _ _ rest | .corrected _ _ rest => refetches rest
  | .none | .register _ | .store _ _ _ | .residue _ => 0

/-- The listed words that can be met, each once. -/
def State.canMeet (s : State) (l : List (Nat × BitVec 2)) : List (Nat × BitVec 2) :=
  (l.filter s.mayFind).foldl (fun m e => if m.any (fun g => decide (g.1 = e.1)) then m else m ++ [e]) []

/-- Whether a command that finds the listed words uncorrectable reads a further word. -/
def State.readsWord (s : State) (f : State → State) (l : List (Nat × BitVec 2)) (e : Nat × BitVec 2) : Bool :=
  !(f (s.withFound (e :: l))).upset.any (fun g => decide (g.1 = e.1))

/-- The correctable words that a command reads: each adds 1 to the counter of its array (R335). -/
def State.correct (s : State) (f : State → State) (u : Upset) : State :=
  let l := s.canMeet (lostWords u)
  ((s.canMeet (mendedWords u)).filter (fun e => !l.any (fun g => decide (g.1 = e.1)) && s.readsWord f l e)).foldl
    (fun s e => s.bumpSat (.d (ceCounter e.2)) 1) s

/-- An operation with what its reads meet in the arrays (R335, R336). -/
def State.withUpset (s : State) (u : Upset) (f : State → State) : State :=
  let l := s.canMeet (lostWords u)
  State.finding f (l.length + 1) l (s.correct f u)

/-! ## Worlds -/

/-- The world of a context's CSW (Table 5.3). -/
def Ctx.world (c : Ctx) : World := if bitAt c.csw 1 then .secure else .nonSecure

/-- The world an access is made in (R372): the host's is non-secure. -/
def State.worldOf (s : State) (q : Requester) : World :=
  match q with
  | .host => .nonSecure
  | .ctx x => (s.ctx x).world
  | .dae w => w

/-- The link and station number in force for a site (Table 3.1, SB_LINK). -/
def State.siteLink (s : State) (n : SiteId) : LinkId × StationId :=
  let v := s.reg (.site n .link)
  (BitVec.ofNat 6 (bitsOf v 5 0), BitVec.ofNat 4 (bitsOf v 11 8))

/-- Bit k of a pair of ASSIGN registers (Table 16.2). -/
def assignBit (lo hi : Word32) (k : Nat) : World :=
  if (if k < 32 then bitAt lo k else bitAt hi (k - 32)) then .secure else .nonSecure

/-- The world of a link (Table 16.2). -/
def State.linkWorld (s : State) (k : LinkId) : World :=
  assignBit (s.reg (.d .assignLinkLo)) (s.reg (.d .assignLinkHi)) k.toNat

/-- The world of a site block: that of its link (R62). -/
def State.siteWorld (s : State) (n : SiteId) : World := s.linkWorld (s.siteLink n).1

/-- The world of a context's timer; that of the boot core is secure (Table 16.2). -/
def State.timerWorld (s : State) (x : CtxId) : World :=
  if x.val = 64 then .secure else assignBit (s.reg (.d .assignTimerLo)) (s.reg (.d .assignTimerHi)) x.val

/-- The world of a context's doorbell; that of the boot core is secure (Table 16.2). -/
def State.dbellWorld (s : State) (x : CtxId) : World :=
  if x.val = 64 then .secure else assignBit (s.reg (.d .assignDbellLo)) (s.reg (.d .assignDbellHi)) x.val

/-- The world of an interrupt line (Table 16.2). -/
def State.lineWorld (s : State) (k : Nat) : World := assignBit (s.reg (.d .assignLine)) 0 k

/-- The world of a Curlew command ring (Table 16.2). -/
def State.ringWorld (s : State) (k : BitVec 3) : World := assignBit (s.reg (.d .assignRing)) 0 k.toNat

/-! ## Core states -/

/-- A CORE_STATE field as Table 2.7 encodes it. -/
def CoreState.code (c : CoreState) : Nat :=
  match c with
  | .held => 0
  | .running => 1
  | .fenced => 2
  | .returning => 3

/-- Change a ledger core's state: HINT_STATUS.CORE and line 3 (Tables 2.14, 15.7). -/
def State.setCoreState (s : State) (c : Nat) (v : CoreState) : State :=
  ((s.setCore c { s.core c with state := v }).setHint 6).setLine 3

/-- A context has become occupied: it takes an NMI that waited for one on its core (R365). -/
def State.takeNmiWait (s : State) (x : CtxId) : State :=
  let k := s.core (coreOf x)
  if k.nmiWait then (s.setCore (coreOf x) { k with nmiWait := false }).upCtx x (fun c => { c with nmiPend := true }) else s

end Sys2Proof.Machine
end

