-- ==== Sys2Proof/Machine/Curlew.lean ====
section
/-! DEFINITION. Curlew: the key ladder, the vault, the key slots, and the appends of the sealed journal
(spec/17, R401 to R428). -/

namespace Sys2Proof.Machine

/-! ## Fuses and derivations -/

/-- `n` fuse bits from bit address `lo`, as sensed at the last chip reset (Table 22.4). -/
def State.fuseField (s : State) (lo n : Nat) : Nat :=
  sumNat ((List.range n).map (fun i => if smGet s.sensed false (lo + i) then 2 ^ i else 0))

/-- `n` fuse bits as they are blown now. -/
def State.fuseNow (s : State) (lo n : Nat) : Nat :=
  sumNat ((List.range n).map (fun i => if smGet s.fuses false (lo + i) then 2 ^ i else 0))

/-- The UID: UID_STRUCT in [127:64], UID_RANDOM in [63:0] (R536, Table 22.4). -/
def State.uid (s : State) : Nat := s.fuseField 0x40 64 * 2 ^ 64 + s.fuseField 0x80 64

/-- The 16 bytes of the UID, UID[7:0] first (R402). -/
def State.uidBytes (s : State) : List Byte := leBytes 16 s.uid

/-- F: the number of VERSION_FLOOR bits that are blown and count (R404, R535). -/
def State.floorCount (s : State) : Nat :=
  sumNat ((List.range 128).map (fun i => bit (smGet s.fuses false (0x280 + i))))

/-- VER: the declared SVN, or the below-floor label 0xFFFF (R404). -/
def verOf (svn floor : Nat) : Nat := if svn < floor then 0xFFFF else svn

/-- The ASCII bytes of a label. -/
def ascii (t : String) : List Byte := t.toList.map (fun c => BitVec.ofNat 8 c.toNat)

/-- KDF(K, label, context) of R402: 256 bits. -/
def kdf (key : BitVec 256) (label : List Byte) (context : List Byte) : BitVec 256 :=
  BitVec.ofNat 256 (beNat ((digestBytes (hmacSha384 (beBytes 32 key.toNat)
    ([0, 0, 0, 1] ++ label ++ [0] ++ context ++ [0, 0, 1, 0]))).take 32))

/-- SR from DRK (Table 17.2); DRK's key bytes are DRK[7:0] first (notes/assumptions/3.md). -/
def deriveSr (drk : BitVec 256) (lc : Nat) (uid : List Byte) : BitVec 256 :=
  kdf (BitVec.ofNat 256 (beNat (leBytes 32 drk.toNat))) (ascii "FRZ.SR") (leBytes 1 lc ++ uid)

/-- BBK or BBK′ from SR (Table 17.2). -/
def deriveBbk (sr : BitVec 256) (lc : Nat) (meas : List Byte) (ver : Nat) : BitVec 256 :=
  kdf sr (ascii "FRZ.BBK") (leBytes 1 lc ++ meas ++ leBytes 2 ver)

/-- KW_t from BBK (Table 17.2). -/
def deriveKw (bbk : BitVec 256) (t : SiteId) (uid : List Byte) : BitVec 256 :=
  kdf bbk (ascii "FRZ.WRAP") (leBytes 2 t.toNat ++ uid)

/-- KE_t from K_t (Table 17.2). -/
def deriveKe (k : BitVec 256) (t : SiteId) (epoch : BitVec 16) : BitVec 256 :=
  kdf k (ascii "FRZ.ENC") (leBytes 2 t.toNat ++ leBytes 2 epoch.toNat)

/-- AES-256-GCM: the text combined with the key stream, which encrypts and decrypts (R407, R425). -/
def gcmCrypt (key : BitVec 256) (iv text : List Byte) : List Byte :=
  xorBytes text (gcmStream key iv text.length)

/-- The life-cycle state from the sensed LC pairs (R533): the highest state whose pair has a blown bit. -/
def State.lcState (s : State) : Nat :=
  let lc := s.fuseField 0 8
  if lc / 64 % 4 ≠ 0 then 4 else if lc / 16 % 4 ≠ 0 then 3 else if lc / 4 % 4 ≠ 0 then 2 else if lc % 4 ≠ 0 then 1 else 0

/-! ## The vault (R406, R407) -/

/-- Whether the vault registers are valid. -/
def State.vaultV (s : State) : Bool := bitAt (s.reg (.curlew .vaultLo)) 0

/-- KVAULT_BASE. -/
def State.vaultBase (s : State) : Nat := s.pairBase (.curlew .vaultLo) (.curlew .vaultHi) 17

/-- Whether the staged vault registers are valid. -/
def State.stageV (s : State) : Bool := bitAt (s.reg (.curlew .stageLo)) 0

/-- KSTAGE_BASE. -/
def State.stageBase (s : State) : Nat := s.pairBase (.curlew .stageLo) (.curlew .stageHi) 17

/-- The 128 bytes of a vault entry. -/
def State.vaultEntry (s : State) (base : Nat) (t : SiteId) : List Byte := s.memRead (base + 128 * t.toNat) 128

/-- A slice of a list of bytes. -/
def slice (bs : List Byte) (o n : Nat) : List Byte := (bs.drop o).take n

/-- What an unwrap gives: the key, its epoch and ENC_SITE. -/
structure Unwrapped where
  key : BitVec 256
  epoch : BitVec 16
  encSite : Bool
  deriving DecidableEq, Repr

/-- Unwrap a vault entry under a wrapping key; none where R407 says that it fails. -/
def unwrapEntry (kw : BitVec 256) (t : SiteId) (e : List Byte) : Option Unwrapped :=
  let flags := leNat (slice e 0 1)
  let zero := fun bs : List Byte => bs.all (fun b => b == 0)
  if flags % 2 = 1 ∧ flags < 4 ∧ leNat (slice e 2 2) = t.toNat ∧ zero (slice e 1 1) ∧ zero (slice e 6 10)
      ∧ zero (slice e 0x1C 4) ∧ zero (slice e 0x50 48)
      ∧ (gcmTag kw (slice e 0x10 12) (slice e 0 32) (slice e 0x20 32)).toNat = leNat (slice e 0x40 16) then
    some { key := BitVec.ofNat 256 (beNat (gcmCrypt kw (slice e 0x10 12) (slice e 0x20 32)))
           epoch := BitVec.ofNat 16 (leNat (slice e 4 2)), encSite := decide (flags / 2 % 2 = 1) }
  else none

/-- The 128 bytes of a wrapped entry (Table 17.3). -/
def wrapEntry (kw : BitVec 256) (t : SiteId) (u : Unwrapped) (iv : List Byte) : List Byte :=
  let head := leBytes 2 (1 + 2 * bit u.encSite) ++ leBytes 2 t.toNat ++ leBytes 2 u.epoch.toNat
    ++ List.replicate 10 0 ++ iv ++ List.replicate 4 0
  let ct := gcmCrypt kw iv (beBytes 32 u.key.toNat)
  head ++ ct ++ leBytes 16 (gcmTag kw iv head ct).toNat ++ List.replicate 48 0

/-- Whether a vault area of 128 KiB lies wholly below SEC_WEIR within installed DRAM (R406). -/
def State.vaultPlaced (s : State) (base : Nat) : Bool :=
  decide (base + 0x20000 ≤ s.secWeir) && decide (base + 0x20000 ≤ s.dramSize)

/-- Whether Curlew reaches tenant t's entry of a vault area: no agent reaches the key array (R283). -/
def State.vaultReach (s : State) (base : Nat) (t : SiteId) : Bool := !s.inKeyArray (base + 128 * t.toNat)

/-- Whether tenant t's vault entry can be read: the vault is valid, the entry is reached, and none of it is lost. -/
def State.vaultReadable (s : State) (t : SiteId) : Bool :=
  s.vaultV && s.vaultReach s.vaultBase t && !s.anyPoison (s.vaultBase + 128 * t.toNat) 128

/-- Unwrap tenant t's vault entry under KW_t (R407). -/
def State.unwrap (s : State) (t : SiteId) : Option Unwrapped :=
  if s.vaultReadable t then unwrapEntry (deriveKw s.curlew.bbk t s.uidBytes) t (s.vaultEntry s.vaultBase t) else none

/-- Whether tenant t's vault entry is read as not valid: FLAGS.V is 0. -/
def State.vaultEmpty (s : State) (t : SiteId) : Bool :=
  s.vaultReadable t && decide (leNat (slice (s.vaultEntry s.vaultBase t) 0 1) % 2 = 0)

/-- Curlew reads tenant t's vault entry: REF is set (R280), and poison in it is consumed (R336). -/
def State.readVault (s : State) (t : SiteId) : State :=
  if s.vaultV && s.vaultReach s.vaultBase t then
    (s.consumeAll 5 0 5 (s.poisonWords (s.vaultBase + 128 * t.toNat) 128)).touch (s.vaultBase + 128 * t.toNat) 128 false
  else s

/-- Curlew writes tenant t's entry of a vault area; a write that does not reach it is not made (R283). -/
def State.writeVault (s : State) (base : Nat) (t : SiteId) (e : List Byte) : State :=
  if s.vaultReach base t then s.agentWrite (base + 128 * t.toNat) e else s

/-! ## Key slots (R409-R413) -/

/-- Slot k. -/
def State.keySlot (s : State) (k : Nat) : KeySlot := smGet s.curlew.slots {} k

/-- Change slot k. -/
def State.setKeySlot (s : State) (k : Nat) (v : KeySlot) : State :=
  { s with curlew := { s.curlew with slots := smSet s.curlew.slots {} k v } }

/-- Slot k is used: it is the most recently used (R410). -/
def State.useSlot (s : State) (k : Nat) : State :=
  let s1 := s.setKeySlot k { s.keySlot k with used := s.curlew.useCount + 1 }
  { s1 with curlew := { s1.curlew with useCount := s.curlew.useCount + 1 } }

/-- The slot that holds tenant t's key. -/
def State.slotOf (s : State) (t : SiteId) : Option Nat :=
  (List.range 64).find? (fun k => (s.keySlot k).loaded && decide ((s.keySlot k).tenant = t))

/-- The copy of the append in progress for a tenant. -/
def Site.op (v : Site) : Option OpCopy :=
  match v.appends with
  | [] => none
  | a :: _ => a.began

/-- Whether a Curlew operation is in flight for a site (R502). -/
def State.opInFlight (s : State) (n : SiteId) : Bool := (s.site n).op.isSome

/-- Whether an operation uses a slot (R410): its tenant's append in progress was begun from it. -/
def State.slotBusy (s : State) (k : Nat) : Bool :=
  let v := s.keySlot k
  v.loaded && (match (s.site v.tenant).op with
    | none => false
    | some o => decide (o.slot = k) && !o.revoked)

/-- A free slot, or else the least recently used slot that no operation uses (R410). -/
def State.chooseSlot (s : State) : Option Nat :=
  match (List.range 64).find? (fun k => !(s.keySlot k).loaded) with
  | some k => some k
  | none => minBy (fun k => (s.keySlot k).used) ((List.range 64).filter (fun k => !s.slotBusy k))

/-- Set a tenant's SB_KEY_STATE.STATE (Table 17.4): 0 NONE, 1 WRAPPED, 2 LOADED, 3 REVOKED. -/
def State.setKeyState (s : State) (t : SiteId) (v : BitVec 2) : State := s.upSite t (fun x => { x with keyState := v })

/-- Record a request to the monitor in CW_REQ and set line 14 (R410, Table 17.6). -/
def State.cwReq (s : State) (reason : Nat) (t : SiteId) : State :=
  let v := s.reg (.curlew .cwReq)
  (if bitAt v 0 then s.setReg (.curlew .cwReq) (v ||| 2)
   else s.setReg (.curlew .cwReq) (BitVec.ofNat 32 (1 + reason * 16 + t.toNat * 65536))).setLine 14

/-- Mark the append in progress of a tenant that its slot was loaded again (R413). -/
def markSuperseded (v : Site) : Site :=
  match v.appends with
  | { kind := k, began := some o, waitSpace := w } :: t =>
    { v with appends := { kind := k, began := some { o with superseded := true }, waitSpace := w } :: t }
  | _ => v

/-- Mark the append in progress of a tenant that its slot was erased (R413). -/
def markRevoked (v : Site) : Site :=
  match v.appends with
  | { kind := k, began := some o, waitSpace := w } :: t =>
    { v with appends := { kind := k, began := some { o with revoked := true }, waitSpace := w } :: t }
  | _ => v

/-- Load a key into slot k (R409): a LOADED tenant whose slot is reused becomes WRAPPED, an operation in flight is marked, and
the generation rises by one. -/
def State.loadSlot (s : State) (k : Nat) (t : SiteId) (u : Unwrapped) : State :=
  let old := s.keySlot k
  let s1 := if old.loaded && decide (old.tenant ≠ t) && decide ((s.site old.tenant).keyState = 2) then
    s.setKeyState old.tenant 1 else s
  let s2 := if old.loaded && decide (old.tenant = t) then s1.upSite t markSuperseded else s1
  let s3 := s2.setKeySlot k { loaded := true, tenant := t, key := u.key, epoch := u.epoch, encSite := u.encSite,
                              gen := old.gen + 1, used := s.curlew.useCount + 1 }
  { s3 with curlew := { s3.curlew with useCount := s.curlew.useCount + 1 } }.setKeyState t 2

/-- An entry of the vault that is not valid or does not unwrap leaves its tenant with no key, unless it is REVOKED (Table
17.4). -/
def State.dropKey (s : State) (t : SiteId) : State := if (s.site t).keyState = 3 then s else s.setKeyState t 0

/-- The outcome of a load of tenant t's key into a chosen slot: KSLOT and SB_KEY_STATE, or a record in CW_REQ with
reason 1 NO_KEY where the vault or the entry is not valid and 2 UNWRAP_FAIL otherwise (R410). -/
def State.loadKey (s : State) (k : Nat) (t : SiteId) : State :=
  match s.unwrap t with
  | some u => (s.readVault t).loadSlot k t u
  | none => ((s.readVault t).dropKey t).cwReq (if !s.vaultV || s.vaultEmpty t then 1 else 2) t

/-! ## The ring (R419-R421) -/

/-- The ring's base (Table 3.1). -/
def State.ringBase (s : State) (n : SiteId) : Nat := s.pairBase (.site n .jrnlBaseLo) (.site n .jrnlBaseHi) 12

/-- The number of slots of a ring, 2^SIZE. -/
def State.ringSlots (s : State) (n : SiteId) : Nat := 2 ^ bitsOf (s.reg (.site n .jrnlBaseLo)) 3 0

/-- SB_JRNL_HEAD. -/
def State.head (s : State) (n : SiteId) : Nat := (s.reg (.site n .jrnlHead)).toNat

/-- SB_JRNL_TAIL. -/
def State.tail (s : State) (n : SiteId) : Nat := (s.reg (.site n .jrnlTail)).toNat

/-- The number of retained records; none before the first (notes/assumptions/18.md). -/
def State.retained (s : State) (n : SiteId) : Nat := if s.head n = 0 then 0 else s.head n + 1 - s.tail n

/-- The address of record q's slot (R420). -/
def State.slotAddr (s : State) (n : SiteId) (q : Nat) : Nat := s.ringBase n + (q - 1) % s.ringSlots n * 0x1000

/-- Whether the next append of a site has to wait for space (R421). -/
def State.ringFull (s : State) (n : SiteId) : Bool :=
  decide (s.retained n = s.ringSlots n) || decide (s.head n = 0xFFFFFFFF)

/-! ## Beginning and completing appends (R426) -/

/-- The slot of a tenant whose STATE is LOADED (Table 17.4). -/
def State.liveSlot (s : State) (n : SiteId) : Option Nat := if (s.site n).keyState = 2 then s.slotOf n else none

/-- Whether a register of a site has an entry in the tide in progress (R502, R508). -/
def Tide.hasSite (m : SMap StagedEntry) (n : SiteId) : Bool :=
  [SReg.link, .cls, .affinity, .holdLimit].any (fun r => (smGet (m.map (fun e => (e.1, true))) false (Reg.site n r).addr))

/-- Whether the record of an append is one of a site's own, which ENC_SITE encrypts (R425). -/
def AppendKind.ofSite (k : AppendKind) : Bool :=
  match k with
  | .settle | .writeOff | .undelivered _ => true
  | .opening | .clear | .lapp _ _ _ _ => false

/-- ENC_SITE of a tenant, as its vault entry holds it now (R425); where the entry cannot be read, as its key was loaded with. -/
def State.encSite (s : State) (t : SiteId) (k : Nat) : Bool :=
  if s.vaultReadable t then bitAt (s.memByte (s.vaultBase + 128 * t.toNat)) 1 else (s.keySlot k).encSite

/-- The number of appends in progress; Curlew runs at most 8 at once (R432). -/
def State.opCount (s : State) : Nat := (s.sites.filter (fun e => e.2.op.isSome)).length

/-- Begin the oldest append of a site when its key is loaded, the ring has space, fewer than 8 appends are in progress and
no tide awaits the site (R410, R421, R426, R432, R502). An append that begins to wait for space sets SB_ATTN.JRNL_FULL. -/
def State.tryBegin (s : State) (n : SiteId) : State :=
  match (s.site n).appends with
  | [] => s
  | a :: t =>
    if a.began.isSome || Tide.hasSite s.tide.entries n || !(s.site n).ringSet then s
    else if s.ringFull n then
      if a.waitSpace then s
      else (s.upSite n (fun v => { v with appends := { a with waitSpace := true } :: t })).setAttn n 6
    else if 8 ≤ s.opCount then s
    else
      match s.liveSlot n with
      | none => s
      | some k =>
        let sl := s.keySlot k
        let o : OpCopy := { key := sl.key, epoch := sl.epoch, encSite := s.encSite n k, slot := k, gen := sl.gen, time := s.time,
                            superseded := false, revoked := false }
        let s0 := if a.kind.ofSite then s.readVault n else s
        let s1 := s0.upSite n (fun v => { v with appends := { a with began := some o, waitSpace := false } :: t })
        s1.useSlot k

/-- Whether the oldest append of a site waits for nothing but its key (R410). -/
def State.needsKey (s : State) (n : SiteId) : Bool :=
  match (s.site n).appends with
  | [] => false
  | a :: _ => a.began.isNone && !Tide.hasSite s.tide.entries n && (s.site n).ringSet && !s.ringFull n
      && decide ((s.site n).keyState ≠ 2)

/-- Load a key on demand (R410): into the slot that holds the tenant, or a free slot, or the least recently used one that
no operation uses; with none the operation waits. A revoked key is not loaded. -/
def State.demandKey (s : State) (n : SiteId) : State :=
  if (s.site n).keyState = 3 then s.cwReq 3 n
  else match (s.slotOf n).or s.chooseSlot with
    | none => s
    | some k => s.loadKey k n

/-- A waiting Curlew operation of a site is tried again (R410). -/
def State.retry (s : State) (n : SiteId) : State := (if s.needsKey n then s.demandKey n else s).tryBegin n

/-- Every waiting operation is tried again, in ascending order of sites. -/
def State.retryAll (s : State) : State :=
  (s.sites.filter (fun e => !e.2.appends.isEmpty)).foldl (fun s e => s.retry (BitVec.ofNat 10 e.1)) s

/-- Accept an append of a site, behind those accepted before it, and begin it where nothing keeps it (R426). -/
def State.accept (s : State) (n : SiteId) (k : AppendKind) : State :=
  (s.upSite n (fun v => { v with appends := v.appends ++ [{ kind := k }] })).tryBegin n

/-- Site n's buffer area (R104). -/
def State.siteBuf (s : State) (n : SiteId) : Nat :=
  s.pairBase (.d .siteBufBaseLo) (.d .siteBufBaseHi) 19 + n.toNat * 0x80000

/-- The counters of a site in the order of Table 17.7: SB_BIN0 to SB_BIN15, then the four totals. -/
def counterRegs : List SReg :=
  (List.range 16).map (fun k => SReg.bin (BitVec.ofNat 4 k)) ++ [.totalPass, .totalFail, .totalRetest, .totalWoff]

/-- Eight packed decimal digits as a number (R66). -/
def bcdNat (v : Word32) : Nat := (List.range 8).foldr (fun k a => a + (v.toNat >>> (4 * k)) % 16 * 10 ^ k) 0

/-- A number below 10^8 as eight packed decimal digits (R66). -/
def natBcd (x : Nat) : Word32 :=
  BitVec.ofNat 32 (sumNat ((List.range 8).map (fun k => x / 10 ^ k % 10 * 16 ^ k)))

/-- Add one to a ledger counter modulo 100,000,000; a wrap sets SB_ATTN.CTR_WRAP (R65, R66). -/
def State.addCounter (s : State) (n : SiteId) (r : SReg) : State :=
  let x := bcdNat (s.reg (.site n r)) + 1
  let s1 := s.setReg (.site n r) (natBcd (x % 10 ^ 8))
  if 10 ^ 8 ≤ x then s1.setAttn n 5 else s1

/-- Add one to a counter where a flag is set. -/
def State.addIf (s : State) (b : Bool) (n : SiteId) (r : SReg) : State := if b then s.addCounter n r else s

/-- The counter changes that a settlement word names (R111). -/
def State.settleCounters (s : State) (n : SiteId) (w : Byte) : State :=
  ((((s.addIf (bitAt w 4) n (.bin (BitVec.ofNat 4 (bitsOf w 3 0)))).addIf (bitAt w 5) n .totalPass).addIf
    (bitAt w 6) n .totalFail).addIf (bitAt w 7) n .totalRetest)

/-- The bytes of a settlement-slot body, 16 bytes above the settlement word (notes/assumptions/19.md). -/
def State.settleBody (s : State) (n : SiteId) : List Byte :=
  s.memRead (s.siteBuf n + 0x60010) (s.site n).bodyLen

/-- The record type of an append (Table 17.7). -/
def AppendKind.code (k : AppendKind) : Nat :=
  match k with
  | .opening => 0
  | .settle => 1
  | .writeOff => 2
  | .undelivered _ => 3
  | .clear => 4
  | .lapp _ _ _ _ => 5

/-- Whether the record of an append is encrypted (R425). -/
def encrypts (k : AppendKind) (o : OpCopy) : Bool :=
  match k with
  | .opening => false
  | .settle => o.encSite
  | .writeOff => o.encSite
  | .undelivered _ => o.encSite
  | .clear => false
  | .lapp _ e _ _ => e

/-- The body of a record, or none where memory lost it (Table 17.7, R340, R344). -/
def State.recordBody (s : State) (n : SiteId) (k : AppendKind) : Option (List Byte) :=
  let v := s.site n
  match k with
  | .opening =>
    some (s.uidBytes ++ (match v.prevRing with
      | none => List.replicate 36 0
      | some (q, t) => leBytes 4 q ++ t))
  | .settle => if s.anyPoison (s.siteBuf n + 0x60010) v.bodyLen then none else some (s.settleBody n)
  | .writeOff =>
    if !v.settled then some []
    else if s.anyPoison (s.siteBuf n + 0x60010) v.bodyLen then none else some (s.settleBody n)
  | .undelivered f =>
    let a := s.siteBuf n + 0x40000 + 0x1000 * f.slot
    if s.anyPoison a (16 + f.len) then none else some (s.memRead a 12 ++ s.memRead (a + 16) f.len)
  | .clear => some (counterRegs.flatMap (fun r => beBytes 4 (s.reg (.site n r)).toNat))
  | .lapp _ _ _ b => some b

/-- The ranges that Curlew reads for a record: of the settlement slot or of the hold slot (R340, R344, R422). -/
def State.recordReads (s : State) (n : SiteId) (k : AppendKind) : List (Nat × Nat) :=
  let v := s.site n
  let a := s.siteBuf n + 0x60000
  match k with
  | .settle => [(a, 8), (a + 16, v.bodyLen)]
  | .writeOff => if v.settled then [(a + 16, v.bodyLen)] else []
  | .undelivered f => [(s.siteBuf n + 0x40000 + 0x1000 * f.slot, 16 + f.len)]
  | .opening | .clear | .lapp _ _ _ _ => []

/-- Curlew reads ranges on a path: each poisoned word is consumed (R336), and REF is set (R280). -/
def State.curlewReads (s : State) (path : Nat) (l : List (Nat × Nat)) : State :=
  l.foldl (fun s p => s.touch p.1 p.2 false) (s.consumeAll path 0 5 (l.flatMap (fun p => s.poisonWords p.1 p.2)))

/-- The 64 bytes 0x00 to 0x3F of a record (Table 17.6a). -/
def recordHead (s : State) (n : SiteId) (q : Nat) (k : AppendKind) (o : OpCopy) (enc lost : Bool) (len : Nat)
    (sword : Byte) (iv : List Byte) : List Byte :=
  let v := s.site n
  let tx := match k with
    | .settle => true
    | .writeOff => true
    | _ => false
  let word := tx && (decide (k = .settle) || v.settled)
  let outs := match k with
    | .undelivered f => (f.seq.toNat, f.seq.toNat, 1)
    | _ => if tx ∧ v.outCount ≠ 0 then (v.outFirst.toNat, v.outLast.toNat, v.outCount) else (0, 0, 0)
  let sub := match k with
    | .undelivered f => f.utype.toNat
    | .lapp u _ _ _ => u.toNat
    | _ => 0
  leBytes 4 q ++ leBytes 1 k.code ++ leBytes 1 (bit enc + 2 * bit lost) ++ leBytes 2 len ++ leBytes 2 n.toNat
    ++ leBytes 2 o.epoch.toNat ++ List.replicate 4 0 ++ leBytes 8 o.time
    ++ leBytes 4 (if word then sword.toNat else 0) ++ List.replicate 4 0
    ++ leBytes 4 (if tx then v.inFirst.toNat else 0) ++ leBytes 4 (if tx then v.inLast.toNat else 0)
    ++ leBytes 4 outs.1 ++ leBytes 4 outs.2.1 ++ leBytes 2 (if tx then v.inCount else 0) ++ leBytes 1 outs.2.2
    ++ leBytes 1 sub ++ iv

/-- The chained tag T(s) of R424. -/
def recordTag (key : BitVec 256) (prev : List Byte) (q : Nat) (r : List Byte) : List Byte :=
  (digestBytes (hmacSha384 (beBytes 32 key.toNat) (prev ++ leBytes 4 q ++ leBytes 4 r.length ++ r))).take 32

/-- The record R(s) (R423, R425); one whose body memory lost is encrypted as any other, over no text. -/
def buildRecord (s : State) (n : SiteId) (q : Nat) (k : AppendKind) (o : OpCopy) (sword : Byte) (iv : List Byte) :
    List Byte :=
  let body := s.recordBody n k
  let text := body.getD []
  let enc := encrypts k o
  let head := recordHead s n q k o enc body.isNone text.length sword (if enc then iv else List.replicate 12 0)
  if enc then
    let ke := deriveKe o.key n o.epoch
    let ct := gcmCrypt ke iv text
    head ++ ct ++ leBytes 16 (gcmTag ke iv head ct).toNat
  else head ++ text

/-- The previous tag: that of the newest record, or 32 zero bytes for the OPEN record (R424). -/
def prevTag (v : Site) (k : AppendKind) : List Byte :=
  match k with
  | .opening => List.replicate 32 0
  | _ => v.lastTag

/-- A frame becoming takeable, or a settlement taking effect, is told to the context that holds the tenant (R362). -/
def State.siteIrq (s : State) (n : SiteId) : State :=
  if (s.site n).tstate = .loaded then s.setIrq (s.site n).onCtx 0 else s

/-- The number of takeable frames, SB_TENANT_STATE.EVENTS before it saturates (R106). -/
def Site.events (v : Site) : Nat :=
  if (v.txn = .idle ∨ v.txn = .taken) ∧ v.woffPending = false then v.inbox.length else 0

/-- A site event arrives (Table 3.7): an idle tenant becomes pending, and a loaded one's context is told. -/
def State.siteEvent (s : State) (n : SiteId) : State :=
  if (s.site n).tstate = .idle then s.upSite n (fun v => { v with tstate := .pending }) else s.siteIrq n

/-- Close the transaction of a site (R114, R118): hold slots free, TXN IDLE, and the waiting frames become takeable. -/
def State.closeTxn (s : State) (n : SiteId) : State :=
  let s1 := s.upSite n (fun v => { v with
    txn := .idle, unacked := [], goBacks := 0, inCount := 0, outCount := 0, settled := false, bodyLen := 0,
    woffPending := false, holdTimer := none, copied := false, armed := false })
  let s2 := (s1.setAttn n 0).siteIrq n
  if (s2.site n).inbox.isEmpty then s2 else s2.siteEvent n

/-- SB_KEY_STATE (Table 3.1). -/
def State.keyValue (s : State) (n : SiteId) : Nat :=
  let v := s.site n
  v.keyState.toNat + (match s.slotOf n with
    | none => 0
    | some k => if v.keyState = 2 then 256 * k + 65536 * (s.keySlot k).gen.toNat else 0)

/-- The doorbell page after a LAPP's append has ended (R428): the copies of HEAD, TAIL and KEY_STATE, DONE, LAST_SEQ and
LAST_STATUS (notes/assumptions/47.md). -/
def State.doorbell (s : State) (n : SiteId) (seq status : Nat) (notify : Bool) : State :=
  let s0 := ((s.setReg (.door n .cdHead) (s.reg (.site n .jrnlHead))).setReg (.door n .cdTail)
    (s.reg (.site n .jrnlTail))).setReg (.door n .cdKeyState) (BitVec.ofNat 32 (s.keyValue n))
  let s1 := (((s0.bumpWrap (.door n .cdDone) 1).setReg (.door n .cdLastSeq) (BitVec.ofNat 32 seq)).setReg
    (.door n .cdLastStatus) (BitVec.ofNat 32 status))
  if notify && decide ((s.site n).tstate = .loaded) then s1.setIrq (s.site n).onCtx 2 else s1

/-- Discard the LAPPs at the front of a queue after KEY_REVOKED (R413): what is left, and how many ended with notice. -/
def dropLapps (l : List Append) : List Append :=
  l.filter (fun a => match a.kind with
    | .lapp _ _ _ _ => false
    | _ => true)

/-- Whether an append is a LAPP, and whether it asked for notice. -/
def Append.lappNotify (a : Append) : Option Bool :=
  match a.kind with
  | .lapp _ _ nt _ => some nt
  | _ => none

/-- The settlement word's poison makes a settlement a write-off (R344). -/
def State.effectiveKind (s : State) (n : SiteId) (k : AppendKind) : AppendKind :=
  match k with
  | .settle => if s.poisoned (s.siteBuf n + 0x60000) then .writeOff else .settle
  | k => k

/-- What a visible record does beside SB_JRNL_HEAD (R33): the counters, the attention bits and the transaction. -/
def State.applyRecord (s : State) (n : SiteId) (k : AppendKind) (q : Nat) (o : OpCopy) : State :=
  match k with
  | .opening => s.setReg (.site n .jrnlTail) 1
  | .settle => (s.settleCounters n (s.site n).sword).closeTxn n
  | .writeOff => (s.addCounter n .totalWoff).closeTxn n
  | .undelivered _ => s
  | .clear =>
    ((counterRegs.foldl (fun s r => s.setReg (.site n r) 0) s).upSite n (fun v => { v with clearPending := false })).setAttn n 9
  | .lapp _ _ nt _ => s.doorbell n q (if o.superseded then 1 else 0) nt

/-- The free slots left after a record became visible set SB_ATTN.JRNL_FULL at the threshold of R421. -/
def State.fillCheck (s : State) (n : SiteId) : State :=
  if s.ringSlots n - s.retained n ≤ s.ringSlots n / 8 then s.setAttn n 6 else s

/-- An append has ended: the next of its site begins, and where 8 were in progress those of other sites that waited for one to
end (R426, R432). -/
def State.beginNext (s : State) (n : SiteId) : State :=
  let s1 := s.tryBegin n
  if s.opCount = 7 then
    (s1.sites.filter (fun e => !e.2.appends.isEmpty)).foldl (fun s e => s.tryBegin (BitVec.ofNat 10 e.1)) s1
  else s1

/-- Write the record, advance SB_JRNL_HEAD and apply everything that takes effect with it (R420, R426). -/
def State.makeVisible (s : State) (n : SiteId) (a : Append) (o : OpCopy) (iv : List Byte) : State :=
  let q := s.head n + 1
  let k := s.effectiveKind n a.kind
  let body := buildRecord s n q k o (s.site n).sword iv
  let tag := recordTag o.key (prevTag (s.site n) k) q body
  let s1 := s.agentWrite (s.slotAddr n q) (body ++ List.replicate (0xFE0 - body.length) 0 ++ tag)
  let s2 := s1.setReg (.site n .jrnlHead) (BitVec.ofNat 32 q)
  let s3 := s2.upSite n (fun v => { v with appends := v.appends.tail, lastTag := tag })
  let s4 := s3.curlewReads 8 (s.recordReads n a.kind)
  ((s4.applyRecord n k q o).fillCheck n).beginNext n

end Sys2Proof.Machine
end

