-- ==== Sys2Proof/Machine/Links.lean ====
section
/-! DEFINITION. Caruthen frames, sequences, acknowledgement, presence and the transaction states (spec/04). -/

namespace Sys2Proof.Machine

/-! ## Frames (R89-R91) -/

/-- One bit of the reflected CRC-32 of R90. -/
def crcBit (c : Word32) : Word32 := if c.getLsbD 0 then (c >>> 1) ^^^ 0xEDB88320#32 else c >>> 1

/-- One byte of the CRC-32 of R90. -/
def crcByte (c : Word32) (b : Byte) : Word32 :=
  crcBit (crcBit (crcBit (crcBit (crcBit (crcBit (crcBit (crcBit (c ^^^ b.setWidth 32))))))))

/-- CRC-32 of a byte string (R90). -/
def crc32 (bs : List Byte) : Word32 := (bs.foldl crcByte 0xFFFFFFFF#32) ^^^ 0xFFFFFFFF#32

/-- The frame types of Table 4.3. -/
def frameData : Nat := 1
/-- ACK (Table 4.3). -/
def frameAck : Nat := 2
/-- NAK (Table 4.3). -/
def frameNak : Nat := 3
/-- HEARTBEAT (Table 4.3). -/
def frameHeartbeat : Nat := 4
/-- HELLO (Table 4.3). -/
def frameHello : Nat := 5
/-- HELLO_ACK (Table 4.3). -/
def frameHelloAck : Nat := 6

/-- The 12-byte frame header of Table 4.2. -/
def frameHeader (type : Nat) (t : StationId) (ackv absent none : Bool) (len : Nat) (seq ack : BitVec 24) (utype : Byte) :
    List Byte :=
  leBytes 1 type ++ leBytes 1 (t.toNat + 16 * bit ackv + 32 * bit absent + 64 * bit none) ++ leBytes 2 len
    ++ leBytes 3 seq.toNat ++ leBytes 3 ack.toNat ++ [utype, 0]

/-- The site that receives from a station number: the lowest-numbered one mapped to it (R82). -/
def State.fedSite (s : State) (k : LinkId) (t : StationId) : Option SiteId :=
  ((List.range 1024).find? (fun n => decide (s.siteLink (BitVec.ofNat 10 n) = (k, t)))).map (BitVec.ofNat 10)

/-- Whether a site is fed from its link and station (R82): it is not in MAP_CONFLICT. -/
def State.isFed (s : State) (n : SiteId) : Bool :=
  decide (s.fedSite (s.siteLink n).1 (s.siteLink n).2 = some n)

/-- SB_CTRL.EN of a site. -/
def State.siteEn (s : State) (n : SiteId) : Bool := bitAt (s.reg (.site n .ctrl)) 0

/-- The installed site of a station number (R105). -/
def State.installedSite (s : State) (k : LinkId) (t : StationId) : Option SiteId :=
  match s.fedSite k t with
  | none => none
  | some n => if s.siteEn n && s.siteBufSet then some n else none

/-- Whether the station that feeds a site is present: SB_STATUS.STATION_UP (Table 3.3, R98). -/
def State.stationUp (s : State) (n : SiteId) : Bool :=
  s.isFed n && (s.station (s.siteLink n).1 (s.siteLink n).2).present

/-- Send a frame on a link: the header with the acknowledgement of R95, the payload and the CRC; `invert` inverts the
CRC (R340). A frame that carries the acknowledgement pays what is owed. During a chip reset the transmitters idle (R556). -/
def State.sendFrame (s : State) (k : LinkId) (t : StationId) (type : Nat) (absent invert : Bool) (seq : BitVec 24)
    (utype : Byte) (payload : List Byte) : State :=
  let st := s.station k t
  let none := decide (type = frameHelloAck) && !st.any
  let head := frameHeader type t st.any absent none payload.length seq (if st.any then st.inSeq - 1 else 0) utype
  let crc := crc32 (head ++ payload)
  let bytes := head ++ payload ++ leBytes 4 ((if invert then ~~~crc else crc).toNat)
  if s.inReset then s
  else { s.setStation k t { st with ackOwed := false } with sent := s.sent ++ [{ link := k, bytes := bytes }] }

/-- The address of a hold slot of a site (Table 4.5). -/
def State.holdSlot (s : State) (n : SiteId) (i : Nat) : Nat := s.siteBuf n + 0x40000 + 0x1000 * i

/-- The address of an inbox slot of a site (Table 4.5). -/
def State.inboxSlot (s : State) (n : SiteId) (i : Nat) : Nat := s.siteBuf n + 0x1000 * i

/-- Transmit one held outbound frame (R110). A poisoned word in the hold slot inverts the CRC, is counted and makes an
integrity record (R340), and is consumed (R336, Table 14.3). -/
def State.sendHeld (s : State) (n : SiteId) (f : OutFrame) : State :=
  let lt := s.siteLink n
  let a := s.holdSlot n f.slot
  let bad := s.poisonWords a (16 + f.len)
  let s1 := (s.sendFrame lt.1 lt.2 frameData false (!bad.isEmpty) f.seq f.utype (s.memRead (a + 16) f.len)).touch a
    (16 + f.len) false
  match bad with
  | [] => s1
  | w :: _ => ((s1.countPoison 0 3 bad).bumpSat (.d .integCrcStomp) 1).integRec 4 0x0A 0 3 w

/-- Send again the listed frames in order, each counted in LB_RETRY (R96). -/
def State.resend (s : State) (n : SiteId) (fs : List OutFrame) : State :=
  match fs with
  | [] => s
  | f :: t => ((s.sendHeld n f).bumpSat (.link (s.siteLink n).1 .retry) 1).resend n t

/-! ## Transactions (Table 4.7) -/

/-- Whether the site's settlement has already been handed to Curlew. -/
def Site.settleQueued (v : Site) : Bool :=
  v.appends.any (fun a => match a.kind with
    | .settle => true
    | _ => false)

/-- Start Curlew once every output of a settled transaction is acknowledged (Table 4.7, R114). -/
def State.startSettle (s : State) (n : SiteId) : State :=
  let v := s.site n
  if (v.txn = .settling ∨ v.txn = .replaying) ∧ v.unacked.isEmpty ∧ v.settleQueued = false then s.accept n .settle else s

/-- Apply an acknowledgement of the outbound space (R93): only a value among the unacknowledged frames counts. -/
def State.applyAck (s : State) (n : SiteId) (ack : BitVec 24) : State :=
  let v := s.site n
  if v.unacked.any (fun f => f.seq == ack) then
    let rest := (v.unacked.dropWhile (fun f => f.seq != ack)).drop 1
    let s1 := s.upSite n (fun v => { v with unacked := rest, goBacks := 0, anyAck := true })
    (s1.setReg (.site n .seqAck) (ack.setWidth 32)).startSettle n
  else s

/-- Whether an acknowledgement would be applied (R93). -/
def Site.ackApplies (v : Site) (ack : BitVec 24) : Bool := v.unacked.any (fun f => f.seq == ack)

/-- Start the hold timer at the limit in force (R115). -/
def State.startHold (s : State) (n : SiteId) : State :=
  s.upSite n (fun v => { v with holdTimer := some (bitsOf (s.reg (.site n .holdLimit)) 15 0) })

/-- A station loss as the transaction of the site it feeds sees it (Table 4.7). -/
def State.txnLost (s : State) (n : SiteId) : State :=
  let v := s.site n
  if v.unacked.isEmpty then s
  else match v.txn with
    | .settling => (s.upSite n (fun v => { v with txn := .unsettled })).startHold n
    | .replaying =>
      if v.copied then s.upSite n (fun v => { v with txn := .undelivered })
      else (s.upSite n (fun v => { v with txn := .unsettled })).startHold n
    | _ => s

/-- Declare a present station number lost (R100). -/
def State.stationLost (s : State) (k : LinkId) (t : StationId) : State :=
  let st := s.station k t
  if st.present then
    let s1 := (s.setStation k t { st with present := false }).bumpSat (.link k .lost) 1
    match s1.fedSite k t with
    | none => s1
    | some n => (s1.setAttn n 2).txnLost n
  else s

/-- Declare every present station number of a link lost (R87). -/
def State.linkLost (s : State) (k : LinkId) : State :=
  (List.range 16).foldl (fun s t => s.stationLost k (BitVec.ofNat 4 t)) s

/-- The transaction starts to replay (Table 4.7); with every output acknowledged it goes to the settlement (R117). -/
def State.startReplay (s : State) (n : SiteId) : State :=
  (s.upSite n (fun v => { v with txn := .replaying, holdTimer := none, armed := false })).startSettle n

/-- SB_CTRL.AUTO_REPLAY of a site. -/
def State.autoReplay (s : State) (n : SiteId) : Bool := bitAt (s.reg (.site n .ctrl)) 2

/-- The transaction when its station becomes present (Table 4.7, R118, R120). -/
def State.txnBack (s : State) (n : SiteId) : State :=
  let v := s.site n
  match v.txn with
  | .unsettled => s.upSite n (fun v => { v with txn := .replaying, holdTimer := none })
  | .undelivered =>
    if (s.autoReplay n || v.armed) && !v.woffPending then
      s.upSite n (fun v => { v with txn := .replaying, armed := false })
    else s
  | _ => s

/-- Go back: send every unacknowledged frame from the oldest, and count the go-back (R96). -/
def State.goBack (s : State) (n : SiteId) : State :=
  (s.upSite n (fun v => { v with goBacks := v.goBacks + 1 })).resend n (s.site n).unacked

/-- Whether DATA may be sent again for a site: its station is present (R100) and its frames do not wait for a replay
(R101, notes/assumptions/21.md). -/
def State.maySend (s : State) (n : SiteId) : Bool := s.stationUp n && decide ((s.site n).txn ≠ .undelivered)

/-- A go-back falls due: at a count of 16 the station is declared lost instead (R96). -/
def State.goBackDue (s : State) (n : SiteId) : State :=
  if (s.site n).unacked.isEmpty || !s.maySend n then s
  else if 16 ≤ (s.site n).goBacks then s.stationLost (s.siteLink n).1 (s.siteLink n).2
  else s.goBack n

/-! ## Reception (R92-R101) -/

/-- The fields of a received frame. -/
structure FrameFields where
  type : Nat
  station : StationId
  ackv : Bool
  none : Bool
  len : Nat
  seq : BitVec 24
  ack : BitVec 24
  utype : Byte
  payload : List Byte
  deriving DecidableEq, Repr

/-- Read the fields of a frame's bytes (Table 4.2). -/
def frameFields (bs : List Byte) : FrameFields :=
  let b := fun i => bs.getD i 0
  let len := leNat (slice bs 2 2) % 4096
  { type := (b 0).toNat, station := BitVec.ofNat 4 (b 1).toNat, ackv := bitAt (b 1) 4, none := bitAt (b 1) 6
    len := len, seq := BitVec.ofNat 24 (leNat (slice bs 4 3)), ack := BitVec.ofNat 24 (leNat (slice bs 7 3))
    utype := b 10, payload := slice bs 12 len }

/-- Check 2 of Table 4.4: the CRC over header and payload is the last four bytes. -/
def crcGood (bs : List Byte) : Bool :=
  decide (4 ≤ bs.length) && decide ((crc32 (bs.take (bs.length - 4))).toNat = leNat (bs.drop (bs.length - 4)))

/-- Check 3 of Table 4.4: the length. -/
def lengthGood (bs : List Byte) : Bool :=
  decide (bs.length = 16 + leNat (slice bs 2 2) % 4096) && decide (leNat (slice bs 2 2) % 4096 ≤ 2048)

/-- Check 4 of Table 4.4: the type, the length of a frame other than DATA, and the reserved bits. -/
def formatGood (bs : List Byte) : Bool :=
  let t := (bs.getD 0 0).toNat
  decide (1 ≤ t) && decide (t ≤ 5) && (decide (t = frameData) || decide (leNat (slice bs 2 2) % 4096 = 0))
    && !bitAt (bs.getD 1 0) 7 && decide (leNat (slice bs 2 2) < 4096) && decide (bs.getD 11 0 = 0)

/-- A free inbox slot of a site: the lowest-numbered (notes/assumptions/20.md). -/
def Site.freeInbox (v : Site) : Option Nat :=
  (List.range 64).find? (fun i => !v.inbox.any (fun f => decide (f.slot = i)))

/-- A free hold slot of a site: the lowest-numbered (notes/assumptions/20.md). -/
def Site.freeHold (v : Site) : Option Nat :=
  (List.range 32).find? (fun i => !v.unacked.any (fun f => decide (f.slot = i)))

/-- Write an accepted DATA frame to an inbox slot: header, four zero bytes, payload (R340), the header last. -/
def State.inboxWrite (s : State) (n : SiteId) (slot : Nat) (f : FrameFields) (head : List Byte) : State :=
  let a := s.inboxSlot n slot
  let pad := List.replicate ((8 - f.len % 8) % 8) 0
  let s1 := s.agentWrite a (head ++ [0, 0, 0, 0] ++ f.payload ++ pad)
  let inFrame : InFrame := { slot := slot, seq := f.seq, utype := f.utype, len := f.len, stamp := s1.arrivals }
  let s2 : State := { s1.upSite n (fun v => { v with inbox := v.inbox ++ [inFrame] }) with arrivals := s1.arrivals + 1 }
  if (s2.site n).events = 0 then s2 else s2.siteEvent n

/-- Send a NAK, at most one in 20 µs for each station number (R94). -/
def State.nak (s : State) (k : LinkId) (t : StationId) (absent : Bool) : State :=
  let st := s.station k t
  let due := match st.lastNak with
    | none => true
    | some x => decide (x + 20000 ≤ s.time)
  if absent then s.sendFrame k t frameNak true false 0 0 []
  else if due then
    (s.setStation k t { st with lastNak := some s.time }).sendFrame k t frameNak false false 0 0 []
  else s

/-- A DATA frame for an installed site (R94). -/
def State.recvData (s : State) (k : LinkId) (n : SiteId) (f : FrameFields) (head : List Byte) : State :=
  let st := s.station k f.station
  let e := st.inSeq
  if f.seq = e then
    match (s.site n).freeInbox with
    | none => s
    | some i =>
      (s.setStation k f.station { st with inSeq := e + 1, any := true, ackOwed := true }).inboxWrite n i f head
  else if (e - f.seq).toNat ≤ 32 then s.sendFrame k f.station frameAck false false 0 0 []
  else s.nak k f.station false

/-- A NAK for a site (R96): which frames are sent again, given the frames that were unacknowledged before its ACK field
was applied. -/
def State.recvNak (s : State) (n : SiteId) (before : List OutFrame) (f : FrameFields) : State :=
  match before with
  | [] => s
  | o :: _ =>
    if f.ackv = false then s.goBackDue n
    else if f.ack = o.seq - 1 then s.goBackDue n
    else if before.any (fun x => x.seq == f.ack) && s.maySend n then s.resend n (s.site n).unacked
    else s

/-- The report of a HELLO (R101): the acknowledgement, the count of reports out of window, and the frames sent again. A
HELLO with neither NONE nor ACKV reports nothing that is in the window (notes/assumptions/76.md). -/
def State.helloReport (s : State) (k : LinkId) (n : SiteId) (f : FrameFields) : State :=
  let v := s.site n
  let known := f.ackv && !f.none && v.ackApplies f.ack
  let inWindow := match v.unacked with
    | [] => false
    | o :: _ => f.ackv && decide (f.ack = o.seq - 1)
  let s1 :=
    if f.none then s
    else if known then s.applyAck n f.ack
    else if inWindow then s
    else s.bumpSat (.link k .offWindow) 1
  if (s1.site n).txn = .undelivered then s1 else s1.resend n (s1.site n).unacked

/-- A HELLO (R98, R100, R101). -/
def State.recvHello (s : State) (k : LinkId) (f : FrameFields) : State :=
  let s1 := s.stationLost k f.station
  match s1.installedSite k f.station with
  | none => s1.sendFrame k f.station frameHelloAck true false 0 0 []
  | some n =>
    let s2 := s1.setStation k f.station { s1.station k f.station with present := true }
    let s3 := (s2.sendFrame k f.station frameHelloAck false false 0 0 []).setAttn n 3
    ((s3.txnBack n).helloReport k n f).startSettle n

/-- A DATA frame for the boot ROM on station 0 of CL0 (R440): UTYPE 0xB1 is the next part of the image, 0xB2 with LEN 0 its
end, and any other ends the source. -/
def Boot.take (b : Boot) (f : FrameFields) : Boot :=
  if !b.cl0Data || b.streamEnd || b.streamBad then b
  else if f.utype = 0xB1 then { b with began := true, stream := b.stream ++ f.payload }
  else if f.utype = 0xB2 ∧ f.len = 0 then { b with began := true, streamEnd := true }
  else { b with began := true, streamBad := true }

/-- A HELLO on station 0 of CL0 while the boot ROM serves it (R440): the presence rules as for an installed site (R98), and no
frame is unacknowledged, so a report other than NONE is ignored and counted (R101, R102). -/
def State.bootHello (s : State) (f : FrameFields) : State :=
  let s1 := s.stationLost 0 0
  let s2 := (s1.setStation 0 0 { s1.station 0 0 with present := true }).sendFrame 0 0 frameHelloAck false false 0 0 []
  let s3 := match s2.fedSite 0 0 with
    | none => s2
    | some n => s2.setAttn n 3
  if f.none then s3 else s3.bumpSat (.link 0 .offWindow) 1

/-- A frame for the boot ROM on station 0 of CL0, under the sequence and presence rules (R440). While a load waits for training
the next DATA frame finds no room and is not taken, as where an inbox is full (R94, R442, notes/assumptions/75.md). -/
def State.recvBoot (s : State) (f : FrameFields) : State :=
  if f.type = frameHello then s.bootHello f
  else if f.type = frameData then
    let st := s.station 0 0
    if f.seq = st.inSeq then
      if s.boot.waitTrain then s
      else { s.setStation 0 0 { st with inSeq := st.inSeq + 1, any := true, ackOwed := true } with boot := s.boot.take f }
    else if (st.inSeq - f.seq).toNat ≤ 32 then s.sendFrame 0 0 frameAck false false 0 0 []
    else s.nak 0 0 false
  else s

/-- A frame that has passed the checks 1 to 4 of Table 4.4 is directed to the site that its link and station feed (R92, R93). -/
def State.directFrame (s : State) (k : LinkId) (r : RxFrame) : State :=
  let f := frameFields r.bytes
  if f.type = frameHello then s.recvHello k f
  else match s.installedSite k f.station with
    | none => if f.type = frameData then s.nak k f.station true else s
    | some n =>
      let before := (s.site n).unacked
      let s1 := if f.ackv then s.applyAck n f.ack else s
      if f.type = frameData then s1.recvData k n f (r.bytes.take 12)
      else if f.type = frameNak then s1.recvNak n before f
      else s1

/-- A frame received on a link, through the checks of Table 4.4 in order (R92, R93). While an atomic tide stops the
contexts, the choice of its site is deferred (R505 step 2), and during a chip reset nothing is received. -/
def State.receive (s : State) (k : LinkId) (r : RxFrame) : State :=
  if s.inReset ∨ (s.link k).state ≠ .up then s
  else if r.coding then s.bumpSat (.link k .badFrame) 1
  else if !crcGood r.bytes then s.bumpSat (.link k .crcErr) 1
  else if !lengthGood r.bytes || !formatGood r.bytes then s.bumpSat (.link k .badFrame) 1
  else if s.boot.cl0 ∧ k = 0 ∧ (frameFields r.bytes).station = 0 then s.recvBoot (frameFields r.bytes)
  else if s.tide.stopping then { s with tide := { s.tide with deferred := s.tide.deferred ++ [(k, r)] } }
  else s.directFrame k r

/-- The frames deferred during the stop of an atomic tide are directed under the mapping now in force (R505 step 4); those of a
link that has left UP meanwhile are lost with it (R87, notes/assumptions/73.md). -/
def State.directAll (s : State) : List (LinkId × RxFrame) → State
  | [] => s
  | p :: t => (if (s.link p.1).state = .up then s.directFrame p.1 p.2 else s).directAll t

/-! ## Link states (R86-R88, R516, R517) -/

/-- The link world's change of state: HINT_STATUS.LINK and line 4 where a LINK_UP bit changes, and every station lost
where the link leaves UP (R86, R87). -/
def State.setLinkState (s : State) (k : LinkId) (v : LinkState) : State :=
  let old := (s.link k).state
  let s1 := if old = .up ∧ v ≠ .up then s.linkLost k else s
  let s2 := s1.setLink k { s1.link k with state := v }
  if (old = .up) ↔ (v = .up) then s2 else (s2.setHint 4).setLine 4

/-- LB_CTRL of a link: EN, FENCE and LOOPBACK. -/
def State.linkEn (s : State) (k : LinkId) : Bool := bitAt (s.reg (.link k .ctrl)) 0

/-- LB_CTRL.FENCE. -/
def State.linkFence (s : State) (k : LinkId) : Bool := bitAt (s.reg (.link k .ctrl)) 1

/-- LB_CTRL.LOOPBACK. -/
def State.linkLoop (s : State) (k : LinkId) : Bool := bitAt (s.reg (.link k .ctrl)) 2

/-- The state a link has from its controls and its signal alone (Table 4.1): what DOWN, TRAINING and FENCED are entered by.
With EN 0 and FENCE 1, which Table 4.1 gives both DOWN and FENCED, it is DOWN (notes/assumptions/76.md). -/
def State.linkBase (s : State) (k : LinkId) : LinkState :=
  if !s.linkEn k then .down
  else if s.linkFence k then .fenced
  else if (s.link k).signal then .training else .down

/-- A write of LB_CTRL takes hold (Table 4.1, R88, R516, R517), given the value before it. -/
def State.linkCtrlWritten (s : State) (k : LinkId) (old : Word32) : State :=
  let st := (s.link k).state
  if !s.linkEn k then s.setLinkState k .down
  else if s.linkFence k then
    if st = .loopback ∧ s.linkLoop k then s else s.setLinkState k .fenced
  else if bitAt old 1 ∨ st = .down ∨ !bitAt old 0 then s.setLinkState k (s.linkBase k)
  else s

end Sys2Proof.Machine
end

