-- ==== Sys2Proof/Machine/Worlds.lean ====
section
/-! DEFINITION. The worlds of registers, the enclaves and the world check (spec/16, R372 to R391). -/

namespace Sys2Proof.Machine

/-- Which of a context's interrupt registers are closed to the non-secure world as a whole (R362); the bits of the others
follow their sources (notes/assumptions/23.md). -/
def XReg.secureFor (r : XReg) : Bool :=
  match r with
  | .nmi => true
  | .doorbell | .irqPend | .irqEn | .startLo | .startHi => false

/-- Whether a non-secure access to a register raises world violation with SECURE_REG (R62, R267, R318, R362, R374, R376,
R377, R384, R393, R398, R431, R450, R451, R469, R491, R513, R531, R538, R559). -/
def State.regSecure (s : State) (r : Reg) (write : Bool) : Bool :=
  match r with
  | .g .nmiCtrl => false
  | .g _ => false
  | .d r =>
    match r with
    | .secRootLo | .secRootHi | .keyBaseLo | .keyBaseHi | .l3SecWays | .secWeirLo | .secWeirHi | .sramWeir
    | .enclCtrl | .enclCommit | .enclStatus | .wdtCtrl | .wdtKick | .ueCmd | .ueStatus | .ueSrcLo | .ueSrcHi
    | .ueOfs | .ueLen | .ueMeas _ | .ueInfo | .ueVaultLo | .ueVaultHi | .fuseCtrl | .fuseStatus | .sfIoCtrl => true
    | .assignLinkLo | .assignLinkHi | .assignTimerLo | .assignTimerHi | .assignDbellLo | .assignDbellHi
    | .assignLine | .assignRing | .assignLock | .dbgEn | .ucCtrl | .coreReturn | .calVmonUser => write
    | _ => false
  | .core _ r =>
    match r with
    | .coreVecLo | .coreVecHi => true
    | .cx _ r => r.secureFor
    | _ => false
  | .boot r =>
    match r with
    | .softReset | .romLock => write
    | .cx r => r.secureFor
    | _ => false
  | .site n _ => decide (s.siteWorld n = .secure)
  | .door n _ => decide (s.siteWorld n = .secure)
  | .link k _ => decide (s.linkWorld k = .secure)
  | .curlew r =>
    match r with
    | .slotStatus _ => false
    | .crBaseLo k | .crBaseHi k | .crProd k | .crCons k => decide (s.ringWorld k = .secure)
    | _ => true
  | .timer r =>
    match r with
    | .timeLo | .timeHi => false
    | .cmpLo x | .cmpHi x | .ctrl x => decide (s.timerWorld x = .secure)

/-- The committed enclave that holds a physical address (R386). -/
def State.enclAt (s : State) (a : Nat) : Option Enclave :=
  s.encl.find? (fun e => decide (e.base * 4096 ≤ a) && decide (a < (e.limit + 1) * 4096))

/-- A committed enclave by number. -/
def State.enclave (s : State) (k : Nat) : Option Enclave := s.encl.find? (fun e => decide (e.num = k))

/-- The address of an enclave's exit record in its descriptor (Table 16.6). -/
def State.exitAddr (s : State) (k : Nat) : Nat := s.enclTable + 32 * k + 0x18

/-- The exit record of an enclave: valid, and the address (R387). -/
def State.exitRecord (s : State) (k : Nat) : Bool × Nat :=
  let v := leNat (s.memRead (s.exitAddr k) 8)
  (decide (v / 2 ^ 63 % 2 = 1), v % 2 ^ 48)

/-- Write an enclave's exit record with a valid address (R387). -/
def State.setExit (s : State) (k : Nat) (xpc : Nat) : State :=
  s.memWrite (s.exitAddr k) (leBytes 8 (2 ^ 63 + xpc % 2 ^ 48))

/-- Write an enclave's exit record to zero (R387). -/
def State.clearExit (s : State) (k : Nat) : State := s.memWrite (s.exitAddr k) (List.replicate 8 0)

/-- A context that is in an enclave leaves it through an exception, SYSC, MONCALL or a save: the exit record is written (R387).
The context is in the enclave until an instruction that was fetched elsewhere retires (R386). -/
def State.leaveEncl (s : State) (x : CtxId) (xpc : Nat) : State :=
  match (s.ctx x).inEncl with
  | none => s
  | some e => s.setExit e xpc

/-- The kinds of access of R275 and R386. -/
inductive Kind where
  | read | write | rw | fetch
  deriving DecidableEq, Repr

/-- Whether a kind of access writes. -/
def Kind.writes (k : Kind) : Bool := decide (k = .write ∨ k = .rw)

/-- Whether a kind of access is a fetch. -/
def Kind.fetches (k : Kind) : Bool := decide (k = .fetch)

/-- An exception as an instruction raises it: the vector, XADDR, XINFO[59:0], the address that ASYNC_ERR_ADDR takes, the
bytes that XINST captures (R261), whether it is of the asynchronous kind, and whether it is taken in the secure world whatever
the context's (R485). -/
structure Exc where
  vec : Nat
  xaddr : Nat := 0
  xinfo : Nat := 0
  errAddr : Option Nat := none
  xinst : Option (BitVec 128) := none
  async : Bool := false
  monitor : Bool := false
  /-- the failing address where XADDR does not hold it, for an entry failure (R350) -/
  place : Option Nat := none
  deriving DecidableEq, Repr

/-- The FRAME field of XINFO. -/
def xiFrame (a : Nat) : Nat := a / 4096 % 2 ^ 28 * 2 ^ 32

/-- A world violation (Table 16.4). -/
def worldExc (cause : Nat) (k : Kind) (va pa : Nat) : Exc :=
  { vec := 21, xaddr := va, xinfo := cause + 256 * bit k.writes + 512 * bit k.fetches + xiFrame pa }

/-- An enclave violation (Table 16.7). -/
def enclExc (cause : Nat) (k : Kind) (e va pa : Nat) : Exc :=
  { vec := 20, xaddr := va, xinfo := cause + 256 * bit k.writes + 512 * bit k.fetches + 65536 * e + xiFrame pa }

/-- Whether a non-secure address is refused by a weir, and with which cause (R386): 1 WEIR_DRAM, 2 WEIR_SRAM. -/
def State.weirCause (s : State) (a : Nat) : Option Nat :=
  if a < 0x8000000000 ∧ a < s.secWeir then some 1
  else if 0xF000000000 ≤ a ∧ a < 0xF000800000 ∧ a < s.sramWeir then some 2 else none

/-- The world of a place of the device region that holds no register: that of the link or site block it lies in (R62, R377),
or of the context's timer; the other blocks belong to no source. -/
def State.blockWorld (s : State) (a : Nat) : World :=
  if 0xF101000000 ≤ a ∧ a < 0xF101400000 then s.linkWorld (BitVec.ofNat 6 ((a - 0xF101000000) / 0x10000))
  else if 0xF103000000 ≤ a ∧ a < 0xF103400000 then s.siteWorld (BitVec.ofNat 10 ((a - 0xF103000000) / 0x1000))
  else if 0xF105000000 ≤ a ∧ a < 0xF105100000 then s.siteWorld (BitVec.ofNat 10 ((a - 0xF105000000) / 0x400))
  else if 0xF104000100 ≤ a ∧ a < 0xF104000510 then s.timerWorld (Fin.ofNat 65 ((a - 0xF104000100) / 0x10))
  else .nonSecure

/-- Whether an address of the device region lies in the range of a secure register or source (R62, R377, R386), whichever
byte of it. -/
def State.deviceSecure (s : State) (a : Nat) (write : Bool) : Bool :=
  match devPlace (a / 4 * 4) with
  | .reg r => s.regSecure r write
  | .hole => false
  | .empty => decide (s.blockWorld a = .secure)

/-- Whether the first fetch after a transfer may enter enclave e at `va` (R387). -/
def State.arrivalOk (s : State) (c : Ctx) (e va : Nat) : Bool :=
  match c.arrival with
  | .none => false
  | .gate k => decide (k = e)
  | .back => (s.exitRecord e).1 && decide ((s.exitRecord e).2 = va)

/-- Whether one of the words that an access of the device region touches is secure. -/
def State.deviceSecureIn (s : State) (a len : Nat) (write : Bool) : Bool :=
  s.deviceSecure a write || (List.range len).any (fun i => decide ((a + i) % 4 = 0) && s.deviceSecure (a + i) write)

/-- The world check of R386 for an access of a context to `len` bytes of a page: `own` is the enclave the instruction was
fetched from. None where it passes. -/
def State.worldCheck (s : State) (c : Ctx) (own : Option Nat) (k : Kind) (va pa len : Nat) : Option Exc :=
  if c.world = .secure then none
  else match s.weirCause pa with
    | some cause => some (worldExc cause k va pa)
    | none =>
      if 0xF100000000 ≤ pa ∧ pa < 0xF200000000 ∧ s.deviceSecureIn pa len k.writes then some (worldExc 3 k va pa)
      else match s.enclAt pa with
        | none => none
        | some e =>
          let mine := bitAt c.csw 4 && decide (bitsOf c.csw 41 32 = e.owner.toNat)
          if mine && k.fetches then
            if decide (c.inEncl = some e.num) || s.arrivalOk c e.num va then none
            else some (enclExc (if (s.exitRecord e.num).1 then 3 else 2) k e.num va pa)
          else if mine && decide (own = some e.num) then none
          else some (enclExc 1 k e.num va pa)

/-- Whether a non-secure agent that is no context may reach an address: the weirs and the enclaves (R373, R390). -/
def State.agentAllowed (s : State) (a : Nat) : Bool := (s.weirCause a).isNone && (s.enclAt a).isNone

/-- Whether Curlew acting for tenant n may reach an address (R283, R386, R422). -/
def State.curlewAllowed (s : State) (n : SiteId) (a : Nat) : Bool :=
  !s.inKeyArray a && (s.weirCause a).isNone && (match s.enclAt a with
    | none => true
    | some e => decide (e.owner = n))

end Sys2Proof.Machine
end

