-- ==== Sys2Proof/Machine/Translate.lean ====
section
/-! DEFINITION. Translation, the page and key checks, and the accesses of a context (spec/11, spec/12; R32, R265 to R290). -/

namespace Sys2Proof.Machine

/-- The user-access means of R276. -/
inductive UserMeans where
  | none | uao | asUser | mvstU
  deriving DecidableEq, Repr

/-- How an instruction makes its accesses: the user-access means, KEYO, the enclave it was fetched from (R386), and how many
bytes of one page an access takes (R284). -/
structure AccCtl where
  um : UserMeans := .none
  keyo : Bool := false
  own : Option Nat := none
  /-- the bytes of one access in one page -/
  len : Nat := 1
  deriving DecidableEq, Repr

/-- A result with the state after it, or an exception with the state after it. -/
inductive XR (α : Type) where
  | ok (a : α) (s : State)
  | exc (e : Exc) (s : State)

/-- Chain two steps; an exception ends the chain. -/
def XR.bind {α β : Type} (r : XR α) (f : α → State → XR β) : XR β :=
  match r with
  | .ok a s => f a s
  | .exc e s => .exc e s

/-- The space of an access (R266): a tenant number, 1,024 for the non-secure own space, 1,025 for the secure space. -/
def Ctx.space (c : Ctx) : Nat :=
  if bitAt c.csw 1 then 1025 else if bitAt c.csw 4 then bitsOf c.csw 41 32 else 1024

/-- Whether a translation matches a lookup of a context (R273). -/
def TlbEntry.hits (e : TlbEntry) (c : Ctx) (va : Nat) : Bool :=
  decide (e.world = c.world) && decide (va / 2 ^ (12 + 9 * (4 - e.level)) * 2 ^ (12 + 9 * (4 - e.level)) = e.page)
    && (e.g || (bitAt c.csw 4 && decide (bitsOf c.csw 41 32 = e.tag.toNat)))

/-- Whether a walk may read an address (R272). -/
def State.walkable (s : State) (a : Nat) (w : World) : Bool :=
  (decide (s.region a = .dram) || decide (s.region a = .sram)) && !s.inKeyArray a
    && (decide (w = .secure) || ((s.weirCause a).isNone && (s.enclAt a).isNone))

/-- A walk fault (Table 12.7): subtype, level and entry address; the other bits are added by the access. -/
structure WalkFault where
  subtype : Nat
  level : Nat
  entry : Nat
  deriving DecidableEq, Repr

/-- What a walk gives: a leaf at a level with the pointers read, or a fault. -/
inductive WalkRes where
  | leaf (e : Word) (level : Nat) (ptrs : List (Nat × Nat))
  | fault (f : WalkFault)
  deriving DecidableEq, Repr

/-- Read a table entry (R271): refused where not walkable, lost where memory is. -/
def State.readEntry (s : State) (a level : Nat) (w : World) : Except WalkFault Word :=
  if !s.walkable a w then .error { subtype := 3, level := level, entry := a }
  else if s.anyPoison a 8 then .error { subtype := 4, level := level, entry := a }
  else .ok (BitVec.ofNat 64 (leNat (s.memRead a 8)))

/-- A valid entry that is malformed (R270). -/
def malformed (e : Word) (level : Nat) (own : Bool) : Bool :=
  let table := bitAt e 1
  decide (bitsOf e 63 40 ≠ 0) || decide (bitsOf e 8 7 ≠ 0)
    || (table && (decide (bitsOf e 6 2 ≠ 0) || decide (level = 4)))
    || (!table && (decide (level = 1) || (decide (level = 2) && decide (bitsOf e 29 12 ≠ 0))
        || (decide (level = 3) && decide (bitsOf e 20 12 ≠ 0)) || (own && !bitAt e 5)))

/-- The table index of an address at a level (Table 11.2). -/
def vaIndex (va level : Nat) : Nat := va / 2 ^ (12 + 9 * (4 - level)) % 512

/-- The walk of R271 from a table at the first of the listed levels. -/
def State.walkLevels (s : State) (w : World) (own : Bool) (va table : Nat) (ptrs : List (Nat × Nat)) :
    List Nat → WalkRes
  | [] => .fault { subtype := 2, level := 4, entry := table }
  | level :: more =>
    let a := table + 8 * vaIndex va level
    match s.readEntry a level w with
    | .error f => .fault f
    | .ok e =>
      if !bitAt e 0 then .fault { subtype := 1, level := level, entry := a }
      else if malformed e level own then .fault { subtype := 2, level := level, entry := a }
      else if bitAt e 1 then
        s.walkLevels w own va (bitsOf e 39 12 * 4096) (ptrs ++ [(level, bitsOf e 39 12 * 4096)]) more
      else .leaf e level ptrs

/-- The root of a context's space (R266 to R268, R271): the level-1 table, or a fault. -/
def State.walkRoot (s : State) (c : Ctx) : Except WalkFault Nat :=
  if c.world = .secure then
    let v := s.reg (.d .secRootLo)
    if !bitAt v 0 then .error { subtype := 1, level := 0, entry := 0xF100000418 }
    else .ok (s.pairBase (.d .secRootLo) (.d .secRootHi) 12)
  else
    let v := s.reg (.d .spaceBaseLo)
    if !bitAt v 0 then .error { subtype := 1, level := 0, entry := 0xF100000410 }
    else
      let a := s.pairBase (.d .spaceBaseLo) (.d .spaceBaseHi) 12 + 8 * c.space
      match s.readEntry a 0 c.world with
      | .error f => .error f
      | .ok e =>
        if !bitAt e 0 then .error { subtype := 1, level := 0, entry := a }
        else if bitsOf e 11 1 ≠ 0 ∨ bitsOf e 63 40 ≠ 0 then .error { subtype := 2, level := 0, entry := a }
        else .ok (bitsOf e 39 12 * 4096)

/-- Whether a walk-cache entry matches (R288, R289). -/
def WalkEntry.hits (e : WalkEntry) (c : Ctx) (va : Nat) : Bool :=
  decide (e.world = c.world) && decide (e.space = c.space)
    && decide (va / 2 ^ (12 + 9 * (4 - e.level)) = e.pre)

/-- Choose among `n` equal outcomes with a fresh free value; a single outcome takes none (notes/assumptions/7.md). -/
def State.choose (s : State) (n : Nat) : Nat × State :=
  if n ≤ 1 then (0, s) else (s.fresh.1.toNat % n, s.fresh.2)

/-- The walk-cache entries of a core that match an access. -/
def State.walkHeld (s : State) (core : Nat) (c : Ctx) (va : Nat) : List WalkEntry :=
  (s.core core).wcache.filter (fun e => e.hits c va)

/-- The walk of an access (R271, R289, R290), from below the deepest walk-cache entry that matches and has not been displaced
(R291), or from the root. Deeper ones have been displaced. -/
def State.walk (s : State) (core : Nat) (c : Ctx) (va : Nat) : WalkRes × State :=
  let own := decide (c.space ≥ 1024)
  let held := s.walkHeld core c va
  let p := s.choose (held.length + 1)
  let level := match held[p.1]? with
    | some e => e.level
    | none => 0
  let s1 := if held.isEmpty then p.2 else p.2.setCore core { p.2.core core with
    wcache := (p.2.core core).wcache.filter (fun e => !e.hits c va || decide (e.level ≤ level)) }
  match held[p.1]? with
  | some e => (s.walkLevels c.world own va e.next [] (([2, 3, 4] : List Nat).filter (fun l => l > e.level)), s1)
  | none =>
    (match s.walkRoot c with
     | .error f => .fault f
     | .ok t => s.walkLevels c.world own va t [] [1, 2, 3, 4], s1)

/-- The translation that a leaf makes (R273, R288). -/
def leafEntry (c : Ctx) (va : Nat) (e : Word) (level : Nat) : TlbEntry :=
  { page := va / 2 ^ (12 + 9 * (4 - level)) * 2 ^ (12 + 9 * (4 - level)), level := level
    w := bitAt e 2, x := bitAt e 3, u := bitAt e 4, g := bitAt e 5, nc := bitAt e 6, out := bitsOf e 39 12 * 4096
    world := c.world, tag := if bitAt e 5 then 0 else BitVec.ofNat 10 (bitsOf c.csw 41 32) }

/-- Add an entry to a list where it is not there. -/
def addNew {α : Type} [DecidableEq α] (l : List α) (a : α) : List α := if l.contains a then l else l ++ [a]

/-! ## The TLBs (R287 to R291) -/

/-- The replaceable translation arrays (Table 12.1). -/
inductive TlbArray where
  | instr | data | unified
  deriving DecidableEq, Repr

/-- The L1 TLB that serves an access. -/
def l1Of (fetches : Bool) : TlbArray := if fetches then .instr else .data

/-- The entries of an array (Table 12.1). -/
def TlbArray.size (a : TlbArray) : Nat :=
  match a with
  | .instr | .data => 64
  | .unified => 2048

/-- What an array holds. -/
def Tlbs.get (t : Tlbs) (a : TlbArray) : List TlbEntry :=
  match a with
  | .instr => t.instr
  | .data => t.data
  | .unified => t.unified

/-- Change what an array holds. -/
def Tlbs.put (t : Tlbs) (a : TlbArray) (l : List TlbEntry) : Tlbs :=
  match a with
  | .instr => { t with instr := l }
  | .data => { t with data := l }
  | .unified => { t with unified := l }

/-- Keep the entries of every array that pass a test. -/
def Tlbs.keep (t : Tlbs) (f : TlbEntry → Bool) : Tlbs :=
  { instr := t.instr.filter f, data := t.data.filter f, unified := t.unified.filter f }

/-- Change an array of a core. -/
def State.setTlb (s : State) (core : Nat) (a : TlbArray) (l : List TlbEntry) : State :=
  s.setCore core { s.core core with tlbs := (s.core core).tlbs.put a l }

/-- Install an entry in an array of a core; a full one displaces an entry, and which one is free (R291). -/
def State.tlbPut (s : State) (core : Nat) (a : TlbArray) (t : TlbEntry) : State :=
  let l := (s.core core).tlbs.get a
  if l.contains t then s
  else if l.length < a.size then s.setTlb core a (l ++ [t])
  else s.fresh.2.setTlb core a (l.eraseIdx (s.fresh.1.toNat % l.length) ++ [t])

/-- Install an entry in a core's walk cache; a full cache of its level displaces an entry, and which one is free (Table
12.1, R291, notes/assumptions/7.md). -/
def State.walkPut (s : State) (core : Nat) (e : WalkEntry) : State :=
  let k := s.core core
  let full := k.wcache.filter (fun g => decide (g.level = e.level))
  if k.wcache.contains e then s
  else if full.length < 32 then s.setCore core { k with wcache := k.wcache ++ [e] }
  else s.fresh.2.setCore core { k with
    wcache := (match full[s.fresh.1.toNat % full.length]? with
      | some g => k.wcache.erase g
      | none => k.wcache) ++ [e] }

/-- Install a leaf in the unified TLB and in an L1 TLB, and the pointers its walk read in the walk caches (R290). -/
def State.fill (s : State) (core : Nat) (c : Ctx) (l1 : TlbArray) (va : Nat) (t : TlbEntry) (ptrs : List (Nat × Nat)) : State :=
  ptrs.foldl (fun s p => s.walkPut core { level := p.1, pre := va / 2 ^ (12 + 9 * (4 - p.1)), next := p.2
                                          world := c.world, space := c.space })
    ((s.tlbPut core .unified t).tlbPut core l1 t)

/-- Empty a core's TLBs and walk caches, and its locked array where that held the multiple match (R305). -/
def State.multiHit (s : State) (core : Nat) (lockedToo : Bool) : State :=
  let k := s.core core
  (s.setCore core { k with tlbs := {}, wcache := [], locked := if lockedToo then [] else k.locked }).mchk 3
    (if core = 16 then 0 else core) (decide (core = 16))

/-- The locked entries of a core that match, but for an excluded slot (R289, R293). -/
def State.lockedHits (s : State) (core : Nat) (c : Ctx) (va : Nat) (not : Option Nat) : List TlbEntry :=
  ((s.core core).locked.filter (fun e => decide (some e.1 ≠ not))).filterMap (fun e => match e.2 with
    | none => none
    | some t => if t.hits c va then some t else none)

/-- What a lookup gives. -/
inductive Lookup where
  | hit (t : TlbEntry)
  | fault (f : WalkFault)
  | multi
  deriving DecidableEq, Repr

/-- What one array gives: its match, none, or more than one. -/
inductive Probe where
  | hit (t : TlbEntry)
  | miss
  | multi
  deriving DecidableEq, Repr

/-- Look an address up in one array. Which of its matches has been displaced is a free choice (R291, R304,
notes/assumptions/7.md): none is left, one is, or more than one is. -/
def State.probe (s : State) (core : Nat) (a : TlbArray) (c : Ctx) (va : Nat) : Probe × State :=
  let l := (s.core core).tlbs.get a
  let held := l.filter (fun e => e.hits c va)
  if held.isEmpty then (.miss, s)
  else
    let p := s.choose (held.length + 1 + bit (decide (held.length ≥ 2)))
    match held[p.1]? with
    | some t => (.hit t, p.2.setTlb core a (l.filter (fun e => !e.hits c va || decide (e = t))))
    | none =>
      if held.length < p.1 then (.multi, p.2) else (.miss, p.2.setTlb core a (l.filter (fun e => !e.hits c va)))

/-- The walk of a lookup that every array misses, with what it installs (R290) or records (Table 12.6). -/
def State.walkFor (s : State) (core : Nat) (c : Ctx) (l1 : TlbArray) (va : Nat) : Lookup × State :=
  let r := s.walk core c va
  match r.1 with
  | .fault f => (.fault f, if f.subtype = 4 then r.2.meetEntry f.entry (core % 16) (bit (decide (core = 16))) else r.2)
  | .leaf e level ptrs => (.hit (leafEntry c va e level), r.2.fill core c l1 va (leafEntry c va e level) ptrs)

/-- The lookup of R289 for an address of 48 bits, with the fills it makes: the locked array, the L1 TLB of the access, the
unified TLB, whose hit the L1 TLB takes, and the walk. -/
def State.lookup (s : State) (core : Nat) (c : Ctx) (fetches : Bool) (va : Nat) (not : Option Nat) : Lookup × State :=
  match s.lockedHits core c va not with
  | [t] => (.hit t, s)
  | _ :: _ :: _ => (.multi, s.multiHit core true)
  | [] =>
    let p := s.probe core (l1Of fetches) c va
    match p.1 with
    | .hit t => (.hit t, p.2)
    | .multi => (.multi, p.2.multiHit core false)
    | .miss =>
      let q := p.2.probe core .unified c va
      match q.1 with
      | .hit t => (.hit t, q.2.tlbPut core (l1Of fetches) t)
      | .multi => (.multi, q.2.multiHit core false)
      | .miss => q.2.walkFor core c (l1Of fetches) va

/-- SUBTYPE, LEVEL and ENTRY of a walk fault, ENTRY being bits [39:3] of the address (Table 12.7). -/
def walkInfo (f : WalkFault) : Nat := f.subtype + f.level * 4096 + f.entry % 2 ^ 40 / 8 * 65536

/-- The XINFO bits that every translation fault shares (Tables 11.5 and 12.7). -/
def xiAccess (k : Kind) (asUser uao : Bool) : Nat :=
  256 * bit k.writes + 512 * bit k.fetches + 1024 * bit asUser + 2048 * bit uao

/-- A page fault of vector 6 or 7 (Table 11.5). -/
def pageExc (cause : Nat) (k : Kind) (asUser uao : Bool) (va level pa : Nat) : Exc :=
  { vec := if k.fetches then 6 else 7, xaddr := va
    xinfo := cause + xiAccess k asUser uao + level * 4096 + (if level = 0 then 0 else xiFrame pa) }

/-- Whether an access is made as user (R275, R276). -/
def userAccess (c : Ctx) (ctl : AccCtl) (leafU : Bool) : Bool :=
  decide (bitsOf c.csw 3 2 = 0) || decide (ctl.um = .asUser) || (decide (ctl.um = .mvstU) && leafU)

/-- The page and guard checks of R275, then the world check (R386) and the key check (R279), in the order of Table 11.4. -/
def State.leafChecks (s : State) (c : Ctx) (ctl : AccCtl) (k : Kind) (va : Nat) (t : TlbEntry) (pa : Nat) : Option Exc :=
  let user := userAccess c ctl t.u
  let au := decide (bitsOf c.csw 3 2 ≠ 0) && user
  let uao := decide (ctl.um = .uao)
  if user && !t.u then some (pageExc 2 k au uao va t.level pa)
  else if !user && t.u && k.fetches then
    some { vec := 10, xaddr := va, xinfo := 2 + xiAccess k au uao + t.level * 4096 + xiFrame pa }
  else if !user && t.u && bitAt c.csw 6 && !uao && !k.fetches then
    some { vec := 10, xaddr := va, xinfo := 1 + xiAccess k au uao + t.level * 4096 + xiFrame pa }
  else if k.writes && !t.w then some (pageExc 3 k au uao va t.level pa)
  else if k.fetches && !t.x then some (pageExc 4 k au uao va t.level pa)
  else match s.worldCheck c ctl.own k va pa ctl.len with
    | some e => some e
    | none =>
      if c.world = .secure || s.region pa != .dram then none
      else
        let key := if s.keyV then bitsOf (s.memByte (s.keyBase + pa / 4096)) 5 0 else 0
        let rd := if key = 63 then !user else bitAt c.kmaskRd key
        let wr := if key = 63 then !user else bitAt c.kmaskWr key
        if ctl.keyo then none
        else if k ≠ .write ∧ rd = false then
          some { vec := 9, xaddr := va, xinfo := 1 + xiAccess k au uao + t.level * 4096 + key * 65536 + xiFrame pa }
        else if k.writes ∧ wr = false then
          some { vec := 9, xaddr := va, xinfo := 2 + xiAccess k au uao + t.level * 4096 + key * 65536 + xiFrame pa }
        else none

/-- The words that the checks of an access read, with the exception they end in: the key byte (R279), and the exit record of
the enclave that a fetch would enter (R387). -/
def State.checkReads (s : State) (c : Ctx) (ctl : AccCtl) (k : Kind) (pa : Nat) (e : Option Exc) : List Nat :=
  let upTo := fun (l : List Nat) => match e with
    | none => true
    | some x => l.contains x.vec
  let key := upTo [9] && !ctl.keyo && s.keyV && decide (c.world = .nonSecure) && decide (s.region pa = .dram)
  let exits := match s.enclAt pa with
    | none => []
    | some d =>
      if upTo [9, 20] && k.fetches && decide (c.world = .nonSecure) && bitAt c.csw 4 && decide (bitsOf c.csw 41 32 = d.owner.toNat)
        && decide (c.inEncl ≠ some d.num) && decide (c.arrival ≠ .gate d.num) then [s.exitAddr d.num] else []
  (if key then [wordOf (s.keyBase + pa / 4096)] else []) ++ exits

/-- The checks of an access consume the poison of the words they read (R336). -/
def State.checked (s : State) (x : CtxId) (ctl : AccCtl) (k : Kind) (pa : Nat) (e : Option Exc) : State :=
  s.countPoison (coreOf x % 16) (bit (decide (x = bootCtx))) ((s.checkReads (s.ctx x) ctl k pa e).filter s.poisoned)

/-- The boot core's context accesses physical addresses directly while SEC_ROOT.V = 0 (R449). -/
def State.direct (s : State) (x : CtxId) : Bool := decide (x = bootCtx) && !bitAt (s.reg (.d .secRootLo)) 0

/-- Checks 1 to 6 of Table 11.4 for one byte address in 64 bits: its physical address. -/
def State.xlate (s : State) (x : CtxId) (ctl : AccCtl) (k : Kind) (ea : Nat) : XR Nat :=
  let c := s.ctx x
  let au := decide (bitsOf c.csw 3 2 ≠ 0) && decide (ctl.um = .asUser)
  if 2 ^ 48 ≤ ea then .exc (pageExc 1 k au (decide (ctl.um = .uao)) ea 0 0) s
  else if s.direct x then
    if 2 ^ 40 ≤ ea then .exc (pageExc 1 k au (decide (ctl.um = .uao)) ea 0 0) s
    else
      match s.leafChecks c ctl k ea { page := 0, level := 4, w := true, x := true, u := false, g := true, nc := false, out := 0,
                                      world := .secure, tag := 0 } ea with
      | some e => .exc e s
      | none => .ok ea s
  else
    let r := s.lookup (coreOf x) c k.fetches ea none
    match r.1 with
    | .multi => .exc { vec := 1, xaddr := 0, xinfo := 3, place := some ea } r.2
    | .fault f =>
      .exc { vec := 8, xaddr := ea
             xinfo := walkInfo f + xiAccess k au (decide (ctl.um = .uao)) } r.2
    | .hit t =>
      let pa := t.out + ea % 2 ^ (12 + 9 * (4 - t.level))
      match r.2.leafChecks c ctl k ea t pa with
      | some e => .exc e (r.2.checked x ctl k pa (some e))
      | none => .ok pa (r.2.checked x ctl k pa none)

/-- The pieces of a range of effective addresses that lie in one page each: start and length (R284). -/
def pagePieces (ea len : Nat) : List (Nat × Nat) :=
  if len = 0 then []
  else
    (List.range ((ea + len - 1) / 4096 + 1 - ea / 4096)).map (fun i =>
      let lo := if i = 0 then ea else (ea / 4096 + i) * 4096
      let hi := min (ea + len) ((ea / 4096 + i + 1) * 4096)
      (lo % 2 ^ 64, hi - lo))

/-- Translate and check the pieces of a range, the lower page wholly before the higher (R284). -/
def State.xlatePieces (s : State) (x : CtxId) (ctl : AccCtl) (k : Kind) : List (Nat × Nat) → XR (List (Nat × Nat))
  | [] => .ok [] s
  | p :: t => (s.xlate x { ctl with len := p.2 } k p.1).bind (fun pa s => (s.xlatePieces x ctl k t).bind (fun l s => .ok ((pa, p.2) :: l) s))

/-- Whether an address of the flash window lies in the block that the update engine is erasing or programming (R462). -/
def State.flashBusy (s : State) (a : Nat) : Bool := decide (s.ue.block = some ((a - 0xF200000000) / 65536))

/-- Whether an address is refused as a hole for a context's access (R32, R283, R462). A device access must be one aligned
word; a store of the boot core to the boot ROM is refused too (notes/assumptions/85.md). -/
def State.refused (s : State) (x : CtxId) (k : Kind) (pa len : Nat) : Bool :=
  s.inKeyArray pa || (match s.region pa with
    | .hole => true
    | .dram => false
    | .sram => false
    | .device => k.fetches || decide (len ≠ 4) || decide (pa % 4 ≠ 0) || decide (k = .rw) || decide (devPlace pa = .hole)
    | .flash => k.writes || s.flashBusy pa
    | .rom => k.writes || decide (x ≠ bootCtx) || s.boot.locked)

/-- A precise bus error of a load or fetch (R32, R356): vector 3 with the physical address. -/
def busExc (cause pa : Nat) : Exc := { vec := 3, xaddr := pa, xinfo := cause + 256, errAddr := some pa }

/-- The byte that a context's own stores leave at an address: the newest store in its buffer, else memory (R312, R313). -/
def storeByte (l : List StoreEntry) (a : Nat) (below : Byte) : Byte :=
  match l with
  | [] => below
  | e :: t => storeByte t a (if e.addr ≤ a ∧ a < e.addr + e.bytes.length then e.bytes.getD (a - e.addr) 0 else below)

/-- The byte at a physical address of memory, flash or ROM as a context reads it; `flash` supplies the flash window. -/
def State.peekByte (s : State) (x : CtxId) (a : Nat) : Byte :=
  match s.region a with
  | .flash => smGet s.flash 0xFF (a - 0xF200000000)
  | .rom => Config.romByte (a - 0xFFFFF00000)
  | _ => storeByte (s.ctx x).storeBuf a (if s.poisoned a then 0 else s.memByte a)

/-- Whether a context's read of an address consumes poison: the word is poisoned and no waiting store of its own covers
the byte (R312, R336). -/
def State.readPoison (s : State) (x : CtxId) (a : Nat) : Bool :=
  s.poisoned a && !(s.ctx x).storeBuf.any (fun e => decide (e.addr ≤ a) && decide (a < e.addr + e.bytes.length))

/-- The machine check of a consumption of poison (R336, R339, Table 15.4): CAUSE 0x05, and the address of the word. -/
def poisonExc (va : Nat) : Exc := { vec := 1, xaddr := wordOf va, xinfo := 0x0500 }

/-- An instruction of a context reads a poisoned word: the machine check and its records. A word that it finds uncorrectable
itself gives the SOURCE and CAUSE of its array (Tables 14.5 and 15.4). -/
def State.poisonHit (s : State) (x : CtxId) (va pa : Nat) : Exc × State :=
  let e := match s.foundIn pa with
    | none => poisonExc va
    | some array => { poisonExc va with xinfo := ueSource array + 256 * (array.toNat + 1) }
  (e, s.usePoison 6 (coreOf x % 16) (bit (decide (x = bootCtx))) pa)

/-- The place of the first poisoned byte that a read of a piece meets. -/
def State.poisonAt (s : State) (x : CtxId) (pa len : Nat) : Option Nat :=
  (List.range len).find? (fun i => s.readPoison x (pa + i))

/-- Read translated pieces of memory, setting REF; a hole, the device region or poison raises its exception (R32, R280,
R339). -/
def State.readPieces (s : State) (x : CtxId) (k : Kind) (ea : Nat) : List (Nat × Nat) → XR (List Byte)
  | [] => .ok [] s
  | p :: t =>
    if s.refused x k p.1 p.2 ∨ s.region p.1 = .device then .exc (busExc (if k.fetches then 2 else 1) p.1) s
    else match s.poisonAt x p.1 p.2 with
      | some i => .exc (s.poisonHit x (ea + i) (p.1 + i)).1 (s.poisonHit x (ea + i) (p.1 + i)).2
      | none =>
        let bs := (List.range p.2).map (fun i => s.peekByte x (p.1 + i))
        ((s.touch p.1 p.2 false).readPieces x k (ea + p.2) t).bind (fun r s => .ok (bs ++ r) s)

/-- Checks 1 to 7 of Table 11.4 for the pieces of a read, the lower page wholly before the higher, with no effect of the read
itself: the physical pieces (R32, R284, R339). `word`: an integer load, the only kind that may reach the device region. -/
def State.checkRead (s : State) (x : CtxId) (ctl : AccCtl) (k : Kind) (word : Bool) :
    List (Nat × Nat) → XR (List (Nat × Nat))
  | [] => .ok [] s
  | p :: t => (s.xlate x { ctl with len := p.2 } k p.1).bind (fun pa s =>
      if s.refused x k pa p.2 ∨ (s.region pa = .device ∧ word = false) then .exc (busExc 1 pa) s
      else match s.poisonAt x pa p.2 with
        | some i => .exc (s.poisonHit x (p.1 + i) (pa + i)).1 (s.poisonHit x (p.1 + i) (pa + i)).2
        | none => (s.checkRead x ctl k word t).bind (fun l s => .ok ((pa, p.2) :: l) s))

/-- The bytes of checked pieces of memory, as a context reads them. -/
def State.peekPieces (s : State) (x : CtxId) (ps : List (Nat × Nat)) : List Byte :=
  ps.flatMap (fun p => (List.range p.2).map (fun i => s.peekByte x (p.1 + i)))

/-- The read of checked pieces is performed: REF is set (R280). -/
def State.touchPieces (s : State) (ps : List (Nat × Nat)) (write : Bool) : State :=
  ps.foldl (fun s p => s.touch p.1 p.2 write) s

/-- Check a write of `len` bytes at an effective address: the physical pieces (R284). Holes are found when the store is
performed (R32). -/
def State.checkWrite (s : State) (x : CtxId) (ctl : AccCtl) (ea len : Nat) : XR (List (Nat × Nat)) :=
  s.xlatePieces x ctl .write (pagePieces ea len)

/-- The aligned 8-byte units of a physical piece, in ascending order (R187, R205). -/
def unitsOf (a len : Nat) : List (Nat × Nat) :=
  if len = 0 then []
  else
    (List.range ((a + len - 1) / 8 + 1 - a / 8)).map (fun i =>
      let lo := if i = 0 then a else (a / 8 + i) * 8
      (lo, min (a + len) ((a / 8 + i + 1) * 8) - lo))

/-- Put stores of bytes to physical pieces into a context's store buffer (R313). -/
def State.retirePieces (s : State) (x : CtxId) (word : Bool) (ps : List (Nat × Nat)) (bs : List Byte) : State :=
  match ps with
  | [] => s
  | p :: t =>
    (s.upCtx x (fun c => { c with storeBuf := c.storeBuf ++
      [{ addr := p.1, bytes := bs.take p.2, world := c.world, word := word }] })).retirePieces x word t (bs.drop p.2)

/-- Retire a store of bytes to checked pieces, each aligned 8-byte unit of it one store (R187, R313). -/
def State.retireStore (s : State) (x : CtxId) (word : Bool) (ps : List (Nat × Nat)) (bs : List Byte) : State :=
  s.retirePieces x word (ps.flatMap (fun p => unitsOf p.1 p.2)) bs

end Sys2Proof.Machine
end

