-- ==== Sys2Proof/Machine/Except.lean ====
section
/-! DEFINITION. The general registers, the CSW, and entering a handler (spec/05, spec/15; R346 to R350). -/

namespace Sys2Proof.Machine

/-- Read a general register: G0 reads zero (Table 5.1). -/
def Ctx.getG (c : Ctx) (r : BitVec 5) : Word := if r = 0 then 0 else smGet c.g 0 r.toNat

/-- Write a general register: a write of G0 is discarded (Table 5.1). -/
def Ctx.setG (c : Ctx) (r : BitVec 5) (v : Word) : Ctx := if r = 0 then c else { c with g := smSet c.g 0 r.toNat v }

/-- Whether a sign nibble is a minus code (Table 7.1). -/
def minusSign (n : Nat) : Bool := decide (n = 0xB) || decide (n = 0xD)

/-- Digit nibble i of a D register, from the least significant digit (Table 5.1). -/
def digitAt (v : BitVec 128) (i : Nat) : Nat := (v.toNat >>> (4 + 4 * i)) % 16

/-- The residue of a packed decimal value modulo 97 over its nibbles as stored (R195). -/
def residueOf (v : BitVec 128) : Byte :=
  let n := (List.range 31).foldr (fun i a => a + digitAt v i * 10 ^ i) 0 % 97
  BitVec.ofNat 8 (if minusSign (v.toNat % 16) then (97 - n) % 97 else n)

/-- The residues that D registers carry (R196). -/
def residuesOf (d : SMap (BitVec 128)) : SMap Byte := d.foldl (fun m e => smSet m 0 e.1 (residueOf e.2)) []

/-- Read a decimal register. -/
def Ctx.getD (c : Ctx) (r : BitVec 3) : BitVec 128 := smGet c.d 0 r.toNat

/-- Write a decimal register with its residue (R196). -/
def Ctx.setD (c : Ctx) (r : BitVec 3) (v : BitVec 128) : Ctx :=
  { c with d := smSet c.d 0 r.toNat v, dres := smSet c.dres 0 r.toNat (residueOf v) }

/-- The bank of a world (Table 5.2). -/
def Ctx.bank (c : Ctx) (w : World) : Bank :=
  match w with
  | .secure => c.bankS
  | .nonSecure => c.bankNs

/-- Change the bank of a world. -/
def Ctx.setBank (c : Ctx) (w : World) (b : Bank) : Ctx :=
  match w with
  | .secure => { c with bankS := b }
  | .nonSecure => { c with bankNs := b }

/-- Whether the context runs at user privilege (Table 5.3). -/
def Ctx.isUser (c : Ctx) : Bool := decide (bitsOf c.csw 3 2 = 0)

/-- CSW.TEN: the context holds a tenant (Table 5.3). -/
def Ctx.ten (c : Ctx) : Bool := bitAt c.csw 4

/-- CSW.TAG (Table 5.3). -/
def Ctx.tag (c : Ctx) : SiteId := BitVec.ofNat 10 (bitsOf c.csw 41 32)

/-- CSW.FORM: W-form (Table 5.3). -/
def Ctx.wform (c : Ctx) : Bool := bitAt c.csw 0

/-- The write of a W-form load (R143). -/
def Ctx.writeLoad (c : Ctx) (l : PendLoad) : Ctx :=
  if l.reg < 32 then c.setG (BitVec.ofNat 5 l.reg) (l.val.setWidth 64) else c.setD (BitVec.ofNat 3 (l.reg - 32)) l.val

/-- Every W-form load that has issued completes its write (R145). -/
def Ctx.completeLoads (c : Ctx) : Ctx :=
  { c.loads.foldl Ctx.writeLoad c with loads := [] }

/-- A code pointer: the form in [63] and the address (R126). -/
def codePtr (wform : Bool) (a : Nat) : Word := BitVec.ofNat 64 (2 ^ 63 * bit wform + a % 2 ^ 48)

/-- The stack register G31. -/
abbrev spReg : BitVec 5 := 31

/-- The CSW that an entry installs (R348): `wform` is the form of the vector's code pointer. -/
def entryCsw (csw : Word) (w : World) (wform : Bool) : Word :=
  let n := setBit (setBit (setBits csw 3 2 1) 1 (decide (w = .secure))) 0 wform
  let n := if w = .secure then setBits (setBit n 4 false) 41 32 0 else n
  setBits (setBit (setBit (setBit (setBit n 5 false) 6 true) 7 false) 12 false) 15 13 0

/-- XINFO[63:60] of an entry (R349). -/
def entryFlags (c : Ctx) (w : World) (async : Bool) : Nat :=
  2 ^ 60 * bit (decide (c.world = w) && !c.isUser && !bitAt c.csw 5)
    + 2 ^ 61 * bit (decide (c.world ≠ w)) + 2 ^ 63 * bit async

/-- Read a vector entry in the space the installed CSW selects: a supervisor data read that goes through checks 1, 2 and 5
of Table 11.4, on a page with U = 0 (R350). -/
def State.readVector (s : State) (x : CtxId) (csw : Word) (ea : Nat) : XR Word :=
  let c := { s.ctx x with csw := csw }
  if 2 ^ 48 ≤ ea then .exc (pageExc 1 .read false false ea 0 0) s
  else
    let r : XR Nat :=
      if s.direct x then .ok ea s
      else
        let l := s.lookup (coreOf x) c false ea none
        match l.1 with
        | .multi => .exc { vec := 1, xaddr := ea, xinfo := 3 } l.2
        | .fault f => .exc { vec := 8, xaddr := ea, xinfo := f.subtype } l.2
        | .hit t => if t.u then .exc { vec := 7, xaddr := ea } l.2 else .ok (t.out + ea % 2 ^ (12 + 9 * (4 - t.level))) l.2
    r.bind (fun pa s =>
      match s.worldCheck c none .read ea pa 8 with
      | some e => .exc e s
      | none => (s.readPieces x .read ea [(pa, 8)]).bind (fun bs s => .ok (BitVec.ofNat 64 (leNat bs)) s))

/-- What an entry saves beside the vector: the saved PC, XADDR, XINFO[59:0], whether the event is asynchronous, and for a
fault of a delay bundle whether its branch is taken and its target (R147). -/
structure EntryInfo where
  xpc : VirtAddr
  xaddr : Nat
  xinfo : Nat
  async : Bool
  dly : Option (Bool × Word)
  xinst : Option (BitVec 128) := none
  deriving DecidableEq, Repr

/-- The writes of R348, made together, for a vector entry read as `e`. -/
def enterWrites (c : Ctx) (w : World) (i : EntryInfo) (e : Word) : Ctx :=
  let b := c.bank w
  let xcsw := match i.dly with
    | none => setBit (setBit c.csw 16 false) 17 false
    | some (taken, _) => setBit (setBit c.csw 16 true) 17 taken
  let b' := { b with
    xcsw := xcsw, xpc := i.xpc, xaddr := BitVec.ofNat 64 i.xaddr
    xinfo := BitVec.ofNat 64 (i.xinfo % 2 ^ 60 + entryFlags c w i.async)
    xsp := c.getG spReg
    xinst := i.xinst.getD b.xinst
    xdt := (match i.dly with
      | none => b.xdt
      | some (_, t) => t) }
  let c1 := (c.setG spReg b.xsp).setBank w b'
  { c1 with
    csw := entryCsw c.csw w (bitAt e 63), pc := e.setWidth 48, pcHi := BitVec.ofNat 15 (bitsOf e 62 48)
    shadow := true, delay := none, entering := some i.xpc, arrival := .none
    trapDue := none, stepDue := false, modes := c.modes + 1 }

/-- An entry into the secure world blocks NMI (R365). -/
def State.blockNmi (s : State) (x : CtxId) (w : World) : State :=
  if w = .secure then s.orReg (cxReg x .nmi) 2 else s

/-- An entry into the secure world; a failure to read its vector stops the context (R350). -/
def State.enterSecure (s : State) (x : CtxId) (v : Nat) (i : EntryInfo) : State :=
  let s0 := s.upCtx x Ctx.completeLoads
  let c := s0.ctx x
  match s0.readVector x (entryCsw c.csw .secure false) ((c.bankS.vbr.toNat / 8 * 8) + 8 * v) with
  | .exc _ s1 => s1.upCtx x (fun c => { c with stopped := true })
  | .ok e s1 => ((s1.leaveEncl x i.xpc.toNat).upCtx x (fun c => enterWrites c .secure i e)).blockNmi x .secure

/-- TAKING AN EXCEPTION (R348): enter vector v of world w. A failure to read a vector of world 0 enters vector 1 of the
secure world (R350), with XCSW.DLY, XCSW.DTK and XDT as the failed entry would have written them (R147). -/
def State.enter (s : State) (x : CtxId) (v : Nat) (w : World) (i : EntryInfo) : State :=
  match w with
  | .secure => s.enterSecure x v i
  | .nonSecure =>
    let s0 := s.upCtx x Ctx.completeLoads
    let c := s0.ctx x
    match s0.readVector x (entryCsw c.csw .nonSecure false) ((c.bankNs.vbr.toNat / 8 * 8) + 8 * v) with
    | .exc e s1 => s1.enterSecure x 1 { xpc := i.xpc, xaddr := e.xaddr, xinfo := 0x1000, async := false, dly := i.dly }
    | .ok e s1 => (s1.leaveEncl x i.xpc.toNat).upCtx x (fun c => enterWrites c .nonSecure i e)

/-- Record the physical address of a bus error in the core's ASYNC_ERR_ADDR (R32, R356). The boot core has none in its
block. -/
def State.setErrAddr (s : State) (x : CtxId) (a : Nat) : State :=
  if x = bootCtx then s
  else
    (s.setReg (.core (BitVec.ofNat 4 (coreOf x)) .asyncErrLo) (BitVec.ofNat 32 (a % 2 ^ 32))).setReg
      (.core (BitVec.ofNat 4 (coreOf x)) .asyncErrHi) (BitVec.ofNat 32 (a / 2 ^ 32 % 256))

/-- Record an address where there is one. -/
def State.setErrAddrOpt (s : State) (x : CtxId) (a : Option Nat) : State :=
  match a with
  | none => s
  | some a => s.setErrAddr x a

/-- A fault of the instruction or bundle at the PC (R347); in a delay bundle it saves the branch bundle's address (R147). -/
def State.raise (s : State) (x : CtxId) (e : Exc) : State :=
  let c := s.ctx x
  let s1 := s.setErrAddrOpt x e.errAddr
  let w := if e.monitor then .secure else c.world
  match c.delay with
  | none => s1.enter x e.vec w { xpc := c.pc, xaddr := e.xaddr, xinfo := e.xinfo, async := e.async, dly := none,
                                       xinst := e.xinst }
  | some d => s1.enter x e.vec w { xpc := d.addr, xaddr := e.xaddr, xinfo := e.xinfo, async := e.async,
                                         dly := some (d.taken, d.target), xinst := e.xinst }

/-- A fault while fetching the first instruction of a handler is an entry failure (R350): vector 1 of the secure world
from world 0, a stopped context from world 1. Any other fetch fault is raised. -/
def State.raiseFetch (s : State) (x : CtxId) (e : Exc) : State :=
  let c := s.ctx x
  match c.entering with
  | none => s.raise x e
  | some xpc =>
    if c.world = .secure then s.upCtx x (fun c => { c with stopped := true })
    else s.enterSecure x 1 { xpc := xpc, xaddr := e.place.getD e.xaddr, xinfo := 0x1000, async := false, dly := none }

end Sys2Proof.Machine
end

