-- ==== Sys2Proof/Machine/Tide.lean ====
section
/-! DEFINITION. Staging, tides, and the sites' part of them (spec/21, R496 to R510). -/

namespace Sys2Proof.Machine

/-- Whether a register holds a tide-class field (Table 21.1). -/
def Reg.isTide (r : Reg) : Bool :=
  match r with
  | .site _ .link | .site _ .cls | .site _ .affinity | .site _ .holdLimit | .link _ .eq | .d (.l3WayMap _)
  | .d .l3Ctrl => true
  | _ => false

/-- The tide-class bits of a register: L3_CTRL.PF_EN is of the live class (Table 13.4). -/
def Reg.tideMask (r : Reg) : Word32 :=
  match r with
  | .d .l3Ctrl => 0xF
  | r => if r.isTide then r.spec.rw else 0

/-- The site a tide-class register belongs to. -/
def Reg.tideSite (r : Reg) : Option SiteId :=
  match r with
  | .site n _ => some n
  | _ => none

/-- The register at an address of the device region. -/
def regAt (a : Nat) : Option Reg :=
  match devPlace a with
  | .reg r => some r
  | .hole => none
  | .empty => none

/-- Put a write into the staged set, merging its enabled lanes into the register's entry (R498, R499). A 65th entry sets
STAGE_OVER. -/
def State.stage (s : State) (r : Reg) (be : BitVec 4) (data : Word32) : State :=
  let old := smGet s.tide.staged { data := 0, lanes := 0 } r.addr
  let new : StagedEntry := { data := mergeBits old.data (laneMask be) data, lanes := old.lanes ||| be }
  let staged := smSet s.tide.staged { data := 0, lanes := 0 } r.addr new
  { s with tide := { s.tide with staged := staged, overrun := s.tide.overrun || decide (64 < staged.length) } }

/-- Drop every entry that is not part of a tide in progress (R501). -/
def State.discardStaged (s : State) : State := { s with tide := { s.tide with staged := [], overrun := false } }

/-- The value of a register after an entry is applied; a reserved encoding leaves the field (R17, Table 3.1), judged on the
merged entry as it is applied (notes/assumptions/84.md). -/
def State.entryValue (s : State) (r : Reg) (e : StagedEntry) : Word32 :=
  let v := mergeBits (s.reg r) (laneMask e.lanes &&& r.tideMask) e.data
  match r with
  | .site _ .holdLimit => if 1 ≤ v.toNat ∧ v.toNat ≤ 60000 then v else s.reg r
  | _ => v

/-- Which save of a tenant is due when another is asked for: FAULT stays due (Table 3.7), a tenant that has given up its context
stays at that (R79), and any other reason gives way to the later one. -/
def SaveReason.over (old : Option SaveReason) (r : SaveReason) : SaveReason :=
  match old with
  | some .fault => .fault
  | some .giveUp => if r = .fault then .fault else .giveUp
  | _ => r

/-- Ask for a save of a loaded tenant (R79, R80). -/
def State.requestSave (s : State) (n : SiteId) (r : SaveReason) : State :=
  if (s.site n).tstate = .loaded then s.upSite n (fun v => { v with save := some (SaveReason.over v.save r) }) else s

/-- The stations that a change of SB_LINK loses: the old mapping's, where the site is the one fed from it, and the new mapping's
where it is present (R100, notes/assumptions/86.md). -/
def State.linkLosses (s : State) (r : Reg) (e : StagedEntry) : State :=
  match r with
  | .site n .link =>
    let old := s.siteLink n
    let v := s.entryValue r e
    let new : LinkId × StationId := (BitVec.ofNat 6 (bitsOf v 5 0), BitVec.ofNat 4 (bitsOf v 11 8))
    if new = old then s
    else (if s.isFed n then s.stationLost old.1 old.2 else s).stationLost new.1 new.2
  | _ => s

/-- SB_STATUS.MAP_CONFLICT of a site (Table 3.3, R82). -/
def State.mapConflict (s : State) (n : SiteId) : Bool := !s.isFed n

/-- The sites mapped to a link and station. -/
def State.sitesOn (s : State) (k : LinkId) (t : StationId) : List SiteId :=
  ((List.range 1024).map (BitVec.ofNat 10)).filter (fun n => decide (s.siteLink n = (k, t)))

/-- Set SB_ATTN.MAP_CONFLICT of the sites whose MAP_CONFLICT went to 1 on a mapping (R82). -/
def State.noteConflicts (s before : State) (k : LinkId) (t : StationId) : State :=
  ((s.sitesOn k t).filter (fun n => s.mapConflict n && !before.mapConflict n)).foldl (fun s n => s.setAttn n 8) s

/-- What an applied entry does beside its register (R507). -/
def State.entryEffect (s before : State) (r : Reg) : State :=
  match r with
  | .site n .link => s.noteConflicts before (s.siteLink n).1 (s.siteLink n).2
  | .site n .affinity =>
    let v := s.site n
    let aff := s.reg (.site n .affinity)
    let core := coreOf v.onCtx
    if core / 4 = bitsOf aff 1 0 ∧ bitAt aff (4 + core % 4) then s else s.requestSave n .tide
  | _ => s

/-- Store an entry's value. -/
def State.entryStore (s before : State) (e : Reg × StagedEntry) : State := s.setReg e.1 (before.entryValue e.1 e.2)

/-- Apply entries together (R24, R505, R507): the stations lost, the values, and their effects. -/
def State.applyEntries (s : State) (es : SMap StagedEntry) : State :=
  let rs := es.filterMap (fun e => (regAt e.1).map (fun r => (r, e.2)))
  let s1 := rs.foldl (fun s e => s.linkLosses e.1 e.2) s
  let s2 := rs.foldl (fun t e => t.entryStore s e) s1
  rs.foldl (fun t e => t.entryEffect s e.1) s2

/-- The tide completes (R504): TIDE_BUSY, CFG_EPOCH, HINT_STATUS.CFG_DONE and line 2. -/
def State.tideDone (s : State) : State :=
  ((({ s with tide := { s.tide with busy := false, entries := [], stopping := false, deferred := [], stops := [] } }).bumpWrap (.g .cfgEpoch) 1).setHint 3).setLine 2

/-- The sites that have an entry in a set. -/
def tideSites (es : SMap StagedEntry) : List SiteId :=
  (es.filterMap (fun e => (regAt e.1).bind Reg.tideSite)).eraseDups

/-- The entries of one site. -/
def entriesOf (es : SMap StagedEntry) (n : SiteId) : SMap StagedEntry :=
  es.filter (fun e => decide ((regAt e.1).bind Reg.tideSite = some n))

/-- Convert a site of a tenant-by-tenant tide when it may (R508 step 2): `boundary` says that its tenant is at a dispatch
boundary. The last site to convert completes the tide. -/
def State.convert (s : State) (n : SiteId) (boundary : Bool) : State :=
  let es := entriesOf s.tide.entries n
  if !s.tide.busy || s.tide.stopping || es.isEmpty || s.opInFlight n || (decide ((s.site n).tstate = .loaded) && !boundary) then s
  else
    let rest := s.tide.entries.filter (fun e => decide ((regAt e.1).bind Reg.tideSite ≠ some n))
    let s1 := { s.applyEntries es with tide := { s.tide with entries := rest } }
    let v := s1.reg (.g .cfgProgress)
    let s2 := s1.setReg (.g .cfgProgress) (setBits v 10 0 (bitsOf v 10 0 + 1))
    (if rest.isEmpty then s2.tideDone else s2).tryBegin n

/-- HOST_CTRL.STAGE. -/
def State.staging (s : State) : Bool := bitAt (s.reg (.g .hostCtrl)) 0

/-- SB_STATUS.TIDE_WAIT: the site has an entry staged or awaiting conversion (R499). -/
def State.tideWait (s : State) (n : SiteId) : Bool :=
  Tide.hasSite s.tide.staged n || Tide.hasSite s.tide.entries n

end Sys2Proof.Machine
end

