-- ==== Sys2Proof/Machine/Sites.lean ====
section
/-! DEFINITION. Site controls and tenant states (spec/03, R61 to R82), and what the dispatcher chooses (R76 to R79). -/

namespace Sys2Proof.Machine

/-- SB_CTRL.HOLD of a site. -/
def State.siteHold (s : State) (n : SiteId) : Bool := bitAt (s.reg (.site n .ctrl)) 1

/-- Set one stored bit of a register. -/
def State.putBit (s : State) (r : Reg) (k : Nat) (b : Bool) : State := s.setReg r (setBit (s.reg r) k b)

/-- Set SB_STATUS.EN_REFUSED (Table 3.3). -/
def State.enRefused (s : State) (n : SiteId) : State := s.putBit (.site n .status) 9 true

/-- Change a tenant's state; one that does not wait any more may cause a quantum save again when it next waits (R79). -/
def State.setTState (s : State) (n : SiteId) (t : TState) : State :=
  s.upSite n (fun v => { v with tstate := t, quantumAsked := v.quantumAsked && decide (t = .pending) })

/-- The state a tenant enters by HOLD and its events (Table 3.7): HELD, or PENDING with events, or IDLE. -/
def State.restState (s : State) (n : SiteId) : TState :=
  if s.siteHold n then .held else if (s.site n).events = 0 then .idle else .pending

/-- The tenant enters FAULTED with a CODE (Table 3.6, R74): COUNT rises, saturating, and SB_ATTN.FAULT is set. -/
def State.enterFaulted (s : State) (n : SiteId) (code : Nat) : State :=
  let v := s.reg (.site n .faultInfo)
  let cnt := min (bitsOf v 31 16 + 1) 65535
  ((s.setTState n .faulted).setReg (.site n .faultInfo) (setBits (setBits v 7 0 code) 31 16 cnt)).setAttn n 4

/-- EN written 0 on an installed tenant (R75, Table 3.7). -/
def State.en0 (s : State) (n : SiteId) : State :=
  let v := s.site n
  if !s.siteEn n then s
  else if v.txn ≠ .idle then s.enRefused n
  else if v.tstate = .loaded then (s.upSite n (fun v => { v with enClear := true })).requestSave n .en0
  else ((s.putBit (.site n .ctrl) 0 false).setTState n .absent).convert n false

/-- FAULT written 1 (Table 3.7). -/
def State.faultWritten (s : State) (n : SiteId) : State :=
  match (s.site n).tstate with
  | .idle | .pending | .held => s.enterFaulted n 0x80
  | .loaded => s.requestSave n .fault
  | .absent | .faulted => s

/-- RESUME written 1, with the value HOLD will have (R71, R81). -/
def State.resume (s : State) (n : SiteId) (hold : Bool) : State :=
  if (s.site n).tstate = .faulted then
    let t := if hold then .held else if (s.site n).events = 0 then TState.idle else .pending
    let r := Reg.site n .faultInfo
    (s.setTState n t).setReg r (setBits (s.reg r) 7 0 0)
  else s

/-- HOLD written (Table 3.7, R80). -/
def State.holdWritten (s : State) (n : SiteId) (b : Bool) : State :=
  let old := s.siteHold n
  let s1 := s.putBit (.site n .ctrl) 1 b
  if b = old then s1
  else if b then
    match (s.site n).tstate with
    | .idle | .pending => s1.setTState n .held
    | .loaded => s1.requestSave n .hold
    | .absent | .held | .faulted => s1
  else if (s.site n).tstate = .held then s1.setTState n (s1.restState n) else s1

/-- EN written 1 (R73, Table 3.7). -/
def State.en1 (s : State) (n : SiteId) : State :=
  if s.siteEn n then s
  else if s.ctxBaseSet && s.siteBufSet then
    (s.putBit (.site n .ctrl) 0 true).setTState n (s.restState n)
  else s.enRefused n

/-- AUTO_REPLAY written (R120): written 1 with the station present, it starts the replay of an undelivered transaction,
whose frames are sent from the oldest (R117). -/
def State.autoWritten (s : State) (n : SiteId) (b : Bool) : State :=
  let s1 := s.putBit (.site n .ctrl) 2 b
  let v := s1.site n
  if b && decide (v.txn = .undelivered) && !v.woffPending && s1.stationUp n then
    ((s1.upSite n (fun v => { v with txn := .replaying, armed := false })).resend n v.unacked).startSettle n
  else s1

/-- CTR_CLEAR written 1 (R67). -/
def State.ctrClear (s : State) (n : SiteId) : State := s.upSite n (fun v => { v with clearPending := true })

/-- A write of SB_CTRL: its events one after another in the order of R71. -/
def State.sbCtrlWrite (s : State) (n : SiteId) (be : BitVec 4) (d : Word32) : State :=
  let l0 := be.getLsbD 0
  let l1 := be.getLsbD 1
  let hold := if l0 then bitAt d 1 else s.siteHold n
  let s := if l0 && !bitAt d 0 then s.en0 n else s
  let s := if l1 && bitAt d 8 then s.faultWritten n else s
  let s := if l1 && bitAt d 9 then s.resume n hold else s
  let s := if l0 then s.holdWritten n hold else s
  let s := if l0 && bitAt d 0 then s.en1 n else s
  let s := if l0 then s.autoWritten n (bitAt d 2) else s
  if l1 && bitAt d 10 then s.ctrClear n else s

/-! ## Placement (R76-R78) -/

/-- Whether a context is pooled (R76). -/
def State.pooled (s : State) (x : CtxId) : Bool :=
  decide (x ≠ bootCtx) && bitAt (s.reg (.core (BitVec.ofNat 4 (coreOf x)) .dispatch)) (x.val % 4)

/-- Whether a context would be eligible for a tenant once free (R76): core, cluster, affinity, pool, state. -/
def State.placeable (s : State) (n : SiteId) (x : CtxId) : Bool :=
  let aff := s.reg (.site n .affinity)
  s.pooled x && decide (coreOf x / 4 = bitsOf aff 1 0) && bitAt aff (4 + coreOf x % 4)
    && decide ((s.core (coreOf x)).state = .running)

/-- Whether a context is eligible for a tenant (R76); a core whose fence is under way offers none (R511,
notes/assumptions/69.md). -/
def State.eligible (s : State) (n : SiteId) (x : CtxId) : Bool :=
  s.placeable n x && decide ((s.ctx x).occ = .free) && !(s.core (coreOf x)).fencing

/-- The contexts of a cluster, in order. -/
def clusterCtxs (cl : Nat) : List CtxId := (List.range 16).map (fun i => Fin.ofNat 65 (16 * cl + i))

/-- The number of contexts of a core that tenants occupy (R78). -/
def State.tenantsOn (s : State) (core : Nat) : Nat :=
  ((List.range 4).filter (fun i => match (s.ctx (Fin.ofNat 65 (4 * core + i))).occ with
    | .tenant _ => true
    | _ => false)).length

/-- Where a tenant is placed (R78): the eligible core with the fewest tenants, then the lowest core, then the lowest
context. -/
def State.place (s : State) (n : SiteId) : Option CtxId :=
  minBy (fun x => s.tenantsOn (coreOf x) * 128 + x.val)
    ((clusterCtxs (bitsOf (s.reg (.site n .affinity)) 1 0)).filter (fun x => s.eligible n x))

/-- The tenants of a cluster in a state, in ascending order. -/
def State.tenantsIn (s : State) (cl : Nat) (t : TState) : List SiteId :=
  (s.sites.filterMap (fun e => if e.2.tstate = t then some (BitVec.ofNat 10 e.1) else none)).filter
    (fun n => decide (bitsOf (s.reg (.site n .affinity)) 1 0 = cl))

/-- The order in which waiting tenants are loaded (R77): PRIO, then the oldest untaken event, then the site number. -/
def State.loadRank (s : State) (n : SiteId) : Nat :=
  let v := s.site n
  let stamp := if v.events = 0 then 2 ^ 64 - 1 else match v.inbox with
    | [] => 2 ^ 64 - 1
    | f :: _ => min f.stamp (2 ^ 64 - 1)
  ((3 - bitsOf (s.reg (.site n .affinity)) 9 8) * 2 ^ 64 + stamp) * 1024 + n.toNat

/-- The tenant a cluster's dispatcher loads next, and where (R77, R78). -/
def State.nextLoad (s : State) (cl : Nat) : Option (SiteId × CtxId) :=
  match minBy s.loadRank ((s.tenantsIn cl .pending).filter (fun n => (s.place n).isSome)) with
  | none => none
  | some n => (s.place n).map (fun x => (n, x))

/-- SB_STATUS.NO_CORE (R76): the tenant is pending and no core of its affinity can ever offer an eligible context. -/
def State.noCore (s : State) (n : SiteId) : Bool :=
  decide ((s.site n).tstate = .pending)
    && !(clusterCtxs (bitsOf (s.reg (.site n .affinity)) 1 0)).any (fun x => s.placeable n x)

/-! ## Context blocks (R127-R129) -/

/-- A context block (Table 5.5) with the return-stack entries given by `rs`. -/
def blockImage (c : Ctx) (rs : Nat → Word) : List Byte :=
  let w := fun (x : Nat) => leBytes 8 x
  w c.pc.toNat ++ w c.csw.toNat ++ w c.rsp.toNat ++ w c.fstat.toNat ++ w c.dstat.toNat ++ w c.kmaskRd.toNat
    ++ w c.kmaskWr.toNat ++ w c.bitspace.toNat
    ++ (List.range 32).flatMap (fun i => w (c.getG (BitVec.ofNat 5 i)).toNat)
    ++ (List.range 8).flatMap (fun i => beBytes 16 (smGet c.d 0 i).toNat)
    ++ (List.range 4).flatMap (fun i => w ((smGet c.a 0 i).signExtend 64).toNat)
    ++ (List.range 3).flatMap (fun i => w (smGet c.lps 0 i).toNat)
    ++ (List.range 3).flatMap (fun i => w (smGet c.lpe 0 i).toNat)
    ++ (List.range 3).flatMap (fun i => w (smGet c.lpc 0 i).toNat)
    ++ (List.range 4).flatMap (fun i => w (smGet c.mb 0 i).toNat)
    ++ (List.range 4).flatMap (fun i => w (smGet c.ml 0 i).toNat)
    ++ (List.range 4).flatMap (fun i => w (smGet c.strx 0 i).toNat)
    ++ (List.range 16).flatMap (fun i => w (rs i).toNat)
    ++ List.replicate 248 0

/-- The whole context block that a save writes (R129): return-stack entries at and above RSP are zero. -/
def blockBytes (c : Ctx) : List Byte := blockImage c (fun i => if i < c.rsp.toNat then smGet c.rs 0 i else 0)

/-- The 8-byte slot of a block at an offset, as a number. -/
def blockSlot (bs : List Byte) (o : Nat) : Nat := leNat (slice bs o 8)

/-- Registers `0` to `n - 1` from the slots at an offset. -/
def blockRegs {w : Nat} (bs : List Byte) (o n : Nat) : SMap (BitVec w) :=
  (List.range n).foldl (fun m i => smSet m 0 i (BitVec.ofNat w (blockSlot bs (o + 8 * i)))) []

/-- The bits of BITSPACE_BASE: BASE [47:29] and LOG2 [5:0] (R228). -/
def bitspaceMask : VirtAddr := 0xFFFFE000003F

/-- The context that a block loads (R128): what the tenant does not own stays. -/
def loadBlock (c : Ctx) (bs : List Byte) : Ctx :=
  let d := (List.range 8).foldl (fun m i => smSet m 0 i (BitVec.ofNat 128 (beNat (slice bs (0x140 + 16 * i) 16)))) []
  { c with
    pc := BitVec.ofNat 48 (blockSlot bs 0), csw := BitVec.ofNat 64 (blockSlot bs 8)
    rsp := BitVec.ofNat 5 (min (blockSlot bs 0x10 % 32) 16)
    fstat := BitVec.ofNat 64 (blockSlot bs 0x18) &&& 0xF1, dstat := BitVec.ofNat 64 (blockSlot bs 0x20) &&& 0x3
    kmaskRd := BitVec.ofNat 64 (blockSlot bs 0x28), kmaskWr := BitVec.ofNat 64 (blockSlot bs 0x30)
    bitspace := BitVec.ofNat 48 (blockSlot bs 0x38) &&& bitspaceMask
    g := smDrop (blockRegs bs 0x40 32) 0
    d := d, dres := residuesOf d
    a := blockRegs bs 0x1C0 4, lps := blockRegs bs 0x1E0 3, lpe := blockRegs bs 0x1F8 3, lpc := blockRegs bs 0x210 3
    mb := blockRegs bs 0x228 4, ml := blockRegs bs 0x248 4, strx := blockRegs bs 0x268 4, rs := blockRegs bs 0x288 16
    pcHi := 0, loads := [], delay := none, shadow := true, entering := none, inEncl := none, arrival := .back
    trapDue := none, stepDue := false }

/-- The check of R128 on the CSW slot of tenant n's block. -/
def blockCswGood (n : SiteId) (v : Nat) : Bool :=
  let w := BitVec.ofNat 64 v
  !bitAt w 1 && decide (bitsOf w 3 2 = 0) && bitAt w 4 && decide (bitsOf w 41 32 = n.toNat)
    && !bitAt w 16 && !bitAt w 17 && decide (bitsOf w 31 18 = 0) && decide (bitsOf w 63 42 = 0)

/-- CTX_BASE (R70). -/
def State.ctxBase (s : State) : Nat := s.pairBase (.d .ctxBaseLo) (.d .ctxBaseHi) 20

/-- The address of a tenant's context block (R127). -/
def State.blockAddr (s : State) (n : SiteId) : Nat := s.ctxBase + n.toNat * 0x400

/-- The code of a requester in the pair maps (R23): 0 the host, 1 + x context x, 100 and 101 the debug access engine. -/
def reqCode (q : Requester) : Nat :=
  match q with
  | .host => 0
  | .ctx x => 1 + x.val
  | .dae _ => 100

/-- The key of a requester's pair: the requester and the `_LO` register's address (R23). -/
def pairKey (q : Requester) (lo : Reg) : Nat := reqCode q * 2 ^ 40 + lo.addr

/-- Drop a context's snapshots and staged values at a tenant load or save (R23). -/
def State.dropPairs (s : State) (x : CtxId) : State :=
  let keep := fun k : Nat => decide (k / 2 ^ 40 ≠ reqCode (.ctx x))
  { s with snaps := s.snaps.filter (fun e => keep e.1), stagedLo := s.stagedLo.filter (fun e => keep e.1) }

/-- A tenant load or save on a context clears its pending SITE bit (R362). -/
def State.clearSiteIrq (s : State) (x : CtxId) : State := s.clrReg (cxReg x .irqPend) 1

/-- Load a pending tenant onto a context (R74, R78, R128). A failing block faults the tenant and frees the context; it counts as
no tenant load in CB_DISPATCH_COUNT (notes/assumptions/72.md). -/
def State.loadTenant (s : State) (n : SiteId) (x : CtxId) : State :=
  let a := s.blockAddr n
  let s1 := ((s.touch a 0x400 false).dropPairs x).clearSiteIrq x
  if s1.anyPoison a 0x400 then
    (s1.usePoison 5 0 2 (a + ((List.range 0x400).find? (fun i => s1.poisoned (a + i))).getD 0)).enterFaulted n 1
  else
    let bs := s1.memRead a 0x400
    if !blockCswGood n (blockSlot bs 8) then s1.enterFaulted n 2
    else
      let s2 := s1.setCtx x { loadBlock (s1.ctx x) bs with occ := .tenant n, heldSince := s1.time, modes := (s1.ctx x).modes + 1 }
      let s3 := s2.upSite n (fun v => { v with tstate := .loaded, onCtx := x, save := none, quantumAsked := false })
      (s3.bumpWrap (.core (BitVec.ofNat 4 (coreOf x)) .dispatchCount) 1).takeNmiWait x

/-- The quantum rule's choice for one waiting tenant (R79), among contexts not yet chosen: the tenant that has held its
context longest. -/
def State.quantumVictim (s : State) (w : SiteId) (taken : List SiteId) : Option SiteId :=
  let prio := fun n : SiteId => bitsOf (s.reg (.site n .affinity)) 9 8
  let cands := ((clusterCtxs (bitsOf (s.reg (.site w .affinity)) 1 0)).filterMap (fun x => match (s.ctx x).occ with
    | .tenant n => some (n, x)
    | _ => none)).filter (fun p =>
      let q := (s.reg (.core (BitVec.ofNat 4 (coreOf p.2)) .quantum)).toNat
      decide ((s.site p.1).tstate = .loaded) && decide ((s.site p.1).save = none) && !taken.contains p.1
        && decide (q ≠ 0) && decide (q * 1000 ≤ s.time - (s.ctx p.2).heldSince) && decide (prio p.1 ≤ prio w)
        && s.placeable w p.2)
  (minBy (fun p : SiteId × CtxId => (s.ctx p.2).heldSince * 128 + p.2.val) cands).map (·.1)

/-- Choose saves by the quantum rule for the waiting tenants of a cluster, in the order given (R79, notes/assumptions/72.md). -/
def State.quantumPick (s : State) (ws taken : List SiteId) : State :=
  match ws with
  | [] => s
  | w :: t =>
    if (s.place w).isSome then s.quantumPick t taken
    else match s.quantumVictim w taken with
      | none => s.quantumPick t taken
      | some n =>
        ((s.requestSave n .quantum).upSite w (fun v => { v with quantumAsked := true })).quantumPick t (n :: taken)

/-- The state a tenant takes when its save is complete (Table 3.7). Two cases have no row of the table: an EN clear that finds a
transaction open (R75), and HOLD written 0 again before the save (notes/assumptions/72.md). -/
def State.afterSave (s : State) (n : SiteId) (r : SaveReason) : TState :=
  if s.siteHold n then .held
  else match r with
    | .giveUp | .hold | .en0 | .fault => if (s.site n).events = 0 then .idle else .pending
    | .preempt | .pool | .fence | .quantum | .tide => .pending

/-- A pending clear of EN is decided when the tenant leaves LOADED (R75). -/
def State.decideEn (s : State) (n : SiteId) : State :=
  let v := s.site n
  if v.enClear then
    let s1 := s.upSite n (fun v => { v with enClear := false })
    if v.txn = .idle then (s1.putBit (.site n .ctrl) 0 false).setTState n .absent else s1.enRefused n
  else s

/-- Write a tenant's block and free its context (R129, R80): the tenant takes its next state, and is at a dispatch
boundary (R78). The store buffer has been drained. -/
def State.saveTenant (s : State) (n : SiteId) (r : SaveReason) : State :=
  let x := (s.site n).onCtx
  let c := (s.ctx x).completeLoads
  let s1 := (s.leaveEncl x c.pc.toNat).agentWrite (s.blockAddr n) (blockBytes c)
  let s2 := ((s1.upCtx x (fun c => { c.completeLoads with occ := .free, inEncl := none, arrival := .none })).dropPairs x).clearSiteIrq x
  let s3 := s2.upSite n (fun v => { v with save := none, tstate := s2.afterSave n r, quantumAsked := false })
  let s4 := if r = .fault then s3.enterFaulted n 0x80 else s3
  (s4.decideEn n).convert n true

/-- Whether a context is at a save point (R129, R148, R152): user privilege with TEN, between two instructions, and not
before a shadow. -/
def Ctx.savePoint (c : Ctx) : Bool :=
  c.isUser && c.ten && c.delay.isNone && !c.shadow && !c.stopped && !c.halted

/-- Before a dispatcher looks for a load, the sites of a tenant-by-tenant tide that may convert have converted, so that a tenant
is placed and runs under its new values (R508 step 2). -/
def State.convertDue (s : State) (cl : Nat) : State :=
  if s.tide.busy && !s.tide.stopping then (s.tenantsIn cl .pending).foldl (fun s n => s.convert n false) s else s

end Sys2Proof.Machine
end

