-- ==== Sys2Proof/Machine/Flash.lean ====
section
/-! DEFINITION. Images, the in-package flash, the bank journal and the calibration sector (spec/19, R456 to R467, R475). -/

namespace Sys2Proof.Machine

/-! ## CRC-32C and image headers (R456-R458) -/

/-- One bit of the reflected CRC-32C of R457. -/
def crcCBit (c : Word32) : Word32 := if c.getLsbD 0 then (c >>> 1) ^^^ 0x82F63B78#32 else c >>> 1

/-- One byte of the CRC-32C of R457. -/
def crcCByte (c : Word32) (b : Byte) : Word32 :=
  crcCBit (crcCBit (crcCBit (crcCBit (crcCBit (crcCBit (crcCBit (crcCBit (c ^^^ b.setWidth 32))))))))

/-- CRC-32C of a byte string (R457). -/
def crc32c (bs : List Byte) : Word32 := (bs.foldl crcCByte 0xFFFFFFFF#32) ^^^ 0xFFFFFFFF#32

/-- A field of a header, little-endian. -/
def hdrField (h : List Byte) (o n : Nat) : Nat := leNat (slice h o n)

/-- TYPE of a header: 1 MONITOR, 2 EXECUTIVE, 3 UCODE_PATCH, 4 DATA. -/
def hdrType (h : List Byte) : Nat := hdrField h 5 1

/-- PAY_LEN of a header. -/
def hdrLen (h : List Byte) : Nat := hdrField h 8 4

/-- The block size of a header. -/
def hdrBlock (h : List Byte) : Nat := 2 ^ hdrField h 12 1

/-- LOAD of a header. -/
def hdrLoad (h : List Byte) : Nat := hdrField h 0x10 8

/-- ENTRY of a header. -/
def hdrEntry (h : List Byte) : Nat := hdrField h 0x18 8

/-- SVN of a header. -/
def hdrSvn (h : List Byte) : Nat := hdrField h 6 1

/-- The number of payload blocks (R457). -/
def hdrBlocks (h : List Byte) : Nat := (hdrLen h + hdrBlock h - 1) / hdrBlock h

/-- The bytes an image occupies at its source (R457). -/
def imageSize (h : List Byte) : Nat := 128 + hdrLen h + 4 * hdrBlocks h

/-- Whether every byte is zero. -/
def allZero (bs : List Byte) : Bool := bs.all (fun b => b == 0)

/-- Whether a field that must be zero for the image's type is zero (Table 19.1). -/
def hdrZeros (h : List Byte) : Bool :=
  let t := hdrType h
  decide (hdrField h 7 1 < 2) && allZero (slice h 0x0D 3) && allZero (slice h 0x2C 4) && allZero (slice h 0x40 60)
    && (decide (t = 3) || allZero (slice h 0x24 4))
    && (decide (t = 1) || decide (t = 2) || allZero (slice h 0x28 2)) && (decide (t = 1) || allZero (slice h 0x2A 2))

/-- Whether a header parses (R458). -/
def hdrParses (h : List Byte) : Bool :=
  let t := hdrType h
  let e := hdrEntry h
  decide (h.length = 128) && decide (slice h 0 4 = [0x46, 0x52, 0x5A, 0x49]) && decide (hdrField h 4 1 = 1)
    && decide (1 ≤ t) && decide (t ≤ 4) && hdrZeros h
    && decide (12 ≤ hdrField h 12 1) && decide (hdrField h 12 1 ≤ 16)
    && decide (1 ≤ hdrLen h) && decide (hdrLen h ≤ 2 ^ 26)
    && decide ((crc32c (h.take 0x7C)).toNat = hdrField h 0x7C 4)
    && decide (hdrLoad h % 16 = 0) && decide (hdrLoad h < 2 ^ 40)
    && (decide (t ≠ 1) || (decide (e / 2 ^ 48 % 2 ^ 15 = 0) && decide (hdrLoad h ≤ e % 2 ^ 48)
        && decide (e % 2 ^ 48 ≤ hdrLoad h + 127 + hdrLen h)))

/-- Whether sixteen bytes mark the end of an image set (R458). -/
def endMark (bs : List Byte) : Bool := allZero bs || bs.all (fun b => b == 0xFF)

/-- The payload bytes of an image's blocks, without their CRCs: `n` blocks, `left` payload bytes (R457, R460). -/
def payloadBytes (block : Nat) : Nat → Nat → List Byte → List Byte
  | 0, _, _ => []
  | n + 1, left, bs =>
    let m := min block left
    bs.take m ++ payloadBytes block n (left - m) (bs.drop (m + 4))

/-- Whether every block's CRC is right (R457). -/
def blocksGood (block : Nat) : Nat → Nat → List Byte → Bool
  | 0, _, _ => true
  | n + 1, left, bs =>
    let m := min block left
    decide ((crc32c (bs.take m)).toNat = leNat (slice bs m 4)) && blocksGood block n (left - m) (bs.drop (m + 4))

/-- The bytes an image loads at its destination, which its measurement covers (R460): `img` begins with the header. -/
def loadedBytes (img : List Byte) : List Byte :=
  img.take 128 ++ payloadBytes (hdrBlock img) (hdrBlocks img) (hdrLen img) (img.drop 128)

/-- The measurement of an image (R460). -/
def measure (img : List Byte) : BitVec 384 := sha384 (loadedBytes img)

/-- The offset of the image after one at `o` (R459). -/
def nextImage (o : Nat) (h : List Byte) : Nat := (o + imageSize h + 15) / 16 * 16

/-! ## The in-package flash (R461) -/

/-- A flash byte by offset: the window's 16 MiB, then journal copy 0 at 0x100_0000 and copy 1 at 0x101_0000, then the two halves
of the calibration sector at 0x102_0000 and 0x102_8000; an unlisted byte is erased (notes/assumptions/22.md). -/
def State.flashByte (s : State) (o : Nat) : Byte := smGet s.flash 0xFF o

/-- `n` flash bytes. -/
def State.flashRead (s : State) (o n : Nat) : List Byte := (List.range n).map (fun i => s.flashByte (o + i))

/-- Program bytes at an offset: bits change from 1 to 0 only (R461). -/
def State.program (s : State) (o : Nat) (bs : List Byte) : State :=
  { s with flash := (bs.zipIdx).foldl (fun m p => smSet m 0xFF (o + p.2) (smGet m 0xFF (o + p.2) &&& p.1)) s.flash }

/-- Erase a range of whole blocks. -/
def State.eraseFlash (s : State) (o n : Nat) : State :=
  { s with flash := s.flash.filter (fun e => decide (e.1 < o) || decide (o + n ≤ e.1)) }

/-- A program that power failure or reset cut short: each bit to be cleared may have been cleared or not (R461, R476). -/
def State.programTorn (s : State) (o : Nat) (bs : List Byte) : State :=
  let f := s.freshBytes bs.length
  f.2.program o ((bs.zip f.1).map (fun p => p.1 ||| p.2))

/-- An erase that power failure or reset cut short: each bit to be set may have been set or not (R461, R476). -/
def State.eraseTorn (s : State) (o n : Nat) : State :=
  let f := s.freshBytes n
  let put := fun (m : SMap Byte) (p : Nat × Byte) => smSet m 0xFF (o + p.1) (smGet m 0xFF (o + p.1) ||| p.2)
  { f.2 with flash := ((List.range n).zip f.1).foldl put f.2.flash }

/-- The first offset of a bank: false A, true B (Table 19.2). -/
def bankOfs (b : Bool) : Nat := if b then 0x800000 else 0

/-- The size of a bank. -/
def bankSize : Nat := 0x800000

/-- The first 64 KiB block of a bank, by its number in the window (Table 19.2). -/
def bankBlock (b : Bool) : Nat := if b then 128 else 0

/-- Whether a block of the window reads all 0xFF. -/
def State.blockErased (s : State) (w : Nat) : Bool := !s.flash.any (fun e => decide (e.1 / 65536 = w))

/-- The first block of a bank that does not read all 0xFF. -/
def State.nextBlock (s : State) (b : Bool) : Option Nat :=
  ((List.range 128).map (fun i => bankBlock b + i)).find? (fun w => !s.blockErased w)

/-! ## The bank journal (R464-R467) -/

/-- The offset of a slot of a journal copy. -/
def slotOfs (copy : Bool) (slot : Nat) : Nat := 0x1000000 + (if copy then 0x10000 else 0) + 0x400 * slot

/-- The 256 record bytes of a slot. -/
def State.slotRecord (s : State) (copy : Bool) (slot : Nat) : List Byte := s.flashRead (slotOfs copy slot) 256

/-- SEQ of a record. -/
def recSeq (r : List Byte) : Nat := leNat (slice r 0 4)

/-- The CRC of a record, with TRIES0 and TRIES1 taken as 0xFF (Table 19.4). -/
def recCrc (r : List Byte) : Word32 := crc32c (r.take 8 ++ [0xFF, 0xFF] ++ slice r 10 0xF2)

/-- Whether a slot holds a valid record (R465). -/
def recValid (r : List Byte) : Bool :=
  decide (recSeq r ≠ 0xFFFFFFFF) && decide ((recCrc r).toNat = leNat (slice r 0xFC 4))

/-- The slot of a copy's effective record (R465). -/
def State.effectiveSlot (s : State) (copy : Bool) : Option Nat :=
  minBy (fun i => 0xFFFFFFFF - recSeq (s.slotRecord copy i))
    ((List.range 64).filter (fun i => recValid (s.slotRecord copy i)))

/-- The copy and slot of the record in force (R465). -/
def State.inForce (s : State) : Option (Bool × Nat) :=
  match s.effectiveSlot false, s.effectiveSlot true with
  | none, none => none
  | some a, none => some (false, a)
  | none, some b => some (true, b)
  | some a, some b =>
    if recSeq (s.slotRecord true b) ≤ recSeq (s.slotRecord false a) then some (false, a) else some (true, b)

/-- The bytes of the record in force; where there is none, zeros with both banks EMPTY (R465), and CUR names bank B, so that the
target stays bank A when a first record is made from them (R470, Table 19.11, notes/assumptions/83.md). -/
def State.forceRec (s : State) : List Byte :=
  match s.inForce with
  | none => List.replicate 6 0 ++ 1 :: List.replicate 249 0
  | some (c, i) => s.slotRecord c i

/-- The state of a bank in a record (Table 19.3). -/
def bankState (r : List Byte) (b : Bool) : Nat := leNat (slice r (if b then 5 else 4) 1) % 8

/-- CUR of a record. -/
def recCur (r : List Byte) : Bool := decide (leNat (slice r 6 1) % 2 = 1)

/-- The attempts left for the TRIAL bank (R467). -/
def recTries (r : List Byte) : Nat :=
  let ones := fun x : Nat => x % 2 + x / 2 % 2 + x / 4 % 2
  min (ones (leNat (slice r 8 1))) (ones (leNat (slice r 9 1)))

/-- MEAS of a bank in a record. -/
def recMeas (r : List Byte) (b : Bool) : List Byte := slice r (if b then 0x40 else 0x10) 48

/-- VAULT of a bank in a record. -/
def recVault (r : List Byte) (b : Bool) : Nat := leNat (slice r (if b then 0x80 else 0x78) 8)

/-- BANK_JOURNAL shows the record in force (R465). -/
def State.showJournal (s : State) : State :=
  match s.inForce with
  | none => s.setReg (.g .bankJournal) 0
  | some (c, i) =>
    s.setReg (.g .bankJournal) (BitVec.ofNat 32 (recSeq (s.slotRecord c i) % 65536 + i * 65536 + bit c * 2 ^ 24
      + bit (s.effectiveSlot (!c)).isNone * 2 ^ 25))

/-- The mask of the lowest 1 bit of [2:0] of a thermometer byte, to be cleared. -/
def lowestTry (b : Byte) : Byte := if bitAt b 0 then 0xFE else if bitAt b 1 then 0xFD else if bitAt b 2 then 0xFB else 0xFF

/-- Decrement the attempts of the record in force (R467). -/
def State.decTries (s : State) : State :=
  match s.inForce with
  | none => s
  | some (c, i) =>
    let m := lowestTry (s.flashByte (slotOfs c i + 8))
    s.program (slotOfs c i + 8) [m, m]

/-- Replace bytes of a record at an offset. -/
def recPut (r : List Byte) (o : Nat) (bs : List Byte) : List Byte := r.take o ++ bs ++ r.drop (o + bs.length)

/-- A record as it is stored: its SEQ and CRC set. -/
def recSeal (r : List Byte) (seq : Nat) : List Byte :=
  let r1 := recPut r 0 (leBytes 4 seq)
  recPut r1 0xFC (leBytes 4 (recCrc r1).toNat)

/-- The record with a bank in another state; MEAS is 0 unless the bank is VALID, TRIAL or CONFIRMED (Table 19.4). -/
def recState (r : List Byte) (b : Bool) (v : Nat) : List Byte :=
  let r1 := recPut r (if b then 5 else 4) [BitVec.ofNat 8 v]
  if 2 ≤ v ∧ v ≤ 4 then r1 else recPut r1 (if b then 0x40 else 0x10) (List.replicate 48 0)

/-- The record that ACTIVATE writes: the target TRIAL with its thermometer erased, its VAULT the staged vault (R472). -/
def recTrial (r : List Byte) (b : Bool) (vault : Nat) : List Byte :=
  recPut (recPut (recState r b 3) 8 [0xFF, 0xFF]) (if b then 0x80 else 0x78) (leBytes 8 vault)

/-- The record that CONFIRM writes: the booted bank CONFIRMED and CUR. -/
def recConfirm (r : List Byte) (b : Bool) : List Byte := recPut (recState r b 4) 6 [BitVec.ofNat 8 (bit b)]

/-- The record that VERIFY writes: the target VALID with its monitor's measurement and SVN (R471). -/
def recVerified (r : List Byte) (b : Bool) (meas : List Byte) (svn : Byte) : List Byte :=
  recPut (recPut (recState r b 2) (if b then 0x40 else 0x10) meas) (if b then 0x71 else 0x70) [svn]

/-- Whether a slot's 1 KiB all read 0xFF. -/
def State.slotErased (s : State) (copy : Bool) (i : Nat) : Bool :=
  (s.flashRead (slotOfs copy i) 0x400).all (fun b => b == 0xFF)

/-- The copy that the next record goes to: the one whose effective record has the lower SEQ (R466). -/
def State.nextCopy (s : State) : Bool :=
  match s.inForce with
  | none => false
  | some (c, _) => !c

/-- The slot of that copy that the next record goes to; none where the copy must be erased first (R466). -/
def State.nextSlot (s : State) (copy : Bool) : Option Nat :=
  let lo := match s.effectiveSlot copy with
    | none => 0
    | some i => i + 1
  (List.range 64).find? (fun i => decide (lo ≤ i) && s.slotErased copy i)

/-- The order in which a record's bytes are programmed: 0x04 to 0xFB, 0xFC to 0xFF, then SEQ (R466). -/
def recOrder (r : List Byte) : List (Nat × Byte) :=
  ((slice r 4 0xF8).zipIdx.map (fun p => (p.2 + 4, p.1))) ++ ((slice r 0xFC 4).zipIdx.map (fun p => (p.2 + 0xFC, p.1)))
    ++ ((slice r 0 4).zipIdx.map (fun p => (p.2, p.1)))

/-- The SEQ that the next record takes. -/
def State.nextSeq (s : State) : Nat :=
  match s.inForce with
  | none => 1
  | some (c, i) => recSeq (s.slotRecord c i) + 1

/-- The slot of a copy that a try takes, and the flash with it erased (R466). -/
def State.takeSlot (s : State) (c : Bool) : Nat × State :=
  match s.nextSlot c with
  | some i => (i, s)
  | none => (0, s.eraseFlash (slotOfs c 0) 0x10000)

/-- The loop of R466 for the bytes `new` in copy c, with the tries left; in the first `bad` of them the cells do not take
what is programmed, and hold what they may. Whether a slot reads back. -/
def State.recordTries (c : Bool) (new : List Byte) : Nat → Nat → State → Bool × State
  | 0, _, s => (false, s)
  | n + 1, bad, s =>
    let p := s.takeSlot c
    let s1 := if bad = 0 then p.2.program (slotOfs c p.1) new else p.2.programTorn (slotOfs c p.1) new
    if s1.slotRecord c p.1 = new then (true, s1.showJournal) else State.recordTries c new n (bad - 1) s1

/-- Write a new record by the procedure of R466, with `bad` tries that fail: whether it is in force now. -/
def State.writeRecord (s : State) (bad : Nat) (r : List Byte) : Bool × State :=
  State.recordTries s.nextCopy (recSeal r s.nextSeq) 3 bad s

/-- A record in a slot that a chip reset cut short: the first `k` of its bytes are programmed in order, and the next in part. -/
def State.slotTorn (s : State) (c : Bool) (i k : Nat) (new : List Byte) : State :=
  let s1 := ((recOrder new).take k).foldl (fun s p => s.program (slotOfs c i + p.1) [p.2]) s
  ((recOrder new).drop k |>.take 1).foldl (fun s p => s.programTorn (slotOfs c i + p.1) [p.2]) s1

/-- A record write that a chip reset cut short (R466, R476): where the copy is erased first, in that erase, or else after a free
number of the record's bytes. -/
def State.writeRecordTorn (s : State) (r : List Byte) : State :=
  let c := s.nextCopy
  let f := s.fresh
  if (s.nextSlot c).isNone && bitAt f.1 63 then f.2.eraseTorn (slotOfs c 0) 0x10000
  else (f.2.takeSlot c).2.slotTorn c (f.2.takeSlot c).1 (f.1.toNat % 2 ^ 63 % 257) (recSeal r s.nextSeq)

/-- The target bank (R470). -/
def State.ueTarget (s : State) : Bool :=
  match s.boot.booted with
  | some b => !b
  | none => match s.inForce with
    | none => false
    | some (c, i) => !recCur (s.slotRecord c i)

/-- What VERIFY finds in a bank (R471): an error code, or the first monitor's header and measurement. -/
inductive SetRes where
  | err (code : Nat)
  | good (m : MonImage)
  deriving DecidableEq, Repr

/-- The end of a set: HEADER where no monitor was found (R471). -/
def setEnd (m : Option MonImage) : SetRes :=
  match m with
  | none => .err 0x66
  | some m => .good m

/-- Check an image set from offset `o` (R459, R471). -/
def verifySet (bs : List Byte) : Nat → Nat → Option MonImage → SetRes
  | 0, _, m => setEnd m
  | fuel + 1, o, m =>
    let rest := bs.drop o
    if rest.length < 16 ∨ endMark (rest.take 16) then setEnd m
    else
      let h := rest.take 128
      if !hdrParses h || decide (rest.length < imageSize h) then .err 0x66
      else if !blocksGood (hdrBlock h) (hdrBlocks h) (hdrLen h) (rest.drop 128) then .err 0x67
      else
        let m' := match m with
          | some x => some x
          | none => if hdrType h = 1 then some { header := h, meas := measure (rest.take (imageSize h)) } else none
        verifySet bs fuel (nextImage o h) m'

/-- The image set of a bank, checked. -/
def State.verifyBank (s : State) (b : Bool) : SetRes :=
  verifySet (s.flashRead (bankOfs b) bankSize) (bankSize / 16 + 1) 0 none

/-! ## Erasing and programming a bank (R461, R470) -/

/-- Whether a WRITE names pages of the bank (R469, Table 19.7): LEN is 1 to 4,096, and none lies beyond the bank. -/
def UeOp.inBank (c : UeOp) : Bool := decide (c.len ≠ 0) && decide (c.len ≤ 4096 * 256) && decide (c.ofs + c.len ≤ bankSize)

/-- Whether a WRITE source lies wholly in installed DRAM or SRAM outside the key array (Table 19.7). -/
def State.ueSource (s : State) (a n : Nat) : Bool :=
  (decide (a + n ≤ s.dramSize) || (decide (0xF000000000 ≤ a) && decide (a + n ≤ 0xF000800000)))
    && !s.meetsKeyArray a n

/-- Whether the source of the pages that a WRITE has still to program is such a range. -/
def State.sourceLeft (s : State) (c : UeOp) : Bool := s.ueSource (c.src + 256 * c.pages) (c.len - 256 * c.pages)

/-- Erase every block of a bank that is not erased, where block `bad` of the window does not erase: whether every block is. -/
def State.eraseBank (s : State) (b : Bool) (bad : Option Nat) : Bool × State :=
  match bad with
  | none => (true, s.eraseFlash (bankOfs b) bankSize)
  | some w =>
    if s.blockErased w || decide (w < bankBlock b) || decide (bankBlock b + 128 ≤ w) then
      (true, s.eraseFlash (bankOfs b) bankSize)
    else
      let s1 := (s.eraseFlash (bankOfs b) (w * 65536 - bankOfs b)).eraseTorn (w * 65536) 65536
      if s1.blockErased w then (true, s1.eraseFlash (bankOfs b) bankSize) else (false, s1)

/-- Why the programming of pages stops (Table 19.7). -/
inductive PageStop where
  | poison (a : Nat)
  | cells
  deriving DecidableEq, Repr

/-- Whether a page of flash reads all 0xFF. -/
def State.pageErased (s : State) (o : Nat) : Bool := (s.flashRead o 256).all (fun b => b == 0xFF)

/-- Program pages at `o` from memory at `a` in order, where the page `bad` pages on does not take what is programmed; the first
page whose source holds poison, that is not erased, or that does not read back stops (R470). Each source page that is read sets
REF (R280). -/
def State.programPages : Nat → Option Nat → Nat → Nat → State → Option PageStop × State
  | 0, _, _, _, s => (none, s)
  | n + 1, bad, o, a, s0 =>
    let s := s0.touch a 256 false
    if s.anyPoison a 256 then (some (.poison a), s)
    else if !s.pageErased o then (some .cells, s)
    else
      let s1 := if bad = some 0 then s.programTorn o (s.memRead a 256) else s.program o (s.memRead a 256)
      if bad = some 0 ∧ s1.flashRead o 256 ≠ s.memRead a 256 then (some .cells, s1)
      else State.programPages n (match bad with
        | some (k + 1) => some k
        | _ => none) (o + 256) (a + 256) s1

/-- The work of an ERASE that a chip reset cut short (R476): some blocks are erased, and one in part. -/
def State.eraseBankTorn (s : State) (b : Bool) : State :=
  let f := s.fresh
  let w := bankBlock b + f.1.toNat % 128
  let s1 := f.2.eraseFlash (bankOfs b) (w * 65536 - bankOfs b)
  if s1.blockErased w then s1 else s1.eraseTorn (w * 65536) 65536

/-- The pages of a WRITE that a chip reset cut short (R476): `k` of them are programmed, and the next in part. -/
def State.programPagesTorn (n k o a : Nat) (s : State) : State :=
  let r := State.programPages (min n k) none o a s
  let o1 := o + 256 * k
  if k < n ∧ r.1 = none ∧ s.anyPoison (a + 256 * k) 256 = false ∧ r.2.pageErased o1 = true then
    (r.2.touch (a + 256 * k) 256 false).programTorn o1 (s.memRead (a + 256 * k) 256)
  else r.2

/-! ## The calibration sector (R475). It lies in the flash beyond the journal, and the layout of its body is this model's
(notes/assumptions/22.md). -/

/-- What a calibration record holds (R475): the UID, the user calibration registers, and the DIMM serial number and the trained
values of each channel that has them. -/
structure CalRec where
  seq : Nat
  uid : Nat
  therm : Word32
  drv : Word32
  vmon : Word32
  dly : Word32
  eq : List Word32
  chans : List (Option (Word32 × Word))
  deriving DecidableEq, Repr

/-- The offset of a half of the calibration sector: false the first. -/
def calOfs (h : Bool) : Nat := if h then 0x1028000 else 0x1020000

/-- LEN of a calibration record: the bytes of its body. -/
def calLen : Nat := 352

/-- The body of a calibration record. -/
def calBody (c : CalRec) : List Byte :=
  leBytes 16 c.uid ++ leBytes 4 c.therm.toNat ++ leBytes 4 c.drv.toNat ++ leBytes 4 c.vmon.toNat ++ leBytes 4 c.dly.toNat
    ++ c.eq.flatMap (fun v => leBytes 4 v.toNat)
    ++ c.chans.flatMap (fun o => match o with
      | none => List.replicate 16 0
      | some e => leBytes 4 1 ++ leBytes 4 e.1.toNat ++ leBytes 8 e.2.toNat)

/-- SEQ, LEN and the body, which the CRC covers. -/
def calHead (c : CalRec) : List Byte := leBytes 4 c.seq ++ leBytes 4 calLen ++ calBody c

/-- A calibration record as it is stored. -/
def calImage (c : CalRec) : List Byte := calHead c ++ leBytes 4 (crc32c (calHead c)).toNat

/-- The record that its SEQ, LEN and body spell. -/
def readCal (b : List Byte) : CalRec :=
  let w := fun (o : Nat) => BitVec.ofNat 32 (leNat (slice b o 4))
  { seq := leNat (slice b 0 4), uid := leNat (slice b 8 16), therm := w 24, drv := w 28, vmon := w 32, dly := w 36
    eq := (List.range 64).map (fun k => w (40 + 4 * k))
    chans := (List.range 4).map (fun k =>
      if leNat (slice b (296 + 16 * k) 4) = 0 then none
      else some (w (300 + 16 * k), BitVec.ofNat 64 (leNat (slice b (304 + 16 * k) 8)))) }

/-- The record of a half; none where the half is not valid: its SEQ is erased, its LEN is not that of a record, or its CRC is
wrong. -/
def State.calHalf (s : State) (h : Bool) : Option CalRec :=
  if leNat (s.flashRead (calOfs h) 4) = 0xFFFFFFFF ∨ leNat (s.flashRead (calOfs h + 4) 4) ≠ calLen then none
  else
    let b := s.flashRead (calOfs h) (8 + calLen)
    if (crc32c b).toNat = leNat (s.flashRead (calOfs h + 8 + calLen) 4) then some (readCal b) else none

/-- The calibration record in use: that of the valid half with the higher SEQ. -/
def State.calRec (s : State) : Option CalRec :=
  match s.calHalf false, s.calHalf true with
  | none, c => c
  | c, none => c
  | some a, some b => if b.seq < a.seq then some a else some b

/-- The older half of the calibration sector: one that is not valid, or that with the lower SEQ. -/
def State.calOlder (s : State) : Bool :=
  match s.calHalf false, s.calHalf true with
  | none, _ => false
  | some _, none => true
  | some a, some b => decide (b.seq < a.seq)

/-- The record that CAL_SAVE assembles. -/
def State.newCal (s : State) : CalRec :=
  { seq := match s.calRec with
      | none => 1
      | some c => c.seq + 1
    uid := s.uid, therm := s.reg (.g .thermUserOfs), drv := s.reg (.g .drvUserAdj), vmon := s.reg (.d .calVmonUser)
    dly := s.reg (.d .calHostDly)
    eq := (List.range 64).map (fun k => s.reg (.link (BitVec.ofNat 6 k) .eq))
    chans := (List.range 4).map (fun k => (s.boot.serials.find? (fun e => decide (e.1 = k))).map (fun e => (e.2, smGet s.boot.phy 0 k))) }

/-- CAL_SAVE's work: the older half is erased, and the record programmed there. -/
def State.calStore (s : State) : State :=
  let o := calOfs s.calOlder
  (s.eraseFlash o 0x8000).program o (calImage s.newCal)

/-- The order in which a calibration record's bytes are programmed: SEQ is last. -/
def calOrder (b : List Byte) : List (Nat × Byte) :=
  ((b.drop 4).zipIdx.map (fun p => (p.2 + 4, p.1))) ++ ((b.take 4).zipIdx.map (fun p => (p.2, p.1)))

/-- A CAL_SAVE that a chip reset cut short (R476): in the erase of the older half, or in the record, whose last byte is not
programmed, so that the previous calibration stays in use. -/
def State.calSaveTorn (s : State) : State :=
  let o := calOfs s.calOlder
  let l := (calOrder (calImage s.newCal)).dropLast
  let f := s.fresh
  let k := f.1.toNat / 2 % (l.length + 1)
  if bitAt f.1 0 then f.2.eraseTorn o 0x8000
  else
    let s1 := (l.take k).foldl (fun s p => s.program (o + p.1) [p.2]) (f.2.eraseFlash o 0x8000)
    ((l.drop k).take 1).foldl (fun s p => s.programTorn (o + p.1) [p.2]) s1

end Sys2Proof.Machine
end

