-- ==== Sys2Proof/Machine/Micro.lean ====
section
/-! DEFINITION. The microcode stores of a core, the patch payload and the secure patch copy (spec/20, R478 to R492). -/

namespace Sys2Proof.Machine

/-! ## Patches (R488, R489) -/

/-- A field of a patch payload. -/
def patchWord (p : List Byte) (i : Nat) : Nat := leNat (slice p (4 * i) 4)

/-- The counts of micro-words, nano-words and hooks of a patch payload (Table 20.5). -/
def patchM (p : List Byte) : Nat := leNat (slice p 4 2)
/-- The count of nano-words. -/
def patchN (p : List Byte) : Nat := leNat (slice p 6 2)
/-- The count of hooks. -/
def patchH (p : List Byte) : Nat := leNat (slice p 8 2)

/-- Whether every hook's FROM is in range, its TO below M, its other bits 0, and no two FROM values are equal. -/
def hooksGood (p : List Byte) : Bool :=
  let hs := (List.range (patchH p)).map (fun i => patchWord p (4 + i))
  hs.all (fun h => decide (h % 16384 < 0x3000) && decide (h / 16384 % 4 = 0) && decide (h / 65536 % 4096 < patchM p)
    && decide (h < 2 ^ 28))
    && decide ((hs.map (fun h => h % 16384)).eraseDups.length = hs.length)

/-- Whether a patch payload is well formed (R488), with LOAD and ENTRY of its header 0. -/
def patchGood (h p : List Byte) : Bool :=
  let m := patchM p
  let n := patchN p
  let k := patchH p
  decide (hdrLoad h = 0) && decide (hdrEntry h = 0)
    && decide (p.length = 16 + 4 * k + 4 * m + 24 * n) && decide (m ≤ 4096) && decide (n ≤ 512) && decide (k ≤ 64)
    && allZero (slice p 10 6) && hooksGood p
    && (List.range m).all (fun i => decide (patchWord p (4 + k + i) < 2 ^ 20))
    && (List.range n).all (fun i => allZero (slice p (16 + 4 * k + 4 * m + 24 * i + 22) 2))

/-! ## The stores of a core (R478) -/

/-- Odd parity over `w` bits of a number from bit `lo`: the bit that makes the count of ones odd. -/
def oddParity (v lo w : Nat) : Bool := decide (((List.range w).countP (fun i => v.testBit (lo + i))) % 2 = 0)

/-- A micro-word as it is written, with the parity the L1024 generates (R488). -/
def MicroWord.of (b : BitVec 20) : MicroWord :=
  { bits := b, parity := BitVec.ofNat 2 (bit (oddParity b.toNat 0 10) + 2 * bit (oddParity b.toNat 10 10)) }

/-- A nano-word as it is written. -/
def NanoWord.of (b : BitVec 176) : NanoWord :=
  { bits := b, parity := BitVec.ofNat 11 (sumNat ((List.range 11).map (fun k => 2 ^ k * bit (oddParity b.toNat (16 * k) 16)))) }

/-- A valid hook as it is written from its word of a payload (Table 20.5). -/
def Hook.of (h : Nat) : Hook :=
  let f := h % 16384
  let t := h / 65536 % 4096
  { frm := BitVec.ofNat 14 f, dest := BitVec.ofNat 12 t, v := true, parity := oddParity (f + 2 ^ 14 * t + 2 ^ 26) 0 27 }

/-- The entries of a store that are not as the reset leaves them. -/
def entries {β : Type} [DecidableEq β] (n : Nat) (d : β) (f : Nat → β) : SMap β :=
  (List.range n).filterMap (fun i => if f i = d then none else some (i, f i))

/-- What a core's patch RAM and hook table hold once loaded from the secure patch copy (R490): zero and invalid where the copy
holds nothing. -/
def patchStores (o : Option (List Byte)) : Stores :=
  match o with
  | none => {}
  | some p =>
    let k := patchH p
    let m := patchM p
    { hooks := entries k {} (fun i => Hook.of (patchWord p (4 + i)))
      micro := entries m {} (fun i => MicroWord.of (BitVec.ofNat 20 (patchWord p (4 + k + i))))
      nano := entries (patchN p) {} (fun i => NanoWord.of (BitVec.ofNat 176 (leNat (slice p (16 + 4 * k + 4 * m + 24 * i) 22)))) }

/-- Put a payload into the secure patch copy and into the boot core's patch RAM and hook table (R489 step 4). -/
def State.storePatch (s : State) (p : List Byte) : State :=
  { s.setCore 16 { s.core 16 with stores := patchStores (some p) } with ue := { s.ue with patch := some p, patchPoison := [] } }

/-- Invalidate the boot core's hooks and clear the secure patch copy (R489 step 4, R492). -/
def State.dropHooks (s : State) : State :=
  let k := s.core 16
  { s.setCore 16 { k with stores := { k.stores with hooks := [] } } with ue := { s.ue with patch := none, patchPoison := [] } }

/-! ## Fetching micro-words and nano-words (R480) -/

/-- The hooks in effect on a core: those of the boot core from the ROM lock on (R490). -/
def State.hooks (s : State) (core : Nat) : SMap Hook :=
  if core = 16 ∧ s.boot.locked = false then [] else (s.core core).stores.hooks

/-- The micro-address that a fetch at an address reads (R480): a valid hook on a ROM address diverts it into the patch RAM. -/
def State.microAddr (s : State) (core addr : Nat) : Nat :=
  match (s.hooks core).find? (fun e => e.2.v && decide (addr < 0x3000) && decide (e.2.frm.toNat = addr)) with
  | none => addr
  | some e => 0x3000 + e.2.dest.toNat

/-- The micro-word that a fetch at an address gives. -/
def State.microWord (s : State) (core addr : Nat) : BitVec 20 :=
  let a := s.microAddr core addr
  if a < 0x3000 then Config.microRom a else (smGet (s.core core).stores.micro {} (a - 0x3000)).bits

/-- The nano-word at an address. -/
def State.nanoWord (s : State) (core addr : Nat) : BitVec 176 :=
  if addr < 0x800 then Config.nanoRom addr else (smGet (s.core core).stores.nano {} (addr - 0x800)).bits

/-- Whether microcode of a core can read a word of a store for execution (R480, R482): a ROM micro-word that no hook diverts, a
word of the patch RAM where a hook leads there, a nano-word that one of those can name, a valid hook. -/
def State.microReads (s : State) (core store addr : Nat) : Bool :=
  let hooked := (s.hooks core).any (fun e => e.2.v)
  match store with
  | 0 => if addr < 0x3000 then decide (s.microAddr core addr = addr) else hooked
  | 1 => decide (addr < 0x800) || (decide (addr < 0xA00) && hooked)
  | 2 => (smGet (s.hooks core) {} addr).v
  | _ => false

/-- Whether an address of a store is in the patch RAM or the hook table (Table 20.4). -/
def inPatch (store addr : Nat) : Bool :=
  match store with
  | 0 => decide (0x3000 ≤ addr)
  | 1 => decide (0x800 ≤ addr)
  | _ => true

/-- Whether an address of a store is a ROM word, which the double-read check reads (R487). -/
def romHas (store addr : Nat) : Bool :=
  match store with
  | 0 => decide (addr < 0x3000)
  | 1 => decide (addr < 0x800)
  | _ => false

/-- The stores with one word of the patch RAM or the hook table loaded from others (R483). -/
def Stores.reload (k p : Stores) (store addr : Nat) : Stores :=
  match store with
  | 0 => { k with micro := smSet k.micro {} (addr - 0x3000) (smGet p.micro {} (addr - 0x3000)) }
  | 1 => { k with nano := smSet k.nano {} (addr - 0x800) (smGet p.nano {} (addr - 0x800)) }
  | _ => { k with hooks := smSet k.hooks {} addr (smGet p.hooks {} addr) }

/-! ## The secure patch copy (R490) -/

/-- Whether the secure patch copy has a word for an address of a store: one of the patch RAM or the hook table (R478). -/
def copyHas (store addr : Nat) : Bool :=
  match store with
  | 0 => decide (0x3000 ≤ addr) && decide (addr < 0x4000)
  | 1 => decide (0x800 ≤ addr) && decide (addr < 0xA00)
  | 2 => decide (addr < 64)
  | _ => false

/-- A load meets an uncorrectable word of the secure patch copy, `w` by store and address (R336, R490): the first detection
poisons the word and makes the records, and a later one is a consumption. The copy lies outside the address map, so the address
recorded is a free value (notes/assumptions/41.md). -/
def State.badCopy (s : State) (core : Nat) (w : Nat × Nat) : State :=
  if s.ue.patchPoison.contains w then s.bumpSat (.d .integPoisonUse) 1
  else
    let s1 := { s with ue := { s.ue with patchPoison := w :: s.ue.patchPoison } }
    (s1.fresh.2.mchk 8 (core % 16) (decide (core = 16))).integRec 5 4 (core % 16) 0 (s1.fresh.1.toNat % 2 ^ 40)

/-- The uncorrectable word that a core meets as it loads its stores from the copy (R490): the one that this load finds, or one
that an earlier load has poisoned. -/
def State.badWord (s : State) (found : Option (Nat × Nat)) : Option (Nat × Nat) :=
  (found.filter (fun w => copyHas w.1 w.2)).or s.ue.patchPoison.head?

/-- CB_UC_ERR of core c, 16 the boot core, records a failure at an ADDR of a STORE (Table 20.4). -/
def State.ucFailed (s : State) (c : Nat) (addr : BitVec 14) (store : BitVec 2) : State :=
  let r := if c = 16 then Reg.boot .ucErr else .core (BitVec.ofNat 4 c) .ucErr
  let cnt := min (bitsOf (s.reg r) 31 24 + 1) 255
  s.setReg r (BitVec.ofNat 32 (addr.toNat + 65536 * store.toNat + 2 ^ 18 * bit (inPatch store.toNat addr.toNat) + 2 ^ 24 * cnt))

/-- The failing word of the patch RAM or the hook table is loaded again from the secure patch copy (R483); where its word of the
copy is uncorrectable, now or since an earlier detection, it is not (notes/assumptions/60.md). -/
def State.ucReload (s : State) (c : Nat) (addr : BitVec 14) (store : BitVec 2) (copyBad : Bool) : State :=
  if !inPatch store.toNat addr.toNat then s
  else if copyBad || s.ue.patchPoison.contains (store.toNat, addr.toNat) then s.badCopy c (store.toNat, addr.toNat)
  else
    let k := s.core c
    s.setCore c { k with stores := k.stores.reload (patchStores s.ue.patch) store.toNat addr.toNat }

end Sys2Proof.Machine
end

