-- ==== Sys2Proof/Machine/Rings.lean ====
section
/-! DEFINITION. Curlew's command rings: GENKEY, KWRAP_STAGED and VERIFY (spec/17 R408, R429, R430). -/

namespace Sys2Proof.Machine

/-! ## Descriptors (R429) -/

/-- The base of a command ring. -/
def State.crBase (s : State) (k : BitVec 3) : Nat := s.pairBase (.curlew (.crBaseLo k)) (.curlew (.crBaseHi k)) 12

/-- CR_CONS. -/
def State.crCons (s : State) (k : BitVec 3) : Nat := bitsOf (s.reg (.curlew (.crCons k))) 15 0

/-- CR_PROD. -/
def State.crProd (s : State) (k : BitVec 3) : Nat := bitsOf (s.reg (.curlew (.crProd k))) 15 0

/-- The address of the descriptor that Curlew consumes next. -/
def State.descAddr (s : State) (k : BitVec 3) : Nat :=
  s.crBase k + 64 * (s.crCons k % 2 ^ bitsOf (s.reg (.curlew (.crBaseLo k))) 3 0)

/-- A descriptor's fields. -/
structure Desc where
  op : Nat
  flags : Nat
  first : Nat
  last : Nat
  seqFrom : Nat
  seqTo : Nat
  /-- the bytes that must be zero are -/
  clean : Bool
  deriving DecidableEq, Repr

/-- Read a descriptor. STATUS and RESULT are Curlew's to write and are not looked at. -/
def readDesc (b : List Byte) : Desc :=
  { op := leNat (slice b 0 1), flags := leNat (slice b 2 1), first := leNat (slice b 4 2), last := leNat (slice b 6 2)
    seqFrom := leNat (slice b 8 4), seqTo := leNat (slice b 12 4)
    clean := (slice b 3 1 ++ b.drop 0x14).all (fun x => x == 0) && decide (leNat (slice b 2 1) < 2) }

/-- Whether a descriptor ends with BAD_DESC on a ring (R429). -/
def State.badDesc (s : State) (k : BitVec 3) (d : Desc) : Bool :=
  let ns := decide (s.ringWorld k = .nonSecure)
  !d.clean || decide (d.op = 0) || decide (3 < d.op) || decide (d.last < d.first) || decide (1023 < d.last)
    || (ns && decide (d.op ≠ 3)) || (ns && decide (s.siteWorld (BitVec.ofNat 10 d.first) = .secure))

/-- Whether Curlew may reach the next descriptor in the ring's world (R422). -/
def State.descReach (s : State) (k : BitVec 3) : Bool :=
  let a := s.descAddr k
  (decide (s.region a = .dram) || decide (s.region a = .sram)) && !s.inKeyArray a
    && (decide (s.ringWorld k = .secure) || s.agentAllowed a)

/-- The next descriptor of a ring, where one waits and may be read. -/
def State.nextDesc (s : State) (k : BitVec 3) : Option Desc :=
  if s.crCons k = s.crProd k ∨ s.descReach k = false then none else some (readDesc (s.memRead (s.descAddr k) 64))

/-- RESULT, then STATUS, then CR_CONS (R429). -/
def State.endDesc (s : State) (k : BitVec 3) (status result : Nat) : State :=
  let a := s.descAddr k
  let s0 := (s.consumeAll 5 0 5 (s.poisonWords a 64)).touch a 64 false
  let s1 := s0.agentWrite (a + 0x10) (leBytes 4 result ++ s.memRead (a + 0x14) 4)
  let s2 := s1.agentWrite a (s1.memRead a 1 ++ [BitVec.ofNat 8 status] ++ s1.memRead (a + 2) 6)
  s2.setReg (.curlew (.crCons k)) (BitVec.ofNat 32 ((s.crCons k + 1) % 65536))

/-- Consume the bad descriptors at the front of a ring, at most `n`. A descriptor that the ring's world may not reach
stays, with RING_REFUSED in CW_REQ (notes/assumptions/26.md). -/
def State.skipBad : Nat → State → BitVec 3 → State
  | 0, s, _ => s
  | n + 1, s, k =>
    if s.crCons k = s.crProd k then s
    else match s.nextDesc k with
      | none => s.cwReq 4 0
      | some d => if s.badDesc k d then State.skipBad n (s.endDesc k 6 d.first) k else s

/-- Consume bad descriptors after a post or a command. -/
def State.skipAll (s : State) (k : BitVec 3) : State :=
  State.skipBad ((65536 + s.crProd k - s.crCons k) % 65536) s k

/-- The command at the front of a ring, of an OP, carried out by `f`; a command that waits leaves its descriptor in front. -/
def State.ringCommand (s : State) (k : BitVec 3) (op : Nat) (f : State → Desc → Option (Nat × Nat) × State) : State :=
  match s.nextDesc k with
  | none => s
  | some d =>
    if d.op = op ∧ s.badDesc k d = false then
      match (f s d).1 with
      | some r => ((f s d).2.endDesc k r.1 r.2).skipAll k
      | none => (f s d).2
    else s

/-! ## The commands (R408, R430): each answers STATUS and RESULT, or none where it waits, and the state -/

/-- The epoch that GENKEY gives a tenant (R430). -/
def nextEpoch (old : List Byte) : Nat :=
  let e := leNat (slice old 4 2)
  if leNat (slice old 0 1) % 2 = 0 ∨ e = 65535 then 1 else e + 1

/-- Note for the tenants of a list whether KWRAP_STAGED has completed for them since their last GENKEY (R472). -/
def State.noteWrapped (s : State) (l : List SiteId) (v : Bool) : State :=
  { s with ue := { s.ue with wrapped := l.foldl (fun m t => smSet m false t.toNat v) s.ue.wrapped } }

/-- GENKEY for the tenants of a list. An entry that Curlew does not reach stays as it is (notes/assumptions/26.md). -/
def State.genKeys (s : State) (enc : Bool) (bbk : BitVec 256) : List SiteId → Option (Nat × Nat) × State
  | [] => (some (1, 0), s)
  | t :: more =>
    if !s.drbg.instantiated then (some (2, t.toNat), s)
    else if !s.vaultReach s.vaultBase t then s.genKeys enc bbk more
    else
      let key := (s.readVault t).drawBytes 32
      let iv := key.2.drawBytes 12
      let u : Unwrapped := { key := BitVec.ofNat 256 (beNat key.1), encSite := enc
                             epoch := BitVec.ofNat 16 (nextEpoch (s.vaultEntry s.vaultBase t)) }
      let s1 := iv.2.writeVault s.vaultBase t (wrapEntry (deriveKw bbk t s.uidBytes) t u iv.1)
      let s2 := if (s1.site t).keyState = 0 ∨ (s1.site t).keyState = 3 then s1.setKeyState t 1 else s1
      ((s2.noteWrapped [t] false).retry t).genKeys enc bbk more

/-- The tenants of a descriptor, in ascending order. -/
def Desc.tenants (d : Desc) : List SiteId := (List.range (d.last + 1 - d.first)).map (fun i => BitVec.ofNat 10 (d.first + i))

/-- RESULT of a command that went through its range is the last tenant. -/
def withLast (d : Desc) (r : Option (Nat × Nat) × State) : Option (Nat × Nat) × State :=
  if r.1 = some (1, 0) then (some (1, d.last), r.2) else r

/-- GENKEY (R430). -/
def State.genKey (s : State) (d : Desc) : Option (Nat × Nat) × State :=
  if s.vaultV then withLast d (s.genKeys (decide (d.flags = 1)) s.curlew.bbk d.tenants) else (some (3, d.first), s)

/-- BBK′ of the staged image (R405, Table 17.2). -/
def State.stagedBbk (s : State) : BitVec 256 :=
  deriveBbk s.curlew.sr s.lcState (beBytes 48 s.ue.stageMeas.toNat) (verOf s.ue.stageSvn.toNat s.floorCount)

/-- KWRAP_STAGED for the tenants of a list: an entry with V = 0 is staged as zeros, an entry that does not unwrap ends the
command, and an entry that does is wrapped again, which waits for READY without limit (R408, R418). -/
def State.kwrapAll (s : State) (bbk : BitVec 256) : List SiteId → Option (Nat × Nat) × State
  | [] => (some (1, 0), s)
  | t :: more =>
    if s.vaultEmpty t then
      (((s.readVault t).dropKey t).writeVault s.stageBase t (List.replicate 128 0)).kwrapAll bbk more
    else match s.unwrap t with
      | none => (some (4, t.toNat), (s.readVault t).dropKey t)
      | some u =>
        if !s.drbg.instantiated then (none, s)
        else
          let iv := (s.readVault t).drawBytes 12
          (iv.2.writeVault s.stageBase t (wrapEntry (deriveKw bbk t s.uidBytes) t u iv.1)).kwrapAll bbk more

/-- KWRAP_STAGED (R408). The tenants of one that ends OK are tracked (R472). -/
def State.kwrapStaged (s : State) (d : Desc) : Option (Nat × Nat) × State :=
  if s.ue.stageValid && s.stageV then
    let r := withLast d (s.kwrapAll s.stagedBbk d.tenants)
    if r.1 = some (1, d.last) then (r.1, r.2.noteWrapped d.tenants true) else r
  else (some (5, d.first), s)

/-- The bytes of record q's slot, and the record R(q) and tag in it (R420, R423). -/
def State.slotBytes (s : State) (n : SiteId) (q : Nat) : List Byte := s.memRead (s.slotAddr n q) 0x1000

/-- Curlew reads the slots of records q to r: poison in them is consumed (R336), and REF is set (R280). -/
def State.readSlots (s : State) (n : SiteId) (q r : Nat) : State :=
  s.curlewReads 5 ((List.range (r + 1 - q)).map (fun i => (s.slotAddr n (q + i), 0x1000)))

/-- The record's own bytes in a slot. -/
def ringRecord (b : List Byte) : List Byte :=
  (b.take 0xFE0).take (0x40 + leNat (slice b 6 2) + 16 * (leNat (slice b 5 1) % 2))

/-- Whether the tag in a slot is that of its record after a tag, under the key of the record's own epoch (R424). -/
def tagHolds (k : KeySlot) (prev : List Byte) (q : Nat) (b : List Byte) : Bool :=
  decide (leNat (slice b 10 2) = k.epoch.toNat) && decide (recordTag k.key prev q (ringRecord b) = b.drop 0xFE0)

/-- Recompute the tags of the listed records from the tag before the first: the first that fails (R424, R430). -/
def State.verifyFrom (s : State) (n : SiteId) (k : KeySlot) (prev : List Byte) : List Nat → Option Nat
  | [] => none
  | q :: more =>
    if tagHolds k prev q (s.slotBytes n q) then s.verifyFrom n k ((s.slotBytes n q).drop 0xFE0) more else some q

/-- How many of the slots of records q onwards, at most `m`, come before the first that Curlew does not reach: one that
meets the key array (R283). -/
def State.slotsReached (s : State) (n : SiteId) (q m : Nat) : Nat :=
  ((List.range m).takeWhile (fun i => !s.meetsKeyArray (s.slotAddr n (q + i)) 0x1000)).length

/-- VERIFY under the key of a slot (R430): in ascending order, up to the first record that fails. A slot that Curlew does not
reach is not read, and the command waits with RING_REFUSED (notes/assumptions/26.md). -/
def State.verifyUnder (s : State) (n : SiteId) (k : Nat) (d : Desc) : Option (Nat × Nat) × State :=
  let m := s.slotsReached n (d.seqFrom - 1) (d.seqTo + 2 - d.seqFrom)
  match s.verifyFrom n (s.keySlot k) ((s.slotBytes n (d.seqFrom - 1)).drop 0xFE0)
      ((List.range (m - 1)).map (fun i => d.seqFrom + i)) with
  | some q => (some (7, q), (s.useSlot k).readSlots n (d.seqFrom - 1) q)
  | none =>
    if d.seqTo + 2 - d.seqFrom ≤ m then (some (1, d.seqTo), (s.useSlot k).readSlots n (d.seqFrom - 1) d.seqTo)
    else (none, (if m = 0 then s.useSlot k else (s.useSlot k).readSlots n (d.seqFrom - 1) (d.seqFrom + m - 2)).cwReq 4 n)

/-- VERIFY (R430): the tenant's key is that of its slot, loaded on demand, for which the command waits (R410,
notes/assumptions/26.md). It does not begin for a site whose tide entries are not applied yet (R502). -/
def State.verify (s : State) (d : Desc) : Option (Nat × Nat) × State :=
  let n : SiteId := BitVec.ofNat 10 d.first
  if d.seqFrom = 0 ∨ d.seqFrom - 1 < s.tail n ∨ s.head n < d.seqTo then (some (8, d.seqFrom), s)
  else if Tide.hasSite s.tide.entries n then (none, s)
  else
    let s1 := if (s.liveSlot n).isSome then s else s.demandKey n
    match s1.liveSlot n with
    | none => (none, s1)
    | some k => s1.verifyUnder n k d

end Sys2Proof.Machine
end

