-- ==== Sys2Proof/Machine/Thermal.lean ====
section
/-! DEFINITION. Calibrated values and the thermal sensors (spec/22 R537, spec/23 R543). -/

namespace Sys2Proof.Machine

/-! ## Calibrated values (R537) -/

/-- A number kept within limits. -/
def clampInt (lo hi x : Int) : Int := max lo (min hi x)

/-- A code from a factory code and a signed user adjustment, saturating at 0 and 2^n - 1 (R537). -/
def effCode (n fact : Nat) (user : Int) : Nat := (clampInt 0 (2 ^ n - 1) (fact + user)).toNat

/-- The low `n` bits of a number from bit `lo`, as a signed number. -/
def sField {w : Nat} (v : BitVec w) (hi lo : Nat) : Int :=
  (BitVec.ofNat (hi + 1 - lo) (bitsOf v hi lo)).toInt

/-- Factory thermal offset of sensor k (Table 22.6). -/
def State.thermFact (s : State) (k : Nat) : Byte := BitVec.ofNat 8 (s.fuseField (0x400 + 16 * k) 8)

/-- Thermal gain of sensor k. -/
def State.thermGain (s : State) (k : Nat) : Byte := BitVec.ofNat 8 (s.fuseField (0x408 + 16 * k) 8)

/-- Effective thermal offset of sensor k, in units of 0.125 °C. -/
def State.thermEff (s : State) (k : Nat) : Int :=
  clampInt (-128) 127 ((s.thermFact k).toInt + sField (s.reg (.g .thermUserOfs)) (8 * k + 7) (8 * k))

/-- Raw reading of sensor k. -/
def thermRaw (t : Therm) (k : Nat) : Int :=
  match k with
  | 0 => t.r0.toInt
  | 1 => t.r1.toInt
  | 2 => t.r2.toInt
  | _ => t.r3.toInt

/-- A reading with an offset, in units of 2^-13 °C (R537). -/
def State.thermRead (s : State) (t : Therm) (k : Nat) (ofs : Int) : Int :=
  thermRaw t k * (1024 + (s.thermGain k).toInt) + ofs * 1024

/-- The hottest effective reading and its sensor, the lowest of equally hot ones. -/
def State.hottest (s : State) (t : Therm) : Int × Nat :=
  ([1, 2, 3] : List Nat).foldl (fun b k => if b.1 < s.thermRead t k (s.thermEff k) then (s.thermRead t k (s.thermEff k), k) else b)
    (s.thermRead t 0 (s.thermEff 0), 0)

/-- TMAX and HOT_ID (Table 2.18): the hottest reading rounded to a whole degree, halves upwards. -/
def State.tmax (s : State) : Option (Int × Nat) :=
  s.elec.therm.map (fun t => (((s.hottest t).1 + 4096) / 8192, (s.hottest t).2))

/-- Set a THERM_STATUS bit, HINT_STATUS.THERM and line 11, where a limit is crossed upwards (R543). -/
def State.thermCross (s : State) (seen : Option Int) (now limit : Int) (k : Nat) : State :=
  let below := match seen with
    | none => true
    | some x => decide (x < limit)
  if below && decide (limit ≤ now) then ((s.orReg (.g .thermStatus) (BitVec.ofNat 32 (2 ^ k))).setHint 19).setLine 11 else s

/-- Compare TMAX with the limits of R543. -/
def State.thermCheck (s : State) : State :=
  match s.tmax with
  | none => s
  | some (t, _) =>
    let s1 := (s.thermCross s.elec.tmaxSeen t 100 16).thermCross s.elec.tmaxSeen t 105 17
    { s1 with elec := { s1.elec with tmaxSeen := some t } }

/-- The sensors take new readings. -/
def State.thermSense (s : State) (t : Therm) : State :=
  if s.inReset then s else ({ s with elec := { s.elec with therm := some t } }).thermCheck

/-- Whether the thermal trip acts on raw readings: the factory calibration alone (R537, R543). -/
def State.tripped (s : State) (t : Therm) : Bool :=
  ([0, 1, 2, 3] : List Nat).any (fun k => decide (120 * 8192 ≤ s.thermRead t k (s.thermFact k).toInt))

end Sys2Proof.Machine
end

