-- ==== Sys2Proof/Machine/Boot.lean ====
section
/-! DEFINITION. Chip resets, the boot ROM, and the start of contexts and cores (spec/18, R433 to R454; R489, R493, R539). -/

namespace Sys2Proof.Machine

/-! ## The causes of Table 18.1 -/

/-- The reset causes, in the bit order of RESET_CAUSE (Table 2.9). -/
inductive Cause where
  | por | pin | swdt | clkloss | brownout | thermtrip | soft | tap
  deriving DecidableEq, Repr

/-- The bit of RESET_CAUSE. -/
def Cause.bit (c : Cause) : Nat :=
  match c with
  | .por => 0
  | .pin => 1
  | .swdt => 2
  | .clkloss => 3
  | .brownout => 4
  | .thermtrip => 5
  | .soft => 6
  | .tap => 7

/-- Whether a cause makes all DRAM pending-zero (Table 18.1). -/
def Cause.zeroes (c : Cause) : Bool :=
  match c with
  | .por | .clkloss | .brownout | .thermtrip => true
  | .pin | .swdt | .soft | .tap => false

/-! ## Starting a context (R447, R453, R454) -/

/-- The CSW a context starts with (R447): FORM of the code pointer, the world, supervisor, UPG. -/
def startCsw (ptr : Word) (w : World) : Word :=
  BitVec.ofNat 64 (bit (bitAt ptr 63) + 2 * bit (decide (w = .secure)) + 4 + 64)

/-- A context started at a code pointer with every register zero (R447, R453, R454). -/
def startedCtx (ptr : Word) (w : World) (occ : Occ) (now : Nat) : Ctx :=
  { pc := ptr.setWidth 48, pcHi := BitVec.ofNat 15 (bitsOf ptr 62 48), csw := startCsw ptr w, occ := occ, heldSince := now }

/-- Start a context; CX_NMI.BLOCK is 1 for a secure start and 0 otherwise, and a pending NMI or halt request stays pending
(R365, R447, R454, R527). -/
def State.startCtx (s : State) (x : CtxId) (ptr : Word) (w : World) (occ : Occ) : State :=
  ((s.setCtx x { startedCtx ptr w occ s.time with
    modes := (s.ctx x).modes + 1
    nmiPend := (s.ctx x).nmiPend, haltReq := (s.ctx x).haltReq }).putBit (cxReg x .nmi) 1
    (decide (w = .secure))).takeNmiWait x

/-! ## Chip reset (R434, R435) -/

/-- Whether an address lies in a vault area that the reset scrub spares. -/
def State.inVaults (s : State) (a : Nat) : Bool :=
  (s.vaultV && decide (s.vaultBase ≤ a) && decide (a < s.vaultBase + 0x20000))
    || (s.stageV && decide (s.stageBase ≤ a) && decide (a < s.stageBase + 0x20000))

/-- Whether a chip reset of a kept cause makes the line of an address pending-zero (R435). -/
def State.scrubbed (s : State) (a : Nat) : Bool :=
  (bitAt (s.reg (.d .secWeirHi)) 31 && decide (a < s.secWeir) && !s.inVaults a) || (s.enclAt a).isSome

/-- Whether a reset of a cause leaves the byte of an address. On-chip SRAM is left to the boot ROM (R434). -/
def State.survives (s : State) (c : Cause) (a : Nat) : Bool :=
  if a < 0x8000000000 then !c.zeroes && !s.scrubbed a else true

/-- The flash work of a busy update engine command when a chip reset ends it (R476). -/
def State.tearUe (s : State) : State :=
  let b := s.ueTarget
  let r := s.forceRec
  match s.ue.busy with
  | none => s
  | some o =>
    match o.op.toNat with
    | 1 => s.writeRecordTorn (recState r b 0)
    | 2 => s.eraseBankTorn b
    | 3 =>
      if o.inBank && s.sourceLeft o then
        State.programPagesTorn (o.len / 256 - o.pages) (s.fresh.1.toNat % (o.len / 256 - o.pages + 1))
          (bankOfs b + o.ofs + 256 * o.pages) (o.src + 256 * o.pages) s.fresh.2
      else s
    | 4 => s.writeRecordTorn (recState r b 1)
    | 5 =>
      match s.verifyBank b with
      | .err _ => s
      | .good m =>
        if bankState r b = 2 then s
        else s.writeRecordTorn (recVerified r b (beBytes 48 m.meas.toNat) (BitVec.ofNat 8 (hdrSvn m.header)))
    | 6 => if o.ok then s.writeRecordTorn (recTrial r b s.stageBase) else s
    | 7 => s.writeRecordTorn (recConfirm r !b)
    | 8 => s.writeRecordTorn (recState r b 5)
    | _ => s.calSaveTorn

/-- The rings whose next descriptor is a command that writes a vault: GENKEY, or KWRAP_STAGED. -/
def State.vaultRings (s : State) : List (BitVec 3 × Desc) :=
  ((List.range 8).map (BitVec.ofNat 3)).filterMap (fun k => (s.nextDesc k).bind (fun d =>
    if !s.badDesc k d && ((decide (d.op = 1) && s.vaultV) || (decide (d.op = 2) && s.ue.stageValid && s.stageV)) then some (k, d)
    else none))

/-- The work of a vault command for the tenants of a list. -/
def State.vaultWork (s : State) (d : Desc) (l : List SiteId) : Option (Nat × Nat) × State :=
  if d.op = 1 then s.genKeys (decide (d.flags = 1)) s.curlew.bbk l else s.kwrapAll s.stagedBbk l

/-- A vault command of a ring that a chip reset cuts short (R476): it has been done for a free number of its tenants, and a free
number of 8-byte words of the next tenant's entry are written, which leaves the vault partial. -/
def State.tearRings (s : State) : State :=
  match s.vaultRings with
  | [] => s
  | p :: rest =>
    let f := s.fresh
    let d := ((p :: rest).getD (f.1.toNat % (rest.length + 1)) p).2
    let n := f.1.toNat / 2 ^ 16 % (d.tenants.length + 1)
    let r := f.2.vaultWork d (d.tenants.take n)
    let base := if d.op = 1 then s.vaultBase else s.stageBase
    match (d.tenants.drop n).head? with
    | none => r.2
    | some t =>
      let a := base + 128 * t.toNat
      if r.1 = some (1, 0) ∧ r.2.vaultReach base t = true then
        r.2.agentWrite a (((r.2.vaultWork d [t]).2.memRead a 128).take (8 * (f.1.toNat / 2 ^ 32 % 16)))
      else r.2

/-- A fuse bit whose pulse was cut short reads 0 or 1 (R529, R531). -/
def State.tearFuse (s : State) (a : Nat) : State :=
  let f := s.fresh
  { f.2 with fuses := smSet f.2.fuses false a (smGet f.2.fuses false a || bitAt f.1 0) }

/-- Abandon the two pulses of an advance of the life cycle (R533): the first is cut short, or it is complete and the second
is. -/
def State.tearAdvance (s : State) (target : Nat) : State :=
  let f := s.fresh
  if bitAt f.1 0 then f.2.tearFuse (2 * target - 2)
  else ({ f.2 with fuses := smSet f.2.fuses false (2 * target - 2) true }).tearFuse (2 * target - 1)

/-- Abandon the fuse pulses in progress (R531, R548). -/
def State.abandonPulses (s : State) : State :=
  let s1 := if s.port.fuse.busy then s.tearFuse s.port.fuse.addr.toNat else s
  let s2 := if s1.fuseCtrl.busy then
      (if s1.fuseCtrl.op = 2 then s1.tearAdvance s1.fuseCtrl.target.toNat else s1.tearFuse s1.fuseCtrl.addr.toNat)
    else s1
  { s2 with port := { s2.port with fuse := { s2.port.fuse with busy := false } }, fuseCtrl := {} }

/-- What a chip reset does to the port (R518, R524): POR alone resets the TAP; a debug access ends ABORTED. -/
def Port.afterReset (p : Port) (c : Cause) : Port :=
  if c = .por then {}
  else if p.dae.pending then { p with dae := { p.dae with pending := false, done := true, result := 9 } } else p

/-- The links after a reset: signal detection goes on, everything else is at its reset value. -/
def resetLinks (m : SMap Link) : SMap Link :=
  m.foldl (fun t e => smSet t {} e.1 (if e.2.signal then { signal := true, state := .training } else {})) []

/-- The contexts after a reset that leaves the TAP alone: the pending halt requests stay (R518, R527). -/
def keepHalts (m : SMap Ctx) : SMap Ctx :=
  m.foldl (fun t e => if e.2.haltReq then smSet t {} e.1 { haltReq := true } else t) []

/-- A chip reset begins (R434, R435): registers return to their reset values but for RESET_CAUSE and SCRATCH1, DRAM is
treated as Table 18.1 states, and the part is held in reset. What lies outside the reset stays: the fuses, the flash, the
port, the clocks and supplies, and the model's own fields. Of causes that come during one reset the most destructive treatment
stands, and DRAM_KEPT shows it (R434). -/
def State.chipReset (s : State) (c : Cause) : State :=
  let t := s.tearUe.tearRings.abandonPulses
  let cause := if c = .por then 1#32 else s.reg (.g .resetCause) ||| BitVec.ofNat 32 (2 ^ c.bit)
  let scratch := if c = .por then 0#32 else s.reg (.g .scratch1)
  let kept := !c.zeroes && (!s.inReset || bitAt (s.reg (.boot .status)) 1)
  let base : State :=
    { dramChans := s.dramChans
      mem := t.mem.filter (fun e => s.survives c e.1), poison := t.poison.filter (fun e => s.survives c e.1)
      flash := t.flash, links := resetLinks s.links
      elec := { s.elec with vid := 30, therm := none, tmaxSeen := none }, ctxs := if c = .por then [] else keepHalts s.ctxs
      port := t.port.afterReset c, fuses := t.fuses, sensed := s.sensed, sortGen := s.sortGen
      arrivals := s.arrivals, sent := s.sent, free := t.free, pending := s.pending }
  ((base.setReg (.g .resetCause) cause).setReg (.g .scratch1) scratch).setReg (.boot .status)
    (BitVec.ofNat 32 (2 * bit kept))

/-- Whether the port holds a TAP chip reset: EXTEST, CLAMP or HIGHZ is the current instruction (R522). -/
def Port.holdsReset (p : Port) : Bool :=
  match p.ir with
  | .extest | .clamp | .highz => true
  | _ => false

/-! ## Phases and errors -/

/-- BOOT_STATUS.PHASE. -/
def State.bootPhase (s : State) : Nat := bitsOf (s.reg (.g .bootStatus)) 3 0

/-- Change BOOT_STATUS.PHASE; a change sets HINT_STATUS.BOOT (R443). -/
def State.setPhase (s : State) (p : Nat) : State :=
  if s.bootPhase = p then s else (s.setReg (.g .bootStatus) (setBits (s.reg (.g .bootStatus)) 3 0 p)).setHint 2

/-- Set BOOT_STATUS.ERROR unless an earlier code is set (R445). -/
def State.bootErr (s : State) (code : Nat) : State :=
  let v := s.reg (.g .bootStatus)
  if bitsOf v 23 16 = 0 then s.setReg (.g .bootStatus) (setBits v 23 16 code) else s

/-- BC_STEP. -/
def State.bootStep (s : State) (n : Nat) : State := s.setReg (.boot .step) (BitVec.ofNat 32 n)

/-- Change the ROM's place. -/
def State.setBoot (s : State) (f : Boot → Boot) : State := { s with boot := f s.boot }

/-- A failure that halts boot (R443): the boot core stops, and only the maintenance port serves the part. -/
def State.bootHalt (s : State) (code : Nat) : State :=
  (((s.bootErr code).setPhase 0xF).setBoot (fun b => { b with phase := .off })).upCtx bootCtx (fun c => { c with stopped := true })

/-- The life-cycle states in which the debug hold of R448 applies: OWNER and SEALED. -/
def State.holdsDebug (s : State) : Bool := decide (s.lcState = 2) || decide (s.lcState = 3)

/-- The ceilings of DBG_EN (Table 16.9). -/
def State.dbgCeil (s : State) : Nat := if s.lcState = 3 then 3 else 15

/-- DBG_EN as it reads (Table 16.8). The stored bits are the enables that a write has cleared, so that every enable is at
its ceiling after a reset. -/
def State.dbgEn (s : State) : Word32 :=
  BitVec.ofNat 32 (((BitVec.ofNat 4 s.dbgCeil) &&& ~~~((s.reg (.d .dbgEn)).setWidth 4)).toNat + s.dbgCeil * 256)

/-- The ROM's first address (R436). -/
def romFirst : Nat := 0xFFFFF00000

/-- Rails that are outside their windows (R547): DROOP, HINT_STATUS.VMON and line 12. -/
def State.noteDroop (s : State) (rails : BitVec 6) : State :=
  if rails = 0 then s
  else ((s.orReg (.g .vmonStatus) (BitVec.ofNat 32 (rails.toNat * 65536))).setHint 20).setLine 12

/-- The internal reset ends (R436, R437): fuses are sensed, straps sampled, and the boot core's context starts at the ROM,
which shows PHASE ROM and its step 1 (R443).
A sense with VDD_FUSE outside its window fails (R548). Nothing happens while REFCLK is not stable, PORST_N or RESET_N is
asserted, or the port holds the reset (R433). -/
def State.endInternalReset (s : State) (bmode : BitVec 3) : State :=
  if !s.inReset || !s.elec.refclkOk || s.port.holdsReset || s.elec.porst || s.elec.resetN then s
  else
    let bad := bitAt s.elec.railOut 5
    let s1 : State := { s with
      inReset := false, time := 0, sensed := if bad then s.sensed else s.fuses, elec := { s.elec with pllLock := 0xF }
      port := { s.port with sensed := s.port.sensed || !bad }
      boot := { phase := .ready, bmode := bmode } }
    let lock := decide (s1.fuseField 0x240 1 = 1)
    let st := s1.reg (.boot .status)
    let s2 := s1.setReg (.boot .status)
      (setBits (setBit (setBit st 4 (!lock)) 3 s1.holdsDebug) 10 8 bmode.toNat)
    let s3 := s2.noteDroop s.elec.railOut
    let s4 := (s3.startCtx bootCtx (BitVec.ofNat 64 romFirst) .secure .monitor).setCore 16 { state := .running }
    if bad then s4.bootHalt 0xF2 else (s4.setPhase 1).bootStep 1

/-! ## The mailbox's device side (R54) -/

/-- Open the mailbox with a CODE. -/
def State.openMbx (s : State) (code : Nat) : State :=
  { s.setReg (.g .mbxStatus) (setBits (s.reg (.g .mbxStatus)) 15 8 code) with mbxOpen := true }

/-- Post a reply as the device side: the buffer, in whole words (R337), CODE, D2H_LEN and D2H_FULL. -/
def State.postReply (s : State) (code : Nat) (bs : List Byte) : State :=
  let v := setBits (setBits (s.reg (.g .mbxStatus)) 15 8 code) 31 16 bs.length
  { s.setReg (.g .mbxStatus) v with
    d2h := (bs.zipIdx).foldl (fun m p => smSet m 0 p.2 p.1) s.d2h
    mbxPoison := s.mbxPoison.filter (fun e => !(decide (4096 ≤ e.1) && decide (e.1 < 4096 + (bs.length + 7) / 8)))
    d2hFull := true }

/-- The ROM's REPLY of a result code; while the host holds an earlier one it waits, behind those that wait already. -/
def State.bootReply (s : State) (code : Nat) : State :=
  if s.d2hFull then s.setBoot (fun b => { b with replyDue := b.replyDue ++ [BitVec.ofNat 8 code] })
  else s.postReply 5 [BitVec.ofNat 8 code]

/-- The reply that has waited longest is posted once the buffer is free. -/
def State.replyNow (s : State) : State :=
  match s.boot.replyDue with
  | [] => s
  | c :: rest => if s.d2hFull then s else (s.setBoot (fun b => { b with replyDue := rest })).postReply 5 [c]

/-! ## The decision on a patch (R489) -/

/-- Word k of a measurement as the MEAS registers show it (Table 18.6). -/
def measWord (m : BitVec 384) (k : Nat) : Word32 := BitVec.ofNat 32 (leNat (slice (beBytes 48 m.toNat) (4 * k) 4))

/-- Write a measurement to twelve registers. -/
def State.setMeas (s : State) (r : Fin 12 → Reg) (m : BitVec 384) : State :=
  (List.range 12).foldl (fun s i => s.setReg (r (Fin.ofNat 12 i)) (measWord m i)) s

/-- The stepping and the ROM microcode level of B0 (Table 20.7). -/
def stepping : Nat := 0x0B00
/-- The ROM microcode level. -/
def romLevel : Nat := 0x0102

/-- Whether the ROM passes over every further patch: one has been applied in this boot (R489), or patching is disabled until the
next chip reset (R492). -/
def State.patchShut (s : State) : Bool := s.boot.patchDone || bitAt (s.reg (.d .ucStatus)) 17

/-- The ROM's decision on a patch image it has loaded (R489). -/
def State.decidePatch (s : State) (img : List Byte) : State :=
  let p := (loadedBytes img).drop 128
  let s1 := s.setBoot (fun b => { b with patchSeen := true })
  if s1.patchShut then s1
  else if !(decide (hdrField img 0x20 2 ≤ stepping) && decide (stepping ≤ hdrField img 0x22 2)
      && decide (hdrField img 0x24 2 ≤ romLevel) && decide (romLevel ≤ hdrField img 0x26 2)) then s1
  else if !patchGood (img.take 128) p then s1.bootErr 0x40
  else if s1.boot.patchBad ≠ 0 then
    (((s1.setBoot (fun b => { b with patchBad := b.patchBad - 1 })).storePatch p).dropHooks).bootErr 0x41
  else
    let s2 := (s1.storePatch p).setBoot (fun b => { b with patchDone := true })
    let v := s2.reg (.d .ucStatus)
    ((((s2.setReg (.d .ucStatus) (setBits (setBit v 16 true) 30 24 (patchH p))).setReg (.d .ucPatchId)
      (BitVec.ofNat 32 (patchWord p 0))).setReg (.d .ucCounts) (BitVec.ofNat 32 (patchM p + patchN p * 65536)))).setMeas
      (fun k => .d (.ucPatchMeas k)) (measure img)

/-! ## Loading an image set (R441, R442) -/

/-- How far a load has come. -/
inductive LoadRes where
  | ok
  /-- the stream has not delivered the next bytes -/
  | more
  /-- the load range lies in DRAM, whose training has not ended -/
  | training
  | fail (code : Nat)
  | mon (m : MonImage)
  deriving DecidableEq, Repr

/-- The ROM reads `n` bytes at an address, where its source is cached (R449): the words of it that the command under way finds
uncorrectable are recorded. The line is clean, so the ROM reads the flash's bytes again (R442, notes/assumptions/67.md). -/
def State.romMeets (s : State) (at' : Option Nat) (n : Nat) : State :=
  match at' with
  | none => s
  | some b => (s.upset.filter (fun e => decide (e.1 < b + n) && decide (b < e.1 + 8))).foldl (fun s e => s.meet e.1 0 1) s

/-- Copy `n` blocks to a destination, each after its check (R442). A source gives the same bytes at every reading, so a
wrong block fails the four readings. `at'` is where a cached source holds them. -/
def State.loadBlocks (block : Nat) (complete : Bool) : Nat → State → Option Nat → Nat → Nat → List Byte → LoadRes × State
  | 0, s, _, _, _, _ => (.ok, s)
  | n + 1, s, at', dest, left, bs =>
    let m := min block left
    if bs.length < m + 4 then (if complete then .fail 3 else .more, s)
    else
      let t := s.romMeets at' (m + 4)
      if (crc32c (bs.take m)).toNat ≠ leNat (slice bs m 4) then (.fail 4, t)
      else State.loadBlocks block complete n (t.memWrite dest (bs.take m)) (at'.map (· + (m + 4))) (dest + m) (left - m) (bs.drop (m + 4))

/-- Where the ROM loads an image: LOAD, or its work area for a patch (R489). -/
def loadDest (h : List Byte) : Nat := if hdrType h = 3 then 0xF0007C0000 else hdrLoad h

/-- The check of the load range (R442 step 2). -/
def State.loadRange (s : State) (h : List Byte) : LoadRes :=
  let d := loadDest h
  let e := d + 128 + hdrLen h
  if hdrType h = 3 then (if e ≤ 0xF000800000 then .ok else .fail 5)
  else if d < 0x8000000000 then
    if !s.boot.trained then .training else if e ≤ s.dramSize then .ok else .fail 5
  else if 0xF000000000 ≤ d ∧ e ≤ 0xF0007C0000 then .ok else .fail 5

/-- The images before an offset of the source have been read, and the patches among them decided on (R441). -/
def State.scannedTo (s : State) (o : Nat) : State := s.setBoot (fun b => { b with scanned := o })

/-- Read the images of a source in order from offset `o` (R441, R459): `bs` are its bytes, `complete` says that no more
follow, and `win` is where a cached source holds them. -/
def State.scanSet (win : Option Nat) (complete : Bool) (bs : List Byte) : Nat → State → Nat → LoadRes × State
  | 0, s, _ => (.fail 2, s)
  | fuel + 1, s0, o =>
    let rest := bs.drop o
    let s := (s0.scannedTo o).romMeets (win.map (· + o)) (min rest.length (if endMark (rest.take 16) then 16 else 128))
    if 2 ^ 26 ≤ o then (.fail 2, s)
    else if rest.length < 16 then (if !complete then .more else if rest.isEmpty then .fail 2 else .fail 3, s)
    else if endMark (rest.take 16) then (.fail 2, s)
    else if rest.length < 128 then (if complete then .fail 3 else .more, s)
    else
      let h := rest.take 128
      if !hdrParses h then (.fail 3, s)
      else if hdrType h = 2 ∨ hdrType h = 4 then State.scanSet win complete bs fuel s (nextImage o h)
      else
        match s.loadRange h with
        | .ok =>
          let r := State.loadBlocks (hdrBlock h) complete (hdrBlocks h) (s.memWrite (loadDest h) h)
            (win.map (· + (o + 128))) (loadDest h + 128) (hdrLen h) (rest.drop 128)
          match r.1 with
          | .ok =>
            let img := rest.take (imageSize h)
            if hdrType h = 3 then State.scanSet win complete bs fuel (r.2.decidePatch img) (nextImage o h)
            else (.mon { header := h, meas := measure img }, r.2)
          | x => (x, r.2)
        | x => (x, s)

/-- Load the set of a source, from the first image that it has not read yet: a patch is decided on once (R441, R489). -/
def State.loadSet (s : State) (win : Option Nat) (complete : Bool) (bs : List Byte) : LoadRes × State :=
  State.scanSet win complete bs (bs.length / 16 + 2) s s.boot.scanned

/-! ## The sources (R437-R440, R468) -/

/-- Whether the ROM boots in listed mode (R437). -/
def State.listed (s : State) : Bool :=
  decide (s.fuseField 0x240 1 = 1) || decide (s.boot.bmode = 0) || decide (5 ≤ s.boot.bmode.toNat)

/-- The sources of the mode, as KIND and PARAM (R437, R439). -/
def State.bootEntries (s : State) : List (Nat × Nat) :=
  if s.listed then
    let l := s.fuseField 0x200 64
    if l = 0 then [(1, 0), (2, 0), (3, 0)]
    else (List.range 8).map (fun k => (l / 2 ^ (8 * k) % 16, l / 2 ^ (8 * k + 4) % 16))
  else [(s.boot.bmode.toNat, 0)]

/-- The KIND of the source under way. -/
def State.bootKind (s : State) : Nat :=
  match s.bootEntries[s.boot.entry]? with
  | none => 0
  | some e => e.1

/-- Record the result of the entry under way in BC_SRC_RESULT (Table 18.6). -/
def State.srcResult (s : State) (code : Nat) : State :=
  s.orReg (.boot .srcResult) (BitVec.ofNat 32 (code * 2 ^ (4 * s.boot.entry)))

/-- The bank that the ROM tries first (R468). -/
def firstBank (r : List Byte) : Option Bool :=
  let a := bankState r false
  let b := bankState r true
  if a = 3 ∧ 0 < recTries r then some false
  else if b = 3 ∧ 0 < recTries r then some true
  else if a = 4 ∧ b ≠ 4 then some false
  else if b = 4 ∧ a ≠ 4 then some true
  else if a = 4 ∧ b = 4 then some (recCur r)
  else none

/-- Take a bank for loading; a TRIAL bank is decremented before any byte of its image is read (R468). -/
def State.takeBank (s : State) (b second : Bool) : State :=
  (if bankState s.forceRec b = 3 then s.decTries else s).setBoot
    (fun x => { x with bank := b, second := second, probed := true, scanned := 0 })

/-- Change UPD_STATUS; every change sets HINT_STATUS.UPD (R470). -/
def State.setUpd (s : State) (v : Word32) : State :=
  if s.reg (.g .updStatus) = v then s else (s.setReg (.g .updStatus) v).setHint 5

/-- UPD_STATUS after the choice of a bank (R468): `tried` is the bank booted, or the last one tried. -/
def State.updAfterBoot (s : State) (tried : Bool) (booted : Bool) : State :=
  let r := s.forceRec
  let a := bankState r false
  let b := bankState r true
  let trial := decide (a = 3) || decide (b = 3)
  s.setUpd (BitVec.ofNat 32 (a + b * 16 + bit tried * 256
    + (if trial then recTries r else 0) * 512 + (if booted ∧ bankState r tried = 3 then 4 else 0) * 4096))

/-- A monitor was loaded from an in-package bank (R468). -/
def State.bankBooted (s : State) (b : Bool) : State :=
  let r := s.forceRec
  let s1 := (s.updAfterBoot b true).setBoot (fun x => { x with booted := some b, src := bit b })
  let v := s1.reg (.g .bootStatus)
  if bankState r b = 3 then s1.setReg (.g .bootStatus) (setBit v 13 true)
  else if bankState r (!b) = 3 then s1.setReg (.g .bootStatus) (setBit v 14 true) else s1

/-- Load the bank in hand, and then the other where R468 allows. -/
def State.loadBanks (s : State) : LoadRes × State :=
  let one := fun s : State =>
    s.loadSet (some (0xF200000000 + bankOfs s.boot.bank)) true (s.flashRead (bankOfs s.boot.bank) bankSize)
  let r := one s
  match r.1 with
  | .mon m => (.mon m, r.2.bankBooted r.2.boot.bank)
  | .fail c =>
    let other := !r.2.boot.bank
    let st := bankState r.2.forceRec other
    if !r.2.boot.second ∧ (st = 4 ∨ (st = 3 ∧ 0 < recTries r.2.forceRec)) then
      let r2 := one (r.2.takeBank other true)
      match r2.1 with
      | .mon m => (.mon m, r2.2.bankBooted other)
      | .fail c2 => (.fail c2, r2.2.updAfterBoot other false)
      | x => (x, r2.2)
    else (.fail c, r.2.updAfterBoot r.2.boot.bank false)
  | x => (x, r.2)

/-- The in-package flash as a source (R440, R468). -/
def State.tryFlash (s : State) : LoadRes × State :=
  if s.boot.probed then s.loadBanks
  else match s.inForce with
    | none => (.fail 2, s.bootErr 0x70)
    | some _ =>
      match firstBank s.forceRec with
      | none => (.fail 2, s.showJournal.updAfterBoot false false)
      | some b => (s.showJournal.takeBank b false).loadBanks

/-- A stream source: the load of what has come, ended by BOOT_END or by a message or frame of another type (R440). -/
def State.tryStream (s : State) : LoadRes × State :=
  let r := s.loadSet none s.boot.streamEnd s.boot.stream
  match r.1 with
  | .mon m => if s.boot.streamBad then (.fail 3, r.2) else if s.boot.streamEnd then (.mon m, r.2) else (.more, r.2)
  | .more => (if s.boot.streamBad then .fail 3 else .more, r.2)
  | x => (x, r.2)

/-- No stream has begun. -/
def Boot.clearStream (b : Boot) : Boot :=
  { b with stream := [], streamEnd := false, streamBad := false, began := false, scanned := 0 }

/-- Try the source under way: probe it where it has not been probed, then load (R440). -/
def State.trySource (s : State) (kind par : Nat) : LoadRes × State :=
  match kind with
  | 1 => s.tryFlash
  | 2 =>
    match s.boot.nor with
    | none => (.fail 2, s)
    | some bs => (s.setBoot (fun b => { b with src := 2 })).loadSet none true (bs.drop (par * 2 ^ 20))
  | 3 =>
    let s1 := if s.boot.probed then s
      else (s.openMbx 1).setBoot (fun b => { b.clearStream with probed := true, src := 3 })
    s1.tryStream
  | 4 =>
    let s1 := if s.boot.probed then s
      else ((s.putBit (.link 0 .ctrl) 0 true).linkCtrlWritten 0 (s.reg (.link 0 .ctrl))).setBoot (fun b => { b with
        probed := true, src := 4, stream := [], streamEnd := false, streamBad := false, began := false, scanned := 0, cl0 := true, cl0Data := true })
    s1.tryStream
  | _ => (.fail 7, s)

/-- Enter recovery (R446). What boots from here on comes through the mailbox, and no bank is the one booted. -/
def State.recovery (s : State) : State :=
  ((s.setPhase 0xE).openMbx 2).setBoot (fun b => { b.clearStream with
    phase := .recovery, mon := none, booted := none, cl0Data := false })

/-! ## Steps 6 to 11 (R443) -/

/-- The microseconds since the internal reset ended (Table 18.6). -/
def State.elapsedUs (s : State) : Word32 := BitVec.ofNat 32 (s.time / 1000)

/-- Steps 10 and 11: the records, the zeroed work area, the ROM lock and the jump (R443, R447). -/
def State.romJump (s : State) (m : MonImage) (ver : Nat) : State :=
  let e := hdrEntry m.header
  let s1 := (s.bootStep 10).showJournal
  let s2 := s1.setReg (.g .bootSrcUsed) (BitVec.ofNat 32 (s.boot.src + s.boot.entry * 16 + bit s.listed * 256))
  let s3 := (s2.setMeas (fun k => .boot (.monMeas k)) m.meas).setReg (.boot .monSvn)
    (BitVec.ofNat 32 (hdrSvn m.header + ver * 65536))
  let s4 := ((s3.setReg (.boot .monEntryLo) (BitVec.ofNat 32 (e % 2 ^ 32))).setReg (.boot .monEntryHi)
    (BitVec.ofNat 32 (e / 2 ^ 32))).setReg (.boot .elapsed) s.elapsedUs
  let keeps := fun (a : Nat) => decide (a < 0xF0007C0000) || decide (0xF000800000 ≤ a)
  let s5 := { s4 with mem := s4.mem.filter (fun c => keeps c.1), poison := s4.poison.filter (fun c => keeps c.1) }
  let s6 := ((s5.bootStep 11).setReg (.boot .romLock) 1).setPhase 3
  (s6.lockRom.startCtx bootCtx (BitVec.ofNat 64 e) .secure .monitor).setBoot (fun b => { b with phase := .off })

/-- RNG_STATUS.READY (R414). -/
def State.rngReady (s : State) : Bool := s.drbg.instantiated

/-- The VER of a monitor (R404). -/
def State.monVer (s : State) (m : MonImage) : Nat := verOf (hdrSvn m.header) s.floorCount

/-- Step 8 writes DRAM_STATUS (R443): from here on it shows what training found. -/
def State.writeDram (s : State) : State :=
  let s1 := s.setBoot (fun b => { b with dramHeld := false })
  if s.boot.dramHeld ∧ bitsOf (s.reg (.g .dramStatus)) 11 8 ≠ 0 then s1.setHint 22 else s1

/-- Steps 8 and 9, and then the jump (R443). -/
def State.finishMon (s : State) (m : MonImage) : State :=
  let s1 := s.bootStep 8
  if !s1.boot.trained then s1.setBoot (fun b => { b with phase := .train, mon := some m })
  else
    let s2 := s1.writeDram.bootStep 9
    if hdrField m.header 7 1 % 2 = 1 then
      let s3 := s2.setReg (.g .bootStatus) (setBit (s2.reg (.g .bootStatus)) 11 true)
      if s3.rngReady then s3.romJump m (s.monVer m)
      else s3.setBoot (fun b => { b with phase := .rng, mon := some m })
    else s2.romJump m (s.monVer m)

/-- Steps 6 and 7 for a monitor that a source has delivered (R443, R489, R493, R404). -/
def State.pairMon (s : State) (m : MonImage) : State :=
  let s0 := s.bootStep 6
  let v := s0.reg (.g .bootStatus)
  let s1 := if s0.boot.patchSeen && !s0.boot.patchDone then s0.setReg (.g .bootStatus) (setBit v 8 true) else s0
  let inRange := decide (hdrField m.header 0x20 2 ≤ stepping) && decide (stepping ≤ hdrField m.header 0x22 2)
  if !inRange && decide (s1.fuseField 0x241 1 = 1) then (s1.bootErr 0x11).recovery
  else
    let s2 := if inRange then s1 else s1.setReg (.g .bootStatus) (setBit (s1.reg (.g .bootStatus)) 9 true)
    let s3 := s2.bootStep 7
    let ver := s3.monVer m
    let bbk := deriveBbk s3.curlew.sr s3.lcState (beBytes 48 m.meas.toNat) ver
    let s4 := { s3 with curlew := { s3.curlew with bbk := bbk, bbkValid := true, belowFloor := decide (ver = 0xFFFF) } }
    let s5 := if ver = 0xFFFF then s4.setReg (.g .bootStatus) (setBit (s4.reg (.g .bootStatus)) 10 true) else s4
    s5.finishMon m

/-- Whether a load waits for the training of DRAM (R442): the ROM reads no more of its source meanwhile. -/
def LoadRes.waits (r : LoadRes) : Bool :=
  match r with
  | .training => true
  | _ => false

/-- Note whether the load under way waits for training. -/
def State.noteWait (r : LoadRes × State) : State := r.2.setBoot (fun b => { b with waitTrain := r.1.waits })

/-- What a source's end does beside its result: a mailbox stream is answered, a CL0 stream is no longer taken (R440). -/
def State.endSource (s : State) (code : Nat) : State :=
  let s1 := if s.bootKind = 3 then s.bootReply code else s
  (s1.srcResult code).setBoot (fun b => { b with cl0Data := false })

/-- Run the sources from the one under way (R443 step 5), stopping where one waits. -/
def State.runSources : Nat → State → State
  | 0, s => s
  | fuel + 1, s =>
    match s.bootEntries[s.boot.entry]? with
    | none => (s.bootErr 0x10).recovery
    | some (0, _) => (s.bootErr 0x10).recovery
    | some (kind, par) =>
      let r := s.trySource kind par
      match r.1 with
      | .mon m => (r.2.endSource 1).pairMon m
      | .fail c =>
        State.runSources fuel ((r.2.endSource c).setBoot (fun b => { b with
          entry := b.entry + 1, probed := false, second := false, scanned := 0 }))
      | _ => State.noteWait r

/-- The source under way fails with a code (R440). -/
def State.failSource (s : State) (c : Nat) : State :=
  State.runSources 9 ((s.endSource c).setBoot (fun b => { b with
    entry := b.entry + 1, probed := false, second := false, scanned := 0 }))

/-- The result of a load in recovery stands in BC_SRC_RESULT as that of entry 0, which BOOT_SRC_USED then names (R443 step 5,
R446, notes/assumptions/75.md). -/
def State.recoveryResult (s : State) (code : Nat) : State :=
  s.setReg (.boot .srcResult) (setBits (s.reg (.boot .srcResult)) 3 0 code)

/-- A load in recovery (R446): the stream is loaded and treated from step 5 onwards as the host mailbox source. -/
def State.recoveryLoad (s : State) : State :=
  let r := s.tryStream
  match r.1 with
  | .mon m =>
    ((((r.2.bootStep 5).setBoot (fun b => { b with src := 3, entry := 0 })).recoveryResult 1).bootReply 1).pairMon m
  | .fail c => ((r.2.setBoot Boot.clearStream).recoveryResult c).bootReply c
  | _ => State.noteWait r

/-- Go on from where the ROM waits, as far as it can. -/
def State.bootGo (s : State) : State :=
  match s.boot.phase with
  | .source => State.runSources 9 s
  | .train =>
    match s.boot.mon with
    | none => s
    | some m => if s.boot.trained then s.finishMon m else s
  | .rng =>
    match s.boot.mon with
    | none => s
    | some m => if s.rngReady then s.romJump m (s.monVer m) else s
  | .recovery => if s.boot.stream.isEmpty && !s.boot.streamEnd then s else s.recoveryLoad
  | .off => s
  | .ready => s

/-! ## Steps 1 to 5 -/

/-- The user calibration values of a valid calibration half, written before training (R539). The LB_EQ values are
committed as a tide with no pause. -/
def State.loadCal (s : State) : State :=
  match s.calRec with
  | none => s
  | some c =>
    let s1 := (((s.setReg (.g .thermUserOfs) c.therm).setReg (.g .drvUserAdj) (c.drv &&& 0xFFFF)).setReg (.d .calVmonUser)
      c.vmon).setReg (.d .calHostDly) c.dly
    ((List.range 64).foldl (fun s k => s.setReg (.link (BitVec.ofNat 6 k) .eq) (c.eq.getD k 0)) s1).tideDone.thermCheck

/-- Steps 1 to 5 of the boot ROM (R443). `sramOk` and `romOk` are the outcomes of the SRAM initialisation and of the
double-read check; `badPatches` of the patches that it writes first read back wrong (R489); `nor` is what the external
serial NOR holds, none where no valid device answers. -/
def State.runRom (s : State) (sramOk romOk : Bool) (badPatches : Nat) (nor : Option (List Byte)) : State :=
  if s.boot.phase ≠ .ready then s
  else
    let s1 := (s.setPhase 1).bootStep 1
    if !sramOk then s1.bootHalt 0xF1
    else
      let sram := fun a : Nat => decide (0xF000000000 ≤ a) && decide (a < 0xF000800000)
      let s2 := { s1 with mem := s1.mem.filter (fun e => !sram e.1), poison := s1.poison.filter (fun e => !sram e.1) }
      let s3 := s2.loadCal.bootStep 2
      if !romOk then s3.bootHalt 0xF0
      else
        let s4 := s3.bootStep 3
        let sr := deriveSr (BitVec.ofNat 256 (s4.fuseField 0x100 256)) s4.lcState s4.uidBytes
        let s5 := { s4 with curlew := { s4.curlew with sr := sr, drkOff := true } }
        let s6 := (s5.setPhase 2).bootStep 5
        State.runSources 9 (s6.setBoot (fun b => { b with phase := .source, nor := nor, entry := 0, probed := false, scanned := 0, patchBad := badPatches }))

/-! ## Training (R444) -/

/-- Whether the ROM reuses stored training data for channel k (R444). -/
def State.reuses (s : State) (k : Nat) (c : Channel) : Bool :=
  c.verifies && decide (s.fuseField 0x242 1 = 0) && (match s.calRec with
    | none => false
    | some r => decide (r.uid = s.uid) && (match r.chans.getD k none with
      | none => false
      | some e => decide (e.1 = c.serial)))

/-- Where the frame of a DRAM address dealt over the channels `old` lies once the trained channels are `new`, each used up to
`cap` bytes (R30): the same channel and offset; none where that channel did not train or the offset is not used. An address
outside DRAM stays. -/
def redealt (old new : List Nat) (cap a : Nat) : Option Nat :=
  let g := a / 4096
  if 0x8000000000 ≤ a then some a
  else match old[g % old.length]? with
    | none => none
    | some k =>
      if new.contains k && decide (g / old.length * 4096 < cap) then
        some ((g / old.length * new.length + new.idxOf k) * 4096 + a % 4096)
      else none

/-- The entries of a map by address after the trained channels have changed. -/
def redeal {β : Type} [DecidableEq β] (m : SMap β) (d : β) (old new : List Nat) (cap : Nat) : SMap β :=
  m.foldl (fun t e => match redealt old new cap e.1 with
    | none => t
    | some a => smSet t d a e.2) []

/-- DRAM that was kept over a reset is dealt out over the channels that have trained now, each used up to `cap` bytes (R30):
what lies on a channel that did not train, or beyond `cap`, is lost (notes/assumptions/4.md). -/
def State.dealDram (s : State) (new : List Nat) (cap : Nat) : State :=
  let used := fun (a : Nat) => decide (0x8000000000 ≤ a) || decide (a < new.length * cap)
  if new = s.dramChans then { s with mem := s.mem.filter (fun e => used e.1), poison := s.poison.filter (fun e => used e.1) }
  else { s with
    mem := redeal s.mem 0 s.dramChans new cap, poison := redeal s.poison false s.dramChans new cap, dramChans := new }

/-- The trained values of a channel (R444, R475): the stored ones where they are reused, else what training finds, which is
free. -/
def State.phyValue (s : State) (k : Nat) (c : Channel) : Word :=
  match s.calRec with
  | some r =>
    match r.chans.getD k none with
    | some e => if s.reuses k c then e.2 else Config.freeWord (s.free + k)
    | none => Config.freeWord (s.free + k)
  | none => Config.freeWord (s.free + k)

/-- DRAM training has ended on every channel (R444): BC_TRAIN, TRAIN_REUSED, the errors, and the installed layout of R30, which
DRAM_STATUS shows from step 8 on. The ROM goes on where it waited. -/
def State.endTraining (s : State) (chs : List Channel) : State :=
  if s.boot.trained || !s.curlew.drkOff then s
  else
    let cs := chs.take 4
    let at' := fun (f : Nat → Channel → Bool) => sumNat (cs.zipIdx.map (fun p => if f p.2 p.1 then 2 ^ p.2 else 0))
    let ok := fun (k : Nat) (c : Channel) => c.present && (s.reuses k c || c.passes)
    let good := cs.zipIdx.filter (fun p => ok p.2 p.1)
    let n := good.length
    let cap := good.foldl (fun m p => min m p.1.gib.toNat) (min 255 (if n = 0 then 0 else 512 / n))
    let fail := at' (fun k c => c.present && !ok k c)
    let reused := at' (fun k c => c.present && s.reuses k c)
    let trained := at' ok
    let s1 := (s.dealDram (good.map (·.2)) (cap * 2 ^ 30)).setReg (.g .dramStatus)
      (BitVec.ofNat 32 (at' (fun _ c => c.present) + trained * 16 + fail * 256 + cap * 65536))
    let s3 := s1.setReg (.boot .train) (BitVec.ofNat 32 (reused + at' (fun k c => ok k c && !s.reuses k c) * 16))
    let s4 := if n ≠ 0 ∧ reused = trained then s3.setReg (.g .bootStatus) (setBit (s3.reg (.g .bootStatus)) 12 true) else s3
    let s5 := if n = 0 then s4.bootErr 0x21 else if fail ≠ 0 then s4.bootErr 0x20 else s4
    let s6 := { s5 with free := s5.free + 4 }.setBoot (fun b => { b with
      trained := true, dramHeld := true, waitTrain := false, serials := good.map (fun (p : Channel × Nat) => (p.2, p.1.serial))
      phy := good.map (fun (p : Channel × Nat) => (p.2, s.phyValue p.2 p.1)) })
    s6.bootGo

/-! ## Mailbox messages for the ROM (R440, R446) -/

/-- H2D_TYPE. -/
def State.h2dType (s : State) : Nat := bitsOf (s.reg (.g .mbxCtrl)) 31 24

/-- The bytes of the posted message. -/
def State.h2dBytes (s : State) : List Byte :=
  (List.range (bitsOf (s.reg (.g .mbxCtrl)) 15 0)).map (fun i => smGet s.h2d 0 i)

/-- What the ROM finds as it reads word w of the posted message, of the words listed: the first that names it. -/
def wordFound (words : List (BitVec 12 × WordFound)) (w : Nat) : WordFound :=
  match words.find? (fun e => decide (e.1.toNat = w)) with
  | none => .good
  | some e => e.2

/-- The ROM reads word w of the posted message (R335, R336): a poisoned word is consumed, and the first detection is recorded
as the boot core's (notes/assumptions/67.md). -/
def State.romWord (words : List (BitVec 12 × WordFound)) (s : State) (w : Nat) : State :=
  if smGet s.mbxPoison false w then s.bumpSat (.d .integPoisonUse) 1
  else match wordFound words w with
    | .good => s
    | .corrected => s.bumpSat (.d .integCeSram) 1
    | .uncorrectable => s.mbxFound 5 1 (8 * w)

/-- The ROM reads the posted message. -/
def State.romReads (s : State) (words : List (BitVec 12 × WordFound)) : State :=
  (List.range ((bitsOf (s.reg (.g .mbxCtrl)) 15 0 + 7) / 8)).foldl (State.romWord words) s

/-- Whether the host mailbox is the source under way, or the ROM is in recovery. -/
def State.romServes (s : State) : Bool :=
  match s.boot.phase with
  | .source => decide (s.bootKind = 3) && s.boot.probed
  | .recovery => true
  | _ => false

/-- Take a message into the stream by its type (R440). -/
def Boot.message (b : Boot) (type : Nat) (bs : List Byte) : Boot :=
  if type = 0x10 then { b with began := true, stream := b.stream ++ bs }
  else if type = 0x11 then { b with began := true, streamEnd := true }
  else { b with began := true, streamBad := true }

/-- The device side consumes the posted message (R54): the ROM takes it into its stream, answers it, or resets (R440,
R446), but not while a load waits for training (R442); the monitor's own use of a message is the monitor's. -/
def State.consume (s : State) (words : List (BitVec 12 × WordFound)) : State :=
  if !s.h2dFull || (s.romServes && s.boot.waitTrain) then s
  else
    let s0 := { s with h2dFull := false }
    let s1 := if s.romServes ∧ s.h2dType = 0x10 then s0.romReads words else s0
    if !s.romServes then s1
    else if s.boot.phase = .recovery ∧ s.h2dType = 0x12 then s1.chipReset .soft
    else if s.boot.phase = .recovery ∧ s.boot.stream.isEmpty ∧ s.h2dType ≠ 0x10 ∧ s.h2dType ≠ 0x11 then s1.bootReply 3
    else (s1.setBoot (fun b => b.message s.h2dType s1.h2dBytes)).bootGo

/-- Consume a message of one type for the ROM. -/
def State.consumeType (s : State) (type : Nat) (words : List (BitVec 12 × WordFound)) : State :=
  if s.romServes ∧ s.h2dType = type then s.consume words else s

/-- Whether a stream has begun, and the ROM waits for more of it. -/
def Boot.streamBegan (b : Boot) : Bool := b.began

/-- A stream source gives no data in its time (R440): it fails with TIMEOUT. A first message is awaited without limit where
PARAM is 0. -/
def State.sourceTimeout (s : State) : State :=
  match s.boot.phase with
  | .source =>
    match s.bootEntries[s.boot.entry]? with
    | none => s
    | some (kind, par) =>
      if (kind = 3 ∨ kind = 4) ∧ s.boot.probed ∧ s.boot.waitTrain = false ∧ (s.boot.streamBegan ∨ par ≠ 0) then s.failSource 6 else s
  | .recovery =>
    if s.boot.streamBegan ∧ s.boot.waitTrain = false then
      ((s.setBoot Boot.clearStream).recoveryResult 6).bootReply 6
    else s
  | _ => s

/-- The ROM's wait for randomness expires (R443 step 9). -/
def State.rngTimeout (s : State) : State := if s.boot.phase = .rng then (s.bootErr 0x30).recovery else s

/-! ## Release, start, fence and return (R451-R454, R511-R515) -/

/-- Every lock that Table 16.3 marks required is set. -/
def State.locksSet (s : State) : Bool :=
  bitAt (s.reg (.d .secWeirHi)) 31 && bitAt (s.reg (.d .sramWeir)) 31 && bitAt (s.reg (.d .assignLock)) 0
    && bitAt (s.reg (.d .wdtCtrl)) 31 && bitAt (s.reg (.g .nmiCtrl)) 31

/-- CORE_VEC of a ledger core, as a code pointer. -/
def State.coreVec (s : State) (c : CoreId) : Word :=
  (s.reg (.core c .coreVecHi)) ++ (s.reg (.core c .coreVecLo))

/-- A code pointer's bits [62:48] are zero (R126). -/
def ptrGood (v : Word) : Bool := decide (bitsOf v 62 48 = 0)

/-- The conditions that a release and a return share (R452, R514). -/
def State.mayStart (s : State) (c : CoreId) : Bool :=
  s.locksSet && bitAt (s.reg (.d .secRootLo)) 0 && (s.core c.toNat).vecWritten && ptrGood (s.coreVec c)
    && (decide (s.bootPhase = 3) || decide (s.bootPhase = 4))

/-- Whether a ledger core has been released since chip reset. -/
def State.released (s : State) (c : CoreId) : Bool := bitAt (s.reg (.g .coreRelease)) c.toNat

/-- A write of 1 to bit c of CORE_RELEASE (R452). -/
def State.releaseCore (s : State) (c : CoreId) : State :=
  if s.released c || !s.mayStart c || decide ((s.core c.toNat).state = .fenced) then s
  else s.orReg (.g .coreRelease) (BitVec.ofNat 32 (2 ^ c.toNat))

/-- A context becomes FREE and holds nothing but a pending NMI and a pending halt request (R365, R453, R512, R527). -/
def State.freeCtx (s : State) (x : CtxId) : State := s.upCtx x (fun c => { nmiPend := c.nmiPend, haltReq := c.haltReq, modes := c.modes })

/-- Context 0 of a ledger core starts at CORE_VEC, contexts 1 to 3 FREE (R453, R514). -/
def State.startCore (s : State) (c : CoreId) : State :=
  let k := s.core c.toNat
  let s1 := s.setCore c.toNat { k with tlbs := {}, wcache := [], locked := [], fencing := false, ucSeen := [], stores := patchStores s.ue.patch }
  let s2 := ([1, 2, 3] : List (BitVec 2)).foldl (fun s i => s.freeCtx (ctxOf c i)) s1
  (s2.startCtx (ctxOf c 0) (s2.coreVec c) .secure .monitor).setCoreState c.toNat .running

/-- A released core starts (R453), or stays HELD where a word of the patch copy that it would load is uncorrectable, now or
since an earlier detection (R490). No context starts during the stop of an atomic tide (Table 21.2,
notes/assumptions/73.md). -/
def State.coreStarts (s : State) (c : CoreId) (bad : Option (BitVec 2 × BitVec 14)) : State :=
  if s.released c ∧ (s.core c.toNat).state = .held ∧ s.tide.stopping = false then
    match s.badWord (bad.map (fun w => (w.1.toNat, w.2.toNat))) with
    | some w => s.badCopy c.toNat w
    | none => s.startCore c
  else s

/-- A write of 1 to bit c of CORE_RETURN (R514). -/
def State.returnCore (s : State) (c : CoreId) : State :=
  if (s.core c.toNat).state = .fenced ∧ s.mayStart c then
    (s.clrReg (.d .coreReturnStatus) (BitVec.ofNat 32 (2 ^ c.toNat))).setCoreState c.toNat .returning
  else s

/-- A return ends at a step that failed (R515): CORE_RETURN_STATUS records it, and the core reads FENCED again. -/
def State.returnFails (s : State) (c : CoreId) (step : Nat) : State :=
  let v := s.reg (.d .coreReturnStatus) ||| BitVec.ofNat 32 (2 ^ c.toNat)
  (s.setReg (.d .coreReturnStatus) (setBits (setBits v 19 16 c.toNat) 23 20 step)).setCoreState c.toNat .fenced

/-- A return ends (R514, R515): `failed` is 0 where every step passes, 1 for a readback mismatch at step 1, 2 for a failure
at step 2, and 3 for an uncorrectable word of the patch copy at step 1; `addr` and `store` say where it failed, in the patch RAM
or the hook table for step 1 and in a ROM word for step 2 (R487). A failure of step 2 comes again at every return that reaches
that step. -/
def State.returnDone (s : State) (c : CoreId) (failed : BitVec 2) (addr : BitVec 14) (store : BitVec 2) : State :=
  let k := s.core c.toNat
  if k.state ≠ .returning ∨ s.tide.stopping = true then s
  else match s.badWord (if failed = 3 then some (store.toNat, addr.toNat) else none) with
    | some w => ((s.returnFails c 1).ucFailed c.toNat (BitVec.ofNat 14 w.2) (BitVec.ofNat 2 w.1)).badCopy c.toNat w
    | none =>
      if failed = 1 ∧ copyHas store.toNat addr.toNat = true then (s.returnFails c 1).ucFailed c.toNat addr store
      else match k.romBad with
        | some w => (s.returnFails c 2).ucFailed c.toNat w.1 w.2
        | none =>
          if failed = 2 ∧ romHas store.toNat addr.toNat = true then
            ((s.setCore c.toNat { k with romBad := some (addr, store) }).returnFails c 2).ucFailed c.toNat addr store
          else (s.setReg (.core c .dispatch) 0).startCore c

/-- CB_FENCE_INFO records a fence and CORE_STATE reads FENCED (R511 step 4). A TLBI that the core has retired goes on to
complete (R298). -/
def State.markFenced (s : State) (c : CoreId) (reason : Nat) : State :=
  let v := s.reg (.core c .fenceInfo)
  let cnt := min (bitsOf v 15 8 + 1) 255
  let s1 := (s.setReg (.core c .fenceInfo) (setBits (setBits v 3 0 reason) 15 8 cnt)).setReg (.core c .dispatch) 0
  let k := s1.core c.toNat
  let s2 := s1.setCore c.toNat { k with tlbs := {}, wcache := [], locked := [], fencing := false, vecWritten := false }
  (s2.setHint 24).setCoreState c.toNat .fenced

/-- A fence of a running core begins (R484, R511): its tenants are to be saved. A fence by command keeps its reason. -/
def State.fenceFor (s : State) (c : CoreId) (why : Nat) : State :=
  let k := s.core c.toNat
  let s1 := s.setCore c.toNat { k with fencing := true, fenceWhy := if k.fencing && decide (k.fenceWhy = 1) then 1 else why }
  (([0, 1, 2, 3] : List (BitVec 2)).map (ctxOf c)).foldl (fun s x => match (s.ctx x).occ with
    | .tenant n => s.requestSave n .fence
    | _ => s) s1

/-- FENCE_REQ of a core (R511): a held core is fenced at once, but after step 4 of an atomic tide (Table 21.2), and a
running one once its contexts have stopped. A fence already under way keeps its reason (R484). -/
def State.fenceReq (s : State) (c : CoreId) : State :=
  match (s.core c.toNat).state with
  | .held => if s.tide.stopping then s.setCore c.toNat { s.core c.toNat with fencing := true } else s.markFenced c 1
  | .running => if (s.core c.toNat).fencing then s else s.fenceFor c 1
  | .fenced => s
  | .returning => s

/-- A context started by its start pair (R454). -/
def State.startPair (s : State) (x : CtxId) (ptr : Word) (w : World) : State :=
  if (s.ctx x).occ = .free ∧ s.pooled x = false ∧ (s.core (coreOf x)).state = .running ∧ ptrGood ptr = true then
    s.startCtx x ptr w (if w = .secure then .monitor else .exec)
  else s

end Sys2Proof.Machine
end

