-- ==== Sys2Proof/Machine/Boundary.lean ====
section
/-! DEFINITION. Instruction boundaries, which events may be taken at one (spec/05 R148, R152; spec/15 R355), which contexts stand
there and execute nothing, and the stop of an atomic tide with the commit of a tide (spec/21 R500 to R510). -/

namespace Sys2Proof.Machine

/-! ## Boundaries (R148, R355) -/

/-- Whether a context stands at an instruction boundary and runs: it is occupied, on a running core, neither stopped nor
halted, not stopped for a tide (R505), and between two instructions or bundles (R148). -/
def State.atBoundary (s : State) (x : CtxId) : Bool :=
  let c := s.ctx x
  decide (c.occ ≠ .free) && decide ((s.core (coreOf x)).state = .running) && !c.stopped && !c.halted
    && c.delay.isNone && !s.tide.stops.contains x

/-- Whether a context is in an enclave that is closed to debug (R396). -/
def State.inClosedEncl (s : State) (x : CtxId) : Bool :=
  match (s.ctx x).inEncl with
  | none => false
  | some k => match s.enclave k with
    | none => false
    | some e => !e.dbg

/-- Whether a debug halt of a context is permitted where it stands (R395, R396, R448): the invasive enable of the context's
world, for the boot core SI, no hold of the ROM phase, and no enclave closed to debug. -/
def State.haltRight (s : State) (x : CtxId) : Bool :=
  let en := s.dbgEn
  (if (s.ctx x).world = .secure then bitAt en 2 else bitAt en 0) && (decide (x ≠ bootCtx) || bitAt en 2)
    && !bitAt (s.reg (.boot .status)) 3 && !s.inClosedEncl x

/-- Whether a requested debug halt may be taken: it waits until it is permitted (R395). -/
def State.haltPermitted (s : State) (x : CtxId) : Bool := (s.ctx x).haltReq && s.haltRight x

/-- A debug halt is taken (R145, R355 item 1). -/
def State.haltNow (s : State) (x : CtxId) : State :=
  s.upCtx x (fun c => { c.completeLoads with halted := true, haltReq := false, stepping := false, dbgBytes := [] })

/-- Whether nothing of items 1 to 3 of R355 is due: no permitted halt, no trap, no step. -/
def State.noneDue (s : State) (x : CtxId) : Bool :=
  !s.haltPermitted x && (s.ctx x).trapDue.isNone && !(s.ctx x).stepDue

/-- Whether a pending NMI of a context may be taken (R355 item 4, R365). -/
def State.nmiReady (s : State) (x : CtxId) : Bool :=
  s.atBoundary x && s.noneDue x && (s.ctx x).nmiPend && !bitAt (s.reg (cxReg x .nmi)) 1

/-- CSW.IE (Table 5.3). -/
def Ctx.ie (c : Ctx) : Bool := bitAt c.csw 5

/-- The recorded bus error that a context may take (R355 item 5, R357). -/
def State.busErrReady (s : State) (x : CtxId) : Option StoreErr :=
  let c := s.ctx x
  if s.atBoundary x && s.noneDue x && !s.nmiReady x && c.ie then
    match c.storeErr with
    | none => none
    | some e => if e.world = c.world then some e else none
  else none

/-- Whether events that the shadow holds off may be taken (R152, R355 items 6 to 9). -/
def State.openBoundary (s : State) (x : CtxId) : Bool :=
  s.atBoundary x && s.noneDue x && !s.nmiReady x && (s.busErrReady x).isNone && !(s.ctx x).shadow

/-! ## Interrupts (R360 to R363) -/

/-- The world of the SITE bit of a context: that of the site block of the tenant it holds (notes/assumptions/23.md). -/
def State.siteBitWorld (s : State) (x : CtxId) : World :=
  match (s.ctx x).occ with
  | .tenant n => s.siteWorld n
  | _ => .nonSecure

/-- The vectors of the sources that are offered to a context, with their worlds, in ascending order: 25 SITE, 26 TIMER,
27 DOORBELL, 28 WDT, and 32 + L for a line routed to it. -/
def State.offered (s : State) (x : CtxId) : List (Nat × World) :=
  let on := s.reg (cxReg x .irqPend) &&& s.reg (cxReg x .irqEn)
  let own := ([(0, s.siteBitWorld x), (1, s.timerWorld x), (2, s.dbellWorld x), (3, World.secure)] : List (Nat × World)).filterMap
    (fun p => if bitAt on p.1 && (decide (p.1 ≠ 3) || decide (x = bootCtx)) then some (25 + p.1, p.2) else none)
  let lines := s.reg (.d .irqLinePend) &&& s.reg (.d .irqLineEn)
  own ++ (List.range 32).filterMap (fun k =>
    let r := s.reg (.d (.irqRoute (BitVec.ofNat 5 k)))
    let target := if bitAt r 8 then 64 else 4 * bitsOf r 3 0 + bitsOf r 5 4
    if bitAt lines k && decide (target = x.val) then some (32 + k, s.lineWorld k) else none)

/-- Whether a context may take an offered interrupt of a world (R361). -/
def Ctx.permits (c : Ctx) (w : World) : Bool :=
  match w with
  | .secure => decide (c.world = .nonSecure) || c.ie
  | .nonSecure => decide (c.world = .nonSecure) && c.ie

/-- The interrupt that a context takes: secure sources first, then the others, in ascending vector (R355 items 7 and 8). -/
def State.nextIrq (s : State) (x : CtxId) : Option (Nat × World) :=
  let l := (s.offered x).filter (fun p => (s.ctx x).permits p.2)
  match l.find? (fun p => decide (p.2 = .secure)) with
  | some p => some p
  | none => l.head?

/-! ## Contexts that execute nothing where they stand -/

/-- The tenant on a context that is due to be saved. -/
def State.dueSave (s : State) (x : CtxId) : Option SiteId :=
  match (s.ctx x).occ with
  | .tenant n => if (s.site n).tstate = .loaded ∧ (s.site n).save.isSome = true then some n else none
  | _ => none

/-- Whether a context has stopped for a fence of its core under way (R511 step 1): one of the executive or of the monitor does
so at its next boundary, and a tenant by its save. -/
def State.fenceStopped (s : State) (x : CtxId) : Bool :=
  let c := s.ctx x
  (s.core (coreOf x)).fencing && c.delay.isNone && (decide (c.occ = .exec) || decide (c.occ = .monitor))

/-- Whether a context executes nothing until an event that is due has come: a save at its save point (R80, R109, R111), the
fence of its core (R511), or a tide stop at its boundary (R505 step 1). -/
def State.mustWait (s : State) (x : CtxId) : Bool :=
  ((s.ctx x).savePoint && (s.dueSave x).isSome) || s.fenceStopped x
    || s.tide.stops.contains x || (s.tide.stopping && decide (x ≠ bootCtx) && s.openBoundary x)

/-! ## The stop of an atomic tide (R505) -/

/-- The contexts of the ledger cores. -/
def ledgerCtxs : List CtxId := (List.range 64).map (Fin.ofNat 65)

/-- The contexts whose tide stop is made where they stand (R505 step 1): a boundary that is open to it (R355 item 6), where no
interrupt is taken first (Table 21.2, notes/assumptions/73.md). -/
def State.stopsNow (s : State) : List CtxId := ledgerCtxs.filter (fun x => s.openBoundary x && (s.nextIrq x).isNone)

/-- The tide stop is made in every context where it is due. -/
def State.noteStops (s : State) : State := { s with tide := { s.tide with stops := s.tide.stops ++ s.stopsNow } }

/-- Whether a context counts as stopped for a tide (R505 step 1): it is free, its core does not run, it is halted or stopped
under R350, its stop has been made, or a fence has stopped it (Table 21.2). -/
def State.tideStopped (s : State) (x : CtxId) : Bool :=
  let c := s.ctx x
  decide (c.occ = .free) || decide ((s.core (coreOf x)).state ≠ .running) || c.stopped || c.halted || s.tide.stops.contains x
    || s.fenceStopped x

/-- Whether every context of every running ledger core has stopped. -/
def State.allStopped (s : State) : Bool := ledgerCtxs.all s.tideStopped

/-- The loads of the stopped contexts complete (R145). -/
def State.stopLoads (s : State) : State :=
  (ledgerCtxs.filter (fun x => !(s.ctx x).loads.isEmpty)).foldl (fun s x => s.upCtx x Ctx.completeLoads) s

/-- The fences of held cores that were asked for during the stop (Table 21.2). -/
def State.heldFences (s : State) : State :=
  (List.range 16).foldl (fun s c => if (s.core c).state = .held ∧ (s.core c).fencing = true then s.markFenced (BitVec.ofNat 4 c) 1 else s) s

/-- Steps 3 and 4 of an atomic tide (R505): every entry takes effect together, the tide completes, and the contexts, the sites'
Curlew operations (R502), the deferred frames and the fences go on. -/
def State.tideApply (s : State) : State :=
  let es := s.tide.entries
  let s1 := (s.stopLoads.applyEntries es).tideDone
  let s2 := (tideSites es).foldl (fun s n => s.tryBegin n) s1
  (s2.directAll s.tide.deferred).heldFences

/-- The stop of an atomic tide goes on: it is made where it is due, and it ends where every context has stopped. -/
def State.tideStop (s : State) : State :=
  if s.tide.stopping then (if s.noteStops.allStopped then s.noteStops.tideApply else s.noteStops) else s

/-- Start a tide over every staged entry (R502, R505, R508). An atomic tide with an entry stops the contexts first; one without
completes at once. -/
def State.commitTide (s : State) : State :=
  let es := s.tide.staged
  let sites := tideSites es
  let atomic := !s.tide.overrun && !sites.any (fun n => s.opInFlight n)
  let s1 := { s with tide := { staged := [], overrun := false, entries := es, busy := true } }
  if es.isEmpty then s1.tideDone
  else if atomic then { s1 with tide := { s1.tide with stopping := true } }.tideStop
  else
    let others := es.filter (fun e => decide ((regAt e.1).bind Reg.tideSite = none))
    let mine := es.filter (fun e => decide ((regAt e.1).bind Reg.tideSite ≠ none))
    let s2 := { s1.applyEntries others with tide := { s1.tide with entries := mine } }
    let s3 := s2.setReg (.g .cfgProgress) 0x10000
    let s4 := if mine.isEmpty then s3.tideDone else s3
    sites.foldl (fun s n => s.convert n false) s4

/-- Whether a register's entry belongs to the tide in progress, so that every write to it is refused with BUSY (R503). -/
def State.inTide (s : State) (r : Reg) : Bool :=
  r.isTide && s.tide.busy && s.tide.entries.any (fun e => decide (e.1 = r.addr))

/-- A write to a tide-class field of a register that is in no tide (R498, R500, R503); none where it is refused with BUSY. -/
def State.tideWrite (s : State) (r : Reg) (be : BitVec 4) (data : Word32) : Option State :=
  if s.tide.busy && !s.staging then none
  else if s.staging then some (s.stage r be data)
  else some ((s.stage r be data).commitTide)

end Sys2Proof.Machine
end

