-- ==== Sys2Proof/Machine/Update.lean ====
section
/-! DEFINITION. The update engine and the microcode patch registers (spec/19, R468 to R475; spec/20, R492). -/

namespace Sys2Proof.Machine

/-- End an engine command: RESULT of UE_STATUS and ERROR of UPD_STATUS (Table 19.7). -/
def State.ueResult (s : State) (code : Nat) : State :=
  (s.setReg (.d .ueStatus) (setBits (s.reg (.d .ueStatus)) 15 8 code)).setUpd (setBits (s.reg (.g .updStatus)) 23 16 code)

/-- UPD_STATUS shows the banks and attempts of the record in force, and a PHASE. -/
def State.updShow (s : State) (phase : Nat) : State :=
  let r := s.forceRec
  let a := bankState r false
  let b := bankState r true
  let v := setBits (setBits (s.reg (.g .updStatus)) 2 0 a) 6 4 b
  s.setUpd (setBits (setBits v 11 9 (if a = 3 ∨ b = 3 then recTries r else 0)) 15 12 phase)

/-- UE_STATUS.WRAP_DONE (R472). -/
def State.wrapDone (s : State) : Bool := decide (s.ue.wrapped.length = 1024)

/-- The conditions of R472 for ACTIVATE. -/
def State.stageReady (s : State) : Bool := s.ue.stageValid && s.wrapDone && s.stageV

/-- Whether a command is permitted in the present states (Table 19.6). -/
def State.uePermitted (s : State) (op : Nat) : Bool :=
  let r := s.forceRec
  let t := bankState r s.ueTarget
  match op with
  | 1 => decide (t = 1 ∨ t = 2 ∨ t = 3 ∨ t = 5)
  | 2 | 3 | 4 => decide (t = 0 ∨ t = 5)
  | 5 => decide (t = 0 ∨ t = 5 ∨ t = 1 ∨ t = 2)
  | 6 => decide (t = 2 ∧ bankState r (!s.ueTarget) ≠ 3)
  | 7 => match s.boot.booted with
    | none => false
    | some b => decide (bankState r b = 3) && bitAt (s.reg (.g .bootStatus)) 13
  | 8 => match s.boot.booted with
    | none => false
    | some b => decide (bankState r b = 4) && decide (recCur r = b) && decide (t = 4)
  | _ => true

/-- LADDER_STATUS.STAGE_VALID and UE_STATUS.WRAP_DONE are cleared (R470). -/
def State.dropStage (s : State) : State := { s with ue := { s.ue with stageValid := false, wrapped := [] } }

/-- The block of the window that the running command works on next (R462): ERASE's next block that is not erased, and the
block of WRITE's next page. -/
def State.ueNext (s : State) : Option Nat :=
  match s.ue.busy with
  | none => none
  | some c =>
    match c.op.toNat with
    | 2 => s.nextBlock s.ueTarget
    | 3 =>
      if c.inBank && s.sourceLeft c && decide (c.pages < c.len / 256) then
        some ((bankOfs s.ueTarget + c.ofs + 256 * c.pages) / 65536)
      else none
    | _ => none

/-- The engine goes on to its next block. -/
def State.ueMove (s : State) : State := { s with ue := { s.ue with block := s.ueNext } }

/-- A write of UE_CMD (R469, R470): ignored while BUSY. A reserved OP is no command (R17). -/
def State.ueCmd (s : State) (op : BitVec 4) : State :=
  let o := op.toNat
  if s.ue.busy.isSome then s.ueResult 0x61
  else if o = 0 ∨ 9 < o then s
  else if !s.uePermitted o then s.ueResult 0x60
  else
    let s1 := if 1 ≤ o ∧ o ≤ 4 then s.dropStage else s
    let c : UeOp := { op := op, src := s.pairBase (.d .ueSrcLo) (.d .ueSrcHi) 0
                      ofs := bitsOf (s.reg (.d .ueOfs)) 22 8 * 256, len := bitsOf (s.reg (.d .ueLen)) 20 8 * 256
                      ok := s.stageReady }
    let s2 := { s1 with ue := { s1.ue with busy := some c } }.ueMove
    if o = 2 ∨ o = 3 then s2.updShow 1 else s2

/-- Write a record and show it, with the PHASE that follows; one that no slot takes leaves the record in force (R466). -/
def State.ueRecord (s : State) (bad : Nat) (r : List Byte) (phase : Nat) : State :=
  let w := s.writeRecord bad r
  if w.1 then (w.2.updShow phase).ueResult 0 else w.2.ueResult 0x6B

/-- WRITE's work (R470): the pages not programmed yet. The agent of the record of poison in the source is open. -/
def State.ueWrite (s : State) (c : UeOp) (bad : Option Nat) : State :=
  if !c.inBank then s.ueResult 0x62
  else if !s.sourceLeft c then s.ueResult 0x65
  else
    let r := State.programPages (c.len / 256 - c.pages) bad (bankOfs s.ueTarget + c.ofs + 256 * c.pages) (c.src + 256 * c.pages) s
    match r.1 with
    | none => r.2.ueResult 0
    | some .cells => r.2.ueResult 0x63
    | some (.poison a) => (r.2.fresh.2.consumeAll 5 0 (r.2.fresh.1.toNat % 16) (r.2.poisonWords a 256)).ueResult 0x65

/-- What a VERIFY that succeeds leaves beside the journal (R471): UE_MEAS, UE_INFO and STAGE_VALID of the monitor it found. -/
def State.ueStaged (s : State) (m : MonImage) : State :=
  let svn : Byte := BitVec.ofNat 8 (hdrSvn m.header)
  let s1 := (s.setMeas (fun k => .d (.ueMeas k)) m.meas).setReg (.d .ueInfo) (svn.setWidth 32)
  { s1 with ue := { s1.ue with
      stageValid := true, stageMeas := m.meas, stageSvn := svn
      wrapped := if s1.ue.stageValid then s1.ue.wrapped else [] } }

/-- VERIFY's work (R471): a set that checks is recorded as VALID where it is not, and staged once it is. -/
def State.ueVerifyWork (s : State) (bad : Nat) : State :=
  let b := s.ueTarget
  let r := s.forceRec
  match s.verifyBank b with
  | .err c => s.ueResult c
  | .good m =>
    let meas := beBytes 48 m.meas.toNat
    if bankState r b = 2 then
      if recMeas r b ≠ meas then s.ueResult 0x68 else ((s.ueStaged m).updShow 3).ueResult 0
    else
      let w := s.writeRecord bad (recVerified r b meas (BitVec.ofNat 8 (hdrSvn m.header)))
      if w.1 then ((w.2.ueStaged m).updShow 3).ueResult 0 else w.2.ueResult 0x6B

/-- CAL_SAVE's work (R475): the record goes to the older half, which is erased first. -/
def State.calSaveWork (s : State) : State := s.calStore.ueResult 0

/-- The tries of a record write that fail, of what the flash does wrong. -/
def flashTries (f : FlashFault) : Nat :=
  match f with
  | .slots n => n
  | .none | .unit _ => 0

/-- The block of the bank, or the page of a WRITE, that fails. -/
def flashAt (f : FlashFault) : Option Nat :=
  match f with
  | .unit k => some k
  | .none | .slots _ => none

/-- ERASE's work (R470, Table 19.7). -/
def State.ueErase (s : State) (bad : Option Nat) : State :=
  let w := s.eraseBank s.ueTarget (bad.map (fun k => bankBlock s.ueTarget + k))
  if w.1 then (w.2.updShow 1).ueResult 0 else w.2.ueResult 0x64

/-- An engine command ends (R470): BUSY is cleared, and its effect and result stand. `flash` says what the flash does not
erase or program as told: blocks of an ERASE and pages of a WRITE count from the first of the command. -/
def State.ueDone (s : State) (flash : FlashFault) : State :=
  match s.ue.busy with
  | none => s
  | some c =>
    let s1 := { s with ue := { s.ue with busy := none, block := none } }
    let b := s1.ueTarget
    let r := s1.forceRec
    match c.op.toNat with
    | 1 => s1.ueRecord (flashTries flash) (recState r b 0) 0
    | 2 => s1.ueErase (flashAt flash)
    | 3 => s1.ueWrite c ((flashAt flash).bind (fun k => if c.pages ≤ k then some (k - c.pages) else none))
    | 4 => s1.ueRecord (flashTries flash) (recState r b 1) 1
    | 5 => s1.ueVerifyWork (flashTries flash)
    | 6 => if c.ok then s1.ueRecord (flashTries flash) (recTrial r b s1.stageBase) 4 else s1.ueResult 0x69
    | 7 => s1.ueRecord (flashTries flash) (recConfirm r !b) 0
    | 8 => s1.ueRecord (flashTries flash) (recState r b 5) 0
    | _ => s1.calSaveWork

/-- The pages of a WRITE that lie in the block under operation. -/
def UeOp.blockPages (c : UeOp) : Nat := min (c.len / 256 - c.pages) (256 - (c.ofs / 256 + c.pages) % 256)

/-- The engine ends its work on the block under operation, whose new contents stand from now on (R462). A WRITE whose next block
does not program, or whose source has come to be refused (R283), stays there until the command ends. -/
def State.ueBlock (s : State) : State :=
  match s.ue.busy, s.ue.block with
  | some c, some w =>
    if c.op = 2 then (s.eraseFlash (w * 65536) 65536).ueMove
    else if !s.sourceLeft c then s
    else
      let r := State.programPages c.blockPages none (bankOfs s.ueTarget + c.ofs + 256 * c.pages) (c.src + 256 * c.pages) s
      if r.1 = none then
        { r.2 with ue := { r.2.ue with busy := some { c with pages := c.pages + c.blockPages } } }.ueMove
      else s
  | _, _ => s

/-- The engine goes on while the block idles: whether it ends a block is free (notes/assumptions/78.md). -/
def State.ueTick (s : State) : State :=
  if s.ue.block.isNone then s else if bitAt s.fresh.1 0 then s.fresh.2.ueBlock else s.fresh.2

/-- The entropy source goes on while the DRBG is not instantiated (R414): its start-up tests pass and it collects
conditioned bits, both at a pace that is free (notes/assumptions/77.md). -/
def State.gather (s : State) : State :=
  if s.elec.refclkOk && !s.drbg.instantiated then
    let f := s.fresh
    let d := s.drbg
    { f.2 with drbg := { d with
      startupPass := d.startupPass || bitAt f.1 0
      collected := if d.startupPass then min 512 (d.collected + f.1.toNat / 2 % 513) else d.collected } }
  else s

/-- UE_VAULT: the VAULT field of the bank booted (Table 19.5). -/
def State.ueVault (s : State) : Nat :=
  match s.boot.booted with
  | none => 0
  | some b => recVault s.forceRec b

/-- A write of 1 to UC_CTRL.DISABLE (R492): ignored once a ledger core has been released. -/
def State.ucDisable (s : State) : State :=
  if s.reg (.g .coreRelease) ≠ 0 then s
  else
    let s1 := (((s.setReg (.d .ucCtrl) 1).setReg (.d .ucStatus) 0x20102).setReg (.d .ucPatchId) 0).setReg (.d .ucCounts) 0
    let s2 := (List.range 12).foldl (fun s k => s.setReg (.d (.ucPatchMeas (Fin.ofNat 12 k))) 0) s1
    s2.dropHooks

/-- A write of the lane of START and ABORT in UPD_CTRL: line 1 is set, whatever is written and by whom (Table 15.7), and the
request bits that are written 1, but not by the secure world (R473, notes/assumptions/46.md). -/
def State.updRequest (s : State) (asks start abort : Bool) : State :=
  { s with ue := { s.ue with
      reqStart := s.ue.reqStart || (asks && start), reqAbort := s.ue.reqAbort || (asks && abort) } }.setLine 1

end Sys2Proof.Machine
end

