-- ==== Sys2Proof/Machine/Elec.lean ====
section
/-! DEFINITION. Calibration, temperature, supplies, clocks and fuse operations (spec/22, R529 to R537; spec/23, R543 to R551). -/

namespace Sys2Proof.Machine

/-! ## Effective values (R537) -/

/-- The effective supply threshold codes, 5 bits per rail (Table 22.6). -/
def State.vmonEff (s : State) : Nat :=
  sumNat ((List.range 6).map (fun r =>
    effCode 5 (s.fuseField (0x440 + 5 * r) 5) (sField (s.reg (.d .calVmonUser)) (4 * r + 3) (4 * r)) * 2 ^ (5 * r)))

/-- The effective driver codes, 4 bits each (Table 2.24). -/
def State.drvEff (s : State) : Nat :=
  sumNat ((List.range 4).map (fun i =>
    effCode 4 (s.fuseField (0x460 + 4 * i) 4) (sField (s.reg (.g .drvUserAdj)) (4 * i + 3) (4 * i)) * 2 ^ (4 * i)))

/-- CAL_HOST_DLY: factory, user and effective codes (Table 22.7). -/
def State.hostDly (s : State) : Nat :=
  let u := s.reg (.d .calHostDly)
  s.fuseField 0x470 4 + bitsOf u 11 8 * 256 + effCode 4 (s.fuseField 0x470 4) (sField u 11 8) * 65536

/-- The factory equaliser code i of group g. -/
def State.eqFact (s : State) (g i : Nat) : Nat := s.fuseField (0x480 + 16 * g + 5 * i) 5

/-- CAL_EQ_FACT of group g, in the layout of LB_EQ_EFF. -/
def State.eqFactReg (s : State) (g : Nat) : Nat := s.eqFact g 0 + s.eqFact g 1 * 256 + s.eqFact g 2 * 65536

/-- LB_EQ_EFF of link k (Table 3.9, R537). -/
def State.eqEff (s : State) (k : LinkId) : Nat :=
  let u := s.reg (.link k .eq)
  sumNat ((List.range 3).map (fun i => effCode 5 (s.eqFact (k.toNat / 16) i) (sField u (8 * i + 4) (8 * i)) * 2 ^ (8 * i)))

/-! ## Supplies and clocks -/

/-- A rail leaves its window, or the set of rails outside changes (R547): DROOP, HINT_STATUS.VMON and line 12. The monitors act
while PORST_N is deasserted. -/
def State.droops (s : State) (out : BitVec 6) : State :=
  let s1 := { s with elec := { s.elec with railOut := out } }
  if s.elec.porst then s1 else s1.noteDroop (out &&& ~~~s.elec.railOut)

/-- A rail falls below its brown-out threshold (Table 23.4): bit order of VMON_STATUS. VDD_FUSE resets nothing and abandons
the fuse pulses in progress (R548). The monitors act while PORST_N is deasserted (R547). -/
def State.brownsOut (s : State) (rail : BitVec 3) : State :=
  if 5 < rail.toNat then s
  else if s.elec.porst then s.droops (s.elec.railOut ||| BitVec.ofNat 6 (2 ^ rail.toNat))
  else
    let s1 := s.droops (s.elec.railOut ||| BitVec.ofNat 6 (2 ^ rail.toNat))
    if rail = 5 then s1.abandonPulses else s1.chipReset .brownout

/-- REFCLK is found stable, and the PLLs lock (R550, R551). -/
def State.refclkGood (s : State) : State := { s with elec := { s.elec with refclkOk := true, pllLock := 0xF } }

/-- The bit of CLK_STATUS.PLL_LOCK of a PLL that resets the chip: 1 core, 2 fabric, 3 memory PHY (Tables 2.22 and 23.6). -/
def pllMask (what : BitVec 2) : BitVec 4 :=
  match what.toNat with
  | 1 => 1
  | 2 => 2
  | _ => 8

/-- REFCLK is lost, 0, or a PLL that resets the chip loses lock (R550, Table 23.6). During the internal reset a REFCLK loss
only holds it. -/
def State.clockLost (s : State) (what : BitVec 2) : State :=
  if !s.elec.refclkOk then s
  else if what = 0 then
    let s1 := { s with elec := { s.elec with refclkOk := false, pllLock := 0 } }
    if s.inReset then s1 else s1.chipReset .clkloss
  else { s with elec := { s.elec with pllLock := s.elec.pllLock &&& ~~~pllMask what } }.chipReset .clkloss

/-- A PLL that has lost lock locks again while REFCLK is good (R551); when, within its time, is free
(notes/assumptions/78.md). -/
def State.pllTick (s : State) : State :=
  if s.elec.refclkOk && decide (s.elec.pllLock ≠ 0xF) then
    if bitAt s.fresh.1 0 then { s.fresh.2 with elec := { s.elec with pllLock := 0xF } } else s.fresh.2
  else s

/-- The SerDes PLL loses lock, and relocks later (R551): every link leaves UP and retrains. -/
def State.serdesLost (s : State) : State :=
  if !s.elec.refclkOk then s
  else
    let s1 := (List.range 64).foldl (fun s i =>
      let k : LinkId := BitVec.ofNat 6 i
      if (s.link k).state = .up then s.setLinkState k (s.linkBase k) else s)
      { s with elec := { s.elec with pllLock := s.elec.pllLock &&& 0xB } }
    (s1.setHint 21).setLine 12

/-- What a step does on an empty queue: the block idles for one REFCLK cycle, in which TIME advances by 10 once the internal
reset has ended (R364; notes/assumptions/5.md), and the entropy source, the update engine and a PLL that relocks go on. During
the internal reset only the PLL relocks. -/
def State.idle (s : State) : State :=
  if s.inReset then s.pllTick else { s.gather.ueTick.pllTick with time := s.time + 10 }

/-- The adaptive control moves VID by one step within codes 20 to 50 (R546). -/
def State.vidMove (s : State) (up : Bool) : State :=
  let v := s.elec.vid.toNat
  if s.inReset then s
  else if up then (if v < 50 then { s with elec := { s.elec with vid := s.elec.vid + 1 } } else s)
  else if 20 < v then { s with elec := { s.elec with vid := s.elec.vid - 1 } } else s

/-! ## Fuses (R529-R535) -/

/-- Blow a fuse bit. -/
def State.blow (s : State) (a : Nat) : State := { s with fuses := smSet s.fuses false a true }

/-- Whether VDD_FUSE is outside its window. -/
def State.fuseSupplyBad (s : State) : Bool := bitAt s.elec.railOut 5

/-- Whether the port may blow a fuse in the present state (Table 22.4). -/
def State.portField (s : State) (a : Nat) : Bool :=
  (decide (s.lcState = 0) && decide (0x040 ≤ a) && decide (a < 0x080)) || (decide (0x400 ≤ a) && decide (a < 0x548))

/-- Whether FUSE_CTRL may blow a fuse in the present state (Table 22.4). -/
def State.ownerField (s : State) (a : Nat) : Bool :=
  (decide (s.lcState = 2) && decide (0x200 ≤ a) && decide (a ≤ 0x242)) || (decide (0x280 ≤ a) && decide (a < 0x300))

/-- The reason FUSE_CTRL refuses an operation, or none (R531, Table 22.5). -/
def State.fuseRefusal (s : State) (op : Nat) (a target : Nat) : Option Nat :=
  if s.lcState ≠ 2 ∧ s.lcState ≠ 3 then some 1
  else if op = 1 ∧ !s.ownerField a then some 2
  else if op = 2 ∧ !(decide (s.lcState = 2 ∧ target = 3) || decide (target = 4)) then some 1
  else if s.fuseSupplyBad then some 3
  else if s.port.fuse.busy then some 4
  else none

/-- RESULT of FUSE_STATUS. -/
def State.fuseResult (s : State) (code : Nat) : State :=
  s.setReg (.d .fuseStatus) (setBits (s.reg (.d .fuseStatus)) 11 8 code)

/-- Start an operation of FUSE_CTRL (R531): a write while BUSY is ignored, and a reserved OP starts nothing. -/
def State.fuseStart (s : State) (op : BitVec 3) (a : BitVec 12) (target : BitVec 3) : State :=
  if s.fuseCtrl.busy || !(decide (op = 1) || decide (op = 2)) then s
  else match s.fuseRefusal op.toNat a.toNat target.toNat with
    | some c => s.fuseResult c
    | none => { s with fuseCtrl := { busy := true, op := op, addr := a, target := target } }

/-- An operation of FUSE_CTRL ends (R531, R533): `verified` says that the bits read back 1. -/
def State.fuseDone (s : State) (verified : Bool) : State :=
  let f := s.fuseCtrl
  if !f.busy then s
  else
    let s1 := { s with fuseCtrl := {} }
    if !verified then s1.fuseResult 5
    else if f.op = 1 then (s1.blow f.addr.toNat).fuseResult 0
    else ((s1.blow (2 * f.target.toNat - 2)).blow (2 * f.target.toNat - 1)).fuseResult 0

end Sys2Proof.Machine
end

