-- ==== Sys2Proof/Machine/Read.lean ====
section
/-! DEFINITION. What every register reads as, and what reading it does (R14, R20, R22, R58; the register tables). -/

namespace Sys2Proof.Machine

/-! ## Worlds of single bits (R362, R363) -/

/-- The bits of CX_IRQ_PEND and CX_IRQ_EN that a world reaches (R362). -/
def State.irqMask (s : State) (w : World) (x : CtxId) : Word32 :=
  if w = .secure then 0xF
  else
    BitVec.ofNat 32 (bit (decide (s.siteBitWorld x = .nonSecure)) + 2 * bit (decide (s.timerWorld x = .nonSecure))
      + 4 * bit (decide (s.dbellWorld x = .nonSecure)))

/-- The lines that a world reaches (R363). -/
def State.lineMask (s : State) (w : World) : Word32 := if w = .secure then 0xFFFFFFFF else ~~~(s.reg (.d .assignLine))

/-! ## Levels and computed fields -/

/-- Whether site n has a bit set in both SB_ATTN and SB_ATTN_EN (R69). -/
def State.attnOn (s : State) (n : SiteId) : Bool := decide (s.reg (.site n .attn) &&& s.reg (.site n .attnEn) ≠ 0)

/-- SB_GROUP_ATTN of group g (R69). -/
def State.groupAttn (s : State) (g : Nat) : Word32 := bitsFrom 32 (fun k => s.attnOn (BitVec.ofNat 10 (32 * g + k)))

/-- SITE_ATTN_SUM (R69). -/
def State.attnSum (s : State) : Word32 := bitsFrom 32 (fun g => decide (s.groupAttn g ≠ 0))

/-- HINT_STATUS: the stored bits and the levels SITE_ATTN and MBX (Table 2.14). -/
def State.hintStatus (s : State) : Word32 :=
  setBit (setBit (s.reg (.g .hintStatus)) 0 (decide (s.attnSum ≠ 0))) 1 s.d2hFull

/-- HINT_N0 and HINT_N1 asserted (R51, R57). -/
def State.hintOut (s : State) : Bool × Bool :=
  let t := bitAt (s.reg (.g .hostCtrl)) 8
  let v := s.hintStatus &&& s.reg (.g .hintEnable)
  (!s.inReset && (t || decide (bitsOf v 15 0 ≠ 0)), !s.inReset && (t || decide (bitsOf v 31 16 ≠ 0)))

/-- A field of the core states over the ledger cores. -/
def State.coreBits (s : State) (v : CoreState) : Nat :=
  sumNat ((List.range 16).map (fun c => if (s.core c).state = v then 2 ^ c else 0))

/-- CORE_STATE (Table 2.7). -/
def State.coreStates (s : State) : Nat := sumNat ((List.range 16).map (fun c => (s.core c).state.code * 4 ^ c))

/-- APER_BASE (R55). -/
def State.aperBase (s : State) : Nat := s.pairBase (.g .aperBaseLo) (.g .aperBaseHi) 23

/-- HOST_STATUS (Table 2.13). -/
def State.hostStatus (s : State) : Nat :=
  min s.tide.staged.length 64 + 128 * bit s.tide.overrun
    + 256 * bit (bitAt (s.reg (.g .hostCtrl)) 1 && decide (s.aperBase < 0x8000000000))
    + 512 * bit s.tide.busy + s.hbclkMhz.toNat * 65536

/-- LINK_UP of 32 links from a first. -/
def State.linkUp (s : State) (first : Nat) : Word32 :=
  bitsFrom 32 (fun k => decide ((s.link (BitVec.ofNat 6 (first + k))).state = .up))

/-- THERM_STATUS (Table 2.18). -/
def State.thermStatus (s : State) : Word32 :=
  match s.tmax with
  | none => s.reg (.g .thermStatus)
  | some (t, k) => setBits (setBits (s.reg (.g .thermStatus)) 7 0 (BitVec.ofInt 8 t).toNat) 9 8 k

/-- VMON_STATUS (Table 2.19). -/
def State.vmonStatus (s : State) : Word32 :=
  if s.inReset then s.reg (.g .vmonStatus)
  else setBits (setBits (s.reg (.g .vmonStatus)) 5 0 (~~~s.elec.railOut).toNat) 13 8 s.elec.vid.toNat

/-- CLK_STATUS (Table 2.20): CORE_F reads 200 while the core PLL is locked. -/
def State.clkStatus (s : State) : Nat :=
  bit s.elec.refclkOk + 2 * s.elec.pllLock.toNat + 65536 * (if bitAt s.elec.pllLock 0 then 200 else 0)

/-- RNG_STATUS (Table 2.7). -/
def State.rngStatus (s : State) : Nat :=
  bit s.drbg.instantiated + 2 * bit s.drbg.startupPass + 4 * bit s.drbg.healthFail

/-- WDT_STATUS follows WDT_CTRL and the warning (R398), also at reset, where Table 2.7 gives 0 (notes/assumptions/70.md). -/
def State.wdtStatus (s : State) : Nat :=
  let v := s.reg (.d .wdtCtrl)
  bit (bitAt v 0) + 2 * bit (bitAt v 31) + 4 * bit s.wdtWarned + 256 * bitsOf v 23 8

/-- What a global register reads as in a world (Table 2.7, R60). -/
def State.gValue (s : State) (w : World) (r : GReg) : Word32 :=
  match r with
  | .uid k => BitVec.ofNat 32 (s.uid >>> (32 * k.toNat))
  | .lcState => BitVec.ofNat 32 (s.lcState + 256 * s.fuseField 0x241 1)
  | .hostStatus => BitVec.ofNat 32 s.hostStatus
  | .hintStatus => s.hintStatus
  | .mbxCtrl => s.reg (.g .mbxCtrl)
  | .mbxStatus => setBit (setBit (setBit (s.reg (.g .mbxStatus)) 0 s.mbxOpen) 1 s.h2dFull) 2 s.d2hFull
  | .coreState => BitVec.ofNat 32 s.coreStates
  | .coreFence => BitVec.ofNat 32 (s.coreBits .fenced)
  | .siteAttnSum => s.attnSum
  | .linkUpLo => s.linkUp 0
  | .linkUpHi => s.linkUp 32
  | .thermStatus => s.thermStatus
  | .vmonStatus => s.vmonStatus
  | .clkStatus => BitVec.ofNat 32 s.clkStatus
  | .dramStatus => if s.boot.dramHeld then s.reg (.g .dramStatus) &&& 0x1000000 else s.reg (.g .dramStatus)
  | .rngStatus => BitVec.ofNat 32 s.rngStatus
  | .wdtStatus => BitVec.ofNat 32 s.wdtStatus
  | .updCtrl => if w = .secure then BitVec.ofNat 32 (bit s.ue.reqStart + 2 * bit s.ue.reqAbort) else 0
  | .drvUserAdj => setBits (s.reg (.g .drvUserAdj)) 31 16 s.drvEff
  | .entropyLevel => BitVec.ofNat 32 (min s.drbg.collected 512 + 65536 * min s.drbg.reseeds 65535)
  | r => s.reg (.g r)

/-- CAL_THERM values: one byte a sensor. -/
def therm4 (f : Nat → Nat) : Word32 := BitVec.ofNat 32 (f 0 % 256 + f 1 % 256 * 256 + f 2 % 256 * 65536 + f 3 % 256 * 16777216)

/-- FUSE_STATUS (R531); BIT is the fuse that ADDR names, outside the DRK (notes/assumptions/24.md). -/
def State.fuseStatus (s : State) : Word32 :=
  let a := bitsOf (s.reg (.d .fuseCtrl)) 11 0
  let b := smGet s.fuses false a && !(decide (0x100 ≤ a) && decide (a < 0x200))
  setBits (setBit (setBit (s.reg (.d .fuseStatus)) 0 s.fuseCtrl.busy) 1 b) 23 16 s.floorCount

/-- What a system register above 0x3FF reads as in a world. -/
def State.dValue (s : State) (w : World) (r : DReg) : Word32 :=
  match r with
  | .irqLinePend => s.reg (.d .irqLinePend) &&& s.lineMask w
  | .irqLineEn => s.reg (.d .irqLineEn) &&& s.lineMask w
  | .irqRoute k => if bitAt (s.lineMask w) k.toNat then s.reg (.d (.irqRoute k)) else 0
  | .dbgEn => s.dbgEn
  | .ueStatus => setBit (setBit (s.reg (.d .ueStatus)) 0 s.ue.busy.isSome) 1 s.wrapDone
  | .ueInfo => setBit (s.reg (.d .ueInfo)) 8 s.ueTarget
  | .ueVaultLo => BitVec.ofNat 32 (s.ueVault % 2 ^ 32)
  | .ueVaultHi => BitVec.ofNat 32 (s.ueVault / 2 ^ 32 % 256)
  | .ucStatus => setBit (s.reg (.d .ucStatus)) 18 (decide (s.reg (.g .coreRelease) ≠ 0))
  | .calThermFact => therm4 (fun k => (s.thermFact k).toNat)
  | .calThermGain => therm4 (fun k => (s.thermGain k).toNat)
  | .calThermEff => therm4 (fun k => (BitVec.ofInt 8 (s.thermEff k)).toNat)
  | .calVmonFact => BitVec.ofNat 32 (s.fuseField 0x440 30)
  | .calVmonEff => BitVec.ofNat 32 s.vmonEff
  | .calDrvFact => BitVec.ofNat 32 (s.fuseField 0x460 16)
  | .calHostDly => BitVec.ofNat 32 s.hostDly
  | .calEqFact g => BitVec.ofNat 32 (s.eqFactReg g.toNat)
  | .fuseStatus => s.fuseStatus
  | .fuseBootLo => BitVec.ofNat 32 (s.fuseField 0x200 32)
  | .fuseBootHi => BitVec.ofNat 32 (s.fuseField 0x220 32)
  | .fuseOwnerFlags => BitVec.ofNat 32 (s.fuseField 0x240 3)
  | .fuseFloor k => BitVec.ofNat 32 (s.fuseNow (0x280 + 32 * k.toNat) 32)
  | r => s.reg (.d r)

/-- What an interrupt register of a context reads as in a world (Table 15.5). -/
def State.xValue (s : State) (w : World) (x : CtxId) (r : XReg) : Word32 :=
  match r with
  | .irqPend | .irqEn => s.reg (cxReg x r) &&& s.irqMask w x
  | .nmi => setBit (s.reg (cxReg x .nmi)) 0 (s.ctx x).nmiPend
  | .doorbell | .startLo | .startHi => 0

/-- CB_CTXx (Table 3.8). -/
def occValue (o : Occ) : Nat :=
  match o with
  | .free => 0
  | .tenant n => 1 + n.toNat * 65536
  | .exec => 2
  | .monitor => 3

/-- What a core register reads as (Table 3.8). -/
def State.cValue (s : State) (w : World) (c : CoreId) (r : CReg) : Word32 :=
  match r with
  | .status => BitVec.ofNat 32 ((s.core c.toNat).state.code + 16 * (c.toNat / 4)
      + sumNat ((List.range 4).map (fun i => match (s.ctx (ctxOf c (BitVec.ofNat 2 i))).occ with
        | .tenant _ => 256 * 2 ^ i
        | _ => 0)))
  | .ctx i => BitVec.ofNat 32 (occValue (s.ctx (ctxOf c i)).occ)
  | .cx i r => s.xValue w (ctxOf c i) r
  | r => s.reg (.core c r)

/-- What a boot core register reads as (Table 18.6). -/
def State.bValue (s : State) (w : World) (r : BReg) : Word32 :=
  match r with
  | .cx r => s.xValue w bootCtx r
  | r => s.reg (.boot r)

/-- The codes of SB_TENANT_STATE.STATE (Table 3.5). -/
def TState.code (t : TState) : Nat :=
  match t with
  | .absent => 0
  | .idle => 1
  | .pending => 2
  | .loaded => 3
  | .held => 4
  | .faulted => 5

/-- The codes of SB_STATUS.TXN (Table 3.3). -/
def Txn.code (t : Txn) : Nat :=
  match t with
  | .idle => 0
  | .taken => 1
  | .settling => 2
  | .unsettled => 3
  | .undelivered => 4
  | .replaying => 5

/-- SB_STATUS (Table 3.3). -/
def State.siteStatus (s : State) (n : SiteId) : Nat :=
  let v := s.site n
  v.txn.code + 16 * bit (s.stationUp n) + 32 * bit (s.mapConflict n) + 64 * bit (s.noCore n) + 128 * bit (s.tideWait n)
    + 256 * bit v.clearPending + 512 * bit (bitAt (s.reg (.site n .status)) 9) + 1024 * bit v.woffPending
    + 65536 * min v.inbox.length 255

/-- SB_TENANT_STATE (Table 3.5). -/
def State.tenantValue (s : State) (n : SiteId) : Nat :=
  let v := s.site n
  v.tstate.code
    + (if v.tstate = .loaded then 16 * coreOf v.onCtx + 256 * (v.onCtx.val % 4) else 0) + 65536 * min v.events 65535

/-- What a site register reads as (Table 3.1). -/
def State.sValue (s : State) (n : SiteId) (r : SReg) : Word32 :=
  match r with
  | .status => BitVec.ofNat 32 (s.siteStatus n)
  | .groupAttn => s.groupAttn (n.toNat / 32)
  | .tenantState => BitVec.ofNat 32 (s.tenantValue n)
  | .keyState => BitVec.ofNat 32 (s.keyValue n)
  | r => s.reg (.site n r)

/-- The codes of LB_STATUS.STATE (Table 3.9). -/
def LinkState.code (t : LinkState) : Nat :=
  match t with
  | .down => 0
  | .training => 1
  | .up => 2
  | .fenced => 3
  | .loopback => 4

/-- What a link register reads as (Tables 3.9 and 4.8). -/
def State.lValue (s : State) (k : LinkId) (r : LReg) : Word32 :=
  match r with
  | .status => BitVec.ofNat 32 ((s.link k).state.code + 65536 *
      sumNat ((List.range 16).map (fun t => if (s.station k (BitVec.ofNat 4 t)).present then 2 ^ t else 0)))
  | .eqEff => BitVec.ofNat 32 (s.eqEff k)
  | .inSeq t => BitVec.ofNat 32 ((s.station k t).inSeq.toNat + 2 ^ 31 * bit (s.station k t).any)
  | r => s.reg (.link k r)

/-- What a Curlew register reads as (Table 17.6). -/
def State.kValue (s : State) (r : KReg) : Word32 :=
  match r with
  | .ladderStatus => BitVec.ofNat 32 (bit s.curlew.drkOff + 2 * bit s.curlew.bbkValid + 4 * bit s.ue.stageValid
      + 8 * bit s.curlew.belowFloor)
  | .slotStatus k =>
    let v := s.keySlot k.toNat
    BitVec.ofNat 32 (v.gen.toNat + 65536 * (if v.loaded then v.tenant.toNat else 0) + 2 ^ 30 * bit (s.slotBusy k.toNat)
      + 2 ^ 31 * bit v.loaded)
  | r => s.reg (.curlew r)

/-- What a doorbell page reads as (R428). -/
def State.pValue (s : State) (n : SiteId) (r : PReg) : Word32 := s.reg (.door n r)

/-- What a timer register reads as (R364). -/
def State.tValue (s : State) (r : TReg) : Word32 :=
  match r with
  | .timeLo => BitVec.ofNat 32 (s.time % 2 ^ 32)
  | .timeHi => BitVec.ofNat 32 (s.time / 2 ^ 32 % 2 ^ 32)
  | r => s.reg (.timer r)

/-- What a register reads as in a world, before the read has its effects. -/
def State.regValue (s : State) (w : World) (r : Reg) : Word32 :=
  match r with
  | .g r => s.gValue w r
  | .d r => s.dValue w r
  | .core c r => s.cValue w c r
  | .boot r => s.bValue w r
  | .site n r => s.sValue n r
  | .link k r => s.lValue k r
  | .curlew r => s.kValue r
  | .door n r => s.pValue n r
  | .timer r => s.tValue r

/-- Read one half of a pair (R22, R23): `_LO` captures `_HI`, and the next read of `_HI` returns and uses up the capture. -/
def State.readPair (s : State) (q : Requester) (w : World) (lo : Reg) (high : Bool) : Word32 × State :=
  let k := pairKey q lo
  if high then
    match smGet s.snaps none k with
    | some v => (v, { s with snaps := smSet s.snaps none k none })
    | none => (s.regValue w lo.hiOf, s)
  else (s.regValue w lo, { s with snaps := smSet s.snaps none k (some (s.regValue w lo.hiOf)) })

/-- The request bits of UPD_CTRL are cleared by a secure read (R473). -/
def State.updTaken (s : State) (w : World) : State :=
  if w = .secure then { s with ue := { s.ue with reqStart := false, reqAbort := false } } else s

/-- Whether the debug access engine reads; it clears no RC register (R526). -/
def isDae (q : Requester) : Bool :=
  match q with
  | .host => false
  | .ctx _ => false
  | .dae _ => true

/-- A read of a register by a requester in a world: the value, and the state after it (R19, R20, R22, R417, R473, R526). -/
def State.regRead (s : State) (q : Requester) (w : World) (r : Reg) : Word32 × State :=
  match r with
  | .g .rngData =>
    if s.rngReady then
      let f := s.fresh
      (f.1.setWidth 32, { f.2 with drbg := f.2.drbg.request })
    else (0, s)
  | .g .updCtrl => (s.regValue w r, s.updTaken w)
  | r =>
    match r.pairOf with
    | some (lo, high) => s.readPair q w lo high
    | none => (s.regValue w r, if isDae q then s else s.clrReg r r.spec.rc)

end Sys2Proof.Machine
end

