-- ==== Sys2Proof/Machine/SysReg.lean ====
section
/-! DEFINITION. The system registers of a context by number, and the debug-state window over them (spec/05 R122 to R125,
spec/22 R526). -/

namespace Sys2Proof.Machine

/-! ## Banked registers (Table 5.2) -/

/-- The banked register at an offset; none where no register is assigned. -/
def Bank.get (b : Bank) (o : Nat) : Option Word :=
  match o with
  | 0x00 => some (b.vbr.setWidth 64)
  | 0x01 => some (b.xpc.setWidth 64)
  | 0x02 => some b.xsp
  | 0x03 => some b.xcsw
  | 0x04 => some b.xdt
  | 0x05 => some b.xaddr
  | 0x06 => some b.xinfo
  | 0x08 => some (BitVec.ofNat 64 (bitsOf b.xinst 31 0))
  | 0x09 => some (BitVec.ofNat 64 (bitsOf b.xinst 63 32))
  | 0x0A => some (BitVec.ofNat 64 (bitsOf b.xinst 95 64))
  | 0x0B => some (BitVec.ofNat 64 (bitsOf b.xinst 127 96))
  | 0x10 => some b.fePc
  | 0x11 => some b.feSp
  | 0x12 => some b.feCsw
  | 0x18 => some (b.gateBase.setWidth 64)
  | _ => none

/-- Write a banked register: XINST0 to XINST3 ignore writes, and bits above a register's width are dropped. -/
def Bank.set (b : Bank) (o : Nat) (v : Word) : Bank :=
  match o with
  | 0x00 => { b with vbr := v.setWidth 48 }
  | 0x01 => { b with xpc := v.setWidth 48 }
  | 0x02 => { b with xsp := v }
  | 0x03 => { b with xcsw := v }
  | 0x04 => { b with xdt := v }
  | 0x05 => { b with xaddr := v }
  | 0x06 => { b with xinfo := v }
  | 0x10 => { b with fePc := v }
  | 0x11 => { b with feSp := v }
  | 0x12 => { b with feCsw := v }
  | 0x18 => { b with gateBase := v.setWidth 48 }
  | _ => b

/-! ## Per-context registers (Table 5.1) -/

/-- CTXID of a context (Table 5.1). -/
def ctxId (x : CtxId) : Word := if x = bootCtx then 0x100 else BitVec.ofNat 64 (x.val / 4 + x.val % 4 * 16)

/-- The per-context register of a number; none where no register is assigned. -/
def Ctx.perGet (c : Ctx) (x : CtxId) (n : Nat) : Option Word :=
  match n with
  | 0x000 => some c.csw
  | 0x001 => some c.fstat
  | 0x002 => some c.dstat
  | 0x003 => some (c.rsp.setWidth 64)
  | 0x004 => some c.kmaskRd
  | 0x005 => some c.kmaskWr
  | 0x006 => some (c.bitspace.setWidth 64)
  | 0x007 => some (ctxId x)
  | 0x010 | 0x011 | 0x012 => some ((smGet c.lps 0 (n - 0x010)).setWidth 64)
  | 0x014 | 0x015 | 0x016 => some ((smGet c.lpe 0 (n - 0x014)).setWidth 64)
  | 0x018 | 0x019 | 0x01A => some ((smGet c.lpc 0 (n - 0x018)).setWidth 64)
  | 0x020 | 0x021 | 0x022 | 0x023 => some ((smGet c.mb 0 (n - 0x020)).setWidth 64)
  | 0x024 | 0x025 | 0x026 | 0x027 => some ((smGet c.ml 0 (n - 0x024)).setWidth 64)
  | 0x030 | 0x031 | 0x032 | 0x033 => some (smGet c.strx 0 (n - 0x030))
  | _ => none

/-- The CSW bits that an MTSR changes (R125). -/
def cswMask (user : Bool) : Word := if user then 0xF00 else 0xFE0

/-- Write a per-context register; RSP and CTXID are read-only (Table 5.1). -/
def Ctx.perSet (c : Ctx) (n : Nat) (v : Word) : Ctx :=
  match n with
  | 0x000 => { c with csw := mergeBits c.csw (cswMask c.isUser) v }
  | 0x001 => { c with fstat := v &&& 0xF1 }
  | 0x002 => { c with dstat := v &&& 0x3 }
  | 0x004 => { c with kmaskRd := v }
  | 0x005 => { c with kmaskWr := v }
  | 0x006 => { c with bitspace := v.setWidth 48 &&& bitspaceMask }
  | 0x010 | 0x011 | 0x012 => { c with lps := smSet c.lps 0 (n - 0x010) (v.setWidth 48) }
  | 0x014 | 0x015 | 0x016 => { c with lpe := smSet c.lpe 0 (n - 0x014) (v.setWidth 48) }
  | 0x018 | 0x019 | 0x01A => { c with lpc := smSet c.lpc 0 (n - 0x018) (v.setWidth 32) }
  | 0x020 | 0x021 | 0x022 | 0x023 => { c with mb := smSet c.mb 0 (n - 0x020) (v.setWidth 48) }
  | 0x024 | 0x025 | 0x026 | 0x027 => { c with ml := smSet c.ml 0 (n - 0x024) (v.setWidth 32) }
  | 0x030 | 0x031 | 0x032 | 0x033 => { c with strx := smSet c.strx 0 (n - 0x030) v }
  | _ => c

/-- Whether the user may only read a per-context register that the supervisor may write: KMASK_RD, KMASK_WR and
BITSPACE_BASE (Table 5.1). RSP and CTXID, which Table 5.1 gives the supervisor as RO too, are not among them: a user's write of
one has no effect and raises nothing (R123, notes/assumptions/79.md). -/
def userReadOnly (n : Nat) : Bool := decide (n = 0x004) || decide (n = 0x005) || decide (n = 0x006)

/-- The world whose bank a system register number reaches (R123); none for a per-context register. -/
def bankWorld (c : Ctx) (n : Nat) : Option World :=
  if n < 0x100 then none
  else if n < 0x200 then some c.world
  else if n < 0x300 then some .secure else some .nonSecure

/-- Read a system register by number; none where it is not assigned (R123). -/
def Ctx.sysGet (c : Ctx) (x : CtxId) (n : Nat) : Option Word :=
  if 0x400 ≤ n then none
  else match bankWorld c n with
    | none => c.perGet x n
    | some w => (c.bank w).get (n % 0x100)

/-- Write a system register by number. -/
def Ctx.sysSet (c : Ctx) (n : Nat) (v : Word) : Ctx :=
  match bankWorld c n with
  | none => c.perSet n v
  | some w => c.setBank w ((c.bank w).set (n % 0x100) v)

/-- The exception of an MFSR or MTSR of an assigned register (R123 items 2 and 3). -/
def sysRightExc (c : Ctx) (n : Nat) (write : Bool) : Option Exc :=
  if c.isUser && (decide (0x100 ≤ n) || (write && userReadOnly n)) then some { vec := 4, xinfo := 3 }
  else if 0x200 ≤ n ∧ n < 0x300 ∧ c.world = .nonSecure then some { vec := 21, xinfo := 4 }
  else none

/-! ## The debug-state window (R526) -/

/-- The 0x400 bytes of a context's window: Table 5.5, and the bank of the context's world from 0x308. -/
def dbgImage (c : Ctx) : List Byte :=
  (blockImage c (smGet c.rs 0)).take 0x308
    ++ (List.range 31).flatMap (fun o => leBytes 8 (((c.bank c.world).get o).getD 0).toNat)

/-- The window with the bytes written since the halt laid over it. -/
def dbgView (c : Ctx) : List Byte := (dbgImage c).zipIdx.map (fun p => (smGet c.dbgBytes none p.2).getD p.1)

/-- The context with the written window in effect, as a release makes it: RSP, the mode fields of the CSW, and
XINST0 to XINST3 keep their values. -/
def Ctx.dbgApply (c : Ctx) : Ctx :=
  if c.dbgBytes.isEmpty then c
  else
    let bs := dbgView c
    let w := c.world
    let slot := fun o => BitVec.ofNat 64 (blockSlot bs o)
    let d := (List.range 8).foldl (fun m i => smSet m 0 i (BitVec.ofNat 128 (beNat (slice bs (0x140 + 16 * i) 16)))) []
    let b := (List.range 31).foldl (fun b o => b.set o (slot (0x308 + 8 * o))) (c.bank w)
    { c.setBank w b with
      pc := BitVec.ofNat 48 (blockSlot bs 0), pcHi := 0, csw := mergeBits c.csw (cswMask false) (slot 8)
      fstat := slot 0x18 &&& 0xF1, dstat := slot 0x20 &&& 0x3, kmaskRd := slot 0x28, kmaskWr := slot 0x30
      bitspace := BitVec.ofNat 48 (blockSlot bs 0x38) &&& bitspaceMask, g := smDrop (blockRegs bs 0x40 32) 0
      d := d, dres := residuesOf d
      a := blockRegs bs 0x1C0 4, lps := blockRegs bs 0x1E0 3, lpe := blockRegs bs 0x1F8 3, lpc := blockRegs bs 0x210 3
      mb := blockRegs bs 0x228 4, ml := blockRegs bs 0x248 4, strx := blockRegs bs 0x268 4, rs := blockRegs bs 0x288 16
      dbgBytes := [] }

end Sys2Proof.Machine
end

