-- ==== Sys2Proof/Machine/Bus.lean ====
section
/-! DEFINITION. Writing registers: the access types of Table 0.4, pairs, locks, classes and the actions of each register
(R14 to R23, R58, R59, R496 to R503, and the register tables). -/

namespace Sys2Proof.Machine

/-! ## Plain fields -/

/-- The bits of a register after a write with the access types of Table 0.4, in the enabled lanes (R14, R19). -/
def RegSpec.apply (sp : RegSpec) (old : Word32) (m d : Word32) : Word32 :=
  ((mergeBits old (m &&& sp.rw) d) &&& ~~~(m &&& sp.w1c &&& d)) ||| (m &&& sp.w1s &&& d)

/-- A write by the access types alone. -/
def State.plainWrite (s : State) (r : Reg) (be : BitVec 4) (d : Word32) : State :=
  s.setReg r (r.spec.apply (s.reg r) (laneMask be) d)

/-- A write by the access types, kept to the bits of a mask (R362, R363). -/
def State.maskedWrite (s : State) (r : Reg) (be : BitVec 4) (mask d : Word32) : State :=
  s.setReg r (r.spec.apply (s.reg r) (laneMask be &&& mask) d)

/-- The bits of `d` in enabled lanes: what WO and W1S actions see (R19). -/
def seen (be : BitVec 4) (d : Word32) : Word32 := d &&& laneMask be

/-- Writing 1 to VALID, bit 0, clears a whole record register (R50, R345, Table 17.6). -/
def State.validClear (s : State) (r : Reg) (be : BitVec 4) (d : Word32) : State :=
  if bitAt (seen be d) 0 then s.setReg r 0 else s

/-! ## Timers (R364) -/

/-- TMR_CMP of a context. -/
def State.timerCmp (s : State) (x : CtxId) : Nat :=
  (s.reg (.timer (.cmpHi x))).toNat * 2 ^ 32 + (s.reg (.timer (.cmpLo x))).toNat

/-- Whether a context's comparator holds its condition. -/
def State.timerDue (s : State) (x : CtxId) : Bool := bitAt (s.reg (.timer (.ctrl x))) 0 && decide (s.timerCmp x ≤ s.time)

/-- TIMER is set in every cycle in which the condition holds. -/
def State.timerSet (s : State) (x : CtxId) : State := if s.timerDue x then s.setIrq x 1 else s

/-! ## The mailbox (R54) -/

/-- H2D_LEN and H2D_TYPE as a write would leave them. -/
def State.mbxAfter (s : State) (be : BitVec 4) (d : Word32) : Word32 :=
  (GReg.spec .mbxCtrl).apply (s.reg (.g .mbxCtrl)) (laneMask be) d

/-- Whether a post would be refused with MBX. -/
def State.postRefused (s : State) (be : BitVec 4) (d : Word32) : Bool :=
  let len := bitsOf (s.mbxAfter be d) 15 0
  !s.mbxOpen || s.h2dFull || decide (len = 0) || decide (32768 < len)

/-- A write of MBX_CTRL: a post, an acknowledgement, the plain fields. A post that a host cycle would be refused is
ignored with the whole write. -/
def State.mbxWrite (s : State) (be : BitVec 4) (d : Word32) : State :=
  let v := seen be d
  if bitAt v 16 && s.postRefused be d then s
  else
    let s1 := s.plainWrite (.g .mbxCtrl) be d
    let s2 := if bitAt v 16 then { s1 with h2dFull := true }.setLine 0 else s1
    if bitAt v 17 && s2.d2hFull then { s2 with d2hFull := false }.replyNow else s2

/-! ## Cores, contexts and debug -/

/-- Apply an action for each set bit of a word among the low 16. -/
def forBits (v : Word32) (f : State → Nat → State) (s : State) : State :=
  (List.range 16).foldl (fun s c => if bitAt v c then f s c else s) s

/-- A write of CLK_CTRL (R59, R497, R552): refused while any core is RUNNING or RETURNING. -/
def State.clkBusy (s : State) : Bool := decide (s.coreBits .running ≠ 0) || decide (s.coreBits .returning ≠ 0)

/-- Vector 22 with STEP is taken where it is due (R355 item 3). -/
def State.takeStep (s : State) (x : CtxId) : State :=
  let c := s.ctx x
  if c.stepDue && !c.stopped then
    (s.upCtx x (fun c => { c with stepDue := false })).enter x 22 c.world
      { xpc := c.pc, xaddr := 0, xinfo := 2, async := false, dly := none }
  else s

/-- The entry that a retired instruction made due is taken: the trap first, and the step, which it leaves pending, at the
boundary that its entry makes, behind a halt (R355). -/
def State.takeDue (s : State) (x : CtxId) : State :=
  let c := s.ctx x
  match c.trapDue with
  | some code =>
    let s1 := ((s.upCtx x (fun c => { c with trapDue := none })).enter x 23 c.world
      { xpc := c.pc, xaddr := 0, xinfo := code.toNat, async := false, dly := none }).upCtx x (fun d => { d with stepDue := c.stepDue })
    if c.stepDue && !(s1.ctx x).stopped && s1.haltPermitted x then s1.haltNow x else s1.takeStep x
  | none => s.takeStep x

/-- Resume a halted context: the window's writes take effect (R526, R527), and an entry that waited is taken. -/
def State.resumeCtx (s : State) (x : CtxId) (step : Bool) : State :=
  if (s.ctx x).halted then
    (s.upCtx x (fun c => { c.dbgApply with halted := false, haltReq := false, stepping := step })).takeDue x
  else s.upCtx x (fun c => { c with haltReq := false })

/-- Every context. -/
def allCtxs : List CtxId := (List.range 65).map (Fin.ofNat 65)

/-- Release every context halted in a world, as the port would (R397). -/
def State.releaseWorld (s : State) (w : World) : State :=
  (allCtxs.filter (fun x => (s.ctx x).halted && decide ((s.ctx x).world = w))).foldl (fun s x => s.resumeCtx x false) s

/-- A write of DBG_EN (R393, R397): an enable above its ceiling becomes 0. -/
def State.dbgWrite (s : State) (be : BitVec 4) (d : Word32) : State :=
  if be.getLsbD 0 then
    let was := s.dbgEn
    let en := BitVec.ofNat 4 s.dbgCeil &&& d.setWidth 4
    let s1 := s.setReg (.d .dbgEn) ((~~~en).setWidth 32)
    let s2 := if bitAt was 0 && !bitAt en 0 then s1.releaseWorld .nonSecure else s1
    if bitAt was 2 && !bitAt en 2 then s2.releaseWorld .secure else s2
  else s

/-- A POOL bit cleared, or a preemption: the tenant on the context is saved (R79, R80). -/
def State.saveOn (s : State) (x : CtxId) (r : SaveReason) : State :=
  match (s.ctx x).occ with
  | .tenant n => s.requestSave n r
  | _ => s

/-- A write of CB_DISPATCH (R80). -/
def State.dispatchWrite (s : State) (c : CoreId) (be : BitVec 4) (d : Word32) : State :=
  let old := s.reg (.core c .dispatch)
  let s1 := s.plainWrite (.core c .dispatch) be d
  let gone := old &&& ~~~(s1.reg (.core c .dispatch))
  (List.range 4).foldl (fun s i => if bitAt gone i then s.saveOn (ctxOf c (BitVec.ofNat 2 i)) .pool else s) s1

/-- A write of CB_PREEMPT (Table 3.8). -/
def State.preemptWrite (s : State) (c : CoreId) (be : BitVec 4) (d : Word32) : State :=
  (List.range 4).foldl (fun s i => if bitAt (seen be d) i then s.saveOn (ctxOf c (BitVec.ofNat 2 i)) .preempt else s) s

/-- A write of an interrupt register of a context in a world (R362, R364, R365). -/
def State.cxWrite (s : State) (w : World) (x : CtxId) (r : XReg) (be : BitVec 4) (d : Word32) : State :=
  match r with
  | .irqPend => (s.maskedWrite (cxReg x .irqPend) be (s.irqMask w x) d).timerSet x
  | .irqEn => s.maskedWrite (cxReg x .irqEn) be (s.irqMask w x) d
  | .doorbell => if bitAt (seen be d) 0 && bitAt (s.irqMask w x) 2 then s.setIrq x 2 else s
  | .nmi => if w = .secure then s.plainWrite (cxReg x .nmi) be d else s
  | .startLo => s
  | .startHi => s

/-- Whether CORE_VEC of a core is locked (R451): once the core is released, until it is fenced, and again from the end of its
return (R514 step 5). -/
def State.vecLocked (s : State) (c : CoreId) : Bool :=
  decide ((s.core c.toNat).state = .running) || s.released c && !(decide ((s.core c.toNat).state = .fenced) || decide ((s.core c.toNat).state = .returning))

/-! ## Bittern (R398, R399) -/

/-- A write of WDT_CTRL: RWL under its own LOCK, a TIMEOUT_MS outside 1 to 16,000 reserved (R17). -/
def State.wdtWrite (s : State) (be : BitVec 4) (d : Word32) : State :=
  let old := s.reg (.d .wdtCtrl)
  if bitAt old 31 then s
  else
    let new := (DReg.spec .wdtCtrl).apply old (laneMask be) d
    let t := bitsOf new 23 8
    let new := if 1 ≤ t ∧ t ≤ 16000 then new else setBits new 23 8 (bitsOf old 23 8)
    let restart := (bitAt new 0 && !bitAt old 0) || (bitAt new 0 && decide (bitsOf new 23 8 ≠ bitsOf old 23 8))
    let s1 := s.setReg (.d .wdtCtrl) new
    if restart then { s1 with wdtHalf := false } else s1

/-- A kick (R399). -/
def State.wdtKick (s : State) : State :=
  if bitAt (s.reg (.d .wdtCtrl)) 0 then { s with wdtWarned := false, wdtHalf := false } else s

/-! ## Enclaves (R384, R385) -/

/-- The table that ENCL_CTRL named when the commit began (R384). -/
def State.enclBase (s : State) : Nat := 0xF000000000 + bitsOf s.enclCtl 22 16 * 0x10000

/-- Whether every access that was checked under the table in force has been performed (R385): no store waits in a buffer. -/
def State.allPerformed (s : State) : Bool := s.ctxs.all (fun e => e.2.storeBuf.isEmpty)

/-- A write of ENCL_COMMIT (R384, R385): a commit begins with ENCL_CTRL as it stands, unless one is in progress. -/
def State.enclCommit (s : State) (d : Word32) : State :=
  if bitAt d 0 && !bitAt (s.reg (.d .enclStatus)) 0 then
    { s.orReg (.d .enclStatus) 1 with enclCtl := s.reg (.d .enclCtrl) }
  else s

/-- The 32 bytes of descriptor n, as numbers: word 0, word 1, OWNER, GFIRST, GCOUNT, exit record. -/
structure Descriptor where
  num : Nat
  w0 : Nat
  w1 : Nat
  owner : Nat
  gfirst : Nat
  gcount : Nat
  exit : Nat
  deriving DecidableEq, Repr

/-- Read descriptor n of a table (Table 16.6). -/
def State.descriptor (s : State) (base n : Nat) : Descriptor :=
  let b := s.memRead (base + 32 * n) 32
  { num := n, w0 := leNat (slice b 0 8), w1 := leNat (slice b 8 8), owner := leNat (slice b 16 4)
    gfirst := leNat (slice b 20 2), gcount := leNat (slice b 22 2), exit := leNat (slice b 24 8) }

/-- The valid bit. -/
def Descriptor.valid (d : Descriptor) : Bool := decide (d.w0 % 2 = 1)
/-- The first frame. -/
def Descriptor.base (d : Descriptor) : Nat := d.w0 / 4096 % 2 ^ 28
/-- The last frame. -/
def Descriptor.limit (d : Descriptor) : Nat := d.w1 / 4096 % 2 ^ 28

/-- FORMAT of R385: no must-be-zero bit set, BASE not above LIMIT, and the gates within 65,536. -/
def Descriptor.formatGood (d : Descriptor) : Bool :=
  decide (d.w0 / 4 % 1024 = 0) && decide (d.w0 < 2 ^ 40) && decide (d.w1 % 4096 = 0) && decide (d.w1 < 2 ^ 40)
    && decide (d.owner < 1024) && decide (d.exit / 2 ^ 48 % 2 ^ 15 = 0) && decide (d.base ≤ d.limit)
    && decide (d.gfirst + d.gcount ≤ 65536)

/-- Whether two frame ranges meet. -/
def rangesMeet (a b c d : Nat) : Bool := decide (a ≤ d) && decide (c ≤ b)

/-- RANGE of R385. -/
def State.rangeGood (s : State) (d : Descriptor) : Bool :=
  decide (s.secWeir ≤ d.base * 4096) && decide ((d.limit + 1) * 4096 ≤ s.dramSize)

/-- OVERLAP of R385 for one descriptor: no other valid range shares a frame with it. -/
def apart (ds : List Descriptor) (d : Descriptor) : Bool :=
  !ds.any (fun e => decide (e.num ≠ d.num) && rangesMeet d.base d.limit e.base e.limit)

/-- SITE_BUF_BASE (R103). -/
def State.siteBufBase (s : State) : Nat := s.pairBase (.d .siteBufBaseLo) (.d .siteBufBaseHi) 19

/-- AREA of R385. -/
def State.areaGood (s : State) (d : Descriptor) : Bool :=
  let b := d.base * 4096
  let l := d.limit * 4096 + 4095
  !(s.keyV && rangesMeet b l s.keyBase (s.keyBase + s.dramSize / 4096 - 1))
    && !(s.ctxBaseSet && rangesMeet b l s.ctxBase (s.ctxBase + 0xFFFFF))
    && !(s.siteBufSet && rangesMeet b l s.siteBufBase (s.siteBufBase + 0x1FFFFFFF))

/-- The first check of R385 that fails, with the lowest-numbered offending descriptor. -/
def State.enclFailure (s : State) (ds : List Descriptor) : Option (Nat × Nat) :=
  let bad := fun (f : Descriptor → Bool) => ds.find? (fun d => !f d)
  if s.sramWeir < s.enclBase + 0x10000 then some (1, 0)
  else match bad Descriptor.formatGood with
    | some d => some (2, d.num)
    | none => match bad s.rangeGood with
      | some d => some (3, d.num)
      | none => match bad (apart ds) with
        | some d => some (4, d.num)
        | none => (bad s.areaGood).map (fun d => (5, d.num))

/-- A commit reads the table: each poisoned word of it is consumed (R336). Which agent reads it is open: AGENT is a free value
(notes/assumptions/67.md). -/
def State.enclReads (s : State) : State :=
  match (s.poison.filter (fun e => e.2 && decide (s.enclBase ≤ e.1) && decide (e.1 < s.enclBase + 0x10000))).map (·.1) with
  | [] => s
  | ws => s.fresh.2.countPoison 0 (s.fresh.1.toNat % 16) ws

/-- The end of a commit that fails with a code at a descriptor. -/
def State.enclFails (s : State) (c n : Nat) : State :=
  (if c = 1 then s else s.enclReads).setReg (.d .enclStatus) (BitVec.ofNat 32 (16 * c + 65536 * n))

/-- A commit ends (R385): the table is applied once every access checked under the old one has been performed, or the result
names the failure. -/
def State.enclDone (s : State) : State :=
  let st := s.reg (.d .enclStatus)
  if !bitAt st 0 then s
  else if !bitAt s.enclCtl 0 then
    if !s.allPerformed then s
    else { s.setReg (.d .enclStatus) 0 with encl := [], enclV := false, enclTable := s.enclBase }
  else
    let ds := ((List.range 2048).map (s.descriptor s.enclBase)).filter Descriptor.valid
    match s.enclFailure ds with
    | some (c, n) => s.enclFails c n
    | none =>
      if !s.allPerformed then s
      else { s.enclReads.setReg (.d .enclStatus) 0 with
        enclV := true, enclTable := s.enclBase
        encl := ds.map (fun d => { num := d.num, dbg := decide (d.w0 / 2 % 2 = 1), base := d.base, limit := d.limit
                                   owner := BitVec.ofNat 10 d.owner, gfirst := d.gfirst, gcount := d.gcount }) }

/-! ## LC_DISPOSE (R120) -/

/-- Record LC_DISPOSE_RESULT. -/
def State.disposeResult (s : State) (k : LinkId) (st act res : Nat) : State :=
  s.setReg (.link k .disposeResult) (BitVec.ofNat 32 (st + 256 * act + 65536 * res))

/-- A write of LC_DISPOSE. -/
def State.dispose (s : State) (k : LinkId) (st : StationId) (act : Nat) : State :=
  let res := fun (s : State) (c : Nat) => s.disposeResult k st.toNat act c
  if act = 0 ∨ act = 3 then res s 4
  else match s.fedSite k st with
    | none => res s 3
    | some n =>
      let v := s.site n
      if act = 1 then
        if v.txn = .undelivered ∧ v.woffPending = false then
          if s.stationUp n then
            res (((s.upSite n (fun v => { v with txn := .replaying, armed := false })).resend n v.unacked).startSettle n) 0
          else res (s.upSite n (fun v => { v with armed := true })) 1
        else res s 2
      else if v.woffPending = false ∧ (v.txn = .undelivered ∨ (v.txn = .taken ∧ v.tstate ≠ .loaded)) then
        res ((s.upSite n (fun v => { v with woffPending := true })).accept n .writeOff) 0
      else res s 2

/-! ## Pairs (R22, R23) -/

/-- The bits of a half of a pair that a write may leave. -/
def Reg.pairMask (r : Reg) : Word32 :=
  match r with
  | .site _ .jrnlBaseLo => 0xFFFFF00F
  | .site _ .jrnlBaseHi => 0xFF
  | .core _ (.cx _ .startLo) | .core _ (.cx _ .startHi) | .boot (.cx .startLo) | .boot (.cx .startHi) => 0xFFFFFFFF
  | r => r.spec.rw ||| r.spec.w1s

/-- The staged `_LO` bytes and lanes of a requester. -/
def State.stagedOf (s : State) (q : Requester) (lo : Reg) : Word32 × BitVec 4 := (smGet s.stagedLo none (pairKey q lo)).getD (0, 0)

/-- A write to `_LO` is staged, merging with what is staged (R22). -/
def State.stageLo (s : State) (q : Requester) (lo : Reg) (be : BitVec 4) (d : Word32) : State :=
  let old := s.stagedOf q lo
  { s with stagedLo := smSet s.stagedLo none (pairKey q lo) (some (mergeBits old.1 (laneMask be) d, old.2 ||| be)) }

/-- Drop a staged `_LO` value. -/
def State.dropLo (s : State) (q : Requester) (lo : Reg) : State :=
  { s with stagedLo := smSet s.stagedLo none (pairKey q lo) none }

/-- The 40-bit base that a pair's new halves hold. -/
def baseOf (lo hi : Word32) (lowBit : Nat) : Nat := hi.toNat % 256 * 2 ^ 32 + lo.toNat / 2 ^ lowBit * 2 ^ lowBit

/-- Whether any tenant is not ABSENT (R70, R103). -/
def State.anyTenant (s : State) : Bool := s.sites.any (fun e => decide (e.2.tstate ≠ .absent))

/-- Whether an area lies wholly in DRAM at or above the weir (R70, R103, R419). -/
def State.aboveWeir (s : State) (base len : Nat) : Bool :=
  decide (s.secWeir ≤ base) && decide (base + len ≤ s.dramSize)

/-- Whether a ring may be installed for tenant n (R419). -/
def State.ringPlaced (s : State) (n : SiteId) (base size : Nat) : Bool :=
  let l := base + 2 ^ size * 4096 - 1
  s.aboveWeir base (2 ^ size * 4096)
    && !(s.keyV && rangesMeet base l s.keyBase (s.keyBase + s.dramSize / 4096 - 1))
    && !(s.vaultV && rangesMeet base l s.vaultBase (s.vaultBase + 0x1FFFF))
    && !(s.stageV && rangesMeet base l s.stageBase (s.stageBase + 0x1FFFF))
    && !(s.ctxBaseSet && rangesMeet base l s.ctxBase (s.ctxBase + 0xFFFFF))
    && !(s.siteBufSet && rangesMeet base l s.siteBufBase (s.siteBufBase + 0x1FFFFFFF))
    && !s.encl.any (fun e => decide (e.owner ≠ n) && rangesMeet base l (e.base * 4096) (e.limit * 4096 + 4095))

/-- Store both halves of a pair. -/
def State.setPair (s : State) (lo : Reg) (l h : Word32) : State := (s.setReg lo l).setReg lo.hiOf h

/-- Install a ring (R419): HEAD 0, the last record of the old ring kept for the OPEN record, and an OPEN append. -/
def State.installRing (s : State) (n : SiteId) (l h : Word32) : State :=
  let prev := if (s.site n).ringSet && decide (s.head n ≠ 0) then some (s.head n, (s.site n).lastTag) else none
  let s1 := (s.setPair (.site n .jrnlBaseLo) l h).setReg (.site n .jrnlHead) 0
  (s1.upSite n (fun v => { v with
    ringSet := true, prevRing := prev
    appends := { kind := .opening } :: v.appends.filter (fun a => decide (a.kind ≠ .opening)) })).tryBegin n

/-- Apply a pair's new halves under its register's own rules; an ignored write changes nothing (R22). -/
def State.applyPair (s : State) (q : Requester) (w : World) (lo : Reg) (l h : Word32) : State :=
  match lo with
  | .d .ctxBaseLo =>
    if !s.anyTenant && s.aboveWeir (baseOf l h 20) 0x100000 then { s.setPair lo l h with ctxBaseSet := true } else s
  | .d .siteBufBaseLo =>
    if !s.anyTenant && s.aboveWeir (baseOf l h 19) 0x20000000 then { s.setPair lo l h with siteBufSet := true } else s
  | .d .keyBaseLo =>
    let b := baseOf l h 12 + s.dramSize / 4096
    if bitAt (s.reg (.d .keyBaseHi)) 31 || (bitAt l 0 && !(decide (b ≤ s.secWeir) && decide (b ≤ s.dramSize))) then s
    else s.setPair lo l h
  | .d .secWeirLo =>
    let b := baseOf l h 20
    if bitAt (s.reg (.d .secWeirHi)) 31 || (s.keyV && decide (b < s.keyBase + s.dramSize / 4096))
      || (s.ctxBaseSet && decide (s.ctxBase < b)) || (s.siteBufSet && decide (s.siteBufBase < b)) then s
    else s.setPair lo l h
  | .d .assignLinkLo | .d .assignTimerLo | .d .assignDbellLo =>
    if bitAt (s.reg (.d .assignLock)) 0 then s else s.setPair lo l h
  | .core c .coreVecLo =>
    if s.vecLocked c then s
    else (s.setPair lo l h).setCore c.toNat { s.core c.toNat with vecWritten := true }
  | .core c (.cx x .startLo) => s.startPair (ctxOf c x) (h ++ l) w
  | .boot (.cx .startLo) => s.startPair bootCtx (h ++ l) w
  | .site n .jrnlBaseLo =>
    if w = .secure ∧ q ≠ .host ∧ (s.site n).txn = .idle ∧ s.opInFlight n = false
      ∧ s.ringPlaced n (baseOf l h 12) (bitsOf l 3 0) = true then s.installRing n l h
    else s
  | .curlew .vaultLo | .curlew .stageLo =>
    if bitAt l 0 && !s.vaultPlaced (baseOf l h 17) then s else s.setPair lo l h
  | .curlew (.crBaseLo k) =>
    s.setPair lo (if bitsOf l 3 0 ≤ 10 then l else setBits l 3 0 (bitsOf (s.reg (.curlew (.crBaseLo k))) 3 0)) h
  | .timer (.cmpLo x) => (s.setPair lo l h).timerSet x
  | .g .aperBaseLo | .d .spaceBaseLo | .d .secRootLo | .d .ueSrcLo => s.setPair lo l h
  | _ => s

/-- Whether a write of the pair would change the weir while a core has been released (R497). -/
def State.weirBusy (s : State) (lo : Reg) (l h : Word32) (be : BitVec 4) : Bool :=
  decide (lo = .d .secWeirLo) && decide (s.reg (.g .coreRelease) ≠ 0)
    && (decide (be = 0) || decide (baseOf l h 20 ≠ s.secWeir))

/-- A write of one half of a pair (R22); none where it is refused with BUSY, which drops the staged value. -/
def State.writePair (s : State) (q : Requester) (w : World) (lo : Reg) (high : Bool) (be : BitVec 4) (d : Word32) :
    Bool × State :=
  if !high then (true, if lo.pairMask = 0 ∨ be = 0 then s else s.stageLo q lo be d)
  else
    let st := s.stagedOf q lo
    let l := mergeBits (s.reg lo) (laneMask st.2 &&& lo.pairMask) st.1
    let hi := lo.hiOf
    let h := mergeBits (s.reg hi) (laneMask be &&& hi.spec.rw ||| (laneMask be &&& hi.pairMask &&& ~~~hi.spec.w1s)) d
      ||| (laneMask be &&& hi.spec.w1s &&& d)
    let s1 := s.dropLo q lo
    if be = 0 then (!s.weirBusy lo l h be, s)
    else if s.weirBusy lo l h be then (false, s1)
    else (true, s1.applyPair q w lo l h)

/-! ## Single registers -/

/-- A secure write of BOOT_STATUS.PHASE (R450). -/
def State.phaseWrite (s : State) (be : BitVec 4) (d : Word32) : State :=
  let p := bitsOf d 3 0
  if be.getLsbD 0 ∧ s.bootPhase = 3 ∧ (p = 4 ∨ p = 0xE) then s.setPhase p else s

/-- A secure write of NMI_CTRL: read-only once LOCK is set (Table 16.3). -/
def State.nmiCtrlWrite (s : State) (be : BitVec 4) (d : Word32) : State :=
  let old := s.reg (.g .nmiCtrl)
  if bitAt old 31 then s else s.setReg (.g .nmiCtrl) (mergeBits old (laneMask be &&& 0x8000FFFF) d)

/-- A write of CFG_COMMIT (R501 to R503); none where it is refused with BUSY. -/
def State.cfgWrite (s : State) (be : BitVec 4) (d : Word32) : Option State :=
  let v := seen be d
  if bitAt v 0 && s.tide.busy then none
  else
    let s1 := if bitAt v 1 then s.discardStaged else s
    some (if bitAt v 0 then s1.commitTide else s1)

/-- A write of CLK_CTRL; none where it is refused with BUSY (R59). -/
def State.clkWrite (s : State) (be : BitVec 4) (d : Word32) : Option State :=
  if s.clkBusy then none else some (s.plainWrite (.g .clkCtrl) be d)

/-- A write of a global register (Table 2.7); none where it is refused with BUSY. A secure write to WDT_STATUS changes nothing,
because R398 keeps its fields equal to WDT_CTRL (notes/assumptions/70.md). -/
def State.gWrite (s : State) (q : Requester) (w : World) (r : GReg) (be : BitVec 4) (d : Word32) : Option State :=
  let monitor := decide (w = .secure) && decide (q ≠ .host)
  let v := seen be d
  match r with
  | .bootStatus => some (if monitor then s.phaseWrite be d else s)
  | .busErrInfo | .mchkStatus => some (s.validClear (.g r) be d)
  | .mbxCtrl => some (s.mbxWrite be d)
  | .cfgCommit => s.cfgWrite be d
  | .coreRelease => some (if monitor then forBits v (fun s c => s.releaseCore (BitVec.ofNat 4 c)) s else s)
  | .coreFence => some (forBits (v >>> 16) (fun s c => s.fenceReq (BitVec.ofNat 4 c)) s)
  | .clkCtrl => s.clkWrite be d
  | .updCtrl => some (if be.getLsbD 0 then s.updRequest (decide (w ≠ .secure)) (bitAt v 0) (bitAt v 1) else s)
  | .nmiCtrl => some (if monitor then s.nmiCtrlWrite be d else s)
  | .thermUserOfs => some (s.plainWrite (.g .thermUserOfs) be d).thermCheck
  | r => some (s.plainWrite (.g r) be d)

/-- A write of SRAM_WEIR (R374, R497); none where it is refused with BUSY. -/
def State.sramWeirWrite (s : State) (be : BitVec 4) (d : Word32) : Option State :=
  let old := s.reg (.d .sramWeir)
  let new := (DReg.spec .sramWeir).apply old (laneMask be) d
  let ofs := if bitsOf new 23 12 ≤ 0x800 then bitsOf new 23 12 else bitsOf old 23 12
  let changes := decide (ofs ≠ bitsOf old 23 12)
  if decide (s.reg (.g .coreRelease) ≠ 0) && (changes || decide (be = 0)) then none
  else some (s.setReg (.d .sramWeir) (setBits new 23 12 (if bitAt old 31 then bitsOf old 23 12 else ofs)))

/-- A write of FUSE_CTRL (R531). -/
def State.fuseWrite (s : State) (be : BitVec 4) (d : Word32) : State :=
  if s.fuseCtrl.busy then s
  else
    let s1 := s.plainWrite (.d .fuseCtrl) be d
    let v := s1.reg (.d .fuseCtrl)
    s1.fuseStart (BitVec.ofNat 3 (bitsOf (seen be d) 18 16)) (BitVec.ofNat 12 (bitsOf v 11 0)) (BitVec.ofNat 3 (bitsOf v 26 24))

/-- A write of L3_SEC_WAYS: WAYS are RWL under its LOCK (R318). -/
def State.secWaysWrite (s : State) (be : BitVec 4) (d : Word32) : State :=
  if bitAt (s.reg (.d .l3SecWays)) 31 then s else s.plainWrite (.d .l3SecWays) be d

/-- A write of SCRUB_CTRL: HOURS 0 is reserved (R17). -/
def State.scrubWrite (s : State) (be : BitVec 4) (d : Word32) : State :=
  let old := s.reg (.d .scrubCtrl)
  let new := (DReg.spec .scrubCtrl).apply old (laneMask be) d
  s.setReg (.d .scrubCtrl) (if bitsOf new 15 8 = 0 then setBits new 15 8 (bitsOf old 15 8) else new)

/-- A write of a system register above 0x3FF; none where it is refused with BUSY. -/
def State.dWrite (s : State) (w : World) (r : DReg) (be : BitVec 4) (d : Word32) : Option State :=
  let v := seen be d
  match r with
  | .irqLinePend => some (s.maskedWrite (.d .irqLinePend) be (s.lineMask w) d)
  | .irqLineEn => some (s.maskedWrite (.d .irqLineEn) be (s.lineMask w) d)
  | .irqRoute k => some (if bitAt (s.lineMask w) k.toNat then s.plainWrite (.d (.irqRoute k)) be d else s)
  | .l3SecWays => some (s.secWaysWrite be d)
  | .l3Ctrl => some (s.maskedWrite (.d .l3Ctrl) be 0x100 d)
  | .integRecInfo => some (s.validClear (.d .integRecInfo) be d)
  | .scrubCtrl => some (s.scrubWrite be d)
  | .sramWeir => s.sramWeirWrite be d
  | .enclCommit => some (s.enclCommit v)
  | .assignLine | .assignRing => some (if bitAt (s.reg (.d .assignLock)) 0 then s else s.plainWrite (.d r) be d)
  | .dbgEn => some (s.dbgWrite be d)
  | .wdtCtrl => some (s.wdtWrite be d)
  | .wdtKick => some (if w = .secure ∧ be ≠ 0 then s.wdtKick else s)
  | .coreReturn => some (forBits v (fun s c => s.returnCore (BitVec.ofNat 4 c)) s)
  | .ueCmd => some (s.ueCmd (BitVec.ofNat 4 (bitsOf v 3 0)))
  | .ucCtrl => some (if bitAt v 0 then s.ucDisable else s)
  | .fuseCtrl => some (s.fuseWrite be d)
  | r => some (s.plainWrite (.d r) be d)

/-- A write of a core register (Table 3.8). -/
def State.cWrite (s : State) (w : World) (c : CoreId) (r : CReg) (be : BitVec 4) (d : Word32) : State :=
  match r with
  | .dispatch => s.dispatchWrite c be d
  | .preempt => s.preemptWrite c be d
  | .cx i r => s.cxWrite w (ctxOf c i) r be d
  | r => s.plainWrite (.core c r) be d

/-- A write of a boot core register (R447, R450): BC_SOFT_RESET and BC_ROM_LOCK by secure accesses of the boot core. -/
def State.bWrite (s : State) (q : Requester) (w : World) (r : BReg) (be : BitVec 4) (d : Word32) : State :=
  let own := decide (q = .ctx bootCtx) && decide (w = .secure)
  let v := seen be d
  match r with
  | .softReset => if own && bitAt v 0 && decide (bitsOf v 15 8 = 0xA5) then s.chipReset .soft else s
  | .romLock => if own then s.plainWrite (.boot .romLock) be d else s
  | .cx r => s.cxWrite w bootCtx r be d
  | _ => s

/-- A write of SB_JRNL_TAIL (R421); appends that waited for space may begin. -/
def State.tailWrite (s : State) (n : SiteId) (be : BitVec 4) (d : Word32) : State :=
  let v := mergeBits (s.reg (.site n .jrnlTail)) (laneMask be) d
  if s.tail n ≤ v.toNat ∧ v.toNat ≤ s.head n + 1 then (s.setReg (.site n .jrnlTail) v).tryBegin n else s

/-- A write of a site register that is no tide-class register (Table 3.1). -/
def State.sWrite (s : State) (n : SiteId) (r : SReg) (be : BitVec 4) (d : Word32) : State :=
  match r with
  | .ctrl => s.sbCtrlWrite n be d
  | .jrnlTail => s.tailWrite n be d
  | r => s.plainWrite (.site n r) be d

/-- A write of a link register that is no tide-class register (Tables 3.9 and 4.8). -/
def State.lWrite (s : State) (k : LinkId) (r : LReg) (be : BitVec 4) (d : Word32) : State :=
  match r with
  | .ctrl => (s.plainWrite (.link k .ctrl) be d).linkCtrlWritten k (s.reg (.link k .ctrl))
  | .dispose =>
    if be = 0 then s
    else s.dispose k (BitVec.ofNat 4 (bitsOf (seen be d) 3 0)) (bitsOf (seen be d) 9 8)
  | r => s.plainWrite (.link k r) be d

/-- A write of a Curlew register (Table 17.6): CW_REQ.VALID lets the waiting operations try again (R410), and CR_PROD posts
descriptors (R429). -/
def State.kWrite (s : State) (r : KReg) (be : BitVec 4) (d : Word32) : State :=
  match r with
  | .cwReq => if bitAt (seen be d) 0 then (s.validClear (.curlew .cwReq) be d).retryAll else s
  | .crProd k => (s.plainWrite (.curlew r) be d).skipAll k
  | r => s.plainWrite (.curlew r) be d

/-- A write of a timer register (R364). -/
def State.tWrite (s : State) (r : TReg) (be : BitVec 4) (d : Word32) : State :=
  match r with
  | .ctrl x => (s.plainWrite (.timer (.ctrl x)) be d).timerSet x
  | r => s.plainWrite (.timer r) be d

/-! ## Every register -/

/-- A write of a register that is half of no pair and holds no tide-class field in the enabled lanes; none where it is
refused with BUSY. -/
def State.liveWrite (s : State) (q : Requester) (w : World) (r : Reg) (be : BitVec 4) (d : Word32) : Option State :=
  match r with
  | .g r => s.gWrite q w r be d
  | .d r => s.dWrite w r be d
  | .core c r => some (s.cWrite w c r be d)
  | .boot r => some (s.bWrite q w r be d)
  | .site n r => some (s.sWrite n r be d)
  | .link k r => some (s.lWrite k r be d)
  | .curlew r => some (s.kWrite r be d)
  | .door _ _ => some s
  | .timer r => some (s.tWrite r be d)

/-- Whether a write meets a tide-class field: L3_CTRL.PF_EN is of the live class (Table 21.1). -/
def Reg.tideLanes (r : Reg) (be : BitVec 4) : Bool := r.isTide && (decide (be = 0) || decide (laneMask be &&& r.tideMask ≠ 0))

/-- The tide part of a write with no lanes: refused as R503 states, and otherwise nothing (R590). -/
def State.tideEmpty (s : State) : Option State := if s.tide.busy && !s.staging then none else some s

/-- A write of a register by a requester in a world that may make it: whether it was accepted (false: refused with BUSY),
and the state after it. A refused `_HI` write drops the staged `_LO` value (R22). -/
def State.regWrite (s : State) (q : Requester) (w : World) (r : Reg) (be : BitVec 4) (d : Word32) : Bool × State :=
  match r.pairOf with
  | some (lo, high) => s.writePair q w lo high be d
  | none =>
    let t := if r.tideLanes be then (if be = 0 then s.tideEmpty else s.tideWrite r be d) else some s
    if s.inTide r then (false, s)
    else match t.bind (fun s => if r.isTide ∧ r ≠ .d .l3Ctrl then some s else s.liveWrite q w r be d) with
      | none => (false, s)
      | some t => (true, t)

end Sys2Proof.Machine
end

