-- ==== Sys2Proof/Machine/Store.lean ====
section
/-! DEFINITION. Stores as they are performed, and the accesses of the host, of the contexts and of the debug access engine
to registers (spec/02; R32, R56, R312, R337, R356, R377, R395, R396, R526). -/

namespace Sys2Proof.Machine

/-! ## Stores (R32, R313, R337, R356) -/

/-- Record a store bus error for a context (R356). -/
def State.storeFail (s : State) (x : CtxId) (addr : Nat) (w : World) (cause : BitVec 8) : State :=
  (s.upCtx x (fun c => { c with storeErr := some (match c.storeErr with
    | none => { addr := addr, world := w, cause := cause, ovf := false }
    | some r => { r with ovf := true }) })).setErrAddr x addr

/-- The agent number of a context's core (Table 14.4). -/
def agentOf (x : CtxId) : Nat := bit (decide (x = bootCtx))

/-- Perform a store of memory bytes for a context; a partial write of a poisoned word is reported (R337). -/
def State.performMem (s : State) (x : CtxId) (e : StoreEntry) : State :=
  match s.droppedWords e.addr e.bytes.length with
  | [] => s.storeWrite e.addr e.bytes
  | w :: _ => (((s.storeWrite e.addr e.bytes).integRec 6 6 (coreOf x % 16) (agentOf x) w)).storeFail x w e.world 4

/-- Perform a 4-byte store to a place of the device region. -/
def State.performReg (s : State) (x : CtxId) (e : StoreEntry) : State :=
  match devPlace e.addr with
  | .hole => s.storeFail x e.addr e.world 3
  | .empty => s
  | .reg r =>
    let t := s.regWrite (.ctx x) e.world r 0xF (BitVec.ofNat 32 (leNat e.bytes))
    if t.1 then t.2 else t.2.storeFail x e.addr e.world 3

/-- Whether a retired store meets a hole; the device region takes the stores of integer instructions only (R32). -/
def State.storeHole (s : State) (x : CtxId) (e : StoreEntry) : Bool :=
  s.refused x .write e.addr e.bytes.length || (decide (s.region e.addr = .device) && !e.word)

/-- Perform one retired store. -/
def State.perform (s : State) (x : CtxId) (e : StoreEntry) : State :=
  if s.storeHole x e then s.storeFail x e.addr e.world 3
  else if s.region e.addr = .device then s.performReg x e
  else s.performMem x e

/-- The oldest store of a context's buffer is performed (R313). -/
def State.performNext (s : State) (x : CtxId) : State :=
  match (s.ctx x).storeBuf with
  | [] => s
  | e :: t => (s.upCtx x (fun c => { c with storeBuf := t })).perform x e

/-- Perform stores in order, at most `n`. -/
def State.performMany : Nat → State → CtxId → State
  | 0, s, _ => s
  | n + 1, s, x => State.performMany n (s.performNext x) x

/-- Drain a context's store buffer. -/
def State.drain (s : State) (x : CtxId) : State := State.performMany (s.ctx x).storeBuf.length s x

/-- An access of a context that comes after its earlier stores are performed (R313); a store may reset the chip, which ends
it. -/
def State.drained (s : State) (x : CtxId) (f : State → State) : State :=
  if (s.drain x).inReset then s.drain x else f (s.drain x)

/-- A context reads its own latest store (R313): where one to the device address still waits, the stores up to it are performed
first. -/
def State.drainFor (s : State) (x : CtxId) (a : Nat) : State :=
  if (s.ctx x).storeBuf.any (fun e => decide (wordOf e.addr = wordOf a)) then s.drain x else s

/-! ## The debug access engine's rights (R395, R396, R448, R526) -/

/-- Whether a register belongs to secure sources alone, where a non-secure access is let through but sees and changes nothing of
them (R362, R363, R376): IRQ_ROUTE of a secure line, CX_DOORBELL of a secure doorbell, and the pending and enable bits of a
context whose sources are all secure (notes/assumptions/74.md). -/
def State.sourceSecure (s : State) (r : Reg) : Bool :=
  let cx := fun (x : CtxId) (r : XReg) => match r with
    | .doorbell => decide (s.dbellWorld x = .secure)
    | .irqPend | .irqEn => decide (s.irqMask .nonSecure x = 0)
    | .nmi | .startLo | .startHi => false
  match r with
  | .d (.irqRoute k) => decide (s.lineWorld k.toNat = .secure)
  | .core c (.cx i r) => cx (ctxOf c i) r
  | .boot (.cx r) => cx bootCtx r
  | _ => false

/-- Whether a location is secure for the engine (R395). -/
def State.secureLoc (s : State) (a : Nat) (write : Bool) : Bool :=
  (s.weirCause a).isSome || (decide (s.region a = .device) && (s.deviceSecure a write || (match regAt (a / 4 * 4) with
    | none => false
    | some r => s.sourceSecure r)))

/-- Whether DBG_EN, the hold of R448, the key array and the enclaves let the engine make an access. -/
def State.daeAllowed (s : State) (a : Nat) (write : Bool) : Bool :=
  let en := s.dbgEn
  let sec := s.secureLoc a write
  let right := if sec then (bitAt en 2 || (!write && bitAt en 3)) else (bitAt en 0 || (!write && bitAt en 1))
  right && !bitAt (s.reg (.boot .status)) 3 && !s.inKeyArray a && (match s.enclAt a with
    | none => true
    | some e => e.dbg)

/-- The world of an engine access (R526). -/
def State.daeWorld (s : State) (a : Nat) (write : Bool) : World := if s.secureLoc a write then .secure else .nonSecure

/-! ## Host cycles (R40 to R56) -/

/-- The completion of an accepted access. -/
def State.done (s : State) (v : Word32) : State :=
  { s with resp := { code := 0, data := v, hdp := bitsFrom 4 (fun k => !parityOf 8 (v.toNat >>> (8 * k))) } }

/-- A refused cycle (R47, R50): the record, HINT_STATUS.BUSERR and line 15. -/
def State.busErr (s : State) (addr code : Nat) (write : Bool) (be : BitVec 4) (lanes : Nat) (performed : Bool) : State :=
  let v := s.reg (.g .busErrInfo)
  let s1 := if bitAt v 0 then s.setReg (.g .busErrInfo) (v ||| 2)
    else (s.setReg (.g .busErrAddr) (BitVec.ofNat 32 (addr / 4 * 4))).setReg (.g .busErrInfo)
      (BitVec.ofNat 32 (1 + 16 * code + 256 * bit write + 4096 * be.toNat + 65536 * lanes + 1048576 * bit performed))
  { (s1.setHint 16).setLine 15 with resp := { code := BitVec.ofNat 4 code } }

/-- The address parity check (R45, R46): HA[23:2], HWR_N, HBE_N[3:0] and HAP hold an odd number of ones. -/
def hapGood (a : Access) (addr : Nat) (write : Bool) : Bool :=
  parityOf 28 (addr / 4 % 2 ^ 22 + 2 ^ 22 * bit (!write) + 2 ^ 23 * (~~~a.be).toNat + 2 ^ 27 * bit a.hap)

/-- The enabled lanes of a write that fail the data parity check (R46). -/
def badLanes (a : Access) (d : Word32) : Nat :=
  sumNat ((List.range 4).map (fun k =>
    if a.be.getLsbD k && !parityOf 9 ((d.toNat >>> (8 * k)) % 256 + 256 * bit (bitAt a.hdp k)) then 2 ^ k else 0))

/-- Whether the interface answers cycles (R57); in PHASE HALT only the maintenance port serves the part (R443). -/
def State.answers (s : State) : Bool := s.accepting && !s.inReset && decide (s.bootPhase ≠ 0xF)

/-- The physical address of an aperture offset (R55). -/
def State.aperAddr (s : State) (o : Nat) : Nat := s.aperBase + o

/-- The refusal of an aperture access, in the order of Table 2.5: 6 HOLE, 5 WEIR, 7 ENCLAVE, 8 ECC. -/
def State.aperRefusal (s : State) (o : Nat) (write : Bool) : Option Nat :=
  let pa := s.aperAddr o
  if !bitAt (s.reg (.g .hostCtrl)) 1 || decide (s.dramSize < pa + 4) || s.inKeyArray pa then some 6
  else if pa < s.secWeir then some 5
  else if (s.enclAt pa).isSome then some 7
  else if !write && s.poisoned pa then some 8
  else none

/-- A refusal of an aperture access; an ECC refusal consumes poison (R336, Table 14.3). -/
def State.aperError (s : State) (addr o code : Nat) (write : Bool) (be : BitVec 4) : State :=
  let s1 := if code = 8 then s.usePoison 2 0 6 (s.aperAddr o) else s
  s1.busErr addr code write be 0 false

/-- An aperture read that is not refused. -/
def State.aperRead (s : State) (o : Nat) : State :=
  let pa := s.aperAddr o
  (s.touch pa 4 false).done (BitVec.ofNat 32 (leNat (s.memRead pa 4)))

/-- Write the enabled bytes of a word. -/
def memSetLanes (m : List Host.Cell) (a : Nat) (be : BitVec 4) (d : Word32) : List Host.Cell :=
  (List.range 4).foldl (fun m k => if be.getLsbD k then memSet m (a + k) (byteOf d.toNat k) else m) m

/-- An aperture write that is not refused: its bytes, or a dropped partial write of a poisoned word (R337); with no lane
it makes no access (R590). -/
def State.aperStore (s : State) (o : Nat) (be : BitVec 4) (d : Word32) : State :=
  let pa := s.aperAddr o
  if be = 0 then s
  else if s.poisoned pa then (s.bumpSat (.d .integPoisonDrop) 1).integRec 1 6 0 6 (wordOf pa)
  else { s with mem := memSetLanes s.mem pa be d }.touch pa 4 true

/-- Store the enabled bytes in the host-to-device buffer. -/
def State.h2dStore (s : State) (o : Nat) (be : BitVec 4) (d : Word32) : State :=
  { s with h2d := (List.range 4).foldl (fun m k => if be.getLsbD k then smSet m 0 (o + k) (byteOf d.toNat k) else m) s.h2d }

/-- A word of a mailbox buffer. -/
def bufWord (m : SMap Byte) (o : Nat) : Word32 := BitVec.ofNat 32 (leNat ((List.range 4).map (fun k => smGet m 0 (o + k))))

/-- Whether a host write to a register changes nothing because its source is secure (R62, R377). -/
def State.hostShut (s : State) (r : Reg) : Bool :=
  match r with
  | .site n _ => decide (s.siteWorld n = .secure)
  | .link k _ => decide (s.linkWorld k = .secure)
  | _ => false

/-- Whether the word of a mailbox offset is poisoned: the host's buffer from 0, the device's from 0x8000. -/
def State.mbxBad (s : State) (o : Nat) : Bool := smGet s.mbxPoison false (o / 8)

/-- A host write to the host-to-device buffer: a poisoned word is not written in part (R337). The word has no physical
address, and its record's is open. -/
def State.mbxStore (s : State) (o : Nat) (be : BitVec 4) (d : Word32) : State :=
  if be ≠ 0 ∧ s.mbxBad o = true then
    ((s.fresh.2.bumpSat (.d .integPoisonDrop) 1).integRec 1 6 0 6 (s.fresh.1.toNat % 2 ^ 40)).done 0
  else (s.h2dStore o be d).done 0

/-- A host read of a mailbox word: refused with MBX where the word is poisoned, which names path P2 (R339, Table 14.1). -/
def State.mbxRead (s : State) (wa o : Nat) (be : BitVec 4) (v : Word32) : State :=
  if s.mbxBad o then
    ((s.fresh.2.bumpSat (.d .integPoisonUse) 1).integRec 2 5 0 6 (s.fresh.1.toNat % 2 ^ 40)).busErr wa 9 false be 0 false
  else s.done v

/-- A host write to a register of the window: refused with MBX or BUSY, or done. -/
def State.hostReg (s : State) (addr : Nat) (r : Reg) (be : BitVec 4) (d : Word32) : State :=
  if r = .g .mbxCtrl ∧ bitAt (seen be d) 16 ∧ s.postRefused be d then s.busErr addr 9 true be 0 false
  else if s.hostShut r then s.done 0
  else
    let t := s.regWrite .host .nonSecure r be d
    if t.1 then t.2.done 0 else t.2.busErr addr 4 true be 0 false

/-- A host write cycle (R46 to R56, R590). A write of a _HI register that fails its data parity performs no access (R46), so a
staged _LO stays staged (notes/assumptions/84.md). -/
def State.hostWrite (s : State) (a : Access) (addr : Nat) (d : Word32) : State :=
  let wa := addr / 4 * 4
  if !s.answers then s
  else if !hapGood a addr true then s.busErr wa 1 true a.be 0 false
  else if badLanes a d ≠ 0 then s.busErr wa 2 true a.be (badLanes a d) false
  else match hostPlace wa with
    | .empty => s.done 0
    | .reg r => s.hostReg wa r a.be d
    | .h2d o => if !s.mbxOpen || s.h2dFull then s.busErr wa 9 true a.be 0 false else s.mbxStore o a.be d
    | .d2h _ => s.busErr wa 9 true a.be 0 false
    | .aperture o =>
      match s.aperRefusal o true with
      | some c => s.aperError wa o c true a.be
      | none => (s.aperStore o a.be d).done 0

/-- A host read cycle (R45 to R56). -/
def State.hostRead (s : State) (a : Access) (addr : Nat) : State :=
  let wa := addr / 4 * 4
  if !s.answers then s
  else if !hapGood a addr false then s.busErr wa 1 false a.be 0 false
  else match hostPlace wa with
    | .empty => s.done 0
    | .reg r =>
      let t := s.regRead .host .nonSecure r
      t.2.done t.1
    | .h2d o => if s.mbxOpen then s.mbxRead wa o a.be (bufWord s.h2d o) else s.busErr wa 9 false a.be 0 false
    | .d2h o =>
      if !s.mbxOpen then s.busErr wa 9 false a.be 0 false
      else if s.d2hFull then s.mbxRead wa (0x8000 + o) a.be (bufWord s.d2h o)
      else s.done 0
    | .aperture o =>
      match s.aperRefusal o false with
      | some c => s.aperError wa o c false a.be
      | none => s.aperRead o

/-- An aperture cycle that is not complete by its timeout (R49): a refusal that stands higher in Table 2.5 is reported
instead; a write already issued is performed. The data of a read has not come, so no
error in it is found and it is discarded. A cycle elsewhere never reaches the timeout, nor does a write with no lane enabled,
which makes no memory access (R590). -/
def State.hostTimeout (s : State) (a : Access) (addr : Nat) (write issued : Bool) (d : Word32) : State :=
  let wa := addr / 4 * 4
  match hostPlace wa with
  | .aperture o =>
    if write && decide (a.be = 0) then s.hostWrite a addr d
    else if !s.answers then s
    else if !hapGood a addr write then s.busErr wa 1 write a.be 0 false
    else if write && decide (badLanes a d ≠ 0) then s.busErr wa 2 true a.be (badLanes a d) false
    else match s.aperRefusal o true with
      | some c => s.aperError wa o c write a.be
      | none =>
        let s1 := if write && issued then s.aperStore o a.be d else if issued then s.touch (s.aperAddr o) 4 false else s
        s1.busErr wa 3 write a.be 0 (write && issued)
  | _ => if write then s.hostWrite a addr d else s.hostRead a addr

/-! ## Register accesses by any requester -/

/-- A violation that a context's access commits (R377, R379): XADDR holds the virtual address, which the command does not
name and is therefore a free value (notes/assumptions/25.md). -/
def State.violate (s : State) (x : CtxId) (a : Nat) (write : Bool) : State :=
  let f := s.fresh
  f.2.raise x (worldExc 3 (if write then .write else .read) f.1.toNat a)

/-- A 4-byte store of a context to the device region, made and performed at once, after every earlier store of it (R313). -/
def State.ctxWrite (s : State) (x : CtxId) (a : Nat) (d : Word32) : State :=
  let w := (s.ctx x).world
  if w = .nonSecure ∧ s.region a = .device ∧ s.deviceSecure a true = true then s.violate x a true
  else (s.drain x).perform x { addr := a, bytes := leBytes 4 d.toNat, world := w, word := true }

/-- A 4-byte load of a context from the device region: the value is shown in `resp`. -/
def State.ctxRead (s : State) (x : CtxId) (a : Nat) : State :=
  let w := (s.ctx x).world
  if s.region a ≠ .device ∨ a % 4 ≠ 0 ∨ devPlace a = .hole then s.raise x (busExc 1 a)
  else if w = .nonSecure ∧ s.deviceSecure a false = true then s.violate x a false
  else match devPlace a with
    | .hole => s
    | .empty => s.done 0
    | .reg r =>
      let t := (s.drainFor x a).regRead (.ctx x) w r
      t.2.done t.1

/-- A write by the debug access engine to a register (R526). -/
def State.daeRegWrite (s : State) (a : Nat) (d : Word32) : State :=
  if !s.daeAllowed a true then s
  else match devPlace a with
    | .hole => s
    | .empty => s
    | .reg r => (s.regWrite (.dae .nonSecure) (s.daeWorld a true) r 0xF d).2

/-- A read by the debug access engine of a register (R526). -/
def State.daeRegRead (s : State) (a : Nat) : State :=
  if !s.daeAllowed a false then s
  else match devPlace a with
    | .hole => s
    | .empty => s.done 0
    | .reg r =>
      let t := s.regRead (.dae .nonSecure) (s.daeWorld a false) r
      t.2.done t.1

/-- A write access: the host's at an address of its window, any other at a physical address. -/
def State.accessWrite (s : State) (a : Access) (addr : PhysAddr) (d : Word32) : State :=
  match a.req with
  | .host => s.hostWrite a (addr.toNat % 2 ^ 24) d
  | .ctx x => s.ctxWrite x addr.toNat d
  | .dae _ => s.daeRegWrite addr.toNat d

/-- A read access. -/
def State.accessRead (s : State) (a : Access) (addr : PhysAddr) : State :=
  match a.req with
  | .host => s.hostRead a (addr.toNat % 2 ^ 24)
  | .ctx x => s.ctxRead x addr.toNat
  | .dae _ => s.daeRegRead addr.toNat

/-- The address at which a requester reaches a register, where it does. -/
def regAddrFor (q : Requester) (r : Reg) : Option Nat :=
  match q with
  | .host => r.hostAddr
  | .ctx _ => some r.addr
  | .dae _ => some r.addr

/-- A write access to a named register; the host reaches only those of its window. -/
def State.writeReg (s : State) (a : Access) (r : Reg) (d : Word32) : State :=
  match regAddrFor a.req r with
  | none => s
  | some x => s.accessWrite a (BitVec.ofNat 40 x) d

/-- A read access to a named register. -/
def State.readReg (s : State) (a : Access) (r : Reg) : State :=
  match regAddrFor a.req r with
  | none => s
  | some x => s.accessRead a (BitVec.ofNat 40 x)

/-- Whether an address of a requester names a register of a kind. -/
def placeReg (a : Access) (addr : PhysAddr) : Option Reg :=
  match a.req with
  | .host => match hostPlace (addr.toNat % 2 ^ 24 / 4 * 4) with
    | .reg r => some r
    | _ => none
  | _ => regAt addr.toNat

end Sys2Proof.Machine
end

