-- ==== Sys2Proof/Machine/HostCmds.lean ====
section
/-! DEFINITION. The commands of the host window: cycles, pairs, records, the aperture and the mailbox, and the global
registers (spec/00 R14 to R23, spec/02). Every access runs through `accessWrite` or `accessRead`; a row that names one
field or one place changes nothing where its operands name another. -/

namespace Sys2Proof.Machine

/-- The lanes an access enables: the host's HBE_N; every other access is a whole word (R19, R26). -/
def lanesOf (a : Access) : BitVec 4 :=
  match a.req with
  | .host => a.be
  | .ctx _ => 0xF
  | .dae _ => 0xF

/-- Whether a write writes 1 to bit k. -/
def writes1 (a : Access) (d : Word32) (k : Nat) : Bool := bitAt (seen (lanesOf a) d) k

/-- Whether a write writes 0 to bit k. -/
def writes0 (a : Access) (d : Word32) (k : Nat) : Bool := bitAt (laneMask (lanesOf a)) k && !bitAt d k

/-- Which half of a pair an access names: none, `_LO` (false) or `_HI` (true). -/
def pairHalf (a : Access) (addr : PhysAddr) : Option Bool :=
  match placeReg a addr with
  | none => none
  | some r => r.pairOf.map (·.2)

/-- Whether a host access names a place of the aperture. -/
def inAperture (a : Access) (addr : PhysAddr) : Bool :=
  decide (a.req = .host) && (match hostPlace (addr.toNat % 2 ^ 24 / 4 * 4) with
    | .aperture _ => true
    | _ => false)

/-- Whether a host access names a place of the mailbox buffers. -/
def inMailbox (a : Access) (addr : PhysAddr) : Bool :=
  decide (a.req = .host) && (match hostPlace (addr.toNat % 2 ^ 24 / 4 * 4) with
    | .h2d _ => true
    | .d2h _ => true
    | _ => false)

/-- REGISTER_WRITE (R14 to R19): a write of any register. -/
def execRegisterWrite (a : Access) (addr : PhysAddr) (data : Word32) (s : State) : Out := .next (s.accessWrite a addr data)

/-- STROBE_DURING_CYCLE (R44): the strobe is ignored and HINT_STATUS.PROTO set. -/
def execStrobeDuringCycle (s : State) : Out := .next (if s.answers then s.setHint 17 else s)

/-- RC_READ (R20): a read of a register with an RC field. -/
def execRcRead (a : Access) (addr : PhysAddr) (s : State) : Out :=
  .next (match placeReg a addr with
    | none => s
    | some r => if r.spec.rc = 0 then s else s.accessRead a addr)

/-- LO_READ (R22): a read of a `_LO` register. -/
def execLoRead (a : Access) (addr : PhysAddr) (s : State) : Out :=
  .next (if pairHalf a addr = some false then s.accessRead a addr else s)

/-- HI_READ (R22): a read of a `_HI` register. -/
def execHiRead (a : Access) (addr : PhysAddr) (s : State) : Out :=
  .next (if pairHalf a addr = some true then s.accessRead a addr else s)

/-- LO_WRITE (R22): a write of a `_LO` register. -/
def execLoWrite (a : Access) (addr : PhysAddr) (data : Word32) (s : State) : Out :=
  .next (if pairHalf a addr = some false then s.accessWrite a addr data else s)

/-- HI_WRITE (R22): a write of a `_HI` register. -/
def execHiWrite (a : Access) (addr : PhysAddr) (data : Word32) (s : State) : Out :=
  .next (if pairHalf a addr = some true then s.accessWrite a addr data else s)

/-- Whether a register holds a record with a VALID bit that frees it (R50, R345). -/
def isRecord (r : Reg) : Bool := decide (r = .g .busErrInfo) || decide (r = .g .mchkStatus) || decide (r = .d .integRecInfo)

/-- VALID_CLEAR (R50, R345): writing 1 to the VALID bit of a record register. -/
def execValidClear (a : Access) (addr : PhysAddr) (data : Word32) (s : State) : Out :=
  .next (match placeReg a addr with
    | none => s
    | some r => if isRecord r && writes1 a data 0 then s.accessWrite a addr data else s)

/-- APERTURE_READ (R55, R56), which may correct a word or find one uncorrectable (R335, R336). -/
def execApertureRead (a : Access) (addr : PhysAddr) (u : Upset) (s : State) : Out :=
  .next (if inAperture a addr then s.withUpset u (fun s => s.accessRead a addr) else s)

/-- APERTURE_WRITE (R55, R56). -/
def execApertureWrite (a : Access) (addr : PhysAddr) (data : Word32) (s : State) : Out :=
  .next (if inAperture a addr then s.accessWrite a addr data else s)

/-- TIMEOUT (R49): an aperture cycle not complete by its timeout. -/
def execTimeout (a : Access) (addr : PhysAddr) (write issued : Bool) (data : Word32) (s : State) : Out :=
  .next (if inAperture a addr then s.hostTimeout a (addr.toNat % 2 ^ 24) write issued data else s)

/-- MAILBOX_WRITE (R54). -/
def execMailboxWrite (a : Access) (addr : PhysAddr) (data : Word32) (s : State) : Out :=
  .next (if inMailbox a addr then s.accessWrite a addr data else s)

/-- The offset of a host address in the mailbox buffers. -/
def mbxOffset (addr : PhysAddr) : Nat := addr.toNat % 2 ^ 24 - 0x10000

/-- Whether a host read of the mailbox reads a word of a buffer (R54): the interface answers, the parity is good, the mailbox
is open, and the device's buffer is full where it is the one read. -/
def State.mbxServed (s : State) (a : Access) (addr : PhysAddr) : Bool :=
  s.answers && hapGood a (addr.toNat % 2 ^ 24) false && s.mbxOpen && (decide (mbxOffset addr < 0x8000) || s.d2hFull)

/-- MAILBOX_READ (R54), which may correct the word or find it uncorrectable (R335, R336). -/
def execMailboxRead (a : Access) (addr : PhysAddr) (found : WordFound) (s : State) : Out :=
  .next (if inMailbox a addr then
      if s.mbxServed a addr && !s.mbxBad (mbxOffset addr) then
        match found with
        | .good => s.accessRead a addr
        | .corrected => (s.bumpSat (.d .integCeSram) 1).accessRead a addr
        | .uncorrectable =>
          (s.mbxFound 2 6 (mbxOffset addr)).busErr (mbxOffset addr / 4 * 4 + 0x10000) 9 false a.be 0 false
      else s.accessRead a addr
    else s)

/-- H2D_POST (R54). -/
def execH2dPost (a : Access) (data : Word32) (s : State) : Out :=
  .next (if writes1 a data 16 then s.writeReg a (.g .mbxCtrl) data else s)

/-- D2H_ACK (R54). -/
def execD2hAck (a : Access) (data : Word32) (s : State) : Out :=
  .next (if writes1 a data 17 then s.writeReg a (.g .mbxCtrl) data else s)

/-- Whether the monitor is the device side of the mailbox (Table 2.17, R494): the ROM has jumped to it. -/
def State.monServes (s : State) : Bool :=
  !s.inReset && decide (s.boot.phase = .off) && (decide (s.bootPhase = 3) || decide (s.bootPhase = 4))

/-- The monitor opens the mailbox by serving it (Table 2.17, notes/assumptions/71.md). -/
def State.monOpen (s : State) : State := if s.monServes then { s with mbxOpen := true } else s

/-- MESSAGE_CONSUMED (R54): the device side has consumed the host's message, and takes messages. `words` is what the ROM finds
as it reads the words of a message, by number. -/
def execMessageConsumed (words : List (BitVec 12 × WordFound)) (u : Upset) (s : State) : Out :=
  .next (s.withUpset u (fun s => s.monOpen.consume words))

/-- Whether the device side may post a reply of these bytes: it serves the mailbox, the buffer is free, and the length fits. The
spec gives no bound of D2H_LEN; that of the buffer is taken, and 0 and longer replies post nothing (notes/assumptions/71.md). -/
def State.mayReply (s : State) (bytes : List Byte) : Bool :=
  (s.mbxOpen || s.monServes) && !s.d2hFull && decide (1 ≤ bytes.length) && decide (bytes.length ≤ 32768)

/-- REPLY (R54): the device side posts a reply with its CODE. -/
def execReply (code : Byte) (bytes : List Byte) (s : State) : Out :=
  .next (if s.mayReply bytes then s.monOpen.postReply code.toNat bytes else s)

/-- HBCLK_MEASURE (Table 2.13): a measuring window ends. -/
def execHbclkMeasure (mhz : Byte) (s : State) : Out := .next (if s.inReset then s else { s with hbclkMhz := mhz })

/-- RNG_DATA_READ (R417). -/
def execRngDataRead (a : Access) (s : State) : Out := .next (s.readReg a (.g .rngData))

/-- CLK_CTRL_WRITE (R59, R552). -/
def execClkCtrlWrite (a : Access) (data : Word32) (s : State) : Out := .next (s.writeReg a (.g .clkCtrl) data)

/-- PHASE_WRITE (R450). -/
def execPhaseWrite (a : Access) (data : Word32) (s : State) : Out := .next (s.writeReg a (.g .bootStatus) data)

/-- START (R473): UPD_CTRL.START written 1. -/
def execStart (a : Access) (data : Word32) (s : State) : Out :=
  .next (if writes1 a data 0 then s.writeReg a (.g .updCtrl) data else s)

/-- ABORT (R473): UPD_CTRL.ABORT written 1. -/
def execAbort (a : Access) (data : Word32) (s : State) : Out :=
  .next (if writes1 a data 1 then s.writeReg a (.g .updCtrl) data else s)

/-- UPD_CTRL_SECURE_READ (R473): a secure read takes the requests. -/
def execUpdCtrlSecureRead (a : Access) (s : State) : Out :=
  .next (if s.worldOf a.req = .secure then s.readReg a (.g .updCtrl) else s)

/-- COMMIT (R502, R503): CFG_COMMIT.COMMIT written 1. -/
def execCommit (a : Access) (data : Word32) (s : State) : Out :=
  .next (if writes1 a data 0 then s.writeReg a (.g .cfgCommit) data else s)

/-- DISCARD (R501): CFG_COMMIT.DISCARD written 1. -/
def execDiscard (a : Access) (data : Word32) (s : State) : Out :=
  .next (if writes1 a data 1 then s.writeReg a (.g .cfgCommit) data else s)

/-- INTERFACE_ACCEPTS_CYCLES (R57): 10 µs after the internal reset the host interface answers. -/
def execInterfaceAcceptsCycles (s : State) : Out := .next (if s.inReset then s else { s with accepting := true })

end Sys2Proof.Machine
end

