-- ==== Sys2Proof/Machine/CoreCmds.lean ====
section
/-! DEFINITION. The commands of tides, of the fence, release, start and return of ledger cores, and of the start pairs
(spec/18 R452 to R454, spec/21). -/

namespace Sys2Proof.Machine

/-! ## Tides -/

/-- Whether a write names a tide-class register. -/
def namesTide (a : Access) (addr : PhysAddr) : Bool :=
  match placeReg a addr with
  | none => false
  | some r => r.isTide

/-- TIDE_STAGE_WRITE (R498, R499): a tide-class write while STAGE is set. -/
def execTideStageWrite (a : Access) (addr : PhysAddr) (data : Word32) (s : State) : Out :=
  .next (if namesTide a addr && s.staging then s.accessWrite a addr data else s)

/-- TIDE_IMMEDIATE_WRITE (R500): a tide-class write while STAGE is clear. -/
def execTideImmediateWrite (a : Access) (addr : PhysAddr) (data : Word32) (s : State) : Out :=
  .next (if namesTide a addr && !s.staging then s.accessWrite a addr data else s)

/-- TENANT_CONVERSION (R508 step 2): a site of a tide converts where its tenant is not loaded. -/
def execTenantConversion (n : SiteId) (u : Upset) (s : State) : Out := .next (s.withUpset u (fun s => s.convert n false))

/-- TIDE_FORCE (R508 step 3): a tenant still unconverted and loaded is to be saved. -/
def execTideForce (n : SiteId) (s : State) : Out :=
  .next (if s.tide.busy && !s.tide.stopping && !(entriesOf s.tide.entries n).isEmpty then s.requestSave n .tide else s)

/-! ## Saving a tenant (R80, R129, R357) -/

/-- Vector 3 for a recorded store bus error, in a world (R347, R356, R357): the record is cleared. -/
def State.enterStoreErr (s : State) (x : CtxId) (w : World) (e : StoreErr) : State :=
  (s.upCtx x (fun c => { c with storeErr := none })).enter x 3 w
    { xpc := (s.ctx x).pc, xaddr := e.addr, xinfo := e.cause.toNat + 512 * bit e.ovf, async := true, dly := none }

/-- Save a loaded tenant that is at a save point, its store buffer drained first; a bus error record of world 0
takes vector 3 there instead, and the save waits for the next save point (R129, R130, R357). -/
def State.trySave (s : State) (n : SiteId) (r : SaveReason) : State :=
  let x := (s.site n).onCtx
  if (s.site n).tstate = .loaded ∧ (s.ctx x).savePoint then
    let s1 := s.drain x
    match (s1.ctx x).storeErr with
    | some e => if e.world = .nonSecure then s1.enterStoreErr x .nonSecure e else s1.saveTenant n r
    | none => s1.saveTenant n r
  else s

/-! ## Fences (R511, R512) -/

/-- The four contexts of a ledger core. -/
def coreCtxs (c : CoreId) : List CtxId := ([0, 1, 2, 3] : List (BitVec 2)).map (ctxOf c)

/-- Save the tenant of a context for a fence; a FAULT that is due is made with that save (Table 3.7). -/
def State.fenceSave (s : State) (x : CtxId) : State :=
  match (s.ctx x).occ with
  | .tenant n => s.trySave n (((s.site n).save).getD .fence)
  | _ => s

/-- Whether a context keeps the fence of its core waiting: it holds a tenant, or its delay bundle is next (R147, R511). -/
def State.fenceWaits (s : State) (x : CtxId) : Bool :=
  match (s.ctx x).occ with
  | .tenant _ => true
  | .free => false
  | .exec | .monitor => (s.ctx x).delay.isSome && !(s.ctx x).stopped && !(s.ctx x).halted

/-- The steps of a fence of a running core (R511): tenants are saved, stores performed, the other contexts' state
discarded, and the core reads FENCED. A tenant that is at no save point, or that takes vector 3 there, keeps the fence
waiting, and so does a context whose delay bundle is next. During the stop of an atomic tide no fence begins (Table 21.2). -/
def State.fenceDone (s : State) (c : CoreId) : State :=
  if (s.core c.toNat).state = .running ∧ (s.core c.toNat).fencing = true ∧ s.tide.stopping = false then
    let s1 := (coreCtxs c).foldl State.fenceSave s
    if (coreCtxs c).any s1.fenceWaits then s1
    else
      let s2 := (coreCtxs c).foldl State.drain s1
      ((coreCtxs c).foldl State.freeCtx s2).markFenced c (s.core c.toNat).fenceWhy
  else s

/-- FENCE_REQ (R511): CORE_FENCE.FENCE_REQ written. -/
def execFenceReq (a : Access) (data : Word32) (s : State) : Out := .next (s.writeReg a (.g .coreFence) data)

/-- CORE_FENCE_DONE (R511). -/
def execCoreFenceDone (c : CoreId) (u : Upset) (s : State) : Out := .next (s.withUpset u (fun s => s.fenceDone c))

/-! ## Release, start and return -/

/-- CORE_RELEASE (R452). -/
def execCoreRelease (a : Access) (data : Word32) (s : State) : Out := .next (s.writeReg a (.g .coreRelease) data)

/-- CORE_START (R453): a released core starts; `bad` is the word of the patch copy, by store and address, that it finds
uncorrectable (R490). -/
def execCoreStart (c : CoreId) (bad : Option (BitVec 2 × BitVec 14)) (s : State) : Out := .next (s.coreStarts c bad)

/-- CORE_RETURN (R514). -/
def execCoreReturn (a : Access) (data : Word32) (s : State) : Out := .next (s.writeReg a (.d .coreReturn) data)

/-- CORE_RETURN_DONE (R514, R515): `failed` is how the return failed, or 0, and `addr` and `store` where. -/
def execCoreReturnDone (c : CoreId) (failed : BitVec 2) (addr : BitVec 14) (store : BitVec 2) (s : State) : Out :=
  .next (s.returnDone c failed addr store)

/-- CX_START (R454): a write of CX_START_HI. -/
def execCxStart (a : Access) (x : CtxId) (data : Word32) (s : State) : Out := .next (s.writeReg a (cxReg x .startHi) data)

end Sys2Proof.Machine
end

