-- ==== Sys2Proof/Machine/SiteCmds.lean ====
section
/-! DEFINITION. The commands of the site blocks, of the dispatcher's registers and of the system registers (spec/03, spec/16). -/

namespace Sys2Proof.Machine

/-! ## SB_CTRL (Table 3.2, R71) -/

/-- EN_WRITTEN_1 (R73). -/
def execEnWritten1 (a : Access) (n : SiteId) (data : Word32) (s : State) : Out :=
  .next (if writes1 a data 0 then s.writeReg a (.site n .ctrl) data else s)

/-- EN_WRITTEN_0 (R75). -/
def execEnWritten0 (a : Access) (n : SiteId) (data : Word32) (s : State) : Out :=
  .next (if writes0 a data 0 then s.writeReg a (.site n .ctrl) data else s)

/-- HOLD_WRITTEN_1 (R80). -/
def execHoldWritten1 (a : Access) (n : SiteId) (data : Word32) (s : State) : Out :=
  .next (if writes1 a data 1 then s.writeReg a (.site n .ctrl) data else s)

/-- HOLD_WRITTEN_0 (Table 3.7). -/
def execHoldWritten0 (a : Access) (n : SiteId) (data : Word32) (s : State) : Out :=
  .next (if writes0 a data 1 then s.writeReg a (.site n .ctrl) data else s)

/-- FAULT (R81): SB_CTRL.FAULT written 1. -/
def execFault (a : Access) (n : SiteId) (data : Word32) (s : State) : Out :=
  .next (if writes1 a data 8 then s.writeReg a (.site n .ctrl) data else s)

/-- RESUME (R81): SB_CTRL.RESUME written 1. -/
def execResume (a : Access) (n : SiteId) (data : Word32) (s : State) : Out :=
  .next (if writes1 a data 9 then s.writeReg a (.site n .ctrl) data else s)

/-- AUTO_REPLAY (R120): SB_CTRL.AUTO_REPLAY written 1. -/
def execAutoReplay (a : Access) (n : SiteId) (data : Word32) (u : Upset) (s : State) : Out :=
  .next (if writes1 a data 2 then s.withUpset u (fun s => s.writeReg a (.site n .ctrl) data) else s)

/-- CTR_CLEAR (R67): SB_CTRL.CTR_CLEAR written 1. -/
def execCtrClear (a : Access) (n : SiteId) (data : Word32) (s : State) : Out :=
  .next (if writes1 a data 10 then s.writeReg a (.site n .ctrl) data else s)

/-- Whether a clear settlement of a site is with Curlew. -/
def Site.clearQueued (v : Site) : Bool :=
  v.appends.any (fun a => match a.kind with
    | .clear => true
    | _ => false)

/-- CLEAR_SETTLEMENT (R67): a pending clear becomes an append once TXN reads IDLE; its record zeroes the counters. -/
def execClearSettlement (n : SiteId) (u : Upset) (s : State) : Out :=
  .next (if (s.site n).clearPending && decide ((s.site n).txn = .idle) && !(s.site n).clearQueued then
      s.withUpset u (fun s => s.accept n .clear)
    else s)

/-- SB_JRNL_TAIL_WRITE (R421). -/
def execSbJrnlTailWrite (a : Access) (n : SiteId) (data : Word32) (u : Upset) (s : State) : Out :=
  .next (s.withUpset u (fun s => s.writeReg a (.site n .jrnlTail) data))

/-- RING_INSTALL (R419): a write of SB_JRNL_BASE_HI. -/
def execRingInstall (a : Access) (n : SiteId) (data : Word32) (s : State) : Out :=
  .next (s.writeReg a (.site n .jrnlBaseHi) data)

/-! ## The dispatcher's registers (Table 3.8, R80) -/

/-- CB_PREEMPT (R80). -/
def execCbPreempt (a : Access) (c : CoreId) (data : Word32) (s : State) : Out := .next (s.writeReg a (.core c .preempt) data)

/-- POOL_CLEAR (R80): a write of CB_DISPATCH. -/
def execPoolClear (a : Access) (c : CoreId) (data : Word32) (s : State) : Out := .next (s.writeReg a (.core c .dispatch) data)

/-! ## System registers -/

/-- CTX_BASE_WRITE (R70). -/
def execCtxBaseWrite (a : Access) (data : Word32) (s : State) : Out := .next (s.writeReg a (.d .ctxBaseHi) data)

/-- SITE_BUF_BASE_WRITE (R103). -/
def execSiteBufBaseWrite (a : Access) (data : Word32) (s : State) : Out := .next (s.writeReg a (.d .siteBufBaseHi) data)

/-- KEY_BASE_WRITE (R267, R278). -/
def execKeyBaseWrite (a : Access) (data : Word32) (s : State) : Out := .next (s.writeReg a (.d .keyBaseHi) data)

/-- SEC_WEIR_WRITE (R374). -/
def execSecWeirWrite (a : Access) (data : Word32) (s : State) : Out := .next (s.writeReg a (.d .secWeirHi) data)

/-- SRAM_WEIR_WRITE (R374). -/
def execSramWeirWrite (a : Access) (data : Word32) (s : State) : Out := .next (s.writeReg a (.d .sramWeir) data)

/-- Whether a register is one of the ASSIGN registers (Table 16.2). -/
def isAssign (r : Reg) : Bool :=
  match r with
  | .d .assignLinkLo | .d .assignLinkHi | .d .assignTimerLo | .d .assignTimerHi | .d .assignDbellLo | .d .assignDbellHi
  | .d .assignLine | .d .assignRing | .d .assignLock => true
  | _ => false

/-- ASSIGN_WRITE (R376). -/
def execAssignWrite (a : Access) (addr : PhysAddr) (data : Word32) (s : State) : Out :=
  .next (match placeReg a addr with
    | none => s
    | some r => if isAssign r then s.accessWrite a addr data else s)

/-- ENCL_COMMIT (R385): ENCL_COMMIT.COMMIT written; the outcome follows with ENCL_COMMIT_DONE. -/
def execEnclCommit (a : Access) (data : Word32) (s : State) : Out := .next (s.writeReg a (.d .enclCommit) data)

/-- ENCL_COMMIT_DONE (R385). -/
def execEnclCommitDone (u : Upset) (s : State) : Out := .next (s.withUpset u State.enclDone)

/-- DBG_EN_WRITE (R393, R397). -/
def execDbgEnWrite (a : Access) (data : Word32) (s : State) : Out := .next (s.writeReg a (.d .dbgEn) data)

/-- WDT_CTRL_WRITE (R398). -/
def execWdtCtrlWrite (a : Access) (data : Word32) (s : State) : Out := .next (s.writeReg a (.d .wdtCtrl) data)

/-- WDT_KICK (R399). -/
def execWdtKick (a : Access) (data : Word32) (s : State) : Out := .next (s.writeReg a (.d .wdtKick) data)

/-- Whether Bittern counts: enabled, and the boot core not halted by the port (R399, R527). -/
def State.wdtCounts (s : State) : Bool := bitAt (s.reg (.d .wdtCtrl)) 0 && !(s.ctx bootCtx).halted

/-- WATCHDOG_WARNING (R399): Bittern's count passes half its limit. -/
def execWatchdogWarning (s : State) : Out :=
  .next (if s.wdtCounts && !s.wdtHalf then
      ({ s with wdtHalf := true, wdtWarned := true }.setIrq bootCtx 3).setHint 23
    else s)

/-- SWDT (R399): Bittern's count reaches its limit. -/
def execSwdt (s : State) : Out := .next (if s.wdtCounts && s.wdtHalf then s.chipReset .swdt else s)

end Sys2Proof.Machine
end

