-- ==== Sys2Proof/Machine/Events.lean ====
section
/-! DEFINITION. What happens to contexts between instructions: stores, timers, doorbells, NMI, interrupts, bus errors, debug
halts, dispatches and saves (spec/03 R76 to R80, spec/15 R355 to R365), and the patrol scrubber (R338). -/

namespace Sys2Proof.Machine

/-! ## Entries (R355) -/

/-- An asynchronous entry with no fault information (Table 15.1). -/
def State.enterAsync (s : State) (x : CtxId) (v : Nat) (w : World) : State :=
  s.enter x v w { xpc := (s.ctx x).pc, xaddr := 0, xinfo := 0, async := true, dly := none }

/-! ## Doorbells, timers, NMI, interrupts, bus errors and halts -/

/-- RING (R362): CX_DOORBELL.RING written. -/
def execRing (a : Access) (x : CtxId) (data : Word32) (s : State) : Out := .next (s.writeReg a (cxReg x .doorbell) data)

/-- TIMER_COMPARE (R364). -/
def execTimerCompare (x : CtxId) (s : State) : Out := .next (s.timerSet x)

/-- NMI reaches a ledger core that NMI_CTRL selects: its lowest-numbered occupied context, or the first to become
occupied (R365). -/
def State.nmiCore (s : State) (c : CoreId) : State :=
  if bitAt (s.reg (.g .nmiCtrl)) c.toNat && decide ((s.core c.toNat).state = .running) then
    match (coreCtxs c).find? (fun x => decide ((s.ctx x).occ ≠ .free)) with
    | some x => s.upCtx x (fun k => { k with nmiPend := true })
    | none => s.setCore c.toNat { s.core c.toNat with nmiWait := true }
  else s

/-- NMI_N (R365): an assertion that passes the glitch filter; the input is active in a chip reset too (Table 23.8). -/
def execNmiN (s : State) : Out :=
  .next (((List.range 16).map (BitVec.ofNat 4)).foldl State.nmiCore (s.upCtx bootCtx (fun k => { k with nmiPend := true })))

/-- NMI_ENTRY (R365): vector 2 of the secure world. -/
def execNmiEntry (x : CtxId) (u : Upset) (s : State) : Out :=
  .next (s.withUpset u (fun s =>
    if s.nmiReady x then ((s.upCtx x (fun c => { c with nmiPend := false })).enterAsync x 2 .secure).tideStop else s))

/-- INTERRUPT_ENTRY (R355, R360, R361). At a boundary where a tide stop is due the interrupt is taken first, and the stop is
made after it (Table 21.2). -/
def execInterruptEntry (x : CtxId) (u : Upset) (s : State) : Out :=
  .next (s.withUpset u (fun s =>
    if s.openBoundary x then
      match s.nextIrq x with
      | none => s
      | some (v, w) => (s.enterAsync x v w).tideStop
    else s))

/-- BUS_ERROR_ENTRY (R355 item 5, R357). -/
def execBusErrorEntry (x : CtxId) (u : Upset) (s : State) : Out :=
  .next (s.withUpset u (fun s => match s.busErrReady x with
    | none => s
    | some e => (s.enterStoreErr x e.world e).tideStop))

/-- DEBUG_HALT (R355 item 1, R395): a requested halt is taken at a boundary. -/
def execDebugHalt (x : CtxId) (s : State) : Out := .next (if s.atBoundary x && s.haltPermitted x then s.haltNow x else s)

/-! ## Stores -/

/-- The oldest store of a buffer fails its parity when it is written into L2 (R342): it is not performed and is recorded. -/
def State.storeParity (s : State) (x : CtxId) : State :=
  match (s.ctx x).storeBuf with
  | [] => s
  | e :: t =>
    ((s.upCtx x (fun c => { c with storeBuf := t })).integRec 6 9 (coreOf x % 16) (agentOf x) (wordOf e.addr)).storeFail x
      e.addr e.world 5

/-- Whether the oldest store of a context would be refused (R32, R337). -/
def State.storeRefused (s : State) (x : CtxId) : Bool :=
  match (s.ctx x).storeBuf with
  | [] => false
  | e :: _ => s.storeHole x e || !(s.droppedWords e.addr e.bytes.length).isEmpty

/-- STORE_BUS_ERROR (R356): the oldest retired store of a context is recorded, for its parity, or because it is refused. -/
def execStoreBusError (x : CtxId) (parity : Bool) (s : State) : Out :=
  .next (if parity then s.storeParity x else if s.storeRefused x then s.performNext x else s)

/-- STORE_PERFORMED (R312, R313): the oldest retired store of a context is performed. -/
def execStorePerformed (x : CtxId) (s : State) : Out := .next (s.performNext x)

/-! ## Dispatch and save (R76 to R80, R129) -/

/-- DISPATCH_LOAD (R77, R78): a cluster's dispatcher loads its next tenant, whose block it may find uncorrectable (R74). No load
begins during a tide stop (R505 step 2). -/
def execDispatchLoad (cl : BitVec 2) (u : Upset) (s : State) : Out :=
  .next (if s.tide.stopping then s
    else match (s.convertDue cl.toNat).nextLoad cl.toNat with
      | none => s.convertDue cl.toNat
      | some (n, x) => (s.convertDue cl.toNat).withUpset u (fun s => s.loadTenant n x))

/-- Whether events ahead of a tenant save apply at a boundary (R355 items 1 to 8). -/
def State.saveHeld (s : State) (x : CtxId) : Bool := !s.openBoundary x || s.tide.stopping || (s.nextIrq x).isSome

/-- TENANT_SAVE (R80, R129, R355 item 9): a tenant whose save is due is saved at a save point. -/
def execTenantSave (n : SiteId) (u : Upset) (s : State) : Out :=
  .next (match (s.site n).save with
    | none => s
    | some r => if s.saveHeld (s.site n).onCtx then s else s.withUpset u (fun s => s.trySave n r))

/-- QUANTUM (R79): the quantum rule of a cluster, one loaded tenant for each waiting one that has caused no such save yet, in
ascending order of site (notes/assumptions/72.md). -/
def execQuantum (cl : BitVec 2) (s : State) : Out :=
  .next (if s.tide.stopping then s
    else s.quantumPick ((s.tenantsIn cl.toNat .pending).filter (fun n => (s.place n).isNone && !(s.site n).quantumAsked)) [])

/-! ## The patrol scrubber (R335, R336, R338) -/

/-- The scrubber consumes the poison of a word's copy in DRAM. -/
def State.scrubPoison (s : State) (a : Nat) : State := (s.bumpSat (.d .integPoisonUse) 1).integRec 5 5 0 7 (wordOf a)

/-- Whether the copy of a word in DRAM may hold poison. -/
def State.maybePoison (s : State) (a : Nat) : Bool := s.poisoned a || smGet s.stale false (wordOf a)

/-- The scrubber reads a word in DRAM (R338): a correctable error is corrected and counted, an uncorrectable one poisons the
word, and poison is consumed. Where a cache holds the word `apart` from its copy in DRAM, what the copy holds is the
outcome's to say, and the word itself stays (notes/assumptions/54.md). -/
def State.scrubWord (s : State) (a : Nat) (outcome : BitVec 2) (apart : Bool) : State :=
  if s.poisoned a && !apart then s.scrubPoison a
  else match outcome.toNat with
    | 0 => s
    | 1 => s.bumpSat (.d .integCeDram) 1
    | 2 => if apart then { s with stale := smSet s.stale false (wordOf a) true }.noteUe 6 a 0 0 7 else s.ueFound a 0 0 7
    | _ =>
      if !s.maybePoison a then s
      else if apart then s.scrubPoison a
      else (s.poisonWord a).scrubPoison a

/-- PATROL_SCRUB (R338): the scrubber reads its next word, with the outcome 0 clean, 1 correctable, 2 uncorrectable, 3
poison that DRAM alone holds. The last word of installed DRAM completes a pass. -/
def execPatrolScrub (outcome : BitVec 2) (apart : Bool) (s : State) : Out :=
  .next (if bitAt (s.reg (.d .scrubCtrl)) 0 && decide (8 ≤ s.dramSize) then
      let s1 := s.scrubWord s.scrubPos outcome apart
      if s.dramSize ≤ s.scrubPos + 8 then { s1 with scrubPos := 0 }.bumpWrap (.d .scrubStatus) 1
      else { s1 with scrubPos := s.scrubPos + 8 }
    else s)

end Sys2Proof.Machine
end

