-- ==== Sys2Proof/Machine/LinkCmds.lean ====
section
/-! DEFINITION. The commands of the Caruthen links: signals, controls, frames, timers and dispositions (spec/04). -/

namespace Sys2Proof.Machine

/-! ## Link states (Table 4.1) -/

/-- The signal of a link appears or goes. -/
def State.setSignal (s : State) (k : LinkId) (b : Bool) : State := s.setLink k { s.link k with signal := b }

/-- SIGNAL_PRESENT (R86): a DOWN link that is enabled and not fenced goes to TRAINING. -/
def execSignalPresent (k : LinkId) (s : State) : Out :=
  .next (if (s.link k).state = .down then (s.setSignal k true).setLinkState k ((s.setSignal k true).linkBase k)
    else s.setSignal k true)

/-- SIGNAL_LOST (R86, R87): a link in TRAINING or UP goes to DOWN. -/
def execSignalLost (k : LinkId) (s : State) : Out :=
  .next (match (s.link k).state with
    | .training | .up => (s.setSignal k false).setLinkState k .down
    | .down | .fenced | .loopback => s.setSignal k false)

/-- BLOCK_LOCK (R86): a training link goes to UP. During a chip reset the transmitters idle and no link comes up (R556,
notes/assumptions/78.md). -/
def execBlockLock (k : LinkId) (s : State) : Out :=
  .next (if s.inReset = false ∧ (s.link k).state = .training then s.setLinkState k .up else s)

/-- BLOCK_LOCK_LOST (R86, R87): an UP link goes to TRAINING. -/
def execBlockLockLost (k : LinkId) (s : State) : Out :=
  .next (if (s.link k).state = .up then s.setLinkState k .training else s)

/-- EN (R86): a write of LB_CTRL. -/
def execEn (a : Access) (k : LinkId) (data : Word32) (s : State) : Out := .next (s.writeReg a (.link k .ctrl) data)

/-- FENCE_WRITTEN_1 (R516): LB_CTRL.FENCE written 1. -/
def execFenceWritten1 (a : Access) (k : LinkId) (data : Word32) (s : State) : Out :=
  .next (if writes1 a data 1 then s.writeReg a (.link k .ctrl) data else s)

/-- FENCE_WRITTEN_0 (R517): LB_CTRL.FENCE written 0. -/
def execFenceWritten0 (a : Access) (k : LinkId) (data : Word32) (s : State) : Out :=
  .next (if writes0 a data 1 then s.writeReg a (.link k .ctrl) data else s)

/-- LOOPBACK (R88): a write of LB_CTRL.LOOPBACK. -/
def execLoopback (a : Access) (k : LinkId) (data : Word32) (s : State) : Out := .next (s.writeReg a (.link k .ctrl) data)

/-- Whether the PRBS checker of a link may lock, or is locked (R88). -/
def State.prbsRuns (s : State) (k : LinkId) : Bool :=
  (decide ((s.link k).state = .fenced) && s.linkEn k && s.linkFence k && s.linkLoop k)
    || decide ((s.link k).state = .loopback)

/-- LOOPBACK_LOCK (R88): the PRBS checker locks, and counts the errored blocks since. -/
def execLoopbackLock (k : LinkId) (errors : Word32) (s : State) : Out :=
  .next (if s.prbsRuns k then (s.setLinkState k .loopback).bumpSat (.link k .prbsErr) errors.toNat else s)

/-! ## Frames (R89 to R101). The rows name what a frame was sent as; how it is received depends on its bytes. -/

/-- A frame arrives; the boot ROM goes on where it waited for it (R440). -/
def State.frameIn (s : State) (k : LinkId) (f : RxFrame) : State := (s.receive k f).bootGo

/-- DATA (R92, R94). -/
def execData (k : LinkId) (f : RxFrame) (u : Upset) (s : State) : Out := .next (s.withUpset u (fun s => s.frameIn k f))

/-- ACK (R92, R93). -/
def execAck (k : LinkId) (f : RxFrame) (u : Upset) (s : State) : Out := .next (s.withUpset u (fun s => s.frameIn k f))

/-- NAK (R92, R96). -/
def execNak (k : LinkId) (f : RxFrame) (u : Upset) (s : State) : Out := .next (s.withUpset u (fun s => s.frameIn k f))

/-- HEARTBEAT (R92, R99). -/
def execHeartbeat (k : LinkId) (f : RxFrame) (u : Upset) (s : State) : Out := .next (s.withUpset u (fun s => s.frameIn k f))

/-- HELLO (R92, R98, R101). -/
def execHello (k : LinkId) (f : RxFrame) (u : Upset) (s : State) : Out := .next (s.withUpset u (fun s => s.frameIn k f))

/-! ## Timers -/

/-- Whether a station number of an UP link is present. -/
def State.reachable (s : State) (k : LinkId) (t : StationId) : Bool :=
  decide ((s.link k).state = .up) && (s.station k t).present

/-- ACK_TIMER (R95): an acknowledgement is still owed 2 µs after a DATA frame was accepted. -/
def execAckTimer (k : LinkId) (t : StationId) (s : State) : Out :=
  .next (if (s.station k t).ackOwed && decide ((s.link k).state = .up) then s.sendFrame k t frameAck false false 0 0 []
    else s)

/-- RETRANSMIT_TIMEOUT (R96): 20 µs without an applied acknowledgement. -/
def execRetransmitTimeout (n : SiteId) (u : Upset) (s : State) : Out := .next (s.withUpset u (fun s => s.goBackDue n))

/-- HEARTBEAT_TIMER (R99). -/
def execHeartbeatTimer (k : LinkId) (t : StationId) (s : State) : Out :=
  .next (if s.reachable k t then s.sendFrame k t frameHeartbeat false false 0 0 [] else s)

/-- STATION_LOSS_TIMEOUT (R100): 64 µs without a good frame. -/
def execStationLossTimeout (k : LinkId) (t : StationId) (s : State) : Out := .next (s.stationLost k t)

/-- HOLD_TIMER (R115, R116): the transaction becomes UNDELIVERED, and an undelivered record is appended for each held
frame, in sequence order. -/
def execHoldTimer (n : SiteId) (u : Upset) (s : State) : Out :=
  .next (s.withUpset u (fun s =>
    let v := s.site n
    if v.txn = .unsettled ∧ v.holdTimer.isSome then
      let s1 := s.upSite n (fun v => { v with txn := .undelivered, holdTimer := none, copied := true })
      (v.unacked.foldl (fun s f => s.accept n (.undelivered f)) s1).setAttn n 1
    else s))

/-! ## LC_DISPOSE (R120) -/

/-- The ACTION that a write of LC_DISPOSE names. -/
def disposeAction (a : Access) (data : Word32) : Nat := bitsOf (seen (lanesOf a) data) 9 8

/-- REPLAY (R120): LC_DISPOSE written with ACTION REPLAY. -/
def execReplay (a : Access) (k : LinkId) (data : Word32) (u : Upset) (s : State) : Out :=
  .next (if disposeAction a data = 1 then s.withUpset u (fun s => s.writeReg a (.link k .dispose) data) else s)

/-- WRITE_OFF (R118, R120): LC_DISPOSE written with ACTION WRITE_OFF. -/
def execWriteOff (a : Access) (k : LinkId) (data : Word32) (u : Upset) (s : State) : Out :=
  .next (if disposeAction a data = 2 then s.withUpset u (fun s => s.writeReg a (.link k .dispose) data) else s)

end Sys2Proof.Machine
end

