-- ==== Sys2Proof/Machine/CurlewCmds.lean ====
section
/-! DEFINITION. The commands of Curlew and of the random number generator (spec/17). -/

namespace Sys2Proof.Machine

/-! ## Appends (R413, R418, R422, R426) -/

/-- Whether the record of the append in progress is encrypted, and so draws an IV (R425). -/
def State.wantsIv (s : State) (n : SiteId) (a : Append) (o : OpCopy) : Bool := encrypts (s.effectiveKind n a.kind) o

/-- Whether the ring write passes the world check (R386, R422). -/
def State.ringAllowed (s : State) (n : SiteId) : Bool := s.curlewAllowed n (s.slotAddr n (s.head n + 1))

/-- Zero the journal slot of an append whose key was erased; the world check may refuse the write (R413, R422). -/
def State.zeroJournalSlot (s : State) (n : SiteId) : State :=
  if s.ringAllowed n then s.agentWrite (s.slotAddr n (s.head n + 1)) (List.replicate 0x1000 0) else s.cwReq 4 n

/-- End an append whose key was erased under it (R413): its journal slot is zeroed, SB_JRNL_HEAD stays; a LAPP and every
LAPP behind it are discarded KEY_REVOKED, and any other append stays pending. -/
def State.endRevoked (s : State) (n : SiteId) (a : Append) : State :=
  let s1 := s.zeroJournalSlot n
  match a.lappNotify with
  | some _ =>
    let lapps := (s1.site n).appends.filterMap Append.lappNotify
    let s2 := s1.upSite n (fun v => { v with appends := dropLapps v.appends })
    (lapps.foldl (fun s nt => s.doorbell n (s.head n + 1) 2 nt) s2).beginNext n
  | none => (s1.upSite n (fun v => { v with appends := { a with began := none } :: v.appends.tail })).beginNext n

/-- Whether the append in progress of a site becomes visible now: its key stands, its ring write is allowed, and the IV it needs
can be drawn (R413, R418, R422). -/
def State.appendsNow (s : State) (n : SiteId) (a : Append) (o : OpCopy) : Bool :=
  !o.revoked && s.ringAllowed n && (!s.wantsIv n a o || s.drbg.instantiated)

/-- The append in progress of a site ends: under an erased key as R413 states, refused by the world check with
RING_REFUSED, waiting for randomness, or visible. -/
def State.appendDone (s : State) (n : SiteId) (a : Append) (o : OpCopy) : State :=
  if o.revoked then s.endRevoked n a
  else if !s.ringAllowed n then s.cwReq 4 n
  else if s.wantsIv n a o then
    if s.drbg.instantiated then
      let iv := s.drawBytes 12
      iv.2.makeVisible n a o iv.1
    else s
  else s.makeVisible n a o []

/-- The correctable words of the settlement slot that an append reads (R344). -/
def State.mendedBody (s : State) (n : SiteId) (a : Append) (o : OpCopy) (u : Upset) : List Nat :=
  let l := match a.kind with
    | .settle | .writeOff => s.recordReads n a.kind
    | .opening | .undelivered _ | .clear | .lapp _ _ _ _ => []
  if s.appendsNow n a o then
    ((s.canMeet (mendedWords u)).map (·.1)).filter (fun w => l.any (fun p => decide (w < p.1 + p.2) && decide (p.1 < w + 8)))
  else []

/-- The integrity record of a correctable word that Curlew reads (R344), whose CAUSE no table names: it is a free value
(notes/assumptions/77.md). -/
def State.mendRecord (s : State) (w : Nat) : State := s.fresh.2.integRec 8 (s.fresh.1.toNat % 256) 0 5 w

/-- APPEND_COMPLETE (R426). -/
def execAppendComplete (n : SiteId) (u : Upset) (s : State) : Out :=
  .next (match (s.site n).appends with
    | [] => s
    | a :: _ => match a.began with
      | none => s
      | some o => (s.mendedBody n a o u).foldl State.mendRecord (s.withUpset u (fun s => s.appendDone n a o)))

/-- KEY_LOAD_ON_DEMAND (R410). -/
def execKeyLoadOnDemand (n : SiteId) (u : Upset) (s : State) : Out := .next (s.withUpset u (fun s => s.retry n))

/-- CURLEW_RETRY (R410). -/
def execCurlewRetry (n : SiteId) (u : Upset) (s : State) : Out := .next (s.withUpset u (fun s => s.retry n))

/-- CW_REQ_CLEAR (R410): CW_REQ.VALID written 1. -/
def execCwReqClear (a : Access) (data : Word32) (u : Upset) (s : State) : Out :=
  .next (if writes1 a data 0 then s.withUpset u (fun s => s.writeReg a (.curlew .cwReq) data) else s)

/-- Carry out a queued key load (R411): a rewrite of the tenant's slot, or a slot chosen as on demand; with none it waits. -/
def State.kload (s : State) (t : SiteId) (rest : List SiteId) : State :=
  match (s.slotOf t).or s.chooseSlot with
  | none => s
  | some k => (({ s with curlew := { s.curlew with loads := rest } }).loadKey k t).retry t

/-- KLOAD_DONE (R411): the oldest queued key load is carried out. -/
def execKloadDone (u : Upset) (s : State) : Out :=
  .next (match s.curlew.loads with
    | [] => s
    | t :: rest => s.withUpset u (fun s => s.kload t rest))

/-- COUNTER_RESIDUE_RETRY (R344): the residue check of a settlement's counters fails twice; the append is tried again
later. The record's address is open (notes/assumptions/27.md). -/
def execCounterResidueRetry (n : SiteId) (s : State) : Out :=
  .next (match (s.site n).appends with
    | [] => s
    | a :: _ =>
      if a.began.isSome ∧ (a.kind = .settle ∨ a.kind = .writeOff) then
        let f := s.fresh
        f.2.integRec 8 7 0 5 (f.1.toNat % 2 ^ 40)
      else s)

/-! ## Command rings (R429, R430) -/

/-- CR_PROD_WRITE (R429). -/
def execCrProdWrite (a : Access) (k : BitVec 3) (data : Word32) (u : Upset) (s : State) : Out :=
  .next (s.withUpset u (fun s => s.writeReg a (.curlew (.crProd k)) data))

/-- GENKEY (R430). -/
def execGenkey (k : BitVec 3) (u : Upset) (s : State) : Out :=
  .next (s.withUpset u (fun s => s.ringCommand k 1 State.genKey))

/-- KWRAP_STAGED (R408). The IVs wait for randomness without limit (R418). -/
def execKwrapStaged (k : BitVec 3) (u : Upset) (s : State) : Out :=
  .next (s.withUpset u (fun s => s.ringCommand k 2 State.kwrapStaged))

/-- VERIFY (R430). -/
def execVerify (k : BitVec 3) (u : Upset) (s : State) : Out :=
  .next (s.withUpset u (fun s => s.ringCommand k 3 State.verify))

/-! ## Randomness (R414 to R416) -/

/-- RNG_READY (R414): the DRBG is instantiated; the boot ROM goes on where it waited for it. -/
def execRngReady (s : State) : Out :=
  .next (if s.elec.refclkOk && !s.inReset && !s.drbg.instantiated then
      ({ s with drbg := { s.drbg with collected := 512, startupPass := true, instantiated := true } }.setLine 13).bootGo
    else s)

/-- A continuous test fails, or a reseed finds no entropy (R416). -/
def State.entropyLost (s : State) : State :=
  ({ s with drbg := { s.drbg with collected := 0, startupPass := false, instantiated := false, healthFail := true,
                                  requests := 0 } }.setHint 25).setLine 13

/-- HEALTH_FAIL (R416). -/
def execHealthFail (s : State) : Out := .next (if s.inReset then s else s.entropyLost)

/-- DRBG_RESEED (R415, R416): a reseed, with whether fresh entropy is there. -/
def execDrbgReseed (entropy : Bool) (s : State) : Out :=
  .next (if s.drbg.instantiated then
      (if entropy then { s with drbg := s.drbg.reseed } else s.entropyLost)
    else s)

end Sys2Proof.Machine
end

