-- ==== Sys2Proof/Machine/ResetCmds.lean ====
section
/-! DEFINITION. Resets, clocks, supplies and temperature, the boot ROM's events, the update engine, and the monitor's fuse
path (spec/18 to spec/20, spec/22 R531, spec/23). -/

namespace Sys2Proof.Machine

/-! ## Resets, clocks, supplies, temperature -/

/-- PORST_N (R433, R434): it is asserted, or deasserted again. -/
def execPorstN (asserted : Bool) (s : State) : Out :=
  .next (if asserted then { s with elec := { s.elec with porst := true } }.chipReset .por
    else { s with elec := { s.elec with porst := false } })

/-- RESET_N (R433, R434): it is asserted, or deasserted again. -/
def execResetN (asserted : Bool) (s : State) : Out :=
  .next (if asserted then { s with elec := { s.elec with resetN := true } }.chipReset .pin
    else { s with elec := { s.elec with resetN := false } })

/-- CLKLOSS (R550, R551): REFCLK is lost, 0, or a PLL that resets the chip loses lock, 1 core, 2 fabric, 3 memory PHY. -/
def execClkloss (what : BitVec 2) (s : State) : Out := .next (s.clockLost what)

/-- REFCLK_OK (R550, R551). -/
def execRefclkOk (s : State) : Out := .next s.refclkGood

/-- SERDES_LOSS_OF_LOCK (R551). -/
def execSerdesLossOfLock (s : State) : Out := .next s.serdesLost

/-- BROWNOUT (R547, R548): a rail, in the bit order of VMON_STATUS. -/
def execBrownout (rail : BitVec 3) (s : State) : Out := .next (s.brownsOut rail)

/-- DROOP (R547): the rails that stand outside their windows. -/
def execDroop (out : BitVec 6) (s : State) : Out := .next (s.droops out)

/-- The sensors read (R543): a reading at 120 °C resets the chip, and otherwise TMAX is compared with its limits. -/
def State.sensors (s : State) (t : Therm) : State := if s.tripped t then s.chipReset .thermtrip else s.thermSense t

/-- THERMTRIP (R543): the sensors read. -/
def execThermtrip (t : Therm) (s : State) : Out := .next (s.sensors t)

/-- WARN (R543): the sensors read. -/
def execWarn (t : Therm) (s : State) : Out := .next (s.sensors t)

/-- CRIT (R543): the sensors read. -/
def execCrit (t : Therm) (s : State) : Out := .next (s.sensors t)

/-- VID_STEP (R546). -/
def execVidStep (up : Bool) (s : State) : Out := .next (s.vidMove up)

/-- INTERNAL_RESET_END (R436), with the strap value sampled. -/
def execInternalResetEnd (bmode : BitVec 3) (s : State) : Out := .next (s.endInternalReset bmode)

/-- ZERO_DONE (R435). -/
def execZeroDone (s : State) : Out :=
  .next (if s.inReset then s else s.setReg (.boot .status) (setBit (s.reg (.boot .status)) 2 true))

/-! ## The boot ROM (R439 to R447) -/

/-- BOOT_ROM (R443): steps 1 to 5, with what the ROM's cached reads of the flash meet (R449), the outcomes of the SRAM and
store checks, how many patches read back wrong first, and the contents of the serial NOR. -/
def execBootRom (sramOk romOk : Bool) (badPatches : Nat) (nor : Option (List Byte)) (u : Upset)
    (s : State) : Out :=
  .next (s.withUpset u (fun s => s.runRom sramOk romOk badPatches nor))

/-- TRAINING_DONE (R444): what training found on the four channels. -/
def execTrainingDone (c0 c1 c2 c3 : Channel) (u : Upset) (s : State) : Out :=
  .next (s.withUpset u (fun s => s.endTraining [c0, c1, c2, c3]))

/-- SOURCE_TIMEOUT (R440). -/
def execSourceTimeout (u : Upset) (s : State) : Out := .next (s.withUpset u State.sourceTimeout)

/-- RNG_WAIT_TIMEOUT (R443). -/
def execRngWaitTimeout (s : State) : Out := .next s.rngTimeout

/-- BOOT_DATA (R440): the ROM consumes a message of type 0x10. `words` is what it finds as it reads the message's words, by
number. -/
def execBootData (words : List (BitVec 12 × WordFound)) (u : Upset) (s : State) : Out :=
  .next (s.withUpset u (fun s => s.consumeType 0x10 words))

/-- BOOT_END (R440): the ROM consumes a message of type 0x11. -/
def execBootEnd (u : Upset) (s : State) : Out := .next (s.withUpset u (fun s => s.consumeType 0x11 []))

/-- RESET (R446): the ROM consumes a message of type 0x12. -/
def execReset (s : State) : Out := .next (s.consumeType 0x12 [])

/-- SOFT (R450): a write of BC_SOFT_RESET. -/
def execSoft (a : Access) (data : Word32) (s : State) : Out := .next (s.writeReg a (.boot .softReset) data)

/-- ROM_LOCK (R447): a write of BC_ROM_LOCK; the lock takes hold at the boot core's next fetch outside the ROM. -/
def execRomLock (a : Access) (data : Word32) (s : State) : Out := .next (s.writeReg a (.boot .romLock) data)

/-! ## The update engine (R469 to R476) -/

/-- A write of UE_CMD with an OP (Table 19.6). -/
def State.ueWriteCmd (s : State) (a : Access) (op : Nat) : State := s.writeReg a (.d .ueCmd) (BitVec.ofNat 32 op)

/-- EMPTY (R470). -/
def execEmpty (a : Access) (s : State) : Out := .next (s.ueWriteCmd a 1)

/-- ERASE (R470). -/
def execErase (a : Access) (s : State) : Out := .next (s.ueWriteCmd a 2)

/-- WRITE (R470). -/
def execWrite (a : Access) (s : State) : Out := .next (s.ueWriteCmd a 3)

/-- MARK_WRITTEN (R470). -/
def execMarkWritten (a : Access) (s : State) : Out := .next (s.ueWriteCmd a 4)

/-- UE_VERIFY (R471). -/
def execUeVerify (a : Access) (s : State) : Out := .next (s.ueWriteCmd a 5)

/-- ACTIVATE (R472). -/
def execActivate (a : Access) (s : State) : Out := .next (s.ueWriteCmd a 6)

/-- CONFIRM (R470). -/
def execConfirm (a : Access) (s : State) : Out := .next (s.ueWriteCmd a 7)

/-- RETIRE (R470). -/
def execRetire (a : Access) (s : State) : Out := .next (s.ueWriteCmd a 8)

/-- CAL_SAVE (R475). -/
def execCalSave (a : Access) (s : State) : Out := .next (s.ueWriteCmd a 9)

/-- UE_COMMAND_DONE (R470), with what the flash does not erase or program as told. -/
def execUeCommandDone (flash : FlashFault) (u : Upset) (s : State) : Out := .next (s.withUpset u (fun s => s.ueDone flash))

/-- DISABLE (R492): a write of UC_CTRL. -/
def execDisable (a : Access) (data : Word32) (s : State) : Out :=
  .next (if writes1 a data 0 then s.writeReg a (.d .ucCtrl) data else s)

/-! ## The monitor's fuse path (R531) -/

/-- PROGRAM (R531): FUSE_CTRL written with OP PROGRAM. -/
def execProgram (a : Access) (fuse : BitVec 12) (s : State) : Out :=
  .next (s.writeReg a (.d .fuseCtrl) (BitVec.ofNat 32 (fuse.toNat + 0x10000)))

/-- FUSE_CTRL_LC_ADV (R531, R533): FUSE_CTRL written with OP LC_ADV. -/
def execFuseCtrlLcAdv (a : Access) (target : BitVec 3) (s : State) : Out :=
  .next (s.writeReg a (.d .fuseCtrl) (BitVec.ofNat 32 (0x20000 + target.toNat * 2 ^ 24)))

/-- FUSE_CTRL_DONE (R531): the operation ends, its bits verified or not. -/
def execFuseCtrlDone (verified : Bool) (s : State) : Out := .next (s.fuseDone verified)

/-- KVAULT_WRITE (R406): a write of a vault register. -/
def execKvaultWrite (a : Access) (addr : PhysAddr) (data : Word32) (s : State) : Out :=
  .next (match placeReg a addr with
    | some (.curlew .vaultLo) | some (.curlew .vaultHi) | some (.curlew .stageLo) | some (.curlew .stageHi) =>
      s.accessWrite a addr data
    | _ => s)

end Sys2Proof.Machine
end

