-- ==== Sys2Proof/Machine/Operands.lean ====
section
/-! DEFINITION. The operand forms of the instructions, decoded instructions, and what an instruction's effect is made of
(spec/05 R134, R135, spec/09 R242 to R244, spec/10). -/

namespace Sys2Proof.Machine

/-- The instructions, as the rows of the opcode table name them. -/
inductive Op where
  | nop | trap | bkpt | sync | formW | formB | sysc | sysret | xret | gcall | gret | moncall | monret | mfsr | mtsr
  | rand | add | sub | and | or | xor | andn | shl | shr | sar | ror | min | max | minu | maxu | cmp | cmpu | mul
  | mulh | mulhu | div | divu | rem | remu | clz | ctz | popc | sext | zext | li | lis | ld | st | casD | ldu | stu
  | bcc | dbcc | bbs | bbc | br | jmp | call | callr | bal | balr | ret | loop | lexit | movp | addp | subp | mulp
  | divp | shrp | cmpp | packa | unpka | dadd | dsub | dneg | dabs | dmul | ddiv | drem | dsrr | dcmp | dmov | cvbd
  | cvdb | dld | dst | mvst | mvstU | trst | scns | cmps | edit | edpos | fadd | fsub | fneg | fabs | fmul | fmac
  | fmsu | facl | fsha | frnd | fmva | fmvg | bset | bclr | btas | btst | bfext | bfins | bpop | bff | spbGo | spbWait
  | siteTake | sitePost | siteSettle | lapp | tlbi | tlbl | tlbu | kset | kget | krst | kload | kerase
  deriving DecidableEq, Repr

/-! ## Operands (Tables 5.7 and 10.10) -/

/-- An address mode. Displacements are sign-extended. -/
inductive AMode where
  /-- memory at the register plus a displacement (modes 0b001, 0b100 and 0b101) -/
  | disp (r : BitVec 5) (d : Int)
  /-- memory at the register, which then grows by the operand size (mode 0b010) -/
  | postInc (r : BitVec 5)
  /-- the register shrinks by the operand size; memory there (mode 0b011) -/
  | preDec (r : BitVec 5)
  /-- memory at the register plus a scaled index plus a displacement (mode 0b110) -/
  | index (r x : BitVec 5) (scale : Nat) (d : Int)
  /-- modulo on a pair, with the offset register (R242) -/
  | modulo (k : Nat) (x : BitVec 5)
  /-- bit-reversed on a pair, with the counter register (R243) -/
  | bitRev (k : Nat) (x : BitVec 5)
  /-- the address of the instruction's first byte plus a displacement (extended mode 0x0C) -/
  | pcRel (d : Int)
  deriving DecidableEq, Repr

/-- An operand: a register of the file its instruction needs, memory, or an immediate. -/
inductive Opnd where
  | reg (r : BitVec 5)
  | mem (m : AMode)
  | imm (v : Int)
  deriving DecidableEq, Repr

/-- A decoded instruction or syllable: its variant (size, condition, level, format or option), its displacement, offset or
shift count, its numeric field, its rounding mode, its lengths, its operands, its prefixes, and the locator that SYSREG
names (R258). -/
structure Ins where
  op : Op
  sub : Nat := 0
  imm : Int := 0
  num : Nat := 0
  rm : Nat := 0
  l1 : Nat := 0
  l2 : Nat := 0
  ops : List Opnd := []
  uao : Bool := false
  keyo : Bool := false
  loc : Nat := 0
  deriving DecidableEq, Repr

/-- The access size of a size code (R155, Table 10.4). -/
def sizeOf (code : Nat) : Nat := 2 ^ (code % 4)

/-- The sizes of LD.B, LD.BU, LD.H, LD.HU, LD.W, LD.WU and LD.D, by variant (R155). -/
def loadSize (sub : Nat) : Nat := if sub < 2 then 1 else if sub < 4 then 2 else if sub < 6 then 4 else 8

/-- The operand size of the k-th memory operand of an instruction (R134, R183). -/
def Ins.memSize (i : Ins) (k : Nat) : Nat :=
  match i.op with
  | .ld => loadSize i.sub
  | .st | .ldu | .stu => sizeOf i.sub
  | .casD => 8
  | _ => if k = 0 then i.l1 else i.l2

/-- A number as a 64-bit word, modulo 2^64 (R265). -/
def wordInt (v : Int) : Word := BitVec.ofInt 64 v

/-- Reverse the low `n` bits of a number (R243). -/
def revBits : Nat → Nat → Nat
  | 0, _ => 0
  | n + 1, j => (j % 2) * 2 ^ n + revBits n (j / 2)

/-- The logarithm of a buffer length that the bit-reversed mode accepts (R243). -/
def brevLog (n : Nat) : Option Nat := ((List.range 25).drop 1).find? (fun k => decide (2 ^ k = n))

/-- An alignment exception of a modulo or bit-reversed operand (R242, R243): 0x10 MOD_RANGE, 0x11 BREV_LEN. -/
def modExc (cause : Nat) : Exc := { vec := 11, xinfo := cause }

/-- The effective address of a memory operand and the register update it makes (R134, R242, R243, R265). -/
def effAddr (c : Ctx) (pc size : Nat) (m : AMode) : Except Exc (Nat × List (BitVec 5 × Word)) :=
  match m with
  | .disp r d => .ok ((c.getG r + wordInt d).toNat, [])
  | .postInc r => .ok ((c.getG r).toNat, [(r, c.getG r + BitVec.ofNat 64 size)])
  | .preDec r => .ok ((c.getG r - BitVec.ofNat 64 size).toNat, [(r, c.getG r - BitVec.ofNat 64 size)])
  | .index r x scale d => .ok ((c.getG r + c.getG x * BitVec.ofNat 64 scale + wordInt d).toNat, [])
  | .modulo k x =>
    let o := (c.getG x).toNat % 2 ^ 32
    let l := (smGet c.ml 0 k).toNat
    if l = 0 ∨ l < o + size then .error (modExc 0x10)
    else .ok ((smGet c.mb 0 k).toNat + o, [(x, BitVec.ofNat 64 ((o + size) % l))])
  | .bitRev k x =>
    let j := (c.getG x).toNat % 2 ^ 32
    let n := (smGet c.ml 0 k).toNat
    match brevLog n with
    | none => .error (modExc 0x11)
    | some b =>
      if n ≤ j then .error (modExc 0x10)
      else .ok ((smGet c.mb 0 k).toNat + size * revBits b j, [(x, BitVec.ofNat 64 ((j + 1) % n))])
  | .pcRel d => .ok ((BitVec.ofNat 64 pc + wordInt d).toNat, [])

/-- Apply register updates. -/
def Ctx.applyG (c : Ctx) (us : List (BitVec 5 × Word)) : Ctx := us.foldl (fun c u => c.setG u.1 u.2) c

/-- An evaluated operand: a register with the value it held when it was read, an address, or an immediate. -/
inductive Val where
  | reg (r : BitVec 5) (v : Word)
  | mem (ea : Nat)
  | imm (v : Word)
  deriving DecidableEq, Repr

/-- The register a value names. -/
def Val.rn (v : Val) : BitVec 5 :=
  match v with
  | .reg r _ => r
  | _ => 0

/-- The 64-bit value of a register or immediate operand. -/
def Val.word (v : Val) : Word :=
  match v with
  | .reg _ w => w
  | .imm w => w
  | .mem _ => 0

/-- The address of a memory operand. -/
def Val.addr (v : Val) : Nat :=
  match v with
  | .mem a => a
  | _ => 0

/-! ## Effects -/

/-- What an instruction is executed with: the context and what it held at the start of the instruction or bundle, the
enclave the bytes were fetched from (R386), the virtual and physical address of its first byte, the address after it, and
the steps a string instruction makes before an interruption point is taken (R210). -/
structure Env where
  x : CtxId
  c : Ctx
  own : Option Nat
  pc : Nat
  pa : Nat
  next : Nat
  steps : Nat

/-- Where control goes. -/
inductive Ctl where
  /-- the next instruction or bundle -/
  | seq
  /-- a control transfer: whether it is taken, its target as a code pointer, and whether it pushes (R157 to R161) -/
  | transfer (taken : Bool) (target : Word) (call : Bool)
  /-- a mode change, which sets the PC itself (R149) -/
  | mode
  /-- the instruction waits: it has not begun, and is executed again -/
  | wait
  /-- a string instruction stands at an interruption point (R210) -/
  | pause

/-- What an instruction does once nothing stops it: its writes, and where control goes. -/
structure Done where
  commit : State → State
  ctl : Ctl

/-- The effect of a decoded instruction: an exception, or what it does. -/
abbrev Eff := Env → Ins → State → XR Done

/-- An exception or a value of a pure check, over a state. -/
def XR.of {α : Type} (r : Except Exc α) (s : State) : XR α :=
  match r with
  | .ok a => .ok a s
  | .error e => .exc e s

/-- The operands evaluated in order, and their register updates. In B-form each operand sees the updates of the ones before
it (R135); the syllables of a bundle read the registers as the bundle found them (R140). `k` counts memory operands. -/
def evalOpnds (e : Env) (i : Ins) (c : Ctx) (k : Nat) : List Opnd → Except Exc (List Val × List (BitVec 5 × Word))
  | [] => .ok ([], [])
  | .reg r :: t =>
    match evalOpnds e i c k t with
    | .error x => .error x
    | .ok q => .ok (.reg r (c.getG r) :: q.1, q.2)
  | .imm v :: t =>
    match evalOpnds e i c k t with
    | .error x => .error x
    | .ok q => .ok (.imm (wordInt v) :: q.1, q.2)
  | .mem m :: t =>
    match effAddr c e.pc (i.memSize k) m with
    | .error x => .error x
    | .ok a =>
      match evalOpnds e i (if e.c.wform then c else c.applyG a.2) (k + 1) t with
      | .error x => .error x
      | .ok q => .ok (.mem a.1 :: q.1, a.2 ++ q.2)

/-- Evaluate the operands of an instruction, then go on with their values and their register updates. -/
def withOpnds (e : Env) (i : Ins) (s : State) (f : List Val → List (BitVec 5 × Word) → XR Done) : XR Done :=
  match evalOpnds e i e.c 0 i.ops with
  | .error x => .exc x s
  | .ok q => f q.1 q.2

/-- The k-th value of a list. -/
def valAt (vs : List Val) (k : Nat) : Val := vs.getD k (.imm 0)

/-- An instruction that writes registers only, and goes on in sequence. -/
def setRegs (e : Env) (us : List (BitVec 5 × Word)) (f : Ctx → Ctx) : Done :=
  { commit := fun s => s.upCtx e.x (fun c => f (c.applyG us)), ctl := .seq }

/-- The access controls of an instruction (R276, R277). -/
def Ins.accCtl (i : Ins) (e : Env) : AccCtl := { um := if i.uao then .uao else .none, keyo := i.keyo, own := e.own }

/-- Whether the context is at user privilege. -/
def Env.user (e : Env) : Bool := e.c.isUser

/-- Privileged instruction, INSN (Table 15.4). -/
def privExc : Exc := { vec := 4, xinfo := 1 }

/-- Privileged instruction, NO_TENANT (R108, R234, R427). -/
def tenantExc : Exc := { vec := 4, xinfo := 4 }

/-- A world violation that no address caused (Table 16.4). -/
def worldInsExc (cause : Nat) : Exc := { vec := 21, xinfo := cause }

/-- Write the result of a load: in W-form it is written two bundles later (R143). -/
def Ctx.loadReg (c : Ctx) (r : Nat) (v : BitVec 128) : Ctx :=
  if c.wform then { c with loads := c.loads ++ [{ reg := r, val := v, left := 2 }] }
  else c.writeLoad { reg := r, val := v, left := 0 }

end Sys2Proof.Machine
end

