-- ==== Sys2Proof/Machine/Flags.lean ====
section
/-! DEFINITION. The sticky flags and the delivery of decimal and fraction results: the machine has no condition flags
(spec/06), and DSTAT and FSTAT are what results leave behind (Table 5.4; R177, R180, R181, R223). -/

namespace Sys2Proof.Machine

/-- CSW.DUNS (Table 5.3). -/
def Ctx.duns (c : Ctx) : Bool := bitAt c.csw 8

/-- CSW.DOVT (Table 5.3). -/
def Ctx.dovt (c : Ctx) : Bool := bitAt c.csw 9

/-- CSW.FSAT (Table 5.3). -/
def Ctx.fsat (c : Ctx) : Bool := bitAt c.csw 10

/-- CSW.RSTRAP (Table 5.3). -/
def Ctx.rstrap (c : Ctx) : Bool := bitAt c.csw 11

/-- CSW.SIP (Table 5.3). -/
def Ctx.sip (c : Ctx) : Bool := bitAt c.csw 12

/-- CSW.LACT bit k (Table 5.3). -/
def Ctx.lact (c : Ctx) (k : Nat) : Bool := bitAt c.csw (13 + k)

/-- Set DSTAT.OVF and DSTAT.INEXACT where a result asks for it (Table 5.4). -/
def Ctx.stickD (c : Ctx) (ovf inexact : Bool) : Ctx :=
  { c with dstat := c.dstat ||| BitVec.ofNat 64 (bit ovf + 2 * bit inexact) }

/-- Set FSTAT.SAT, and FSTAT.ACC bit k for an accumulator, where a result saturated (R223). -/
def Ctx.stickF (c : Ctx) (sat : Bool) (acc : Option Nat) : Ctx :=
  { c with fstat := c.fstat ||| BitVec.ofNat 64 (bit sat + (match acc with
      | none => 0
      | some k => bit sat * 2 ^ (4 + k))) }

/-! ## Decimal results -/

/-- A decimal result as it is delivered: the magnitude that is written, the sign nibble, and whether it overflowed. -/
structure DecOut where
  mag : Nat
  sign : Nat
  ovf : Bool
  deriving DecidableEq, Repr

/-- The sign nibble of a result (R177): its true sign, and for plus CSW.DUNS. -/
def signNibble (duns : Bool) (v : Int) : Nat := if v < 0 then 0xD else if duns then 0xF else 0xC

/-- The delivery of R180: the exact result against the capacity in digits; none where it overflows and DOVT is set. -/
def deliver (c : Ctx) (v : Int) (cap : Nat) : Option DecOut :=
  if 10 ^ cap ≤ v.natAbs then
    if c.dovt then none
    else some { mag := v.natAbs % 10 ^ cap, sign := signNibble c.duns v, ovf := true }
  else some { mag := v.natAbs, sign := signNibble c.duns v, ovf := false }

/-- Shift and round (R181): the source times 10^n, a negative n rounding under RM, and whether a non-zero digit was
discarded. -/
def shiftRound (v n : Int) (rm : Nat) : Int × Bool :=
  if 0 ≤ n then (v * 10 ^ n.toNat, false)
  else
    let p := 10 ^ (-n).toNat
    let q := v.natAbs / p
    let d := v.natAbs % p
    let inc := match rm with
      | 0 => false
      | 1 => decide (p ≤ 2 * d)
      | 2 => decide (p < 2 * d) || (decide (2 * d = p) && decide (q % 2 = 1))
      | _ => decide (d ≠ 0)
    ((if v < 0 then -((q + bit inc : Nat) : Int) else ((q + bit inc : Nat) : Int)), decide (d ≠ 0))

/-! ## Fraction results -/

/-- The delivery of R223 for the exact result num ÷ 2^fb: rounded to f fraction bits under RM and held to w bits. None where
it is out of range and FSAT is clear; otherwise the raw value and whether it saturated. -/
def fdeliver (c : Ctx) (num : Int) (fb f w rm : Nat) : Option (Int × Bool) :=
  let m := num.natAbs * 2 ^ f
  let p := 2 ^ fb
  let q := m / p
  let d := m % p
  let inc := match rm with
    | 0 => false
    | 1 => decide (p ≤ 2 * d)
    | 2 => decide (p < 2 * d) || (decide (2 * d = p) && decide (q % 2 = 1))
    | _ => decide (0 < d)
  let r : Int := if num < 0 then -((q + bit inc : Nat) : Int) else ((q + bit inc : Nat) : Int)
  if (2 ^ (w - 1) - 1 : Int) < r then (if c.fsat then some (2 ^ (w - 1) - 1, true) else none)
  else if r < -(2 ^ (w - 1) : Int) then (if c.fsat then some (-(2 ^ (w - 1) : Int), true) else none)
  else some (r, false)

end Sys2Proof.Machine
end

