-- ==== Sys2Proof/Machine/OpMap.lean ====
section
/-! DEFINITION. The opcode maps and the decoding of both forms (spec/05 R132 to R137, spec/10 R246 to R259). -/

namespace Sys2Proof.Machine

/-! ## B-form rows (Tables 10.1, 10.2 and 10.5) -/

/-- The fixed fields of Table 10.4; `gate` is the N16 of GCALL. -/
inductive Fix where
  | code | n16 | gate | sz | d16 | d32 | lvl | ofs | len | lsr | nr | ld | rm | wid | scope
  deriving DecidableEq, Repr

/-- The operand kinds of Table 10.3. -/
inductive OKind where
  | r | ri | i | o | m | md
  deriving DecidableEq, Repr

/-- The register files (R134). -/
inductive RFile where
  | g | d | a
  deriving DecidableEq, Repr

/-- What an opcode selects: the instruction and its variant, its fixed fields, its operands, and the prefixes it accepts;
`dlx` holds the DLX bits it accepts. -/
structure Row where
  op : Op
  sub : Nat := 0
  fix : List Fix := []
  opnds : List (OKind × RFile) := []
  uk : Bool := false
  dlx : Nat := 0

/-- Number a list of rows from an opcode. -/
def rowsFrom (base : Nat) (l : List Row) : List (Nat × Row) := l.zipIdx.map (fun p => (base + p.2, p.1))

/-- A register operand of the G file. -/
abbrev gr : OKind × RFile := (.r, .g)
/-- A register operand of the D file. -/
abbrev dr : OKind × RFile := (.r, .d)
/-- A register operand of the A file. -/
abbrev ar : OKind × RFile := (.r, .a)
/-- A register or immediate operand. -/
abbrev gri : OKind × RFile := (.ri, .g)
/-- A memory operand of every address mode. -/
abbrev mm : OKind × RFile := (.m, .g)
/-- A memory operand without the modulo and bit-reversed modes. -/
abbrev md : OKind × RFile := (.md, .g)
/-- A bit offset. -/
abbrev bo : OKind × RFile := (.o, .g)

/-- Opcodes 0x01 to 0x0F, 0x3F and 0x55. -/
def rowsSystem : List (Nat × Row) :=
  rowsFrom 0x01 [{ op := .nop }, { op := .trap, fix := [.code] }, { op := .sync }, { op := .formW }, { op := .formB },
    { op := .sysc }, { op := .sysret }, { op := .xret }, { op := .gcall, fix := [.gate] }, { op := .gret },
    { op := .moncall }, { op := .monret }, { op := .mfsr, fix := [.n16], opnds := [gr] },
    { op := .mtsr, fix := [.n16], opnds := [gr] }, { op := .rand, opnds := [gr, gr] }]
    ++ [(0x3F, { op := .bkpt }), (0x55, { op := .ret })]

/-- The two-source integer instructions in the order of opcodes 0x10 to 0x26. -/
def aluOps : List Op :=
  [.add, .sub, .and, .or, .xor, .andn, .shl, .shr, .sar, .ror, .min, .max, .minu, .maxu, .cmp, .cmpu, .mul, .mulh, .mulhu,
   .div, .divu, .rem, .remu]

/-- The one-source integer instructions in the order of opcodes 0x27 to 0x2F, with their variants. -/
def unaryOps : List (Op × Nat) :=
  [(.clz, 0), (.ctz, 0), (.popc, 0), (.sext, 0), (.sext, 1), (.sext, 2), (.zext, 0), (.zext, 1), (.zext, 2)]

/-- Opcodes 0x10 to 0x3E. -/
def rowsInteger : List (Nat × Row) :=
  rowsFrom 0x10 (aluOps.map (fun o => { op := o, opnds := [gr, gri, gri] }))
    ++ rowsFrom 0x27 (unaryOps.map (fun p => { op := p.1, sub := p.2, opnds := [gr, gri] }))
    ++ [(0x30, { op := .li, opnds := [gr, (.i, .g)] })]
    ++ rowsFrom 0x31 ((List.range 7).map (fun k => { op := .ld, sub := k, opnds := [gr, mm], uk := true }))
    ++ rowsFrom 0x38 ((List.range 4).map (fun k => { op := .st, sub := k, opnds := [mm, gr], uk := true }))
    ++ rowsFrom 0x3C [{ op := .casD, opnds := [gr, md, gr], uk := true }, { op := .ldu, fix := [.sz], opnds := [gr, md] },
      { op := .stu, fix := [.sz], opnds := [md, gr] }]

/-- Opcodes 0x40 to 0x57. -/
def rowsTransfer : List (Nat × Row) :=
  rowsFrom 0x40 ((List.range 6).map (fun k => { op := .bcc, sub := k, fix := [.d16], opnds := [gr, gri] }))
    ++ rowsFrom 0x46 ((List.range 6).map (fun k => { op := .bcc, sub := k, fix := [.d32], opnds := [gr, gri] }))
    ++ rowsFrom 0x4C [{ op := .br, fix := [.d16] }, { op := .br, fix := [.d32] }, { op := .call, fix := [.d16] },
      { op := .call, fix := [.d32] }, { op := .bal, fix := [.d16], opnds := [gr] }, { op := .bal, fix := [.d32], opnds := [gr] },
      { op := .jmp, opnds := [gr] }, { op := .callr, opnds := [gr] }, { op := .balr, opnds := [gr, gr] }]
    ++ [(0x56, { op := .loop, fix := [.lvl, .ofs], opnds := [gri] }), (0x57, { op := .lexit, fix := [.lvl] })]

/-- A memory-to-memory decimal row. -/
def packedRow (o : Op) : Row := { op := o, fix := [.len], opnds := [md, md], uk := true, dlx := 3 }

/-- Opcodes 0x58 to 0x7D. -/
def rowsDecimal : List (Nat × Row) :=
  rowsFrom 0x58 [packedRow .movp, { packedRow .cmpp with opnds := [gr, md, md] }, packedRow .addp, packedRow .subp,
    packedRow .mulp, packedRow .divp, { op := .shrp, fix := [.lsr], opnds := [md, gri], uk := true, dlx := 1 },
    packedRow .packa, packedRow .unpka]
    ++ rowsFrom 0x61 ((List.range 4).map (fun k => { op := .dbcc, sub := k, fix := [.d16], opnds := [dr, dr] }))
    ++ rowsFrom 0x65 ((List.range 4).map (fun k => { op := .dbcc, sub := k, fix := [.d32], opnds := [dr, dr] }))
    ++ rowsFrom 0x69 [{ op := .bbs, fix := [.d16], opnds := [gr, bo] }, { op := .bbc, fix := [.d16], opnds := [gr, bo] },
      { op := .bbs, fix := [.d32], opnds := [gr, bo] }, { op := .bbc, fix := [.d32], opnds := [gr, bo] }]
    ++ rowsFrom 0x70 [{ op := .dadd, opnds := [dr, dr, dr] }, { op := .dsub, opnds := [dr, dr, dr] },
      { op := .dneg, opnds := [dr, dr] }, { op := .dabs, opnds := [dr, dr] }, { op := .dmul, opnds := [dr, dr, dr] },
      { op := .ddiv, opnds := [dr, dr, dr] }, { op := .drem, opnds := [dr, dr, dr] },
      { op := .dsrr, fix := [.nr], opnds := [dr, dr] }, { op := .dcmp, opnds := [gr, dr, dr] }, { op := .dmov, opnds := [dr, dr] },
      { op := .cvbd, opnds := [dr, gr] }, { op := .cvdb, opnds := [gr, dr] },
      { op := .dld, fix := [.ld], opnds := [dr, mm], uk := true }, { op := .dst, fix := [.ld], opnds := [mm, dr], uk := true }]

/-- Opcodes 0x80 to 0x86. -/
def rowsString : List (Nat × Row) :=
  rowsFrom 0x80 [{ op := .mvst, opnds := [gr, gr, gr] }, { op := .mvstU, opnds := [gr, gr, gr] },
    { op := .trst, opnds := [gr, gr, gr, gr] }, { op := .scns, opnds := [gr, gr, gr, gr] },
    { op := .cmps, opnds := [gr, gr, gr, gr] }, { op := .edit, opnds := [gr, gr, gr, gr] },
    { op := .edpos, opnds := [gr, gr, gr, gr, gr] }]

/-- The .H and .W rows of a fraction instruction. -/
def fracRows (o : Op) (fix : List Fix) (opnds : List (OKind × RFile)) : List Row :=
  [{ op := o, sub := 0, fix := fix, opnds := opnds }, { op := o, sub := 1, fix := fix, opnds := opnds }]

/-- Opcodes 0x90 to 0xA4. -/
def rowsFraction : List (Nat × Row) :=
  rowsFrom 0x90 (fracRows .fadd [] [gr, gr, gr] ++ fracRows .fsub [] [gr, gr, gr] ++ fracRows .fneg [] [gr, gr]
    ++ fracRows .fabs [] [gr, gr] ++ fracRows .fmul [.rm] [gr, gr, gr] ++ fracRows .fmac [.rm] [ar, gr, gr]
    ++ fracRows .fmsu [.rm] [ar, gr, gr] ++ fracRows .facl [] [ar, gr]
    ++ [{ op := .fsha, fix := [.nr], opnds := [ar] }] ++ fracRows .frnd [.rm] [gr, ar]
    ++ [{ op := .fmva, opnds := [gr, ar] }, { op := .fmvg, opnds := [ar, gr] }])

/-- Opcodes 0xA8 to 0xAF. -/
def rowsBit : List (Nat × Row) :=
  rowsFrom 0xA8 [{ op := .bset, opnds := [gr, bo] }, { op := .bclr, opnds := [gr, bo] }, { op := .btas, opnds := [gr, gr, bo] },
    { op := .btst, opnds := [gr, gr, bo] }, { op := .bfext, fix := [.wid], opnds := [gr, gr, bo] },
    { op := .bfins, fix := [.wid], opnds := [gr, bo, gr] }, { op := .bpop, opnds := [gr, gr, bo, gr] },
    { op := .bff, opnds := [gr, gr, bo, gr] }]

/-- Opcodes 0xB0 to 0xB8 and the two-byte opcodes, whose second byte is in the low eight bits. -/
def rowsSite : List (Nat × Row) :=
  rowsFrom 0xB0 [{ op := .spbGo, opnds := [gr, gr] }, { op := .spbWait, opnds := [gr, gr] },
    { op := .spbWait, sub := 1, opnds := [gr, gr] }, { op := .siteTake, opnds := [gr, gr] },
    { op := .siteTake, sub := 1, opnds := [gr, gr] }, { op := .sitePost, opnds := [gr, gr, gr] },
    { op := .sitePost, sub := 1, opnds := [gr, gr, gr] }, { op := .siteSettle, opnds := [gr, gr, gr] },
    { op := .lapp, opnds := [gr, gr, gr] }]
    ++ rowsFrom 0xE000 [{ op := .tlbi, fix := [.scope], opnds := [gr, gr] }, { op := .kset, opnds := [gr, gr] },
      { op := .kget, opnds := [gr, gr] }, { op := .krst, opnds := [gr, gr] }, { op := .tlbl, opnds := [gr, gr] },
      { op := .tlbu, opnds := [gr] }]
    ++ rowsFrom 0xE100 [{ op := .kload, opnds := [gr, gr] }, { op := .kerase, opnds := [gr, gr] }]

/-- The row of an opcode; none where it is reserved (R248, R249). -/
def bRow (code : Nat) : Option Row :=
  ((rowsSystem ++ rowsInteger ++ rowsTransfer ++ rowsDecimal ++ rowsString ++ rowsFraction ++ rowsBit ++ rowsSite).find?
    (fun p => decide (p.1 = code))).map (·.2)

/-! ## Decoding B-form byte by byte (R132 to R136, R258, R259) -/

/-- What decoding a string of fetched bytes gives: more bytes are needed, a reserved-opcode cause with its locator, or a value
with the index of the next byte and the bytes from there. -/
inductive Dec (α : Type) where
  | more
  | bad (cause loc : Nat)
  | ok (a : α) (i : Nat) (rest : List Byte)

/-- Chain two decoding steps. -/
def Dec.bind {α β : Type} (r : Dec α) (f : α → Nat → List Byte → Dec β) : Dec β :=
  match r with
  | .more => .more
  | .bad c l => .bad c l
  | .ok a i t => f a i t

/-- The next byte. -/
def nextByte (i : Nat) (bs : List Byte) : Dec Byte :=
  match bs with
  | [] => .more
  | b :: t => .ok b (i + 1) t

/-- The next `n` bytes as a little-endian number. -/
def nextLe (n : Nat) (i : Nat) (bs : List Byte) : Dec Nat :=
  match n with
  | 0 => .ok 0 i bs
  | n + 1 => (nextByte i bs).bind (fun b i t => (nextLe n i t).bind (fun v i t => .ok (b.toNat + 256 * v) i t))

/-- A number of `n` bits as a signed number. -/
def signedOf (n v : Nat) : Int := if 2 ^ (n - 1) ≤ v then (v : Int) - 2 ^ n else v

/-- The prefixes of an instruction: UAO, KEYO and the bits of DLX. -/
structure Pre where
  uao : Bool := false
  keyo : Bool := false
  dlx : Option Nat := none

/-- The prefixes of an instruction and its leading opcode byte (Table 5.6, R133). -/
def scanPre (p : Pre) (i : Nat) (bs : List Byte) : Dec (Pre × Nat) :=
  match bs with
  | [] => .more
  | b :: t =>
    let n := b.toNat
    if n < 0xF0 then .ok (p, n) (i + 1) t
    else if n = 0xF0 ∧ p.uao = false then scanPre { p with uao := true } (i + 1) t
    else if n = 0xF1 ∧ p.keyo = false then scanPre { p with keyo := true } (i + 1) t
    else if 0xF5 ≤ n ∧ n ≤ 0xF7 ∧ p.dlx = none then scanPre { p with dlx := some (n % 4) } (i + 1) t
    else .bad 2 i

/-- Whether a row accepts the prefixes of an instruction (R133, R183). -/
def Row.accepts (r : Row) (p : Pre) : Bool :=
  (r.uk || (!p.uao && !p.keyo)) && (match p.dlx with
    | none => true
    | some d => decide (r.dlx ≠ 0) && decide (d / 2 * 2 ≤ r.dlx / 2 * 2))

/-- The bytes of a fixed field. -/
def Fix.bytes (f : Fix) : Nat :=
  match f with
  | .n16 | .gate | .d16 | .ofs => 2
  | .d32 => 4
  | _ => 1

/-- Whether a fixed field holds a reserved value (Table 10.4, R183, R297). -/
def Fix.reserved (f : Fix) (v : Nat) : Bool :=
  match f with
  | .n16 => decide (v / 1024 ≠ 0)
  | .sz | .rm => decide (v / 4 ≠ 0)
  | .lvl => decide (3 ≤ v)
  | .lsr => decide (v / 4 % 4 ≠ 0)
  | .ld => decide (v / 16 ≠ 0)
  | .wid => decide (v / 64 ≠ 0)
  | .scope => decide (v / 8 ≠ 0) || decide (v % 4 = 3)
  | .code | .gate | .d16 | .d32 | .ofs | .len | .nr => false

/-- Put a fixed field into an instruction; `last` is the index of its last byte. -/
def Fix.put (f : Fix) (v last : Nat) (dlx : Nat) (i : Ins) : Ins :=
  match f with
  | .code | .gate | .ofs | .wid | .scope => { i with num := v }
  | .n16 => { i with num := v, loc := last }
  | .sz | .lvl => { i with sub := v }
  | .d16 => { i with imm := signedOf 16 v }
  | .d32 => { i with imm := signedOf 32 v }
  | .len => { i with l1 := v / 16 + 1 + 16 * (dlx % 2), l2 := v % 16 + 1 + 16 * (dlx / 2) }
  | .lsr => { i with l1 := v / 16 + 1 + 16 * (dlx % 2), rm := v % 4 }
  | .nr => { i with imm := signedOf 6 (v % 64), rm := v / 64 }
  | .ld => { i with l1 := v + 1 }
  | .rm => { i with rm := v }

/-- Decode the fixed fields of a row in order (R250). -/
def scanFix (dlx : Nat) (ins : Ins) (i : Nat) (bs : List Byte) : List Fix → Dec Ins
  | [] => .ok ins i bs
  | f :: t => (nextLe f.bytes i bs).bind (fun v i bs =>
      if f.reserved v then .bad 4 (i - 1) else scanFix dlx (f.put v (i - 1) dlx ins) i bs t)

/-- Whether an operand kind accepts a mode (Table 10.3). -/
def OKind.accepts (k : OKind) (mode reg : Nat) : Bool :=
  let imm := decide (mode = 7) && decide (reg ≤ 3)
  let mem := decide (1 ≤ mode) && decide (mode ≤ 6)
  match k with
  | .r => decide (mode = 0)
  | .ri => decide (mode = 0) || imm
  | .i => imm
  | .o => decide (mode = 7) && (decide (reg = 0) || decide (reg = 2))
  | .m => mem || (decide (mode = 7) && decide (4 ≤ reg) && decide (reg ≤ 0x0C))
  | .md => mem || (decide (mode = 7) && decide (reg = 0x0C))

/-- The bytes that a mode byte announces (Table 5.7). -/
def modeBytes (mode reg : Nat) : Nat :=
  match mode with
  | 4 => 1
  | 5 => 4
  | 6 => 2
  | 7 => if reg < 4 then 2 ^ reg else if reg < 0x0C then 1 else 4
  | _ => 0

/-- The operand of a specifier from its mode byte and the number its announced bytes make (Table 5.7). -/
def specOpnd (mode reg v : Nat) : Opnd :=
  let r := BitVec.ofNat 5 reg
  match mode with
  | 0 => .reg r
  | 1 => .mem (.disp r 0)
  | 2 => .mem (.postInc r)
  | 3 => .mem (.preDec r)
  | 4 => .mem (.disp r (signedOf 8 v))
  | 5 => .mem (.disp r (signedOf 32 v))
  | 6 => .mem (.index r (BitVec.ofNat 5 (v % 32)) (2 ^ (v % 256 / 32)) (signedOf 8 (v / 256)))
  | _ =>
    if reg < 4 then .imm (signedOf (8 * 2 ^ reg) v)
    else if reg < 8 then .mem (.modulo (reg - 4) (BitVec.ofNat 5 (v % 32)))
    else if reg < 0x0C then .mem (.bitRev (reg - 8) (BitVec.ofNat 5 (v % 32)))
    else .mem (.pcRel (signedOf 32 v))

/-- Whether a register number lies beyond its file (R247). -/
def RFile.beyond (f : RFile) (reg : Nat) : Bool :=
  match f with
  | .g => false
  | .d => decide (8 ≤ reg)
  | .a => decide (4 ≤ reg)

/-- Decode one specifier, with `left` more to come: its mode byte is examined before the bytes it announces (R259), and it
decides LENGTH where those bytes, with one for each specifier to come, would pass 15 (R136). The scale code of the index mode
is examined before its displacement. -/
def scanSpec (k : OKind × RFile) (left : Nat) (i : Nat) (bs : List Byte) : Dec Opnd :=
  (nextByte i bs).bind (fun b j t =>
    let mode := b.toNat / 32
    let reg := b.toNat % 32
    if !k.1.accepts mode reg then .bad 3 i
    else if mode = 0 ∧ k.2.beyond reg = true then .bad 4 i
    else if 15 < i + 1 + modeBytes mode reg + left then .bad 5 i
    else if mode = 6 then
      (nextByte j t).bind (fun v j t =>
        if 5 ≤ v.toNat / 32 then .bad 3 (j - 1)
        else (nextByte j t).bind (fun d j t => .ok (specOpnd 6 reg (v.toNat + 256 * d.toNat)) j t))
    else (nextLe (modeBytes mode reg) j t).bind (fun v j t => .ok (specOpnd mode reg v) j t))

/-- Decode the specifiers of a row in order. -/
def scanSpecs (i : Nat) (bs : List Byte) : List (OKind × RFile) → Dec (List Opnd)
  | [] => .ok [] i bs
  | k :: t => (scanSpec k t.length i bs).bind (fun o i bs => (scanSpecs i bs t).bind (fun l i bs => .ok (o :: l) i bs))

/-- The opcode of an instruction (R132, R248, R249): two-byte opcodes exist in pages 0xE0 and 0xE1 only, so the first byte of
another page decides. `i` is the index after the first byte. -/
def scanOpcode (b i : Nat) (bs : List Byte) : Dec Row :=
  if b = 0xE0 ∨ b = 0xE1 then
    (nextByte i bs).bind (fun c i t => match bRow (b * 256 + c.toNat) with
      | none => .bad 1 (i - 1)
      | some r => .ok r i t)
  else match bRow b with
    | none => .bad 1 (i - 1)
    | some r => .ok r i bs

/-- Decode a B-form instruction from its bytes. The value comes with its length. -/
def decodeB (bs : List Byte) : Dec Ins :=
  (scanPre {} 0 bs).bind (fun p i bs => (scanOpcode p.2 i bs).bind (fun r i bs =>
    if !r.accepts p.1 then .bad 2 (i - 1)
    else
      (scanFix (p.1.dlx.getD 0) { op := r.op, sub := r.sub, uao := p.1.uao, keyo := p.1.keyo } i bs r.fix).bind
        (fun ins i bs => (scanSpecs i bs r.opnds).bind (fun os i bs => .ok { ins with ops := os } i bs))))

/-! ## W-form syllables (R252 to R257) -/

/-- A register operand from a field of a syllable. -/
def fldReg (w : Word32) (lo : Nat) : Opnd := .reg (BitVec.ofNat 5 (bitsOf w (lo + 4) lo))

/-- The instruction `i` where the bits that must be zero are zero; otherwise FIELD (R247). -/
def mustZero (zero : Bool) (i : Ins) : Except Nat Ins := if zero then .ok i else .error 4

/-- A C syllable that is an ALU operation on registers (Table 10.7). -/
def sylAlu (w : Word32) : Except Nat Ins :=
  let f := bitsOf w 22 17
  let d := fldReg w 12
  let a := fldReg w 7
  if f < 23 then
    match aluOps[f]? with
    | none => .error 1
    | some o => mustZero (decide (bitsOf w 1 0 = 0)) { op := o, ops := [d, a, fldReg w 2] }
  else if f < 32 then
    match unaryOps[f - 23]? with
    | none => .error 1
    | some p => mustZero (decide (bitsOf w 6 0 = 0)) { op := p.1, sub := p.2, ops := [d, a] }
  else if f < 36 then
    match ([.shl, .shr, .sar, .ror] : List Op)[f - 32]? with
    | none => .error 1
    | some o => mustZero (!bitAt w 0) { op := o, ops := [d, a, .imm (bitsOf w 6 1)] }
  else .error 1

/-- A C syllable of the system format (Table 10.8). -/
def sylSystem (w : Word32) : Except Nat Ins :=
  let z := fun (hi lo : Nat) => decide (bitsOf w hi lo = 0)
  let g := fldReg w 12
  let h := fldReg w 7
  match bitsOf w 22 17 with
  | 0x00 => mustZero (z 16 0) { op := .nop }
  | 0x01 => mustZero (z 16 0) { op := .sync }
  | 0x02 => mustZero (z 16 8) { op := .trap, num := bitsOf w 7 0 }
  | 0x03 => mustZero (z 16 0) { op := .bkpt }
  | 0x04 => mustZero (z 16 0) { op := .formB }
  | 0x05 => mustZero (z 16 0) { op := .formW }
  | 0x06 => mustZero (z 16 0) { op := .sysc }
  | 0x07 => mustZero (z 16 0) { op := .sysret }
  | 0x08 => mustZero (z 16 0) { op := .xret }
  | 0x09 => mustZero (z 16 16) { op := .gcall, num := bitsOf w 15 0 }
  | 0x0A => mustZero (z 16 0) { op := .gret }
  | 0x0B => mustZero (z 16 0) { op := .moncall }
  | 0x0C => mustZero (z 16 0) { op := .monret }
  | 0x0D => mustZero (z 11 10) { op := .mfsr, num := bitsOf w 9 0, ops := [g] }
  | 0x0E => mustZero (z 11 10) { op := .mtsr, num := bitsOf w 9 0, ops := [g] }
  | 0x0F => mustZero (z 6 0) { op := .rand, ops := [g, h] }
  | 0x10 => mustZero (z 16 12 && z 6 0) { op := .jmp, ops := [h] }
  | 0x11 => mustZero (z 16 12 && z 6 0) { op := .callr, ops := [h] }
  | 0x12 => mustZero (z 6 0) { op := .balr, ops := [g, h] }
  | 0x13 => mustZero (z 16 0) { op := .ret }
  | 0x14 => .ok { op := .loop, sub := 0, num := 4 * bitsOf w 11 0, ops := [g] }
  | 0x15 => .ok { op := .loop, sub := 1, num := 4 * bitsOf w 11 0, ops := [g] }
  | 0x16 => .ok { op := .loop, sub := 2, num := 4 * bitsOf w 11 0, ops := [g] }
  | 0x17 => mustZero (z 16 2 && decide (bitsOf w 1 0 ≠ 3)) { op := .lexit, sub := bitsOf w 1 0 }
  | 0x18 => mustZero (z 6 3 && decide (bitsOf w 1 0 ≠ 3)) { op := .tlbi, num := bitsOf w 2 0, ops := [g, h] }
  | 0x19 => mustZero (z 6 0) { op := .kset, ops := [g, h] }
  | 0x1A => mustZero (z 6 0) { op := .kget, ops := [g, h] }
  | 0x1B => mustZero (z 6 0) { op := .krst, ops := [g, h] }
  | 0x1C => mustZero (z 6 0) { op := .tlbl, ops := [g, h] }
  | 0x1D => mustZero (z 11 0) { op := .tlbu, ops := [g] }
  | _ => .error 1

/-- The ALU functions with an immediate (Table 10.7). -/
def aluImmOps : List Op := [.add, .and, .or, .xor, .min, .max, .cmp, .cmpu]

/-- The word displacement of a transfer in bytes (R157). -/
def dispBytes (n v : Nat) : Int := 4 * signedOf n v

/-- A compare-and-branch syllable (Table 10.6). -/
def sylCompare (w : Word32) : Except Nat Ins :=
  let cc := bitsOf w 26 24
  if cc < 6 then .ok { op := .bcc, sub := cc, imm := dispBytes 14 (bitsOf w 13 0), ops := [fldReg w 19, fldReg w 14] }
  else if cc = 6 then
    mustZero (decide (bitsOf w 15 14 = 0))
      { op := .dbcc, sub := bitsOf w 23 22, imm := dispBytes 14 (bitsOf w 13 0)
        ops := [.reg (BitVec.ofNat 5 (bitsOf w 21 19)), .reg (BitVec.ofNat 5 (bitsOf w 18 16))] }
  else .error 1

/-- A long transfer syllable (Table 10.6, R257). -/
def sylLong (w : Word32) : Except Nat Ins :=
  let d := dispBytes 24 (bitsOf w 23 0)
  if bitAt w 27 then .ok { op := .bal, imm := d, ops := [.reg (BitVec.ofNat 5 (24 + bitsOf w 26 24))] }
  else mustZero (decide (bitsOf w 25 24 = 0)) { op := if bitAt w 26 then .call else .br, imm := d }

/-- A C syllable (R252). -/
def sylC (w : Word32) : Except Nat Ins :=
  if bitAt w 28 then sylLong w
  else if bitAt w 27 then sylCompare w
  else if bitAt w 26 then
    .ok { op := if bitAt w 25 then .bbc else .bbs, imm := dispBytes 9 (bitsOf w 8 0)
          ops := [.reg (BitVec.ofNat 5 (bitsOf w 24 21)), .imm (signedOf 12 (bitsOf w 20 9))] }
  else if bitAt w 25 then
    .ok { op := aluImmOps.getD (bitsOf w 24 22) .add
          ops := [fldReg w 17, fldReg w 12, .imm (signedOf 12 (bitsOf w 11 0))] }
  else match bitsOf w 24 23 with
    | 0 => .ok { op := .lis, sub := bitsOf w 22 21, num := bitsOf w 15 0, ops := [fldReg w 16] }
    | 1 => mustZero (decide (bitsOf w 1 0 = 0)) { op := .li, ops := [fldReg w 18, .imm (signedOf 16 (bitsOf w 17 2))] }
    | 2 => sylAlu w
    | _ => sylSystem w

/-- The address mode of an L syllable (Table 10.10), where `all` its modes are accepted; FIELD where it is reserved, not
accepted, has a reserved scale code (notes/assumptions/88.md) or a bit set that must be zero. -/
def sylMode (w : Word32) (all : Bool) : Except Nat AMode :=
  let b := BitVec.ofNat 5 (bitsOf w 18 14)
  match bitsOf w 13 11 with
  | 0 => .ok (.disp b (signedOf 11 (bitsOf w 10 0)))
  | 1 => if bitsOf w 10 0 = 0 then .ok (.postInc b) else .error 4
  | 2 => if bitsOf w 10 0 = 0 then .ok (.preDec b) else .error 4
  | 3 =>
    if bitsOf w 2 0 = 0 ∧ bitsOf w 5 3 < 5 then .ok (.index b (BitVec.ofNat 5 (bitsOf w 10 6)) (2 ^ bitsOf w 5 3) 0)
    else .error 4
  | 4 => if all = true ∧ bitsOf w 8 0 = 0 then .ok (.modulo (bitsOf w 10 9) b) else .error 4
  | 5 => if all = true ∧ bitsOf w 8 0 = 0 then .ok (.bitRev (bitsOf w 10 9) b) else .error 4
  | _ => .error 4

/-- An L syllable with a memory operand, built from its address mode. -/
def sylMem (w : Word32) (all : Bool) (f : Opnd → Ins) : Except Nat Ins :=
  match sylMode w all with
  | .error c => .error c
  | .ok m => .ok (f (.mem m))

/-- The site, Spoonbill and Curlew group of the L lane (Table 10.11): Gd, Gs and Gb by name, unused fields zero. -/
def sylGroup (w : Word32) : Except Nat Ins :=
  let d := fldReg w 14
  let s := fldReg w 9
  let b := fldReg w 4
  let zs := decide (bitsOf w 13 9 = 0)
  let zb := decide (bitsOf w 8 4 = 0)
  let z := decide (bitsOf w 3 0 = 0)
  match bitsOf w 23 19 with
  | 0x00 => mustZero (zs && z) { op := .siteTake, ops := [d, b] }
  | 0x01 => mustZero (zs && z) { op := .siteTake, sub := 1, ops := [d, b] }
  | 0x02 => mustZero z { op := .sitePost, ops := [d, s, b] }
  | 0x03 => mustZero z { op := .sitePost, sub := 1, ops := [d, s, b] }
  | 0x04 => mustZero z { op := .siteSettle, ops := [d, s, b] }
  | 0x08 => mustZero (zb && z) { op := .spbGo, ops := [d, s] }
  | 0x09 => mustZero (zb && z) { op := .spbWait, ops := [d, s] }
  | 0x0A => mustZero (zb && z) { op := .spbWait, sub := 1, ops := [d, s] }
  | 0x10 => mustZero z { op := .lapp, ops := [d, s, b] }
  | 0x11 => mustZero (zb && z) { op := .kload, ops := [d, s] }
  | 0x12 => mustZero (zb && z) { op := .kerase, ops := [d, s] }
  | _ => .error 1

/-- An L syllable (R253, R254). -/
def sylL (w : Word32) : Except Nat Ins :=
  let op := bitsOf w 28 24
  let g := fldReg w 19
  let dreg : Opnd := .reg (BitVec.ofNat 5 (bitsOf w 21 19))
  let len := 4 * (op % 4) + bitsOf w 23 22 + 1
  if op < 7 then sylMem w true (fun m => { op := .ld, sub := op, ops := [g, m] })
  else if 8 ≤ op ∧ op < 0x0C then sylMem w true (fun m => { op := .st, sub := op - 8, ops := [m, g] })
  else if op = 0x0C then
    sylMem w false (fun m => { op := .casD, ops := [g, m, .reg (Config.casSource w)] })
  else if op = 0x0F then sylGroup w
  else if 0x10 ≤ op ∧ op < 0x14 then sylMem w true (fun m => { op := .dld, l1 := len, ops := [dreg, m] })
  else if 0x14 ≤ op ∧ op < 0x18 then sylMem w true (fun m => { op := .dst, l1 := len, ops := [m, dreg] })
  else if 0x18 ≤ op ∧ op < 0x1C then sylMem w false (fun m => { op := .ldu, sub := op % 4, ops := [g, m] })
  else if 0x1C ≤ op then sylMem w false (fun m => { op := .stu, sub := op % 4, ops := [m, g] })
  else .error 1

/-- A P syllable from its four register fields (R255): the files of its operands, in order. -/
def sylRegs (w : Word32) (o : Op) (files : List RFile) : Except Nat Ins :=
  let f := [bitsOf w 23 19, bitsOf w 18 14, bitsOf w 13 9, bitsOf w 8 4]
  let used := files.zip f
  mustZero (decide (bitsOf w 3 0 = 0) && (f.drop files.length).all (fun v => decide (v = 0))
      && used.all (fun p => !p.1.beyond p.2))
    { op := o, ops := used.map (fun p => .reg (BitVec.ofNat 5 p.2)) }

/-- A P syllable (R255, Table 10.12). -/
def sylP (w : Word32) : Except Nat Ins :=
  match bitsOf w 28 24 with
  | 0x00 => sylRegs w .dadd [.d, .d, .d]
  | 0x01 => sylRegs w .dsub [.d, .d, .d]
  | 0x02 => sylRegs w .dneg [.d, .d]
  | 0x03 => sylRegs w .dabs [.d, .d]
  | 0x04 => sylRegs w .dmul [.d, .d, .d]
  | 0x05 => sylRegs w .ddiv [.d, .d, .d]
  | 0x06 => sylRegs w .drem [.d, .d, .d]
  | 0x07 =>
    mustZero (decide (bitsOf w 5 0 = 0) && decide (bitsOf w 23 19 < 8) && decide (bitsOf w 18 14 < 8))
      { op := .dsrr, imm := signedOf 6 (bitsOf w 13 8), rm := bitsOf w 7 6, ops := [fldReg w 19, fldReg w 14] }
  | 0x08 => sylRegs w .dcmp [.g, .d, .d]
  | 0x09 => sylRegs w .dmov [.d, .d]
  | 0x0A => sylRegs w .cvbd [.d, .g]
  | 0x0B => sylRegs w .cvdb [.g, .d]
  | 0x10 => sylRegs w .mvst [.g, .g, .g]
  | 0x11 => sylRegs w .mvstU [.g, .g, .g]
  | 0x12 => sylRegs w .trst [.g, .g, .g, .g]
  | 0x13 => sylRegs w .scns [.g, .g, .g, .g]
  | 0x14 => sylRegs w .cmps [.g, .g, .g, .g]
  | 0x15 => sylRegs w .edit [.g, .g, .g, .g]
  | 0x16 =>
    .ok { op := .edpos, ops := [.reg (BitVec.ofNat 5 (16 + bitsOf w 3 0)), fldReg w 19, fldReg w 14, fldReg w 9, fldReg w 4] }
  | _ => .error 1

/-- A fraction syllable (R256): the files of its operands, and whether it takes RM. -/
def sylFrac (w : Word32) (o : Op) (sub : Nat) (files : List RFile) (takesRm : Bool) : Except Nat Ins :=
  let f := [bitsOf w 20 16, bitsOf w 15 11, bitsOf w 10 6]
  let used := files.zip f
  mustZero (decide (bitsOf w 3 0 = 0) && (takesRm || decide (bitsOf w 5 4 = 0))
      && (f.drop files.length).all (fun v => decide (v = 0)) && used.all (fun p => !p.1.beyond p.2))
    { op := o, sub := sub, rm := bitsOf w 5 4, ops := used.map (fun p => .reg (BitVec.ofNat 5 p.2)) }

/-- A Q syllable of the fraction format (R256, Table 10.13): OP is the B-form opcode minus 0x90. -/
def sylQFrac (w : Word32) : Except Nat Ins :=
  let op := bitsOf w 25 21
  let sub := op % 2
  match op / 2 with
  | 0 => sylFrac w .fadd sub [.g, .g, .g] false
  | 1 => sylFrac w .fsub sub [.g, .g, .g] false
  | 2 => sylFrac w .fneg sub [.g, .g] false
  | 3 => sylFrac w .fabs sub [.g, .g] false
  | 4 => sylFrac w .fmul sub [.g, .g, .g] true
  | 5 => sylFrac w .fmac sub [.a, .g, .g] true
  | 6 => sylFrac w .fmsu sub [.a, .g, .g] true
  | 7 => sylFrac w .facl sub [.a, .g] false
  | 8 =>
    if sub = 1 then sylFrac w .frnd 0 [.g, .a] true
    else mustZero (decide (bitsOf w 9 6 = 0) && decide (bitsOf w 3 0 = 0) && decide (bitsOf w 20 16 < 4))
      { op := .fsha, imm := signedOf 6 (bitsOf w 15 10), rm := bitsOf w 5 4, ops := [fldReg w 16] }
  | 9 => if sub = 1 then sylFrac w .fmva 0 [.g, .a] false else sylFrac w .frnd 1 [.g, .a] true
  | 10 => if sub = 1 then .error 1 else sylFrac w .fmvg 0 [.a, .g] false
  | _ => .error 1

/-- A bit base register of the Q lane, G0 to G15 (R257). -/
def bitBase (v : Nat) : Opnd := .reg (BitVec.ofNat 5 v)

/-- A Q syllable (R256). -/
def sylQ (w : Word32) : Except Nat Ins :=
  if bitAt w 28 then
    let g := fldReg w 22
    let b := bitBase (bitsOf w 21 18)
    let o : Opnd := .imm (signedOf 12 (bitsOf w 17 6))
    if bitAt w 27 then .ok { op := .bfins, num := bitsOf w 5 0, ops := [b, o, g] }
    else .ok { op := .bfext, num := bitsOf w 5 0, ops := [g, b, o] }
  else if bitAt w 27 then
    .ok { op := if bitAt w 26 then .bff else .bpop
          ops := [fldReg w 21, bitBase (bitsOf w 20 17), .imm (signedOf 12 (bitsOf w 16 5)), fldReg w 0] }
  else if bitAt w 26 then
    let b := bitBase (bitsOf w 18 15)
    let o : Opnd := .imm (signedOf 12 (bitsOf w 14 3))
    let z := decide (bitsOf w 2 0 = 0)
    let zg := decide (bitsOf w 23 19 = 0)
    match bitsOf w 25 24 with
    | 0 => mustZero (z && zg) { op := .bset, ops := [b, o] }
    | 1 => mustZero (z && zg) { op := .bclr, ops := [b, o] }
    | 2 => mustZero z { op := .btas, ops := [fldReg w 19, b, o] }
    | _ => mustZero z { op := .btst, ops := [fldReg w 19, b, o] }
  else sylQFrac w

/-- The lane code of a syllable (R137): 0 C, 1 L, 2 P, 3 Q. -/
def sylLane (w : Word32) : Nat := bitsOf w 30 29

/-- Decode a syllable (R252 to R256): an instruction, or a cause of Table 10.14. -/
def decodeSyl (w : Word32) : Except Nat Ins :=
  match sylLane w with
  | 0 => sylC w
  | 1 => sylL w
  | 2 => sylP w
  | _ => sylQ w

/-! ## What a bundle may hold (R138, R140, R141, R146) -/

/-- The mode-change instructions of Table 5.9. -/
def Op.isMode (o : Op) : Bool :=
  match o with
  | .formB | .formW | .sysc | .sysret | .xret | .gcall | .gret | .moncall | .monret => true
  | _ => false

/-- The control transfers of Table 6.2. -/
def Op.isTransfer (o : Op) : Bool :=
  match o with
  | .bcc | .dbcc | .bbs | .bbc | .br | .jmp | .call | .callr | .bal | .balr | .ret => true
  | _ => false

/-- The Heron string instructions (Table 8.1). -/
def Op.isString (o : Op) : Bool :=
  match o with
  | .mvst | .mvstU | .trst | .scns | .cmps | .edit | .edpos => true
  | _ => false

/-- Whether a syllable must be alone in its bundle (R141, Tables 10.8 and 10.11). -/
def Ins.alone (i : Ins) : Bool :=
  i.op.isMode || i.op.isString || decide (i.op = .siteTake) || (decide (i.op = .sitePost) && decide (i.sub = 1))

/-- The register file that an instruction's result goes to, and whether its first operand names it. -/
def Ins.dest (i : Ins) : Option (RFile × BitVec 5) :=
  let first := fun (f : RFile) => match i.ops with
    | .reg r :: _ => some (f, r)
    | _ => none
  match i.op with
  | .mfsr | .rand | .add | .sub | .and | .or | .xor | .andn | .shl | .shr | .sar | .ror | .min | .max | .minu | .maxu
  | .cmp | .cmpu | .mul | .mulh | .mulhu | .div | .divu | .rem | .remu | .clz | .ctz | .popc | .sext | .zext | .li | .lis
  | .ld | .casD | .ldu | .bal | .balr | .cmpp | .dcmp | .cvdb | .scns | .cmps | .edpos | .fadd | .fsub | .fneg | .fabs | .fmul
  | .frnd | .fmva | .btas | .btst | .bfext | .bpop | .bff | .spbGo | .spbWait | .siteTake | .sitePost | .siteSettle | .lapp
  | .kget | .krst | .kload | .kerase => first .g
  | .dadd | .dsub | .dneg | .dabs | .dmul | .ddiv | .drem | .dsrr | .dmov | .cvbd | .dld => first .d
  | .fmac | .fmsu | .facl | .fsha | .fmvg => first .a
  | .nop | .trap | .bkpt | .sync | .formW | .formB | .sysc | .sysret | .xret | .gcall | .gret | .moncall | .monret | .mtsr
  | .st | .stu | .bcc | .dbcc | .bbs | .bbc | .br | .jmp | .call | .callr | .ret | .loop | .lexit | .movp | .addp | .subp | .mulp
  | .divp | .shrp | .packa | .unpka | .dst | .mvst | .mvstU | .trst | .edit | .bset | .bclr | .bfins | .tlbi | .tlbl | .tlbu
  | .kset => none

/-- The address registers that a memory operand updates. -/
def AMode.updates (m : AMode) : List (RFile × BitVec 5) :=
  match m with
  | .postInc r | .preDec r => [(.g, r)]
  | .modulo _ x | .bitRev _ x => [(.g, x)]
  | .disp .. | .index .. | .pcRel .. => []

/-- The registers that an instruction writes, as the conflict check of R140 counts them: G, D and A registers. The sticky
bits of FSTAT and DSTAT, beside an MTSR of the register, are not counted (notes/assumptions/80.md). -/
def Ins.writes (i : Ins) : List (RFile × BitVec 5) :=
  (match i.dest with
   | none => []
   | some d => [d])
    ++ (if i.op = .rand then (match i.ops with
      | [_, .reg r] => [(.g, r)]
      | _ => []) else [])
    ++ i.ops.flatMap (fun o => match o with
      | .mem m => m.updates
      | _ => [])

/-- The file of the k-th operand where it is a register (R134). -/
def Op.fileAt (o : Op) (k : Nat) : RFile :=
  match o with
  | .dadd | .dsub | .dmul | .ddiv | .drem | .dneg | .dabs | .dsrr | .dmov | .dbcc | .dst => .d
  | .dcmp | .cvdb => if k = 0 then .g else .d
  | .cvbd | .dld => if k = 0 then .d else .g
  | .fmac | .fmsu | .facl | .fmvg | .fsha => if k = 0 then .a else .g
  | .frnd | .fmva => if k = 0 then .g else .a
  | _ => .g

/-- A register by file, numbered 0 to 31 G, 32 to 39 D, 40 to 43 A (R342). -/
def fileReg (f : RFile) (r : BitVec 5) : Nat :=
  match f with
  | .g => r.toNat
  | .d => 32 + r.toNat % 8
  | .a => 40 + r.toNat % 4

/-- The registers that a memory operand reads. -/
def AMode.regs (m : AMode) : List Nat :=
  match m with
  | .disp r _ | .postInc r | .preDec r | .modulo _ r | .bitRev _ r => [r.toNat]
  | .index r x _ _ => [r.toNat, x.toNat]
  | .pcRel _ => []

/-- Whether the k-th operand, where it is a register, is one that the instruction only writes: CAS.D compares its destination
(R156), and LIS keeps bits of it (Table 6.1). -/
def Ins.writesOnly (i : Ins) (k : Nat) : Bool :=
  match i.op with
  | .fmac | .fmsu | .fsha => false
  | .casD | .lis => false
  | .rand => true
  | _ => decide (k = 0) && i.dest.isSome

/-- The registers that the operands of an instruction read. -/
def Ins.sources (i : Ins) : List Nat :=
  i.ops.zipIdx.flatMap (fun p => match p.1 with
    | .reg r => if i.writesOnly p.2 then [] else [fileReg (i.op.fileAt p.2) r]
    | .mem m => m.regs
    | .imm _ => [])

/-- The first syllable of a bundle that writes a register an earlier one writes (R140), by index. -/
def conflictAt (before : List (RFile × BitVec 5)) (k : Nat) : List Ins → Option Nat
  | [] => none
  | i :: t => if i.writes.any before.contains then some k else conflictAt (before ++ i.writes) (k + 1) t

/-- The index of the first syllable that must be alone and is not (R141). -/
def aloneAt (l : List Ins) : Option Nat := if l.length ≤ 1 then none else l.findIdx? Ins.alone

/-- The checks of a whole bundle in the order of R259: the cause and its locator. -/
def bundleCause (delay : Bool) (l : List Ins) : Option (Nat × Nat) :=
  match conflictAt [] 0 l with
  | some k => some (7, k)
  | none => match aloneAt l with
    | some k => some (8, k)
    | none => if delay ∧ l.any (fun i => i.op.isTransfer || i.op.isMode) = true then some (9, 0) else none

end Sys2Proof.Machine
end

