-- ==== Sys2Proof/Machine/Fetch.lean ====
section
/-! DEFINITION. Fetching and decoding the instruction or bundle at a context's PC (spec/05 R136 to R139, spec/10 R258 to
R263, spec/11 R265, spec/16 R386, R387). -/

namespace Sys2Proof.Machine

/-- Whether a context executes instructions: it is occupied, on a running core, neither stopped nor halted, and waits where it
stands for no save, fence or tide stop. -/
def State.canRun (s : State) (x : CtxId) : Bool :=
  decide ((s.ctx x).occ ≠ .free) && decide ((s.core (coreOf x)).state = .running) && !(s.ctx x).stopped && !(s.ctx x).halted
    && !s.mustWait x

/-- The address a context fetches at: its PC, below the bits [62:48] that the transfer there left (R265). -/
def Ctx.fetchAddr (c : Ctx) : Nat := c.pcHi.toNat * 2 ^ 48 + c.pc.toNat

/-! ## Decoding a bundle (R138, R139, R259) -/

/-- The words of a list of bytes, least significant byte first (R137). -/
def wordsLe : List Byte → List Word32
  | a :: b :: c :: d :: t => BitVec.ofNat 32 (leNat [a, b, c, d]) :: wordsLe t
  | _ => []

/-- Decode the syllables of a bundle in order, each for OPCODE, FIELD and then ORDER; a fourth syllable that does not end the
bundle makes a bundle longer than four. `lane` is one more than the lane of the syllable before; the index counts syllables. -/
def decodeW (lane k : Nat) : List Word32 → Dec (List Ins)
  | [] => .more
  | w :: t =>
    match decodeSyl w with
    | .error c => .bad c k
    | .ok i =>
      if sylLane w < lane then .bad 6 k
      else if bitAt w 31 then .ok [i] (k + 1) []
      else if k = 3 then .bad 6 k
      else (decodeW (sylLane w + 1) (k + 1) t).bind (fun l n r => .ok (i :: l) n r)

/-- Decode a bundle: its syllables, and then the checks of the whole bundle. -/
def decodeBundle (delay : Bool) (bs : List Byte) : Dec (List Ins) :=
  (decodeW 0 0 (wordsLe bs)).bind (fun l n r => match bundleCause delay l with
    | some (c, k) => .bad c k
    | none => .ok l n r)

/-- Decode the bytes at the PC in a form; the index is the number of bytes of an instruction, or of syllables of a bundle. -/
def decodeForm (wform delay : Bool) (bs : List Byte) : Dec (List Ins) :=
  if wform then decodeBundle delay bs else (decodeB bs).bind (fun i n r => .ok [i] n r)

/-! ## The bytes of a fetch (R32, R136, R139) -/

/-- What ends the bytes that a page supplies: its end, a refused address, or a poisoned word. -/
inductive FetchEnd where
  | page
  | refused (pa : Nat)
  | poison (va pa : Nat)
  deriving DecidableEq, Repr

/-- The byte that a fetch reads: what is performed in memory, the flash window or the boot ROM. -/
def State.codeByte (s : State) (a : Nat) : Byte :=
  match s.region a with
  | .flash => smGet s.flash 0xFF (a - 0xF200000000)
  | .rom => Config.romByte (a - 0xFFFFF00000)
  | _ => s.memByte a

/-- The byte that a context decodes: the one there, or one that it may have fetched before a store replaced it, by a choice
that the spec leaves open (R314, notes/assumptions/10.md). -/
def State.fetchByte (s : State) (x : CtxId) (v a : Nat) : Byte :=
  let l := s.codeByte a :: s.fetchedOld x a
  l.getD (v % l.length) (s.codeByte a)

/-- Whether a context may hold a replaced byte among `n` from an address on. -/
def State.mayHold (s : State) (x : CtxId) (pa n : Nat) : Bool := (List.range n).any (fun i => !(s.fetchedOld x (pa + i)).isEmpty)

/-- The bytes of a page from an address on, `n` at most, and what ends them. -/
def State.fetchRun (s : State) (x : CtxId) (v va pa : Nat) : Nat → List Byte × FetchEnd
  | 0 => ([], .page)
  | n + 1 =>
    if s.refused x .fetch pa 1 then ([], .refused pa)
    else if s.poisoned pa then ([], .poison va pa)
    else (s.fetchByte x v pa :: (s.fetchRun x v (va + 1) (pa + 1) n).1, (s.fetchRun x v (va + 1) (pa + 1) n).2)

/-- The exception of what ended the bytes, where it is one. -/
def State.fetchStop (s : State) (x : CtxId) (e : FetchEnd) : Option (Exc × State) :=
  match e with
  | .page => none
  | .refused pa => some (busExc 2 pa, s)
  | .poison va pa => some (s.poisonHit x va pa)

/-- The ROM lock that code of the boot core has written takes effect at its first fetch from outside the ROM (R447). -/
def State.leaveRom (s : State) (x : CtxId) (pa : Nat) : State :=
  if x = bootCtx ∧ bitAt (s.reg (.boot .romLock)) 0 = true ∧ s.boot.locked = false ∧ s.region pa ≠ .rom then s.lockRom else s

/-- Translate and check a fetch at an address (R284); the physical address, and the bytes of its page with what ends them.
The fetch sets REF (R280). -/
def State.fetchPage (s : State) (x : CtxId) (va n : Nat) : XR (Nat × List Byte × FetchEnd) :=
  (s.xlate x {} .fetch va).bind (fun pa s =>
    let s := s.leaveRom x pa
    let q := if s.mayHold x pa n then (s.fresh.1.toNat, s.fresh.2) else (0, s)
    let r := q.2.fetchRun x q.1 va pa n
    .ok (pa, r) (if r.1.isEmpty then q.2 else q.2.touch pa 1 false))

/-! ## What is captured (R261, R262) -/

/-- The capture of the first `n` bytes of a B-form instruction (Table 10.15). -/
def captureB (bs : List Byte) (n : Nat) : BitVec 128 := BitVec.ofNat 128 (leNat (bs.take n) + 2 ^ 120 * n)

/-- The words up to the first end bit, four at most. -/
def upToEnd : Nat → List Word32 → List Word32
  | 0, _ => []
  | _, [] => []
  | n + 1, w :: t => if bitAt w 31 then [w] else w :: upToEnd n t

/-- The capture of the syllables of a bundle (Table 10.15); what was not fetched is open. -/
def State.captureW (s : State) (bs : List Byte) : BitVec 128 × State :=
  let ws := upToEnd 4 (wordsLe bs)
  if ws.length = 4 ∨ ws.any (fun w => bitAt w 31) = true then
    (BitVec.ofNat 128 (ws.foldr (fun w a => w.toNat + 2 ^ 32 * a) 0), s)
  else
    let f := s.freshBytes (16 - 4 * ws.length)
    (BitVec.ofNat 128 ((upToEnd 4 (ws ++ wordsLe f.1)).foldr (fun w a => w.toNat + 2 ^ 32 * a) 0), f.2)

/-- The capture in a form. -/
def State.captureForm (s : State) (wform : Bool) (bs : List Byte) (n : Nat) : BitVec 128 × State :=
  if wform then s.captureW bs else (captureB bs n, s)

/-! ## Arrival in an enclave (R387) -/

/-- The enclave that a fetch at a physical address arrives in; none where it enters none or the context is in it. -/
def State.arrives (s : State) (c : Ctx) (pa : Nat) : Option Nat :=
  if c.world = .secure then none
  else match s.enclAt pa with
    | none => none
    | some e => if c.inEncl = some e.num then none else some e.num

/-- A fetch that passes by arrival writes the exit record to 0. -/
def State.clearArrived (s : State) (e : Option Nat) : State :=
  match e with
  | none => s
  | some k => s.clearExit k

/-- Change the state of a result. -/
def XR.onState {α : Type} (r : XR α) (f : State → State) : XR α :=
  match r with
  | .ok a s => .ok a (f s)
  | .exc e s => .exc e (f s)

/-! ## The fetch -/

/-- A fetched and decoded instruction or bundle: its instructions, the address after it, its physical address, the enclave
it was fetched from, the enclave it arrives in, and what XINST would capture. -/
structure Fetched where
  insns : List Ins
  next : Nat
  pa : Nat
  own : Option Nat
  arrived : Option Nat
  capture : BitVec 128
  deriving DecidableEq, Repr

/-- The outcome of decoding the bytes of a fetch: none where more bytes are needed. -/
def State.decoded (s : State) (c : Ctx) (pa : Nat) (bs : List Byte) : Option (XR Fetched) :=
  match decodeForm c.wform c.delay.isSome bs with
  | .more => none
  | .bad cause loc =>
    let k := (s.clearArrived (s.arrives c pa)).captureForm c.wform bs (loc + 1)
    some (.exc { vec := 5, xinfo := cause + 256 * loc, xinst := some k.1 } k.2)
  | .ok l n _ =>
    let k := s.captureForm c.wform bs n
    some (.ok { insns := l, next := c.fetchAddr + (if c.wform then 4 * n else n), pa := pa
                own := (s.enclAt pa).map (·.num), arrived := s.arrives c pa, capture := k.1 } (k.2.clearArrived (s.arrives c pa)))

/-- The second page of a fetch whose first lies at `pa` (R136, R139): the page is reached by the same arrival. -/
def State.fetchOver (s : State) (x : CtxId) (pa n left : Nat) : XR (Nat × List Byte × FetchEnd) :=
  let c := s.ctx x
  let arrived := s.arrives c pa
  let s1 := if arrived.isSome then s.upCtx x (fun c => { c with inEncl := arrived }) else s
  (s1.fetchPage x (c.fetchAddr + n) left).onState (fun s => s.upCtx x (fun d => { d with inEncl := c.inEncl }))

/-- The bytes of a fetch on its second page, after those of the first. -/
def State.fetchSecond (s : State) (x : CtxId) (pa n left : Nat) (bs : List Byte) : XR Fetched :=
  let c := s.ctx x
  (s.fetchOver x pa n left).bind (fun r s =>
    match s.decoded c pa (bs ++ r.2.1) with
    | some q => q
    | none => match s.fetchStop x r.2.2 with
      | some e => .exc e.1 e.2
      | none => .exc { vec := 5, xinfo := 5 + 256 * 14, xinst := some (captureB (bs ++ r.2.1) 15) } s)

/-- Fetch and decode the instruction or bundle at the PC of a context. A W-form address that is no multiple of 4 raises
alignment after the range check (R137, R265). -/
def State.fetch (s : State) (x : CtxId) : XR Fetched :=
  let c := s.ctx x
  let ea := c.fetchAddr
  if c.wform ∧ ea % 4 ≠ 0 ∧ ea < 2 ^ 48 then .exc { vec := 11 } s
  else
    let n := min (if c.wform then 16 else 15) (4096 - ea % 4096)
    (s.fetchPage x ea n).bind (fun r s =>
      match s.decoded c r.1 r.2.1 with
      | some q => q
      | none => match s.fetchStop x r.2.2 with
        | some e => .exc e.1 e.2
        | none => s.fetchSecond x r.1 n ((if c.wform then 16 else 15) - n) r.2.1)

/-- The size in syllables of the bundle that bytes begin with, up to its end bit; none where they show none in four. -/
def bundleSize (bs : List Byte) : Option Nat :=
  let ws := upToEnd 4 (wordsLe bs)
  if ws.any (fun w => bitAt w 31) then some ws.length else none

/-- The size of the bundle at the PC of a context as memory holds it, whether it decodes or not; none where it cannot be read
or shows no end bit. -/
def State.bundleLen (s : State) (x : CtxId) : Option Nat :=
  let n := min 16 (4096 - (s.ctx x).fetchAddr % 4096)
  match s.fetchPage x (s.ctx x).fetchAddr n with
  | .exc _ _ => none
  | .ok r s1 =>
    match bundleSize r.2.1 with
    | some k => some k
    | none =>
      if (s1.fetchStop x r.2.2).isSome then none
      else match s1.fetchOver x r.1 n (16 - n) with
        | .exc _ _ => none
        | .ok q _ => bundleSize (r.2.1 ++ q.2.1)

end Sys2Proof.Machine
end

