-- ==== Sys2Proof/Machine/Port.lean ====
section
/-! DEFINITION. The maintenance port: its instructions, fuse programming, the debug access engine and debug control
(spec/22). A command loads an instruction and makes one scan of its data register: what Capture-DR loads goes to `dr`, and
the value given takes effect in Update-DR. Run-Test/Idle edges are operands where their number matters (R519, R525). -/

namespace Sys2Proof.Machine

/-! ## Instructions (R520 to R523) -/

/-- Change the port. -/
def State.setPort (s : State) (f : Port → Port) : State := { s with port := f s.port }

/-- Whether an instruction holds a TAP chip reset (R522). -/
def PortIns.holds (i : PortIns) : Bool :=
  match i with
  | .extest | .clamp | .highz => true
  | _ => false

/-- BC_STATUS.DBG_HELD (R448). -/
def State.dbgHeld (s : State) : Bool := bitAt (s.reg (.boot .status)) 3

/-- The instruction of a code (Table 22.1); every other code acts as BYPASS (R520). -/
def PortIns.ofCode (v : Byte) : PortIns :=
  match v.toNat with
  | 0x00 => .extest
  | 0x01 => .idcode
  | 0x02 => .sample
  | 0x03 => .clamp
  | 0x04 => .highz
  | 0x10 => .idRead
  | 0x11 => .calRead
  | 0x20 => .fuseProg
  | 0x21 => .sortGen
  | 0x22 => .lcAdv
  | 0x30 => .dae
  | 0x31 => .dbgCtrl
  | 0x32 => .tapReset
  | _ => .bypass

/-- A pulse of the port is cut short where Run-Test/Idle is left: the bit reads 0 or 1 (R529). -/
def State.cutPulse (s : State) : State :=
  if s.port.fuse.busy then
    (s.tearFuse s.port.fuse.addr.toNat).setPort (fun p => { p with fuse := { p.fuse with busy := false } })
  else s

/-- What Capture-IR loads (R521). -/
def State.irCapture (s : State) : BitVec 8 :=
  BitVec.ofNat 8 (1 + 4 * bit s.dbgHeld + 8 * bit s.inReset + 16 * (if s.port.sensed then s.lcState else 0))

/-- A scan of the instruction register, for which the TAP leaves Run-Test/Idle: Capture-IR, then Update-IR: the instruction is
current, and one that holds a chip reset starts it where none is held (R521, R522, R529). -/
def State.loadIr (s : State) (i : PortIns) : State :=
  let s1 := s.cutPulse.setPort (fun p => { p with ir := i, irCap := s.irCapture })
  if i.holds && !s.port.holdsReset then s1.chipReset .tap else s1

/-- Capture-DR. -/
def State.capture (s : State) (v : Nat) : State := s.setPort (fun p => { p with dr := v })

/-- The length of the boundary register (Table 22.1). -/
def boundaryBits : Nat := 1184

/-- The boundary register is captured from the pins and loaded. -/
def State.scanBoundary (s : State) (pins update : Nat) : State :=
  (s.capture (pins % 2 ^ boundaryBits)).setPort (fun p => { p with boundary := update % 2 ^ boundaryBits })

/-- EXTEST (R522). -/
def execExtest (pins update : Nat) (s : State) : Out := .next ((s.loadIr .extest).scanBoundary pins update)

/-- SAMPLE_PRELOAD (R522). -/
def execSamplePreload (pins update : Nat) (s : State) : Out := .next ((s.loadIr .sample).scanBoundary pins update)

/-- IDCODE (Table 22.1). -/
def execIdcode (s : State) : Out := .next ((s.loadIr .idcode).capture 0xB10245CF)

/-- CLAMP (R522). -/
def execClamp (s : State) : Out := .next ((s.loadIr .clamp).capture 0)

/-- HIGHZ (R522). -/
def execHighz (s : State) : Out := .next ((s.loadIr .highz).capture 0)

/-- BYPASS (Table 22.1), by its own code or any other that names no instruction (R520). A code that names one loads that. -/
def execBypass (code : Byte) (s : State) : Out := .next ((s.loadIr (PortIns.ofCode code)).capture 0)

/-- A pending debug access is abandoned; what RESULT then shows is open. -/
def State.abandonDae (s : State) : State :=
  if s.port.dae.pending then
    let f := s.fresh
    f.2.setPort (fun p => { p with dae := { p.dae with pending := false, result := f.1.setWidth 4 } })
  else s

/-- TEST_LOGIC_RESET (R518): IDCODE is loaded, and pending halt requests and debug accesses are abandoned; halted contexts
stay halted. -/
def execTestLogicReset (s : State) : Out :=
  .next (allCtxs.foldl (fun s x => s.upCtx x (fun c => { c with haltReq := false }))
    (s.abandonDae.cutPulse.setPort (fun p => { p with ir := .idcode })))

/-- A fuse-derived word reads 0 before the first sense (R523). -/
def State.ifSensed (s : State) (v : Nat) : Nat := if s.port.sensed then v else 0

/-- The twelve words of ID_READ (R523). Before the first sense LC_STATE reads as BLANK, and DBG_EN at its ceilings. -/
def State.idWords (s : State) : List Nat :=
  let g := fun r => (s.regValue .nonSecure (.g r)).toNat
  [g .chipId, g .chipRev, s.ifSensed (g (.uid 0)), s.ifSensed (g (.uid 1)), s.ifSensed (g (.uid 2)),
   s.ifSensed (g (.uid 3)), s.ifSensed (g .lcState), g .resetCause, g .bootStatus, g .clkStatus,
   (if s.port.sensed then s.dbgEn.toNat else 0xF0F), bit s.port.sensed + 2 * bit s.inReset + 4 * bit s.dbgHeld]

/-- Words side by side, the first in the low bits. -/
def packWords (l : List Nat) : Nat := l.foldr (fun w a => w % 2 ^ 32 + 2 ^ 32 * a) 0

/-- ID_READ (R523). -/
def execIdRead (s : State) : Out :=
  .next (let s1 := s.loadIr .idRead
         s1.capture (packWords s1.idWords))

/-- CAL_READ (R538): fuses 0x400 to 0x547 as sensed. -/
def execCalRead (s : State) : Out :=
  .next (let s1 := s.loadIr .calRead
         s1.capture (s1.ifSensed (s1.fuseField 0x400 328)))

/-- PORT_FUSE_SENSE (R523, R548): with no sense made since PORST_N the port senses the fuses under ID_READ or CAL_READ,
where VDD_FUSE is in its window. -/
def execPortFuseSense (s : State) : Out :=
  .next (if (decide (s.port.ir = .idRead) || decide (s.port.ir = .calRead)) && !s.port.sensed && !s.fuseSupplyBad then
      { s with sensed := s.fuses, port := { s.port with sensed := true } }
    else s)

/-! ## Fuses (R529, R530, R533) -/

/-- The reason a program request of the port is refused: 1 STATE, 2 FIELD, 3 SUPPLY, 4 BUSY (R529). -/
def State.progRefusal (s : State) (a : Nat) : Option Nat :=
  if s.lcState ≠ 0 ∧ s.lcState ≠ 1 then some 1
  else if !s.portField a then some 2
  else if s.fuseSupplyBad then some 3
  else if s.fuseCtrl.busy then some 4 else none

/-- What Capture-DR of FUSE_PROG loads (R529). DRK is never readable. -/
def State.progCapture (s : State) : Nat :=
  let f := s.port.fuse
  let a := f.addr.toNat
  let b := smGet s.fuses false a && !(decide (0x100 ≤ a) && decide (a < 0x200))
  a + 2 ^ 12 * bit f.done + 2 ^ 13 * bit b + 2 ^ 14 * bit (decide (f.reason ≠ 0)) + 2 ^ 16 * f.reason.toNat

/-- A program request (R529). -/
def State.progRequest (s : State) (a : BitVec 12) : State :=
  match s.progRefusal a.toNat with
  | some c => s.setPort (fun p => { p with fuse := { addr := a, reason := BitVec.ofNat 4 c } })
  | none => s.setPort (fun p => { p with fuse := { addr := a, busy := true } })

/-- FUSE_PROG (R529): ADDR in [11:0], OP in [15:12], [19:16] zero. An OP other than 1 only takes ADDR. -/
def execFuseProg (v : BitVec 20) (s : State) : Out :=
  .next (
    let s1 := s.loadIr .fuseProg
    let s2 := s1.capture s1.progCapture
    if bitsOf v 19 16 ≠ 0 then s2
    else if bitsOf v 15 12 = 1 then s2.progRequest (v.setWidth 12)
    else s2.setPort (fun p => { p with fuse := { p.fuse with addr := v.setWidth 12 } }))

/-- FUSE_PULSE_DONE (R529): the pulse completes after its 256 edges, or is cut short, which leaves the bit 0 or 1. -/
def execFusePulseDone (complete : Bool) (s : State) : Out :=
  .next (
    let f := s.port.fuse
    if f.busy then
      let s1 := if complete then s.blow f.addr.toNat else s.tearFuse f.addr.toNat
      s1.setPort (fun p => { p with fuse := { f with busy := false, done := complete } })
    else s)

/-- The fuse bits that SORT_GEN blows, in order: UID_RANDOM, then DRK (R530). -/
def sortBit (i : Nat) : Nat := if i < 64 then 0x080 + i else 0x100 + (i - 64)

/-- Whether SORT_GEN is refused (R530, R548). -/
def State.sortRefused (s : State) : Bool :=
  decide (s.lcState ≠ 0 ∧ s.lcState ≠ 1) || decide (s.fuseNow 0x080 64 ≠ 0) || decide (s.fuseNow 0x100 256 ≠ 0)
    || !s.drbg.instantiated || s.inReset || s.fuseSupplyBad

/-- Blow the drawn bits of SORT_GEN from index i on, `n` of them. -/
def State.sortBlow (s : State) (i : Nat) : Nat → State
  | 0 => s
  | n + 1 =>
    let f := s.fresh
    (if bitAt f.1 0 then f.2.blow (sortBit i) else f.2).sortBlow (i + 1) n

/-- What Capture-DR of SORT_GEN loads (R530). -/
def State.sortCapture (s : State) : Nat :=
  bit s.port.sort.done + 2 * bit (decide (s.port.sort.reason ≠ 0)) + 4 * s.port.sortBits

/-- A SORT_GEN request with the Run-Test/Idle edges that follow it: 256 for each bit, all 320 for completion; the bit under
way when the edges end reads 0 or 1. -/
def State.sortRun (s : State) (edges : Nat) : State :=
  if s.sortRefused then s.setPort (fun p => { p with sort := { reason := 1 } })
  else
    let n := min 320 (edges / 256)
    let s1 := { s with drbg := s.drbg.request }.sortBlow 0 n
    let s2 := if n < 320 ∧ edges % 256 ≠ 0 then s1.tearFuse (sortBit n) else s1
    { s2 with sortGen := s2.sortGen || decide (n = 320)
              port := { s2.port with sort := { done := decide (n = 320) }, sortBits := n } }

/-- SORT_GEN (R530): started by the value 0x005A. -/
def execSortGen (v : BitVec 16) (edges : Nat) (s : State) : Out :=
  .next (
    let s1 := s.loadIr .sortGen
    let s2 := s1.capture s1.sortCapture
    if v = 0x005A then s2.sortRun edges else s2)

/-- Whether the port's LC_ADV permits an advance (Table 22.5). -/
def State.lcAdvOk (s : State) (target : Nat) : Bool :=
  match s.lcState with
  | 0 => decide (target = 1) && s.sortGen && decide (s.fuseNow 0x040 64 ≠ 0)
  | 1 => decide (target = 2)
  | 2 | 3 => decide (target = 4)
  | _ => false

/-- An advance of the port with the Run-Test/Idle edges that follow it: 256 for each of the two bits; the bit under way
when the edges end reads 0 or 1 (R533). -/
def State.lcAdvRun (s : State) (target edges : Nat) : State :=
  if !s.lcAdvOk target || s.fuseSupplyBad || s.fuseCtrl.busy then s.setPort (fun p => { p with lcAdv := { reason := 1 } })
  else
    let lo := 2 * target - 2
    let s1 := if 256 ≤ edges then s.blow lo else if edges = 0 then s else s.tearFuse lo
    let s2 := if 512 ≤ edges then s1.blow (lo + 1) else if edges ≤ 256 then s1 else s1.tearFuse (lo + 1)
    s2.setPort (fun p => { p with lcAdv := { done := decide (512 ≤ edges) } })

/-- The life-cycle state that the fuses hold now (R533): the highest state whose pair has a blown bit. -/
def State.lcNow (s : State) : Nat :=
  let lc := s.fuseNow 0 8
  if lc / 64 % 4 ≠ 0 then 4 else if lc / 16 % 4 ≠ 0 then 3 else if lc / 4 % 4 ≠ 0 then 2 else if lc % 4 ≠ 0 then 1 else 0

/-- LC_ADV (R533): TARGET in [2:0]. Capture-DR loads the state sensed now, DONE and REFUSED (R534). -/
def execLcAdv (v : BitVec 16) (edges : Nat) (s : State) : Out :=
  .next (
    let s1 := s.loadIr .lcAdv
    let s2 := s1.capture (s1.lcNow + 256 * bit s1.port.lcAdv.done + 512 * bit (decide (s1.port.lcAdv.reason ≠ 0)))
    s2.lcAdvRun (bitsOf v 2 0) edges)

/-! ## The debug access engine (R524 to R526) -/

/-- The fields of a debug access. -/
structure DaeReq where
  addr : Nat
  window : Bool
  size : Nat
  wr : Bool
  wdata : Word
  clean : Bool
  deriving DecidableEq, Repr

/-- Read the fields of a DAE request (R524). -/
def daeReq (v : BitVec 112) : DaeReq :=
  { addr := bitsOf v 39 0, window := bitAt v 40, size := 2 ^ bitsOf v 42 41, wr := bitAt v 43
    wdata := BitVec.ofNat 64 (bitsOf v 111 48), clean := decide (bitsOf v 47 45 = 0) }

/-- What Capture-DR of DAE loads (R524). -/
def State.daeCapture (s : State) : Nat :=
  let d := s.port.dae
  d.rdata.toNat + 2 ^ 64 * bit d.done + 2 ^ 65 * (if d.pending then 1 else d.result.toNat)

/-- DAE (R524): a request with GO starts an access and abandons one still pending. -/
def execDae (v : BitVec 112) (s : State) : Out :=
  .next (
    let s1 := s.loadIr .dae
    let s2 := s1.capture s1.daeCapture
    if bitAt v 44 then s2.setPort (fun p => { p with dae := { req := v, pending := true } }) else s2)

/-- End a debug access with a RESULT and RDATA. -/
def State.daeEnd (s : State) (result : Nat) (rdata : Nat) : State :=
  s.setPort (fun p => { p with dae := { p.dae with pending := false, done := true, result := BitVec.ofNat 4 result,
                                                   rdata := BitVec.ofNat 64 rdata } })

/-- Whether DBG_EN permits an access of the engine to a place (R395). -/
def State.daeRight (s : State) (a : Nat) (write : Bool) : Bool :=
  let en := s.dbgEn
  if s.secureLoc a write then bitAt en 2 || (!write && bitAt en 3) else bitAt en 0 || (!write && bitAt en 1)

/-- Whether an address range of the physical map is closed to the engine with BUS (R32, R283, Table 22.2). -/
def State.daeBus (s : State) (q : DaeReq) : Bool :=
  !q.clean || decide (q.addr % q.size ≠ 0) || s.inKeyArray q.addr || (match s.region q.addr with
    | .hole | .rom => true
    | .dram | .sram => false
    | .device => decide (q.size ≠ 4) || decide (devPlace q.addr = .hole)
    | .flash => q.wr || s.flashBusy q.addr)

/-- The refusal of a debug access of the physical map, in this model's order (notes/assumptions/28.md). -/
def State.daeRefusal (s : State) (q : DaeReq) : Option Nat :=
  if s.inReset then some 8
  else if s.daeBus q then some 5
  else if s.dbgHeld then some 4
  else if (match s.enclAt q.addr with
    | none => false
    | some e => !e.dbg) then some 3
  else if !s.daeRight q.addr q.wr then some 2
  else none

/-- A poisoned word met by the engine (R526): a read consumes it, or detects it, and its record's AGENT is open; a partial
write is dropped. -/
def State.daePoison (s : State) (q : DaeReq) : State :=
  let f := s.fresh
  let agent := f.1.toNat % 16
  if q.wr then (f.2.bumpSat (.d .integPoisonDrop) 1).integRec 5 6 0 agent (wordOf q.addr)
  else f.2.usePoison 5 0 agent q.addr

/-- An access of the engine to memory or flash: it sets neither REF nor CHG, and a poisoned or uncorrectable word that it meets
gives ECC (R526, Table 22.2). -/
def State.daeMem (s : State) (q : DaeReq) : State :=
  if s.region q.addr = .flash then
    if s.poisoned q.addr then (s.daePoison q).daeEnd 6 0
    else s.daeEnd 0 (leNat (s.flashRead (q.addr - 0xF200000000) q.size))
  else if s.poisoned q.addr && !(q.wr && decide (q.size = 8)) then (s.daePoison q).daeEnd 6 0
  else if q.wr then (s.memWrite q.addr (leBytes q.size q.wdata.toNat)).daeEnd 0 0
  else s.daeEnd 0 (leNat (s.memRead q.addr q.size))

/-- An access of the engine to the device region. A write that the register refuses is still complete. -/
def State.daeDev (s : State) (q : DaeReq) : State :=
  match devPlace q.addr with
  | .hole | .empty => s.daeEnd 0 0
  | .reg r =>
    if q.wr then ((s.regWrite (.dae .nonSecure) (s.daeWorld q.addr true) r 0xF (q.wdata.setWidth 32)).2).daeEnd 0 0
    else
      let t := s.regRead (.dae .nonSecure) (s.daeWorld q.addr false) r
      t.2.daeEnd 0 t.1.toNat

/-- Whether the port's rights reach a context's debug-state window (R526). -/
def State.windowRight (s : State) (x : CtxId) : Bool :=
  if (s.ctx x).world = .secure then bitAt s.dbgEn 2 else bitAt s.dbgEn 0

/-- Write bytes of the debug-state window; they wait for the release. -/
def Ctx.windowWrite (c : Ctx) (o : Nat) (bs : List Byte) : Ctx :=
  { c with dbgBytes := bs.zipIdx.foldl (fun m p => smSet m none (o + p.2) (some p.1)) c.dbgBytes }

/-- An access of the debug-state window (R526). -/
def State.daeWindow (s : State) (q : DaeReq) : State :=
  if s.inReset then s.daeEnd 8 0
  else if !q.clean || decide (q.addr % q.size ≠ 0) || decide (65 * 0x400 ≤ q.addr) then s.daeEnd 5 0
  else
    let x : CtxId := Fin.ofNat 65 (q.addr / 0x400)
    if !(s.ctx x).halted then s.daeEnd 10 0
    else if s.dbgHeld then s.daeEnd 4 0
    else if !s.windowRight x then s.daeEnd 2 0
    else if q.wr then (s.upCtx x (fun c => c.windowWrite (q.addr % 0x400) (leBytes q.size q.wdata.toNat))).daeEnd 0 0
    else s.daeEnd 0 (leNat (slice (dbgView (s.ctx x)) (q.addr % 0x400) q.size))

/-- Issue a pending access and complete it (R525, R526). -/
def State.daeIssue (s : State) : State :=
  let q := daeReq s.port.dae.req
  if q.window then s.daeWindow q
  else match s.daeRefusal q with
    | some c => s.daeEnd c 0
    | none => if s.region q.addr = .device then s.daeDev q else s.daeMem q

/-- DAE_COMPLETE (R525): a pending access completes on its Run-Test/Idle edges, whatever instruction is current. -/
def execDaeComplete (u : Upset) (s : State) : Out :=
  .next (if s.port.dae.pending then s.withUpset u State.daeIssue else s)

/-- DAE_TIMEOUT (R525): a pending access not complete after 4,096 edges; a write issued before may be performed. -/
def execDaeTimeout (performed : Bool) (s : State) : Out :=
  .next (if s.port.dae.pending then
      (if performed && (daeReq s.port.dae.req).wr then s.daeIssue else s).daeEnd 7 0
    else s)

/-! ## Halt, step, release and reset (R527, R528) -/

/-- What Capture-DR of DBG_CTRL loads (R527). -/
def State.dbgCapture (s : State) : Nat :=
  let c := s.ctx (Fin.ofNat 65 s.port.dbgCtx.toNat)
  s.port.dbgCtx.toNat + 256 * bit c.halted + 512 * bit c.haltReq + 1024 * bit s.dbgHeld

/-- A DBG_CTRL operation on a context; a number above 64 names none (R526). -/
def State.dbgCtrl (s : State) (n : BitVec 7) (f : State → CtxId → State) : State :=
  let s1 := s.loadIr .dbgCtrl
  let s2 := (s1.capture s1.dbgCapture).setPort (fun p => { p with dbgCtx := n })
  if n.toNat ≤ 64 then f s2 (Fin.ofNat 65 n.toNat) else s2

/-- HALT (R527): a halt is requested. With OP 0, DBG_CTRL only takes CONTEXT. -/
def execHalt (n : BitVec 7) (ask : Bool) (s : State) : Out :=
  .next (s.dbgCtrl n (fun s x => if (s.ctx x).halted || !ask then s else s.upCtx x (fun c => { c with haltReq := true })))

/-- RELEASE (R527). -/
def execRelease (n : BitVec 7) (s : State) : Out := .next (s.dbgCtrl n (fun s x => s.resumeCtx x false))

/-- STEP (R527): the context is released for one instruction or bundle. -/
def execStep (n : BitVec 7) (s : State) : Out :=
  .next (s.dbgCtrl n (fun s x => if (s.ctx x).halted then s.resumeCtx x true else s))

/-- TAP_RESET (R528): the value 0xA5 starts a chip reset of cause TAP, where NSI or SI is set. What Capture-DR loads is
open. -/
def execTapReset (v : Byte) (s : State) : Out :=
  .next (
    let f := (s.loadIr .tapReset).fresh
    let s1 := f.2.capture (f.1.toNat % 256)
    if v = 0xA5 ∧ (bitAt s1.dbgEn 0 || bitAt s1.dbgEn 2) = true then s1.chipReset .tap else s1)

end Sys2Proof.Machine
end

