-- ==== Sys2Proof/Machine/Retire.lean ====
section
/-! DEFINITION. Choosing among exceptions, and what retiring an instruction or bundle does: loads that fall due, loop ends,
transfers and their delay bundles, mode changes, and what follows at the boundary (spec/05 R140 to R152, spec/06 R157 to
R171, spec/15 R354, R355). -/

namespace Sys2Proof.Machine

/-! ## The order of exceptions (Table 15.2) -/

/-- The rank of an exception that an instruction raises, after its fetch and decode (Table 15.2, R140). A world violation
that no access raises, but the instruction's own world (MFSR, MTSR, TLBI, the gates and returns), stands with those of
accesses, rank 8 (notes/assumptions/80.md), and so does a machine check for a residue (notes/assumptions/87.md). -/
def excRank (e : Exc) : Nat :=
  match e.vec with
  | 5 => if e.xinfo % 256 = 0x40 then 7 else 2
  | 4 => 3
  | 22 => 4
  | 18 => 5
  | 16 | 17 => 6
  | 19 => if e.xinfo % 256 = 1 ∨ e.xinfo % 256 = 7 ∨ e.xinfo % 256 = 9 then 8 else 7
  | 24 | 11 => 7
  | 12 | 13 | 14 | 15 => 9
  | _ => 8

/-- Keep the exception of lower rank; of two of one rank, the earlier. -/
def keepFirst (best : Option (Exc × State)) (e : Exc × State) : Option (Exc × State) :=
  match best with
  | none => some e
  | some b => if excRank e.1 < excRank b.1 then some e else some b

/-- Evaluate the instructions of a bundle: what they do, or the exception that decides. No instruction sees what another
would write (R140). -/
def evalAll (f : Ins → State → XR Done) (best : Option (Exc × State)) : List Ins → State → XR (List Done)
  | [], s => match best with
    | none => .ok [] s
    | some b => .exc b.1 b.2
  | i :: t, s => match f i s with
    | .exc e s' => evalAll f (keepFirst best (e, s')) t s
    | .ok d s' => (evalAll f best t s').bind (fun l s => .ok (d :: l) s)

/-! ## The return stack and the PC -/

/-- A return code pointer (R126, R160). -/
def retPtr (wform : Bool) (a : Nat) : Word := BitVec.ofNat 64 (2 ^ 63 * bit wform + a % 2 ^ 63)

/-- Push an entry (R161): a full stack discards its oldest. -/
def Ctx.push (c : Ctx) (v : Word) : Ctx :=
  if c.rsp.toNat < 16 then { c with rs := smSet c.rs 0 c.rsp.toNat v, rsp := c.rsp + 1 }
  else { c with rs := (List.range 16).foldl (fun m k => smSet m 0 k (if k = 15 then v else smGet c.rs 0 (k + 1))) [] }

/-- The top entry of the return stack (R162). -/
def Ctx.top (c : Ctx) : Word := smGet c.rs 0 (c.rsp.toNat - 1)

/-- Pop the return stack (R162). -/
def Ctx.pop (c : Ctx) : Ctx := { c with rsp := c.rsp - 1 }

/-- Whether a call would overflow the return stack and trap (R161). -/
def Ctx.pushTraps (c : Ctx) : Bool := decide (16 ≤ c.rsp.toNat) && c.rstrap

/-- Set the PC to an address, which may lie past the last one (R265). -/
def Ctx.goTo (c : Ctx) (a : Nat) : Ctx := { c with pc := BitVec.ofNat 48 a, pcHi := BitVec.ofNat 15 (a / 2 ^ 48) }

/-- Transfer to a code pointer in the form it gives; a change of form is a mode change, with its shadow unless the return itself
executed as one (R146, R152). -/
def Ctx.jumpTo (c : Ctx) (t : Word) (asShadow : Bool) : Ctx :=
  let c1 := c.goTo (bitsOf t 62 0)
  if bitAt t 63 = c.wform then c1
  else { c1.completeLoads with csw := setBit c1.csw 0 (bitAt t 63), shadow := !asShadow, modes := c.modes + 1 }

/-! ## Loop ends (R166) -/

/-- Whether loop level k is active with its end at an address. -/
def Ctx.endsAt (c : Ctx) (k : Nat) (a : VirtAddr) : Bool := c.lact k && decide (smGet c.lpe 0 k = a)

/-- Clear LACT bit k. -/
def Ctx.dropLevel (c : Ctx) (k : Nat) : Ctx := { c with csw := setBit c.csw (13 + k) false }

/-- The loop end at an address over the levels that remain: the context, and the start that execution goes back to, if it
does. -/
def Ctx.loopEnd (c : Ctx) (a : VirtAddr) : List Nat → Ctx × Option Nat
  | [] => (c, none)
  | k :: t =>
    if c.endsAt k a then
      if (smGet c.lpc 0 k).toNat ≤ 1 then ({ c.dropLevel k with lpc := smSet c.lpc 0 k 0 }).loopEnd a t
      else ({ c with lpc := smSet c.lpc 0 k (smGet c.lpc 0 k - 1) }, some (smGet c.lps 0 k).toNat)
    else c.loopEnd a t

/-- Go on after an instruction in sequence, through the loop end it may be (R166). -/
def Ctx.goOn (c : Ctx) (a : VirtAddr) (next : Nat) : Ctx :=
  let r := c.loopEnd a [2, 1, 0]
  r.1.goTo (r.2.getD next)

/-! ## Retiring -/

/-- The loads that fall due at the end of a bundle write their registers (R143). -/
def Ctx.dueLoads (c : Ctx) : Ctx :=
  let l := c.loads.map (fun p => { p with left := p.left - 1 })
  { (l.filter (fun p => decide (p.left = 0))).foldl Ctx.writeLoad c with loads := l.filter (fun p => decide (p.left ≠ 0)) }

/-- What every retirement leaves in the context before the writes of the instruction: the handler has begun, the first
fetch after a transfer is over, the shadow has executed (R152), the context is in the enclave the instruction was fetched
from (R386), and in W-form the loads that fall due are written. -/
def Ctx.begun (c : Ctx) (own : Option Nat) : Ctx :=
  let c1 := { c with entering := none, arrival := .none, shadow := false, inEncl := own }
  if c.wform then c1.dueLoads else c1

/-- Where a bundle sends control: the one syllable that does not go on in sequence decides. -/
def ctlOf (ds : List Done) : Ctl :=
  match ds.find? (fun d => match d.ctl with
    | .seq => false
    | _ => true) with
  | some d => d.ctl
  | none => .seq

/-- The end of a delay bundle at an address: the transfer it delayed is made (R146, R147, R161), unless its own writes have
made the address an active loop end that goes back (R166). -/
def Ctx.endDelay (c : Ctx) (d : DelayBranch) (asShadow : Bool) (a : VirtAddr) (next : Nat) : Ctx :=
  let c1 := { c with delay := none }
  let c2 := if d.call then c1.push (retPtr true next) else c1
  let r := c2.loopEnd a [2, 1, 0]
  match r.2 with
  | some start => r.1.goTo start
  | none => if d.taken then r.1.jumpTo d.target (d.shadow || asShadow) else r.1.goTo next

/-- Where control goes when an instruction or bundle retires; `c0` is the context as it began. -/
def Ctx.follow (c c0 : Ctx) (f : Fetched) (ctl : Ctl) : Ctx :=
  match c0.delay with
  | some d => c.endDelay d c0.shadow c0.pc f.next
  | none =>
    match ctl with
    | .transfer taken target call =>
      if c0.wform then
        { c.goTo f.next with
          delay := some { addr := c0.pc, target := target, taken := taken, call := call, replay := false, shadow := c0.shadow } }
      else
        let c1 := if call then c.push (retPtr false f.next) else c
        if taken then c1.jumpTo target c0.shadow else c1.goTo f.next
    | .mode => { c.completeLoads with shadow := !c0.shadow, modes := c.modes + 1 }
    | .seq | .wait | .pause => c.goOn c0.pc f.next

/-- Whether an instruction was fetched from an enclave closed to debug (R396). -/
def State.fromClosed (s : State) (own : Option Nat) : Bool :=
  match own with
  | none => false
  | some k => match s.enclave k with
    | none => false
    | some e => !e.dbg

/-- The step that CSW.SS reports, but not between a branch bundle and its delay bundle, nor for an instruction fetched from
an enclave closed to debug (R355 item 3, R396). -/
def State.noteStep (s : State) (x : CtxId) (c0 : Ctx) (own : Option Nat) : State :=
  if bitAt c0.csw 7 && (s.ctx x).delay.isNone && !s.fromClosed own then s.upCtx x (fun c => { c with stepDue := true }) else s

/-- A step of the port has ended (R527): the context is to halt again. -/
def State.stepEnded (s : State) (x : CtxId) : State :=
  if (s.ctx x).stepping then s.upCtx x (fun c => { c with stepping := false, haltReq := true }) else s

/-- The boundary after a retirement: a halt that is permitted and ends a step of the port, or meets an entry that is due, comes
first, then that entry (R355, R395, R396, R527). -/
def State.boundary (s : State) (x : CtxId) : State :=
  let c := s.ctx x
  if c.delay.isSome || c.stopped then s
  else
    let s1 := s.stepEnded x
    if s1.haltPermitted x && (c.stepping || c.stepDue || c.trapDue.isSome) then s1.haltNow x else s1.takeDue x

/-- The writes of an instruction or bundle. -/
def State.commitAll (s : State) (x : CtxId) (f : Fetched) (ds : List Done) : State :=
  ds.foldl (fun s d => d.commit s) (s.upCtx x (fun c => c.begun f.own))

/-- Where control goes after the writes, and the boundary there. -/
def State.afterCommit (s : State) (x : CtxId) (c0 : Ctx) (f : Fetched) (ds : List Done) : State :=
  ((s.upCtx x (fun c => c.follow c0 f (ctlOf ds))).noteStep x c0 f.own).boundary x

/-- Retire an instruction or bundle: its writes, and then where control goes. A write that resets the chip ends everything. -/
def State.retire (s : State) (x : CtxId) (c0 : Ctx) (f : Fetched) (ds : List Done) : State :=
  if (s.commitAll x f ds).inReset then s.commitAll x f ds else (s.commitAll x f ds).afterCommit x c0 f ds

/-- A context that the port stepped halts at a boundary where that is permitted, and waits to where it is not (R395, R396,
R527). -/
def State.endStep (s : State) (x : CtxId) : State :=
  if (s.ctx x).stepping && !(s.ctx x).stopped && (s.ctx x).delay.isNone then
    (if (s.stepEnded x).haltPermitted x then (s.stepEnded x).haltNow x else s.stepEnded x)
  else s

/-- A string instruction stands at an interruption point after steps that it has made (R210, R152): the context stays in
the enclave it arrived in. -/
def State.pauseAt (s : State) (x : CtxId) (f : Fetched) (ds : List Done) : State :=
  ((ds.foldl (fun s d => d.commit s) s).upCtx x (fun c => { c with
    shadow := false
    arrival := (match f.arrived with
      | none => c.arrival
      | some e => .gate e) })).endStep x

/-- The spec gives no XADDR for vectors 5, 11 and 18: there it is open (notes/assumptions/31.md). -/
def State.openAddr (s : State) (e : Exc) : Exc × State :=
  if e.vec = 5 ∨ e.vec = 11 ∨ e.vec = 18 then ({ e with xaddr := s.fresh.1.toNat }, s.fresh.2) else (e, s)

/-- A machine check with a record in MCHK_STATUS hits a tenant that is due to be saved, before it could be (Tables 3.6 and
3.7, CODE 0x03; notes/assumptions/42.md): its stores are performed, its state is abandoned, and it is FAULTED. -/
def State.abandon (s : State) (x : CtxId) (n : SiteId) : State :=
  let s1 := ((((s.drain x).upCtx x (fun c => { c with
    occ := .free, inEncl := none, arrival := .none, loads := [], delay := none, trapDue := none, stepDue := false })).dropPairs
      x).clearSiteIrq x).upSite n (fun v => { v with save := none })
  ((s1.enterFaulted n 3).decideEn n).convert n true

/-- Whether an exception is a machine check that makes a record in MCHK_STATUS (Table 15.4). -/
def Exc.recorded (e : Exc) : Bool := decide (e.vec = 1) && decide (e.xinfo % 256 ≠ 0)

/-- Raise an exception of an instruction; it ends a step of the port. -/
def State.raiseIns (s : State) (x : CtxId) (e : Exc) : State :=
  match (if e.recorded then s.dueSave x else none) with
  | some n => s.abandon x n
  | none =>
    let q := s.openAddr e
    (q.2.raise x q.1).endStep x

/-- The address of an exception of a fetch: that of a handler at a misaligned entry is the failing address, the entry's
(R350). -/
def State.fetchAddrOf (s : State) (x : CtxId) (e : Exc) : Exc × State :=
  if e.vec = 11 ∧ (s.ctx x).entering.isSome then ({ e with xaddr := (s.ctx x).pc.toNat }, s) else s.openAddr e

/-- Raise an exception of a fetch: one of the fetch itself may be an entry failure, and reserved opcode is of the
instruction (R350). -/
def State.raiseFetched (s : State) (x : CtxId) (e : Exc) : State :=
  match (if e.recorded then s.dueSave x else none) with
  | some n => s.abandon x n
  | none =>
    let q := s.fetchAddrOf x e
    (if e.vec = 5 then q.2.raise x q.1 else q.2.raiseFetch x q.1).endStep x

end Sys2Proof.Machine
end

