-- ==== Sys2Proof/Machine/InsInteger.lean ====
section
/-! DEFINITION. The integer instructions, the system registers, and control transfers and loops (spec/05 R123 to R125,
R151; spec/06; spec/15 R355, R359; spec/16 R396; spec/17 R417). -/

namespace Sys2Proof.Machine

/-! ## Integer and logical instructions (Table 6.1, R154) -/

/-- An instruction of two sources and a destination. -/
def alu (f : Word → Word → Word) : Eff := fun e i s =>
  withOpnds e i s (fun vs us => .ok (setRegs e us (fun c => c.setG (valAt vs 0).rn (f (valAt vs 1).word (valAt vs 2).word))) s)

/-- An instruction of one source and a destination. -/
def unary (f : Ins → Word → Word) : Eff := fun e i s =>
  withOpnds e i s (fun vs us => .ok (setRegs e us (fun c => c.setG (valAt vs 0).rn (f i (valAt vs 1).word))) s)

/-- The 6-bit count of a shift or rotate (R153). -/
def shiftCount (b : Word) : Nat := b.toNat % 64

/-- The result of a comparison: -1, 0 or +1. -/
def orderWord (lt eq : Bool) : Word := if eq then 0 else if lt then -1 else 1

/-- ADD -/
def effAdd : Eff := alu (fun a b => a + b)
/-- SUB -/
def effSub : Eff := alu (fun a b => a - b)
/-- AND -/
def effAnd : Eff := alu (fun a b => a &&& b)
/-- OR -/
def effOr : Eff := alu (fun a b => a ||| b)
/-- XOR -/
def effXor : Eff := alu (fun a b => a ^^^ b)
/-- ANDN -/
def effAndn : Eff := alu (fun a b => a &&& ~~~b)
/-- SHL -/
def effShl : Eff := alu (fun a b => a <<< shiftCount b)
/-- SHR -/
def effShr : Eff := alu (fun a b => a >>> shiftCount b)
/-- SAR -/
def effSar : Eff := alu (fun a b => a.sshiftRight (shiftCount b))
/-- ROR -/
def effRor : Eff := alu (fun a b => a.rotateRight (shiftCount b))
/-- MIN -/
def effMin : Eff := alu (fun a b => if b.slt a then b else a)
/-- MAX -/
def effMax : Eff := alu (fun a b => if a.slt b then b else a)
/-- MINU -/
def effMinu : Eff := alu (fun a b => if b < a then b else a)
/-- MAXU -/
def effMaxu : Eff := alu (fun a b => if a < b then b else a)
/-- CMP -/
def effCmp : Eff := alu (fun a b => orderWord (a.slt b) (decide (a = b)))
/-- CMPU -/
def effCmpu : Eff := alu (fun a b => orderWord (a.ult b) (decide (a = b)))
/-- MUL -/
def effMul : Eff := alu (fun a b => a * b)
/-- MULH: the high 64 bits of the signed product. -/
def effMulh : Eff := alu (fun a b => BitVec.ofInt 64 (a.toInt * b.toInt / 2 ^ 64))
/-- MULHU -/
def effMulhu : Eff := alu (fun a b => BitVec.ofNat 64 (a.toNat * b.toNat / 2 ^ 64))
/-- DIV (R154): rounded toward zero; a divisor of 0 gives 0. -/
def effDiv : Eff := alu (fun a b => if b = 0 then 0 else BitVec.ofInt 64 (a.toInt.tdiv b.toInt))
/-- DIVU (R154) -/
def effDivu : Eff := alu (fun a b => if b = 0 then 0 else BitVec.ofNat 64 (a.toNat / b.toNat))
/-- REM (R154): with the sign of Ga; a divisor of 0 gives Ga. -/
def effRem : Eff := alu (fun a b => if b = 0 then a else BitVec.ofInt 64 (a.toInt.tmod b.toInt))
/-- REMU (R154) -/
def effRemu : Eff := alu (fun a b => if b = 0 then a else BitVec.ofNat 64 (a.toNat % b.toNat))
/-- CLZ -/
def effClz : Eff := unary (fun _ a => BitVec.ofNat 64 (((List.range 64).find? (fun k => bitAt a (63 - k))).getD 64))
/-- CTZ -/
def effCtz : Eff := unary (fun _ a => BitVec.ofNat 64 (((List.range 64).find? (fun k => bitAt a k)).getD 64))
/-- POPC -/
def effPopc : Eff := unary (fun _ a => BitVec.ofNat 64 ((List.range 64).countP (fun k => bitAt a k)))

/-- The bits that the .B, .H and .W variants keep. -/
def extBits (sub : Nat) : Nat := 8 * 2 ^ (sub % 3)

/-- SEXT -/
def effSext : Eff := unary (fun i a => (a.setWidth (extBits i.sub)).signExtend 64)
/-- ZEXT -/
def effZext : Eff := unary (fun i a => (a.setWidth (extBits i.sub)).setWidth 64)
/-- LI: the immediate is sign-extended as it is decoded. -/
def effLi : Eff := unary (fun _ a => a)

/-- LIS -/
def effLis : Eff := fun e i s =>
  withOpnds e i s (fun vs us => .ok (setRegs e us (fun c =>
    c.setG (valAt vs 0).rn (setBits (valAt vs 0).word (16 * i.sub + 15) (16 * i.sub) i.num))) s)

/-! ## NOP, TRAP, BKPT and the system registers -/

/-- An instruction that writes nothing and goes on. -/
def goesOn : Done := { commit := id, ctl := .seq }

/-- An instruction that makes its writes and goes on. -/
def completes (f : State → State) (s : State) : XR Done := .ok { commit := f, ctl := .seq } s

/-- An instruction that waits: it is executed again, and what it does meanwhile. -/
def waits (f : State → State) (s : State) : XR Done := .ok { commit := f, ctl := .wait } s

/-- NOP (R252) -/
def effNop : Eff := fun _ _ s => .ok goesOn s

/-- TRAP (R355 item 2): it completes, and vector 23 is due with its code. -/
def effTrap : Eff := fun e i s =>
  .ok { commit := fun s => s.upCtx e.x (fun c => { c with trapDue := some (BitVec.ofNat 8 i.num) }), ctl := .seq } s

/-- BKPT (R359); one fetched from an enclave closed to debug raises enclave violation (R396). -/
def effBkpt : Eff := fun e _ s =>
  if s.fromClosed e.own then .exc (enclExc 4 .read (e.own.getD 0) e.pc e.pa) s else .exc { vec := 22, xinfo := 1 } s

/-- The reserved-opcode exception of a system register that is not assigned (R123, R258). -/
def sysRegExc (i : Ins) : Exc := { vec := 5, xinfo := 0x0A + 256 * i.loc }

/-- MFSR (R123) -/
def effMfsr : Eff := fun e i s =>
  match e.c.sysGet e.x i.num with
  | none => .exc (sysRegExc i) s
  | some v =>
    match sysRightExc e.c i.num false with
    | some x => .exc x s
    | none => withOpnds e i s (fun vs us => .ok (setRegs e us (fun c => c.setG (valAt vs 0).rn v)) s)

/-- MTSR (R123 to R125) -/
def effMtsr : Eff := fun e i s =>
  match e.c.sysGet e.x i.num with
  | none => .exc (sysRegExc i) s
  | some _ =>
    match sysRightExc e.c i.num true with
    | some x => .exc x s
    | none => withOpnds e i s (fun vs us => .ok (setRegs e us (fun c => c.sysSet i.num (valAt vs 0).word)) s)

/-- The writes of RAND (R417): Gv is written after Gd. -/
def State.randTo (s : State) (x : CtxId) (d v : BitVec 5) : State :=
  if s.rngReady then
    let f := s.drawBytes 8
    f.2.upCtx x (fun c => (c.setG d (BitVec.ofNat 64 (leNat f.1))).setG v 1)
  else s.upCtx x (fun c => (c.setG d 0).setG v 0)

/-- RAND (R417) -/
def effRand : Eff := fun e i s =>
  withOpnds e i s (fun vs _ =>
    completes (fun s => s.randTo e.x (valAt vs 0).rn (valAt vs 1).rn) s)

/-! ## Transfers (Tables 6.2 and 6.3) -/

/-- A target in the current form (R126, R157, R159). -/
def targetIn (wform : Bool) (a : Nat) : Word := BitVec.ofNat 64 (2 ^ 63 * bit wform + a % 2 ^ 63)

/-- The target of a direct transfer (R157). -/
def directTarget (e : Env) (i : Ins) : Word := targetIn e.c.wform (BitVec.ofNat 64 e.pc + wordInt i.imm).toNat

/-- A transfer that writes nothing. -/
def transfers (taken : Bool) (target : Word) (call : Bool) : Done := { commit := id, ctl := .transfer taken target call }

/-- The conditions of Table 6.3. -/
def condHolds (cc : Nat) (a b : Word) : Bool :=
  match cc with
  | 0 => decide (a = b)
  | 1 => decide (a ≠ b)
  | 2 => a.slt b
  | 3 => !a.slt b
  | 4 => a.ult b
  | _ => !a.ult b

/-- Bcc (R158) -/
def effBcc : Eff := fun e i s =>
  withOpnds e i s (fun vs _ => .ok (transfers (condHolds i.sub (valAt vs 0).word (valAt vs 1).word) (directTarget e i) false) s)

/-- BR -/
def effBr : Eff := fun e i s => .ok (transfers true (directTarget e i) false) s

/-- The target that a register gives (R159): its bit 63 is ignored. -/
def regTarget (e : Env) (v : Word) : Word := targetIn e.c.wform v.toNat

/-- JMP (R159) -/
def effJmp : Eff := fun e i s => withOpnds e i s (fun vs _ => .ok (transfers true (regTarget e (valAt vs 0).word) false) s)

/-- The exception of a call on a full return stack with RSTRAP set (R161). -/
def overflowExc : Exc := { vec := 16 }

/-- CALL (R161) -/
def effCall : Eff := fun e i s => if e.c.pushTraps then .exc overflowExc s else .ok (transfers true (directTarget e i) true) s

/-- CALLR (R159, R161) -/
def effCallr : Eff := fun e i s =>
  if e.c.pushTraps then .exc overflowExc s
  else withOpnds e i s (fun vs _ => .ok (transfers true (regTarget e (valAt vs 0).word) true) s)

/-- The state in which the delay bundle of an instruction is fetched: the branch waits, and control stands after it (R146). -/
def State.awaitsDelay (s : State) (e : Env) : State :=
  s.upCtx e.x (fun c => { c.goTo e.next with
    inEncl := e.own
    delay := some { addr := c.pc, target := 0, taken := false, call := false, replay := false, shadow := false } })

/-- The return address of a link branch (R160): after the instruction, or in W-form after the delay bundle, whose size is
read from memory, whether it decodes or not; where it cannot be read the address is open (notes/assumptions/32.md). -/
def linkAddr (e : Env) (s : State) : Nat × State :=
  if !e.c.wform then (e.next, s)
  else
    match (s.awaitsDelay e).fetch e.x with
    | .ok f _ => (f.next, s)
    | .exc _ _ =>
      match (s.awaitsDelay e).bundleLen e.x with
      | some n => (e.next + 4 * n, s)
      | none => (s.fresh.1.toNat, s.fresh.2)

/-- A link branch: Gd receives the return code pointer (R160). -/
def linkTo (e : Env) (s : State) (d : BitVec 5) (target : Word) : XR Done :=
  let r := linkAddr e s
  .ok { commit := fun s => s.upCtx e.x (fun c => c.setG d (retPtr e.c.wform r.1)), ctl := .transfer true target false } r.2

/-- BAL (R160) -/
def effBal : Eff := fun e i s => withOpnds e i s (fun vs _ => linkTo e s (valAt vs 0).rn (directTarget e i))

/-- BALR (R158 to R160) -/
def effBalr : Eff := fun e i s =>
  withOpnds e i s (fun vs _ => linkTo e s (valAt vs 0).rn (regTarget e (valAt vs 1).word))

/-- A loop fault (Table 6.4). -/
def loopExc (cause : Nat) : Exc := { vec := 18, xinfo := cause }

/-- Whether any hardware loop level is active. -/
def Ctx.anyLevel (c : Ctx) : Bool := c.lact 0 || c.lact 1 || c.lact 2

/-- RET (R159, R162, R169, R173) -/
def effRet : Eff := fun e _ s =>
  if e.c.rsp = 0 then .exc { vec := 17 } s
  else if bitAt e.c.top 63 ≠ e.c.wform ∧ e.c.anyLevel = true then .exc (loopExc 6) s
  else .ok { commit := fun s => s.upCtx e.x Ctx.pop, ctl := .transfer true e.c.top false } s

/-! ## FORM (R151, R169) -/

/-- A change to a form, going on at an address. -/
def formTo (e : Env) (s : State) (wform : Bool) (a : Nat) : XR Done :=
  if e.c.anyLevel then .exc (loopExc 6) s
  else .ok { commit := fun s => s.upCtx e.x (fun c => { c.goTo a with csw := setBit c.csw 0 wform }), ctl := .mode } s

/-- FORM.W: at the lowest multiple of 4 at or after its end. -/
def effFormW : Eff := fun e _ s => formTo e s true ((e.next + 3) / 4 * 4)

/-- FORM.B -/
def effFormB : Eff := fun e _ s => formTo e s false e.next

/-! ## Hardware loops (R164, R165, R168) -/

/-- The loop fault of a LOOP, in the order of Table 6.4: its level, its count and its end. A negative immediate count,
`neg`, is out of range whatever its low bits are (R251). -/
def loopCause (c : Ctx) (k : Nat) (count : Word) (neg : Bool) (lpe : VirtAddr) : Option Nat :=
  if neg then some 2
  else if bitsOf count 31 0 = 0 then some 1
  else if bitsOf count 63 32 ≠ 0 then some 2
  else if c.lact k then some 3
  else if (List.range 3).any (fun j => c.lact j && (decide (k ≤ j) || decide (smGet c.lpe 0 j < lpe))) then some 4
  else none

/-- Whether the first operand is a negative immediate. -/
def Ins.negImm (i : Ins) : Bool :=
  match i.ops with
  | .imm v :: _ => decide (v < 0)
  | _ => false

/-- LOOP (R164, R165) -/
def effLoop : Eff := fun e i s =>
  withOpnds e i s (fun vs _ =>
    let start : VirtAddr := BitVec.ofNat 48 e.next
    let stop := start + BitVec.ofNat 48 i.num
    match loopCause e.c i.sub (valAt vs 0).word i.negImm stop with
    | some k => .exc (loopExc k) s
    | none => .ok (setRegs e [] (fun c =>
        { c with
          lps := smSet c.lps 0 i.sub start, lpe := smSet c.lpe 0 i.sub stop
          lpc := smSet c.lpc 0 i.sub ((valAt vs 0).word.setWidth 32)
          csw := setBit c.csw (13 + i.sub) true })) s)

/-- LEXIT (R168) -/
def effLexit : Eff := fun e i s =>
  .ok (setRegs e [] (fun c => { c with csw := setBits c.csw 15 (13 + i.sub) 0 })) s

end Sys2Proof.Machine
end

