-- ==== Sys2Proof/Machine/InsMemory.lean ====
section
/-! DEFINITION. The integer loads and stores, compare-and-swap, SYNC, the storage keys and the look-aside buffers (spec/06
R155, R156; spec/11 R276, R277, R281; spec/12 R293 to R300; spec/15 R358). -/

namespace Sys2Proof.Machine

/-! ## Loads and stores -/

/-- Alignment exception (R155). -/
def alignExc : Exc := { vec := 11 }

/-- Read four bytes of the device region for a context (R14, R19). -/
def State.loadDevice (s : State) (x : CtxId) (pa : Nat) : Nat × State :=
  match devPlace pa with
  | .reg r => let q := (s.drainFor x pa).regRead (.ctx x) (s.ctx x).world r
              (q.1.toNat, q.2)
  | .hole | .empty => (0, s.drainFor x pa)

/-- Perform a checked load: its value, little-endian (R11), and the state after it. -/
def State.loadPieces (s : State) (x : CtxId) (ps : List (Nat × Nat)) : Nat × State :=
  match ps with
  | [(pa, _)] =>
    if s.region pa = .device then s.loadDevice x pa else (leNat (s.peekPieces x ps), s.touchPieces ps false)
  | _ => (leNat (s.peekPieces x ps), s.touchPieces ps false)

/-- The value of a load of a size, extended to 64 bits. -/
def extendLoad (signed : Bool) (size v : Nat) : Word :=
  if signed then ((BitVec.ofNat (8 * size) v).signExtend 64) else BitVec.ofNat 64 v

/-- A load of a size into a G register (R155, R143). -/
def loadTo (e : Env) (s : State) (ctl : AccCtl) (signed : Bool) (size : Nat) (vs : List Val)
    (us : List (BitVec 5 × Word)) : XR Done :=
  if (valAt vs 1).addr % size ≠ 0 then .exc alignExc s
  else (s.checkRead e.x ctl .read true (pagePieces (valAt vs 1).addr size)).bind (fun ps s =>
    completes (fun s =>
            (s.loadPieces e.x ps).2.upCtx e.x (fun c =>
              (c.applyG us).loadReg (valAt vs 0).rn.toNat ((extendLoad signed size (s.loadPieces e.x ps).1).setWidth 128))) s)

/-- Whether a store is a secure ST.D to an exit record of the committed table, which takes effect at once (R387). -/
def State.storesExit (s : State) (x : CtxId) (size pa : Nat) : Bool :=
  decide ((s.ctx x).world = .secure) && decide (size = 8) && s.encl.any (fun n => decide (s.exitAddr n.num = pa))

/-- Retire an integer store to checked pieces. -/
def State.storeWord (s : State) (x : CtxId) (size : Nat) (ps : List (Nat × Nat)) (v : Word) : State :=
  let s1 := s.retireStore x true ps (leBytes size v.toNat)
  if ps.any (fun p => s.storesExit x size p.1) then s1.drain x else s1

/-- A store of a size from a G register (R155). -/
def storeFrom (e : Env) (s : State) (ctl : AccCtl) (size : Nat) (vs : List Val) (us : List (BitVec 5 × Word)) : XR Done :=
  if (valAt vs 0).addr % size ≠ 0 then .exc alignExc s
  else (s.checkWrite e.x ctl (valAt vs 0).addr size).bind (fun ps s =>
    completes (fun s =>
            (s.storeWord e.x size ps (valAt vs 1).word).upCtx e.x (fun c => c.applyG us)) s)

/-- LD.B to LD.D (R155): the variants without U, but for LD.D, sign-extend. -/
def effLd : Eff := fun e i s =>
  withOpnds e i s (fun vs us => loadTo e s (i.accCtl e) (decide (i.sub % 2 = 0)) (loadSize i.sub) vs us)

/-- ST.B to ST.D (R155) -/
def effSt : Eff := fun e i s => withOpnds e i s (fun vs us => storeFrom e s (i.accCtl e) (sizeOf i.sub) vs us)

/-- The access controls of LDU and STU: every access is a user access (R276). -/
def Ins.userCtl (i : Ins) (e : Env) : AccCtl := { i.accCtl e with um := .asUser }

/-- LDU (R276) -/
def effLdu : Eff := fun e i s => withOpnds e i s (fun vs us => loadTo e s (i.userCtl e) false (sizeOf i.sub) vs us)

/-- STU (R276) -/
def effStu : Eff := fun e i s => withOpnds e i s (fun vs us => storeFrom e s (i.userCtl e) (sizeOf i.sub) vs us)

/-- The indivisible access of CAS.D at a physical address, after the stores of its context (R156, R313): the bytes become
Gs where they equal Gd, and Gd receives what was read. -/
def State.swap (s : State) (x : CtxId) (d : BitVec 5) (us : List (BitVec 5 × Word)) (pa : Nat) (cmp new : Word) : State :=
  s.drained x (fun s1 =>
    let old := BitVec.ofNat 64 (leNat (s1.memRead pa 8))
    let s2 := if old = cmp then s1.storeWrite pa (leBytes 8 new.toNat) else s1.touch pa 8 false
    s2.upCtx x (fun c => (c.applyG us).loadReg d.toNat (old.setWidth 128)))

/-- CAS.D (R156) -/
def effCasD : Eff := fun e i s =>
  withOpnds e i s (fun vs us =>
    if (valAt vs 1).addr % 8 ≠ 0 then .exc alignExc s
    else (s.checkRead e.x (i.accCtl e) .rw false (pagePieces (valAt vs 1).addr 8)).bind (fun ps s =>
      completes (fun s =>
              s.swap e.x (valAt vs 0).rn us (ps.headD (0, 0)).1 (e.c.getG (valAt vs 0).rn) (valAt vs 2).word) s))

/-! ## SYNC (R358) -/

/-- Whether a context has retired a TLBI that has not completed (R299). -/
def State.tlbiPending (s : State) (x : CtxId) : Bool := (s.core (coreOf x)).tlbis.any (fun t => decide (t.ctx = x))

/-- SYNC (R358): the earlier stores are performed; it waits for earlier TLBIs; a record of the current world raises vector 3
instead. -/
def effSync : Eff := fun e _ s =>
  if s.tlbiPending e.x then waits (fun s => s.drain e.x) s
  else
    match ((s.drain e.x).ctx e.x).storeErr with
    | none => .ok goesOn (s.drain e.x)
    | some r =>
      if r.world = e.c.world then
        .exc { vec := 3, xaddr := r.addr, xinfo := r.cause.toNat + 512 * bit r.ovf, async := true }
          ((s.drain e.x).upCtx e.x (fun c => { c with storeErr := none }))
      else .ok goesOn (s.drain e.x)

/-! ## Storage keys (R281) -/

/-- The exception of KSET, KGET or KRST for a physical address (R281 items 2 to 4). -/
def State.keyRefusal (s : State) (e : Env) (ga : Word) (write : Bool) : Option Exc :=
  if e.user then some privExc
  else if e.c.world = .nonSecure ∧ ga.toNat < s.secWeir then
    some { vec := 21, xaddr := ga.toNat, xinfo := 7 + 256 * bit write + xiFrame ga.toNat }
  else if s.dramSize ≤ ga.toNat then
    some { vec := 3, xaddr := ga.toNat, xinfo := 6 + 256, errAddr := some (ga.toNat % 2 ^ 40) }
  else none

/-- The key byte of the frame of an address; 0 while KEY_BASE.V = 0 (R278). A poisoned one holds zeros (R336). -/
def State.keyByte (s : State) (a : Nat) : Byte := if s.keyV then s.memByte (s.keyBase + a / 4096) else 0

/-- Write the key byte of the frame of an address; nothing while KEY_BASE.V = 0 (R278), nor into a poisoned word (R337). -/
def State.setKeyByte (s : State) (a : Nat) (b : Byte) : State :=
  if !s.keyV then s
  else if s.poisoned (s.keyBase + a / 4096) then s.bumpSat (.d .integPoisonDrop) 1
  else { s with mem := memSet s.mem (s.keyBase + a / 4096) b }

/-- A key instruction reads the key byte of the frame of an address: poison there is consumed (R336). -/
def State.meetKey (s : State) (x : CtxId) (a : Nat) : State :=
  if s.keyV && s.poisoned (s.keyBase + a / 4096) then
    s.countPoison (coreOf x % 16) (agentOf x) [wordOf (s.keyBase + a / 4096)]
  else s

/-- KSET (R281) -/
def effKset : Eff := fun e i s =>
  withOpnds e i s (fun vs _ =>
    match s.keyRefusal e (valAt vs 0).word true with
    | some x => .exc x s
    | none => completes (fun s => s.setKeyByte (valAt vs 0).word.toNat ((valAt vs 1).word.setWidth 8)) s)

/-- KGET (R281) -/
def effKget : Eff := fun e i s =>
  withOpnds e i s (fun vs _ =>
    match s.keyRefusal e (valAt vs 1).word false with
    | some x => .exc x s
    | none => completes (fun s =>
        (s.meetKey e.x (valAt vs 1).word.toNat).upCtx e.x (fun c =>
          c.setG (valAt vs 0).rn ((s.keyByte (valAt vs 1).word.toNat).setWidth 64))) s)

/-- KRST (R281) -/
def effKrst : Eff := fun e i s =>
  withOpnds e i s (fun vs _ =>
    match s.keyRefusal e (valAt vs 1).word true with
    | some x => .exc x s
    | none => completes (fun s =>
        let a := (valAt vs 1).word.toNat
        ((s.meetKey e.x a).setKeyByte a (s.keyByte a &&& 0xBF)).upCtx e.x (fun c =>
          c.setG (valAt vs 0).rn ((s.keyByte a).setWidth 64))) s)

/-! ## Look-aside buffers (R293 to R300) -/

/-- Load a slot of the executing core's locked array. -/
def State.lockSlot (s : State) (core slot : Nat) (t : Option TlbEntry) : State :=
  s.setCore core { s.core core with locked := smSet (s.core core).locked none slot t }

/-- The translation that TLBL locks (R293, R449): by the lookup with its own slot excluded, with no permission check. -/
def State.lockTarget (s : State) (e : Env) (slot ga : Nat) : XR TlbEntry :=
  if 2 ^ 48 ≤ ga ∨ (s.direct e.x = true ∧ 2 ^ 40 ≤ ga) then .exc (pageExc 1 .read false false ga 0 0) s
  else if s.direct e.x then
    .ok { page := ga / 4096 * 4096, level := 4, w := true, x := true, u := false, g := true, nc := false, out := ga / 4096 * 4096
          world := .secure, tag := 0 } s
  else
    let r := s.lookup (coreOf e.x) e.c false ga (some slot)
    match r.1 with
    | .multi => .exc { vec := 1, xinfo := 3 } r.2
    | .fault f => .exc { vec := 8, xaddr := ga, xinfo := walkInfo f } r.2
    | .hit t => .ok t r.2

/-- TLBL (R293) -/
def effTlbl : Eff := fun e i s =>
  if e.user then .exc privExc s
  else withOpnds e i s (fun vs _ =>
    (s.lockTarget e ((valAt vs 0).word.toNat % 16) (valAt vs 1).word.toNat).bind (fun t s =>
      completes (fun s => s.lockSlot (coreOf e.x) ((valAt vs 0).word.toNat % 16) (some t)) s))

/-- TLBU (R294) -/
def effTlbu : Eff := fun e i s =>
  if e.user then .exc privExc s
  else withOpnds e i s (fun vs _ =>
    completes (fun s => s.lockSlot (coreOf e.x) ((valAt vs 0).word.toNat % 16) none) s)

/-- TLBI (R296 to R300): it retires; a fifth that has not completed on its core waits. -/
def effTlbi : Eff := fun e i s =>
  if e.user then .exc privExc s
  else withOpnds e i s (fun vs _ =>
    if bitAt (valAt vs 1).word 24 ∧ e.c.world = .nonSecure then .exc (worldInsExc 5) s
    else if 4 ≤ (s.core (coreOf e.x)).tlbis.length then waits id s
    else completes (fun s =>
      s.setCore (coreOf e.x) { s.core (coreOf e.x) with tlbis := (s.core (coreOf e.x)).tlbis ++
        [{ ctx := e.x, span := BitVec.ofNat 2 (i.num % 4), walk := bitAt (BitVec.ofNat 3 i.num) 2
           va := (valAt vs 0).word.toNat % 2 ^ 48, sel := (valAt vs 1).word }] }) s)

/-- The world that a TLBI targets (Table 12.3). -/
def Tlbi.world (t : Tlbi) : World := if bitAt t.sel 24 then .secure else .nonSecure

/-- Whether a TLBI's selector names the tenant of a tag, or every space of its world (Table 12.3). -/
def Tlbi.names (t : Tlbi) (tag : Nat) : Bool :=
  bitAt t.sel 16 && decide (t.world = .nonSecure) && decide (bitsOf t.sel 9 0 = tag)

/-- Whether a TLBI removes a translation (Tables 12.3 and 12.4). -/
def Tlbi.takes (t : Tlbi) (e : TlbEntry) : Bool :=
  if t.span = 2 then decide (e.world = t.world)
  else
    ((t.names e.tag.toNat && decide (e.world = .nonSecure) && !e.g) || (bitAt t.sel 17 && e.g && decide (e.world = t.world)))
      && (decide (t.span ≠ 0)
        || decide (t.va / 2 ^ (12 + 9 * (4 - e.level)) * 2 ^ (12 + 9 * (4 - e.level)) = e.page))

/-- Whether a TLBI removes a walk-cache entry (Tables 12.3 and 12.4). -/
def Tlbi.takesWalk (t : Tlbi) (e : WalkEntry) : Bool :=
  t.walk && (if t.span = 2 then decide (e.world = t.world)
    else
      ((t.names e.space && decide (e.world = .nonSecure)) || (bitAt t.sel 17 && decide (e.world = t.world)))
        && (decide (t.span ≠ 0) || decide (t.va / 2 ^ (12 + 9 * (4 - e.level)) = e.pre)))

/-- Whether a Spoonbill command keeps a TLBI from completing (R298). -/
def Tlbi.waitsFor (t : Tlbi) (k : SpbCmd) : Bool :=
  t.names k.tenant.toNat || (decide (t.world = .nonSecure) && (decide (t.span = 2) || bitAt t.sel 17))

/-- The removals of a TLBI on a core. -/
def State.removeOn (s : State) (t : Tlbi) (core : Nat) : State :=
  let k := s.core core
  s.setCore core { k with tlbs := k.tlbs.keep (fun e => !t.takes e), wcache := k.wcache.filter (fun e => !t.takesWalk e) }

/-- Whether every access that could have used a removed translation is performed (R298): no store waits in any buffer, and
no Spoonbill command of a selected tenant is queued (notes/assumptions/33.md). -/
def State.tlbiReady (s : State) (t : Tlbi) : Bool :=
  allCtxs.all (fun x => (s.ctx x).storeBuf.isEmpty)
    && (List.range 4).all (fun u => (smGet s.spb [] u).all (fun k => !t.waitsFor k))

/-- The oldest TLBI of a core completes (R298). -/
def State.tlbiDone (s : State) (core : Nat) : State :=
  match (s.core core).tlbis with
  | [] => s
  | t :: rest =>
    if s.tlbiReady t then
      ((List.range 17).foldl (fun s c => s.removeOn t c) s).setCore core
        { ((List.range 17).foldl (fun s c => s.removeOn t c) s).core core with tlbis := rest }
    else s

/-- TLBI_COMPLETE (R298), on a ledger core, or the boot core (16). -/
def execTlbiComplete (core : Fin 17) (s : State) : Out := .next (s.tlbiDone core.val)

end Sys2Proof.Machine
end

