-- ==== Sys2Proof/Machine/InsDecimal.lean ====
section
/-! DEFINITION. The packed decimal instructions (spec/07). -/

namespace Sys2Proof.Machine

/-! ## Fields, validation and values (R174 to R178) -/

/-- The nibbles of a D register, most significant first, the sign last (R175). -/
def regNibbles (v : BitVec 128) : List Nat := (List.range 32).map (fun p => (v.toNat >>> (4 * (31 - p))) % 16)

/-- The nibbles of a memory operand, the high nibble of a byte first (R12, R174). -/
def memNibbles (bs : List Byte) : List Nat := bs.flatMap (fun b => [b.toNat / 16, b.toNat % 16])

/-- The value of a field: the sign applied to its digits (R174, Table 7.1). -/
def fieldValue (ns : List Nat) : Int :=
  let m : Nat := ns.dropLast.foldl (fun a d => a * 10 + d) 0
  if minusSign (ns.getLastD 0xC) then -(m : Int) else (m : Int)

/-- The first invalid nibble of a field: its cause, 1 DIGIT or 2 SIGN, and its position (R176, R178). -/
def badNibble (ns : List Nat) : Option (Nat × Nat) :=
  match (ns.dropLast).findIdx? (fun d => decide (9 < d)) with
  | some p => some (1, p)
  | none => if ns.getLastD 0xC < 10 then some (2, ns.length - 1) else none

/-- `n` digits of a number, as nibbles of a number. -/
def bcd : Nat → Nat → Nat
  | 0, _ => 0
  | n + 1, m => m % 10 + 16 * bcd n (m / 10)

/-- A delivered result as a D register holds it. -/
def DecOut.toReg (o : DecOut) : BitVec 128 := BitVec.ofNat 128 (o.sign + 16 * bcd 31 o.mag)

/-- A delivered result as a memory operand of `n` bytes. -/
def DecOut.toMem (o : DecOut) (n : Nat) : List Byte := beBytes n (o.sign + 16 * bcd (2 * n - 1) o.mag)

/-- Decimal data exception (Table 7.5). -/
def dataExc (cause opnum pos addr : Nat) : Exc := { vec := 12, xaddr := addr, xinfo := cause + opnum * 256 + pos * 65536 }

/-- Decimal overflow exception (Table 7.5): 1 ARITH, 2 SHIFT, 3 STORE, 4 CONVERT. -/
def overExc (cause addr : Nat) : Exc := { vec := 13, xaddr := addr, xinfo := cause + 256 }

/-- Decimal divide exception (Table 7.5). -/
def divideExc (addr : Nat) : Exc := { vec := 14, xaddr := addr, xinfo := 1 + 512 }

/-! ## Register operands (R182, R195 to R197) -/

/-- The D register that an operand names. -/
def Val.dn (v : Val) : BitVec 3 := v.rn.setWidth 3

/-- The machine check of a failed source check (R197, R343); the address of its record is open (notes/assumptions/27.md). -/
def State.residueFail (s : State) (x : CtxId) : XR Done :=
  .exc { vec := 1, xinfo := 0x0700 } (s.fresh.2.integRec 7 7 (coreOf x % 16) (agentOf x) (s.fresh.1.toNat % 2 ^ 40))

/-- Whether the carried residues of registers match their values (R197). -/
def Ctx.residuesOk (c : Ctx) (l : List (BitVec 3)) : Bool :=
  l.all (fun r => decide (smGet c.dres 0 r.toNat = residueOf (c.getD r)))

/-- The first invalid nibble of register operands, numbered from 1, as an exception (R178). -/
def regData (c : Ctx) (k : Nat) : List (BitVec 3) → Option Exc
  | [] => none
  | r :: t => match badNibble (regNibbles (c.getD r)) with
    | some (cause, p) => some (dataExc cause k p 0)
    | none => regData c (k + 1) t

/-- The value of a D register. -/
def Ctx.decValue (c : Ctx) (r : BitVec 3) : Int := fieldValue (regNibbles (c.getD r))

/-- An instruction on validated D registers: the source check, validation, and then what it does (R178, R189, R197). -/
def onRegs (e : Env) (s : State) (l : List (BitVec 3)) (f : XR Done) : XR Done :=
  if !e.c.residuesOk l then s.residueFail e.x
  else match regData e.c 1 l with
    | some x => .exc x s
    | none => f

/-- Deliver a result to a D register (R180), with DSTAT.INEXACT where a shift discarded a digit. -/
def toDecReg (e : Env) (s : State) (d : BitVec 3) (v : Int) (cause : Nat) (inexact : Bool) : XR Done :=
  match deliver e.c v 31 with
  | none => .exc (overExc cause 0) s
  | some o => completes (fun s => s.upCtx e.x (fun c => (c.setD d o.toReg).stickD o.ovf inexact)) s

/-- A two-source register instruction. -/
def decTwo (f : Int → Int → Int) : Eff := fun e i s =>
  withOpnds e i s (fun vs _ => onRegs e s [(valAt vs 1).dn, (valAt vs 2).dn]
    (toDecReg e s (valAt vs 0).dn (f (e.c.decValue (valAt vs 1).dn) (e.c.decValue (valAt vs 2).dn)) 1 false))

/-- A one-source register instruction. -/
def decOne (f : Int → Int) : Eff := fun e i s =>
  withOpnds e i s (fun vs _ => onRegs e s [(valAt vs 1).dn]
    (toDecReg e s (valAt vs 0).dn (f (e.c.decValue (valAt vs 1).dn)) 1 false))

/-- A division of registers; a zero divisor raises decimal divide (R182). -/
def decDiv (f : Int → Int → Int) : Eff := fun e i s =>
  withOpnds e i s (fun vs _ => onRegs e s [(valAt vs 1).dn, (valAt vs 2).dn]
    (if e.c.decValue (valAt vs 2).dn = 0 then .exc (divideExc 0) s
     else toDecReg e s (valAt vs 0).dn (f (e.c.decValue (valAt vs 1).dn) (e.c.decValue (valAt vs 2).dn)) 1 false))

/-- DADD -/
def effDadd : Eff := decTwo (fun a b => a + b)
/-- DSUB -/
def effDsub : Eff := decTwo (fun a b => a - b)
/-- DMUL -/
def effDmul : Eff := decTwo (fun a b => a * b)
/-- DNEG -/
def effDneg : Eff := decOne (fun a => -a)
/-- DABS -/
def effDabs : Eff := decOne (fun a => (a.natAbs : Int))
/-- DDIV: rounded toward zero. -/
def effDdiv : Eff := decDiv (fun a b => a.tdiv b)
/-- DREM: with the sign of Da. -/
def effDrem : Eff := decDiv (fun a b => a.tmod b)

/-- DSRR (R181) -/
def effDsrr : Eff := fun e i s =>
  withOpnds e i s (fun vs _ => onRegs e s [(valAt vs 1).dn]
    (toDecReg e s (valAt vs 0).dn (shiftRound (e.c.decValue (valAt vs 1).dn) i.imm i.rm).1 2
      (shiftRound (e.c.decValue (valAt vs 1).dn) i.imm i.rm).2))

/-- The result of a comparison of integers: -1, 0 or +1. -/
def orderInt (a b : Int) : Word := orderWord (decide (a < b)) (decide (a = b))

/-- DCMP -/
def effDcmp : Eff := fun e i s =>
  withOpnds e i s (fun vs us => onRegs e s [(valAt vs 1).dn, (valAt vs 2).dn]
    (.ok (setRegs e us (fun c => c.setG (valAt vs 0).rn
      (orderInt (e.c.decValue (valAt vs 1).dn) (e.c.decValue (valAt vs 2).dn)))) s))

/-- DMOV (R179, R196): nibble for nibble, with the source's residue. -/
def effDmov : Eff := fun e i s =>
  withOpnds e i s (fun vs _ =>
    if !e.c.residuesOk [(valAt vs 1).dn] then s.residueFail e.x
    else completes (fun s => s.upCtx e.x (fun c => c.setD (valAt vs 0).dn (e.c.getD (valAt vs 1).dn))) s)

/-- CVBD -/
def effCvbd : Eff := fun e i s =>
  withOpnds e i s (fun vs _ => toDecReg e s (valAt vs 0).dn (valAt vs 1).word.toInt 4 false)

/-- CVDB (R182): a value out of range overflows. -/
def effCvdb : Eff := fun e i s =>
  withOpnds e i s (fun vs us => onRegs e s [(valAt vs 1).dn]
    (let v := e.c.decValue (valAt vs 1).dn
     let ovf := decide (v < -(2 ^ 63)) || decide (2 ^ 63 ≤ v)
     if ovf && e.c.dovt then .exc (overExc 4 0) s
     else .ok (setRegs e us (fun c => (c.setG (valAt vs 0).rn (BitVec.ofInt 64 v)).stickD ovf false)) s))

/-- The conditions of DBcc (Table 6.3). -/
def decCond (cc : Nat) (a b : Int) : Bool :=
  match cc with
  | 0 => decide (a = b)
  | 1 => decide (a ≠ b)
  | 2 => decide (a < b)
  | _ => !decide (a < b)

/-- DBcc (R185) -/
def effDbcc : Eff := fun e i s =>
  withOpnds e i s (fun vs _ =>
    match regData e.c 1 [(valAt vs 0).dn, (valAt vs 1).dn] with
    | some x => .exc x s
    | none => .ok (transfers (decCond i.sub (e.c.decValue (valAt vs 0).dn) (e.c.decValue (valAt vs 1).dn)) (directTarget e i)
        false) s)

/-- DLD (R179, R188): L bytes, the bits above cleared. -/
def effDld : Eff := fun e i s =>
  withOpnds e i s (fun vs us =>
    (s.checkRead e.x (i.accCtl e) .read false (pagePieces (valAt vs 1).addr i.l1)).bind (fun ps s =>
      completes (fun s => (s.touchPieces ps false).upCtx e.x (fun c =>
        (c.applyG us).loadReg (32 + (valAt vs 0).dn.toNat) (BitVec.ofNat 128 (beNat (s.peekPieces e.x ps))))) s))

/-- DST (R188, R190): with a produced sign. -/
def effDst : Eff := fun e i s =>
  withOpnds e i s (fun vs us =>
    (s.checkWrite e.x (i.accCtl e) (valAt vs 0).addr i.l1).bind (fun ps s => onRegs e s [(valAt vs 1).dn]
      (match deliver e.c (e.c.decValue (valAt vs 1).dn) (2 * i.l1 - 1) with
       | none => .exc (overExc 3 (valAt vs 0).addr) s
       | some o => completes (fun s => (s.retireStore e.x false ps (o.toMem i.l1)).upCtx e.x (fun c =>
           (c.applyG us).stickD o.ovf false)) s)))

/-! ## Memory operands (R183 to R187) -/

/-- The read phase of an operand (R186): its checked pieces, each with its effective address, are found readable. -/
def State.readPhase (s : State) (x : CtxId) (k : Kind) : List ((Nat × Nat) × (Nat × Nat)) → XR Unit
  | [] => .ok () s
  | (v, p) :: t =>
    if s.refused x k p.1 p.2 ∨ s.region p.1 = .device then .exc (busExc 1 p.1) s
    else match s.poisonAt x p.1 p.2 with
      | some i => .exc (s.poisonHit x (v.1 + i) (p.1 + i)).1 (s.poisonHit x (v.1 + i) (p.1 + i)).2
      | none => s.readPhase x k t

/-- The read phase of an operand at an effective address; an operand that is only written is not read. -/
def readOp (e : Env) (s : State) (k : Kind) (ea len : Nat) (ps : List (Nat × Nat)) : XR Unit :=
  if k = .write then .ok () s else s.readPhase e.x k ((pagePieces ea len).zip ps)

/-- What a memory-to-memory instruction works on, after its checks: the pieces and bytes of its operands. -/
structure MemOps where
  ps1 : List (Nat × Nat)
  bs1 : List Byte
  ps2 : List (Nat × Nat)
  bs2 : List Byte
  deriving DecidableEq, Repr

/-- The check and read phases of two operands (R186). -/
def memPhases (e : Env) (i : Ins) (s : State) (k1 : Kind) (ea1 ea2 : Nat) (f : MemOps → State → XR Done) : XR Done :=
  (s.xlatePieces e.x (i.accCtl e) k1 (pagePieces ea1 i.l1)).bind (fun ps1 s =>
    (s.xlatePieces e.x (i.accCtl e) .read (pagePieces ea2 i.l2)).bind (fun ps2 s =>
      (readOp e s k1 ea1 i.l1 ps1).bind (fun _ s =>
        (readOp e s .read ea2 i.l2 ps2).bind (fun _ s =>
          let b1 := if k1 = .write then [] else s.peekPieces e.x ps1
          f { ps1 := ps1, bs1 := b1, ps2 := ps2, bs2 := s.peekPieces e.x ps2 } s))))

/-- The invalid nibble of a memory operand, as an exception (R178). -/
def memData (opnum ea : Nat) (bs : List Byte) : Option Exc :=
  match badNibble (memNibbles bs) with
  | some (cause, p) => some (dataExc cause opnum p (ea + p / 2))
  | none => none

/-- The value of a memory operand. -/
def memValue (bs : List Byte) : Int := fieldValue (memNibbles bs)

/-- The write phase (R186): the reads set REF, and operand 1 is stored. -/
def State.storeOp1 (s : State) (e : Env) (m : MemOps) (us : List (BitVec 5 × Word)) (bs : List Byte) (ovf inexact : Bool) :
    State :=
  (((s.touchPieces (if m.bs1.isEmpty then [] else m.ps1) false).touchPieces m.ps2 false).retireStore e.x false m.ps1 bs).upCtx
    e.x (fun c => (c.applyG us).stickD ovf inexact)

/-- Deliver a result to operand 1 (R180). -/
def toMemOp (e : Env) (i : Ins) (s : State) (ea : Nat) (m : MemOps) (us : List (BitVec 5 × Word)) (v : Int) (cause : Nat)
    (inexact : Bool) : XR Done :=
  match deliver e.c v (2 * i.l1 - 1) with
  | none => .exc (overExc cause ea) s
  | some o => completes (fun s => s.storeOp1 e m us (o.toMem i.l1) o.ovf inexact) s

/-- The first of two optional exceptions. -/
def orExc (a b : Option Exc) : Option Exc :=
  match a with
  | none => b
  | some x => some x

/-- An instruction that reads both operands and writes the first. -/
def memTwo (zero : Bool) (f : Int → Int → Int) : Eff := fun e i s =>
  withOpnds e i s (fun vs us =>
    let ea1 := (valAt vs 0).addr
    let ea2 := (valAt vs 1).addr
    memPhases e i s .rw ea1 ea2 (fun m s =>
      match orExc (memData 1 ea1 m.bs1) (memData 2 ea2 m.bs2) with
      | some x => .exc x s
      | none =>
        if zero ∧ memValue m.bs2 = 0 then .exc (divideExc ea2) s
        else toMemOp e i s ea1 m us (f (memValue m.bs1) (memValue m.bs2)) 1 false))

/-- ADDP -/
def effAddp : Eff := memTwo false (fun a b => a + b)
/-- SUBP -/
def effSubp : Eff := memTwo false (fun a b => a - b)
/-- MULP -/
def effMulp : Eff := memTwo false (fun a b => a * b)
/-- DIVP: rounded toward zero. -/
def effDivp : Eff := memTwo true (fun a b => a.tdiv b)

/-- MOVP -/
def effMovp : Eff := fun e i s =>
  withOpnds e i s (fun vs us =>
    memPhases e i s .write (valAt vs 0).addr (valAt vs 1).addr (fun m s =>
      match memData 2 (valAt vs 1).addr m.bs2 with
      | some x => .exc x s
      | none => toMemOp e i s (valAt vs 0).addr m us (memValue m.bs2) 1 false))

/-- CMPP -/
def effCmpp : Eff := fun e i s =>
  withOpnds e i s (fun vs us =>
    memPhases e i s .read (valAt vs 1).addr (valAt vs 2).addr (fun m s =>
      match orExc (memData 1 (valAt vs 1).addr m.bs1) (memData 2 (valAt vs 2).addr m.bs2) with
      | some x => .exc x s
      | none => completes (fun s => ((s.touchPieces m.ps1 false).touchPieces m.ps2 false).upCtx e.x (fun c =>
          (c.applyG us).setG (valAt vs 0).rn (orderInt (memValue m.bs1) (memValue m.bs2)))) s))

/-- The count of SHRP: bits [6:0] of its value, signed (R183). -/
def shrpCount (v : Word) : Int := signedOf 7 (bitsOf v 6 0)

/-- SHRP (R181) -/
def effShrp : Eff := fun e i s =>
  withOpnds e i s (fun vs us =>
    (s.xlatePieces e.x (i.accCtl e) .rw (pagePieces (valAt vs 0).addr i.l1)).bind (fun ps s =>
      (readOp e s .rw (valAt vs 0).addr i.l1 ps).bind (fun _ s =>
        let bs := s.peekPieces e.x ps
        match memData 1 (valAt vs 0).addr bs with
        | some x => .exc x s
        | none =>
          toMemOp e i s (valAt vs 0).addr { ps1 := ps, bs1 := bs, ps2 := [], bs2 := [] } us
            (shiftRound (memValue bs) (shrpCount (valAt vs 1).word) i.rm).1 2
            (shiftRound (memValue bs) (shrpCount (valAt vs 1).word) i.rm).2)))

/-! ## ASCII digits (R184) -/

/-- Whether a byte is an ASCII sign. -/
def isSignChar (b : Byte) : Bool := decide (b = 0x2B) || decide (b = 0x2D)

/-- Whether a byte is an ASCII digit. -/
def isDigitChar (b : Byte) : Bool := decide (0x30 ≤ b.toNat) && decide (b.toNat ≤ 0x39)

/-- The position of the first invalid character of a PACKA source (R184). -/
def badChar (bs : List Byte) : Option Nat :=
  match bs with
  | [] => none
  | b :: t =>
    if isSignChar b then
      if t.isEmpty then some 0 else (t.findIdx? (fun b => !isDigitChar b)).map (· + 1)
    else (b :: t).findIdx? (fun b => !isDigitChar b)

/-- The value of a valid PACKA source. -/
def charValue (bs : List Byte) : Int :=
  let m : Nat := (bs.filter isDigitChar).foldl (fun a b => a * 10 + (b.toNat - 0x30)) 0
  if bs.headD 0 = 0x2D then -(m : Int) else (m : Int)

/-- PACKA (R184) -/
def effPacka : Eff := fun e i s =>
  withOpnds e i s (fun vs us =>
    memPhases e i s .write (valAt vs 0).addr (valAt vs 1).addr (fun m s =>
      match badChar m.bs2 with
      | some p => .exc (dataExc 3 2 p ((valAt vs 1).addr + p)) s
      | none => toMemOp e i s (valAt vs 0).addr m us (charValue m.bs2) 4 false))

/-- `n` ASCII digits of a number, most significant first. -/
def asciiDigits : Nat → Nat → List Byte
  | 0, _ => []
  | n + 1, m => asciiDigits n (m / 10) ++ [BitVec.ofNat 8 (0x30 + m % 10)]

/-- UNPKA (R184) -/
def effUnpka : Eff := fun e i s =>
  withOpnds e i s (fun vs us =>
    memPhases e i s .write (valAt vs 0).addr (valAt vs 1).addr (fun m s =>
      match memData 2 (valAt vs 1).addr m.bs2 with
      | some x => .exc x s
      | none =>
        let v := (memValue m.bs2).natAbs
        let ovf := decide (10 ^ i.l1 ≤ v)
        if ovf && e.c.dovt then .exc (overExc 4 (valAt vs 0).addr) s
        else completes (fun s => s.storeOp1 e m us (asciiDigits i.l1 (v % 10 ^ i.l1)) ovf false) s))

end Sys2Proof.Machine
end

