-- ==== Sys2Proof/Machine/InsFraction.lean ====
section
/-! DEFINITION. The fraction instructions and the bit address space (spec/09 R222 to R232). -/

namespace Sys2Proof.Machine

/-! ## Fractions (R222, R225) -/

/-- The fraction bits of a .H or .W value. -/
def fracBits (sub : Nat) : Nat := if sub = 0 then 15 else 31

/-- The raw value of a source in a format (R222): the bits above it are ignored. -/
def fracRaw (sub : Nat) (v : Word) : Int :=
  if sub = 0 then (v.setWidth 16).toInt else (v.setWidth 32).toInt

/-- The accumulator that an operand names. -/
def Val.an (v : Val) : Nat := v.rn.toNat % 4

/-- Read an accumulator. -/
def Ctx.getA (c : Ctx) (k : Nat) : BitVec 40 := smGet c.a 0 k

/-- Write an accumulator. -/
def Ctx.setA (c : Ctx) (k : Nat) (v : BitVec 40) : Ctx := { c with a := smSet c.a 0 k v }

/-- Fraction saturation (R226): 1 RESULT, 2 ACCUM. -/
def satExc (cause reg : Nat) : Exc := { vec := 15, xinfo := cause + 256 * reg }

/-- Deliver num ÷ 2^fb to a G register in a format (R223). -/
def toFracReg (e : Env) (s : State) (d : BitVec 5) (num : Int) (fb sub rm : Nat) : XR Done :=
  match fdeliver e.c num fb (fracBits sub) (fracBits sub + 1) rm with
  | none => .exc (satExc 1 d.toNat) s
  | some r => completes (fun s => s.upCtx e.x (fun c => (c.setG d (BitVec.ofInt 64 r.1)).stickF r.2 none)) s

/-- Deliver num ÷ 2^fb to an accumulator (R223). -/
def toAcc (e : Env) (s : State) (k : Nat) (num : Int) (fb rm : Nat) : XR Done :=
  match fdeliver e.c num fb 31 40 rm with
  | none => .exc (satExc 2 k) s
  | some r => completes (fun s => s.upCtx e.x (fun c => (c.setA k (BitVec.ofInt 40 r.1)).stickF r.2 (some k))) s

/-- A fraction instruction of two sources with an exact result in their units. -/
def fracTwo (f : Int → Int → Int) : Eff := fun e i s =>
  withOpnds e i s (fun vs _ => toFracReg e s (valAt vs 0).rn
    (f (fracRaw i.sub (valAt vs 1).word) (fracRaw i.sub (valAt vs 2).word)) (fracBits i.sub) i.sub 0)

/-- A fraction instruction of one source with an exact result in its units. -/
def fracOne (f : Int → Int) : Eff := fun e i s =>
  withOpnds e i s (fun vs _ => toFracReg e s (valAt vs 0).rn (f (fracRaw i.sub (valAt vs 1).word)) (fracBits i.sub) i.sub 0)

/-- FADD -/
def effFadd : Eff := fracTwo (fun a b => a + b)
/-- FSUB -/
def effFsub : Eff := fracTwo (fun a b => a - b)
/-- FNEG -/
def effFneg : Eff := fracOne (fun a => -a)
/-- FABS -/
def effFabs : Eff := fracOne (fun a => (a.natAbs : Int))

/-- FMUL -/
def effFmul : Eff := fun e i s =>
  withOpnds e i s (fun vs _ => toFracReg e s (valAt vs 0).rn
    (fracRaw i.sub (valAt vs 1).word * fracRaw i.sub (valAt vs 2).word) (2 * fracBits i.sub) i.sub i.rm)

/-- A multiply-accumulate: the accumulator and the product over 2^62. -/
def macWith (f : Int → Int → Int) : Eff := fun e i s =>
  withOpnds e i s (fun vs _ => toAcc e s (valAt vs 0).an
    (f ((e.c.getA (valAt vs 0).an).toInt * 2 ^ 31)
      (fracRaw i.sub (valAt vs 1).word * fracRaw i.sub (valAt vs 2).word * 2 ^ (62 - 2 * fracBits i.sub))) 62 i.rm)

/-- FMAC -/
def effFmac : Eff := macWith (fun a p => a + p)
/-- FMSU -/
def effFmsu : Eff := macWith (fun a p => a - p)

/-- FACL -/
def effFacl : Eff := fun e i s =>
  withOpnds e i s (fun vs _ => toAcc e s (valAt vs 0).an (fracRaw i.sub (valAt vs 1).word) (fracBits i.sub) 0)

/-- FSHA: Ak times 2^n. -/
def effFsha : Eff := fun e i s =>
  withOpnds e i s (fun vs _ =>
    toAcc e s (valAt vs 0).an ((e.c.getA (valAt vs 0).an).toInt * 2 ^ i.imm.toNat) (31 + (-i.imm).toNat) i.rm)

/-- FRND -/
def effFrnd : Eff := fun e i s =>
  withOpnds e i s (fun vs _ => toFracReg e s (valAt vs 0).rn (e.c.getA (valAt vs 1).an).toInt 31 i.sub i.rm)

/-- FMVA -/
def effFmva : Eff := fun e i s =>
  withOpnds e i s (fun vs us => .ok (setRegs e us (fun c =>
    c.setG (valAt vs 0).rn ((e.c.getA (valAt vs 1).an).signExtend 64))) s)

/-- FMVG -/
def effFmvg : Eff := fun e i s =>
  withOpnds e i s (fun vs us => .ok (setRegs e us (fun c => c.setA (valAt vs 0).an ((valAt vs 1).word.setWidth 40))) s)

/-! ## The bit address space (R228, R229) -/

/-- The virtual address of the bit space. -/
def Ctx.bitBase (c : Ctx) : Nat := c.bitspace.toNat / 2 ^ 29 * 2 ^ 29

/-- LOG2 of the bit space. -/
def Ctx.bitLog (c : Ctx) : Nat := bitsOf c.bitspace 5 0

/-- Whether the bit space is enabled. -/
def Ctx.bitOn (c : Ctx) : Bool := decide (15 ≤ c.bitLog) && decide (c.bitLog ≤ 32)

/-- The bit-space fault of an access of `w` bits at bit address `b` (R229); `n` is the length of a range instruction. Of two
that apply, RANGE goes before LENGTH (notes/assumptions/88.md). -/
def bitFault (c : Ctx) (b : Int) (w n : Nat) : Option Exc :=
  let x := fun (cause : Nat) => ({ vec := 24, xaddr := (BitVec.ofInt 64 b).toNat, xinfo := cause } : Exc)
  if !c.bitOn then some (x 1)
  else if b < 0 ∨ (2 ^ c.bitLog : Int) < b + w then some (x 2)
  else if 4096 < n then some (x 3)
  else none

/-- The virtual address and number of the bytes that hold `w` bits from bit `b` on. -/
def bitBytes (c : Ctx) (b w : Nat) : Nat × Nat :=
  (c.bitBase + b / 8, if w = 0 then 0 else (b + w - 1) / 8 + 1 - b / 8)

/-- The bit address of a bit operand: a register as a signed number plus an immediate (R229; notes/assumptions/34.md). -/
def bitAddr (vs : List Val) (k : Nat) : Int := (valAt vs k).word.toInt + (valAt vs (k + 1)).word.toInt

/-- Check the bits of an instruction, and go on with the bit address and the physical pieces of their bytes (R232). -/
def onBits (e : Env) (i : Ins) (s : State) (k : Kind) (b : Int) (w n : Nat)
    (f : Nat → List (Nat × Nat) → State → XR Done) : XR Done :=
  match bitFault e.c b w n with
  | some x => .exc x s
  | none =>
    (s.checkRead e.x (i.accCtl e) k false (pagePieces (bitBytes e.c b.toNat w).1 (bitBytes e.c b.toNat w).2)).bind
      (fun ps s => f b.toNat ps s)

/-- `w` bits from bit `b` on, of the bytes that hold them. -/
def bitsFromBytes (bs : List Byte) (b w : Nat) : Nat := (leNat bs >>> (b % 8)) % 2 ^ w

/-- Write bytes to physical pieces, each aligned 8-byte unit indivisibly and in ascending order (R231). -/
def State.writePieces (s : State) (ps : List (Nat × Nat)) (bs : List Byte) : State :=
  match ps with
  | [] => s
  | p :: t => (s.storeWrite p.1 (bs.take p.2)).writePieces t (bs.drop p.2)

/-- The bytes of physical pieces of memory. -/
def State.readPhys (s : State) (ps : List (Nat × Nat)) : List Byte := ps.flatMap (fun p => s.memRead p.1 p.2)

/-- Replace `w` bits from bit `b` on in checked bytes, after the stores of the context (R231, R313). -/
def State.putBits (s : State) (x : CtxId) (ps : List (Nat × Nat)) (b w v : Nat) : State :=
  s.drained x (fun s1 =>
    let bs := s1.readPhys ps
    let old := leNat bs
    let lo := b % 8
    let new := old - (old >>> lo) % 2 ^ w * 2 ^ lo + v % 2 ^ w * 2 ^ lo
    s1.writePieces (ps.flatMap (fun p => unitsOf p.1 p.2)) (leBytes bs.length new))

/-- The bit at `b` in checked bytes, after the stores of the context. -/
def State.oldBit (s : State) (x : CtxId) (ps : List (Nat × Nat)) (b : Nat) : Nat :=
  bitsFromBytes ((s.drain x).readPhys ps) b 1

/-- BSET (R230, R231) -/
def effBset : Eff := fun e i s =>
  withOpnds e i s (fun vs _ => onBits e i s .rw (bitAddr vs 0) 1 1 (fun b ps s =>
    completes (fun s => s.putBits e.x ps b 1 1) s))

/-- BCLR (R230, R231) -/
def effBclr : Eff := fun e i s =>
  withOpnds e i s (fun vs _ => onBits e i s .rw (bitAddr vs 0) 1 1 (fun b ps s =>
    completes (fun s => s.putBits e.x ps b 1 0) s))

/-- BTAS (R230, R231) -/
def effBtas : Eff := fun e i s =>
  withOpnds e i s (fun vs _ => onBits e i s .rw (bitAddr vs 1) 1 1 (fun b ps s =>
    completes (fun s => (s.putBits e.x ps b 1 1).upCtx e.x (fun c =>
      c.setG (valAt vs 0).rn (BitVec.ofNat 64 (s.oldBit e.x ps b)))) s))

/-- An instruction that reads bits into a register. -/
def bitsInto (e : Env) (d : BitVec 5) (ps : List (Nat × Nat)) (f : List Byte → Word) (s : State) : XR Done :=
  completes (fun s => (s.touchPieces ps false).upCtx e.x (fun c => c.setG d (f (s.peekPieces e.x ps)))) s

/-- BTST (R230) -/
def effBtst : Eff := fun e i s =>
  withOpnds e i s (fun vs _ => onBits e i s .read (bitAddr vs 1) 1 1 (fun b ps s =>
    bitsInto e (valAt vs 0).rn ps (fun bs => BitVec.ofNat 64 (bitsFromBytes bs b 1)) s))

/-- BFEXT (R230) -/
def effBfext : Eff := fun e i s =>
  withOpnds e i s (fun vs _ => onBits e i s .read (bitAddr vs 1) (i.num + 1) 1 (fun b ps s =>
    bitsInto e (valAt vs 0).rn ps (fun bs => BitVec.ofNat 64 (bitsFromBytes bs b (i.num + 1))) s))

/-- BFINS (R230, R231) -/
def effBfins : Eff := fun e i s =>
  withOpnds e i s (fun vs _ => onBits e i s .rw (bitAddr vs 0) (i.num + 1) 1 (fun b ps s =>
    completes (fun s => s.putBits e.x ps b (i.num + 1) (valAt vs 2).word.toNat) s))

/-- The length of a range operand (R229). -/
def rangeLen (vs : List Val) : Nat := bitsOf (valAt vs 3).word 31 0

/-- The number of set bits of a number of `n` bits. -/
def popNat : Nat → Nat → Nat
  | 0, _ => 0
  | n + 1, v => v % 2 + popNat n (v / 2)

/-- BPOP (R230) -/
def effBpop : Eff := fun e i s =>
  withOpnds e i s (fun vs _ => onBits e i s .read (bitAddr vs 1) (rangeLen vs) (rangeLen vs) (fun b ps s =>
    bitsInto e (valAt vs 0).rn ps (fun bs =>
      BitVec.ofNat 64 (popNat (rangeLen vs) (bitsFromBytes bs b (rangeLen vs)))) s))

/-- The result of BFF over `n` bits. -/
def firstSet (n v : Nat) : Word :=
  match (List.range n).find? (fun k => decide ((v >>> k) % 2 = 1)) with
  | some k => BitVec.ofNat 64 (k + 2 ^ 63)
  | none => BitVec.ofNat 64 n

/-- BFF (R230) -/
def effBff : Eff := fun e i s =>
  withOpnds e i s (fun vs _ => onBits e i s .read (bitAddr vs 1) (rangeLen vs) (rangeLen vs) (fun b ps s =>
    bitsInto e (valAt vs 0).rn ps (fun bs => firstSet (rangeLen vs) (bitsFromBytes bs b (rangeLen vs))) s))

/-- A branch on a bit. -/
def bitBranch (set : Bool) : Eff := fun e i s =>
  withOpnds e i s (fun vs _ => onBits e i s .read (bitAddr vs 0) 1 1 (fun b ps s =>
    .ok { commit := fun s => s.touchPieces ps false
          ctl := .transfer (decide (bitsFromBytes (s.peekPieces e.x ps) b 1 = bit set)) (directTarget e i) false } s))

/-- BBS (R230) -/
def effBbs : Eff := bitBranch true
/-- BBC (R230) -/
def effBbc : Eff := bitBranch false

end Sys2Proof.Machine
end

