-- ==== Sys2Proof/Machine/InsString.lean ====
section
/-! DEFINITION. The string instructions (spec/08): steps of 64 positions, interruption points, EDIT and EDPOS. -/

namespace Sys2Proof.Machine

/-! ## Resumption state (R210 to R213, Table 8.5) -/

/-- What a string instruction carries from position to position: for EDIT and EDPOS the offset of the current or next field,
the digits consumed of it, SIG, NEG and FIELD_OPEN, and for EDPOS the position record. -/
structure StrSt where
  ofs : Nat := 0
  digits : Nat := 0
  sig : Bool := false
  neg : Bool := false
  isOpen : Bool := false
  pos : Nat := 0
  count : Nat := 0
  deriving DecidableEq, Repr

/-- The code of an instruction in STRX3.OPC. -/
def Op.strCode (o : Op) : Nat :=
  match o with
  | .mvst => 1
  | .mvstU => 2
  | .trst => 3
  | .scns => 4
  | .cmps => 5
  | .edit => 6
  | _ => 7

/-- STRX0 to STRX3 at an interruption point (Table 8.5). -/
def strRegs (e : Env) (o : Op) (done : Nat) (st : StrSt) : SMap Word :=
  let v1 := st.ofs % 2 ^ 32 + st.digits % 64 * 2 ^ 32 + bit st.sig * 2 ^ 40 + bit st.neg * 2 ^ 41 + bit st.isOpen * 2 ^ 42
  let v2 := st.pos % 2 ^ 32 + st.count * 2 ^ 32
  let v3 := o.strCode + bit e.c.wform * 2 ^ 8 + e.pc % 2 ^ 16 * 2 ^ 48
  smSet (smSet (smSet (smSet [] 0 0 (BitVec.ofNat 64 done)) 0 1 (BitVec.ofNat 64 v1)) 0 2 (BitVec.ofNat 64 v2)) 0 3
    (BitVec.ofNat 64 v3)

/-- A STRX register. -/
def Ctx.strxAt (c : Ctx) (k : Nat) : Word := smGet c.strx 0 k

/-- The state that STRX1 and STRX2 hold for EDIT and EDPOS. -/
def Ctx.editSt (c : Ctx) : StrSt :=
  { ofs := bitsOf (c.strxAt 1) 31 0, digits := bitsOf (c.strxAt 1) 37 32, sig := bitAt (c.strxAt 1) 40
    neg := bitAt (c.strxAt 1) 41, isOpen := bitAt (c.strxAt 1) 42, pos := bitsOf (c.strxAt 2) 31 0
    count := bitsOf (c.strxAt 2) 47 32 }

/-- The state that an instruction resumes with (R213): the fields that Table 8.5 gives it; the rest are 0 for it. -/
def Ctx.strSt (c : Ctx) (o : Op) : StrSt :=
  match o with
  | .edpos => c.editSt
  | .edit => { c.editSt with pos := 0, count := 0 }
  | _ => {}

/-- STRX0.DONE. -/
def Ctx.strDone (c : Ctx) : Nat := bitsOf (c.strxAt 0) 31 0

/-- Whether a string instruction of length `n` may resume (R213). -/
def strMatches (e : Env) (o : Op) (n : Nat) : Bool :=
  let c := e.c
  decide (bitsOf (c.strxAt 3) 7 0 = o.strCode) && (bitAt (c.strxAt 3) 8 == c.wform)
    && decide (bitsOf (c.strxAt 3) 63 48 = e.pc % 2 ^ 16)
    && decide (c.strDone ≠ 0) && decide (c.strDone % 64 = 0) && decide (c.strDone < n)
    && decide (bitsOf (c.strxAt 0) 63 32 = 0) && decide (bitsOf (c.strxAt 1) 63 43 = 0)
    && decide (bitsOf (c.strxAt 1) 39 38 = 0) && decide (bitsOf (c.strxAt 2) 63 48 = 0)
    && decide (bitsOf (c.strxAt 3) 47 9 = 0)

/-- STRX_MISMATCH (R213): in B-form its locator is that of any of the instruction's bytes (R258, notes/assumptions/35.md). -/
def strMismatch (e : Env) (s : State) : Exc × State :=
  if e.c.wform then ({ vec := 5, xinfo := 0x40 }, s)
  else ({ vec := 5, xinfo := 0x40 + 256 * (s.fresh.1.toNat % (e.next - e.pc)) }, s.fresh.2)

/-! ## The accesses of a step (R204, R205, R211, R341) -/

/-- What a step has done so far: the bytes it would write, the newest first, with their virtual and physical addresses, and
the frames it has read. -/
structure StepAcc where
  writes : List (Nat × Nat × Byte) := []
  frames : List Nat := []
  deriving DecidableEq, Repr

/-- The byte a step would have written at a physical address. -/
def StepAcc.byteAt (a : StepAcc) (pa : Nat) : Option Byte := (a.writes.find? (fun w => decide (w.2.1 = pa))).map (·.2.2)

/-- Machine check on poison at a step (R341). -/
def State.stepPoison (s : State) (x : CtxId) (va pa : Nat) : Exc × State := s.poisonHit x va pa

/-- Machine check on a step that would write part of a poisoned word (R337, R341): the write is dropped, with its own CAUSE.
A word that the step finds uncorrectable itself gives that of its array. -/
def State.stepDrop (s : State) (x : CtxId) (va pa : Nat) : Exc × State :=
  if s.detects pa then ((s.poisonHit x va pa).1, (s.poisonHit x va pa).2.bumpSat (.d .integPoisonDrop) 1)
  else ({ poisonExc va with xinfo := 0x0600 },
    (s.bumpSat (.d .integPoisonDrop) 1).integRec 6 6 (coreOf x % 16) (agentOf x) (wordOf pa))

/-- Check and read the byte at an address for a step. -/
def strRead (e : Env) (ctl : AccCtl) (a : StepAcc) (va : Nat) (s : State) : XR (Byte × StepAcc) :=
  (s.xlate e.x ctl .read va).bind (fun pa s =>
    if s.refused e.x .read pa 1 ∨ s.region pa = .device then .exc (busExc 1 pa) s
    else match a.byteAt pa with
      | some b => .ok (b, a) s
      | none =>
        if s.readPoison e.x pa then .exc (s.stepPoison e.x va pa).1 (s.stepPoison e.x va pa).2
        else .ok (s.peekByte e.x pa, { a with frames := addNew a.frames (pa / 4096) }) s)

/-- Check the write of a byte for a step, and take it. -/
def strWrite (e : Env) (ctl : AccCtl) (a : StepAcc) (va : Nat) (b : Byte) (s : State) : XR StepAcc :=
  (s.xlate e.x ctl .write va).bind (fun pa s => .ok { a with writes := (va, pa, b) :: a.writes } s)

/-- Byte i of an operand (R199). -/
def byteAddr (base : Word) (i : Nat) : Nat := (base + BitVec.ofNat 64 i).toNat

/-- The aligned 8-byte units of a step's writes in ascending order: address and bytes (R205). -/
def unitsOfWrites : List (Nat × Byte) → List (Nat × List Byte)
  | [] => []
  | (pa, b) :: t =>
    match unitsOfWrites t with
    | [] => [(pa, [b])]
    | (a, bs) :: l => if pa + 1 = a ∧ wordOf pa = wordOf a then (pa, b :: bs) :: l else (pa, [b]) :: (a, bs) :: l

/-- A poisoned word that a step would write in part (R341): the virtual and physical address of a byte of it. -/
def StepAcc.partPoison (a : StepAcc) (s : State) (x : CtxId) : Option (Nat × Nat) :=
  (a.writes.reverse.find? (fun w => s.readPoison x w.2.1
    && !(List.range 8).all (fun k => (a.byteAt (wordOf w.2.1 + k)).isSome))).map (fun w => (w.1, w.2.1))

/-- A step completes whole: its reads set REF, its writes are retired in ascending units. -/
def State.endStrStep (s : State) (x : CtxId) (a : StepAcc) : State :=
  let s1 := a.frames.foldl (fun s f => s.markFrame f 0x40) s
  (unitsOfWrites (a.writes.reverse.map (fun w => (w.2.1, w.2.2)))).foldl
    (fun s u => s.retirePieces x false [(u.1, u.2.length)] u.2) s1

/-! ## Steps (R210, R211, R220) -/

/-- What a position comes to: the next one, the stop condition with its result, or decimal data. -/
inductive PosOut where
  | go (st : StrSt)
  | stop (r : Word)
  | bad (x : Exc)

/-- A string instruction: its position function, the check of a position after decimal data, what its last position may
raise, and its result where it does not stop early. -/
structure StrKind where
  pos : StrSt → Nat → StepAcc → State → XR (PosOut × StepAcc)
  rest : Nat → StepAcc → State → XR StepAcc := fun _ a s => .ok a s
  fin : StrSt → StepAcc → State → XR (Option Exc) := fun _ _ s => .ok none s
  result : StrSt → Word := fun _ => 0

/-- Check the positions of a step that follow decimal data. -/
def checkRest (k : StrKind) (a : StepAcc) : List Nat → State → XR StepAcc
  | [], s => .ok a s
  | i :: t, s => (k.rest i a s).bind (fun a s => checkRest k a t s)

/-- How the positions of a step end: all of them are done, the stop condition is met, or there is decimal data. -/
inductive StepEnd where
  | all (st : StrSt)
  | stop (st : StrSt) (r : Word)
  | bad (x : Exc)

/-- The positions of one step: how they end, and what the step would do. -/
def strStep (k : StrKind) (st : StrSt) (a : StepAcc) : List Nat → State → XR (StepEnd × StepAcc)
  | [], s => .ok (.all st, a) s
  | i :: t, s => (k.pos st i a s).bind (fun r s =>
      match r.1 with
      | .go st' => strStep k st' r.2 t s
      | .stop w => .ok (.stop st w, r.2) s
      | .bad x => (checkRest k r.2 t s).bind (fun a s => .ok (.bad x, a) s))

/-- The step with what its last position may raise. -/
def lastStep (k : StrKind) (last : Bool) (r : StepEnd × StepAcc) (s : State) : XR (StepEnd × StepAcc) :=
  match r.1 with
  | .all st =>
    if last then (k.fin st r.2 s).bind (fun x s => .ok (match x with
      | none => r
      | some x => (.bad x, r.2)) s)
    else .ok r s
  | .stop _ _ | .bad _ => .ok r s

/-- A string instruction completes (R212, R213): STRX0 to STRX3 and SIP are 0, and the result register is written. -/
def strEnd (e : Env) (d : Option (BitVec 5)) (r : Word) (s : State) : XR Done :=
  completes (fun s => s.upCtx e.x (fun c =>
    let c1 := { c with strx := [], csw := setBit c.csw 12 false }
    match d with
    | none => c1
    | some g => c1.setG g r)) s

/-- An interruption point (R210): SIP is set and STRX0 to STRX3 hold the state. -/
def State.strPoint (s : State) (e : Env) (o : Op) (done : Nat) (st : StrSt) : State :=
  s.upCtx e.x (fun c => { c with strx := strRegs e o done st, csw := setBit c.csw 12 true })

/-- The steps of a string instruction of length `n` from position `done` on, `fuel` of them at most. -/
def strRun (e : Env) (o : Op) (k : StrKind) (d : Option (BitVec 5)) (n : Nat) : Nat → Nat → StrSt → State → XR Done
  | 0, _, _, s => .ok { commit := id, ctl := .pause } s
  | fuel + 1, done, st, s =>
    let m := min 64 (n - done)
    ((strStep k st {} ((List.range m).map (fun i => done + i)) s).bind (lastStep k (decide (n ≤ done + m)))).bind (fun r s =>
      match r.2.partPoison s e.x with
      | some p => .exc (s.stepDrop e.x p.1 p.2).1 (s.stepDrop e.x p.1 p.2).2
      | none =>
        match r.1 with
        | .bad x => .exc x s
        | .stop _ w => strEnd e d w (s.endStrStep e.x r.2)
        | .all st =>
          if n ≤ done + m then strEnd e d (k.result st) (s.endStrStep e.x r.2)
          else strRun e o k d n fuel (done + m) st ((s.endStrStep e.x r.2).strPoint e o (done + m) st))

/-- Execute a string instruction (R200, R210 to R213): from the beginning, or resumed; a length of zero completes it. -/
def strIns (e : Env) (o : Op) (k : StrKind) (d : Option (BitVec 5)) (n : Nat) (s : State) : XR Done :=
  if e.c.sip then
    if strMatches e o n then
      strRun e o k d n (max 1 e.steps) e.c.strDone (e.c.strSt o) (s.strPoint e o e.c.strDone (e.c.strSt o))
    else .exc (strMismatch e s).1 (strMismatch e s).2
  else if n = 0 then strEnd e d (k.result {}) s
  else strRun e o k d n (max 1 e.steps) 0 {} s

/-- A length register (R200). -/
def strLen (v : Val) : Nat := bitsOf v.word 31 0

/-! ## Moves, translation, scan and compare (Table 8.1) -/

/-- Copy position i under access controls. -/
def movePos (e : Env) (ctl : AccCtl) (d src : Word) : StrKind :=
  { pos := fun st i a s =>
      (strRead e ctl a (byteAddr src i) s).bind (fun b s =>
        (strWrite e ctl b.2 (byteAddr d i) b.1 s).bind (fun a s => .ok (.go st, a) s)) }

/-- MVST -/
def effMvst : Eff := fun e i s =>
  withOpnds e i s (fun vs _ =>
    strIns e .mvst (movePos e (i.accCtl e) (valAt vs 0).word (valAt vs 1).word) none (strLen (valAt vs 2)) s)

/-- MVST.U (R276) -/
def effMvstU : Eff := fun e i s =>
  withOpnds e i s (fun vs _ =>
    strIns e .mvstU (movePos e { i.accCtl e with um := .mvstU } (valAt vs 0).word (valAt vs 1).word) none
      (strLen (valAt vs 2)) s)

/-- TRST (R201) -/
def effTrst : Eff := fun e i s =>
  withOpnds e i s (fun vs _ =>
    let k : StrKind :=
      { pos := fun st p a s =>
          (strRead e (i.accCtl e) a (byteAddr (valAt vs 1).word p) s).bind (fun b s =>
            (strRead e (i.accCtl e) b.2 (byteAddr (valAt vs 2).word b.1.toNat) s).bind (fun t s =>
              (strWrite e (i.accCtl e) t.2 (byteAddr (valAt vs 0).word p) t.1 s).bind (fun a s => .ok (.go st, a) s))) }
    strIns e .trst k none (strLen (valAt vs 3)) s)

/-- SCNS (R202) -/
def effScns : Eff := fun e i s =>
  withOpnds e i s (fun vs _ =>
    let k : StrKind :=
      { pos := fun st p a s =>
          (strRead e (i.accCtl e) a (byteAddr (valAt vs 1).word p) s).bind (fun b s =>
            (strRead e (i.accCtl e) b.2 (byteAddr (valAt vs 2).word b.1.toNat) s).bind (fun t s =>
              .ok (if t.1 = 0 then .go st else .stop (BitVec.ofNat 64 (p + t.1.toNat * 2 ^ 32 + 2 ^ 63)), t.2) s))
        result := fun _ => BitVec.ofNat 64 (strLen (valAt vs 3)) }
    strIns e .scns k (some (valAt vs 0).rn) (strLen (valAt vs 3)) s)

/-- CMPS (R203) -/
def effCmps : Eff := fun e i s =>
  withOpnds e i s (fun vs _ =>
    let k : StrKind :=
      { pos := fun st p a s =>
          (strRead e (i.accCtl e) a (byteAddr (valAt vs 1).word p) s).bind (fun b s =>
            (strRead e (i.accCtl e) b.2 (byteAddr (valAt vs 2).word p) s).bind (fun t s =>
              .ok (if b.1 = t.1 then .go st
                   else .stop (BitVec.ofNat 64 (p + (if b.1 < t.1 then 0xFFFFFFFF else 1) * 2 ^ 32)), t.2) s))
        result := fun _ => BitVec.ofNat 64 (strLen (valAt vs 3)) }
    strIns e .cmps k (some (valAt vs 0).rn) (strLen (valAt vs 3)) s)

/-! ## EDIT and EDPOS (R206 to R209) -/

/-- The operands of an edit: destination, source, pattern, controls, and whether the position record is kept. -/
structure EditArgs where
  d : Word
  src : Word
  pat : Word
  ctl : Word
  keeps : Bool
  deriving DecidableEq, Repr

/-- An edit's decimal data exception (Table 8.4): operand 2 the source, 3 the pattern. -/
def editExc (cause opnum addr : Nat) : Exc := { vec := 12, xaddr := addr, xinfo := cause + 256 * opnum }

/-- The sign nibble of a byte that holds one: the high nibble where it is a sign, else the low one. -/
def signIn (b : Byte) : Option Nat :=
  if 10 ≤ b.toNat / 16 then some (b.toNat / 16) else if 10 ≤ b.toNat % 16 then some (b.toNat % 16) else none

/-- Search a field from its byte `j` on for its sign (R206); none where the bytes run out. -/
def findSign (e : Env) (ctl : AccCtl) (g : EditArgs) (ofs j : Nat) : Nat → StepAcc → State → XR (Option Nat × StepAcc)
  | 0, a, s => .ok (none, a) s
  | n + 1, a, s => (strRead e ctl a (byteAddr g.src (ofs + j)) s).bind (fun b s =>
      match signIn b.1 with
      | some v => .ok (some v, b.2) s
      | none => findSign e ctl g ofs (j + 1) n b.2 s)

/-- Locate the current field where it is not (R206): the state with NEG and FIELD_OPEN, or FIELD_LONG. -/
def locate (e : Env) (ctl : AccCtl) (g : EditArgs) (st : StrSt) (a : StepAcc) (s : State) : XR (Except Exc StrSt × StepAcc) :=
  if st.isOpen then .ok (.ok st, a) s
  else (findSign e ctl g st.ofs 0 32 a s).bind (fun r s =>
    match r.1 with
    | none => .ok (.error (editExc 4 2 (byteAddr g.src st.ofs)), r.2) s
    | some v => .ok (.ok { st with isOpen := true, digits := 0, neg := minusSign v }, r.2) s)

/-- The nibble of the current field after the digits consumed, as it now stands (notes/assumptions/81.md). A field has 32 bytes
at most, so after 63 digits it is the sign's place (R206). -/
def nextNibble (e : Env) (ctl : AccCtl) (g : EditArgs) (st : StrSt) (a : StepAcc) (s : State) : XR (Nat × StepAcc) :=
  (strRead e ctl a (byteAddr g.src (st.ofs + st.digits / 2)) s).bind (fun b s =>
    .ok (if 63 ≤ st.digits then 15 else if st.digits % 2 = 0 then b.1.toNat / 16 else b.1.toNat % 16, b.2) s)

/-- Whether the end of the current field leaves digits over (R208), and the state for the next field. The nibbles are read as
they now stand (notes/assumptions/81.md). -/
def endField (e : Env) (ctl : AccCtl) (g : EditArgs) (addr : Nat) (st : StrSt) (a : StepAcc) (s : State) :
    XR (Except Exc StrSt × StepAcc) :=
  if !st.isOpen then .ok (.ok { st with sig := false }, a) s
  else (nextNibble e ctl g st a s).bind (fun r s =>
    if r.1 < 10 then .ok (.error (editExc 6 3 addr), r.2) s
    else .ok (.ok { st with sig := false, neg := false, isOpen := false, ofs := st.ofs + st.digits / 2 + 1, digits := 0 },
      r.2) s)

/-- The position record after a slot that opens significance at position i (R207). -/
def StrSt.opens (st : StrSt) (keeps : Bool) (i : Nat) : StrSt :=
  if keeps then { st with pos := i, count := min (st.count + 1) 65535 } else st

/-- A digit slot (Table 8.3): the digit, and the state after it; `trigger` for a trigger digit slot. The nibble is read as
it now stands (notes/assumptions/81.md). -/
def digitSlot (e : Env) (ctl : AccCtl) (g : EditArgs) (trigger : Bool) (st : StrSt) (i : Nat) (a : StepAcc) (s : State) :
    XR (Except Exc (Byte × StrSt) × StepAcc) :=
  (locate e ctl g st a s).bind (fun r s =>
    match r.1 with
    | .error x => .ok (.error x, r.2) s
    | .ok st => (nextNibble e ctl g st r.2 s).bind (fun d s =>
        if 10 ≤ d.1 then .ok (.error (editExc 5 3 (byteAddr g.pat i)), d.2) s
        else
          let show_ := st.sig || trigger || decide (d.1 ≠ 0)
          let st1 := if show_ && !st.sig then st.opens g.keeps i else st
          .ok (.ok (if show_ then BitVec.ofNat 8 (0x30 + d.1) else BitVec.ofNat 8 (bitsOf g.ctl 39 32),
                    { st1 with sig := st.sig || show_, digits := st.digits + 1 }), d.2) s))

/-- The byte that a position writes under its pattern byte, and the state after it (Table 8.3). -/
def editByte (e : Env) (ctl : AccCtl) (g : EditArgs) (st : StrSt) (i : Nat) (p : Byte) (a : StepAcc) (s : State) :
    XR (Except Exc (Byte × StrSt) × StepAcc) :=
  let fill : Byte := BitVec.ofNat 8 (bitsOf g.ctl 39 32)
  match p.toNat with
  | 1 => digitSlot e ctl g false st i a s
  | 2 => digitSlot e ctl g true st i a s
  | 3 => (endField e ctl g (byteAddr g.pat i) st a s).bind (fun r s =>
      match r.1 with
      | .error x => .ok (.error x, r.2) s
      | .ok st => .ok (.ok (fill, st), r.2) s)
  | 4 => (locate e ctl g st a s).bind (fun r s =>
      match r.1 with
      | .error x => .ok (.error x, r.2) s
      | .ok st => .ok (.ok (if st.neg then BitVec.ofNat 8 (bitsOf g.ctl 55 48) else fill, st), r.2) s)
  | 5 => .ok (.ok (if st.sig then BitVec.ofNat 8 (bitsOf g.ctl 47 40) else fill, st), a) s
  | _ => .ok (.ok (if st.sig then p else fill, st), a) s

/-- An edit as a string instruction. -/
def editKind (e : Env) (ctl : AccCtl) (g : EditArgs) : StrKind :=
  { pos := fun st i a s =>
      (strRead e ctl a (byteAddr g.pat i) s).bind (fun p s =>
        (editByte e ctl g st i p.1 p.2 s).bind (fun r s =>
          match r.1 with
          | .error x => (strWrite e ctl r.2 (byteAddr g.d i) 0 s).bind (fun a s => .ok (.bad x, a) s)
          | .ok q => (strWrite e ctl r.2 (byteAddr g.d i) q.1 s).bind (fun a s => .ok (.go q.2, a) s)))
    rest := fun i a s =>
      (strRead e ctl a (byteAddr g.pat i) s).bind (fun p s => strWrite e ctl p.2 (byteAddr g.d i) 0 s)
    fin := fun st a s =>
      (endField e ctl g (byteAddr g.pat (bitsOf g.ctl 31 0)) st a s).bind (fun r s =>
        match r.1 with
        | .error x => .ok (some x) s
        | .ok _ => .ok none s)
    result := fun st => if st.count = 0 then 0 else BitVec.ofNat 64 (st.pos + st.count * 2 ^ 32 + 2 ^ 63) }

/-- EDIT -/
def effEdit : Eff := fun e i s =>
  withOpnds e i s (fun vs _ =>
    strIns e .edit (editKind e (i.accCtl e)
      { d := (valAt vs 0).word, src := (valAt vs 1).word, pat := (valAt vs 2).word, ctl := (valAt vs 3).word, keeps := false })
      none (strLen (valAt vs 3)) s)

/-- EDPOS -/
def effEdpos : Eff := fun e i s =>
  withOpnds e i s (fun vs _ =>
    strIns e .edpos (editKind e (i.accCtl e)
      { d := (valAt vs 1).word, src := (valAt vs 2).word, pat := (valAt vs 3).word, ctl := (valAt vs 4).word, keeps := true })
      (some (valAt vs 0).rn) (strLen (valAt vs 4)) s)

end Sys2Proof.Machine
end

