-- ==== Sys2Proof/Machine/InsSite.lean ====
section
/-! DEFINITION. The SITE instructions, LAPP, KLOAD and KERASE (spec/04 R107 to R114; spec/14 R340; spec/17 R411, R412,
R427). -/

namespace Sys2Proof.Machine

/-- A result register that holds a status code in [63:56] over other fields (R107, R234, R411, R427). -/
def statusWord (code rest : Nat) : Word := BitVec.ofNat 64 (code * 2 ^ 56 + rest)

/-- Write a status result: the last write of an instruction that completes. -/
def State.putG (s : State) (x : CtxId) (d : BitVec 5) (v : Word) : State := s.upCtx x (fun c => c.setG d v)

/-- Complete with a status and no other effect. -/
def withStatus (e : Env) (d : BitVec 5) (code : Nat) (s : State) : XR Done :=
  completes (fun s => s.putG e.x d (statusWord code 0)) s

/-- An instruction of a tenant on a buffer that must be aligned (R108, R234, R427): its checks before any status. -/
def onTenant (e : Env) (i : Ins) (addrAt align : Nat) (s : State) (f : List Val → XR Done) : XR Done :=
  if !e.c.ten then .exc tenantExc s
  else withOpnds e i s (fun vs _ => if (valAt vs addrAt).word.toNat % align ≠ 0 then .exc alignExc s else f vs)

/-! ## SITE.TAKE (R109, R340) -/

/-- Whether the header of an inbox frame is poisoned: the frame is untakeable (R340). -/
def State.headerLost (s : State) (n : SiteId) (f : InFrame) : Bool := s.anyPoison (s.inboxSlot n f.slot) 16

/-- The frames ahead of the first takeable one, which their poisoned headers make untakeable, and the rest. -/
def State.inboxSplit (s : State) (n : SiteId) : List InFrame × List InFrame :=
  ((s.site n).inbox.takeWhile (fun f => s.headerLost n f), (s.site n).inbox.dropWhile (fun f => s.headerLost n f))

/-- Free the slots of frames whose headers are poisoned, each with its integrity record (R340). -/
def State.dropLost (s : State) (x : CtxId) (n : SiteId) (lost rest : List InFrame) : State :=
  lost.foldl (fun s f =>
      let a := s.inboxSlot n f.slot
      ((((s.touch a 16 false).meet a (coreOf x % 16) (agentOf x)).meet (a + 8) (coreOf x % 16) (agentOf x)).bumpSat (.d .integPoisonUse) 1).integRec
        5 5 (coreOf x % 16) (agentOf x) a)
    (if lost.isEmpty then s else s.upSite n (fun v => { v with inbox := rest }))

/-- Copy one unit of a payload to its destination: a poisoned word is copied as poison (R340); a refused destination is a
store that fails (R32). -/
def State.copyUnit (s : State) (x : CtxId) (src : Nat) (u : Nat × Nat) : State :=
  let e : StoreEntry := { addr := u.1, bytes := s.memRead src u.2, world := (s.ctx x).world, word := false }
  if s.storeHole x e then s.storeFail x u.1 e.world 3
  else if s.poisoned src then
    (((s.meet src (coreOf x % 16) (agentOf x)).poisonWord u.1).touch u.1 u.2 true).bumpSat (.d .integPoisonUse) 1
  else s.performMem x e

/-- Copy a payload, one unit after another. -/
def State.copyUnits (s : State) (x : CtxId) (src : Nat) : List (Nat × Nat) → State
  | [] => s
  | u :: t => (s.copyUnit x src u).copyUnits x (src + 8) t

/-- The transaction of a site after a frame is claimed (R109, Table 4.7). -/
def Site.claim (v : Site) (f : InFrame) (rest : List InFrame) : Site :=
  { v with
    inbox := rest, txn := .taken, inLast := f.seq, inCount := v.inCount + 1
    inFirst := if v.txn = .idle then f.seq else v.inFirst }

/-- SITE.TAKE's result for a claimed frame (Table 4.6). -/
def takenWord (f : InFrame) : Word := statusWord 0 (f.len + f.utype.toNat * 2 ^ 16 + f.seq.toNat * 2 ^ 24)

/-- Claim the oldest takeable frame: its payload goes to the checked pieces. -/
def State.takeFrame (s : State) (x : CtxId) (n : SiteId) (d : BitVec 5) (lost : List InFrame) (f : InFrame)
    (rest : List InFrame) (ps : List (Nat × Nat)) : State :=
  let a := s.inboxSlot n f.slot
  (s.dropLost x n lost (f :: rest)).drained x (fun s =>
    let s2 := (s.touch a (16 + f.len) false).copyUnits x (a + 16) (ps.flatMap (fun p => unitsOf p.1 p.2))
    (s2.upSite n (fun v => v.claim f rest)).putG x d (takenWord f))

/-- SITE.TAKE where no frame is takeable (R109): NONE with .N, or the tenant gives up its context. -/
def takeNone (e : Env) (n : SiteId) (d : BitVec 5) (poll : Bool) (lost : List InFrame) (s : State) : XR Done :=
  if poll then completes (fun s => (s.dropLost e.x n lost []).putG e.x d (statusWord 1 0)) s
  else waits (fun s => (s.dropLost e.x n lost []).requestSave n .giveUp) s

/-- Whether the frames of a site's inbox are takeable (R106). -/
def Site.takeable (v : Site) : Bool := (decide (v.txn = .idle) || decide (v.txn = .taken)) && !v.woffPending

/-- SITE.TAKE on a site whose inbox has been looked at (R109). -/
def takeFrom (e : Env) (n : SiteId) (vs : List Val) (poll : Bool) (lost : List InFrame) (s : State) :
    List InFrame → XR Done
  | [] => takeNone e n (valAt vs 0).rn poll lost s
  | f :: rest =>
    if (s.site n).txn = .idle ∧ (s.site n).clearPending = true then waits id s
    else (s.checkWrite e.x { own := e.own } (valAt vs 1).word.toNat f.len).bind (fun ps s =>
      completes (fun s => s.takeFrame e.x n (valAt vs 0).rn lost f rest ps) s)

/-- SITE.TAKE (R108, R109) -/
def effSiteTake : Eff := fun e i s =>
  onTenant e i 1 16 s (fun vs =>
    if (s.site e.c.tag).takeable then
      takeFrom e e.c.tag vs (decide (i.sub = 1)) (s.inboxSplit e.c.tag).1 s (s.inboxSplit e.c.tag).2
    else takeNone e e.c.tag (valAt vs 0).rn (decide (i.sub = 1)) [] s)

/-! ## SITE.POST (R110) -/

/-- Whether a site has an open transaction that is not being written off (R108). -/
def Site.openTxn (v : Site) : Bool := decide (v.txn = .taken) && !v.woffPending

/-- Write a posted frame to its hold slot and account for it. -/
def State.holdFrame (s : State) (n : SiteId) (f : OutFrame) (payload : List Byte) : State :=
  let st := s.station (s.siteLink n).1 (s.siteLink n).2
  let head := frameHeader frameData (s.siteLink n).2 st.any false false f.len f.seq (if st.any then st.inSeq - 1 else 0) f.utype
  let pad := List.replicate ((8 - f.len % 8) % 8) 0
  ((s.agentWrite (s.holdSlot n f.slot) (head ++ [0, 0, 0, 0] ++ payload ++ pad)).setReg (.site n .seqOut)
    ((f.seq + 1).setWidth 32)).upSite n (fun v => { v with
      unacked := v.unacked ++ [f], outCount := v.outCount + 1, outLast := f.seq
      outFirst := if v.outCount = 0 then f.seq else v.outFirst })

/-- Post a frame, after the earlier stores of the context (R313): SENT on a present station, HELD otherwise (R110). -/
def State.postFrame (s : State) (x : CtxId) (n : SiteId) (d : BitVec 5) (slot len : Nat) (utype : Byte)
    (ps : List (Nat × Nat)) : State :=
  let payload := s.peekPieces x ps
  s.drained x (fun s =>
    let f : OutFrame := { slot := slot, seq := (s.reg (.site n .seqOut)).setWidth 24, utype := utype, len := len }
    let s1 := (s.touchPieces ps false).holdFrame n f payload
    let up := s.stationUp n
    (if up then s1.sendHeld n f else s1).putG x d (statusWord (bit (!up)) (f.seq.toNat * 2 ^ 24)))

/-- SITE.POST (R108, R110) -/
def effSitePost : Eff := fun e i s =>
  onTenant e i 2 16 s (fun vs =>
    let n := e.c.tag
    let v := s.site n
    let len := bitsOf (valAt vs 1).word 11 0
    if !v.openTxn then withStatus e (valAt vs 0).rn 3 s
    else if 2048 < len then withStatus e (valAt vs 0).rn 4 s
    else if 255 ≤ v.outCount then withStatus e (valAt vs 0).rn 2 s
    else match v.freeHold with
      | none => if i.sub = 1 ∧ s.stationUp n = true then waits id s else withStatus e (valAt vs 0).rn 2 s
      | some slot =>
        (s.checkRead e.x { own := e.own } .read false (pagePieces (valAt vs 2).word.toNat len)).bind (fun ps s =>
          completes (fun s => s.postFrame e.x n (valAt vs 0).rn slot len
            (BitVec.ofNat 8 (bitsOf (valAt vs 1).word 23 16)) ps) s))

/-! ## SITE.SETTLE (R111) -/

/-- The state a settled transaction enters (Table 4.7). -/
def State.closeTo (s : State) (n : SiteId) : State :=
  if s.stationUp n || (s.site n).unacked.isEmpty then (s.upSite n (fun v => { v with txn := .settling })).startSettle n
  else (s.upSite n (fun v => { v with txn := .unsettled })).startHold n

/-- Settle a transaction, after the earlier stores of the context (R313): the word and the body go to the settlement slot
(notes/assumptions/19.md). -/
def State.settleTxn (s : State) (x : CtxId) (n : SiteId) (d : BitVec 5) (w : Word) (ps : List (Nat × Nat)) : State :=
  let len := bitsOf w 42 32
  let body := s.peekPieces x ps
  let pad := List.replicate ((8 - len % 8) % 8) 0
  s.drained x (fun s =>
    let s1 := (s.touchPieces ps false).agentWrite (s.siteBuf n + 0x60000) (leBytes 8 w.toNat ++ List.replicate 8 0 ++ body ++ pad)
    let s2 := (s1.upSite n (fun v => { v with sword := w.setWidth 8, bodyLen := len, settled := true })).closeTo n
    (if bitAt w 8 then s2.requestSave n .giveUp else s2).putG x d (statusWord 0 0))

/-- SITE.SETTLE (R108, R111) -/
def effSiteSettle : Eff := fun e i s =>
  onTenant e i 2 16 s (fun vs =>
    let n := e.c.tag
    let w := (valAt vs 1).word
    if !(s.site n).openTxn then withStatus e (valAt vs 0).rn 3 s
    else if 1024 < bitsOf w 42 32 then withStatus e (valAt vs 0).rn 4 s
    else (s.checkRead e.x { own := e.own } .read false (pagePieces (valAt vs 2).word.toNat (bitsOf w 42 32))).bind
      (fun ps s => completes (fun s => s.settleTxn e.x n (valAt vs 0).rn w ps) s))

/-! ## LAPP (R427) -/

/-- Whether every bit of a LAPP's Gs that must be 0 is, and LEN is at most 2,048. -/
def lappGood (w : Word) : Bool :=
  decide (bitsOf w 11 0 ≤ 2048) && decide (bitsOf w 15 12 = 0) && decide (bitsOf w 23 18 = 0) && decide (bitsOf w 63 32 = 0)

/-- Whether a site can take no LAPP (R427): 8 have not ended, or no ring slot is left for another append. -/
def State.lappFull (s : State) (n : SiteId) : Bool :=
  decide (8 ≤ ((s.site n).appends.filterMap Append.lappNotify).length)
    || decide (s.ringSlots n - s.retained n ≤ (s.site n).appends.length)

/-- Queue a LAPP's append. -/
def State.lapp (s : State) (x : CtxId) (n : SiteId) (d : BitVec 5) (w : Word) (ps : List (Nat × Nat)) : State :=
  ((s.touchPieces ps false).accept n
    (.lapp (BitVec.ofNat 8 (bitsOf w 31 24)) (bitAt w 16) (bitAt w 17) (s.peekPieces x ps))).putG x d (statusWord 0 0)

/-- LAPP (R427) -/
def effLapp : Eff := fun e i s =>
  onTenant e i 2 16 s (fun vs =>
    let n := e.c.tag
    let w := (valAt vs 1).word
    if !(s.site n).ringSet then withStatus e (valAt vs 0).rn 5 s
    else if !lappGood w then withStatus e (valAt vs 0).rn 4 s
    else if s.lappFull n then withStatus e (valAt vs 0).rn 2 s
    else (s.checkRead e.x { own := e.own } .read false (pagePieces (valAt vs 2).word.toNat (bitsOf w 11 0))).bind
      (fun ps s => completes (fun s => s.lapp e.x n (valAt vs 0).rn w ps) s))

/-! ## KLOAD and KERASE (R411, R412) -/

/-- The exceptions of KLOAD and KERASE (R412): privileged instruction, then world violation. -/
def onKeys (e : Env) (i : Ins) (s : State) (f : List Val → XR Done) : XR Done :=
  if e.user then .exc privExc s
  else if e.c.world = .nonSecure then .exc (worldInsExc 3) s
  else withOpnds e i s (fun vs _ => f vs)

/-- The tenant that a KLOAD or KERASE names. -/
def keyTenant (vs : List Val) : SiteId := (valAt vs 1).word.setWidth 10

/-- Queue a key load. -/
def State.queueLoad (s : State) (t : SiteId) : State := { s with curlew := { s.curlew with loads := s.curlew.loads ++ [t] } }

/-- KLOAD (R411) -/
def effKload : Eff := fun e i s =>
  onKeys e i s (fun vs =>
    if 16 ≤ s.curlew.loads.length then withStatus e (valAt vs 0).rn 1 s
    else completes (fun s => (s.queueLoad (keyTenant vs)).putG e.x (valAt vs 0).rn (statusWord 0 0)) s)

/-- Carry out the queued loads of a tenant: KLOAD and KERASE for one tenant are applied in the order Curlew receives them
(Table 17.5). A load that no slot is free for is overtaken by the erasure. -/
def State.loadsOf (s : State) (t : SiteId) : List SiteId → State
  | [] => { s with curlew := { s.curlew with loads := s.curlew.loads.filter (fun u => decide (u ≠ t)) } }
  | u :: l => if u = t then (s.kload t (s.curlew.loads.erase t)).loadsOf t l else s.loadsOf t l

/-- Zero slot k and mark the operation in flight that was begun from it (R412, R413). -/
def State.zeroSlot (s : State) (t : SiteId) (k : Nat) : State :=
  (s.upSite t markRevoked).setKeySlot k { gen := (s.keySlot k).gen + 1 }

/-- Erase a tenant's key (R412, Table 17.4). -/
def State.keyErase (s : State) (x : CtxId) (d : BitVec 5) (t : SiteId) : State :=
  let s0 := s.loadsOf t s.curlew.loads
  match s0.slotOf t with
  | none => (((s0.setKeyState t 3).setAttn t 7).putG x d (statusWord 0 0))
  | some k => ((((s0.zeroSlot t k).setKeyState t 3).setAttn t 7).putG x d (statusWord 0 (64 + k)))

/-- KERASE (R412) -/
def effKerase : Eff := fun e i s =>
  onKeys e i s (fun vs => completes (fun s => s.keyErase e.x (valAt vs 0).rn (keyTenant vs)) s)

end Sys2Proof.Machine
end

