-- ==== Sys2Proof/Machine/Spoonbill.lean ====
section
/-! DEFINITION. Spoonbill: SPB.GO and SPB.WAIT, and its commands COUNT and REPAIR (spec/09 R233 to R241). -/

namespace Sys2Proof.Machine

/-! ## Queues and tickets (R233) -/

/-- The commands that unit u has accepted, the oldest first. -/
def State.unit (s : State) (u : Nat) : List SpbCmd := smGet s.spb [] u

/-- Change the queue of unit u. -/
def State.setUnit (s : State) (u : Nat) (l : List SpbCmd) : State := { s with spb := smSet s.spb [] u l }

/-- Ticket k of a tenant. -/
def State.ticket (s : State) (n : SiteId) (k : Nat) : Ticket := smGet s.tickets .free (4 * n.toNat + k)

/-- Change ticket k of a tenant. -/
def State.setTicket (s : State) (n : SiteId) (k : Nat) (v : Ticket) : State :=
  { s with tickets := smSet s.tickets .free (4 * n.toNat + k) v }

/-- The free ticket of a tenant that SPB.GO takes: the lowest-numbered (R234, notes/assumptions/82.md). -/
def State.freeTicket (s : State) (n : SiteId) : Option Nat := (List.range 4).find? (fun k => decide (s.ticket n k = .free))

/-! ## SPB.GO and SPB.WAIT (R234, R235) -/

/-- Accept a command: its descriptor as it stands, and what is captured of the context (R234, R238). -/
def State.submit (s : State) (e : Env) (d : BitVec 5) (k : Nat) (ps : List (Nat × Nat)) : State :=
  let n := e.c.tag
  let c : SpbCmd :=
    { tenant := n, ticket := BitVec.ofNat 2 k, desc := s.peekPieces e.x ps, addr := (ps.headD (0, 0)).1, csw := e.c.csw
      kmaskRd := e.c.kmaskRd, kmaskWr := e.c.kmaskWr, bitspace := e.c.bitspace }
  ((((s.touchPieces ps false).setUnit (n.toNat % 4) (s.unit (n.toNat % 4) ++ [c])).setTicket n k .busy)).putG e.x d
    (statusWord 0 k)

/-- SPB.GO (R234). A unit is full with 16 commands, the one it executes included (R233, notes/assumptions/82.md). -/
def effSpbGo : Eff := fun e i s =>
  onTenant e i 1 64 s (fun vs =>
    (s.checkRead e.x { own := e.own } .rw false (pagePieces (valAt vs 1).word.toNat 64)).bind (fun ps s =>
      match s.freeTicket e.c.tag with
      | none => withStatus e (valAt vs 0).rn 1 s
      | some k =>
        if 16 ≤ (s.unit (e.c.tag.toNat % 4)).length then withStatus e (valAt vs 0).rn 2 s
        else completes (fun s => s.submit e (valAt vs 0).rn k ps) s))

/-- Collect a completion: the ticket is free again (R235). -/
def State.collect (s : State) (x : CtxId) (n : SiteId) (d : BitVec 5) (k : Nat) (status : Word32) : State :=
  (s.setTicket n k .free).putG x d (statusWord 0 status.toNat)

/-- SPB.WAIT (R234, R235) -/
def effSpbWait : Eff := fun e i s =>
  onTenant e i 1 1 s (fun vs =>
    let k := bitsOf (valAt vs 1).word 1 0
    match s.ticket e.c.tag k with
    | .free => withStatus e (valAt vs 0).rn 3 s
    | .busy => if i.sub = 1 then withStatus e (valAt vs 0).rn 1 s else waits id s
    | .done status => completes (fun s => s.collect e.x e.c.tag (valAt vs 0).rn k status) s)

/-! ## Descriptors (R236, R237) -/

/-- The fields of a descriptor. -/
structure SpbDesc where
  op : Nat
  reserved : Nat
  mapBit : Nat
  pitch : Nat
  x0 : Nat
  y0 : Nat
  w : Nat
  h : Nat
  rowOut : Nat
  colOut : Nat
  spareRows : Nat
  spareCols : Nat
  repOut : Nat
  deriving DecidableEq, Repr

/-- Read a descriptor (Table 9.4). -/
def readSpb (b : List Byte) : SpbDesc :=
  let f := fun o n => leNat (slice b o n)
  { op := f 0 1, reserved := f 1 3, mapBit := f 8 4, pitch := f 0xC 4, x0 := f 0x10 2, y0 := f 0x12 2, w := f 0x14 2
    h := f 0x16 2, rowOut := f 0x18 8, colOut := f 0x20 8, spareRows := f 0x28 2, spareCols := f 0x2A 2, repOut := f 0x30 8 }

/-- The bit of a window row's first column. -/
def SpbDesc.rowBit (d : SpbDesc) (y : Nat) : Nat := d.mapBit + (d.y0 + y) * d.pitch + d.x0

/-- The fields that are invalid by themselves, by offset, in offset order (R237). -/
def SpbDesc.badFields (d : SpbDesc) : List Nat :=
  ([(0x00, decide (d.op ≠ 1 ∧ d.op ≠ 2)), (0x01, decide (d.reserved ≠ 0)), (0x0C, decide (d.pitch = 0 ∨ d.pitch % 64 ≠ 0)),
    (0x14, decide (d.w = 0 ∨ 4096 < d.w)), (0x16, decide (d.h = 0 ∨ 4096 < d.h)),
    (0x18, decide (d.op = 1 ∧ d.rowOut % 2 ≠ 0)), (0x20, decide (d.op = 1 ∧ d.colOut % 2 ≠ 0)),
    (0x28, decide (255 < d.spareRows)), (0x2A, decide (255 < d.spareCols)),
    (0x30, decide (d.op = 2 ∧ d.repOut % 4 ≠ 0))].filter (·.2)).map (·.1)

/-- Whether the window lies outside the bit space as it stood at SPB.GO (R229, R237). -/
def SpbDesc.outside (d : SpbDesc) (c : Ctx) : Bool := !c.bitOn || decide (2 ^ c.bitLog < d.rowBit (d.h - 1) + d.w)

/-- The lowest offset of a field that the rules on several fields together may find invalid (R237). -/
def SpbDesc.badTogether (d : SpbDesc) (c : Ctx) : Option Nat :=
  if d.outside c then some 0x08 else if d.pitch < d.x0 + d.w then some 0x0C else none

/-- How a descriptor is found invalid: with the offset of its first invalid field, or with one that R237 does not fix, since
several fields break the rule together (notes/assumptions/36.md). -/
inductive BadDesc where
  | at (offset : Nat)
  | somewhere
  deriving DecidableEq, Repr

/-- The check of a descriptor (R237). -/
def SpbDesc.bad (d : SpbDesc) (c : Ctx) : Option BadDesc :=
  match d.badFields, d.badTogether c with
  | [], none => none
  | [], some _ => some .somewhere
  | o :: _, none => some (.at o)
  | o :: _, some t => if o ≤ t then some (.at o) else some .somewhere

/-! ## Accesses on the tenant's behalf (R238, R239, R308) -/

/-- Why a command ends early: a failed check with its DETAIL, where the spec gives one, the failing address, and the table entry
that a walk found lost; or an uncorrectable error at a physical address. -/
inductive SpbStop where
  | fault (detail : Option Nat) (va : Nat) (lost : Option Nat)
  | memory (pa : Nat)
  deriving DecidableEq, Repr

/-- The context that a command's accesses are checked as (R238). -/
def SpbCmd.ctx (k : SpbCmd) : Ctx := { csw := k.csw, kmaskRd := k.kmaskRd, kmaskWr := k.kmaskWr, bitspace := k.bitspace }

/-- FAULT's DETAIL for an exception of the checks (Table 9.5); a fault of vector 7 is one of translation (Table 11.5). -/
def spbDetail (vec : Nat) : Option Nat :=
  match vec with
  | 6 => some 1
  | 7 => some 1
  | 9 => some 2
  | 10 => some 3
  | 20 => some 4
  | 21 => some 4
  | _ => none

/-- Whether a physical address takes no access of Spoonbill: DRAM, SRAM, and for reads the flash window, do. -/
def State.spbRefused (s : State) (k : Kind) (pa : Nat) : Bool :=
  s.inKeyArray pa || (match s.region pa with
    | .dram => false
    | .sram => false
    | .flash => k.writes || s.flashBusy pa
    | _ => true)

/-- Whether a frame's key shuts Spoonbill out as user: key 63 does (R279). -/
def State.userKeyShut (s : State) (c : Ctx) (pa : Nat) : Bool :=
  decide (c.world = .nonSecure) && decide (s.region pa = .dram) && s.keyV
    && decide (bitsOf (s.memByte (s.keyBase + pa / 4096)) 5 0 = 63)

/-- The checks of one access on a leaf. -/
def State.spbLeaf (s : State) (c : Ctx) (k : Kind) (va : Nat) (t : TlbEntry) (pa : Nat) : Except SpbStop Nat :=
  match s.leafChecks c {} k va t pa with
  | some x => .error (.fault (spbDetail x.vec) va none)
  | none =>
    if s.userKeyShut c pa then .error (.fault (some 2) va none)
    else if s.spbRefused k pa then .error (.fault none va none)
    else .ok pa

/-- The end of a command whose walk for an address faults (R308). -/
def walkStop (va : Nat) (f : WalkFault) : SpbStop := .fault (some 1) va (if f.subtype = 4 then some f.entry else none)

/-- Translate an address by a walk, and check the access (R238, R308). -/
def State.spbXlate (s : State) (c : Ctx) (k : Kind) (va : Nat) : Except SpbStop Nat :=
  if 2 ^ 48 ≤ va then .error (.fault (some 1) va none)
  else
    match s.walkRoot c with
    | .error f => .error (walkStop va f)
    | .ok root =>
      match s.walkLevels c.world (decide (1024 ≤ c.space)) va root [] [1, 2, 3, 4] with
      | .fault f => .error (walkStop va f)
      | .leaf e level _ =>
        s.spbLeaf c k va (leafEntry c va e level) ((leafEntry c va e level).out + va % 2 ^ (12 + 9 * (4 - level)))

/-- Translate and check the pieces of a range. -/
def State.spbPieces (s : State) (c : Ctx) (k : Kind) : List (Nat × Nat) → Except SpbStop (List (Nat × Nat))
  | [] => .ok []
  | p :: t =>
    match s.spbXlate c k p.1 with
    | .error x => .error x
    | .ok pa =>
      match s.spbPieces c k t with
      | .error x => .error x
      | .ok l => .ok ((pa, p.2) :: l)

/-- A byte of memory or of the flash window. -/
def State.spbByte (s : State) (pa : Nat) : Byte :=
  if s.region pa = .flash then smGet s.flash 0xFF (pa - 0xF200000000) else s.memByte pa

/-- Read the bytes of checked pieces; a poisoned word ends the command with MEMORY. -/
def State.spbRead (s : State) : List (Nat × Nat) → Except SpbStop (List Byte)
  | [] => .ok []
  | p :: t =>
    match (List.range p.2).find? (fun i => s.poisoned (p.1 + i)) with
    | some i => .error (.memory (p.1 + i))
    | none =>
      match s.spbRead t with
      | .error x => .error x
      | .ok l => .ok ((List.range p.2).map (fun i => s.spbByte (p.1 + i)) ++ l)

/-- The bits of a window row from its bytes. -/
def rowBits (bs : List Byte) (b w : Nat) : List Bool := (List.range w).map (fun i => bitAt (bs.getD ((b % 8 + i) / 8) 0) ((b + i) % 8))

/-- The window: its rows as bits, or why the read ends, with the physical pieces read so far (R238). -/
def State.spbWindow (s : State) (c : Ctx) (d : SpbDesc) : List Nat → Except SpbStop (List (List Bool)) × List (Nat × Nat)
  | [] => (.ok [], [])
  | y :: t =>
    let b := d.rowBit y
    let va := c.bitBase + b / 8
    match s.spbPieces c .read (pagePieces va ((b % 8 + d.w + 7) / 8)) with
    | .error x => (.error x, [])
    | .ok ps =>
      match s.spbRead ps with
      | .error x => (.error x, ps)
      | .ok bs =>
        let r := s.spbWindow c d t
        (match r.1 with
         | .error x => .error x
         | .ok l => .ok (rowBits bs b d.w :: l), ps ++ r.2)

/-! ## COUNT and REPAIR (R240) -/

/-- The set bits of a row. -/
def setCount (row : List Bool) : Nat := row.countP (fun b => b)

/-- Column x of the fails. -/
def column (f : List (List Bool)) (x : Nat) : List Bool := f.map (fun row => row.getD x false)

/-- The number of fails. -/
def failCount (f : List (List Bool)) : Nat := sumNat (f.map setCount)

/-- What REPAIR carries: spare lines, the repair list in order, the fails, whether a pass changed anything, and whether a
line could not be repaired. -/
structure RepairSt where
  rows : Nat
  cols : Nat
  entries : List Nat := []
  fails : List (List Bool)
  changed : Bool := false
  stuck : Bool := false
  deriving DecidableEq, Repr

/-- The test of row y. -/
def RepairSt.row (r : RepairSt) (y : Nat) : RepairSt :=
  if r.stuck || decide (setCount (r.fails.getD y []) ≤ r.cols) then r
  else if r.rows = 0 then { r with stuck := true }
  else { r with
    entries := r.entries ++ [y], rows := r.rows - 1, changed := true
    fails := r.fails.set y ((r.fails.getD y []).map (fun _ => false)) }

/-- The test of column x. -/
def RepairSt.col (r : RepairSt) (x : Nat) : RepairSt :=
  if r.stuck || decide (setCount (column r.fails x) ≤ r.rows) then r
  else if r.cols = 0 then { r with stuck := true }
  else { r with
    entries := r.entries ++ [2 ^ 31 + x], cols := r.cols - 1, changed := true
    fails := r.fails.map (fun row => row.set x false) }

/-- One pass of the repeat loop. -/
def RepairSt.pass (r : RepairSt) (w h : Nat) : RepairSt :=
  (List.range w).foldl RepairSt.col ((List.range h).foldl RepairSt.row { r with changed := false })

/-- The repeat loop: every pass that changes something uses a spare line, so `n` passes above the spares are enough. -/
def RepairSt.loop (w h : Nat) : Nat → RepairSt → RepairSt
  | 0, r => r
  | n + 1, r => if (r.pass w h).stuck || !(r.pass w h).changed then r.pass w h else RepairSt.loop w h n (r.pass w h)

/-- REPAIR on the fails of a window. -/
def repairOf (d : SpbDesc) (f : List (List Bool)) : RepairSt :=
  RepairSt.loop d.w d.h (d.spareRows + d.spareCols + 1) { rows := d.spareRows, cols := d.spareCols, fails := f }

/-- REPAIR's DETAIL (Table 9.5). -/
def RepairSt.detail (r : RepairSt) : Nat := if r.stuck then 2 else if failCount r.fails = 0 then 0 else 1

/-- What a command writes: its outputs with their virtual addresses, TALLY, and STATUS. -/
structure SpbOut where
  outs : List (Nat × List Byte)
  tally : Nat
  status : Nat
  deriving DecidableEq, Repr

/-- COUNT's outputs: the counts of each row and of each column (R240). -/
def countOut (d : SpbDesc) (f : List (List Bool)) : SpbOut :=
  { outs := [(d.rowOut, f.flatMap (fun row => leBytes 2 (setCount row))),
             (d.colOut, (List.range d.w).flatMap (fun x => leBytes 2 (setCount (column f x))))]
    tally := failCount f, status := 1 }

/-- REPAIR's outputs: the repair list (R240). -/
def repairOut (d : SpbDesc) (f : List (List Bool)) : SpbOut :=
  let r := repairOf d f
  { outs := [(d.repOut, r.entries.flatMap (fun v => leBytes 4 v))], tally := failCount r.fails
    status := 1 + 256 * r.detail + 65536 * r.entries.length }

/-- The outputs of a command's operation. -/
def SpbDesc.out (d : SpbDesc) (f : List (List Bool)) : SpbOut := if d.op = 1 then countOut d f else repairOut d f

/-! ## Running a command (R238) -/

/-- Check write access to every byte of the outputs: the checked pieces with the bytes that go there. -/
def State.spbCheckOuts (s : State) (c : Ctx) : List (Nat × List Byte) → Except SpbStop (List (Nat × List (Nat × Nat) × List Byte))
  | [] => .ok []
  | o :: t =>
    match s.spbPieces c .write (pagePieces o.1 o.2.length) with
    | .error x => .error x
    | .ok ps =>
      match s.spbCheckOuts c t with
      | .error x => .error x
      | .ok l => .ok ((o.1, ps, o.2) :: l)

/-- The poisoned words that a range of bytes covers in part. -/
def State.poisonedEdges (s : State) (p : Nat × Nat) : List Nat :=
  (([wordOf p.1, wordOf (p.1 + p.2 - 1)].eraseDups).filter (fun w => decide (w < p.1) || decide (p.1 + p.2 < w + 8))).filter
    (fun w => decide (p.2 ≠ 0) && s.poisoned w)

/-- Write an output's bytes. Spoonbill writes whole words (R337): in a poisoned word that the output covers in part, what it
writes beside the output is open (notes/assumptions/36.md). -/
def State.spbWrite (s : State) (ps : List (Nat × Nat)) (bs : List Byte) : State :=
  ((ps.flatMap s.poisonedEdges).foldl (fun s w => (s.freshBytes 8).2.agentWrite w (s.freshBytes 8).1) s).writePieces ps bs

/-- Write checked outputs, the lower address first. Where COUNT's two lists overlap, the one that starts at the higher address
is written last, and ROW_OUT before COL_OUT where they start together (notes/assumptions/82.md). -/
def State.spbWriteOuts (s : State) (l : List (Nat × List (Nat × Nat) × List Byte)) : State :=
  match l with
  | [a, b] => if b.1 < a.1 then (s.spbWrite b.2.1 b.2.2).spbWrite a.2.1 a.2.2
              else (s.spbWrite a.2.1 a.2.2).spbWrite b.2.1 b.2.2
  | l => l.foldl (fun s a => s.spbWrite a.2.1 a.2.2) s

/-- The key checks of a command's accesses read the key bytes of the frames: poison there is consumed (R336). -/
def State.spbKeys (s : State) (c : Ctx) (ps : List (Nat × Nat)) : State :=
  s.countPoison 0 4 ((ps.flatMap (fun p => s.checkReads c {} .read p.1 none)).filter s.poisoned)

/-- Write a 4-byte field of a command's descriptor at an offset. Spoonbill writes whole words (R337): where the word is
poisoned, the other half is that of its copy of the descriptor. -/
def State.spbField (s : State) (k : SpbCmd) (o v : Nat) : State :=
  if s.poisoned (k.addr + o) then
    s.agentWrite (k.addr + o / 8 * 8) (if o % 8 = 4 then slice k.desc (o - 4) 4 ++ leBytes 4 v else leBytes 4 v ++ slice k.desc (o + 4) 4)
  else s.agentWrite (k.addr + o) (leBytes 4 v)

/-- A command ends: STATUS is written, and is the ticket's completion (R234, R238). -/
def State.spbEnd (s : State) (u : Nat) (k : SpbCmd) (status : Nat) : State :=
  ((s.spbField k 4 status).setUnit u (s.unit u).tail).setTicket k.tenant k.ticket.toNat
    (.done (BitVec.ofNat 32 status))

/-- FAULT's DETAIL, where the spec gives none: any of the codes of Table 9.5 (notes/assumptions/36.md). -/
def State.orFree (s : State) (v : Option Nat) : Nat × State :=
  match v with
  | some n => (n, s)
  | none => (1 + s.fresh.1.toNat % 4, s.fresh.2)

/-- A command ends early with FAULT or MEMORY (R238, R308; spec/14 R336). -/
def State.spbStop (s : State) (u : Nat) (k : SpbCmd) (x : SpbStop) : State :=
  match x with
  | .memory pa => (s.usePoison 5 0 4 pa).spbEnd u k 4
  | .fault detail va lost =>
    let q := s.orFree detail
    let s1 := match lost with
      | none => q.2
      | some a => q.2.meetEntry a 0 4
    (s1.agentWrite (k.addr + 0x38) (leBytes 8 va)).spbEnd u k (2 + 256 * q.1)

/-- The phases of a command whose outputs are checked: the window is read, and the outputs are written last (R238). -/
def State.spbReadPhase (s : State) (u : Nat) (k : SpbCmd) (d : SpbDesc) : State :=
  let f := s.spbWindow k.ctx d (List.range d.h)
  let s1 := (s.spbKeys k.ctx f.2).touchPieces f.2 false
  match f.1 with
  | .error x => s1.spbStop u k x
  | .ok rows =>
    match s1.spbCheckOuts k.ctx (d.out rows).outs with
    | .error x => s1.spbStop u k x
    | .ok l => (((s1.spbKeys k.ctx (l.flatMap (·.2.1))).spbWriteOuts l).spbField k 0x2C (d.out rows).tally).spbEnd u k (d.out rows).status

/-- The outputs that phase 1 checks, at the largest extent the descriptor allows: COUNT's counts, and REPAIR's list with an
entry for each spare line that the window can use (R238, R240, notes/assumptions/37.md). -/
def SpbDesc.allOuts (d : SpbDesc) : List (Nat × List Byte) :=
  if d.op = 1 then [(d.rowOut, List.replicate (2 * d.h) 0), (d.colOut, List.replicate (2 * d.w) 0)]
  else [(d.repOut, List.replicate (4 * (min d.spareRows d.h + min d.spareCols d.w)) 0)]

/-- The phases of a valid command: outputs are checked before the window is read (R238). -/
def State.spbPhases (s : State) (u : Nat) (k : SpbCmd) (d : SpbDesc) : State :=
  match s.spbCheckOuts k.ctx d.allOuts with
  | .error x => s.spbStop u k x
  | .ok l => (s.spbKeys k.ctx (l.flatMap (·.2.1))).spbReadPhase u k d

/-- Run the command at the head of a unit. -/
def State.spbRun (s : State) (u : Nat) (k : SpbCmd) : State :=
  match (readSpb k.desc).bad k.ctx with
  | none => s.spbPhases u k (readSpb k.desc)
  | some (.at o) => s.spbEnd u k (3 + 256 * o)
  | some .somewhere => s.fresh.2.spbEnd u k (3 + 256 * (s.fresh.1.toNat % 256))

/-- The oldest command of a unit completes, unless its OP is the other one; one with neither OP completes by either command
(R233, R237). -/
def State.spbComplete (s : State) (u other : Nat) : State :=
  match s.unit u with
  | [] => s
  | k :: _ => if (readSpb k.desc).op = other then s else s.spbRun u k

/-- COUNT (R240): the oldest command of unit u, a COUNT, completes. -/
def execCount (u : BitVec 2) (up : Upset) (s : State) : Out := .next (s.withUpset up (fun s => s.spbComplete u.toNat 2))

/-- REPAIR (R240): the oldest command of unit u, a REPAIR, completes. -/
def execRepair (u : BitVec 2) (up : Upset) (s : State) : Out := .next (s.withUpset up (fun s => s.spbComplete u.toNat 1))

end Sys2Proof.Machine
end

