-- ==== Sys2Proof/Machine/InsGate.lean ====
section
/-! DEFINITION. System calls, monitor calls, gates and the returns (spec/15 R352, R353, R367 to R370; spec/16 R380, R381,
R387 to R389). -/

namespace Sys2Proof.Machine

/-! ## Parts of a CSW -/

/-- Whether a CSW has a reserved bit set or a reserved PRIV encoding (Table 5.3). -/
def cswReserved (w : Word) : Bool :=
  decide (bitsOf w 31 18 ≠ 0) || decide (bitsOf w 63 42 ≠ 0) || decide (2 ≤ bitsOf w 3 2)

/-- BAD_XCSW (R352): a reserved bit or PRIV encoding, or WORLD = 1 with TEN = 1. -/
def badXcsw (w : Word) : Bool := cswReserved w || (bitAt w 1 && bitAt w 4)

/-- The CSW that SYSC and MONCALL build on one of their own: FORM from FE_PC, PRIV, IE, UPG, SS, DUNS, DOVT, FSAT and
RSTRAP from FE_CSW, SIP, LACT, DLY and DTK 0 (R353, R380). -/
def feCsw (csw fePc fe : Word) : Word :=
  setBits (setBits (setBits (setBit csw 0 (bitAt fePc 63)) 3 2 (bit (bitAt fe 2))) 11 5 (bitsOf fe 11 5)) 17 12 0

/-- The CSW of the monitor: WORLD 1, no tenant (R380). -/
def secureCsw (csw : Word) : Word := setBits (setBit (setBit csw 1 true) 4 false) 41 32 0

/-! ## XRET, SYSRET and MONRET (R352, R381, R147) -/

/-- The context after a return through a bank, but for the stack pointers: CSW, PC, and the delay bundle where DLY is set. -/
def Ctx.returnTo (c : Ctx) (b : Bank) : Ctx :=
  let c1 := c.goTo b.xpc.toNat
  { c1 with
    csw := setBits b.xcsw 17 16 0, arrival := .back
    delay := if bitAt b.xcsw 16 then
        some { addr := b.xpc, target := b.xdt, taken := bitAt b.xcsw 17, call := false, replay := true, shadow := false }
      else none }

/-- The stack pointers of an XRET: G31 and XSP are exchanged. -/
def swapSp (c : Ctx) (w : World) (sp : Word) : Ctx := (c.setBank w { c.bank w with xsp := sp }).setG spReg (c.bank w).xsp

/-- The stack pointers of a SYSRET and a MONRET: G31 := XSP, XSP := FE_SP. -/
def restoreSp (c : Ctx) (w : World) : Ctx :=
  (c.setBank w { c.bank w with xsp := (c.bank w).feSp }).setG spReg (c.bank w).xsp

/-- A return that leaves the secure world clears CX_NMI.BLOCK. -/
def State.unblockNmi (s : State) (x : CtxId) (leaves : Bool) : State := if leaves then s.clrReg (cxReg x .nmi) 2 else s

/-- The writes of a return through the bank of the current world, with what it does to the stack pointers. -/
def returnBy (e : Env) (f : Ctx → Ctx) : Done :=
  { commit := fun s => (s.upCtx e.x (fun c => (f c.completeLoads).returnTo (e.c.bank e.c.world))).unblockNmi e.x
      (decide (e.c.world = .secure) && !bitAt (e.c.bank e.c.world).xcsw 1)
    ctl := .mode }

/-- Privileged instruction with BAD_XCSW (R352). -/
def badXcswExc : Exc := { vec := 4, xinfo := 5 }

/-- The exceptions of XRET and SYSRET after the loop fault (R352). -/
def returnExc (e : Env) : Option Exc :=
  let w := (e.c.bank e.c.world).xcsw
  if e.user then some privExc
  else if badXcsw w then some badXcswExc
  else if bitAt w 1 ∧ e.c.world = .nonSecure then some (worldInsExc 6)
  else none

/-- XRET (R352) -/
def effXret : Eff := fun e _ s =>
  match returnExc e with
  | some x => .exc x s
  | none => .ok (returnBy e (fun c => swapSp c e.c.world (e.c.getG spReg))) s

/-- SYSRET (R352) -/
def effSysret : Eff := fun e _ s =>
  match returnExc e with
  | some x => .exc x s
  | none => .ok (returnBy e (fun c => restoreSp c e.c.world)) s

/-- MONRET (R381) -/
def effMonret : Eff := fun e _ s =>
  if e.c.world = .nonSecure then .exc (worldInsExc 8) s
  else if e.user then .exc privExc s
  else if badXcsw e.c.bankS.xcsw || bitAt e.c.bankS.xcsw 1 then .exc badXcswExc s
  else .ok (returnBy e (fun c => restoreSp c .secure)) s

/-! ## SYSC and MONCALL (R353, R380) -/

/-- The writes of SYSC into the bank of the current world, and its target. -/
def sysCall (c : Ctx) (e : Env) : Ctx :=
  let w := e.c.world
  let b := e.c.bank w
  let c1 := (c.setBank w { c.bank w with xpc := BitVec.ofNat 48 e.next, xsp := e.c.getG spReg, xcsw := e.c.csw }).setG spReg b.feSp
  { c1.goTo (bitsOf b.fePc 62 0) with csw := feCsw e.c.csw b.fePc b.feCsw }

/-- SYSC (R353) -/
def effSysc : Eff := fun e _ s =>
  .ok { commit := fun s => (s.leaveEncl e.x e.next).upCtx e.x (fun c => sysCall c.completeLoads e), ctl := .mode } s

/-- The writes of MONCALL into the secure bank, and its target (R380): XINFO is CROSS. -/
def monCall (c : Ctx) (e : Env) : Ctx :=
  let b := e.c.bankS
  let c1 := ({ c with bankS := { c.bankS with
    xpc := BitVec.ofNat 48 e.next, xcsw := e.c.csw, xaddr := 0, xinfo := 0x2000000000000000
    xsp := e.c.getG spReg } }).setG spReg b.feSp
  { c1.goTo (bitsOf b.fePc 62 0) with csw := secureCsw (feCsw e.c.csw b.fePc b.feCsw) }

/-- MONCALL (R380) -/
def effMoncall : Eff := fun e _ s =>
  if e.user ∨ e.c.world = .secure then .exc privExc s
  else .ok { commit := fun s => ((s.leaveEncl e.x e.next).upCtx e.x (fun c => monCall c.completeLoads e)).blockNmi e.x .secure
             ctl := .mode } s

/-! ## Gate descriptors (R367 to R369) -/

/-- A gate descriptor (Table 15.8); `zero`: the bytes and bits that must be zero are. -/
structure Gate where
  target : Word
  stack : Word
  checks : List Nat
  ctrl : Nat
  encl : Nat
  zero : Bool
  deriving DecidableEq, Repr

/-- Read a gate descriptor. -/
def readGate (b : List Byte) : Gate :=
  let t := BitVec.ofNat 64 (leNat (slice b 0 8))
  let k := BitVec.ofNat 64 (leNat (slice b 8 8))
  let n := leNat (slice b 0x1E 2)
  { target := t, stack := k, checks := (List.range 6).map (fun i => leNat (slice b (0x10 + 2 * i) 2))
    ctrl := leNat (slice b 0x1C 1), encl := n
    zero := decide (bitsOf t 62 48 = 0) && decide (bitsOf k 63 48 = 0) && decide (leNat (slice b 0x1D 1) = 0)
      && decide (n / 2 ^ 11 % 16 = 0) }

/-- CTRL's flags (Table 15.8). -/
def Gate.flag (g : Gate) (k : Nat) : Bool := decide (g.ctrl / 2 ^ k % 2 = 1)

/-- ARGC. -/
def Gate.argc (g : Gate) : Nat := g.ctrl / 16 % 8

/-- ENCL_V and the enclave number. -/
def Gate.enclave (g : Gate) : Option Nat := if g.encl / 2 ^ 15 % 2 = 1 then some (g.encl % 2 ^ 11) else none

/-- KIND of check i, from 0. -/
def Gate.kind (g : Gate) (i : Nat) : Nat := g.checks.getD i 0 % 16

/-- LIM of check i, from 0. -/
def Gate.lim (g : Gate) (i : Nat) : Nat := g.checks.getD i 0 / 16

/-- Whether KIND is known and LIM is in its range (Table 15.9). -/
def goodCheck (v : Nat) : Bool :=
  match v % 16 with
  | 0 => decide (v / 16 = 0)
  | 1 => true
  | 2 => decide (v / 16 ≤ 62)
  | 3 => decide (v / 16 = 0)
  | 4 => decide (v / 16 = 0)
  | 5 => decide (v / 16 ≤ 24)
  | _ => false

/-- Whether check i is of a pointer. -/
def Gate.isPtr (g : Gate) (i : Nat) : Bool := decide (g.kind i = 3) || decide (g.kind i = 4)

/-- Whether pointers and lengths are paired within ARGC (R368). -/
def Gate.paired (g : Gate) : Bool :=
  (List.range g.argc).all (fun i =>
    (!g.isPtr i || (decide (i + 1 < g.argc) && decide (g.kind (i + 1) = 5)))
      && (decide (g.kind i ≠ 5) || (decide (0 < i) && g.isPtr (i - 1))))

/-- Whether a descriptor is well formed (R369 step 6). -/
def Gate.wellFormed (g : Gate) : Bool :=
  g.zero && decide (g.argc ≠ 7) && g.checks.all goodCheck && g.paired
    && (if g.flag 7 then decide (g.stack = 0) else decide (g.stack.toNat % 16 = 0))

/-- A gate fault (Table 15.10). -/
def gateExc (cause argno step gate xaddr : Nat) : Exc :=
  { vec := 19, xaddr := xaddr, xinfo := cause + 256 * argno + 4096 * step + 65536 * (gate % 65536) }

/-- Gate fault ENCLAVE with its reason (R388, R389). -/
def gateEnclExc (gate reason encl : Nat) : Exc :=
  { vec := 19, xinfo := 5 + 65536 * (gate % 65536) + 2 ^ 32 * reason + 2 ^ 40 * encl }

/-- The check of Table 11.4 that an exception of `State.xlate` reports; none for another kind of exception. -/
def checkStep (x : Exc) : Option Nat :=
  match x.vec with
  | 6 | 7 => some (match x.xinfo % 256 with
    | 1 => 1
    | 2 => 3
    | _ => 4)
  | 8 => some 2
  | 10 => some 3
  | 20 | 21 => some 5
  | 9 => some 6
  | _ => none

/-- An exception of a check as the gate fault of a cause; any other exception stands. -/
def asGate (cause argno gate : Nat) (x : Exc) : Exc :=
  match checkStep x with
  | some k => gateExc cause argno k gate x.xaddr
  | none => x

/-- Change the exception of a result. -/
def XR.onExc {α : Type} (r : XR α) (f : Exc → Exc) : XR α :=
  match r with
  | .ok a s => .ok a s
  | .exc e s => .exc (f e) s

/-- The physical address of a gate descriptor: a supervisor read through checks 1, 2 and 5 of Table 11.4 on a page with
U = 0 (R369 step 4). -/
def State.gatePlace (s : State) (e : Env) (n ea : Nat) : XR Nat :=
  if 2 ^ 48 ≤ ea ∨ (s.direct e.x = true ∧ 2 ^ 40 ≤ ea) then .exc (gateExc 1 0 1 n ea) s
  else
    let r : XR Nat :=
      if s.direct e.x then .ok ea s
      else
        let l := s.lookup (coreOf e.x) e.c false ea none
        match l.1 with
        | .multi => .exc { vec := 1, xinfo := 3 } l.2
        | .fault _ => .exc (gateExc 1 0 2 n ea) l.2
        | .hit t => if t.u then .exc (gateExc 1 0 3 n ea) l.2 else .ok (t.out + ea % 2 ^ (12 + 9 * (4 - t.level))) l.2
    r.bind (fun pa s =>
      match s.worldCheck e.c e.own .read ea pa 32 with
      | some x => .exc (asGate 1 0 n x) s
      | none => .ok pa s)

/-- Read a gate descriptor: its physical address and its fields. -/
def State.readGateAt (s : State) (e : Env) (n : Nat) : XR (Nat × Gate) :=
  let ea := (BitVec.ofNat 64 ((e.c.bank e.c.world).gateBase.toNat / 32 * 32) + BitVec.ofNat 64 (32 * n)).toNat
  (s.gatePlace e n ea).bind (fun pa s =>
    if s.refused e.x .read pa 32 ∨ s.region pa = .device then .exc (busExc 1 pa) s
    else match s.poisonAt e.x pa 32 with
      | some i => .exc (s.poisonHit e.x (ea + i) (pa + i)).1 (s.poisonHit e.x (ea + i) (pa + i)).2
      | none => .ok (pa, readGate (s.peekPieces e.x [(pa, 32)])) s)

/-! ## Arguments (R368) -/

/-- Argument i, from 0: G1 to G6. -/
def argAt (c : Ctx) (i : Nat) : Word := c.getG (BitVec.ofNat 5 (i + 1))

/-- Whether an argument passes a check that reads no memory (Table 15.9). -/
def argInRange (kind lim : Nat) (v : Word) : Bool :=
  match kind with
  | 1 => decide (v.toNat ≤ lim)
  | 2 => decide (-(2 ^ lim : Int) ≤ v.toInt) && decide (v.toInt < 2 ^ lim)
  | 5 => decide (v.toNat ≤ 2 ^ lim)
  | _ => true

/-- The check of a pointer's bytes, as the caller's access (R368). -/
def State.ptrCheck (s : State) (e : Env) (g : Gate) (n i : Nat) : XR Unit :=
  ((s.xlatePieces e.x { own := e.own } (if g.kind i = 4 then .rw else .read)
    (pagePieces (argAt e.c i).toNat (argAt e.c (i + 1)).toNat)).onExc (asGate 6 (i + 1) n)).bind (fun _ s => .ok () s)

/-- The check of argument i: a pointer's length comes before its bytes (R368, R369 step 9). -/
def State.argCheck (s : State) (e : Env) (g : Gate) (n i : Nat) : XR Unit :=
  if g.isPtr i then
    if argInRange 5 (g.lim (i + 1)) (argAt e.c (i + 1)) then s.ptrCheck e g n i
    else .exc (gateExc 6 (i + 2) 0 n (argAt e.c (i + 1)).toNat) s
  else if argInRange (g.kind i) (g.lim i) (argAt e.c i) then .ok () s
  else .exc (gateExc 6 (i + 1) 0 n (argAt e.c i).toNat) s

/-- The checks of the arguments in order. -/
def State.argChecks (s : State) (e : Env) (g : Gate) (n : Nat) : List Nat → XR Unit
  | [] => .ok () s
  | i :: t => (s.argCheck e g n i).bind (fun _ s => s.argChecks e g n t)

/-! ## GCALL (R369, R387, R388) -/

/-- The enclave checks of a gate (R388): none where they pass. -/
def State.gateEncl (s : State) (c : Ctx) (g : Gate) (n : Nat) : Option Exc :=
  match g.enclave with
  | none => none
  | some k =>
    match s.enclave k with
    | none => some (gateEnclExc n 1 k)
    | some d =>
      if n < d.gfirst ∨ d.gfirst + d.gcount ≤ n then some (gateEnclExc n 2 k)
      else if c.world = .nonSecure ∧ c.ten = true ∧ c.tag = d.owner then none
      else some (gateEnclExc n 3 k)

/-- The checks of a descriptor that reads no more memory (R369 steps 5 to 8). -/
def State.gateRefusal (s : State) (e : Env) (g : Gate) (n : Nat) : Option Exc :=
  if !g.flag 0 then some (gateExc 2 0 0 n 0)
  else if !g.wellFormed then some (gateExc 3 0 0 n 0)
  else if e.user && !g.flag 2 then some (gateExc 4 0 0 n 0)
  else s.gateEncl e.c g n

/-- The CSW that GCALL installs (R369). -/
def gateCsw (csw : Word) (g : Gate) : Word :=
  setBits (setBit (setBit (setBits (setBit csw 0 (bitAt g.target 63)) 3 2 (bit (g.flag 1))) 5 (g.flag 3)) 6 true) 15 12 0

/-- The new G31 (R369). -/
def gateSp (e : Env) (g : Gate) : Word := (if g.flag 7 then (e.c.bank e.c.world).feSp else g.stack) - 0x50

/-- The frame of Table 15.11, whose argument slots end at offset 0x47 (notes/assumptions/40.md). -/
def gateFrame (e : Env) (g : Gate) (n : Nat) : List Byte :=
  leBytes 8 (e.c.getG spReg).toNat ++ leBytes 8 e.c.csw.toNat ++ leBytes 8 n ++ leBytes 8 0
    ++ (List.range 5).flatMap (fun i => leBytes 8 (if i < g.argc then (argAt e.c i).toNat else 0)) ++ leBytes 8 0

/-- The enclave that the frame writes count as made from (R386). -/
def frameOwn (e : Env) (g : Gate) : Option Nat :=
  match g.enclave with
  | some k => some k
  | none => e.own

/-- Check the frame, as a write under the CSW to be installed (R369 step 10): its physical pieces. The spec gives a misaligned
frame no failing byte (notes/assumptions/39.md). -/
def State.frameCheck (s : State) (e : Env) (g : Gate) (n : Nat) : XR (List (Nat × Nat)) :=
  if (gateSp e g).toNat % 16 ≠ 0 then .exc (gateExc 7 0 0 n s.fresh.1.toNat) s.fresh.2
  else
    (((s.upCtx e.x (fun c => { c with csw := gateCsw e.c.csw g })).xlatePieces e.x { own := frameOwn e g } .write
      (pagePieces (gateSp e g).toNat 0x50)).onState (fun s => s.upCtx e.x (fun c => { c with csw := e.c.csw }))).onExc
        (asGate 7 0 n)

/-- The return pointer of a gate: bit 62 marks it (R369). -/
def gateReturn (e : Env) : Word := retPtr e.c.wform e.next ||| 0x4000000000000000

/-- The exit records that a GCALL writes (R387): a call out of an enclave records its return address, a gate into one clears
its record. -/
def State.gateExits (s : State) (e : Env) (g : Gate) : State :=
  let s1 := match e.own with
    | none => s
    | some k => s.setExit k e.next
  match g.enclave with
  | none => s1
  | some k => s1.clearExit k

/-- The context after a GCALL. -/
def gateEnter (c : Ctx) (e : Env) (g : Gate) : Ctx :=
  let c1 := ((c.completeLoads.push (gateReturn e)).setG spReg (gateSp e g)).goTo (bitsOf g.target 47 0)
  { c1 with
    csw := gateCsw e.c.csw g
    arrival := (match g.enclave with
      | none => .none
      | some k => .gate k) }

/-- The writes of a GCALL, made together. -/
def State.gateCall (s : State) (e : Env) (g : Gate) (n pa : Nat) (ps : List (Nat × Nat)) : State :=
  ((((s.touch pa 32 false).retireStore e.x false ps (gateFrame e g n)).gateExits e g)).upCtx e.x (fun c => gateEnter c e g)

/-- GCALL (R369) -/
def effGcall : Eff := fun e i s =>
  if e.c.pushTraps then .exc overflowExc s
  else (s.readGateAt e i.num).bind (fun r s =>
    match s.gateRefusal e r.2 i.num with
    | some x => .exc x s
    | none =>
      (s.argChecks e r.2 i.num (List.range r.2.argc)).bind (fun _ s =>
        (s.frameCheck e r.2 i.num).bind (fun ps s =>
          .ok { commit := fun s => s.gateCall e r.2 i.num r.1 ps, ctl := .mode } s)))

/-! ## GRET (R370, R389) -/

/-- Whether the CSW of a frame may be installed (R370 step 6). -/
def retCswBad (c : Ctx) (w : Word) : Bool :=
  cswReserved w || bitAt w 12 || bitAt w 16 || bitAt w 17 || decide (bitAt w 1 ≠ bitAt c.csw 1)
    || decide (bitsOf c.csw 3 2 < bitsOf w 3 2)
    || (c.isUser && (decide (bitAt w 4 ≠ bitAt c.csw 4) || decide (bitsOf w 41 32 ≠ bitsOf c.csw 41 32)))

/-- The CSW that GRET installs. -/
def gretCsw (w top : Word) : Word := setBit w 0 (bitAt top 63)

/-- The physical address that a return address translates to as a fetch under a CSW; none where that fails (R389). A lookup that
finds more than one match raises machine check (R305). -/
def State.returnPlace (s : State) (x : CtxId) (c : Ctx) (va : Nat) : XR (Option Nat) :=
  if s.direct x then .ok (if va < 2 ^ 40 then some va else none) s
  else
    let l := s.lookup (coreOf x) c true va none
    match l.1 with
    | .hit t => .ok (some (t.out + va % 2 ^ (12 + 9 * (4 - t.level)))) l.2
    | .fault _ => .ok none l.2
    | .multi => .exc { vec := 1, xaddr := 0, xinfo := 3 } l.2

/-- The enclave check of a return (R389). -/
def State.returnEncl (s : State) (va : Nat) (pa : Option Nat) : Option Exc :=
  match pa with
  | none => none
  | some a =>
    match s.enclAt a with
    | none => none
    | some d => if (s.exitRecord d.num).1 && decide ((s.exitRecord d.num).2 = va) then none else some (gateEnclExc 0 4 d.num)

/-- The enclave check of a return reads the exit record: poison there is consumed (R336). -/
def State.returnMet (s : State) (x : CtxId) (pa : Option Nat) : State :=
  match pa.bind s.enclAt with
  | none => s
  | some d => s.countPoison (coreOf x % 16) (agentOf x) (s.poisonWords (s.exitAddr d.num) 8)

/-- The frame of a GRET: its physical pieces and its two words (R370 step 5). -/
def State.gretFrame (s : State) (e : Env) : XR (List (Nat × Nat) × Word × Word) :=
  let sp := (e.c.getG spReg).toNat
  if sp % 16 ≠ 0 then .exc (gateExc 9 0 0 0 s.fresh.1.toNat) s.fresh.2
  else ((s.checkRead e.x { own := e.own } .read false (pagePieces sp 16)).onExc (asGate 9 0 0)).bind (fun ps s =>
    let bs := s.peekPieces e.x ps
    .ok (ps, BitVec.ofNat 64 (leNat (slice bs 0 8)), BitVec.ofNat 64 (leNat (slice bs 8 8))) s)

/-- The writes of a GRET, made together. -/
def State.gateBack (s : State) (e : Env) (ps : List (Nat × Nat)) (sp csw : Word) : State :=
  (s.touchPieces ps false).upCtx e.x (fun c =>
    { ((c.completeLoads.pop.setG spReg sp).goTo (bitsOf e.c.top 47 0)) with
      csw := csw, arrival := .back })

/-- GRET (R370) -/
def effGret : Eff := fun e _ s =>
  if e.c.rsp = 0 then .exc { vec := 17 } s
  else if !bitAt e.c.top 62 then .exc (gateExc 8 0 0 0 0) s
  else (s.gretFrame e).bind (fun r s =>
    if retCswBad e.c r.2.2 then .exc (gateExc 10 0 0 0 0) s
    else
      let csw := gretCsw r.2.2 e.c.top
      (s.returnPlace e.x { e.c with csw := csw } (bitsOf e.c.top 47 0)).bind (fun p s =>
        match s.returnEncl (bitsOf e.c.top 47 0) p with
        | some x => .exc x (s.returnMet e.x p)
        | none => .ok { commit := fun s => s.gateBack e r.1 r.2.1 csw, ctl := .mode } (s.returnMet e.x p)))

end Sys2Proof.Machine
end

