-- ==== Sys2Proof/Machine/Insn.lean ====
section
/-! DEFINITION. Executing the instruction or bundle at a context's PC (spec/05 R140, R146, R147; spec/06 R167; spec/08 R213;
spec/10 R261; spec/15 R354). A command of an instruction's row makes the context execute what it finds at its PC, where that
holds the instruction that the command names (notes/assumptions/1.md). -/

namespace Sys2Proof.Machine

/-- The effect of an instruction of each row. -/
def effect : Op → Eff
  | .nop => effNop
  | .trap => effTrap
  | .bkpt => effBkpt
  | .sync => effSync
  | .formW => effFormW
  | .formB => effFormB
  | .sysc => effSysc
  | .sysret => effSysret
  | .xret => effXret
  | .gcall => effGcall
  | .gret => effGret
  | .moncall => effMoncall
  | .monret => effMonret
  | .mfsr => effMfsr
  | .mtsr => effMtsr
  | .rand => effRand
  | .add => effAdd
  | .sub => effSub
  | .and => effAnd
  | .or => effOr
  | .xor => effXor
  | .andn => effAndn
  | .shl => effShl
  | .shr => effShr
  | .sar => effSar
  | .ror => effRor
  | .min => effMin
  | .max => effMax
  | .minu => effMinu
  | .maxu => effMaxu
  | .cmp => effCmp
  | .cmpu => effCmpu
  | .mul => effMul
  | .mulh => effMulh
  | .mulhu => effMulhu
  | .div => effDiv
  | .divu => effDivu
  | .rem => effRem
  | .remu => effRemu
  | .clz => effClz
  | .ctz => effCtz
  | .popc => effPopc
  | .sext => effSext
  | .zext => effZext
  | .li => effLi
  | .lis => effLis
  | .ld => effLd
  | .st => effSt
  | .casD => effCasD
  | .ldu => effLdu
  | .stu => effStu
  | .bcc => effBcc
  | .dbcc => effDbcc
  | .bbs => effBbs
  | .bbc => effBbc
  | .br => effBr
  | .jmp => effJmp
  | .call => effCall
  | .callr => effCallr
  | .bal => effBal
  | .balr => effBalr
  | .ret => effRet
  | .loop => effLoop
  | .lexit => effLexit
  | .movp => effMovp
  | .addp => effAddp
  | .subp => effSubp
  | .mulp => effMulp
  | .divp => effDivp
  | .shrp => effShrp
  | .cmpp => effCmpp
  | .packa => effPacka
  | .unpka => effUnpka
  | .dadd => effDadd
  | .dsub => effDsub
  | .dneg => effDneg
  | .dabs => effDabs
  | .dmul => effDmul
  | .ddiv => effDdiv
  | .drem => effDrem
  | .dsrr => effDsrr
  | .dcmp => effDcmp
  | .dmov => effDmov
  | .cvbd => effCvbd
  | .cvdb => effCvdb
  | .dld => effDld
  | .dst => effDst
  | .mvst => effMvst
  | .mvstU => effMvstU
  | .trst => effTrst
  | .scns => effScns
  | .cmps => effCmps
  | .edit => effEdit
  | .edpos => effEdpos
  | .fadd => effFadd
  | .fsub => effFsub
  | .fneg => effFneg
  | .fabs => effFabs
  | .fmul => effFmul
  | .fmac => effFmac
  | .fmsu => effFmsu
  | .facl => effFacl
  | .fsha => effFsha
  | .frnd => effFrnd
  | .fmva => effFmva
  | .fmvg => effFmvg
  | .bset => effBset
  | .bclr => effBclr
  | .btas => effBtas
  | .btst => effBtst
  | .bfext => effBfext
  | .bfins => effBfins
  | .bpop => effBpop
  | .bff => effBff
  | .spbGo => effSpbGo
  | .spbWait => effSpbWait
  | .siteTake => effSiteTake
  | .sitePost => effSitePost
  | .siteSettle => effSiteSettle
  | .lapp => effLapp
  | .tlbi => effTlbi
  | .tlbl => effTlbl
  | .tlbu => effTlbu
  | .kset => effKset
  | .kget => effKget
  | .krst => effKrst
  | .kload => effKload
  | .kerase => effKerase

/-- Whether the instruction or bundle at an address stands at an active loop end (R166, R167). -/
def Ctx.atLoopEnd (c : Ctx) : Bool := (List.range 3).any (fun k => c.endsAt k c.pc)

/-- Execute one instruction, or one syllable of a bundle: a prefix that needs supervisor privilege (R133), then a transfer or
mode change at a loop end (R167), then the instruction. -/
def evalOne (e : Env) (i : Ins) (s : State) : XR Done :=
  if (i.uao || i.keyo) && e.user then .exc { vec := 4, xinfo := 2 } s
  else if e.c.atLoopEnd && (i.op.isTransfer || i.op.isMode) then .exc (loopExc 5) s
  else effect i.op e i s

/-- The exceptions that stand before any instruction of the bundle is executed: a long instruction in progress where no string
instruction is (R213), and a delay bundle at a loop end (R167). -/
def earlyExc (e : Env) (f : Fetched) (s : State) : Option (Exc × State) :=
  let a := if e.c.sip && !f.insns.any (fun i => i.op.isString) then some (strMismatch e s) else none
  if e.c.delay.isSome && e.c.atLoopEnd then keepFirst a (loopExc 5, (a.map (·.2)).getD s) else a

/-- The capture of a B-form instruction cut after the byte that decided a cause (R262). -/
def cutCapture (v : BitVec 128) (loc : Nat) : BitVec 128 := captureB (leBytes 15 v.toNat) (loc + 1)

/-- XINST of vectors 4 and 5 captures the instruction (R261); for reserved opcode in B-form it runs up to the byte that decided
(R262), which for STRX_MISMATCH the spec does not give (notes/assumptions/35.md). -/
def Exc.captured (e : Exc) (wform : Bool) (f : Fetched) : Exc :=
  if e.xinst.isSome then e
  else if e.vec = 5 ∧ wform = false then { e with xinst := some (cutCapture f.capture (min 14 (e.xinfo / 256 % 256))) }
  else if e.vec = 4 ∨ e.vec = 5 then { e with xinst := some f.capture }
  else e

/-- Whether an instruction waits. -/
def Done.waits (d : Done) : Bool :=
  match d.ctl with
  | .wait => true
  | _ => false

/-- Whether an instruction stands at an interruption point. -/
def Done.pauses (d : Done) : Bool :=
  match d.ctl with
  | .pause => true
  | _ => false

/-- Complete a fetched instruction or bundle. One that waits has not begun: only what it does meanwhile happens, to the state
before it, `s0`; the hold-off of a shadow ends there (R152, notes/assumptions/69.md). -/
def State.finish (s s0 : State) (x : CtxId) (f : Fetched) (ds : List Done) : State :=
  if ds.any Done.waits then (ds.filter Done.waits).foldl (fun s d => d.commit s) (s0.upCtx x (fun c => { c with shadow := false }))
  else if ds.any Done.pauses then s.pauseAt x f ds
  else s.retire x (s.ctx x) f ds

/-- What an instruction of a context is executed with. -/
def envOf (s : State) (x : CtxId) (f : Fetched) (steps : Nat) : Env :=
  { x := x, c := s.ctx x, own := f.own, pc := (s.ctx x).fetchAddr, pa := f.pa, next := f.next
    steps := if (s.ctx x).stepping && (s.ctx x).delay.isNone then 1 else steps }

/-- Execute a fetched instruction or bundle; `s0` is the state before its fetch. A store that it drains may reset the chip. -/
def State.execute (s s0 : State) (x : CtxId) (f : Fetched) (steps : Nat) : State :=
  match evalAll (evalOne (envOf s x f steps)) (earlyExc (envOf s x f steps) f s) f.insns s with
  | .exc e s1 => if s1.inReset then s1 else s1.raiseIns x (e.captured (s.ctx x).wform f)
  | .ok ds s1 => if s1.inReset then s1 else s1.finish s0 x f ds

/-- Fetch a delay bundle that a return resumes (R147): the branch bundle at the PC is fetched again for its size and for
whether it is a call, and the delay bundle follows it. -/
def State.fetchReplay (s : State) (x : CtxId) (d : DelayBranch) : XR Fetched :=
  match (s.upCtx x (fun c => { c with delay := none })).fetch x with
  | .exc e s1 => .exc e (s1.upCtx x (fun c => { c with delay := some d }))
  | .ok f s1 =>
    let old := (s.ctx x).inEncl
    ((s1.upCtx x (fun c => { c.goTo f.next with
      inEncl := f.arrived.or old
      delay := some { d with replay := false, call := f.insns.any (fun i => decide (i.op = .call) || decide (i.op = .callr)) }
      })).fetch x).onState (fun s => s.upCtx x (fun c => { c with inEncl := old }))

/-- Fetch what a context executes next. -/
def State.fetchNext (s : State) (x : CtxId) : XR Fetched :=
  match (s.ctx x).delay with
  | none => s.fetch x
  | some d => if d.replay then s.fetchReplay x d else s.fetch x

/-- A command of an instruction's row: the context executes the instruction or bundle at its PC where it holds the one named;
a fetch or decode that fails raises its exception. -/
def State.command (s : State) (x : CtxId) (o : Op) (steps : Nat) : State :=
  if !s.canRun x then s
  else
    match s.fetchNext x with
    | .exc e s1 => s1.raiseFetched x e
    | .ok f s1 => if f.insns.any (fun i => decide (i.op = o)) then s1.execute s x f steps else s

/-! ## What an instruction meets in the arrays (R198, R335, R336, R342, R482 to R485) -/

/-- The microcoded instructions (Table 20.2). -/
def Op.microcoded (o : Op) : Bool :=
  match o with
  | .movp | .addp | .subp | .mulp | .divp | .shrp | .cmpp | .packa | .unpka | .ddiv | .drem | .cvbd | .cvdb
  | .mvst | .mvstU | .trst | .scns | .cmps | .edit | .edpos | .gcall | .gret | .kload | .kerase
  | .lapp | .siteTake | .sitePost | .siteSettle => true
  | _ => false

/-- The instructions whose results Avocet checks (R197, Table 7.7). -/
def Op.checked (o : Op) : Bool :=
  match o with
  | .movp | .addp | .subp | .mulp | .divp | .shrp | .packa | .unpka | .dadd | .dsub | .dneg | .dabs | .dmul | .ddiv | .drem
  | .dsrr | .cvbd | .cvdb | .cmpp | .dcmp => true
  | _ => false

/-- The instruction or bundle at the PC of a context where it holds the one named, with the state after its fetch and what it
does or raises. -/
def State.attempt (s : State) (x : CtxId) (o : Op) (steps : Nat) : Option (Fetched × State × XR (List Done)) :=
  if !s.canRun x then none
  else match s.fetchNext x with
    | .exc _ _ => none
    | .ok f s1 =>
      if f.insns.any (fun i => decide (i.op = o)) then
        some (f, s1, evalAll (evalOne (envOf s1 x f steps)) (earlyExc (envOf s1 x f steps) f s1) f.insns s1)
      else none

/-- Whether an instruction reaches the reads of its operands: no exception of an earlier rank of Table 15.2 is raised. -/
def XR.reads {α : Type} (r : XR α) : Bool :=
  match r with
  | .exc e _ => decide (8 ≤ excRank e)
  | .ok _ _ => true

/-- The general registers that an instruction reads beside its operands: G31 of the gates and calls, and the arguments that a
GCALL checks or copies (R353, R368 to R370, R352, R380). -/
def State.impliedRegs (s : State) (e : Env) (i : Ins) : List Nat :=
  match i.op with
  | .sysc | .moncall | .xret | .gret => [31]
  | .gcall =>
    31 :: (match s.readGateAt e i.num with
      | .ok g _ => (List.range g.2.argc).map (· + 1)
      | .exc _ _ => [])
  | _ => []

/-- Whether an instruction or bundle reads a register, numbered as the operand of a parity failure numbers it (R342); G0 is no
register of the file. -/
def State.insReads (s : State) (e : Env) (l : List Ins) (r : Nat) : Bool :=
  decide (r ≠ 0) && l.any (fun i => (i.sources ++ s.impliedRegs e i).contains r)

/-- A parity failure loses the value of a register (R342): what it then holds is open. -/
def State.loseReg (s : State) (x : CtxId) (r : Nat) : State :=
  if r < 32 then s.fresh.2.upCtx x (fun c => c.setG (BitVec.ofNat 5 r) s.fresh.1)
  else if r < 40 then s.fresh.2.fresh.2.upCtx x (fun c => c.setD (BitVec.ofNat 3 (r - 32)) (s.fresh.1 ++ s.fresh.2.fresh.1))
  else s.fresh.2.upCtx x (fun c => { c with a := smSet c.a 0 (r % 4) (s.fresh.1.setWidth 40) })

/-- A register parity failure at the instruction that reads the register (R342); its record has no address of its own
(notes/assumptions/41.md). -/
def State.regParity (s : State) (x : CtxId) (r : Nat) : State :=
  let s1 := s.loseReg x r
  (s1.fresh.2.integRec 6 8 (coreOf x % 16) (agentOf x) (s1.fresh.1.toNat % 2 ^ 40)).raiseIns x { vec := 1, xinfo := 0x0800 }

/-- Whether a failure of a store of a core is repeated (R484): within 1 s of one in the same store, or at an address that
has failed already. -/
def State.ucRepeated (s : State) (core store addr : Nat) : Bool :=
  let k := s.core core
  (match smGet k.ucLast none (if store = 1 then 1 else 0) with
    | none => false
    | some t => decide (s.time ≤ t + 1000000000)) || k.ucSeen.contains (store, addr)

/-- A confirmed parity failure of the microcode stores (R483 to R485): the records, the failing word of the patch RAM or the
hook table loaded again, and the fence of a ledger core where the failure is repeated, or the machine check. At a repeated
failure the context stands at the boundary before the instruction, where no shadow holds a save off. -/
def State.ucParity (s : State) (x : CtxId) (store : BitVec 2) (addr : BitVec 14) (copyBad : Bool) : State :=
  let core := coreOf x
  let kind := if store.toNat = 1 then 1 else 0
  let again := decide (x ≠ bootCtx) && s.ucRepeated core store.toNat addr.toNat
  let s1 := (s.mchk (kind + 1) (core % 16) (decide (x = bootCtx))).ucFailed core addr store
  let k := s1.core core
  let s2 := (s1.setCore core { k with
    ucLast := smSet k.ucLast none kind (some s.time), ucSeen := (store.toNat, addr.toNat) :: k.ucSeen }).ucReload core addr store copyBad
  if again then (s2.upCtx x (fun c => { c with shadow := false })).fenceFor (BitVec.ofNat 4 core) (kind + 2)
  else s2.raiseIns x { vec := 1, xinfo := kind + 1, monitor := decide (x = bootCtx) }

/-- A parity failure of the microcode stores that an instruction meets (Table 20.3): no effect, or after the steps of a string
instruction that stand. An instruction that does not come to read the word, or whose context halts after its step, meets
none. -/
def State.ucMeets (s : State) (x : CtxId) (o : Op) (steps : Nat) (store : BitVec 2) (addr : BitVec 14) (copyBad : Bool) : State :=
  if !o.microcoded || !s.microReads (coreOf x) store.toNat addr.toNat then s.command x o steps
  else match s.attempt x o steps with
    | none => s.command x o steps
    | some (_, s1, r) =>
      if o.isString && decide (0 < steps) then
        let t := s.command x o steps
        if (t.ctx x).sip && !(t.ctx x).halted && decide ((t.ctx x).pc = (s.ctx x).pc) then t.ucParity x store addr copyBad else t
      else if r.reads then s1.ucParity x store addr copyBad
      else s.command x o steps

/-- An instruction of a context, with what it meets in the arrays. -/
def State.meetsUpset (s : State) (x : CtxId) (o : Op) (steps : Nat) (u : Upset) : State :=
  match u with
  | .none => s.command x o steps
  | .corrected _ _ _ | .uncorrectable _ _ _ | .refetched _ =>
    let s1 := if (s.attempt x o steps).isSome ∧ refetches u ≠ 0 then s.bumpSat (.d .integL1Refetch) (refetches u) else s
    s1.withUpset u (fun s => s.command x o steps)
  | .register r =>
    match s.attempt x o steps with
    | none => s.command x o steps
    | some (f, s1, q) =>
      if q.reads && s1.insReads (envOf s1 x f steps) f.insns r.toNat then s1.regParity x r.toNat else s.command x o steps
  | .store store addr copyBad => s.ucMeets x o steps store addr copyBad
  | .residue again =>
    match s.attempt x o steps with
    | some (_, s1, .ok _ _) =>
      if !o.checked then s.command x o steps
      else if again then
        match s1.residueFail x with
        | .exc e s2 => s2.raiseIns x e
        | .ok _ s2 => s2
      else
        (if x = bootCtx then s else s.bumpSat (.core (BitVec.ofNat 4 (coreOf x)) .avocetRetry) 1).command x o steps
    | _ => s.command x o steps

/-- A command of an instruction's row, with what the instruction meets in the arrays. The stop of an atomic tide goes on
before the instruction and after it (R505, notes/assumptions/73.md). -/
def State.commandUpset (s : State) (x : CtxId) (o : Op) (steps : Nat) (u : Upset) : State :=
  if s.tide.stopping then (s.tideStop.meetsUpset x o steps u).tideStop else s.meetsUpset x o steps u

end Sys2Proof.Machine
end

