-- ==== Sys2Proof/Machine/InsnCmds.lean ====
section
/-! DEFINITION. The commands of the instruction rows: a context executes the instruction or bundle at its PC. A string
instruction makes at most the given number of steps, and at least one, before an interruption point is taken (R210). -/

namespace Sys2Proof.Machine

/-- NOP (R252) -/
def execNop (x : CtxId) (u : Upset) (s : State) : Out := .next (s.commandUpset x .nop 0 u)

/-- TRAP (R355) -/
def execTrap (x : CtxId) (u : Upset) (s : State) : Out := .next (s.commandUpset x .trap 0 u)

/-- BKPT (R359) -/
def execBkpt (x : CtxId) (u : Upset) (s : State) : Out := .next (s.commandUpset x .bkpt 0 u)

/-- SYNC (R358) -/
def execSync (x : CtxId) (u : Upset) (s : State) : Out := .next (s.commandUpset x .sync 0 u)

/-- FORM.W (R151) -/
def execFormW (x : CtxId) (u : Upset) (s : State) : Out := .next (s.commandUpset x .formW 0 u)

/-- FORM.B (R151) -/
def execFormB (x : CtxId) (u : Upset) (s : State) : Out := .next (s.commandUpset x .formB 0 u)

/-- SYSC (R353) -/
def execSysc (x : CtxId) (u : Upset) (s : State) : Out := .next (s.commandUpset x .sysc 0 u)

/-- SYSRET (R352) -/
def execSysret (x : CtxId) (u : Upset) (s : State) : Out := .next (s.commandUpset x .sysret 0 u)

/-- XRET (R352) -/
def execXret (x : CtxId) (u : Upset) (s : State) : Out := .next (s.commandUpset x .xret 0 u)

/-- GCALL (R369) -/
def execGcall (x : CtxId) (u : Upset) (s : State) : Out := .next (s.commandUpset x .gcall 0 u)

/-- GRET (R370) -/
def execGret (x : CtxId) (u : Upset) (s : State) : Out := .next (s.commandUpset x .gret 0 u)

/-- MONCALL (R380) -/
def execMoncall (x : CtxId) (u : Upset) (s : State) : Out := .next (s.commandUpset x .moncall 0 u)

/-- MONRET (R381) -/
def execMonret (x : CtxId) (u : Upset) (s : State) : Out := .next (s.commandUpset x .monret 0 u)

/-- MFSR (R123) -/
def execMfsr (x : CtxId) (u : Upset) (s : State) : Out := .next (s.commandUpset x .mfsr 0 u)

/-- MTSR (R123) -/
def execMtsr (x : CtxId) (u : Upset) (s : State) : Out := .next (s.commandUpset x .mtsr 0 u)

/-- RAND (R417) -/
def execRand (x : CtxId) (u : Upset) (s : State) : Out := .next (s.commandUpset x .rand 0 u)

/-- ADD (R153) -/
def execAdd (x : CtxId) (u : Upset) (s : State) : Out := .next (s.commandUpset x .add 0 u)

/-- SUB (R153) -/
def execSub (x : CtxId) (u : Upset) (s : State) : Out := .next (s.commandUpset x .sub 0 u)

/-- AND (R153) -/
def execAnd (x : CtxId) (u : Upset) (s : State) : Out := .next (s.commandUpset x .and 0 u)

/-- OR (R153) -/
def execOr (x : CtxId) (u : Upset) (s : State) : Out := .next (s.commandUpset x .or 0 u)

/-- XOR (R153) -/
def execXor (x : CtxId) (u : Upset) (s : State) : Out := .next (s.commandUpset x .xor 0 u)

/-- ANDN (R153) -/
def execAndn (x : CtxId) (u : Upset) (s : State) : Out := .next (s.commandUpset x .andn 0 u)

/-- SHL (R153) -/
def execShl (x : CtxId) (u : Upset) (s : State) : Out := .next (s.commandUpset x .shl 0 u)

/-- SHR (R153) -/
def execShr (x : CtxId) (u : Upset) (s : State) : Out := .next (s.commandUpset x .shr 0 u)

/-- SAR (R153) -/
def execSar (x : CtxId) (u : Upset) (s : State) : Out := .next (s.commandUpset x .sar 0 u)

/-- ROR (R153) -/
def execRor (x : CtxId) (u : Upset) (s : State) : Out := .next (s.commandUpset x .ror 0 u)

/-- MIN (R153) -/
def execMin (x : CtxId) (u : Upset) (s : State) : Out := .next (s.commandUpset x .min 0 u)

/-- MAX (R153) -/
def execMax (x : CtxId) (u : Upset) (s : State) : Out := .next (s.commandUpset x .max 0 u)

/-- MINU (R153) -/
def execMinu (x : CtxId) (u : Upset) (s : State) : Out := .next (s.commandUpset x .minu 0 u)

/-- MAXU (R153) -/
def execMaxu (x : CtxId) (u : Upset) (s : State) : Out := .next (s.commandUpset x .maxu 0 u)

/-- CMP (R153) -/
def execCmp (x : CtxId) (u : Upset) (s : State) : Out := .next (s.commandUpset x .cmp 0 u)

/-- CMPU (R153) -/
def execCmpu (x : CtxId) (u : Upset) (s : State) : Out := .next (s.commandUpset x .cmpu 0 u)

/-- MUL (R153) -/
def execMul (x : CtxId) (u : Upset) (s : State) : Out := .next (s.commandUpset x .mul 0 u)

/-- MULH (R153) -/
def execMulh (x : CtxId) (u : Upset) (s : State) : Out := .next (s.commandUpset x .mulh 0 u)

/-- MULHU (R153) -/
def execMulhu (x : CtxId) (u : Upset) (s : State) : Out := .next (s.commandUpset x .mulhu 0 u)

/-- DIV (R154) -/
def execDiv (x : CtxId) (u : Upset) (s : State) : Out := .next (s.commandUpset x .div 0 u)

/-- DIVU (R154) -/
def execDivu (x : CtxId) (u : Upset) (s : State) : Out := .next (s.commandUpset x .divu 0 u)

/-- REM (R154) -/
def execRem (x : CtxId) (u : Upset) (s : State) : Out := .next (s.commandUpset x .rem 0 u)

/-- REMU (R154) -/
def execRemu (x : CtxId) (u : Upset) (s : State) : Out := .next (s.commandUpset x .remu 0 u)

/-- CLZ (R153) -/
def execClz (x : CtxId) (u : Upset) (s : State) : Out := .next (s.commandUpset x .clz 0 u)

/-- CTZ (R153) -/
def execCtz (x : CtxId) (u : Upset) (s : State) : Out := .next (s.commandUpset x .ctz 0 u)

/-- POPC (R153) -/
def execPopc (x : CtxId) (u : Upset) (s : State) : Out := .next (s.commandUpset x .popc 0 u)

/-- SEXT (R153) -/
def execSext (x : CtxId) (u : Upset) (s : State) : Out := .next (s.commandUpset x .sext 0 u)

/-- ZEXT (R153) -/
def execZext (x : CtxId) (u : Upset) (s : State) : Out := .next (s.commandUpset x .zext 0 u)

/-- LI (R153) -/
def execLi (x : CtxId) (u : Upset) (s : State) : Out := .next (s.commandUpset x .li 0 u)

/-- LIS (R153) -/
def execLis (x : CtxId) (u : Upset) (s : State) : Out := .next (s.commandUpset x .lis 0 u)

/-- LD (R155) -/
def execLd (x : CtxId) (u : Upset) (s : State) : Out := .next (s.commandUpset x .ld 0 u)

/-- ST (R155) -/
def execSt (x : CtxId) (u : Upset) (s : State) : Out := .next (s.commandUpset x .st 0 u)

/-- CAS.D (R156) -/
def execCasD (x : CtxId) (u : Upset) (s : State) : Out := .next (s.commandUpset x .casD 0 u)

/-- LDU (R276) -/
def execLdu (x : CtxId) (u : Upset) (s : State) : Out := .next (s.commandUpset x .ldu 0 u)

/-- STU (R276) -/
def execStu (x : CtxId) (u : Upset) (s : State) : Out := .next (s.commandUpset x .stu 0 u)

/-- BCC (R158) -/
def execBcc (x : CtxId) (u : Upset) (s : State) : Out := .next (s.commandUpset x .bcc 0 u)

/-- DBCC (R185) -/
def execDbcc (x : CtxId) (u : Upset) (s : State) : Out := .next (s.commandUpset x .dbcc 0 u)

/-- BBS (R230) -/
def execBbs (x : CtxId) (u : Upset) (s : State) : Out := .next (s.commandUpset x .bbs 0 u)

/-- BBC (R230) -/
def execBbc (x : CtxId) (u : Upset) (s : State) : Out := .next (s.commandUpset x .bbc 0 u)

/-- BR (R158) -/
def execBr (x : CtxId) (u : Upset) (s : State) : Out := .next (s.commandUpset x .br 0 u)

/-- JMP (R159) -/
def execJmp (x : CtxId) (u : Upset) (s : State) : Out := .next (s.commandUpset x .jmp 0 u)

/-- CALL (R161) -/
def execCall (x : CtxId) (u : Upset) (s : State) : Out := .next (s.commandUpset x .call 0 u)

/-- CALLR (R161) -/
def execCallr (x : CtxId) (u : Upset) (s : State) : Out := .next (s.commandUpset x .callr 0 u)

/-- BAL (R160) -/
def execBal (x : CtxId) (u : Upset) (s : State) : Out := .next (s.commandUpset x .bal 0 u)

/-- BALR (R160) -/
def execBalr (x : CtxId) (u : Upset) (s : State) : Out := .next (s.commandUpset x .balr 0 u)

/-- RET (R162) -/
def execRet (x : CtxId) (u : Upset) (s : State) : Out := .next (s.commandUpset x .ret 0 u)

/-- LOOP (R164) -/
def execLoop (x : CtxId) (u : Upset) (s : State) : Out := .next (s.commandUpset x .loop 0 u)

/-- LEXIT (R168) -/
def execLexit (x : CtxId) (u : Upset) (s : State) : Out := .next (s.commandUpset x .lexit 0 u)

/-- MOVP (R183) -/
def execMovp (x : CtxId) (u : Upset) (s : State) : Out := .next (s.commandUpset x .movp 0 u)

/-- ADDP (R183) -/
def execAddp (x : CtxId) (u : Upset) (s : State) : Out := .next (s.commandUpset x .addp 0 u)

/-- SUBP (R183) -/
def execSubp (x : CtxId) (u : Upset) (s : State) : Out := .next (s.commandUpset x .subp 0 u)

/-- MULP (R183) -/
def execMulp (x : CtxId) (u : Upset) (s : State) : Out := .next (s.commandUpset x .mulp 0 u)

/-- DIVP (R183) -/
def execDivp (x : CtxId) (u : Upset) (s : State) : Out := .next (s.commandUpset x .divp 0 u)

/-- SHRP (R181) -/
def execShrp (x : CtxId) (u : Upset) (s : State) : Out := .next (s.commandUpset x .shrp 0 u)

/-- CMPP (R183) -/
def execCmpp (x : CtxId) (u : Upset) (s : State) : Out := .next (s.commandUpset x .cmpp 0 u)

/-- PACKA (R184) -/
def execPacka (x : CtxId) (u : Upset) (s : State) : Out := .next (s.commandUpset x .packa 0 u)

/-- UNPKA (R184) -/
def execUnpka (x : CtxId) (u : Upset) (s : State) : Out := .next (s.commandUpset x .unpka 0 u)

/-- DADD (R182) -/
def execDadd (x : CtxId) (u : Upset) (s : State) : Out := .next (s.commandUpset x .dadd 0 u)

/-- DSUB (R182) -/
def execDsub (x : CtxId) (u : Upset) (s : State) : Out := .next (s.commandUpset x .dsub 0 u)

/-- DNEG (R182) -/
def execDneg (x : CtxId) (u : Upset) (s : State) : Out := .next (s.commandUpset x .dneg 0 u)

/-- DABS (R182) -/
def execDabs (x : CtxId) (u : Upset) (s : State) : Out := .next (s.commandUpset x .dabs 0 u)

/-- DMUL (R182) -/
def execDmul (x : CtxId) (u : Upset) (s : State) : Out := .next (s.commandUpset x .dmul 0 u)

/-- DDIV (R182) -/
def execDdiv (x : CtxId) (u : Upset) (s : State) : Out := .next (s.commandUpset x .ddiv 0 u)

/-- DREM (R182) -/
def execDrem (x : CtxId) (u : Upset) (s : State) : Out := .next (s.commandUpset x .drem 0 u)

/-- DSRR (R181) -/
def execDsrr (x : CtxId) (u : Upset) (s : State) : Out := .next (s.commandUpset x .dsrr 0 u)

/-- DCMP (R182) -/
def execDcmp (x : CtxId) (u : Upset) (s : State) : Out := .next (s.commandUpset x .dcmp 0 u)

/-- DMOV (R179) -/
def execDmov (x : CtxId) (u : Upset) (s : State) : Out := .next (s.commandUpset x .dmov 0 u)

/-- CVBD (R182) -/
def execCvbd (x : CtxId) (u : Upset) (s : State) : Out := .next (s.commandUpset x .cvbd 0 u)

/-- CVDB (R182) -/
def execCvdb (x : CtxId) (u : Upset) (s : State) : Out := .next (s.commandUpset x .cvdb 0 u)

/-- DLD (R188) -/
def execDld (x : CtxId) (u : Upset) (s : State) : Out := .next (s.commandUpset x .dld 0 u)

/-- DST (R188) -/
def execDst (x : CtxId) (u : Upset) (s : State) : Out := .next (s.commandUpset x .dst 0 u)

/-- MVST (R199) -/
def execMvst (x : CtxId) (steps : Nat) (u : Upset) (s : State) : Out := .next (s.commandUpset x .mvst steps u)

/-- MVST.U (R276) -/
def execMvstU (x : CtxId) (steps : Nat) (u : Upset) (s : State) : Out := .next (s.commandUpset x .mvstU steps u)

/-- TRST (R199) -/
def execTrst (x : CtxId) (steps : Nat) (u : Upset) (s : State) : Out := .next (s.commandUpset x .trst steps u)

/-- SCNS (R202) -/
def execScns (x : CtxId) (steps : Nat) (u : Upset) (s : State) : Out := .next (s.commandUpset x .scns steps u)

/-- CMPS (R203) -/
def execCmps (x : CtxId) (steps : Nat) (u : Upset) (s : State) : Out := .next (s.commandUpset x .cmps steps u)

/-- EDIT (R207) -/
def execEdit (x : CtxId) (steps : Nat) (u : Upset) (s : State) : Out := .next (s.commandUpset x .edit steps u)

/-- EDPOS (R207) -/
def execEdpos (x : CtxId) (steps : Nat) (u : Upset) (s : State) : Out := .next (s.commandUpset x .edpos steps u)

/-- FADD (R225) -/
def execFadd (x : CtxId) (u : Upset) (s : State) : Out := .next (s.commandUpset x .fadd 0 u)

/-- FSUB (R225) -/
def execFsub (x : CtxId) (u : Upset) (s : State) : Out := .next (s.commandUpset x .fsub 0 u)

/-- FNEG (R225) -/
def execFneg (x : CtxId) (u : Upset) (s : State) : Out := .next (s.commandUpset x .fneg 0 u)

/-- FABS (R225) -/
def execFabs (x : CtxId) (u : Upset) (s : State) : Out := .next (s.commandUpset x .fabs 0 u)

/-- FMUL (R225) -/
def execFmul (x : CtxId) (u : Upset) (s : State) : Out := .next (s.commandUpset x .fmul 0 u)

/-- FMAC (R225) -/
def execFmac (x : CtxId) (u : Upset) (s : State) : Out := .next (s.commandUpset x .fmac 0 u)

/-- FMSU (R225) -/
def execFmsu (x : CtxId) (u : Upset) (s : State) : Out := .next (s.commandUpset x .fmsu 0 u)

/-- FACL (R225) -/
def execFacl (x : CtxId) (u : Upset) (s : State) : Out := .next (s.commandUpset x .facl 0 u)

/-- FSHA (R225) -/
def execFsha (x : CtxId) (u : Upset) (s : State) : Out := .next (s.commandUpset x .fsha 0 u)

/-- FRND (R225) -/
def execFrnd (x : CtxId) (u : Upset) (s : State) : Out := .next (s.commandUpset x .frnd 0 u)

/-- FMVA (R225) -/
def execFmva (x : CtxId) (u : Upset) (s : State) : Out := .next (s.commandUpset x .fmva 0 u)

/-- FMVG (R225) -/
def execFmvg (x : CtxId) (u : Upset) (s : State) : Out := .next (s.commandUpset x .fmvg 0 u)

/-- BSET (R230) -/
def execBset (x : CtxId) (u : Upset) (s : State) : Out := .next (s.commandUpset x .bset 0 u)

/-- BCLR (R230) -/
def execBclr (x : CtxId) (u : Upset) (s : State) : Out := .next (s.commandUpset x .bclr 0 u)

/-- BTAS (R230) -/
def execBtas (x : CtxId) (u : Upset) (s : State) : Out := .next (s.commandUpset x .btas 0 u)

/-- BTST (R230) -/
def execBtst (x : CtxId) (u : Upset) (s : State) : Out := .next (s.commandUpset x .btst 0 u)

/-- BFEXT (R230) -/
def execBfext (x : CtxId) (u : Upset) (s : State) : Out := .next (s.commandUpset x .bfext 0 u)

/-- BFINS (R230) -/
def execBfins (x : CtxId) (u : Upset) (s : State) : Out := .next (s.commandUpset x .bfins 0 u)

/-- BPOP (R230) -/
def execBpop (x : CtxId) (u : Upset) (s : State) : Out := .next (s.commandUpset x .bpop 0 u)

/-- BFF (R230) -/
def execBff (x : CtxId) (u : Upset) (s : State) : Out := .next (s.commandUpset x .bff 0 u)

/-- SPB.GO (R234) -/
def execSpbGo (x : CtxId) (u : Upset) (s : State) : Out := .next (s.commandUpset x .spbGo 0 u)

/-- SPB.WAIT (R235) -/
def execSpbWait (x : CtxId) (u : Upset) (s : State) : Out := .next (s.commandUpset x .spbWait 0 u)

/-- SITE.TAKE (R109) -/
def execSiteTake (x : CtxId) (u : Upset) (s : State) : Out := .next (s.commandUpset x .siteTake 0 u)

/-- SITE.POST (R110) -/
def execSitePost (x : CtxId) (u : Upset) (s : State) : Out := .next (s.commandUpset x .sitePost 0 u)

/-- SITE.SETTLE (R111) -/
def execSiteSettle (x : CtxId) (u : Upset) (s : State) : Out := .next (s.commandUpset x .siteSettle 0 u)

/-- LAPP (R427) -/
def execLapp (x : CtxId) (u : Upset) (s : State) : Out := .next (s.commandUpset x .lapp 0 u)

/-- TLBI (R296) -/
def execTlbi (x : CtxId) (u : Upset) (s : State) : Out := .next (s.commandUpset x .tlbi 0 u)

/-- TLBL (R293) -/
def execTlbl (x : CtxId) (u : Upset) (s : State) : Out := .next (s.commandUpset x .tlbl 0 u)

/-- TLBU (R294) -/
def execTlbu (x : CtxId) (u : Upset) (s : State) : Out := .next (s.commandUpset x .tlbu 0 u)

/-- KSET (R281) -/
def execKset (x : CtxId) (u : Upset) (s : State) : Out := .next (s.commandUpset x .kset 0 u)

/-- KGET (R281) -/
def execKget (x : CtxId) (u : Upset) (s : State) : Out := .next (s.commandUpset x .kget 0 u)

/-- KRST (R281) -/
def execKrst (x : CtxId) (u : Upset) (s : State) : Out := .next (s.commandUpset x .krst 0 u)

/-- KLOAD (R411) -/
def execKload (x : CtxId) (u : Upset) (s : State) : Out := .next (s.commandUpset x .kload 0 u)

/-- KERASE (R412) -/
def execKerase (x : CtxId) (u : Upset) (s : State) : Out := .next (s.commandUpset x .kerase 0 u)

end Sys2Proof.Machine
end

