-- ==== Sys2Proof/Machine/Dispatch.lean ====
section
/-! DEFINITION. The one dispatch of the commands to their meanings, one arm per constructor. -/

namespace Sys2Proof.Machine

/-- The effect of a command on everything but the queue of waiting commands. -/
def exec (i : Instr) (s : State) : Host.Outcome State Fault Refusal :=
  match i with
  | .registerWrite a addr data => Sys2Proof.Machine.execRegisterWrite a addr data s
  | .strobeDuringCycle => Sys2Proof.Machine.execStrobeDuringCycle s
  | .rcRead a addr => Sys2Proof.Machine.execRcRead a addr s
  | .loRead a addr => Sys2Proof.Machine.execLoRead a addr s
  | .hiRead a addr => Sys2Proof.Machine.execHiRead a addr s
  | .loWrite a addr data => Sys2Proof.Machine.execLoWrite a addr data s
  | .hiWrite a addr data => Sys2Proof.Machine.execHiWrite a addr data s
  | .validClear a addr data => Sys2Proof.Machine.execValidClear a addr data s
  | .apertureRead a addr u => Sys2Proof.Machine.execApertureRead a addr u s
  | .apertureWrite a addr data => Sys2Proof.Machine.execApertureWrite a addr data s
  | .timeout a addr write issued data => Sys2Proof.Machine.execTimeout a addr write issued data s
  | .mailboxWrite a addr data => Sys2Proof.Machine.execMailboxWrite a addr data s
  | .mailboxRead a addr found => Sys2Proof.Machine.execMailboxRead a addr found s
  | .h2dPost a data => Sys2Proof.Machine.execH2dPost a data s
  | .d2hAck a data => Sys2Proof.Machine.execD2hAck a data s
  | .messageConsumed words u => Sys2Proof.Machine.execMessageConsumed words u s
  | .reply code bytes => Sys2Proof.Machine.execReply code bytes s
  | .hbclkMeasure mhz => Sys2Proof.Machine.execHbclkMeasure mhz s
  | .rngDataRead a => Sys2Proof.Machine.execRngDataRead a s
  | .clkCtrlWrite a data => Sys2Proof.Machine.execClkCtrlWrite a data s
  | .phaseWrite a data => Sys2Proof.Machine.execPhaseWrite a data s
  | .start a data => Sys2Proof.Machine.execStart a data s
  | .abort a data => Sys2Proof.Machine.execAbort a data s
  | .updCtrlSecureRead a => Sys2Proof.Machine.execUpdCtrlSecureRead a s
  | .commit a data => Sys2Proof.Machine.execCommit a data s
  | .discard a data => Sys2Proof.Machine.execDiscard a data s
  | .tideStageWrite a addr data => Sys2Proof.Machine.execTideStageWrite a addr data s
  | .tideImmediateWrite a addr data => Sys2Proof.Machine.execTideImmediateWrite a addr data s
  | .tenantConversion n u => Sys2Proof.Machine.execTenantConversion n u s
  | .tideForce n => Sys2Proof.Machine.execTideForce n s
  | .fenceReq a data => Sys2Proof.Machine.execFenceReq a data s
  | .coreFenceDone c u => Sys2Proof.Machine.execCoreFenceDone c u s
  | .coreRelease a data => Sys2Proof.Machine.execCoreRelease a data s
  | .coreStart c bad => Sys2Proof.Machine.execCoreStart c bad s
  | .coreReturn a data => Sys2Proof.Machine.execCoreReturn a data s
  | .coreReturnDone c failed addr store => Sys2Proof.Machine.execCoreReturnDone c failed addr store s
  | .cxStart a x data => Sys2Proof.Machine.execCxStart a x data s
  | .enWritten1 a n data => Sys2Proof.Machine.execEnWritten1 a n data s
  | .enWritten0 a n data => Sys2Proof.Machine.execEnWritten0 a n data s
  | .holdWritten1 a n data => Sys2Proof.Machine.execHoldWritten1 a n data s
  | .holdWritten0 a n data => Sys2Proof.Machine.execHoldWritten0 a n data s
  | .fault a n data => Sys2Proof.Machine.execFault a n data s
  | .resume a n data => Sys2Proof.Machine.execResume a n data s
  | .autoReplay a n data u => Sys2Proof.Machine.execAutoReplay a n data u s
  | .ctrClear a n data => Sys2Proof.Machine.execCtrClear a n data s
  | .clearSettlement n u => Sys2Proof.Machine.execClearSettlement n u s
  | .sbJrnlTailWrite a n data u => Sys2Proof.Machine.execSbJrnlTailWrite a n data u s
  | .ringInstall a n data => Sys2Proof.Machine.execRingInstall a n data s
  | .cbPreempt a c data => Sys2Proof.Machine.execCbPreempt a c data s
  | .poolClear a c data => Sys2Proof.Machine.execPoolClear a c data s
  | .ctxBaseWrite a data => Sys2Proof.Machine.execCtxBaseWrite a data s
  | .siteBufBaseWrite a data => Sys2Proof.Machine.execSiteBufBaseWrite a data s
  | .keyBaseWrite a data => Sys2Proof.Machine.execKeyBaseWrite a data s
  | .secWeirWrite a data => Sys2Proof.Machine.execSecWeirWrite a data s
  | .sramWeirWrite a data => Sys2Proof.Machine.execSramWeirWrite a data s
  | .assignWrite a addr data => Sys2Proof.Machine.execAssignWrite a addr data s
  | .enclCommit a data => Sys2Proof.Machine.execEnclCommit a data s
  | .dbgEnWrite a data => Sys2Proof.Machine.execDbgEnWrite a data s
  | .wdtCtrlWrite a data => Sys2Proof.Machine.execWdtCtrlWrite a data s
  | .wdtKick a data => Sys2Proof.Machine.execWdtKick a data s
  | .watchdogWarning => Sys2Proof.Machine.execWatchdogWarning s
  | .swdt => Sys2Proof.Machine.execSwdt s
  | .ring a x data => Sys2Proof.Machine.execRing a x data s
  | .timerCompare x => Sys2Proof.Machine.execTimerCompare x s
  | .nmiN => Sys2Proof.Machine.execNmiN s
  | .nmiEntry x u => Sys2Proof.Machine.execNmiEntry x u s
  | .interruptEntry x u => Sys2Proof.Machine.execInterruptEntry x u s
  | .busErrorEntry x u => Sys2Proof.Machine.execBusErrorEntry x u s
  | .storeBusError x parity => Sys2Proof.Machine.execStoreBusError x parity s
  | .dispatchLoad cl u => Sys2Proof.Machine.execDispatchLoad cl u s
  | .tenantSave n u => Sys2Proof.Machine.execTenantSave n u s
  | .quantum cl => Sys2Proof.Machine.execQuantum cl s
  | .signalPresent k => Sys2Proof.Machine.execSignalPresent k s
  | .signalLost k => Sys2Proof.Machine.execSignalLost k s
  | .blockLock k => Sys2Proof.Machine.execBlockLock k s
  | .blockLockLost k => Sys2Proof.Machine.execBlockLockLost k s
  | .en a k data => Sys2Proof.Machine.execEn a k data s
  | .fenceWritten1 a k data => Sys2Proof.Machine.execFenceWritten1 a k data s
  | .fenceWritten0 a k data => Sys2Proof.Machine.execFenceWritten0 a k data s
  | .loopback a k data => Sys2Proof.Machine.execLoopback a k data s
  | .loopbackLock k errors => Sys2Proof.Machine.execLoopbackLock k errors s
  | .data k f u => Sys2Proof.Machine.execData k f u s
  | .ack k f u => Sys2Proof.Machine.execAck k f u s
  | .nak k f u => Sys2Proof.Machine.execNak k f u s
  | .heartbeat k f u => Sys2Proof.Machine.execHeartbeat k f u s
  | .hello k f u => Sys2Proof.Machine.execHello k f u s
  | .ackTimer k t => Sys2Proof.Machine.execAckTimer k t s
  | .retransmitTimeout n u => Sys2Proof.Machine.execRetransmitTimeout n u s
  | .heartbeatTimer k t => Sys2Proof.Machine.execHeartbeatTimer k t s
  | .stationLossTimeout k t => Sys2Proof.Machine.execStationLossTimeout k t s
  | .holdTimer n u => Sys2Proof.Machine.execHoldTimer n u s
  | .replay a k data u => Sys2Proof.Machine.execReplay a k data u s
  | .writeOff a k data u => Sys2Proof.Machine.execWriteOff a k data u s
  | .appendComplete n u => Sys2Proof.Machine.execAppendComplete n u s
  | .keyLoadOnDemand n u => Sys2Proof.Machine.execKeyLoadOnDemand n u s
  | .curlewRetry n u => Sys2Proof.Machine.execCurlewRetry n u s
  | .cwReqClear a data u => Sys2Proof.Machine.execCwReqClear a data u s
  | .kloadDone u => Sys2Proof.Machine.execKloadDone u s
  | .crProdWrite a k data u => Sys2Proof.Machine.execCrProdWrite a k data u s
  | .genkey k u => Sys2Proof.Machine.execGenkey k u s
  | .kwrapStaged k u => Sys2Proof.Machine.execKwrapStaged k u s
  | .verify k u => Sys2Proof.Machine.execVerify k u s
  | .counterResidueRetry n => Sys2Proof.Machine.execCounterResidueRetry n s
  | .count u up => Sys2Proof.Machine.execCount u up s
  | .repair u up => Sys2Proof.Machine.execRepair u up s
  | .rngReady => Sys2Proof.Machine.execRngReady s
  | .healthFail => Sys2Proof.Machine.execHealthFail s
  | .drbgReseed entropy => Sys2Proof.Machine.execDrbgReseed entropy s
  | .patrolScrub outcome apart => Sys2Proof.Machine.execPatrolScrub outcome apart s
  | .tlbiComplete core => Sys2Proof.Machine.execTlbiComplete core s
  | .porstN asserted => Sys2Proof.Machine.execPorstN asserted s
  | .resetN asserted => Sys2Proof.Machine.execResetN asserted s
  | .clkloss what => Sys2Proof.Machine.execClkloss what s
  | .refclkOk => Sys2Proof.Machine.execRefclkOk s
  | .serdesLossOfLock => Sys2Proof.Machine.execSerdesLossOfLock s
  | .brownout rail => Sys2Proof.Machine.execBrownout rail s
  | .droop out => Sys2Proof.Machine.execDroop out s
  | .thermtrip t => Sys2Proof.Machine.execThermtrip t s
  | .warn t => Sys2Proof.Machine.execWarn t s
  | .crit t => Sys2Proof.Machine.execCrit t s
  | .vidStep up => Sys2Proof.Machine.execVidStep up s
  | .internalResetEnd bmode => Sys2Proof.Machine.execInternalResetEnd bmode s
  | .zeroDone => Sys2Proof.Machine.execZeroDone s
  | .bootRom sramOk romOk badPatches nor u => Sys2Proof.Machine.execBootRom sramOk romOk badPatches nor u s
  | .trainingDone c0 c1 c2 c3 u => Sys2Proof.Machine.execTrainingDone c0 c1 c2 c3 u s
  | .sourceTimeout u => Sys2Proof.Machine.execSourceTimeout u s
  | .rngWaitTimeout => Sys2Proof.Machine.execRngWaitTimeout s
  | .bootData words u => Sys2Proof.Machine.execBootData words u s
  | .bootEnd u => Sys2Proof.Machine.execBootEnd u s
  | .reset => Sys2Proof.Machine.execReset s
  | .soft a data => Sys2Proof.Machine.execSoft a data s
  | .romLock a data => Sys2Proof.Machine.execRomLock a data s
  | .empty a => Sys2Proof.Machine.execEmpty a s
  | .erase a => Sys2Proof.Machine.execErase a s
  | .write a => Sys2Proof.Machine.execWrite a s
  | .markWritten a => Sys2Proof.Machine.execMarkWritten a s
  | .ueVerify a => Sys2Proof.Machine.execUeVerify a s
  | .activate a => Sys2Proof.Machine.execActivate a s
  | .confirm a => Sys2Proof.Machine.execConfirm a s
  | .retire a => Sys2Proof.Machine.execRetire a s
  | .calSave a => Sys2Proof.Machine.execCalSave a s
  | .ueCommandDone flash u => Sys2Proof.Machine.execUeCommandDone flash u s
  | .disable a data => Sys2Proof.Machine.execDisable a data s
  | .program a fuse => Sys2Proof.Machine.execProgram a fuse s
  | .fuseCtrlLcAdv a target => Sys2Proof.Machine.execFuseCtrlLcAdv a target s
  | .kvaultWrite a addr data => Sys2Proof.Machine.execKvaultWrite a addr data s
  | .testLogicReset => Sys2Proof.Machine.execTestLogicReset s
  | .extest pins update => Sys2Proof.Machine.execExtest pins update s
  | .idcode => Sys2Proof.Machine.execIdcode s
  | .samplePreload pins update => Sys2Proof.Machine.execSamplePreload pins update s
  | .clamp => Sys2Proof.Machine.execClamp s
  | .highz => Sys2Proof.Machine.execHighz s
  | .bypass code => Sys2Proof.Machine.execBypass code s
  | .idRead => Sys2Proof.Machine.execIdRead s
  | .calRead => Sys2Proof.Machine.execCalRead s
  | .portFuseSense => Sys2Proof.Machine.execPortFuseSense s
  | .fuseProg v => Sys2Proof.Machine.execFuseProg v s
  | .fusePulseDone complete => Sys2Proof.Machine.execFusePulseDone complete s
  | .sortGen v edges => Sys2Proof.Machine.execSortGen v edges s
  | .lcAdv v edges => Sys2Proof.Machine.execLcAdv v edges s
  | .dae v => Sys2Proof.Machine.execDae v s
  | .daeComplete u => Sys2Proof.Machine.execDaeComplete u s
  | .daeTimeout performed => Sys2Proof.Machine.execDaeTimeout performed s
  | .halt n ask => Sys2Proof.Machine.execHalt n ask s
  | .debugHalt x => Sys2Proof.Machine.execDebugHalt x s
  | .release n => Sys2Proof.Machine.execRelease n s
  | .step n => Sys2Proof.Machine.execStep n s
  | .tapReset v => Sys2Proof.Machine.execTapReset v s
  | .nop x u => Sys2Proof.Machine.execNop x u s
  | .trap x u => Sys2Proof.Machine.execTrap x u s
  | .bkpt x u => Sys2Proof.Machine.execBkpt x u s
  | .sync x u => Sys2Proof.Machine.execSync x u s
  | .formW x u => Sys2Proof.Machine.execFormW x u s
  | .formB x u => Sys2Proof.Machine.execFormB x u s
  | .sysc x u => Sys2Proof.Machine.execSysc x u s
  | .sysret x u => Sys2Proof.Machine.execSysret x u s
  | .xret x u => Sys2Proof.Machine.execXret x u s
  | .gcall x u => Sys2Proof.Machine.execGcall x u s
  | .gret x u => Sys2Proof.Machine.execGret x u s
  | .moncall x u => Sys2Proof.Machine.execMoncall x u s
  | .monret x u => Sys2Proof.Machine.execMonret x u s
  | .mfsr x u => Sys2Proof.Machine.execMfsr x u s
  | .mtsr x u => Sys2Proof.Machine.execMtsr x u s
  | .rand x u => Sys2Proof.Machine.execRand x u s
  | .add x u => Sys2Proof.Machine.execAdd x u s
  | .sub x u => Sys2Proof.Machine.execSub x u s
  | .and x u => Sys2Proof.Machine.execAnd x u s
  | .or x u => Sys2Proof.Machine.execOr x u s
  | .xor x u => Sys2Proof.Machine.execXor x u s
  | .andn x u => Sys2Proof.Machine.execAndn x u s
  | .shl x u => Sys2Proof.Machine.execShl x u s
  | .shr x u => Sys2Proof.Machine.execShr x u s
  | .sar x u => Sys2Proof.Machine.execSar x u s
  | .ror x u => Sys2Proof.Machine.execRor x u s
  | .min x u => Sys2Proof.Machine.execMin x u s
  | .max x u => Sys2Proof.Machine.execMax x u s
  | .minu x u => Sys2Proof.Machine.execMinu x u s
  | .maxu x u => Sys2Proof.Machine.execMaxu x u s
  | .cmp x u => Sys2Proof.Machine.execCmp x u s
  | .cmpu x u => Sys2Proof.Machine.execCmpu x u s
  | .mul x u => Sys2Proof.Machine.execMul x u s
  | .mulh x u => Sys2Proof.Machine.execMulh x u s
  | .mulhu x u => Sys2Proof.Machine.execMulhu x u s
  | .div x u => Sys2Proof.Machine.execDiv x u s
  | .divu x u => Sys2Proof.Machine.execDivu x u s
  | .rem x u => Sys2Proof.Machine.execRem x u s
  | .remu x u => Sys2Proof.Machine.execRemu x u s
  | .clz x u => Sys2Proof.Machine.execClz x u s
  | .ctz x u => Sys2Proof.Machine.execCtz x u s
  | .popc x u => Sys2Proof.Machine.execPopc x u s
  | .sext x u => Sys2Proof.Machine.execSext x u s
  | .zext x u => Sys2Proof.Machine.execZext x u s
  | .li x u => Sys2Proof.Machine.execLi x u s
  | .lis x u => Sys2Proof.Machine.execLis x u s
  | .ld x u => Sys2Proof.Machine.execLd x u s
  | .st x u => Sys2Proof.Machine.execSt x u s
  | .casD x u => Sys2Proof.Machine.execCasD x u s
  | .ldu x u => Sys2Proof.Machine.execLdu x u s
  | .stu x u => Sys2Proof.Machine.execStu x u s
  | .bcc x u => Sys2Proof.Machine.execBcc x u s
  | .dbcc x u => Sys2Proof.Machine.execDbcc x u s
  | .bbs x u => Sys2Proof.Machine.execBbs x u s
  | .bbc x u => Sys2Proof.Machine.execBbc x u s
  | .br x u => Sys2Proof.Machine.execBr x u s
  | .jmp x u => Sys2Proof.Machine.execJmp x u s
  | .call x u => Sys2Proof.Machine.execCall x u s
  | .callr x u => Sys2Proof.Machine.execCallr x u s
  | .bal x u => Sys2Proof.Machine.execBal x u s
  | .balr x u => Sys2Proof.Machine.execBalr x u s
  | .ret x u => Sys2Proof.Machine.execRet x u s
  | .loop x u => Sys2Proof.Machine.execLoop x u s
  | .lexit x u => Sys2Proof.Machine.execLexit x u s
  | .movp x u => Sys2Proof.Machine.execMovp x u s
  | .addp x u => Sys2Proof.Machine.execAddp x u s
  | .subp x u => Sys2Proof.Machine.execSubp x u s
  | .mulp x u => Sys2Proof.Machine.execMulp x u s
  | .divp x u => Sys2Proof.Machine.execDivp x u s
  | .shrp x u => Sys2Proof.Machine.execShrp x u s
  | .cmpp x u => Sys2Proof.Machine.execCmpp x u s
  | .packa x u => Sys2Proof.Machine.execPacka x u s
  | .unpka x u => Sys2Proof.Machine.execUnpka x u s
  | .dadd x u => Sys2Proof.Machine.execDadd x u s
  | .dsub x u => Sys2Proof.Machine.execDsub x u s
  | .dneg x u => Sys2Proof.Machine.execDneg x u s
  | .dabs x u => Sys2Proof.Machine.execDabs x u s
  | .dmul x u => Sys2Proof.Machine.execDmul x u s
  | .ddiv x u => Sys2Proof.Machine.execDdiv x u s
  | .drem x u => Sys2Proof.Machine.execDrem x u s
  | .dsrr x u => Sys2Proof.Machine.execDsrr x u s
  | .dcmp x u => Sys2Proof.Machine.execDcmp x u s
  | .dmov x u => Sys2Proof.Machine.execDmov x u s
  | .cvbd x u => Sys2Proof.Machine.execCvbd x u s
  | .cvdb x u => Sys2Proof.Machine.execCvdb x u s
  | .dld x u => Sys2Proof.Machine.execDld x u s
  | .dst x u => Sys2Proof.Machine.execDst x u s
  | .mvst x steps u => Sys2Proof.Machine.execMvst x steps u s
  | .mvstU x steps u => Sys2Proof.Machine.execMvstU x steps u s
  | .trst x steps u => Sys2Proof.Machine.execTrst x steps u s
  | .scns x steps u => Sys2Proof.Machine.execScns x steps u s
  | .cmps x steps u => Sys2Proof.Machine.execCmps x steps u s
  | .edit x steps u => Sys2Proof.Machine.execEdit x steps u s
  | .edpos x steps u => Sys2Proof.Machine.execEdpos x steps u s
  | .fadd x u => Sys2Proof.Machine.execFadd x u s
  | .fsub x u => Sys2Proof.Machine.execFsub x u s
  | .fneg x u => Sys2Proof.Machine.execFneg x u s
  | .fabs x u => Sys2Proof.Machine.execFabs x u s
  | .fmul x u => Sys2Proof.Machine.execFmul x u s
  | .fmac x u => Sys2Proof.Machine.execFmac x u s
  | .fmsu x u => Sys2Proof.Machine.execFmsu x u s
  | .facl x u => Sys2Proof.Machine.execFacl x u s
  | .fsha x u => Sys2Proof.Machine.execFsha x u s
  | .frnd x u => Sys2Proof.Machine.execFrnd x u s
  | .fmva x u => Sys2Proof.Machine.execFmva x u s
  | .fmvg x u => Sys2Proof.Machine.execFmvg x u s
  | .bset x u => Sys2Proof.Machine.execBset x u s
  | .bclr x u => Sys2Proof.Machine.execBclr x u s
  | .btas x u => Sys2Proof.Machine.execBtas x u s
  | .btst x u => Sys2Proof.Machine.execBtst x u s
  | .bfext x u => Sys2Proof.Machine.execBfext x u s
  | .bfins x u => Sys2Proof.Machine.execBfins x u s
  | .bpop x u => Sys2Proof.Machine.execBpop x u s
  | .bff x u => Sys2Proof.Machine.execBff x u s
  | .spbGo x u => Sys2Proof.Machine.execSpbGo x u s
  | .spbWait x u => Sys2Proof.Machine.execSpbWait x u s
  | .siteTake x u => Sys2Proof.Machine.execSiteTake x u s
  | .sitePost x u => Sys2Proof.Machine.execSitePost x u s
  | .siteSettle x u => Sys2Proof.Machine.execSiteSettle x u s
  | .lapp x u => Sys2Proof.Machine.execLapp x u s
  | .tlbi x u => Sys2Proof.Machine.execTlbi x u s
  | .tlbl x u => Sys2Proof.Machine.execTlbl x u s
  | .tlbu x u => Sys2Proof.Machine.execTlbu x u s
  | .kset x u => Sys2Proof.Machine.execKset x u s
  | .kget x u => Sys2Proof.Machine.execKget x u s
  | .krst x u => Sys2Proof.Machine.execKrst x u s
  | .kload x u => Sys2Proof.Machine.execKload x u s
  | .kerase x u => Sys2Proof.Machine.execKerase x u s
  | .storePerformed x => Sys2Proof.Machine.execStorePerformed x s
  | .fuseCtrlDone verified => Sys2Proof.Machine.execFuseCtrlDone verified s
  | .enclCommitDone u => Sys2Proof.Machine.execEnclCommitDone u s
  | .interfaceAcceptsCycles => Sys2Proof.Machine.execInterfaceAcceptsCycles s

end Sys2Proof.Machine
end

