-- ==== Sys2Proof/Safety.lean ====
section
/-! DEFINITION. The terms that claims about the machine use: a state whose memory is in canonical form, what a command
answers, a register access that reaches its register, and an instruction that executes alone. -/

namespace Sys2Proof.Machine

/-! ## Canonical form -/

/-- Memory, the flash window and the poison map are in canonical form. -/
def State.canonical (s : State) : Bool := Memory.wf s.mem && smWf s.flash 0xFF && smWf s.poison false

/-! ## Answers -/

/-- A command answers a next state with a property. -/
def Answers (i : Instr) (s : State) (p : State → Prop) : Prop := ∃ t, exec i s = .next t ∧ p t

/-! ## Register accesses (R45, R57, R62, R377, R395) -/

/-- Whether a write access is let through to a register at once: the host's in its window, with good parity, to no secure
source; a context's where the world check passes, the key array does not lie there and no earlier store of it waits (R313);
the debug access engine's where it is allowed. -/
def State.reaches (s : State) (a : Access) (r : Reg) (d : Word32) : Bool :=
  match a.req with
  | .host => s.answers && (match r.hostAddr with
      | none => false
      | some x => hapGood a (x % 2 ^ 24) true) && decide (badLanes a d = 0) && !s.hostShut r
  | .ctx x => (decide ((s.ctx x).world = .secure) || !s.deviceSecure r.addr true) && !s.inKeyArray r.addr
      && (s.ctx x).storeBuf.isEmpty
  | .dae _ => s.daeAllowed r.addr true

/-- The requester as pairs and worlds see it. -/
def whoOf (a : Access) : Requester :=
  match a.req with
  | .host => .host
  | .ctx x => .ctx x
  | .dae _ => .dae .nonSecure

/-- The world in which a write access reaches a register (R62, R372, R526). -/
def State.accWorld (s : State) (a : Access) (r : Reg) : World :=
  match a.req with
  | .host => .nonSecure
  | .ctx x => (s.ctx x).world
  | .dae _ => s.daeWorld r.addr true

/-- Whether a read access is let through to a register at once: a context's where no earlier store of it waits (R313). -/
def State.readsReg (s : State) (a : Access) (r : Reg) : Bool :=
  match a.req with
  | .host => s.answers && (match r.hostAddr with
      | none => false
      | some x => hapGood a (x % 2 ^ 24) false)
  | .ctx x => (decide ((s.ctx x).world = .secure) || !s.deviceSecure r.addr false) && (s.ctx x).storeBuf.isEmpty
  | .dae _ => s.daeAllowed r.addr false

/-- The world in which a read access sees a register (R60, R526). -/
def State.readWorld (s : State) (a : Access) (r : Reg) : World :=
  match a.req with
  | .host => .nonSecure
  | .ctx x => (s.ctx x).world
  | .dae _ => s.daeWorld r.addr false

/-- Whether an access names a register by its address. -/
def namesReg (a : Access) (addr : PhysAddr) (r : Reg) : Prop := regAddrFor a.req r = some addr.toNat

/-- A write access that is complete: the host is answered (R42). -/
def State.complete (t : State) (a : Access) : State :=
  match a.req with
  | .host => t.done 0
  | .ctx _ => t
  | .dae _ => t

/-- What a write of a `_HI` register makes of the `_LO` half (R22): the lanes staged for the requester replace its bits. -/
def State.newLo (s : State) (a : Access) (lo : Reg) : Word32 :=
  mergeBits (s.reg lo) (laneMask (s.stagedOf (whoOf a) lo).2 &&& lo.pairMask) (s.stagedOf (whoOf a) lo).1

/-- What a write of a `_HI` register makes of that half itself (R19, R22): the enabled lanes replace its bits, and a W1S bit
is set by writing 1. -/
def State.newHi (s : State) (a : Access) (lo : Reg) (d : Word32) : Word32 :=
  let m := laneMask (lanesOf a)
  let hi := lo.hiOf
  mergeBits (s.reg hi) (m &&& hi.spec.rw ||| (m &&& hi.pairMask &&& ~~~hi.spec.w1s)) d ||| (m &&& hi.spec.w1s &&& d)

/-- A write of a `_HI` register that takes hold (R22): both halves hold their new values, what else the register does
happens, and nothing is staged any more. -/
def State.pairTaken (s : State) (a : Access) (lo : Reg) (d : Word32) (e : State → State) : State :=
  (e ((s.dropLo (whoOf a) lo).setPair lo (s.newLo a lo) (s.newHi a lo d))).complete a

/-- A write of a `_HI` register that is ignored (R22): nothing is staged any more, and nothing else changes. -/
def State.pairIgnored (s : State) (a : Access) (lo : Reg) : State := (s.dropLo (whoOf a) lo).complete a

/-! ## Instructions that execute alone -/

/-- A context with nothing under way that an instruction would meet or leave behind: no delay bundle, no loop end at the PC,
no string instruction in progress, no load outstanding, no step, and nothing due. -/
def Ctx.quiet (c : Ctx) : Bool :=
  c.delay.isNone && !c.atLoopEnd && !c.sip && c.loads.isEmpty && !bitAt c.csw 7 && !c.stepping && !c.stepDue
    && c.trapDue.isNone

/-- The one instruction that a context executes next, with its fetch and the state after the fetch, where the context can
run, is quiet, no tide is stopping the contexts (R505), and the PC holds an instruction or a bundle of one syllable whose
prefixes the context may use. -/
def State.alone (s : State) (x : CtxId) : Option (Ins × Fetched × State) :=
  if s.canRun x && (s.ctx x).delay.isNone && !s.tide.stopping then
    match s.fetch x with
    | .exc _ _ => none
    | .ok f s1 =>
      match f.insns with
      | [i] =>
        if (s1.ctx x).quiet && !s1.inReset && !((i.uao || i.keyo) && (s1.ctx x).isUser) then some (i, f, s1) else none
      | _ => none
  else none

/-- What retiring leaves in a context beside the instruction's own writes and its PC: the fetch after a transfer and the
handler's first instruction are past, the shadow has executed, and the context is in the enclave it fetched from. -/
def Ctx.retired (c : Ctx) (own : Option Nat) : Ctx := { c with entering := none, arrival := .none, shadow := false, inEncl := own }

/-- The state after an instruction that only writes its own context and goes on in sequence: the writes, and the PC after
the instruction. -/
def State.afterIns (s : State) (x : CtxId) (f : Fetched) (u : Ctx → Ctx) : State :=
  s.upCtx x (fun c => (u (c.retired f.own)).goTo f.next)

/-- The value of a register or immediate operand; none for a memory operand. -/
def Ctx.operand (c : Ctx) (o : Opnd) : Option Word :=
  match o with
  | .reg r => some (c.getG r)
  | .imm v => some (wordInt v)
  | .mem _ => none

/-- The access controls of an instruction (R276, R277, R386). -/
def Ins.controls (i : Ins) (f : Fetched) : AccCtl := { um := if i.uao then .uao else .none, keyo := i.keyo, own := f.own }

/-- The value that a load of each variant gives (R155): LD.B, LD.BU, LD.H, LD.HU, LD.W, LD.WU and LD.D. -/
def loadedWord (sub v : Nat) : Word :=
  match sub with
  | 0 => (BitVec.ofNat 8 v).signExtend 64
  | 1 => (BitVec.ofNat 8 v).setWidth 64
  | 2 => (BitVec.ofNat 16 v).signExtend 64
  | 3 => (BitVec.ofNat 16 v).setWidth 64
  | 4 => (BitVec.ofNat 32 v).signExtend 64
  | 5 => (BitVec.ofNat 32 v).setWidth 64
  | _ => BitVec.ofNat 64 v

/-- Where a transfer leaves its context (R146, R157 to R161, R173): in B-form a call pushes the address after it and a taken
transfer goes to its target; in W-form the delay bundle is next and the transfer is made when that retires. `asShadow` says that
the transfer executes as a shadow (R152). -/
def Ctx.transferred (c : Ctx) (asShadow : Bool) (f : Fetched) (taken : Bool) (target : Word) (call : Bool) : Ctx :=
  if c.wform then
    { c.goTo f.next with
      delay := some { addr := c.pc, target := target, taken := taken, call := call, replay := false, shadow := asShadow } }
  else
    let c1 := if call then c.push (retPtr false f.next) else c
    if taken then c1.jumpTo target asShadow else c1.goTo f.next

/-- The state after a transfer that also updates its own context. -/
def State.afterTransfer (s : State) (x : CtxId) (f : Fetched) (taken : Bool) (target : Word) (call : Bool)
    (u : Ctx → Ctx) : State :=
  s.upCtx x (fun c => (u (c.retired f.own)).transferred (s.ctx x).shadow f taken target call)

/-- The state after an instruction that goes on in sequence and whose effect reaches beyond its context: the fetch is past, the
effect happens, and the PC moves past it. -/
def State.through (s : State) (x : CtxId) (f : Fetched) (e : State → State) : State :=
  (e (s.upCtx x (fun c => c.retired f.own))).upCtx x (fun c => c.goTo f.next)

/-- The state after a mode change that only writes its own context: what follows is a shadow, but after a shadow (R152). -/
def State.afterMode (s : State) (x : CtxId) (f : Fetched) (u : Ctx → Ctx) : State :=
  s.upCtx x (fun c => { u (c.retired f.own) with shadow := !c.shadow, modes := (u (c.retired f.own)).modes + 1 })

/-- A context reads a byte of memory at a virtual address: the access is translated and passes every check, and the byte's word
holds no poison for it. -/
def State.readsByte (s : State) (x : CtxId) (ctl : AccCtl) (va : Nat) (pa : Nat) (b : Byte) (t : State) : Prop :=
  s.xlate x ctl .read va = .ok pa t ∧ t.refused x .read pa 1 = false ∧ t.region pa ≠ .device ∧ t.readPoison x pa = false
    ∧ t.peekByte x pa = b

/-- The D registers of a list carry their residues and hold valid fields (R176, R178, R197). -/
def Ctx.validD (c : Ctx) (l : List (BitVec 3)) : Bool :=
  c.residuesOk l && l.all (fun r => (badNibble (regNibbles (c.getD r))).isNone)

/-- A result that a D register holds, under R177 and R180: its low 31 digits with the sign, and whether it overflowed; none
where it overflows with CSW.DOVT set. -/
def Ctx.decResult (c : Ctx) (v : Int) : Option (BitVec 128 × Bool) :=
  if v.natAbs < 10 ^ 31 then some ({ mag := v.natAbs, sign := signNibble c.duns v, ovf := false : DecOut }.toReg, false)
  else if c.dovt then none
  else some ({ mag := v.natAbs % 10 ^ 31, sign := signNibble c.duns v, ovf := true : DecOut }.toReg, true)

/-- q is num / den rounded under a mode (R181, R223): 0 toward zero, 1 to nearest with ties away from zero, 2 to nearest with
ties to even, 3 away from zero. -/
def roundsTo (rm : Nat) (num : Int) (den : Nat) (q : Int) : Prop :=
  let e := 2 * ((num.natAbs : Int) - q.natAbs * den)
  (q ≠ 0 → (q < 0 ↔ num < 0))
    ∧ (rm = 0 → 0 ≤ e ∧ e < 2 * den)
    ∧ (rm = 1 → -den ≤ e ∧ e < den)
    ∧ (rm = 2 → -den ≤ e ∧ e ≤ den ∧ ((e = den ∨ e = -den) → q % 2 = 0))
    ∧ (3 ≤ rm → -(2 * (den : Int)) < e ∧ e ≤ 0)

/-- r is q held to w bits (R223), and whether that saturated, which CSW.FSAT must permit. -/
def saturates (c : Ctx) (q : Int) (w : Nat) (r : Int) (sat : Bool) : Prop :=
  (-(2 ^ (w - 1)) ≤ q ∧ q < 2 ^ (w - 1) ∧ r = q ∧ sat = false)
    ∨ (c.fsat = true ∧ sat = true ∧ ((2 ^ (w - 1) ≤ q ∧ r = 2 ^ (w - 1) - 1) ∨ (q < -(2 ^ (w - 1)) ∧ r = -(2 ^ (w - 1)))))

end Sys2Proof.Machine
end

