-- ==== Sys2Proof/Certificates/Slice0/Obligations.lean ====
section
/-! DEFINITION. The statements about the model, for the provers. Those about instructions take `s.alone x = some (i, f, s1)`:
context x executes the one instruction i next, in B-form or as a bundle of one syllable, f is its fetch and s1 the state after
the fetch. An equation `exec … = .next t` gives the whole next state, so it says the result and that nothing else changes. -/

open Sys2Proof Sys2Proof.Machine

/-! ## The queue -/

/-- A step takes the command at the front of the queue and runs it on the state with the rest of the queue; on an empty
queue the block idles for a REFCLK cycle, in which TIME advances by 10 outside reset, and beside TIME only what runs by
itself goes on: the entropy source, the update engine's blocks and a PLL that locks again (notes/assumptions/5.md). -/
def Obligations.StepRunsTheFrontCommand : Prop :=
  (∀ (s : State) (i : Instr) (rest : List Instr), step { s with pending := i :: rest } = exec i { s with pending := rest })
  ∧ (∀ s : State, s.pending = [] → s.inReset = false → ∃ t, step s = .next t ∧ t.time = s.time + 10 ∧ t.mem = s.mem ∧ t.ctxs = s.ctxs
      ∧ t.sites = s.sites ∧ t.links = s.links ∧ t.cores = s.cores ∧ t.curlew = s.curlew
      ∧ (s.elec.refclkOk = true → s.drbg.instantiated = true → s.ue.block = none → s.elec.pllLock = 0xF →
        t = { s with time := s.time + 10 }))
  ∧ (∀ s : State, s.pending = [] → s.inReset = true → ∃ t, step s = .next t ∧ t = { s with elec := t.elec, free := t.free }
      ∧ (t.elec.pllLock = s.elec.pllLock ∨ (s.elec.refclkOk = true ∧ t.elec.pllLock = 0xF))
      ∧ (s.elec.refclkOk = false ∨ s.elec.pllLock = 0xF → t = s))

/-! ## Integer instructions (spec/06) -/

/-- R153, R154: the result of every instruction of Table 6.1 that has two sources, in both forms and for register and immediate
operands; the context's PC moves past it and nothing else changes. A result written to G0 is discarded. -/
def Obligations.TwoSourceIntegerResults : Prop :=
  (∀ (c : Ctx) (v : Word), c.setG 0 v = c)
  ∧ ∀ (s s1 : State) (x : CtxId) (i : Ins) (f : Fetched) (d : BitVec 5) (a b : Opnd) (A B : Word),
    s.alone x = some (i, f, s1) → i.ops = [.reg d, a, b] → (s1.ctx x).operand a = some A → (s1.ctx x).operand b = some B →
    let lands := fun (v : Word) => (.next (s1.afterIns x f (fun c => c.setG d v)) : Out)
    let n := B.toNat % 64
    (i.op = .add → exec (.add x) s = lands (A + B))
    ∧ (i.op = .sub → exec (.sub x) s = lands (A - B))
    ∧ (i.op = .and → exec (.and x) s = lands (A &&& B))
    ∧ (i.op = .or → exec (.or x) s = lands (A ||| B))
    ∧ (i.op = .xor → exec (.xor x) s = lands (A ^^^ B))
    ∧ (i.op = .andn → exec (.andn x) s = lands (A &&& ~~~B))
    ∧ (i.op = .shl → exec (.shl x) s = lands (A <<< n))
    ∧ (i.op = .shr → exec (.shr x) s = lands (A >>> n))
    ∧ (i.op = .sar → exec (.sar x) s = lands (BitVec.ofInt 64 (A.toInt / 2 ^ n)))
    ∧ (i.op = .ror → exec (.ror x) s = lands (A >>> n ||| A <<< (64 - n)))
    ∧ (i.op = .min → exec (.min x) s = lands (if A.toInt ≤ B.toInt then A else B))
    ∧ (i.op = .max → exec (.max x) s = lands (if A.toInt ≤ B.toInt then B else A))
    ∧ (i.op = .minu → exec (.minu x) s = lands (if A.toNat ≤ B.toNat then A else B))
    ∧ (i.op = .maxu → exec (.maxu x) s = lands (if A.toNat ≤ B.toNat then B else A))
    ∧ (i.op = .cmp → exec (.cmp x) s = lands (if A.toInt < B.toInt then -1 else if A = B then 0 else 1))
    ∧ (i.op = .cmpu → exec (.cmpu x) s = lands (if A.toNat < B.toNat then -1 else if A = B then 0 else 1))
    ∧ (i.op = .mul → exec (.mul x) s = lands (BitVec.ofNat 64 (A.toNat * B.toNat)))
    ∧ (i.op = .mulh → exec (.mulh x) s = lands ((A.signExtend 128 * B.signExtend 128).extractLsb' 64 64))
    ∧ (i.op = .mulhu → exec (.mulhu x) s = lands ((A.setWidth 128 * B.setWidth 128).extractLsb' 64 64))
    ∧ (i.op = .div → exec (.div x) s = lands (if B = 0 then 0 else BitVec.ofInt 64 (A.toInt.tdiv B.toInt)))
    ∧ (i.op = .divu → exec (.divu x) s = lands (if B = 0 then 0 else A.udiv B))
    ∧ (i.op = .rem → exec (.rem x) s = lands (if B = 0 then A else BitVec.ofInt 64 (A.toInt.tmod B.toInt)))
    ∧ (i.op = .remu → exec (.remu x) s = lands (if B = 0 then A else A.umod B))

/-- R153: the result of every instruction of Table 6.1 that has one source. -/
def Obligations.OneSourceIntegerResults : Prop :=
  ∀ (s s1 : State) (x : CtxId) (i : Ins) (f : Fetched) (d : BitVec 5) (a : Opnd) (A : Word),
    s.alone x = some (i, f, s1) → i.ops = [.reg d, a] → (s1.ctx x).operand a = some A →
    let lands := fun (v : Word) => (.next (s1.afterIns x f (fun c => c.setG d v)) : Out)
    (i.op = .clz → exec (.clz x) s = lands (if A = 0 then 64 else BitVec.ofNat 64 (63 - A.toNat.log2)))
    ∧ (i.op = .ctz → A = 0 → exec (.ctz x) s = lands 64)
    ∧ (i.op = .ctz → ∀ k, k < 64 → bitAt A k = true → (∀ j, j < k → bitAt A j = false) →
        exec (.ctz x) s = lands (BitVec.ofNat 64 k))
    ∧ (i.op = .popc → exec (.popc x) s = lands (BitVec.ofNat 64 ((List.range 64).filter (fun k => bitAt A k)).length))
    ∧ (i.op = .sext → i.sub = 0 → exec (.sext x) s = lands ((A.setWidth 8).signExtend 64))
    ∧ (i.op = .sext → i.sub = 1 → exec (.sext x) s = lands ((A.setWidth 16).signExtend 64))
    ∧ (i.op = .sext → i.sub = 2 → exec (.sext x) s = lands ((A.setWidth 32).signExtend 64))
    ∧ (i.op = .zext → i.sub = 0 → exec (.zext x) s = lands (A &&& 0xFF))
    ∧ (i.op = .zext → i.sub = 1 → exec (.zext x) s = lands (A &&& 0xFFFF))
    ∧ (i.op = .zext → i.sub = 2 → exec (.zext x) s = lands (A &&& 0xFFFFFFFF))
    ∧ (i.op = .li → exec (.li x) s = lands A)

/-- R153: LIS replaces the 16 bits of Gd that its field selects. -/
def Obligations.LisReplacesSixteenBits : Prop :=
  ∀ (s s1 : State) (x : CtxId) (i : Ins) (f : Fetched) (d : BitVec 5),
    s.alone x = some (i, f, s1) → i.op = .lis → i.ops = [.reg d] → i.sub < 4 → i.num < 2 ^ 16 →
    exec (.lis x) s = .next (s1.afterIns x f (fun c => c.setG d
      (((s1.ctx x).getG d &&& ~~~(0xFFFF#64 <<< (16 * i.sub))) ||| (BitVec.ofNat 64 i.num <<< (16 * i.sub)))))

/-! ## Form, trap and breakpoint, barriers, system registers (spec/05, spec/15, spec/17) -/

/-- R252: NOP changes nothing but the PC. R151: FORM.W goes on in W-form at the lowest multiple of 4 at or after its end, and
FORM.B in B-form at the address after it; what follows is a shadow (R152) but after a shadow. R355, R359: TRAP retires, and
vector 23 is entered at the boundary after it with its code in XINFO; BKPT enters vector 22 with the PC at the BKPT. R358: a
SYNC performs the earlier stores of its context; with no TLBI of the context outstanding and no error recorded it then goes
on. -/
def Obligations.NopFormTrapBreakpointAndSync : Prop :=
  ((∀ (s s1 : State) (x : CtxId) (i : Ins) (f : Fetched), s.alone x = some (i, f, s1) →
        (i.op = .nop → exec (.nop x) s = .next (s1.afterIns x f id))
        ∧ (i.op = .formW → (s1.ctx x).anyLevel = false → exec (.formW x) s = .next (s1.upCtx x (fun c =>
            { (c.retired f.own).goTo ((f.next + 3) / 4 * 4) with
              csw := setBit c.csw 0 true, shadow := !c.shadow, modes := c.modes + 1 })))
        ∧ (i.op = .formB → (s1.ctx x).anyLevel = false → exec (.formB x) s = .next (s1.upCtx x (fun c =>
            { (c.retired f.own).goTo f.next with csw := setBit c.csw 0 false, shadow := !c.shadow, modes := c.modes + 1 }))))
    ∧ (∀ (s s1 : State) (x : CtxId) (i : Ins) (f : Fetched), s.alone x = some (i, f, s1) →
        (i.op = .trap → (s1.ctx x).haltReq = false → (s1.ctx x).stopped = false →
          exec (.trap x) s = .next ((s1.afterIns x f id).enter x 23 (s1.ctx x).world
            { xpc := BitVec.ofNat 48 f.next, xaddr := 0, xinfo := i.num % 256, async := false, dly := none }))
        ∧ (i.op = .bkpt → s1.fromClosed f.own = false →
          exec (.bkpt x) s = .next (s1.enter x 22 (s1.ctx x).world
            { xpc := (s1.ctx x).pc, xaddr := 0, xinfo := 1, async := false, dly := none }))))
  ∧ (∀ (s s1 : State) (x : CtxId) (i : Ins) (f : Fetched), s.alone x = some (i, f, s1) → i.op = .sync →
      s1.tlbiPending x = false → (s1.drain x).inReset = false → ((s1.drain x).ctx x).quiet = true →
      ((s1.drain x).ctx x).storeErr = none →
      exec (.sync x) s = .next ((s1.drain x).afterIns x f id))



/-- R123 to R125, R417: MFSR gives a register the value of the system register of its number, MTSR writes it, where the number
is assigned and the context has the right; RAND gives 8 bytes with 1 in its second register, or 0 and 0 where no randomness is
ready. -/
def Obligations.SystemRegisterInstructions : Prop :=
  ∀ (s s1 : State) (x : CtxId) (i : Ins) (f : Fetched), s.alone x = some (i, f, s1) →
    (∀ (d : BitVec 5) (v : Word), i.op = .mfsr → i.ops = [.reg d] → (s1.ctx x).sysGet x i.num = some v →
      sysRightExc (s1.ctx x) i.num false = none → exec (.mfsr x) s = .next (s1.afterIns x f (fun c => c.setG d v)))
    ∧ (∀ (d : BitVec 5) (v : Word), i.op = .mtsr → i.ops = [.reg d] → (s1.ctx x).sysGet x i.num = some v →
      sysRightExc (s1.ctx x) i.num true = none → ((s1.ctx x).sysSet i.num ((s1.ctx x).getG d)).atLoopEnd = false →
      exec (.mtsr x) s = .next (s1.afterIns x f (fun c => c.sysSet i.num ((s1.ctx x).getG d))))
    ∧ (∀ d v : BitVec 5, i.op = .rand → i.ops = [.reg d, .reg v] → s1.rngReady = true →
      exec (.rand x) s = .next ((s1.drawBytes 8).2.afterIns x f (fun c =>
        (c.setG d (BitVec.ofNat 64 (leNat (s1.drawBytes 8).1))).setG v 1)))
    ∧ (∀ d v : BitVec 5, i.op = .rand → i.ops = [.reg d, .reg v] → s1.rngReady = false →
      exec (.rand x) s = .next (s1.afterIns x f (fun c => (c.setG d 0).setG v 0)))

/-- Tables 5.1 and 5.2: a system register that MTSR may write reads back the bits that it implements. -/
def Obligations.SystemRegistersHoldWhatIsWritten : Prop :=
  ∀ (c : Ctx) (x : CtxId) (v : Word),
    (∀ n ∈ ([0x004, 0x005] : List Nat), (c.sysSet n v).sysGet x n = some v)
    ∧ (c.sysSet 0x000 v).sysGet x 0x000 =
        some ((c.csw &&& ~~~(if c.isUser then 0xF00#64 else 0xFE0#64)) ||| (v &&& (if c.isUser then 0xF00#64 else 0xFE0#64)))
    ∧ (c.sysSet 0x001 v).sysGet x 0x001 = some (v &&& 0xF1)
    ∧ (c.sysSet 0x002 v).sysGet x 0x002 = some (v &&& 0x3)
    ∧ (c.sysSet 0x003 v) = c
    ∧ (∀ n ∈ ([0x010, 0x011, 0x012, 0x014, 0x015, 0x016, 0x020, 0x021, 0x022, 0x023] : List Nat),
        (c.sysSet n v).sysGet x n = some (v &&& 0xFFFFFFFFFFFF))
    ∧ (∀ n ∈ ([0x018, 0x019, 0x01A, 0x024, 0x025, 0x026, 0x027] : List Nat), (c.sysSet n v).sysGet x n = some (v &&& 0xFFFFFFFF))
    ∧ (∀ n ∈ ([0x030, 0x031, 0x032, 0x033] : List Nat), (c.sysSet n v).sysGet x n = some v)
    ∧ (∀ b ∈ ([0x100, 0x200, 0x300] : List Nat),
        (∀ o ∈ ([0x02, 0x03, 0x04, 0x05, 0x06, 0x10, 0x11, 0x12] : List Nat), (c.sysSet (b + o) v).sysGet x (b + o) = some v)
        ∧ (∀ o ∈ ([0x00, 0x01, 0x18] : List Nat), (c.sysSet (b + o) v).sysGet x (b + o) = some (v &&& 0xFFFFFFFFFFFF))
        ∧ (∀ o ∈ ([0x08, 0x09, 0x0A, 0x0B] : List Nat), c.sysSet (b + o) v = c))

/-! ## Transfers and loops (spec/06) -/

/-- R157 to R162: every transfer of Table 6.2 but the decimal and bit branches and the link branches: its condition, its target
in the current form (RET's in the form of the popped entry), the push of a call and the pop of a return. -/
def Obligations.TransfersGoToTheirTargets : Prop :=
  ∀ (s s1 : State) (x : CtxId) (i : Ins) (f : Fetched), s.alone x = some (i, f, s1) →
    let c := s1.ctx x
    let form := fun (a : Word) => (setBit a 63 c.wform : Word)
    let direct := form (BitVec.ofNat 64 c.fetchAddr + BitVec.ofInt 64 i.imm)
    (i.op = .br → exec (.br x) s = .next (s1.afterTransfer x f true direct false id))
    ∧ (i.op = .call → c.pushTraps = false → exec (.call x) s = .next (s1.afterTransfer x f true direct true id))
    ∧ (∀ r : BitVec 5, i.op = .jmp → i.ops = [.reg r] →
        exec (.jmp x) s = .next (s1.afterTransfer x f true (form (c.getG r)) false id))
    ∧ (∀ r : BitVec 5, i.op = .callr → i.ops = [.reg r] → c.pushTraps = false →
        exec (.callr x) s = .next (s1.afterTransfer x f true (form (c.getG r)) true id))
    ∧ (∀ (a b : Opnd) (A B : Word), i.op = .bcc → i.ops = [a, b] → c.operand a = some A → c.operand b = some B →
        let goes := fun (t : Bool) => exec (.bcc x) s = .next (s1.afterTransfer x f t direct false id)
        (i.sub = 0 → goes (decide (A = B))) ∧ (i.sub = 1 → goes (decide (A ≠ B)))
        ∧ (i.sub = 2 → goes (decide (A.toInt < B.toInt))) ∧ (i.sub = 3 → goes (decide (B.toInt ≤ A.toInt)))
        ∧ (i.sub = 4 → goes (decide (A.toNat < B.toNat))) ∧ (i.sub = 5 → goes (decide (B.toNat ≤ A.toNat))))
    ∧ (i.op = .ret → c.rsp ≠ 0 → (bitAt c.top 63 = c.wform ∨ c.anyLevel = false) →
        exec (.ret x) s = .next (s1.afterTransfer x f true (smGet c.rs 0 (c.rsp.toNat - 1)) false
          (fun c => { c with rsp := c.rsp - 1 })))

/-- R160: BAL and BALR write the return code pointer in the current form and transfer; in B-form it is the address after the
instruction, in W-form the address after the delay bundle. BALR reads Gs before Gd is written. What the last two clauses say
is the model's reading and no rule (notes/assumptions/32.md): a delay bundle that can be read and does not decode has the
size up to its end bit. -/
def Obligations.LinkBranchesWriteTheReturnPointer : Prop :=
  ∀ (s s1 : State) (x : CtxId) (i : Ins) (f : Fetched), s.alone x = some (i, f, s1) →
    let c := s1.ctx x
    let form := fun (a : Word) => (setBit a 63 c.wform : Word)
    let direct := form (BitVec.ofNat 64 c.fetchAddr + BitVec.ofInt 64 i.imm)
    let link := fun (d : BitVec 5) (a : Nat) (target : Word) =>
      (.next (s1.afterTransfer x f true target false (fun c => c.setG d (form (BitVec.ofNat 64 a)))) : Out)
    let delayed := s1.upCtx x (fun c => { c.goTo f.next with
      inEncl := f.own, delay := some { addr := c.pc, target := 0, taken := false, call := false, replay := false, shadow := false } })
    (∀ d : BitVec 5, i.op = .bal → i.ops = [.reg d] → c.wform = false → exec (.bal x) s = link d f.next direct)
    ∧ (∀ d r : BitVec 5, i.op = .balr → i.ops = [.reg d, .reg r] → c.wform = false →
        exec (.balr x) s = link d f.next (form (c.getG r)))
    ∧ (∀ (d : BitVec 5) (g : Fetched) (s2 : State), i.op = .bal → i.ops = [.reg d] → c.wform = true → delayed.fetch x = .ok g s2 →
        exec (.bal x) s = link d g.next direct)
    ∧ (∀ (d r : BitVec 5) (g : Fetched) (s2 : State), i.op = .balr → i.ops = [.reg d, .reg r] → c.wform = true →
        delayed.fetch x = .ok g s2 → exec (.balr x) s = link d g.next (form (c.getG r)))
    ∧ (∀ (d : BitVec 5) (e : Exc) (n : Nat) (t : State), i.op = .bal → i.ops = [.reg d] → c.wform = true →
        delayed.fetch x = .exc e t → delayed.bundleLen x = some n → exec (.bal x) s = link d (f.next + 4 * n) direct)
    ∧ (∀ (d r : BitVec 5) (e : Exc) (n : Nat) (t : State), i.op = .balr → i.ops = [.reg d, .reg r] → c.wform = true →
        delayed.fetch x = .exc e t → delayed.bundleLen x = some n →
        exec (.balr x) s = link d (f.next + 4 * n) (form (c.getG r)))

/-- R164, R168: LOOP arms its level with start, end and count where Table 6.4 names no fault; LEXIT clears its level and those
above. -/
def Obligations.LoopsArmAndExit : Prop :=
  ∀ (s s1 : State) (x : CtxId) (i : Ins) (f : Fetched), s.alone x = some (i, f, s1) → i.sub < 3 →
    let start : VirtAddr := BitVec.ofNat 48 f.next
    let stop : VirtAddr := BitVec.ofNat 48 (f.next + i.num)
    (∀ (a : Opnd) (A : Word), i.op = .loop → i.ops = [a] → (s1.ctx x).operand a = some A →
      A.toNat % 2 ^ 32 ≠ 0 → A.toNat < 2 ^ 32 → (s1.ctx x).lact i.sub = false →
      (∀ j, j < 3 → (s1.ctx x).lact j = true → j < i.sub ∧ stop ≤ smGet (s1.ctx x).lpe 0 j) → stop ≠ (s1.ctx x).pc →
      exec (.loop x) s = .next (s1.afterIns x f (fun c => { c with
        lps := smSet c.lps 0 i.sub start, lpe := smSet c.lpe 0 i.sub stop, lpc := smSet c.lpc 0 i.sub (A.setWidth 32)
        csw := setBit c.csw (13 + i.sub) true })))
    ∧ (i.op = .lexit → exec (.lexit x) s = .next (s1.afterIns x f (fun c => { c with
        csw := setBits c.csw 15 (13 + i.sub) 0 })))

/-! ## Loads, stores, compare-and-swap, keys and look-aside buffers (spec/06, spec/11, spec/12) -/

/-- R155, R276: a load reads the bytes at its aligned address, little-endian, and extends them as its suffix says; LDU reads as
user and zero-extends. The registers of its address mode are updated, the frame's REF is set, and nothing else changes. In
W-form the value is written two bundles later (R143). -/
def Obligations.LoadsReadMemory : Prop :=
  ∀ (s s1 s2 : State) (x : CtxId) (i : Ins) (f : Fetched) (d : BitVec 5) (m : AMode) (ea n pa : Nat)
    (us : List (BitVec 5 × Word)) (ctl : AccCtl),
    s.alone x = some (i, f, s1) → i.ops = [.reg d, .mem m] →
    effAddr (s1.ctx x) (s1.ctx x).fetchAddr n m = .ok (ea, us) → ea % n = 0 →
    s1.checkRead x ctl .read true (pagePieces ea n) = .ok [(pa, n)] s2 → s2.region pa ≠ .device →
    s2.inReset = false → (s2.ctx x).quiet = true →
    let v := leNat ((List.range n).map (fun k => s2.peekByte x (pa + k)))
    let lands := fun (w : Word) => (.next ((s2.touch pa n false).afterIns x f (fun c =>
      let c1 := c.applyG us
      if c1.wform then { c1 with loads := c1.loads ++ [{ reg := d.toNat, val := w.setWidth 128, left := 2 }] }
      else c1.setG d w)) : Out)
    (i.op = .ld → i.sub < 7 → n = [1, 1, 2, 2, 4, 4, 8].getD i.sub 0 → ctl = i.controls f →
      exec (.ld x) s = lands (loadedWord i.sub v))
    ∧ (i.op = .ldu → i.sub < 4 → n = [1, 2, 4, 8].getD i.sub 0 → ctl = { i.controls f with um := .asUser } →
      exec (.ldu x) s = lands (BitVec.ofNat 64 v))

/-- R155, R276, R313: a store to memory puts the low bytes of its source into its context's store buffer at the translated
address; the registers of its address mode are updated, and nothing else changes: memory changes when the store is
performed. -/
def Obligations.StoresEnterTheStoreBuffer : Prop :=
  ∀ (s s1 s2 : State) (x : CtxId) (i : Ins) (f : Fetched) (r : BitVec 5) (m : AMode) (ea n pa : Nat)
    (us : List (BitVec 5 × Word)) (ctl : AccCtl),
    s.alone x = some (i, f, s1) → i.ops = [.mem m, .reg r] →
    effAddr (s1.ctx x) (s1.ctx x).fetchAddr n m = .ok (ea, us) → ea % n = 0 → i.sub < 4 → n = [1, 2, 4, 8].getD i.sub 0 →
    s1.checkWrite x ctl ea n = .ok [(pa, n)] s2 → pa % n = 0 → s2.storesExit x n pa = false →
    s2.inReset = false → (s2.ctx x).quiet = true →
    let v := if (s1.ctx x).wform then (s1.ctx x).getG r else ((s1.ctx x).applyG us).getG r
    let lands : Out := .next (s2.afterIns x f (fun c =>
      { c.applyG us with
        storeBuf := c.storeBuf ++ [{ addr := pa, bytes := leBytes n v.toNat, world := c.world, word := true }] }))
    (i.op = .st → ctl = i.controls f → exec (.st x) s = lands)
    ∧ (i.op = .stu → ctl = { i.controls f with um := .asUser } → exec (.stu x) s = lands)

/-- R156: CAS.D reads the aligned 8 bytes, writes Gs there where they equal Gd, and gives Gd what it read in either case (in
W-form two bundles later, R143). With no earlier store of its context waiting and no poison, every byte outside the 8 and
outside the key array is unchanged, and so are every other context and every register. -/
def Obligations.CompareAndSwapIsOneAccess : Prop :=
  ∀ (s s1 s2 : State) (x : CtxId) (i : Ins) (f : Fetched) (d r : BitVec 5) (m : AMode) (ea pa : Nat)
    (us : List (BitVec 5 × Word)),
    s.alone x = some (i, f, s1) → i.op = .casD → i.ops = [.reg d, .mem m, .reg r] →
    effAddr (s1.ctx x) (s1.ctx x).fetchAddr 8 m = .ok (ea, us) → ea % 8 = 0 →
    s1.checkRead x (i.controls f) .rw false (pagePieces ea 8) = .ok [(pa, 8)] s2 → pa % 8 = 0 → s2.poisoned pa = false →
    s2.inReset = false → (s2.ctx x).quiet = true → (s2.ctx x).storeBuf = [] → (∀ k, k < 8 → s2.inKeyArray (pa + k) = false) →
    (s2.keyV = true → s2.poisoned (s2.keyBase + pa / 4096) = false) →
    let old := BitVec.ofNat 64 (leNat ((List.range 8).map (fun k => s2.memByte (pa + k))))
    let gs := if (s1.ctx x).wform then (s1.ctx x).getG r else ((s1.ctx x).applyG us).getG r
    let new := if old = (s1.ctx x).getG d then gs else old
    Answers (.casD x) s (fun t =>
      t.ctx x = (let c := ((s2.ctx x).retired f.own).applyG us
        if c.wform then { c with loads := c.loads ++ [{ reg := d.toNat, val := old.setWidth 128, left := 2 }] }
        else c.setG d old).goTo f.next
      ∧ (∀ k, k < 8 → t.memByte (pa + k) = byteOf new.toNat k)
      ∧ (∀ a, (a < pa ∨ pa + 8 ≤ a) → s2.inKeyArray a = false → t.memByte a = s2.memByte a)
      ∧ (∀ y, y ≠ x → t.ctx y = s2.ctx y) ∧ t.regs = s2.regs)

/-- R281: KSET, KGET and KRST of a frame of installed DRAM, by a supervisor that may: KSET writes the key byte, KGET reads
it, KRST clears its REF bit and gives its old value; while KEY_BASE.V is clear the byte reads 0 and nothing is written. What the
three clauses on a poisoned word say is the model's choice and no rule, since Table 14.3 names no key instruction
(notes/assumptions/67.md): the byte is read with a consumption counted, and is not written, which is counted as well, and the
instruction completes with no machine check and no record. -/
def Obligations.KeyInstructionsReachTheKeyArray : Prop :=
  ∀ (s s1 : State) (x : CtxId) (i : Ins) (f : Fetched) (p q : BitVec 5),
    s.alone x = some (i, f, s1) → i.ops = [.reg p, .reg q] → (s1.ctx x).isUser = false →
    let c := s1.ctx x
    let may := fun (a : Word) => a.toNat < s1.dramSize ∧ (c.world = .secure ∨ s1.secWeir ≤ a.toNat)
    let place := fun (a : Word) => s1.keyBase + a.toNat / 4096
    let key := fun (a : Word) => if s1.keyV then s1.memByte (place a) else 0
    let put := fun (a : Word) (b : Byte) => if s1.keyV then { s1 with mem := memSet s1.mem (place a) b } else s1
    let lost := fun (a : Word) => s1.keyV = true ∧ s1.poisoned (place a) = true
    (i.op = .kset → may (c.getG p) → lost (c.getG p) →
      exec (.kset x) s = .next ((s1.bumpSat (.d .integPoisonDrop) 1).afterIns x f id))
    ∧ (i.op = .kget → may (c.getG q) → lost (c.getG q) → s1.upset = [] →
      exec (.kget x) s = .next ((s1.bumpSat (.d .integPoisonUse) 1).afterIns x f (fun c' =>
        c'.setG p (BitVec.ofNat 64 (key (c.getG q)).toNat))))
    ∧ (i.op = .krst → may (c.getG q) → lost (c.getG q) → s1.upset = [] →
      exec (.krst x) s = .next (((s1.bumpSat (.d .integPoisonUse) 1).bumpSat (.d .integPoisonDrop) 1).afterIns x f (fun c' =>
        c'.setG p (BitVec.ofNat 64 (key (c.getG q)).toNat))))
    ∧ (i.op = .kset → may (c.getG p) → ¬ lost (c.getG p) →
      exec (.kset x) s = .next ((put (c.getG p) (BitVec.ofNat 8 ((c.getG q).toNat % 256))).afterIns x f id))
    ∧ (i.op = .kget → may (c.getG q) → ¬ lost (c.getG q) →
      exec (.kget x) s = .next (s1.afterIns x f (fun c' => c'.setG p (BitVec.ofNat 64 (key (c.getG q)).toNat))))
    ∧ (i.op = .krst → may (c.getG q) → ¬ lost (c.getG q) →
      exec (.krst x) s = .next ((put (c.getG q) (key (c.getG q) &&& 0xBF)).afterIns x f (fun c' =>
        c'.setG p (BitVec.ofNat 64 (key (c.getG q)).toNat))))

/-- R293, R294, R299: TLBL loads the slot of its core's locked array with the translation that the lookup gives, TLBU empties
one, and TLBI joins the invalidations of its core that have not completed, of which there are at most four. -/
def Obligations.LookasideInstructionsComplete : Prop :=
  ∀ (s s1 : State) (x : CtxId) (i : Ins) (f : Fetched), s.alone x = some (i, f, s1) → (s1.ctx x).isUser = false →
    let c := s1.ctx x
    let k := coreOf x
    let lock := fun (t : State) (slot : Nat) (e : Option TlbEntry) =>
      t.setCore k { t.core k with locked := smSet (t.core k).locked none slot e }
    (∀ (p q : BitVec 5) (t : TlbEntry) (s2 : State), i.op = .tlbl → i.ops = [.reg p, .reg q] →
      s1.lockTarget { x := x, c := c, own := f.own, pc := c.fetchAddr, pa := f.pa, next := f.next, steps := 0 }
        ((c.getG p).toNat % 16) (c.getG q).toNat = .ok t s2 → s2.inReset = false → (s2.ctx x).quiet = true →
      exec (.tlbl x) s = .next ((lock s2 ((c.getG p).toNat % 16) (some t)).afterIns x f id))
    ∧ (∀ p : BitVec 5, i.op = .tlbu → i.ops = [.reg p] →
      exec (.tlbu x) s = .next ((lock s1 ((c.getG p).toNat % 16) none).afterIns x f id))
    ∧ (∀ p q : BitVec 5, i.op = .tlbi → i.ops = [.reg p, .reg q] → (bitAt (c.getG q) 24 = false ∨ c.world = .secure) →
      (s1.core k).tlbis.length < 4 → i.num < 8 →
      exec (.tlbi x) s = .next ((s1.setCore k { s1.core k with tlbis := (s1.core k).tlbis ++
        [{ ctx := x, span := BitVec.ofNat 2 i.num, walk := decide (4 ≤ i.num), va := (c.getG p).toNat % 2 ^ 48
           sel := c.getG q }] }).afterIns x f id))

/-! ## Packed decimal (spec/07) -/

/-- R177, R179 to R182, R196: the register decimal instructions on D registers whose residues and fields are valid: the exact
result to the capacity of 31 digits, with the sign R177 gives; an overflow keeps the low 31 digits and sets DSTAT.OVF, where
CSW.DOVT is clear. -/
def Obligations.DecimalRegisterResults : Prop :=
  ∀ (s s1 : State) (x : CtxId) (i : Ins) (f : Fetched), s.alone x = some (i, f, s1) →
    let c := s1.ctx x
    let dn := fun (r : BitVec 5) => (r.setWidth 3 : BitVec 3)
    let val := fun (r : BitVec 5) => c.decValue (dn r)
    let gives := fun (o : Instr) (d : BitVec 5) (v : Int) (inexact : Bool) => ∀ (w : BitVec 128) (ovf : Bool),
      c.decResult v = some (w, ovf) → exec o s = .next (s1.afterIns x f (fun c => { c.setD (dn d) w with
        dstat := c.dstat ||| (if ovf then 1 else 0) ||| (if inexact then 2 else 0) }))
    (∀ d a b : BitVec 5, i.ops = [.reg d, .reg a, .reg b] → c.validD [dn a, dn b] = true →
      (i.op = .dadd → gives (.dadd x) d (val a + val b) false)
      ∧ (i.op = .dsub → gives (.dsub x) d (val a - val b) false)
      ∧ (i.op = .dmul → gives (.dmul x) d (val a * val b) false)
      ∧ (i.op = .ddiv → val b ≠ 0 → gives (.ddiv x) d ((val a).tdiv (val b)) false)
      ∧ (i.op = .drem → val b ≠ 0 → gives (.drem x) d ((val a).tmod (val b)) false)
      ∧ (i.op = .dcmp → exec (.dcmp x) s = .next (s1.afterIns x f (fun c =>
          c.setG d (if val a < val b then -1 else if val a = val b then 0 else 1)))))
    ∧ (∀ d a : BitVec 5, i.ops = [.reg d, .reg a] →
      (i.op = .dneg → c.validD [dn a] = true → gives (.dneg x) d (-(val a)) false)
      ∧ (i.op = .dabs → c.validD [dn a] = true → gives (.dabs x) d (val a).natAbs false)
      ∧ (i.op = .dsrr → 0 ≤ i.imm → c.validD [dn a] = true → gives (.dsrr x) d (val a * 10 ^ i.imm.toNat) false)
      ∧ (i.op = .dsrr → i.imm < 0 → c.validD [dn a] = true → ∀ q : Int,
          roundsTo i.rm (val a) (10 ^ (-i.imm).toNat) q → gives (.dsrr x) d q (decide ((val a) % 10 ^ (-i.imm).toNat ≠ 0)))
      ∧ (i.op = .dmov → c.residuesOk [dn a] = true →
          exec (.dmov x) s = .next (s1.afterIns x f (fun c' => c'.setD (dn d) (c.getD (dn a)))))
      ∧ (i.op = .cvbd → gives (.cvbd x) d (c.getG a).toInt false)
      ∧ (i.op = .cvdb → c.validD [dn a] = true → -(2 ^ 63) ≤ val a → val a < 2 ^ 63 →
          exec (.cvdb x) s = .next (s1.afterIns x f (fun c' => c'.setG d (BitVec.ofInt 64 (val a)))))
      ∧ (i.op = .cvdb → c.validD [dn a] = true → (val a < -(2 ^ 63) ∨ 2 ^ 63 ≤ val a) → c.dovt = false →
          exec (.cvdb x) s = .next (s1.afterIns x f (fun c' =>
            { c'.setG d (BitVec.ofInt 64 (val a)) with dstat := c'.dstat ||| 1 }))))
    ∧ (∀ a b : BitVec 5, i.op = .dbcc → i.ops = [.reg a, .reg b] → (regData c 1 [dn a, dn b]) = none →
      let goes := fun (t : Bool) => exec (.dbcc x) s = .next (s1.afterTransfer x f t
        (setBit (BitVec.ofNat 64 c.fetchAddr + BitVec.ofInt 64 i.imm) 63 c.wform) false id)
      (i.sub = 0 → goes (decide (val a = val b))) ∧ (i.sub = 1 → goes (decide (val a ≠ val b)))
      ∧ (i.sub = 2 → goes (decide (val a < val b))) ∧ (i.sub = 3 → goes (decide (val b ≤ val a))))

/-- R183 to R187: the memory decimal instructions, for operands that are translated and readable and hold valid fields: the
operand bytes read, the result to the capacity of operand 1 (2·L1 − 1 digits) put into the store buffer for its place, the
address registers and DSTAT updated. -/
def Obligations.DecimalMemoryResults : Prop :=
  ∀ (s s1 sa s2 : State) (x : CtxId) (i : Ins) (f : Fetched) (k : Kind) (ea1 ea2 : Nat) (us : List (BitVec 5 × Word))
    (ps1 ps2 : List (Nat × Nat)),
    s.alone x = some (i, f, s1) →
    s1.xlatePieces x (i.controls f) k (pagePieces ea1 i.l1) = .ok ps1 sa →
    sa.xlatePieces x (i.controls f) .read (pagePieces ea2 i.l2) = .ok ps2 s2 →
    (k = .write ∨ s2.readPhase x k ((pagePieces ea1 i.l1).zip ps1) = .ok () s2) →
    s2.readPhase x .read ((pagePieces ea2 i.l2).zip ps2) = .ok () s2 → s2.inReset = false → (s2.ctx x).quiet = true →
    let env := envOf s1 x f 0
    let b1 := s2.peekPieces x ps1
    let b2 := s2.peekPieces x ps2
    let ok := fun (b : List Byte) => badNibble (memNibbles b) = none
    let reads := if k = .write then s2.touchPieces ps2 false else (s2.touchPieces ps1 false).touchPieces ps2 false
    let two := evalOpnds env i (s1.ctx x) 0 i.ops = .ok ([.mem ea1, .mem ea2], us)
    let stores := fun (o : Instr) (bytes : List Byte) (ovf : Bool) =>
      exec o s = .next ((reads.retireStore x false ps1 bytes).afterIns x f (fun c =>
        { c.applyG us with dstat := c.dstat ||| (if ovf then 1 else 0) }))
    let gives := fun (o : Instr) (v : Int) => ∀ w : DecOut, deliver (s1.ctx x) v (2 * i.l1 - 1) = some w →
      stores o (w.toMem i.l1) w.ovf
    0 < i.l1 →
    (i.op = .addp → two → k = .rw → ok b1 → ok b2 → gives (.addp x) (memValue b1 + memValue b2))
    ∧ (i.op = .subp → two → k = .rw → ok b1 → ok b2 → gives (.subp x) (memValue b1 - memValue b2))
    ∧ (i.op = .mulp → two → k = .rw → ok b1 → ok b2 → gives (.mulp x) (memValue b1 * memValue b2))
    ∧ (i.op = .divp → two → k = .rw → ok b1 → ok b2 → memValue b2 ≠ 0 → gives (.divp x) ((memValue b1).tdiv (memValue b2)))
    ∧ (i.op = .movp → two → k = .write → ok b2 → gives (.movp x) (memValue b2))
    ∧ (i.op = .packa → two → k = .write → badChar b2 = none → gives (.packa x) (charValue b2))
    ∧ (i.op = .unpka → two → k = .write → ok b2 → (memValue b2).natAbs < 10 ^ i.l1 →
        stores (.unpka x) (asciiDigits i.l1 (memValue b2).natAbs) false)
    ∧ (i.op = .unpka → two → k = .write → ok b2 → 10 ^ i.l1 ≤ (memValue b2).natAbs → (s1.ctx x).dovt = false →
        stores (.unpka x) (asciiDigits i.l1 ((memValue b2).natAbs % 10 ^ i.l1)) true)
    ∧ (∀ d v, i.op = .cmpp → evalOpnds env i (s1.ctx x) 0 i.ops = .ok ([.reg d v, .mem ea1, .mem ea2], us) → k = .read →
        ok b1 → ok b2 → exec (.cmpp x) s = .next (reads.afterIns x f (fun c => (c.applyG us).setG d
          (if memValue b1 < memValue b2 then -1 else if memValue b1 = memValue b2 then 0 else 1))))

/-- R181, R183: SHRP shifts operand 1 by its signed count and rounds, with DSTAT.INEXACT where a digit other than 0 is
discarded. -/
def Obligations.ShrpShiftsAndRounds : Prop :=
  ∀ (s s1 s2 : State) (x : CtxId) (i : Ins) (f : Fetched) (ea : Nat) (v : Val) (us : List (BitVec 5 × Word))
    (ps : List (Nat × Nat)),
    s.alone x = some (i, f, s1) → i.op = .shrp → 0 < i.l1 →
    evalOpnds (envOf s1 x f 0) i (s1.ctx x) 0 i.ops = .ok ([.mem ea, v], us) →
    s1.xlatePieces x (i.controls f) .rw (pagePieces ea i.l1) = .ok ps s2 →
    s2.readPhase x .rw ((pagePieces ea i.l1).zip ps) = .ok () s2 → s2.inReset = false → (s2.ctx x).quiet = true →
    let b := s2.peekPieces x ps
    let n := shrpCount v.word
    badNibble (memNibbles b) = none →
    ∀ (r : Int) (w : DecOut), (0 ≤ n → r = memValue b * 10 ^ n.toNat) →
      (n < 0 → roundsTo i.rm (memValue b) (10 ^ (-n).toNat) r) →
      deliver (s1.ctx x) r (2 * i.l1 - 1) = some w →
      exec (.shrp x) s = .next (((s2.touchPieces ps false).retireStore x false ps (w.toMem i.l1)).afterIns x f (fun c =>
        { c.applyG us with dstat := c.dstat ||| (if w.ovf then 1 else 0)
            ||| (if n < 0 ∧ memValue b % 10 ^ (-n).toNat ≠ 0 then 2 else 0) }))

/-- R179, R188, R190: DLD fills a D register with L bytes, the bits above cleared and no digit checked; DST stores the value of
one to the capacity of L bytes with a produced sign. R177, R180: a result that fits its capacity is delivered whole, with its
sign (for plus, the code that CSW.DUNS chooses); one that does not is delivered as its low digits with overflow, or not at all
with CSW.DOVT. -/
def Obligations.DecimalLoadStoreAndDelivery : Prop :=
  (∀ (s s1 s2 : State) (x : CtxId) (i : Ins) (f : Fetched) (us : List (BitVec 5 × Word)) (ps : List (Nat × Nat)) (d : BitVec 5)
      (v : Word) (ea : Nat), s.alone x = some (i, f, s1) → 0 < i.l1 → s2.inReset = false → (s2.ctx x).quiet = true →
      let dn : BitVec 3 := d.setWidth 3
      (i.op = .dld → evalOpnds (envOf s1 x f 0) i (s1.ctx x) 0 i.ops = .ok ([.reg d v, .mem ea], us) →
        s1.checkRead x (i.controls f) .read false (pagePieces ea i.l1) = .ok ps s2 →
        exec (.dld x) s = .next ((s2.touchPieces ps false).afterIns x f (fun c =>
          let w := BitVec.ofNat 128 (beNat (s2.peekPieces x ps))
          let c1 := c.applyG us
          if c1.wform then { c1 with loads := c1.loads ++ [{ reg := 32 + dn.toNat, val := w, left := 2 }] } else c1.setD dn w)))
      ∧ (i.op = .dst → evalOpnds (envOf s1 x f 0) i (s1.ctx x) 0 i.ops = .ok ([.mem ea, .reg d v], us) →
        s1.checkWrite x (i.controls f) ea i.l1 = .ok ps s2 → (s1.ctx x).validD [dn] = true →
        ∀ w : DecOut, deliver (s1.ctx x) ((s1.ctx x).decValue dn) (2 * i.l1 - 1) = some w →
        exec (.dst x) s = .next ((s2.retireStore x false ps (w.toMem i.l1)).afterIns x f (fun c =>
          { c.applyG us with dstat := c.dstat ||| (if w.ovf then 1 else 0) }))))
  ∧ (∀ (c : Ctx) (v : Int) (cap : Nat),
      (v.natAbs < 10 ^ cap → deliver c v cap =
        some { mag := v.natAbs, sign := if v < 0 then 0xD else if c.duns then 0xF else 0xC, ovf := false })
      ∧ (10 ^ cap ≤ v.natAbs → c.dovt = true → deliver c v cap = none)
      ∧ (10 ^ cap ≤ v.natAbs → c.dovt = false → deliver c v cap =
        some { mag := v.natAbs % 10 ^ cap, sign := if v < 0 then 0xD else if c.duns then 0xF else 0xC, ovf := true }))



/-! ## Fractions and bits (spec/09) -/

/-- R222, R223, R225: the fraction instructions: the exact value of their formula, rounded under RM to the format of the result
and saturated to its range with FSTAT.SAT where CSW.FSAT is set; the accumulators under the same rule in 40 bits. -/
def Obligations.FractionResults : Prop :=
  ∀ (s s1 : State) (x : CtxId) (i : Ins) (f : Fetched), s.alone x = some (i, f, s1) → i.sub < 2 →
    let c := s1.ctx x
    let fb := if i.sub = 0 then 15 else 31
    let raw := fun (r : BitVec 5) => (if i.sub = 0 then ((c.getG r).setWidth 16).toInt else ((c.getG r).setWidth 32).toInt : Int)
    let an := fun (r : BitVec 5) => r.toNat % 4
    let acc := fun (r : BitVec 5) => (c.getA (an r)).toInt
    -- the result of a G register: the value num / 2^(fb + extra)
    let toG := fun (o : Instr) (d : BitVec 5) (num : Int) (sh rm : Nat) => ∀ (q r : Int) (sat : Bool),
      roundsTo rm num (2 ^ sh) q → saturates c q (fb + 1) r sat →
      exec o s = .next (s1.afterIns x f (fun c => { c.setG d (BitVec.ofInt 64 r) with
        fstat := c.fstat ||| (if sat then 1 else 0) }))
    let toA := fun (o : Instr) (d : BitVec 5) (num : Int) (sh rm : Nat) => ∀ (q r : Int) (sat : Bool),
      roundsTo rm num (2 ^ sh) q → saturates c q 40 r sat →
      exec o s = .next (s1.afterIns x f (fun c => { c.setA (an d) (BitVec.ofInt 40 r) with
        fstat := c.fstat ||| (if sat then 1#64 ||| (16#64 <<< an d) else 0) }))
    (∀ d a b : BitVec 5, i.ops = [.reg d, .reg a, .reg b] →
      (i.op = .fadd → toG (.fadd x) d (raw a + raw b) 0 0)
      ∧ (i.op = .fsub → toG (.fsub x) d (raw a - raw b) 0 0)
      ∧ (i.op = .fmul → toG (.fmul x) d (raw a * raw b) fb i.rm)
      ∧ (i.op = .fmac → toA (.fmac x) d (acc d * 2 ^ 31 + raw a * raw b * 2 ^ (62 - 2 * fb)) 31 i.rm)
      ∧ (i.op = .fmsu → toA (.fmsu x) d (acc d * 2 ^ 31 - raw a * raw b * 2 ^ (62 - 2 * fb)) 31 i.rm))
    ∧ (∀ d a : BitVec 5, i.ops = [.reg d, .reg a] →
      (i.op = .fneg → toG (.fneg x) d (-(raw a)) 0 0)
      ∧ (i.op = .fabs → toG (.fabs x) d (raw a).natAbs 0 0)
      ∧ (i.op = .facl → toA (.facl x) d (raw a * 2 ^ (31 - fb)) 0 0)
      ∧ (i.op = .frnd → i.sub = 0 → toG (.frnd x) d (acc a) 16 i.rm)
      ∧ (i.op = .frnd → i.sub = 1 → toG (.frnd x) d (acc a) 0 i.rm)
      ∧ (i.op = .fmva → exec (.fmva x) s = .next (s1.afterIns x f (fun c' => c'.setG d ((c.getA (an a)).signExtend 64))))
      ∧ (i.op = .fmvg → exec (.fmvg x) s = .next (s1.afterIns x f (fun c' => c'.setA (an d) ((c.getG a).setWidth 40)))))
    ∧ (∀ d : BitVec 5, i.op = .fsha → i.ops = [.reg d] →
      (0 ≤ i.imm → toA (.fsha x) d (acc d * 2 ^ i.imm.toNat) 0 i.rm)
      ∧ (i.imm < 0 → toA (.fsha x) d (acc d) (-i.imm).toNat i.rm))

/-- R228 to R232: the bit instructions on bits of an enabled bit space whose bytes are translated and readable: the bits
fetched into a register, with the frames' REF set. That the register of a bit operand is signed is the model's reading
(notes/assumptions/34.md): R229 calls its immediate so. -/
def Obligations.BitReadsGiveTheirBits : Prop :=
  ∀ (s s1 s2 : State) (x : CtxId) (i : Ins) (f : Fetched) (d a o n : Val) (vs : List Val) (us : List (BitVec 5 × Word))
    (b w : Nat) (ps : List (Nat × Nat)),
    s.alone x = some (i, f, s1) → evalOpnds (envOf s1 x f 0) i (s1.ctx x) 0 i.ops = .ok (vs, us) →
    let c := s1.ctx x
    c.bitOn = true → b + w ≤ 2 ^ c.bitLog →
    s1.checkRead x (i.controls f) .read false (pagePieces (c.bitBase + b / 8) (if w = 0 then 0 else (b + w - 1) / 8 + 1 - b / 8))
      = .ok ps s2 → s2.inReset = false → (s2.ctx x).quiet = true →
    let bits := leNat (s2.peekPieces x ps) / 2 ^ (b % 8) % 2 ^ w
    let at_ := fun (p q : Val) => p.word.toInt + q.word.toInt = (b : Int)
    let lands := fun (o : Instr) (v : Word) => exec o s = .next ((s2.touchPieces ps false).afterIns x f (fun c => c.setG d.rn v))
    (i.op = .btst → vs = [d, a, o] → at_ a o → w = 1 → lands (.btst x) (BitVec.ofNat 64 bits))
    ∧ (i.op = .bfext → vs = [d, a, o] → at_ a o → w = i.num + 1 → lands (.bfext x) (BitVec.ofNat 64 bits))
    ∧ (i.op = .bpop → vs = [d, a, o, n] → at_ a o → w = n.word.toNat % 2 ^ 32 → w ≤ 4096 →
        lands (.bpop x) (BitVec.ofNat 64 (((List.range w).filter (fun k => decide (bits / 2 ^ k % 2 = 1))).length)))
    ∧ (i.op = .bff → vs = [d, a, o, n] → at_ a o → w = n.word.toNat % 2 ^ 32 → w ≤ 4096 →
        (bits = 0 → lands (.bff x) (BitVec.ofNat 64 w))
        ∧ ∀ k, k < w → bits / 2 ^ k % 2 = 1 → bits % 2 ^ k = 0 → lands (.bff x) (BitVec.ofNat 64 (k + 2 ^ 63)))
    ∧ (∀ set : Bool, i.op = (if set then .bbs else .bbc) → vs = [a, o] → at_ a o → w = 1 →
        exec (if set then .bbs x else .bbc x) s = .next ((s2.touchPieces ps false).afterTransfer x f (decide (bits = bit set))
          (setBit (BitVec.ofNat 64 c.fetchAddr + BitVec.ofInt 64 i.imm) 63 c.wform) false id))

/-- R229 to R232: the bit instructions that write, on bits of an enabled bit space whose bytes are translated and may be
read and written, with no earlier store of the context waiting: the bytes are written with the bits replaced and every other
bit as it was; BTAS gives the old bit. That the register of a bit operand is signed is the model's reading
(notes/assumptions/34.md). -/
def Obligations.BitWritesReplaceTheirBits : Prop :=
  ∀ (s s1 s2 : State) (x : CtxId) (i : Ins) (f : Fetched) (d a o v : Val) (vs : List Val) (us : List (BitVec 5 × Word))
    (b w : Nat) (ps : List (Nat × Nat)) (val new : Nat),
    s.alone x = some (i, f, s1) → evalOpnds (envOf s1 x f 0) i (s1.ctx x) 0 i.ops = .ok (vs, us) →
    let c := s1.ctx x
    c.bitOn = true → 0 < w → b + w ≤ 2 ^ c.bitLog →
    s1.checkRead x (i.controls f) .rw false (pagePieces (c.bitBase + b / 8) ((b + w - 1) / 8 + 1 - b / 8)) = .ok ps s2 →
    s2.inReset = false → (s2.ctx x).quiet = true → (s2.ctx x).storeBuf = [] →
    let bytes := s2.readPhys ps
    let old := leNat bytes
    new < 2 ^ (8 * bytes.length) →
    (∀ k, k < 8 * bytes.length → new.testBit k = if b % 8 ≤ k ∧ k < b % 8 + w then val.testBit (k - b % 8) else old.testBit k) →
    let at_ := fun (p q : Val) => p.word.toInt + q.word.toInt = (b : Int)
    let put := fun (s : State) => s.writePieces (ps.flatMap (fun p => unitsOf p.1 p.2)) (leBytes bytes.length new)
    (i.op = .bset → vs = [a, o] → at_ a o → w = 1 → val = 1 → exec (.bset x) s = .next (s2.through x f put))
    ∧ (i.op = .bclr → vs = [a, o] → at_ a o → w = 1 → val = 0 → exec (.bclr x) s = .next (s2.through x f put))
    ∧ (i.op = .btas → vs = [d, a, o] → at_ a o → w = 1 → val = 1 → exec (.btas x) s = .next (s2.through x f (fun s =>
        (put s).upCtx x (fun c => c.setG d.rn (BitVec.ofNat 64 (bit (old.testBit (b % 8))))))))
    ∧ (i.op = .bfins → vs = [a, o, v] → at_ a o → w = i.num + 1 → val = v.word.toNat →
        exec (.bfins x) s = .next (s2.through x f put))

/-! ## Strings (spec/08) -/

/-- R200, R213: a string instruction of length 0 completes at once: STRX0 to STRX3 and CSW.SIP are 0, and a result register
receives 0. R199 to R203, R205: a string instruction of one byte whose accesses pass every check: what MVST, MVST.U and TRST
store, and what SCNS and CMPS give; the frames read have REF set, the store enters the store buffer, and the instruction
completes. R206 to R209, Table 8.3: EDIT and EDPOS of one pattern byte whose accesses pass every check. A pattern byte above 5
writes the fill character, since significance is not open. The trigger digit slot 2 on a one-digit field writes the digit in
ASCII whatever it is, and EDPOS then gives position 0 and one opening. -/
def Obligations.StringsAndEditsOfOneByte : Prop :=
  ((∀ (s s1 : State) (x : CtxId) (i : Ins) (f : Fetched) (steps : Nat) (vs : List Val) (us : List (BitVec 5 × Word)),
        s.alone x = some (i, f, s1) → evalOpnds (envOf s1 x f steps) i (s1.ctx x) 0 i.ops = .ok (vs, us) →
        let ends := fun (u : Ctx → Ctx) =>
          (.next (s1.afterIns x f (fun c => u { c with strx := [], csw := setBit c.csw 12 false })) : Out)
        let empty := fun (k : Nat) => (vs.getD k (.mem 0)).word.toNat % 2 ^ 32 = 0
        let zero := fun (c : Ctx) => c.setG (vs.getD 0 (.mem 0)).rn 0
        (i.op = .mvst → empty 2 → exec (.mvst x steps) s = ends id)
        ∧ (i.op = .mvstU → empty 2 → exec (.mvstU x steps) s = ends id)
        ∧ (i.op = .trst → empty 3 → exec (.trst x steps) s = ends id)
        ∧ (i.op = .scns → empty 3 → exec (.scns x steps) s = ends zero)
        ∧ (i.op = .cmps → empty 3 → exec (.cmps x steps) s = ends zero)
        ∧ (i.op = .edit → empty 3 → exec (.edit x steps) s = ends id)
        ∧ (i.op = .edpos → empty 4 → exec (.edpos x steps) s = ends zero))
    ∧ (∀ (s s1 sa sb s2 : State) (x : CtxId) (i : Ins) (f : Fetched) (steps : Nat) (g d p q n : Val)
        (us : List (BitVec 5 × Word)) (ctl : AccCtl) (pa pb pd : Nat) (va vb : Byte),
        s.alone x = some (i, f, s1) → n.word.toNat % 2 ^ 32 = 1 → s2.inReset = false → (s2.ctx x).quiet = true →
        let ops := fun (vs : List Val) => evalOpnds (envOf s1 x f steps) i (s1.ctx x) 0 i.ops = .ok (vs, us)
        let ends := fun (t : State) (u : Ctx → Ctx) =>
          (.next (t.afterIns x f (fun c => u { c with strx := [], csw := setBit c.csw 12 false })) : Out)
        let mark := fun (t : State) (l : List Nat) => l.foldl (fun t k => t.markFrame k 0x40) t
        let store := fun (t : State) (b : Byte) => t.retirePieces x false [(pd, 1)] [b]
        -- the frames of the bytes read, each once
        let two := if pa / 4096 = pb / 4096 then [pa / 4096] else [pa / 4096, pb / 4096]
        (∀ u : Bool, i.op = (if u then .mvstU else .mvst) → ctl = (if u then { i.controls f with um := .mvstU } else i.controls f) →
          ops [d, p, n] → s1.readsByte x ctl p.word.toNat pa va sa → sa.xlate x ctl .write d.word.toNat = .ok pd s2 →
          s2.readPoison x pd = false →
          exec (if u then .mvstU x steps else .mvst x steps) s = ends (store (mark s2 [pa / 4096]) va) id)
        ∧ (i.op = .trst → ctl = i.controls f → ops [d, p, q, n] → s1.readsByte x ctl p.word.toNat pa va sa →
          sa.readsByte x ctl (q.word + va.setWidth 64).toNat pb vb sb → sb.xlate x ctl .write d.word.toNat = .ok pd s2 →
          s2.readPoison x pd = false →
          exec (.trst x steps) s = ends (store (mark s2 two) vb) id)
        ∧ (i.op = .scns → ctl = i.controls f → ops [g, p, q, n] → s1.readsByte x ctl p.word.toNat pa va sa →
          sa.readsByte x ctl (q.word + va.setWidth 64).toNat pb vb s2 →
          exec (.scns x steps) s = ends (mark s2 two) (fun c => c.setG g.rn
            (if vb = 0 then 1 else BitVec.ofNat 64 (2 ^ 63 + vb.toNat * 2 ^ 32))))
        ∧ (i.op = .cmps → ctl = i.controls f → ops [g, p, q, n] → s1.readsByte x ctl p.word.toNat pa va sa →
          sa.readsByte x ctl q.word.toNat pb vb s2 →
          exec (.cmps x steps) s = ends (mark s2 two) (fun c => c.setG g.rn
            (if va = vb then 1 else if va < vb then 0xFFFFFFFF00000000 else 0x100000000)))))
  ∧ (∀ (s s1 sa s2 : State) (x : CtxId) (i : Ins) (f : Fetched) (steps : Nat) (g d src pat ctl : Val)
      (us : List (BitVec 5 × Word)) (pp ps pd : Nat) (p v : Byte),
      s.alone x = some (i, f, s1) → ctl.word.toNat % 2 ^ 32 = 1 → s2.inReset = false → (s2.ctx x).quiet = true →
      let ops := fun (vs : List Val) => evalOpnds (envOf s1 x f steps) i (s1.ctx x) 0 i.ops = .ok (vs, us)
      let ends := fun (t : State) (u : Ctx → Ctx) =>
        (.next (t.afterIns x f (fun c => u { c with strx := [], csw := setBit c.csw 12 false })) : Out)
      let store := fun (t : State) (b : Byte) => t.retirePieces x false [(pd, 1)] [b]
      let fill : Byte := BitVec.ofNat 8 (ctl.word.toNat / 2 ^ 32)
      let one := fun (go : Op → Out → (Ctx → Ctx) → (Ctx → Ctx) → Prop) =>
        (i.op = .edit → ops [d, src, pat, ctl] → go .edit (exec (.edit x steps) s) id id)
        ∧ (i.op = .edpos → ops [g, d, src, pat, ctl] → go .edpos (exec (.edpos x steps) s)
            (fun c => c.setG g.rn 0) (fun c => c.setG g.rn (BitVec.ofNat 64 (2 ^ 63 + 2 ^ 32))))
      s1.readsByte x (i.controls f) pat.word.toNat pp p sa →
      one (fun _ o none opened =>
        (5 < p.toNat → sa.xlate x (i.controls f) .write d.word.toNat = .ok pd s2 → s2.readPoison x pd = false →
          o = ends (store (s2.markFrame (pp / 4096) 0x40) fill) none)
        -- the source byte is one digit over a sign; reading it leaves the state as it is
        ∧ (p = 2 → sa.readsByte x (i.controls f) src.word.toNat ps v sa → v.toNat / 16 < 10 → 10 ≤ v.toNat % 16 →
          sa.xlate x (i.controls f) .write d.word.toNat = .ok pd s2 → s2.readPoison x pd = false → pd ≠ ps →
          s2.readsByte x (i.controls f) src.word.toNat ps v s2 →
          o = ends (store ((if pp / 4096 = ps / 4096 then [pp / 4096] else [pp / 4096, ps / 4096]).foldl
            (fun t k => t.markFrame k 0x40) s2) (BitVec.ofNat 8 (0x30 + v.toNat / 16))) opened)))



/-- R210, R211, Table 8.5: a string instruction that is longer than a step stands at an interruption point after its steps: MVST
of more than 64 bytes, allowed one step, has made that step, keeps its PC, sets CSW.SIP, and STRX0 to STRX3 hold 64 positions
done, its code 1, the form and PC[15:0]. -/
def Obligations.LongStringsPauseBetweenSteps : Prop :=
  ∀ (s s1 s2 : State) (x : CtxId) (i : Ins) (f : Fetched) (d p n : Val) (us : List (BitVec 5 × Word)) (st : StrSt) (a : StepAcc),
    s.alone x = some (i, f, s1) → i.op = .mvst → evalOpnds (envOf s1 x f 1) i (s1.ctx x) 0 i.ops = .ok ([d, p, n], us) →
    64 < n.word.toNat % 2 ^ 32 →
    strStep (movePos (envOf s1 x f 1) (i.controls f) d.word p.word) {} {} (List.range 64) s1 = .ok (.all st, a) s2 →
    a.partPoison s2 x = none → s2.inReset = false → (s2.ctx x).stepping = false →
    Answers (.mvst x 1) s (fun t =>
      (∀ b, t.memByte b = (s2.endStrStep x a).memByte b)
      ∧ (t.ctx x).storeBuf = ((s2.endStrStep x a).ctx x).storeBuf
      ∧ (t.ctx x).pc = (s2.ctx x).pc ∧ (t.ctx x).sip = true
      ∧ smGet (t.ctx x).strx 0 0 = 64
      ∧ bitsOf (smGet (t.ctx x).strx 0 3) 7 0 = 1 ∧ bitAt (smGet (t.ctx x).strx 0 3) 8 = (s1.ctx x).wform
      ∧ bitsOf (smGet (t.ctx x).strx 0 3) 63 48 = (s1.ctx x).fetchAddr % 2 ^ 16)

/-! ## Spoonbill (spec/09) -/

/-- R233 to R235: SPB.GO of a tenant gives the descriptor to unit TAG mod 4 under a free ticket, with status 0 in [63:56]
and the ticket in [7:0]; with no free ticket the status is 1, with a full queue 2. SPB.WAIT gives the STATUS word of a
complete ticket and frees it; a free ticket answers 3; one not complete answers 1 with .N, and otherwise the instruction
waits, which ends the hold-off of a shadow (notes/assumptions/69.md). -/
def Obligations.SpoonbillInstructionsComplete : Prop :=
  ∀ (s s1 s2 : State) (x : CtxId) (i : Ins) (f : Fetched) (g b : Val) (us : List (BitVec 5 × Word))
    (ps : List (Nat × Nat)),
    s.alone x = some (i, f, s1) → (s1.ctx x).ten = true →
    evalOpnds (envOf s1 x f 0) i (s1.ctx x) 0 i.ops = .ok ([g, b], us) →
    let w := b.word
    let c := s1.ctx x
    let n := c.tag
    let u := n.toNat % 4
    let status := fun (t : State) (code low : Nat) =>
      t.afterIns x f (fun c => c.setG g.rn (BitVec.ofNat 64 (code * 2 ^ 56 + low)))
    (i.op = .spbGo → w.toNat % 64 = 0 → s1.checkRead x { own := f.own } .rw false (pagePieces w.toNat 64) = .ok ps s2 →
      s2.inReset = false → (s2.ctx x).quiet = true →
      let cmd := fun (k : Nat) => ({ tenant := n, ticket := BitVec.ofNat 2 k, desc := s2.peekPieces x ps, addr := (ps.headD (0, 0)).1
                                     csw := c.csw, kmaskRd := c.kmaskRd, kmaskWr := c.kmaskWr, bitspace := c.bitspace } : SpbCmd)
      (∀ k, s2.freeTicket n = some k → (s2.unit u).length < 16 → exec (.spbGo x) s = .next (status
        (((s2.touchPieces ps false).setUnit u (s2.unit u ++ [cmd k])).setTicket n k .busy) 0 k))
      ∧ (s2.freeTicket n = none → exec (.spbGo x) s = .next (status s2 1 0))
      ∧ (∀ k, s2.freeTicket n = some k → 16 ≤ (s2.unit u).length → exec (.spbGo x) s = .next (status s2 2 0)))
    ∧ (i.op = .spbWait →
      let k := w.toNat % 4
      (∀ d : Word32, s1.ticket n k = .done d →
        exec (.spbWait x) s = .next (status (s1.setTicket n k .free) 0 d.toNat))
      ∧ (s1.ticket n k = .free → exec (.spbWait x) s = .next (status s1 3 0))
      ∧ (s1.ticket n k = .busy → i.sub = 1 → exec (.spbWait x) s = .next (status s1 1 0))
      ∧ (s1.ticket n k = .busy → i.sub ≠ 1 → exec (.spbWait x) s = .next (s.upCtx x (fun c => { c with shadow := false }))))

/-! ## Site instructions and keys (spec/04, spec/17) -/

/-- R108 to R111: the site instructions of a tenant. TAKE claims the oldest takeable frame, copies its payload and gives its
length, user type and sequence number; with none, or while none may be taken, the status is 1 with .N, and otherwise the tenant
gives up its context; while a clear is pending before the first frame of a transaction, it waits. POST puts its payload into a
free hold slot under the next sequence number: HELD (1) with the station absent, and SENT (0) with it present, when the frame
goes out with its header, payload and CRC; with no slot or no count left it is FULL (2), but POST.W waits for a slot while the
station is present. SETTLE keeps the settlement word and the body in the settlement slot, writes nothing else, and closes the
transaction to SETTLING, or to UNSETTLED while frames wait for an absent station.

What rests on the model's readings and not on a rule: the settlement body at offset 0x10 of its slot
(notes/assumptions/19.md), the payload at offset 16 of a hold slot and the acknowledgement in the frame kept there
(notes/assumptions/48.md), the choice of the lowest free hold slot (notes/assumptions/20.md), and that an instruction that waits
ends the hold-off of a shadow (notes/assumptions/69.md). -/
def Obligations.SiteInstructionsComplete : Prop :=
  ∀ (s s1 s2 : State) (x : CtxId) (i : Ins) (f : Fetched) (g b q : Val) (us : List (BitVec 5 × Word)) (ps : List (Nat × Nat)),
    s.alone x = some (i, f, s1) → (s1.ctx x).ten = true → s2.inReset = false → (s2.ctx x).quiet = true →
    let c := s1.ctx x
    let n := c.tag
    let v := s1.site n
    let ops := fun (vs : List Val) => evalOpnds (envOf s1 x f 0) i c 0 i.ops = .ok (vs, us)
    let word := fun (code low : Nat) => BitVec.ofNat 64 (code * 2 ^ 56 + low)
    let status := fun (t : State) (code low : Nat) => t.afterIns x f (fun c => c.setG g.rn (word code low))
    let read := fun (len : Nat) => s1.checkRead x { own := f.own } .read false (pagePieces q.word.toNat len) = .ok ps s2
    let waits : Out := .next (s.upCtx x (fun c => { c with shadow := false }))
    (i.op = .siteTake → ops [g, q] → q.word.toNat % 16 = 0 →
      (∀ (h : InFrame) (rest : List InFrame), v.takeable = true → s1.inboxSplit n = ([], h :: rest) → (v.txn = .idle → v.clearPending = false) →
        s1.checkWrite x { own := f.own } q.word.toNat h.len = .ok ps s2 → (s2.ctx x).storeBuf = [] →
        exec (.siteTake x) s = .next (s2.through x f (fun t =>
          ((((t.touch (s2.inboxSlot n h.slot) (16 + h.len) false).copyUnits x (s2.inboxSlot n h.slot + 16)
            (ps.flatMap (fun p => unitsOf p.1 p.2))).upSite n (fun v => v.claim h rest)).upCtx x (fun c =>
              c.setG g.rn (word 0 (h.len + h.utype.toNat * 2 ^ 16 + h.seq.toNat * 2 ^ 24)))))))
      ∧ (∀ (h : InFrame) (rest : List InFrame), v.takeable = true → s1.inboxSplit n = ([], h :: rest) → v.txn = .idle →
        v.clearPending = true → exec (.siteTake x) s = waits)
      ∧ ((v.takeable = false ∨ v.inbox = []) → i.sub = 1 → exec (.siteTake x) s = .next (status s1 1 0))
      ∧ ((v.takeable = false ∨ v.inbox = []) → i.sub ≠ 1 → exec (.siteTake x) s = .next
          ((s.upCtx x (fun c => { c with shadow := false })).requestSave n .giveUp)))
    ∧ (i.op = .sitePost → ops [g, b, q] → q.word.toNat % 16 = 0 →
      let len := b.word.toNat % 2 ^ 12
      let seq : BitVec 24 := (s2.reg (.site n .seqOut)).setWidth 24
      let utype : Byte := BitVec.ofNat 8 (b.word.toNat / 2 ^ 16)
      let st := s2.station (s2.siteLink n).1 (s2.siteLink n).2
      let payload := s2.peekPieces x ps
      let head := frameHeader 1 (s2.siteLink n).2 st.any false false len seq (if st.any then st.inSeq - 1 else 0) utype
      let sentBytes := head ++ payload ++ leBytes 4 (crc32 (head ++ payload)).toNat
      let fr := fun (k : Nat) => ({ slot := k, seq := seq, utype := utype, len := len } : OutFrame)
      (v.openTxn = false → exec (.sitePost x) s = .next (status s1 3 0))
      ∧ (v.openTxn = true → 2048 < len → exec (.sitePost x) s = .next (status s1 4 0))
      ∧ (v.openTxn = true → len ≤ 2048 → 255 ≤ v.outCount → exec (.sitePost x) s = .next (status s1 2 0))
      ∧ (v.openTxn = true → len ≤ 2048 → v.outCount < 255 → v.freeHold = none → (i.sub ≠ 1 ∨ s1.stationUp n = false) →
        exec (.sitePost x) s = .next (status s1 2 0))
      ∧ (v.openTxn = true → len ≤ 2048 → v.outCount < 255 → v.freeHold = none → i.sub = 1 → s1.stationUp n = true →
        exec (.sitePost x) s = waits)
      ∧ (∀ k, v.openTxn = true → len ≤ 2048 → v.outCount < 255 → v.freeHold = some k → read len → (s2.ctx x).storeBuf = [] →
        Answers (.sitePost x) s (fun t =>
          (t.ctx x) = (((s2.ctx x).retired f.own).setG g.rn (word (bit (!s2.stationUp n)) (seq.toNat * 2 ^ 24))).goTo f.next
          ∧ (t.site n).unacked = (s2.site n).unacked ++ [fr k] ∧ (t.site n).outCount = (s2.site n).outCount + 1
          ∧ (t.site n).outLast = seq ∧ t.reg (.site n .seqOut) = (seq + 1).setWidth 32
          ∧ (∀ j, j < len → s2.inKeyArray (s2.holdSlot n k + 16 + j) = false →
              t.memByte (s2.holdSlot n k + 16 + j) = payload.getD j 0)
          ∧ (s2.stationUp n = false → t.sent = s2.sent)
          ∧ (s2.stationUp n = true → (∀ j, j < len → s2.inKeyArray (s2.holdSlot n k + 16 + j) = false) →
              t.sent = s2.sent ++ [{ link := (s2.siteLink n).1, bytes := sentBytes }])
          ∧ (∀ a, (a < s2.holdSlot n k ∨ s2.holdSlot n k + 0x1000 ≤ a) → s2.inKeyArray a = false → t.memByte a = s2.memByte a))))
    ∧ (i.op = .siteSettle → ops [g, b, q] → q.word.toNat % 16 = 0 →
      let len := b.word.toNat / 2 ^ 32 % 2 ^ 11
      let gone := s2.stationUp n || (s2.site n).unacked.isEmpty
      (v.openTxn = false → exec (.siteSettle x) s = .next (status s1 3 0))
      ∧ (v.openTxn = true → 1024 < len → exec (.siteSettle x) s = .next (status s1 4 0))
      ∧ (v.openTxn = true → len ≤ 1024 → read len → (s2.ctx x).storeBuf = [] → Answers (.siteSettle x) s (fun t =>
          (t.ctx x) = (((s2.ctx x).retired f.own).setG g.rn 0).goTo f.next
          ∧ (t.site n).txn = (if gone then .settling else .unsettled) ∧ (t.site n).sword = b.word.setWidth 8
          ∧ (t.site n).bodyLen = len ∧ (t.site n).settled = true
          ∧ (∀ j, j < 8 → s2.inKeyArray (s2.siteBuf n + 0x60000 + j) = false →
              t.memByte (s2.siteBuf n + 0x60000 + j) = byteOf b.word.toNat j)
          ∧ (∀ j, j < len → s2.inKeyArray (s2.siteBuf n + 0x60010 + j) = false →
              t.memByte (s2.siteBuf n + 0x60010 + j) = (s2.peekPieces x ps).getD j 0)
          ∧ ((∀ j, j < len → s2.inKeyArray (s2.siteBuf n + 0x60010 + j) = false) → t.settleBody n = s2.peekPieces x ps)
          ∧ (∀ a, (a < s2.siteBuf n + 0x60000 ∨ s2.siteBuf n + 0x60010 + (len + 7) / 8 * 8 ≤ a) → s2.inKeyArray a = false →
              t.memByte a = s2.memByte a))))

/-- R427: LAPP of a tenant with a ring and room queues an append of its bytes, with status 0; a bad control word answers 4, a
full queue 2, no ring 5. -/
def Obligations.LappQueuesAnAppend : Prop :=
  ∀ (s s1 s2 : State) (x : CtxId) (i : Ins) (f : Fetched) (g b q : Val) (us : List (BitVec 5 × Word)) (ps : List (Nat × Nat)),
    s.alone x = some (i, f, s1) → (s1.ctx x).ten = true → i.op = .lapp →
    evalOpnds (envOf s1 x f 0) i (s1.ctx x) 0 i.ops = .ok ([g, b, q], us) → q.word.toNat % 16 = 0 →
    let n := (s1.ctx x).tag
    let w := b.word
    let status := fun (code : Nat) => s1.afterIns x f (fun c => c.setG g.rn (BitVec.ofNat 64 (code * 2 ^ 56)))
    ((s1.site n).ringSet = false → exec (.lapp x) s = .next (status 5))
    ∧ ((s1.site n).ringSet = true → lappGood w = false → exec (.lapp x) s = .next (status 4))
    ∧ ((s1.site n).ringSet = true → lappGood w = true → s1.lappFull n = true → exec (.lapp x) s = .next (status 2))
    ∧ ((s1.site n).ringSet = true → lappGood w = true → s1.lappFull n = false →
        s1.checkRead x { own := f.own } .read false (pagePieces q.word.toNat (w.toNat % 2 ^ 12)) = .ok ps s2 →
        s2.inReset = false → (s2.ctx x).quiet = true →
        exec (.lapp x) s = .next (s2.through x f (fun t => ((t.touchPieces ps false).accept n
          (.lapp (BitVec.ofNat 8 (w.toNat / 2 ^ 24)) (bitAt w 16) (bitAt w 17) (s2.peekPieces x ps))).upCtx x (fun c =>
            c.setG g.rn 0))))

/-- R411, R412: KLOAD by the secure supervisor joins the key loads, with status 0, or answers 1 while 16 wait. KERASE, with no
load waiting, makes the tenant's key state REVOKED and zeroes the slot that holds it, its generation one higher, with the
slot's number and the bit of a slot in the result. -/
def Obligations.KeyLoadsQueueAndErasesTakeHold : Prop :=
  ∀ (s s1 : State) (x : CtxId) (i : Ins) (f : Fetched) (g b : Val) (us : List (BitVec 5 × Word)),
    s.alone x = some (i, f, s1) → (s1.ctx x).isUser = false → (s1.ctx x).world = .secure →
    evalOpnds (envOf s1 x f 0) i (s1.ctx x) 0 i.ops = .ok ([g, b], us) →
    let n : SiteId := b.word.setWidth 10
    let q := s1.curlew.loads
    (i.op = .kload → q.length < 16 → exec (.kload x) s = .next
      ({ s1 with curlew := { s1.curlew with loads := q ++ [n] } }.afterIns x f (fun c => c.setG g.rn 0)))
    ∧ (i.op = .kload → 16 ≤ q.length → exec (.kload x) s = .next (s1.afterIns x f (fun c => c.setG g.rn (BitVec.ofNat 64 (2 ^ 56)))))
    ∧ (i.op = .kerase → q = [] → Answers (.kerase x) s (fun t =>
        (t.site n).keyState = 3
        ∧ (∀ k, s1.slotOf n = some k → t.keySlot k = { gen := (s1.keySlot k).gen + 1 })
        ∧ (∀ k, s1.slotOf n ≠ some k → t.keySlot k = s1.keySlot k)
        ∧ (t.ctx x) = (((s1.ctx x).retired f.own).setG g.rn (match s1.slotOf n with
            | none => 0
            | some k => BitVec.ofNat 64 (64 + k))).goTo f.next
        ∧ t.mem = s1.mem))

/-! ## Calls, returns and gates (spec/15, spec/16) -/

/-- R353: SYSC saves the address after it, G31 and CSW in the bank of the current world and goes to FE_PC with FE_SP, all of
whose address bits stay for the range check of the fetch (R126, R265). R380: MONCALL by the non-secure supervisor saves them
in the secure bank with XADDR 0 and CROSS in XINFO, goes to its FE_PC in the secure world with no tenant, and blocks NMI. A
call out of an enclave writes its exit record first (R387). -/
def Obligations.SystemAndMonitorCalls : Prop :=
  ∀ (s s1 : State) (x : CtxId) (i : Ins) (f : Fetched), s.alone x = some (i, f, s1) →
    let c := s1.ctx x
    let left := match f.own with
      | none => s1
      | some e => s1.setExit e f.next
    (i.op = .sysc → exec (.sysc x) s = .next (left.upCtx x (fun k =>
      let b := k.bank k.world
      let k1 := ((k.retired f.own).setBank k.world { b with
        xpc := BitVec.ofNat 48 f.next, xsp := k.getG 31, xcsw := k.csw }).setG 31 b.feSp
      { k1.goTo (bitsOf b.fePc 62 0) with csw := feCsw k.csw b.fePc b.feCsw, shadow := !k.shadow, modes := k.modes + 1 })))
    ∧ (i.op = .moncall → c.isUser = false → c.world = .nonSecure → exec (.moncall x) s = .next
      ((left.upCtx x (fun k =>
        let b := k.bankS
        let k1 := { k.retired f.own with bankS := { b with
          xpc := BitVec.ofNat 48 f.next, xsp := k.getG 31, xcsw := k.csw, xaddr := 0, xinfo := 0x2000000000000000 } }.setG 31 b.feSp
        { k1.goTo (bitsOf b.fePc 62 0) with
          csw := setBits (setBit (setBit (feCsw k.csw b.fePc b.feCsw) 1 true) 4 false) 41 32 0
          shadow := !k.shadow, modes := k.modes + 1 })).orReg
        (cxReg x .nmi) 2))

/-- R352, R381, R147: XRET, SYSRET and MONRET by a supervisor whose saved CSW is legal: CSW without DLY and DTK, and the PC,
come from the bank of the current world, and a set DLY resumes the delay bundle; XRET exchanges G31 with XSP, and the others
take G31 from XSP and XSP from FE_SP. A return that leaves the secure world unblocks NMI. -/
def Obligations.ReturnsRestoreTheSavedState : Prop :=
  ∀ (s s1 : State) (x : CtxId) (i : Ins) (f : Fetched), s.alone x = some (i, f, s1) → (s1.ctx x).isUser = false →
    let c := s1.ctx x
    let w := c.world
    let b := c.bank w
    badXcsw b.xcsw = false →
    let back := fun (stack : Ctx → Ctx) =>
      let t := s1.afterMode x f (fun k => { (stack k).goTo b.xpc.toNat with
        csw := setBits b.xcsw 17 16 0, arrival := .back
        delay := if bitAt b.xcsw 16 then
            some { addr := b.xpc, target := b.xdt, taken := bitAt b.xcsw 17, call := false, replay := true, shadow := false }
          else none })
      (.next (if w = .secure ∧ bitAt b.xcsw 1 = false then t.clrReg (cxReg x .nmi) 2 else t) : Out)
    let swap := fun (k : Ctx) => (k.setBank w { b with xsp := c.getG 31 }).setG 31 b.xsp
    let take := fun (k : Ctx) => (k.setBank w { b with xsp := b.feSp }).setG 31 b.xsp
    (i.op = .xret → (bitAt b.xcsw 1 = false ∨ w = .secure) → exec (.xret x) s = back swap)
    ∧ (i.op = .sysret → (bitAt b.xcsw 1 = false ∨ w = .secure) → exec (.sysret x) s = back take)
    ∧ (i.op = .monret → w = .secure → bitAt b.xcsw 1 = false → exec (.monret x) s = back take)

/-- R369: GCALL through a descriptor that passes every check, with arguments and a frame that pass theirs: the frame is stored
below the gate's stack, a marked return pointer is pushed, and control goes to TARGET under the gate's CSW. R370: GRET from a
frame that passes its checks takes G31 and CSW from the frame and goes to the popped address. That the frame holds five argument
slots and 0 at 0x48 is the model's reading of Table 15.11, which is not consistent (notes/assumptions/40.md). -/
def Obligations.GatesCallAndReturn : Prop :=
  ∀ (s s1 : State) (x : CtxId) (i : Ins) (f : Fetched), s.alone x = some (i, f, s1) →
    let c := s1.ctx x
    let e := envOf s1 x f 0
    (∀ (g : Gate) (pa : Nat) (sa sb s2 : State) (ps : List (Nat × Nat)), i.op = .gcall → c.pushTraps = false →
      s1.readGateAt e i.num = .ok (pa, g) sa → sa.gateRefusal e g i.num = none →
      sa.argChecks e g i.num (List.range g.argc) = .ok () sb → sb.frameCheck e g i.num = .ok ps s2 →
      s2.inReset = false → s2.ctx x = c → c.rsp.toNat ≤ 16 →
      let sp := (if g.flag 7 then (c.bank c.world).feSp else g.stack) - 0x50
      let frame := leBytes 8 (c.getG 31).toNat ++ leBytes 8 c.csw.toNat ++ leBytes 8 i.num ++ leBytes 8 0
        ++ (List.range 5).flatMap (fun k => leBytes 8 (if k < g.argc then (argAt c k).toNat else 0)) ++ leBytes 8 0
      Answers (.gcall x) s (fun t =>
        (t.ctx x).pc = g.target.setWidth 48 ∧ (t.ctx x).getG 31 = sp ∧ (t.ctx x).csw = gateCsw c.csw g
        ∧ (t.ctx x).top = (retPtr c.wform f.next ||| 0x4000000000000000)
        ∧ (t.ctx x).storeBuf = ((s2.retireStore x false ps frame).ctx x).storeBuf
        ∧ (∀ r, r ≠ 31 → (t.ctx x).getG r = (s2.ctx x).getG r) ∧ (∀ y, y ≠ x → t.ctx y = s2.ctx y)))
    ∧ (∀ (sp w : Word) (s2 s3 : State) (ps : List (Nat × Nat)) (p : Option Nat), i.op = .gret → c.rsp ≠ 0 → bitAt c.top 62 = true →
      s1.gretFrame e = .ok (ps, sp, w) s2 → retCswBad c w = false →
      let csw := setBit w 0 (bitAt c.top 63)
      let m := s3.returnMet x p
      s2.returnPlace x { c with csw := csw } (bitsOf c.top 47 0) = .ok p s3 →
      s3.returnEncl (bitsOf c.top 47 0) p = none → m.inReset = false → (m.ctx x).quiet = true →
      exec (.gret x) s = .next ((m.touchPieces ps false).afterMode x f (fun k =>
        { (({ k with rsp := k.rsp - 1 }).setG 31 sp).goTo (bitsOf c.top 47 0) with csw := csw, arrival := .back })))

/-! ## Exceptions, bundles and stores (spec/05, spec/06, spec/13, spec/15) -/

/-- R348, R349: entering vector v of a world whose vector entry e can be read: the writes to the bank of that world, XINFO
with NEST, CROSS and ASYNC over the event's bits, the exchange of G31 and XSP, the PC and the bits of CSW; XCSW.DLY,
XCSW.DTK and XDT as R147 states for a fault of a delay bundle; entry into the secure world blocks NMI. A pending W-form load
writes its register first (R145). -/
def Obligations.ExceptionEntryWrites : Prop :=
  ∀ (s s1 : State) (x : CtxId) (v : Nat) (w : World) (i : EntryInfo) (e : Word),
    let c := (s.ctx x).completeLoads
    let b := c.bank w
    (s.upCtx x Ctx.completeLoads).readVector x (entryCsw c.csw w false) (b.vbr.toNat / 8 * 8 + 8 * v) = .ok e s1 →
    s1.ctx x = c →
    let t := (s.enter x v w i).ctx x
    (t.bank w).xpc = i.xpc ∧ (t.bank w).xaddr = BitVec.ofNat 64 i.xaddr ∧ (t.bank w).xsp = c.getG 31 ∧ t.getG 31 = b.xsp
    ∧ (∀ k, k < 64 → k ≠ 16 → k ≠ 17 → bitAt (t.bank w).xcsw k = bitAt c.csw k)
    ∧ bitAt (t.bank w).xcsw 16 = i.dly.isSome
    ∧ bitAt (t.bank w).xcsw 17 = (match i.dly with | none => false | some d => d.1)
    ∧ (t.bank w).xdt = (match i.dly with | none => b.xdt | some d => d.2)
    ∧ (∀ k, k < 60 → bitAt (t.bank w).xinfo k = i.xinfo.testBit k)
    ∧ bitAt (t.bank w).xinfo 60 = decide (c.world = w ∧ c.isUser = false ∧ bitAt c.csw 5 = false)
    ∧ bitAt (t.bank w).xinfo 61 = decide (c.world ≠ w) ∧ bitAt (t.bank w).xinfo 62 = false
    ∧ bitAt (t.bank w).xinfo 63 = i.async
    ∧ t.pc = e.setWidth 48
    ∧ bitAt t.csw 0 = bitAt e 63 ∧ t.world = w ∧ bitsOf t.csw 3 2 = 1 ∧ bitAt t.csw 5 = false ∧ bitAt t.csw 6 = true
    ∧ bitAt t.csw 7 = false ∧ bitAt t.csw 12 = false ∧ bitsOf t.csw 15 13 = 0
    ∧ (w = .secure → bitAt t.csw 4 = false ∧ bitsOf t.csw 41 32 = 0)
    ∧ (w = .nonSecure → bitAt t.csw 4 = bitAt c.csw 4 ∧ bitsOf t.csw 41 32 = bitsOf c.csw 41 32)
    ∧ (w = .secure → bitAt ((s.enter x v w i).reg (cxReg x .nmi)) 1 = true)
    ∧ (∀ r, r ≠ 31 → t.getG r = c.getG r) ∧ (∀ y, y ≠ x → (s.enter x v w i).ctx y = s1.ctx y)

/-- R140: the syllables of a bundle read their sources before any of them writes. R146: after a delay bundle the transfer that
waited is made where it is taken. R166: a loop end goes back to the start of the innermost level that ends there while its count
is above 1, and otherwise drops that level. -/
def Obligations.BundlesDelaysAndLoopEnds : Prop :=
  ∀ (s s1 : State) (x : CtxId) (f : Fetched) (i : Ins), s.canRun x = true → s.tide.stopping = false →
    s.fetch x = .ok f s1 → s1.inReset = false →
    let c := s1.ctx x
    let plain := fun (j : Ins) => j.uao = false ∧ j.keyo = false
    c.sip = false → c.loads = [] → bitAt c.csw 7 = false → c.stepping = false → c.stepDue = false → c.trapDue = none →
    (s.ctx x).delay = c.delay →
    (∀ (j : Ins) (d1 a1 b1 d2 a2 : BitVec 5), f.insns = [i, j] → plain i → plain j → i.op = .add → j.op = .fmvg →
      i.ops = [.reg d1, .reg a1, .reg b1] → j.ops = [.reg d2, .reg a2] → c.delay = none → c.atLoopEnd = false →
      exec (.add x) s = .next (s1.upCtx x (fun k =>
        (((k.retired f.own).setG d1 (c.getG a1 + c.getG b1)).setA (d2.toNat % 4) ((c.getG a2).setWidth 40)).goTo f.next)))
    ∧ (∀ d : DelayBranch, f.insns = [i] → plain i → i.op = .nop → c.delay = some d → d.replay = false → c.atLoopEnd = false →
      exec (.nop x) s = .next (s1.upCtx x (fun k =>
        let k1 := { k.retired f.own with delay := none }
        let k2 := if d.call then k1.push (retPtr true f.next) else k1
        if d.taken then k2.jumpTo d.target (d.shadow || c.shadow) else k2.goTo f.next)))
    ∧ (∀ k, f.insns = [i] → plain i → i.op = .nop → c.delay = none → k < 3 → c.endsAt k c.pc = true →
      (∀ j, j < 3 → j ≠ k → c.endsAt j c.pc = false) →
      let n := smGet c.lpc 0 k
      (1 < n.toNat → exec (.nop x) s = .next (s1.upCtx x (fun k' =>
        { k'.retired f.own with lpc := smSet c.lpc 0 k (n - 1) }.goTo (smGet c.lps 0 k).toNat)))
      ∧ (n.toNat ≤ 1 → exec (.nop x) s = .next (s1.upCtx x (fun k' =>
        { k'.retired f.own with lpc := smSet c.lpc 0 k 0, csw := setBit c.csw (13 + k) false }.goTo f.next))))

/-- R312, R313: STORE_PERFORMED performs the oldest store of a context. One to memory that covers no poisoned word in part
writes its bytes, and every other byte outside the key array, every other context and every earlier record stays; one that
meets a hole writes nothing and is recorded with cause 3 (R32, R356). STORE_BUS_ERROR for parity records cause 5 without
performing it. -/
def Obligations.StoresArePerformedOldestFirst : Prop :=
  ∀ (s : State) (x : CtxId) (e : StoreEntry) (rest : List StoreEntry), (s.ctx x).storeBuf = e :: rest →
    let record := fun (t : State) (cause : BitVec 8) => (t.ctx x).storeErr = some (match (s.ctx x).storeErr with
      | none => { addr := e.addr, world := e.world, cause := cause, ovf := false }
      | some r => { r with ovf := true })
    let fails := fun (o : Instr) (cause : BitVec 8) => Answers o s (fun t =>
      t.mem = s.mem ∧ (t.ctx x).storeBuf = rest ∧ record t cause ∧ (∀ y, y ≠ x → t.ctx y = s.ctx y))
    (s.storeHole x e = false → (s.region e.addr = .dram ∨ s.region e.addr = .sram) → s.droppedWords e.addr e.bytes.length = [] →
      (∀ k ∈ framesOf e.addr e.bytes.length, s.keyV = true → s.poisoned (s.keyBase + k) = false) →
      Answers (.storePerformed x) s (fun t =>
        (∀ k, k < e.bytes.length → s.inKeyArray (e.addr + k) = false → t.memByte (e.addr + k) = e.bytes.getD k 0)
        ∧ (∀ a, (a < e.addr ∨ e.addr + e.bytes.length ≤ a) → s.inKeyArray a = false → t.memByte a = s.memByte a)
        ∧ t.ctx x = { s.ctx x with storeBuf := rest } ∧ (∀ y, y ≠ x → t.ctx y = s.ctx y) ∧ t.regs = s.regs))
    ∧ (s.storeHole x e = true → fails (.storePerformed x) 3 ∧ fails (.storeBusError x false) 3)
    ∧ fails (.storeBusError x true) 5

/-! ## The host window (spec/00, spec/02) -/

/-- R46, R47, R50: a host write whose address parity is wrong is refused with code 1, and one whose data parity is wrong in an
enabled lane with code 2: no register of the access, no memory and no buffer changes; the completion carries the code,
HINT_STATUS.BUSERR and line 15 are set, and with BUS_ERR_INFO free the word address and the code are recorded. R57: a cycle that
the interface does not answer changes nothing. -/
def Obligations.RefusedHostWritesAreRecorded : Prop :=
  ∀ (s : State) (a : Access) (addr : PhysAddr) (data : Word32), a.req = .host →
    let wa := addr.toNat % 2 ^ 24 / 4 * 4
    let refused := fun (code lanes : Nat) => Answers (.registerWrite a addr data) s (fun t =>
      t.resp.code = BitVec.ofNat 4 code ∧ t.mem = s.mem ∧ t.h2d = s.h2d ∧ t.stagedLo = s.stagedLo ∧ t.tide = s.tide
      ∧ bitAt (t.reg (.g .hintStatus)) 16 = true ∧ bitAt (t.reg (.d .irqLinePend)) 15 = true
      ∧ (bitAt (s.reg (.g .busErrInfo)) 0 = false → t.reg (.g .busErrAddr) = BitVec.ofNat 32 wa
          ∧ bitsOf (t.reg (.g .busErrInfo)) 7 4 = code ∧ bitsOf (t.reg (.g .busErrInfo)) 19 16 = lanes
          ∧ bitAt (t.reg (.g .busErrInfo)) 8 = true ∧ bitAt (t.reg (.g .busErrInfo)) 0 = true)
      ∧ (bitAt (s.reg (.g .busErrInfo)) 0 = true → t.reg (.g .busErrAddr) = s.reg (.g .busErrAddr)
          ∧ t.reg (.g .busErrInfo) = s.reg (.g .busErrInfo) ||| 2)
      ∧ (∀ r, r ≠ .g .hintStatus → r ≠ .d .irqLinePend → r ≠ .g .busErrAddr → r ≠ .g .busErrInfo → t.reg r = s.reg r))
    (s.answers = false → exec (.registerWrite a addr data) s = .next s)
    ∧ (s.answers = true → hapGood a (addr.toNat % 2 ^ 24) true = false → refused 1 0)
    ∧ (s.answers = true → hapGood a (addr.toNat % 2 ^ 24) true = true → badLanes a data ≠ 0 → refused 2 (badLanes a data))

/-- R14, R19, R20, R50: a write that reaches SCRATCH0 stores its enabled lanes. A read of a register with an RC field gives its
value and clears the field, but for the debug access engine. Writing 1 to VALID of a record register frees the record. R313: a
register store of a context is performed after every earlier store that waits in its buffer. -/
def Obligations.RegisterAccessTypes : Prop :=
  ∀ (s : State) (a : Access) (addr : PhysAddr) (data : Word32) (r : Reg), namesReg a addr r →
    (r = .g .scratch0 → s.reaches a r data = true → exec (.registerWrite a addr data) s = .next
      ((s.setReg r (mergeBits (s.reg r) (laneMask (lanesOf a)) data)).complete a))
    ∧ (r.spec.rc ≠ 0 → s.readsReg a r = true → exec (.rcRead a addr) s = .next
      ((match a.req with
        | .dae _ => s
        | _ => s.setReg r (s.reg r &&& ~~~r.spec.rc)).done (s.regValue (s.readWorld a r) r)))
    ∧ (isRecord r = true → writes1 a data 0 = true → s.reaches a r data = true →
      exec (.validClear a addr data) s = .next ((s.setReg r 0).complete a))
    ∧ (∀ x, a.req = .ctx x → ((s.ctx x).world = .secure ∨ s.deviceSecure addr.toNat true = false) →
      exec (.registerWrite a addr data) s = .next ((s.drain x).perform x
        { addr := addr.toNat, bytes := leBytes 4 data.toNat, world := (s.ctx x).world, word := true }))

/-- R22, R23: a read of _LO gives its value and captures _HI for its requester; the next read of _HI by that requester gives the
capture and uses it up. A write of _LO is staged for its requester, and no register changes. A write of APER_BASE_HI or
SPACE_BASE_HI applies both halves in their enabled lanes and drops the staged value. -/
def Obligations.PairsAreReadAndWrittenTogether : Prop :=
  ∀ (s : State) (a : Access) (addr : PhysAddr) (data : Word32) (lo : Reg), lo.pairOf = some (lo, false) →
    let w := s.readWorld a lo
    let key := pairKey (whoOf a) lo
    (namesReg a addr lo → s.readsReg a lo = true → exec (.loRead a addr) s = .next
      ({ s with snaps := smSet s.snaps none key (some (s.regValue w lo.hiOf)) }.done (s.regValue w lo)))
    ∧ (namesReg a addr lo.hiOf → s.readsReg a lo.hiOf = true → ∀ v, smGet s.snaps none key = some v →
      exec (.hiRead a addr) s = .next ({ s with snaps := smSet s.snaps none key none }.done v))
    ∧ (namesReg a addr lo.hiOf → s.readsReg a lo.hiOf = true → smGet s.snaps none key = none →
      exec (.hiRead a addr) s = .next (s.done (s.regValue (s.readWorld a lo.hiOf) lo.hiOf)))
    ∧ (namesReg a addr lo → s.reaches a lo data = true → lo.pairMask ≠ 0 → lanesOf a ≠ 0 →
      let old := s.stagedOf (whoOf a) lo
      let new := some (mergeBits old.1 (laneMask (lanesOf a)) data, old.2 ||| lanesOf a)
      exec (.loWrite a addr data) s = .next ({ s with stagedLo := smSet s.stagedLo none key new }.complete a))
    ∧ ((lo = .g .aperBaseLo ∨ lo = .d .spaceBaseLo) → namesReg a addr lo.hiOf → s.reaches a lo.hiOf data = true → lanesOf a ≠ 0 →
      let old := s.stagedOf (whoOf a) lo
      exec (.hiWrite a addr data) s = .next
        (((({ s with stagedLo := smSet s.stagedLo none key none } : State).setReg lo
            (mergeBits (s.reg lo) (laneMask old.2 &&& lo.spec.rw) old.1)).setReg lo.hiOf
            (mergeBits (s.reg lo.hiOf) (laneMask (lanesOf a) &&& lo.hiOf.spec.rw) data)).complete a))

/-- R55, R56, R49: an aperture read that is not refused gives the four bytes at APER_BASE plus the offset, little-endian; a
write puts the enabled lanes there, and every other byte outside the key array stays. A timeout is refused with code 3, also
for a read of a poisoned word, and a write already issued is performed and marked so; a write with no lane enabled completes and
stores nothing (R590). A strobe during a cycle sets HINT_STATUS.PROTO alone (R44). -/
def Obligations.ApertureCyclesReachMemory : Prop :=
  ∀ (s : State) (a : Access) (addr : PhysAddr) (data : Word32) (o : Nat), a.req = .host → s.answers = true →
    hostPlace (addr.toNat % 2 ^ 24 / 4 * 4) = .aperture o →
    let pa := s.aperBase + o
    (s.keyV = true → s.poisoned (s.keyBase + pa / 4096) = false) →
    (hapGood a (addr.toNat % 2 ^ 24) false = true → s.aperRefusal o false = none → Answers (.apertureRead a addr) s (fun t =>
      t.resp.code = 0 ∧ t.resp.data = BitVec.ofNat 32 (leNat ((List.range 4).map (fun k => s.memByte (pa + k))))
      ∧ (∀ b, s.inKeyArray b = false → t.memByte b = s.memByte b) ∧ t.regs = s.regs))
    ∧ (hapGood a (addr.toNat % 2 ^ 24) true = true → badLanes a data = 0 → s.aperRefusal o true = none →
        s.poisoned pa = false → Answers (.apertureWrite a addr data) s (fun t =>
      t.resp.code = 0 ∧ t.regs = s.regs
      ∧ (∀ k, k < 4 → t.memByte (pa + k) = if a.be.getLsbD k then byteOf data.toNat k else s.memByte (pa + k))
      ∧ (∀ b, (b < pa ∨ pa + 4 ≤ b) → s.inKeyArray b = false → t.memByte b = s.memByte b)))
    ∧ (∀ write issued : Bool, hapGood a (addr.toNat % 2 ^ 24) write = true → badLanes a data = 0 → s.aperRefusal o true = none →
        (write = true → s.poisoned pa = false ∧ a.be ≠ 0) → bitAt (s.reg (.g .busErrInfo)) 0 = false → Answers (.timeout a addr write issued data) s (fun t =>
      t.resp.code = 3 ∧ bitsOf (t.reg (.g .busErrInfo)) 7 4 = 3 ∧ bitAt (t.reg (.g .busErrInfo)) 20 = (write && issued)
      ∧ (∀ k, k < 4 → t.memByte (pa + k) =
          if write ∧ issued ∧ a.be.getLsbD k then byteOf data.toNat k else s.memByte (pa + k))))
    ∧ (∀ issued : Bool, hapGood a (addr.toNat % 2 ^ 24) true = true → a.be = 0 → s.aperRefusal o true = none →
        exec (.timeout a addr true issued data) s = .next (s.done 0))
    ∧ exec .strobeDuringCycle s = .next (s.setReg (.g .hintStatus) (s.reg (.g .hintStatus) ||| 0x20000))

/-- R54: the mailbox. The host writes its buffer while no message is posted and reads both buffers; a post of 1 to 32,768
bytes sets H2D_FULL and line 0, and consuming it, but by the boot ROM, frees the buffer. A word that a read corrects is counted
(R335). A word that a read finds uncorrectable is poisoned and recorded (R336), and the read refused with MBX, as is every later
one (R339, Table 14.1); that its record shows SOURCE 8 in MCHK_STATUS, path 2 and the agent of the host is the model's reading
(notes/assumptions/68.md). A reply sets D2H_FULL with its code and length, and the host's acknowledgement frees it. -/
def Obligations.MailboxCarriesMessages : Prop :=
  ∀ (s : State) (a : Access) (addr : PhysAddr) (data : Word32) (o : Nat),
    let wa := addr.toNat % 2 ^ 24 / 4 * 4
    let good := fun (write : Bool) => a.req = .host ∧ s.answers = true ∧ hapGood a (addr.toNat % 2 ^ 24) write = true
    s.mbxOpen = true →
    (good true → badLanes a data = 0 → hostPlace wa = .h2d o → s.h2dFull = false → s.mbxBad o = false →
      Answers (.mailboxWrite a addr data) s (fun t =>
      t.resp.code = 0 ∧ t.regs = s.regs ∧ t.mem = s.mem
      ∧ (∀ k, smGet t.h2d 0 k = if o ≤ k ∧ k < o + 4 ∧ a.be.getLsbD (k - o) then byteOf data.toNat (k - o) else smGet s.h2d 0 k)))
    ∧ (good false → hostPlace wa = .h2d o → s.mbxBad o = false →
        exec (.mailboxRead a addr) s = .next (s.done (bufWord s.h2d o)))
    ∧ (good false → hostPlace wa = .d2h o → s.mbxBad (0x8000 + o) = false →
        exec (.mailboxRead a addr) s = .next (s.done (if s.d2hFull then bufWord s.d2h o else 0)))
    ∧ (good false → hostPlace wa = .h2d o → s.mbxBad o = false →
        exec (.mailboxRead a addr .corrected) s = .next ((s.bumpSat (.d .integCeSram) 1).done (bufWord s.h2d o)))
    ∧ (good false → hostPlace wa = .d2h o → s.mbxBad (0x8000 + o) = false → s.d2hFull = true →
        exec (.mailboxRead a addr .corrected) s = .next ((s.bumpSat (.d .integCeSram) 1).done (bufWord s.d2h o)))
    ∧ (good false → hostPlace wa = .h2d o → s.mbxBad o = false → bitAt (s.reg (.g .mchkStatus)) 0 = false →
        bitAt (s.reg (.d .integRecInfo)) 0 = false → Answers (.mailboxRead a addr .uncorrectable) s (fun t =>
      t.resp.code = 9 ∧ t.mbxBad o = true ∧ bitsOf (t.reg (.g .mchkStatus)) 7 4 = 8
      ∧ bitsOf (t.reg (.d .integRecInfo)) 7 4 = 2 ∧ bitsOf (t.reg (.d .integRecInfo)) 23 20 = 6 ∧ t.mem = s.mem
      ∧ (∀ k, k / 8 = o / 8 → smGet t.h2d 0 k = 0) ∧ (∀ k, k / 8 ≠ o / 8 → smGet t.h2d 0 k = smGet s.h2d 0 k)
      ∧ (∀ found, Answers (.mailboxRead a addr found) t (fun u => u.resp.code = 9 ∧ u.mem = s.mem ∧ u.h2d = t.h2d))))
    ∧ (s.reaches a (.g .mbxCtrl) data = true → writes1 a data 16 = true → writes1 a data 17 = false → s.h2dFull = false →
        (let len := bitsOf (mergeBits (s.reg (.g .mbxCtrl)) (laneMask (lanesOf a)) data) 15 0
         1 ≤ len ∧ len ≤ 32768) → Answers (.h2dPost a data) s (fun t =>
      t.h2dFull = true ∧ bitAt (t.reg (.d .irqLinePend)) 0 = true ∧ t.h2d = s.h2d ∧ t.d2hFull = s.d2hFull
      ∧ (∀ r, r ≠ .g .mbxCtrl → r ≠ .d .irqLinePend → t.reg r = s.reg r)))
    ∧ (s.reaches a (.g .mbxCtrl) data = true → writes1 a data 16 = false → writes1 a data 17 = true → s.d2hFull = true →
        s.boot.replyDue = [] → Answers (.d2hAck a data) s (fun t =>
      t.d2hFull = false ∧ t.h2dFull = s.h2dFull ∧ (∀ r, r ≠ .g .mbxCtrl → t.reg r = s.reg r)))
    ∧ (s.h2dFull = true → s.romServes = false → exec .messageConsumed s = .next { s with h2dFull := false })
    ∧ (∀ (code : Byte) (bytes : List Byte), s.d2hFull = false → 1 ≤ bytes.length → bytes.length ≤ 32768 →
      Answers (.reply code bytes) s (fun t => t.d2hFull = true ∧ (∀ k, k < bytes.length → smGet t.d2h 0 k = bytes.getD k 0)
        ∧ bitsOf (t.reg (.g .mbxStatus)) 15 8 = code.toNat ∧ bitsOf (t.reg (.g .mbxStatus)) 31 16 = bytes.length
        ∧ (∀ r, r ≠ .g .mbxStatus → t.reg r = s.reg r)))

/-- R57, R59, R417, R450, R473, Table 2.13: the single registers of the window: the start of cycles, the clock measurement,
the randomness a read draws, CLK_CTRL while no core runs, the phase a secure core reports, and the update requests that the
host sets and a secure read takes. -/
def Obligations.GlobalRegisterCommands : Prop :=
  ∀ (s : State) (a : Access) (data : Word32),
    let lanes := lanesOf a
    (s.inReset = false → exec .interfaceAcceptsCycles s = .next { s with accepting := true })
    ∧ (∀ mhz, s.inReset = false → exec (.hbclkMeasure mhz) s = .next { s with hbclkMhz := mhz })
    ∧ (s.readsReg a (.g .rngData) = true → s.rngReady = true → Answers (.rngDataRead a) s (fun t =>
        t.resp.data = (Config.freeWord s.free).setWidth 32 ∧ t.free = s.free + 1 ∧ t.drbg = s.drbg.request
        ∧ t.regs = s.regs ∧ t.mem = s.mem))
    ∧ (s.readsReg a (.g .rngData) = true → s.rngReady = false → exec (.rngDataRead a) s = .next (s.done 0))
    ∧ (s.reaches a (.g .clkCtrl) data = true → s.clkBusy = false → exec (.clkCtrlWrite a data) s = .next
        ((s.setReg (.g .clkCtrl) ((GReg.spec .clkCtrl).apply (s.reg (.g .clkCtrl)) (laneMask lanes) data)).complete a))
    ∧ (∀ x p, a.req = .ctx x → (s.ctx x).world = .secure → s.reaches a (.g .bootStatus) data = true → s.reg (.g .bootStatus) = 3 → data = p → (p = 4 ∨ p = 0xE) →
        exec (.phaseWrite a data) s = .next ((s.setReg (.g .bootStatus) p).setReg (.g .hintStatus)
          (s.reg (.g .hintStatus) ||| 4)))
    ∧ (s.reaches a (.g .updCtrl) data = true → s.accWorld a (.g .updCtrl) = .nonSecure →
        let req := fun (start abort : Bool) =>
          (.next ((({ s with ue := { s.ue with reqStart := s.ue.reqStart || start, reqAbort := s.ue.reqAbort || abort } } : State).setReg
            (.d .irqLinePend) (s.reg (.d .irqLinePend) ||| 2)).complete a) : Out)
        (writes1 a data 0 = true → exec (.start a data) s = req true (writes1 a data 1))
        ∧ (writes1 a data 1 = true → exec (.abort a data) s = req (writes1 a data 0) true))
    ∧ (∀ x, a.req = .ctx x → (s.ctx x).world = .secure → s.readsReg a (.g .updCtrl) = true → exec (.updCtrlSecureRead a) s = .next
        ({ s with ue := { s.ue with reqStart := false, reqAbort := false } }.done
          (BitVec.ofNat 32 (bit s.ue.reqStart + 2 * bit s.ue.reqAbort))))

/-! ## Tides (spec/21) -/

/-- R498 to R503: a write of a tide-class register while STAGE is set joins the staged set and changes no register; while
STAGE is clear it is committed at once. COMMIT starts a tide of the staged entries where none is in progress, and DISCARD
drops them. R508: in a tide that goes tenant by tenant a site with entries and no Curlew operation in flight converts while
its tenant is not loaded: its entries are applied and counted, and the last one completes the tide. A tenant that stays
loaded is forced: its save is requested. R503: a write in any enabled lane of a register that is in the tide in progress,
and COMMIT, are refused with BUSY. -/
def Obligations.TidesAreStagedAndConverted : Prop :=
  (∀ (s : State) (a : Access) (addr : PhysAddr) (data : Word32) (r : Reg), s.tide.busy = false →
      let lanes := lanesOf a
      let old := smGet s.tide.staged { data := 0, lanes := 0 } r.addr
      let set := smSet s.tide.staged { data := 0, lanes := 0 } r.addr
        { data := mergeBits old.data (laneMask lanes) data, lanes := old.lanes ||| lanes }
      let staged : State := { s with tide := { s.tide with staged := set, overrun := s.tide.overrun || decide (64 < set.length) } }
      (namesReg a addr r → r.isTide = true → r ≠ .d .l3Ctrl → s.reaches a r data = true → r.tideLanes lanes = true → lanes ≠ 0 →
        (bitAt (s.reg (.g .hostCtrl)) 0 = true → exec (.tideStageWrite a addr data) s = .next (staged.complete a))
        ∧ (bitAt (s.reg (.g .hostCtrl)) 0 = false → exec (.tideImmediateWrite a addr data) s = .next (staged.commitTide.complete a)))
      ∧ (s.reaches a (.g .cfgCommit) data = true → writes1 a data 0 = true → writes1 a data 1 = false →
        exec (.commit a data) s = .next (s.commitTide.complete a))
      ∧ (s.reaches a (.g .cfgCommit) data = true → writes1 a data 0 = false → writes1 a data 1 = true →
        exec (.discard a data) s = .next ({ s with tide := { s.tide with staged := [], overrun := false } }.complete a)))
  ∧ (∀ (s : State) (n : SiteId), s.tide.busy = true → s.tide.stopping = false → (entriesOf s.tide.entries n).isEmpty = false →
      let rest := s.tide.entries.filter (fun e => decide ((regAt e.1).bind Reg.tideSite ≠ some n))
      let s1 : State := { s.applyEntries (entriesOf s.tide.entries n) with tide := { s.tide with entries := rest } }
      let v := s1.reg (.g .cfgProgress)
      let s2 := s1.setReg (.g .cfgProgress) (setBits v 10 0 (bitsOf v 10 0 + 1))
      ((s.site n).tstate ≠ .loaded → s.opInFlight n = false → exec (.tenantConversion n) s = .next
        ((if rest.isEmpty then s2.tideDone else s2).tryBegin n))
      ∧ ((s.site n).tstate = .loaded → (s.site n).save = none → exec (.tideForce n) s = .next
        (s.upSite n (fun v => { v with save := some .tide }))))
  ∧ (∀ (s : State) (a : Access) (addr : PhysAddr) (data : Word32) (r : Reg), a.req = .host → s.tide.busy = true →
      s.reaches a r data = true → namesReg a addr r →
      let busy := s.busErr (addr.toNat % 2 ^ 24) 4 true a.be 0 false
      (r.isTide = true → (∃ e ∈ s.tide.entries, e.1 = r.addr) → exec (.registerWrite a addr data) s = .next busy)
      ∧ (r = .g .cfgCommit → writes1 a data 0 = true → exec (.registerWrite a addr data) s = .next busy))

/-- R502, R504, R505: a tide of one entry for the equaliser of a link or the hold limit of a site with no Curlew operation
in flight stops the contexts of the running ledger cores first: each that stands at a boundary open to it, with no interrupt
to take first (Table 21.2), is stopped, and until all are it stays in progress with no register changed. A context that has
been stopped executes nothing until then. Then it takes effect as a whole: their outstanding loads complete (R145), the
register holds the entry's enabled tide bits, the staged set is empty, no tide is in progress, CFG_EPOCH is one higher, and
HINT_STATUS.CFG_DONE and line 2 are set. -/
def Obligations.ACommittedTideTakesEffect : Prop :=
  ∀ (s : State) (a : Access) (data : Word32) (r : Reg) (e : StagedEntry), s.tide.busy = false → s.tide.overrun = false →
    s.tide.staged = [(r.addr, e)] → s.reaches a (.g .cfgCommit) data = true → writes1 a data 0 = true → writes1 a data 1 = false →
    ((∃ k, r = .link k .eq) ∨ ∃ n, r = .site n .holdLimit ∧ s.opInFlight n = false ∧ (s.site n).appends = []
      ∧ 1 ≤ (mergeBits (s.reg r) (laneMask e.lanes &&& r.tideMask) e.data).toNat
      ∧ (mergeBits (s.reg r) (laneMask e.lanes &&& r.tideMask) e.data).toNat ≤ 60000) →
    let under : State := { s with
      tide := { staged := [], overrun := false, entries := s.tide.staged, busy := true, stopping := true } }
    let noted : State := { under with tide := { under.tide with stops := under.stopsNow } }
    (noted.allStopped = false → exec (.commit a data) s = .next (noted.complete a)
      ∧ ∀ x, x ∈ under.stopsNow → exec (.nop x) noted = .next noted)
    ∧ (noted.allStopped = true → (∀ c, c < 16 → (s.core c).state = .held → (s.core c).fencing = false) → Answers (.commit a data) s (fun t =>
      t.reg r = mergeBits (s.reg r) (laneMask e.lanes &&& r.tideMask) e.data
      ∧ t.tide = { staged := [], overrun := false, entries := [], busy := false }
      ∧ t.reg (.g .cfgEpoch) = s.reg (.g .cfgEpoch) + 1
      ∧ bitAt (t.reg (.g .hintStatus)) 3 = true ∧ bitAt (t.reg (.d .irqLinePend)) 2 = true
      ∧ (∀ q, q ≠ r → q ≠ .g .cfgEpoch → q ≠ .g .hintStatus → q ≠ .d .irqLinePend → t.reg q = s.reg q)
      ∧ (∀ x, t.ctx x = if x = bootCtx then s.ctx x else (s.ctx x).completeLoads)
      ∧ t.mem = s.mem ∧ t.sites = s.sites))

/-! ## Ledger cores and the dispatcher (spec/03, spec/18, spec/21) -/

/-- R452, R453, R454: a secure write to CORE_RELEASE releases exactly the cores it names whose conditions hold. A released core
starts context 0 at CORE_VEC in the secure world as the monitor, with its other contexts free and its hook table and patch RAM
loaded from the secure patch copy (R490). A write of CX_START_HI starts a
free unpooled context of a running core at the pointer written, in the writer's world. R511, R512, R514, R515: a fence of a
held core marks it FENCED at once, and one of a running core asks for the saves of its tenants. Once no tenant is left the
stores are performed, every context is free, and the core reads FENCED with its reason and count. A return starts only from
FENCED under the conditions of a release; one that passes starts the core, and one that fails reads FENCED again with its core
and step recorded, and repeats a failure of its ROM stores at every attempt. None of this comes during the stop of an atomic
tide (Table 21.2). -/
def Obligations.LedgerCoreLifeCycle : Prop :=
  (∀ (s : State) (a : Access) (c : CoreId) (x : CtxId) (data : Word32),
      (s.reaches a (.g .coreRelease) data = true → s.accWorld a (.g .coreRelease) = .secure →
        Answers (.coreRelease a data) s (fun t =>
          (∀ k : CoreId, bitAt (t.reg (.g .coreRelease)) k.toNat = (bitAt (s.reg (.g .coreRelease)) k.toNat
            || (writes1 a data k.toNat && s.mayStart k && decide ((s.core k.toNat).state ≠ .fenced))))
          ∧ (∀ r, r ≠ .g .coreRelease → t.reg r = s.reg r) ∧ t.ctxs = s.ctxs ∧ t.cores = s.cores ∧ t.mem = s.mem))
      ∧ (bitAt (s.reg (.g .coreRelease)) c.toNat = true → (s.core c.toNat).state = .held →
          s.tide.stopping = false → s.ue.patchPoison = [] →
        Answers (.coreStart c) s (fun t =>
          let k := t.ctx (ctxOf c 0)
          (t.core c.toNat).state = .running ∧ (t.core c.toNat).tlbs = {} ∧ (t.core c.toNat).locked = []
          ∧ (t.core c.toNat).stores = patchStores s.ue.patch
          ∧ k.occ = .monitor ∧ k.pc = (s.coreVec c).setWidth 48 ∧ k.world = .secure ∧ bitsOf k.csw 3 2 = 1
          ∧ bitAt k.csw 0 = bitAt (s.coreVec c) 63 ∧ (∀ r, k.getG r = 0)
          ∧ (∀ i : BitVec 2, i ≠ 0 → (t.ctx (ctxOf c i)).occ = .free)
          ∧ bitAt (t.reg (cxReg (ctxOf c 0) .nmi)) 1 = true
          ∧ bitAt (t.reg (.g .hintStatus)) 6 = true ∧ bitAt (t.reg (.d .irqLinePend)) 3 = true
          ∧ (∀ y, coreOf y ≠ c.toNat → t.ctx y = s.ctx y) ∧ t.mem = s.mem))
      ∧ (s.reaches a (cxReg x .startHi) data = true → (s.ctx x).occ = .free → s.pooled x = false →
          (s.core (coreOf x)).state = .running → bitsOf data 30 16 = 0 → lanesOf a = 0xF →
        let st := s.stagedOf (whoOf a) (cxReg x .startLo)
        let lo := mergeBits (s.reg (cxReg x .startLo)) (laneMask st.2) st.1
        let w := s.accWorld a (cxReg x .startHi)
        Answers (.cxStart a x data) s (fun t =>
          let k := t.ctx x
          k.occ = (if w = .secure then .monitor else .exec) ∧ k.world = w ∧ bitsOf k.csw 3 2 = 1
          ∧ k.pc = (data.setWidth 16 ++ lo : BitVec 48) ∧ bitAt k.csw 0 = bitAt data 31 ∧ (∀ r, k.getG r = 0)
          ∧ bitAt (t.reg (cxReg x .nmi)) 1 = decide (w = .secure)
          ∧ (∀ y, y ≠ x → t.ctx y = s.ctx y) ∧ t.mem = s.mem)))
  ∧ (∀ (s : State) (a : Access) (c : CoreId) (data : Word32), s.tide.stopping = false →
      let fenced := fun (t : State) (why : Nat) =>
        (t.core c.toNat).state = .fenced ∧ (t.core c.toNat).vecWritten = false ∧ (t.core c.toNat).tlbs = {}
        ∧ bitsOf (t.reg (.core c .fenceInfo)) 3 0 = why
        ∧ bitsOf (t.reg (.core c .fenceInfo)) 15 8 = min (bitsOf (s.reg (.core c .fenceInfo)) 15 8 + 1) 255
        ∧ t.reg (.core c .dispatch) = 0 ∧ bitAt (t.reg (.g .hintStatus)) 24 = true ∧ bitAt (t.reg (.g .hintStatus)) 6 = true
        ∧ bitAt (t.reg (.d .irqLinePend)) 3 = true
      let started := fun (t : State) =>
        (t.core c.toNat).state = .running ∧ (t.ctx (ctxOf c 0)).pc = (s.coreVec c).setWidth 48
        ∧ (t.ctx (ctxOf c 0)).occ = .monitor ∧ (∀ i : BitVec 2, i ≠ 0 → (t.ctx (ctxOf c i)).occ = .free)
      (s.reaches a (.g .coreFence) data = true → (∀ k : CoreId, writes1 a data (16 + k.toNat) = decide (k = c)) →
        ((s.core c.toNat).state = .held → Answers (.fenceReq a data) s (fun t => fenced t 1 ∧ t.mem = s.mem ∧ t.ctxs = s.ctxs))
        ∧ ((s.core c.toNat).state = .running → Answers (.fenceReq a data) s (fun t =>
            (t.core c.toNat).fencing = true ∧ (t.core c.toNat).state = .running ∧ t.mem = s.mem ∧ t.ctxs = s.ctxs
            ∧ (∀ i n, (s.ctx (ctxOf c i)).occ = .tenant n → (s.site n).tstate = .loaded → (t.site n).save ≠ none))))
      ∧ ((s.core c.toNat).state = .running → (s.core c.toNat).fencing = true → (s.core c.toNat).fenceWhy < 4 →
          (∀ i : BitVec 2, s.fenceWaits (ctxOf c i) = false ∧ (s.ctx (ctxOf c i)).storeBuf = []) →
        Answers (.coreFenceDone c) s (fun t => fenced t (s.core c.toNat).fenceWhy ∧ t.mem = s.mem
          ∧ (∀ i : BitVec 2, (t.ctx (ctxOf c i)).occ = .free) ∧ (∀ y, coreOf y ≠ c.toNat → t.ctx y = s.ctx y)))
      ∧ (s.reaches a (.d .coreReturn) data = true → (∀ k : CoreId, writes1 a data k.toNat = decide (k = c)) →
          (s.core c.toNat).state = .fenced → s.mayStart c = true →
        Answers (.coreReturn a data) s (fun t => (t.core c.toNat).state = .returning
          ∧ bitAt (t.reg (.d .coreReturnStatus)) c.toNat = false ∧ bitAt (t.reg (.g .hintStatus)) 6 = true ∧ t.ctxs = s.ctxs))
      ∧ (∀ (failed : BitVec 2) (addr : BitVec 14) (store : BitVec 2), (s.core c.toNat).state = .returning →
            s.ue.patchPoison = [] →
          (∀ w, (s.core c.toNat).romBad = some w → (failed = 0 ∨ failed = 2) → Answers (.coreReturnDone c failed addr store) s (fun t =>
              (t.core c.toNat).state = .fenced ∧ bitsOf (t.reg (.d .coreReturnStatus)) 23 20 = 2
              ∧ bitsOf (t.reg (.core c .ucErr)) 13 0 = w.1.toNat ∧ bitsOf (t.reg (.core c .ucErr)) 17 16 = w.2.toNat
              ∧ (t.core c.toNat).romBad = some w))
          ∧ (failed = 0 → (s.core c.toNat).romBad = none → Answers (.coreReturnDone c failed addr store) s (fun t =>
              started t ∧ t.reg (.core c .dispatch) = 0))
          ∧ (failed = 2 → romHas store.toNat addr.toNat = true → (s.core c.toNat).romBad = none →
            Answers (.coreReturnDone c failed addr store) s (fun t => (t.core c.toNat).state = .fenced
              ∧ (t.core c.toNat).romBad = some (addr, store) ∧ bitAt (t.reg (.d .coreReturnStatus)) c.toNat = true
              ∧ bitsOf (t.reg (.d .coreReturnStatus)) 19 16 = c.toNat
              ∧ bitsOf (t.reg (.d .coreReturnStatus)) 23 20 = 2 ∧ bitsOf (t.reg (.core c .ucErr)) 13 0 = addr.toNat
              ∧ t.reg (.core c .fenceInfo) = s.reg (.core c .fenceInfo) ∧ t.ctxs = s.ctxs))))



/-- R77 to R80, R128 to R131: the dispatcher loads its choice from its context block, where the block has no poison and a
legal CSW, and one with a bad CSW is FAULTED with code 2. A save writes the block, frees the context and gives the tenant
the state of Table 3.7; that a tenant saved for a withdrawn HOLD or for a clear of EN that no longer stands is IDLE with
EVENTS 0 and otherwise PENDING is the model's choice (notes/assumptions/72.md). Where the key array is valid the frames' REF
and CHG are set beside. A preemption or a cleared POOL bit asks for the saves of the tenants there, and the quantum rule for
that of its victim. -/
def Obligations.TenantsAreLoadedAndSaved : Prop :=
  ∀ (s : State) (a : Access) (c : CoreId) (data : Word32) (n : SiteId) (x : CtxId), s.tide.busy = false →
    s.tide.stopping = false →
    let at0 := s.blockAddr n
    (∀ cl : BitVec 2, s.nextLoad cl.toNat = some (n, x) → s.anyPoison at0 0x400 = false →
        (∀ i, i < 0x400 → s.inKeyArray (at0 + i) = false) →
      let kept := fun (t : State) => ∀ b, s.inKeyArray b = false → t.memByte b = s.memByte b
      let bs := s.memRead at0 0x400
      (blockCswGood n (blockSlot bs 8) = true → (s.core (coreOf x)).nmiWait = false → Answers (.dispatchLoad cl) s (fun t =>
        (t.site n).tstate = .loaded ∧ (t.site n).onCtx = x ∧ (t.ctx x).occ = .tenant n
        ∧ (t.ctx x).pc = BitVec.ofNat 48 (blockSlot bs 0) ∧ (t.ctx x).csw = BitVec.ofNat 64 (blockSlot bs 8)
        ∧ (∀ r : BitVec 5, r ≠ 0 → (t.ctx x).getG r = BitVec.ofNat 64 (blockSlot bs (0x40 + 8 * r.toNat)))
        ∧ bitAt (t.reg (cxReg x .irqPend)) 0 = false ∧ (∀ y, y ≠ x → t.ctx y = s.ctx y) ∧ kept t))
      ∧ (blockCswGood n (blockSlot bs 8) = false → Answers (.dispatchLoad cl) s (fun t =>
        (t.site n).tstate = .faulted ∧ bitsOf (t.reg (.site n .faultInfo)) 7 0 = 2 ∧ bitAt (t.reg (.site n .attn)) 4 = true
        ∧ bitAt (t.reg (.d .irqLinePend)) 7 = true ∧ t.ctxs = s.ctxs ∧ kept t)))
    ∧ (∀ r : SaveReason, (s.site n).save = some r → (s.site n).tstate = .loaded → (s.site n).onCtx = x → s.saveHeld x = false →
        (s.ctx x).savePoint = true → (s.ctx x).storeBuf = [] → (s.ctx x).storeErr = none → (s.ctx x).inEncl = none →
        (s.site n).enClear = false → r ≠ .fault → (∀ i, i < 0x400 → s.inKeyArray (at0 + i) = false) → s.droppedWords at0 0x400 = [] →
      let k := (s.ctx x).completeLoads
      Answers (.tenantSave n) s (fun t =>
        (∀ i, i < 0x400 → t.memByte (at0 + i) = (blockBytes k).getD i 0)
        ∧ (∀ b, (b < at0 ∨ at0 + 0x400 ≤ b) → s.inKeyArray b = false → t.memByte b = s.memByte b)
        ∧ (t.ctx x).occ = .free ∧ (∀ y, y ≠ x → t.ctx y = s.ctx y)
        ∧ (t.site n).save = none ∧ (t.site n).tstate = (if s.siteHold n then .held
            else match r with
              | .giveUp | .hold | .en0 => if (s.site n).events = 0 then .idle else .pending
              | _ => .pending)))
    ∧ (∀ i : BitVec 2, ctxOf c i = x → (s.ctx x).occ = .tenant n → (s.site n).tstate = .loaded → (s.site n).save = none →
        (s.reaches a (.core c .preempt) data = true → (∀ k < 4, writes1 a data k = decide (k = i.toNat)) →
          exec (.cbPreempt a c data) s = .next ((s.upSite n (fun v => { v with save := some .preempt })).complete a))
        ∧ (s.reaches a (.core c .dispatch) data = true → lanesOf a = 0xF → s.reg (.core c .dispatch) = 15 →
            (∀ k < 4, bitAt data k = decide (k ≠ i.toNat)) →
          exec (.poolClear a c data) s = .next (((s.setReg (.core c .dispatch)
            (mergeBits 15 ((CReg.spec .dispatch).rw) data)).upSite n (fun v => { v with save := some .pool })).complete a)))
    ∧ (∀ (cl : BitVec 2) (w : SiteId),
        (s.tenantsIn cl.toNat .pending).filter (fun m => (s.place m).isNone && !(s.site m).quantumAsked) = [w] →
        s.quantumVictim w [] = some n → (s.site n).tstate = .loaded → (s.site n).save = none →
        exec (.quantum cl) s = .next ((s.upSite n (fun v => { v with save := some .quantum })).upSite w
          (fun v => { v with quantumAsked := true })))

/-! ## Sites (spec/03) -/

/-- R67, R71, R73, R75, R80, R81, R120, Table 3.7: a write of SB_CTRL that carries one event. EN 1 installs a tenant where
both bases are set, and otherwise sets EN_REFUSED; EN 0 is refused during a transaction, removes a tenant that is not
loaded, and asks for the save of one that is. HOLD, FAULT, RESUME, AUTO_REPLAY and CTR_CLEAR act as Table 3.7 and their
rules state. What Table 3.7 has no row for is the model's choice (notes/assumptions/72.md): which reason a save has that was
asked for before (SaveReason.over), FAULT over such a save, and HOLD written 0 before its save is made. -/
def Obligations.SiteControlEvents : Prop :=
  ∀ (s : State) (a : Access) (n : SiteId) (d : Word32), s.reaches a (.site n .ctrl) d = true → s.tide.busy = false →
    let v := s.site n
    let ctrl := s.reg (.site n .ctrl)
    let only := fun (e : Nat) => ∀ k, k = 8 ∨ k = 9 ∨ k = 10 → writes1 a d k = decide (k = e)
    let keep := fun (e : Nat) => ∀ k, k < 3 → k ≠ e → (lanesOf a).getLsbD 0 = true → bitAt d k = bitAt ctrl k
    let frame := fun (t : State) => t.mem = s.mem ∧ t.ctxs = s.ctxs ∧ (∀ m, m ≠ n → t.site m = s.site m)
      ∧ ∀ r, r ≠ .site n .ctrl → r ≠ .site n .status → r ≠ .site n .attn → r ≠ .site n .faultInfo → r ≠ .d .irqLinePend →
        t.reg r = s.reg r
    let bits := fun (t : State) (e : Nat) (b : Bool) =>
      ∀ k, bitAt (t.reg (.site n .ctrl)) k = if k = e then b else bitAt ctrl k
    let rest := fun (hold : Bool) => if hold then TState.held else if v.events = 0 then TState.idle else .pending
    let asked := fun (r : SaveReason) => some (SaveReason.over v.save r)
    let into := fun (q : TState) => { v with tstate := q, quantumAsked := v.quantumAsked && decide (q = .pending) }
    (v.txn ≠ .undelivered → only 0 → keep 0 → writes1 a d 0 = true → bitAt ctrl 0 = false → Answers (.enWritten1 a n d) s (fun t =>
        frame t ∧ (s.ctxBaseSet = true → s.siteBufSet = true → bits t 0 true ∧ t.site n = into (rest (bitAt ctrl 1)))
        ∧ ((s.ctxBaseSet = false ∨ s.siteBufSet = false) → bits t 0 false ∧ t.site n = v
            ∧ bitAt (t.reg (.site n .status)) 9 = true)))
    ∧ (v.txn ≠ .undelivered → only 0 → keep 0 → writes0 a d 0 = true → bitAt ctrl 0 = true → Answers (.enWritten0 a n d) s (fun t =>
        frame t ∧ (v.txn ≠ .idle → bits t 0 true ∧ t.site n = v ∧ bitAt (t.reg (.site n .status)) 9 = true)
        ∧ (v.txn = .idle → v.tstate ≠ .loaded → bits t 0 false ∧ t.site n = into .absent)
        ∧ (v.txn = .idle → v.tstate = .loaded → bits t 0 true ∧ t.site n = { v with enClear := true, save := asked .en0 })))
    ∧ (v.txn ≠ .undelivered → only 8 → keep 3 → writes1 a d 8 = true → Answers (.fault a n d) s (fun t =>
        frame t ∧ ((v.tstate = .idle ∨ v.tstate = .pending ∨ v.tstate = .held) → t.site n = into .faulted
            ∧ bitsOf (t.reg (.site n .faultInfo)) 7 0 = 0x80 ∧ bitAt (t.reg (.site n .attn)) 4 = true
            ∧ bitsOf (t.reg (.site n .faultInfo)) 31 16 = min (bitsOf (s.reg (.site n .faultInfo)) 31 16 + 1) 65535
            ∧ bitAt (t.reg (.d .irqLinePend)) 7 = true)
        ∧ (v.tstate = .loaded → t.site n = { v with save := some .fault })))
    ∧ (v.txn ≠ .undelivered → only 9 → keep 3 → writes1 a d 9 = true → v.tstate = .faulted → Answers (.resume a n d) s (fun t =>
        frame t ∧ t.site n = into (rest (bitAt ctrl 1))
        ∧ (∀ k, bitAt (t.reg (.site n .faultInfo)) k = (decide (8 ≤ k) && bitAt (s.reg (.site n .faultInfo)) k))))
    ∧ (v.txn ≠ .undelivered → only 0 → keep 1 → writes1 a d 1 = true → bitAt ctrl 1 = false → Answers (.holdWritten1 a n d) s (fun t =>
        frame t ∧ bits t 1 true ∧ ((v.tstate = .idle ∨ v.tstate = .pending) → t.site n = into .held)
        ∧ (v.tstate = .loaded → t.site n = { v with save := asked .hold })))
    ∧ (v.txn ≠ .undelivered → only 0 → keep 1 → writes0 a d 1 = true → bitAt ctrl 1 = true → Answers (.holdWritten0 a n d) s (fun t =>
        frame t ∧ bits t 1 false ∧ (v.tstate = .held → t.site n = into (rest false))
        ∧ (v.tstate ≠ .held → t.site n = v)))
    ∧ (only 0 → keep 2 → writes1 a d 2 = true → Answers (.autoReplay a n d) s (fun t =>
        bits t 2 true ∧ (v.txn ≠ .undelivered → frame t ∧ t.site n = v)
        ∧ (v.txn = .undelivered → v.woffPending = false → v.unacked ≠ [] → s.stationUp n = true → s.inReset = false →
            t.site n = { v with txn := .replaying, armed := false } ∧ t.sent.length = s.sent.length + v.unacked.length
            ∧ t.ctxs = s.ctxs)))
    ∧ (v.txn ≠ .undelivered → only 10 → keep 3 → writes1 a d 10 = true → Answers (.ctrClear a n d) s (fun t =>
        frame t ∧ t.site n = { v with clearPending := true }))

/-! ## Curlew and the sealed journal (spec/17) -/

/-- R67, R419, R421, R426: an append is accepted behind the others of its site. SB_JRNL_TAIL takes a value between itself
and HEAD + 1 and no other. Installing a ring by the secure world stores its base, sets HEAD to 0 and puts an OPEN append
before every other, in place of one that waits. An append that completes writes its record's slot, advances HEAD by one and
takes effect with it: a settlement's counter and its transaction, the tail of an opened ring, or the clear. -/
def Obligations.JournalAppends : Prop :=
  ∀ (s : State) (a : Access) (n : SiteId) (d : Word32),
    let v := s.site n
    let kinds := fun (t : State) => (t.site n).appends.map Append.kind
    let kept := fun (t : State) => ∀ b, s.inKeyArray b = false → t.memByte b = s.memByte b
    (v.clearPending = true → v.txn = .idle → v.clearQueued = false → Answers (.clearSettlement n) s (fun t =>
        kinds t = kinds s ++ [.clear] ∧ kept t ∧ t.ctxs = s.ctxs))
    ∧ (s.reaches a (.site n .jrnlTail) d = true → lanesOf a = 0xF →
        (s.tail n ≤ d.toNat → d.toNat ≤ s.head n + 1 → Answers (.sbJrnlTailWrite a n d) s (fun t =>
          t.reg (.site n .jrnlTail) = d ∧ kinds t = kinds s ∧ kept t))
        ∧ ((d.toNat < s.tail n ∨ s.head n + 1 < d.toNat) → exec (.sbJrnlTailWrite a n d) s = .next (s.complete a)))
    ∧ (s.reaches a (.site n .jrnlBaseHi) d = true → lanesOf a = 0xF → a.req ≠ .host → s.accWorld a (.site n .jrnlBaseHi) = .secure →
        v.txn = .idle → s.opInFlight n = false →
      let st := s.stagedOf (whoOf a) (.site n .jrnlBaseLo)
      let lo := mergeBits (s.reg (.site n .jrnlBaseLo)) (laneMask st.2 &&& 0xFFFFF00F) st.1
      let hi := mergeBits (s.reg (.site n .jrnlBaseHi)) 0xFF d
      s.ringPlaced n (baseOf lo hi 12) (bitsOf lo 3 0) = true → Answers (.ringInstall a n d) s (fun t =>
        t.reg (.site n .jrnlBaseLo) = lo ∧ t.reg (.site n .jrnlBaseHi) = hi ∧ t.reg (.site n .jrnlHead) = 0
        ∧ (t.site n).ringSet = true ∧ kinds t = .opening :: (kinds s).filter (fun q => decide (q ≠ .opening)) ∧ kept t ∧ t.ctxs = s.ctxs))
    ∧ (∀ (p : Append) (more : List Append) (o : OpCopy), v.appends = p :: more → p.began = some o → o.revoked = false →
        s.ringAllowed n = true → s.wantsIv n p o = false → s.effectiveKind n p.kind = p.kind → s.upset = [] →
      let q := s.head n + 1
      let at0 := s.slotAddr n q
      let body := buildRecord s n q p.kind o v.sword []
      let slot := body ++ List.replicate (0xFE0 - body.length) 0 ++ recordTag o.key (prevTag v p.kind) q body
      s.droppedWords at0 slot.length = [] → Answers (.appendComplete n) s (fun t =>
        (∀ i, i < slot.length → s.inKeyArray (at0 + i) = false → t.memByte (at0 + i) = slot.getD i 0)
        ∧ (∀ b, (b < at0 ∨ at0 + slot.length ≤ b) → s.inKeyArray b = false → t.memByte b = s.memByte b)
        ∧ t.reg (.site n .jrnlHead) = BitVec.ofNat 32 q ∧ kinds t = more.map Append.kind
        ∧ (p.kind = .opening → t.reg (.site n .jrnlTail) = 1)
        ∧ (p.kind = .clear → (t.site n).clearPending = false ∧ ∀ r, r ∈ counterRegs → t.reg (.site n r) = 0)
        ∧ (p.kind = .settle → (t.site n).txn = .idle ∧ (t.site n).unacked = []
            ∧ (bitAt v.sword 4 = true → t.reg (.site n (.bin (BitVec.ofNat 4 (bitsOf v.sword 3 0)))) =
                natBcd ((bcdNat (s.reg (.site n (.bin (BitVec.ofNat 4 (bitsOf v.sword 3 0))))) + 1) % 10 ^ 8)))))

/-- R409 to R411: the loads and retries of Curlew answer whatever the state, and change no context, no link and no other
site's queue. A site whose oldest append waits for its key has it loaded into a free slot from the vault, and the append
begins under it; a retry does the same. The oldest queued key load loads its tenant's key. CW_REQ is freed by writing 1 to
VALID, and every waiting operation is tried again. A failed residue check of a settlement's counters makes a record, and the
append stays (R344). -/
def Obligations.KeysAreLoaded : Prop :=
  (∀ (s : State) (n : SiteId) (up : Upset),
    let answers := fun (i : Instr) => Answers i s (fun t => t.ctxs = s.ctxs ∧ t.links = s.links ∧ t.sent = s.sent
      ∧ ∀ m, m ≠ n → (t.site m).appends.map Append.kind = (s.site m).appends.map Append.kind ∧ (t.site m).txn = (s.site m).txn)
    answers (.keyLoadOnDemand n up) ∧ answers (.curlewRetry n up) ∧ answers (.counterResidueRetry n)
    ∧ (s.curlew.loads.head? = some n → answers (.kloadDone up))
    ∧ (s.curlew.loads = [] → exec (.kloadDone up) s = .next s))
  ∧ (∀ (s : State) (a : Access) (d : Word32), s.reaches a (.curlew .cwReq) d = true → writes1 a d 0 = true →
      exec (.cwReqClear a d) s = .next (((s.setReg (.curlew .cwReq) 0).retryAll).complete a))
  ∧ (∀ (s : State) (n : SiteId) (k : Nat) (u : Unwrapped),
    let v := s.site n
    let loaded := fun (t : State) => (t.keySlot k).loaded = true ∧ (t.keySlot k).tenant = n ∧ (t.keySlot k).key = u.key
      ∧ (t.keySlot k).epoch = u.epoch ∧ (t.keySlot k).encSite = u.encSite ∧ (t.keySlot k).gen = (s.keySlot k).gen + 1
      ∧ (t.site n).keyState = 2 ∧ (∀ j, j ≠ k → t.keySlot j = s.keySlot j)
      ∧ (∀ b, s.inKeyArray b = false → t.memByte b = s.memByte b)
      ∧ ((s.keyV = true → s.poisoned (s.keyBase + (s.vaultBase + 128 * n.toNat) / 4096) = false) → t.regs = s.regs)
    (s.slotOf n = none → s.chooseSlot = some k → (s.keySlot k).loaded = false → s.unwrap n = some u →
      (s.needsKey n = true → v.keyState ≠ 3 → s.opCount < 8 →
        let begun := fun (t : State) => loaded t ∧ ∃ o, (t.site n).op = some o ∧ o.key = u.key ∧ o.slot = k
        Answers (.keyLoadOnDemand n) s begun ∧ Answers (.curlewRetry n) s begun)
      ∧ (∀ rest, s.curlew.loads = n :: rest → v.appends = [] → Answers .kloadDone s (fun t => loaded t ∧ t.curlew.loads = rest)))
    ∧ (∀ (p : Append) (more : List Append), v.appends = p :: more → p.began.isSome = true → (p.kind = .settle ∨ p.kind = .writeOff) →
        bitAt (s.reg (.d .integRecInfo)) 0 = false → Answers (.counterResidueRetry n) s (fun t =>
          bitsOf (t.reg (.d .integRecInfo)) 7 4 = 8 ∧ bitsOf (t.reg (.d .integRecInfo)) 15 8 = 7
          ∧ bitsOf (t.reg (.d .integRecInfo)) 23 20 = 5 ∧ bitAt (t.reg (.d .irqLinePend)) 10 = true
          ∧ t.sites = s.sites ∧ t.mem = s.mem)))

/-- R408, R429, R430: a post moves CR_PROD. GENKEY for one tenant writes a valid entry for it with the next epoch,
KWRAP_STAGED copies an absent key as zeros, whether or not randomness is there, and VERIFY checks the tags of its records;
that it does so under the key in the tenant's slot, where one is loaded, is the model's reading (notes/assumptions/26.md).
The tenants wrapped since their last GENKEY are kept (R472). Each writes STATUS and RESULT into its descriptor and moves
CR_CONS past it, and every other byte outside the key array stays, whatever words elsewhere are poisoned. -/
def Obligations.CommandRings : Prop :=
  ∀ (s : State) (a : Access) (k : BitVec 3) (n : SiteId) (data : Word32) (d : Desc),
    let at0 := s.descAddr k
    let done := fun (t : State) (status result : Nat) =>
      t.memByte (at0 + 1) = BitVec.ofNat 8 status ∧ (∀ i, i < 4 → t.memByte (at0 + 0x10 + i) = byteOf result i)
      ∧ t.crCons k = (s.crCons k + 1) % 65536
    (s.reaches a (.curlew (.crProd k)) data = true →
      let s1 := s.setReg (.curlew (.crProd k)) (mergeBits (s.reg (.curlew (.crProd k)))
        (laneMask (lanesOf a) &&& (KReg.spec (.crProd k)).rw) data)
      s1.nextDesc k = some d → s1.badDesc k d = false → exec (.crProdWrite a k data) s = .next (s1.complete a))
    ∧ (s.nextDesc k = some d → s.badDesc k d = false → (∀ i, i < 64 → s.inKeyArray (at0 + i) = false) →
        s.anyPoison at0 64 = false → s.upset = [] → s.crProd k = (s.crCons k + 1) % 65536 →
        d.first = n.toNat → d.last = n.toNat → (s.site n).appends = [] →
      let free := fun (e0 : Nat) => ∀ i, i < 128 → s.inKeyArray (e0 + i) = false
      (d.op = 1 → s.vaultV = true → s.drbg.instantiated = true →
          let e0 := s.vaultBase + 128 * n.toNat
          free e0 → (at0 + 64 ≤ e0 ∨ e0 + 128 ≤ at0) → Answers (.genkey k) s (fun t => done t 1 n.toNat
            ∧ t.memByte e0 = BitVec.ofNat 8 (1 + 2 * bit (decide (d.flags = 1)))
            ∧ leNat (t.memRead (e0 + 4) 2) = (let old := s.memRead e0 6
                let e := leNat (old.drop 4)
                if leNat (old.take 1) % 2 = 0 ∨ e = 65535 then 1 else e + 1)
            ∧ (t.site n).keyState = (if (s.site n).keyState = 0 ∨ (s.site n).keyState = 3 then 1 else (s.site n).keyState)
            ∧ smGet t.ue.wrapped false n.toNat = false
            ∧ (∀ b, (b < e0 ∨ e0 + 128 ≤ b) → (b < at0 ∨ at0 + 0x18 ≤ b) → s.inKeyArray b = false → t.memByte b = s.memByte b)))
      ∧ (d.op = 2 → s.ue.stageValid = true → s.stageV = true → s.vaultEmpty n = true →
          let e0 := s.stageBase + 128 * n.toNat
          free e0 → (at0 + 64 ≤ e0 ∨ e0 + 128 ≤ at0) → Answers (.kwrapStaged k) s (fun t => done t 1 n.toNat
            ∧ (∀ i, i < 128 → t.memByte (e0 + i) = 0)
            ∧ (t.site n).keyState = (if (s.site n).keyState = 3 then 3 else 0) ∧ smGet t.ue.wrapped false n.toNat = true
            ∧ (∀ b, (b < e0 ∨ e0 + 128 ≤ b) → (b < at0 ∨ at0 + 0x18 ≤ b) → s.inKeyArray b = false → t.memByte b = s.memByte b)))
      ∧ (∀ j : Nat, d.op = 3 → s.liveSlot n = some j → 1 ≤ d.seqFrom → s.tail n < d.seqFrom → d.seqTo ≤ s.head n →
          Tide.hasSite s.tide.entries n = false →
          (∀ q, d.seqFrom ≤ q + 1 → q ≤ d.seqTo → s.meetsKeyArray (s.slotAddr n q) 0x1000 = false) →
          let bad := s.verifyFrom n (s.keySlot j) ((s.slotBytes n (d.seqFrom - 1)).drop 0xFE0)
            ((List.range (d.seqTo + 1 - d.seqFrom)).map (fun i => d.seqFrom + i))
          Answers (.verify k) s (fun t =>
            (match bad with
              | none => done t 1 d.seqTo
              | some q => done t 7 q)
            ∧ (∀ b, (b < at0 ∨ at0 + 0x18 ≤ b) → s.inKeyArray b = false → t.memByte b = s.memByte b))))

/-! ## Spoonbill and randomness (spec/09, spec/17) -/

/-- R238, R240: a COUNT or REPAIR whose window reads and whose outputs may be written ends with its STATUS in its ticket and
its unit free for the next command. A repair list never exceeds the spares, and where its DETAIL says that every fail is
repaired, every fail of the window lies on a listed row or column. -/
def Obligations.SpoonbillCommandsComplete : Prop :=
  (∀ (s : State) (u : BitVec 2) (k : SpbCmd) (rest : List SpbCmd), s.unit u.toNat = k :: rest →
    let d := readSpb k.desc
    ∀ l0 f ps l, d.bad k.ctx = none → s.spbCheckOuts k.ctx d.allOuts = .ok l0 →
      let s1 := s.spbKeys k.ctx (l0.flatMap (·.2.1))
      s1.spbWindow k.ctx d (List.range d.h) = (.ok f, ps) →
      ((s1.spbKeys k.ctx ps).touchPieces ps false).spbCheckOuts k.ctx (d.out f).outs = .ok l →
    (d.op = 1 → Answers (.count u) s (fun t => t.unit u.toNat = rest ∧ t.ctxs = s.ctxs
      ∧ t.ticket k.tenant k.ticket.toNat = .done 1))
    ∧ (d.op = 2 → Answers (.repair u) s (fun t => t.unit u.toNat = rest ∧ t.ctxs = s.ctxs
      ∧ t.ticket k.tenant k.ticket.toNat = .done (BitVec.ofNat 32
          (1 + 256 * (repairOf d f).detail + 65536 * (repairOf d f).entries.length)))))
  ∧ (∀ (d : SpbDesc) (f : List (List Bool)),
      (repairOf d f).entries.length ≤ d.spareRows + d.spareCols
      ∧ ((repairOf d f).detail = 0 → ∀ y x, y < d.h → x < d.w → (f.getD y []).getD x false = true →
          y ∈ (repairOf d f).entries ∨ 2 ^ 31 + x ∈ (repairOf d f).entries))

/-! ## System registers (spec/03, spec/11, spec/16, spec/17) -/

/-- R70, R103, R267, R374, R376, R406: a write of the _HI half of a base, weir, ASSIGN or vault pair installs both halves
where its rule lets it, and is otherwise ignored; either way nothing stays staged. SRAM_WEIR keeps its OFFSET under its lock
and for a reserved value, and a change of a weir once a core is released changes nothing and is recorded (R497); that it is
so whatever the weir's lock holds is the model's reading (notes/assumptions/46.md). R385, R393, R397, R398, R399: a commit
of the enclave table marks itself busy and takes ENCL_CTRL as it stands (R384), and ends with the first failure and no
change, or, once every access checked under the old table has been performed, with the table's valid descriptors in force. A
write of DBG_EN sets each enable up to its ceiling and releases every context halted in a world whose invasive enable it
clears. WDT_CTRL is written until locked; a kick clears the warning; Bittern warns at half its count, and at the full count
resets the chip. -/
def Obligations.SystemRegisterWrites : Prop :=
  (∀ (s : State) (a : Access) (addr : PhysAddr) (data : Word32), lanesOf a ≠ 0 →
      let base := fun (lo : Reg) (bit : Nat) => baseOf (s.newLo a lo) (s.newHi a lo data) bit
      let pair := fun (lo : Reg) (ok : Prop) (e : State → State) (o : Out) =>
        (ok → o = .next (s.pairTaken a lo data e)) ∧ (¬ ok → o = .next (s.pairIgnored a lo))
      let released := s.reg (.g .coreRelease) ≠ 0
      let keyEnd := fun (b : Nat) => b + s.dramSize / 4096
      let weir := fun (r : Reg) => r = .d .assignLine ∨ r = .d .assignRing
      (s.reaches a (.d .ctxBaseHi) data = true → pair (.d .ctxBaseLo)
        (s.anyTenant = false ∧ s.secWeir ≤ base (.d .ctxBaseLo) 20 ∧ base (.d .ctxBaseLo) 20 + 0x100000 ≤ s.dramSize)
        (fun t => { t with ctxBaseSet := true }) (exec (.ctxBaseWrite a data) s))
      ∧ (s.reaches a (.d .siteBufBaseHi) data = true → pair (.d .siteBufBaseLo)
        (s.anyTenant = false ∧ s.secWeir ≤ base (.d .siteBufBaseLo) 19 ∧ base (.d .siteBufBaseLo) 19 + 0x20000000 ≤ s.dramSize)
        (fun t => { t with siteBufSet := true }) (exec (.siteBufBaseWrite a data) s))
      ∧ (s.reaches a (.d .keyBaseHi) data = true → pair (.d .keyBaseLo)
        (bitAt (s.reg (.d .keyBaseHi)) 31 = false ∧ (bitAt (s.newLo a (.d .keyBaseLo)) 0 = true →
          keyEnd (base (.d .keyBaseLo) 12) ≤ s.secWeir ∧ keyEnd (base (.d .keyBaseLo) 12) ≤ s.dramSize))
        id (exec (.keyBaseWrite a data) s))
      ∧ (s.reaches a (.d .secWeirHi) data = true → ¬ released → pair (.d .secWeirLo)
        (bitAt (s.reg (.d .secWeirHi)) 31 = false ∧ (s.keyV = true → keyEnd s.keyBase ≤ base (.d .secWeirLo) 20)
          ∧ (s.ctxBaseSet = true → base (.d .secWeirLo) 20 ≤ s.ctxBase)
          ∧ (s.siteBufSet = true → base (.d .secWeirLo) 20 ≤ s.siteBufBase))
        id (exec (.secWeirWrite a data) s))
      ∧ (s.reaches a (.d .secWeirHi) data = true → released → base (.d .secWeirLo) 20 ≠ s.secWeir →
        Answers (.secWeirWrite a data) s (fun t => t.secWeir = s.secWeir ∧ t.reg (.d .secWeirHi) = s.reg (.d .secWeirHi)
          ∧ ∀ x, a.req = .ctx x → ∃ e, (t.ctx x).storeErr = some e))
      ∧ (s.reaches a (.d .sramWeir) data = true → ¬ released →
        let old := s.reg (.d .sramWeir)
        let new := (DReg.spec .sramWeir).apply old (laneMask (lanesOf a)) data
        let keep := bitAt old 31 = true ∨ 0x800 < bitsOf new 23 12
        exec (.sramWeirWrite a data) s = .next ((s.setReg (.d .sramWeir)
          (setBits new 23 12 (bitsOf (if keep then old else new) 23 12))).complete a))
      ∧ (∀ r, weir r → namesReg a addr r → s.reaches a r data = true →
        exec (.assignWrite a addr data) s = .next ((if bitAt (s.reg (.d .assignLock)) 0 = true then s
          else s.setReg r (r.spec.apply (s.reg r) (laneMask (lanesOf a)) data)).complete a))
      ∧ (namesReg a addr (.d .assignLock) → s.reaches a (.d .assignLock) data = true →
        exec (.assignWrite a addr data) s = .next ((s.setReg (.d .assignLock)
          (s.reg (.d .assignLock) ||| (laneMask (lanesOf a) &&& 1 &&& data))).complete a))
      ∧ (∀ lo, (lo = .d .assignLinkLo ∨ lo = .d .assignTimerLo ∨ lo = .d .assignDbellLo) → namesReg a addr lo.hiOf →
        s.reaches a lo.hiOf data = true →
        pair lo (bitAt (s.reg (.d .assignLock)) 0 = false) id (exec (.assignWrite a addr data) s))
      ∧ (∀ lo, (lo = .curlew .vaultLo ∨ lo = .curlew .stageLo) → namesReg a addr lo.hiOf → s.reaches a lo.hiOf data = true →
        pair lo (bitAt (s.newLo a lo) 0 = true → base lo 17 + 0x20000 ≤ s.secWeir ∧ base lo 17 + 0x20000 ≤ s.dramSize)
          id (exec (.kvaultWrite a addr data) s)))
  ∧ (∀ (s : State) (a : Access) (data : Word32), lanesOf a ≠ 0 →
      let ds := ((List.range 2048).map (s.descriptor s.enclBase)).filter Descriptor.valid
      let lost := s.poison.any (fun e => e.2 && decide (s.enclBase ≤ e.1) && decide (e.1 < s.enclBase + 0x10000))
      (s.reaches a (.d .enclCommit) data = true → writes1 a data 0 = true → bitAt (s.reg (.d .enclStatus)) 0 = false →
        exec (.enclCommit a data) s = .next (({ s.setReg (.d .enclStatus) (s.reg (.d .enclStatus) ||| 1) with
          enclCtl := s.reg (.d .enclCtrl) } : State).complete a))
      ∧ (bitAt (s.reg (.d .enclStatus)) 0 = true →
        (bitAt s.enclCtl 0 = false → s.allPerformed = true → Answers .enclCommitDone s (fun t =>
          t.encl = [] ∧ t.reg (.d .enclStatus) = 0 ∧ (∀ r, r ≠ .d .enclStatus → t.reg r = s.reg r) ∧ t.mem = s.mem))
        ∧ (s.allPerformed = false → (bitAt s.enclCtl 0 = false ∨ s.enclFailure ds = none) → exec .enclCommitDone s = .next s)
        ∧ (∀ c n, bitAt s.enclCtl 0 = true → s.enclFailure ds = some (c, n) → lost = false →
          exec .enclCommitDone s = .next (s.setReg (.d .enclStatus) (BitVec.ofNat 32 (16 * c + 65536 * n))))
        ∧ (bitAt s.enclCtl 0 = true → s.enclFailure ds = none → s.allPerformed = true → lost = false → Answers .enclCommitDone s (fun t =>
          t.reg (.d .enclStatus) = 0 ∧ t.encl.length = ds.length ∧ t.mem = s.mem
          ∧ (∀ d, d ∈ ds → ∃ e, e ∈ t.encl ∧ e.num = d.num ∧ e.base = d.w0 / 4096 ∧ e.limit = d.w1 / 4096
              ∧ e.owner.toNat = d.owner ∧ e.dbg = decide (d.w0 / 2 % 2 = 1) ∧ e.gfirst = d.gfirst ∧ e.gcount = d.gcount))))
      ∧ (s.reaches a (.d .dbgEn) data = true → (lanesOf a).getLsbD 0 = true →
        (∀ x, (s.ctx x).trapDue = none ∧ (s.ctx x).stepDue = false ∧ (s.ctx x).dbgBytes = []) →
        Answers (.dbgEnWrite a data) s (fun t =>
          let falls := fun (k : Nat) => bitAt s.dbgEn k && !bitAt t.dbgEn k
          (∀ k, k < 4 → bitAt t.dbgEn k = (bitAt data k && bitAt (BitVec.ofNat 4 s.dbgCeil) k))
          ∧ (∀ x, t.ctx x = if (s.ctx x).halted ∧ falls (if (s.ctx x).world = .secure then 2 else 0) = true
              then { s.ctx x with halted := false, haltReq := false, stepping := false } else s.ctx x)
          ∧ (∀ r, r ≠ .d .dbgEn → t.reg r = s.reg r) ∧ t.mem = s.mem))
      ∧ (s.reaches a (.d .wdtCtrl) data = true →
        let old := s.reg (.d .wdtCtrl)
        let new := (DReg.spec .wdtCtrl).apply old (laneMask (lanesOf a)) data
        let restart := bitAt new 0 = true ∧ (bitAt old 0 = false ∨ bitsOf new 23 8 ≠ bitsOf old 23 8)
        (bitAt old 31 = true → exec (.wdtCtrlWrite a data) s = .next (s.complete a))
        ∧ (bitAt old 31 = false → 1 ≤ bitsOf new 23 8 → bitsOf new 23 8 ≤ 16000 → exec (.wdtCtrlWrite a data) s = .next
          (({ s with wdtHalf := s.wdtHalf && !decide restart } : State).setReg (.d .wdtCtrl) new |>.complete a)))
      ∧ (s.reaches a (.d .wdtKick) data = true → s.accWorld a (.d .wdtKick) = .secure → exec (.wdtKick a data) s = .next
        ((if bitAt (s.reg (.d .wdtCtrl)) 0 = true then { s with wdtHalf := false, wdtWarned := false } else s).complete a))
      ∧ (bitAt (s.reg (.d .wdtCtrl)) 0 = true → (s.ctx bootCtx).halted = false →
        (s.wdtHalf = false → exec .watchdogWarning s = .next
          ((({ s with wdtHalf := true, wdtWarned := true } : State).setReg (cxReg bootCtx .irqPend)
              (s.reg (cxReg bootCtx .irqPend) ||| 8)).setReg (.g .hintStatus) (s.reg (.g .hintStatus) ||| 0x800000)))
        ∧ (s.wdtHalf = true → Answers .swdt s (fun t => t.inReset = true
          ∧ t.reg (.g .resetCause) = s.reg (.g .resetCause) ||| 4 ∧ t.reg (.g .scratch1) = s.reg (.g .scratch1)
          ∧ (∀ r, r ≠ .g .resetCause → r ≠ .g .scratch1 → r ≠ .boot .status → t.reg r = r.spec.reset)
          ∧ t.ctxs = keepHalts s.ctxs ∧ t.sites = [] ∧ t.pending = s.pending))))


/-! ## Events between instructions (spec/12, spec/14, spec/15, spec/22) -/

/-- R355, R360, R361, R362, R364, R365: a doorbell that its writer's world may ring, and a comparator that TIME has reached,
set their pending bits. An NMI reaches the boot core and each running core that NMI_CTRL selects, and is taken as vector 2
of the secure world. An offered interrupt is taken at an open boundary, a secure source before a non-secure one and the
lowest vector first; a recorded bus error enters vector 3 and is cleared; a permitted debug halt stops its context. While an
atomic tide stops the contexts the same entries are made, ahead of the stop where it stands (Table 21.2), and the stop then
goes on. R338, R335, R336: the scrubber reads the next word: a clean word only moves it on, a correctable one is counted, an
uncorrectable one is poisoned, and the last word of installed DRAM completes a pass. That it goes through DRAM in rising
order by words of 8 bytes, and passes over poison that a cache holds apart from a clean copy in DRAM, is the model's reading
(notes/assumptions/54.md). R298: the oldest TLBI of a core completes once nothing that could have used a removed translation
is waiting; it leaves its core's queue and no core holds an entry that it takes. -/
def Obligations.EventsBetweenInstructions : Prop :=
  (∀ (s : State) (a : Access) (x : CtxId) (data : Word32),
      let pend := fun (b : Word32) => s.setReg (cxReg x .irqPend) (s.reg (cxReg x .irqPend) ||| b)
      let entry : EntryInfo := { xpc := (s.ctx x).pc, xaddr := 0, xinfo := 0, async := true, dly := none }
      -- what a stop under way does after an entry: it is noted where it is made, and the tide applies where all have stopped
      let stop := fun (t : State) =>
        let noted : State := { t with tide := { t.tide with stops := t.tide.stops ++ t.stopsNow } }
        if t.tide.stopping then (if noted.allStopped then noted.tideApply else noted) else t
      (s.reaches a (cxReg x .doorbell) data = true → writes1 a data 0 = true → exec (.ring a x data) s = .next
        ((if bitAt (s.irqMask (s.accWorld a (cxReg x .doorbell)) x) 2 then pend 4 else s).complete a))
      ∧ exec (.timerCompare x) s = .next
          (if bitAt (s.reg (.timer (.ctrl x))) 0 = true ∧ s.timerCmp x ≤ s.time then pend 2 else s)
      ∧ Answers .nmiN s (fun t => (t.ctx bootCtx).nmiPend = true ∧ t.regs = s.regs ∧ t.mem = s.mem
        ∧ ∀ c : CoreId, bitAt (s.reg (.g .nmiCtrl)) c.toNat = true → (s.core c.toNat).state = .running →
            ((∀ i : BitVec 2, (s.ctx (ctxOf c i)).occ = .free) → (t.core c.toNat).nmiWait = true)
            ∧ (∀ i : BitVec 2, (s.ctx (ctxOf c i)).occ ≠ .free → (∀ j : BitVec 2, j < i → (s.ctx (ctxOf c j)).occ = .free) →
                (t.ctx (ctxOf c i)).nmiPend = true))
      ∧ (s.nmiReady x = true → exec (.nmiEntry x) s = .next
          (stop ((s.upCtx x (fun c => { c with nmiPend := false })).enter x 2 .secure entry)))
      ∧ (∀ v w, s.openBoundary x = true → s.nextIrq x = some (v, w) →
          exec (.interruptEntry x) s = .next (stop (s.enter x v w entry))
          ∧ (v, w) ∈ s.offered x ∧ (s.ctx x).permits w = true
          ∧ (∀ p, p ∈ s.offered x → (s.ctx x).permits p.2 = true → (p.2 = .secure → w = .secure) ∧ (p.2 = w → v ≤ p.1)))
      ∧ (∀ e, s.busErrReady x = some e → e.world = (s.ctx x).world ∧ (s.ctx x).ie = true
          ∧ exec (.busErrorEntry x) s = .next (stop ((s.upCtx x (fun c => { c with storeErr := none })).enter x 3 e.world
              { entry with xaddr := e.addr, xinfo := e.cause.toNat + (if e.ovf then 512 else 0) })))
      ∧ (s.atBoundary x = true → s.haltPermitted x = true → exec (.debugHalt x) s = .next
          (s.upCtx x (fun c => { c.completeLoads with halted := true, haltReq := false, stepping := false, dbgBytes := [] }))))
  ∧ ((∀ s : State, bitAt (s.reg (.d .scrubCtrl)) 0 = true → 8 ≤ s.dramSize →
      let moved := fun (t : State) => t.scrubPos = (if s.dramSize ≤ s.scrubPos + 8 then 0 else s.scrubPos + 8)
        ∧ t.reg (.d .scrubStatus) = s.reg (.d .scrubStatus) + (if s.dramSize ≤ s.scrubPos + 8 then 1 else 0) ∧ t.ctxs = s.ctxs
      (s.poisoned s.scrubPos = false →
        Answers (.patrolScrub 0) s (fun t => moved t ∧ t.mem = s.mem ∧ ∀ r, r ≠ .d .scrubStatus → t.reg r = s.reg r)
        ∧ Answers (.patrolScrub 1) s (fun t => moved t ∧ t.mem = s.mem
          ∧ (t.reg (.d .integCeDram)).toNat = min ((s.reg (.d .integCeDram)).toNat + 1) 0xFFFFFFFF
          ∧ ∀ r, r ≠ .d .scrubStatus → r ≠ .d .integCeDram → t.reg r = s.reg r)
        ∧ Answers (.patrolScrub 2) s (fun t => moved t ∧ t.poisoned s.scrubPos = true ∧ bitAt (t.reg (.g .dramStatus)) 24 = true
          ∧ bitAt (t.reg (.g .hintStatus)) 22 = true ∧ bitAt (t.reg (.g .mchkStatus)) 0 = true
          ∧ bitAt (t.reg (.d .integRecInfo)) 0 = true
          ∧ ∀ b, wordOf b ≠ wordOf s.scrubPos → t.memByte b = s.memByte b))
      ∧ (s.poisoned s.scrubPos = true → Answers (.patrolScrub 0 true) s (fun t => moved t ∧ t.mem = s.mem
          ∧ ∀ r, r ≠ .d .scrubStatus → t.reg r = s.reg r))
      ∧ (s.poisoned s.scrubPos = true → ∀ o, Answers (.patrolScrub o) s (fun t => moved t ∧ t.mem = s.mem
          ∧ (t.reg (.d .integPoisonUse)).toNat = min ((s.reg (.d .integPoisonUse)).toNat + 1) 0xFFFFFFFF)))
    ∧ (∀ (s : State) (core : Fin 17) (t : Tlbi) (rest : List Tlbi), (s.core core.val).tlbis = t :: rest →
        (∀ x, (s.ctx x).storeBuf = []) → (∀ u : BitVec 2, ∀ k, k ∈ smGet s.spb [] u.toNat → t.waitsFor k = false) →
        Answers (.tlbiComplete core) s (fun u =>
          (u.core core.val).tlbis = rest ∧ u.regs = s.regs ∧ u.mem = s.mem ∧ u.ctxs = s.ctxs
          ∧ (∀ c : Fin 17, (∀ b : TlbArray, (u.core c.val).tlbs.get b = ((s.core c.val).tlbs.get b).filter (fun e => !t.takes e))
              ∧ (u.core c.val).wcache = (s.core c.val).wcache.filter (fun e => !t.takesWalk e)
              ∧ (u.core c.val).locked = (s.core c.val).locked ∧ (c ≠ core → (u.core c.val).tlbis = (s.core c.val).tlbis)))))


/-! ## Links (spec/04, spec/21) -/

/-- R86, R87, R88, R516, R517, Table 4.1: signal takes a DOWN link that is enabled and not fenced to TRAINING, and block
lock takes it to UP, but not during a chip reset (R556). Loss of signal, loss of block lock and every write of LB_CTRL leave
the link where its state, EN, FENCE, LOOPBACK and its signal say (DOWN with EN 0 and FENCE 1, which Table 4.1 gives DOWN and
FENCED alike, is the model's choice: notes/assumptions/76.md), and a link that leaves UP loses every station and sets
HINT_STATUS.LINK and line 4. The PRBS checker of a fenced link in loopback locks and counts errors. -/
def Obligations.LinksFollowSignalLockAndControls : Prop :=
  ∀ (s : State) (k : LinkId),
    let l := s.link k
    let told := fun (t : State) => (t.setReg (.g .hintStatus) (t.reg (.g .hintStatus) ||| 0x10)).setReg (.d .irqLinePend)
      (t.reg (.d .irqLinePend) ||| 0x10)
    let left := fun (t : State) => (∀ n : StationId, (t.station k n).present = false)
      ∧ bitAt (t.reg (.g .hintStatus)) 4 = true ∧ bitAt (t.reg (.d .irqLinePend)) 4 = true
    let apart := fun (t : State) => (∀ j, j ≠ k → t.link j = s.link j) ∧ t.mem = s.mem ∧ t.ctxs = s.ctxs
    exec (.signalPresent k) s = .next (s.setLink k { l with
      signal := true
      state := if l.state = .down ∧ s.linkEn k = true then (if s.linkFence k then .fenced else .training) else l.state })
    ∧ (l.state ≠ .up → exec (.signalLost k) s = .next (s.setLink k { l with
      signal := false, state := if l.state = .training then .down else l.state }))
    ∧ (l.state = .up → Answers (.signalLost k) s (fun t => (t.link k).state = .down ∧ (t.link k).signal = false
      ∧ left t ∧ apart t))
    ∧ (l.state = .training → s.inReset = false → exec (.blockLock k) s = .next (told (s.setLink k { l with state := .up })))
    ∧ (s.inReset = true → exec (.blockLock k) s = .next s)
    ∧ (l.state = .up → Answers (.blockLockLost k) s (fun t => (t.link k).state = .training ∧ (t.link k).signal = l.signal
      ∧ left t ∧ apart t))
    ∧ (∀ a data, s.reaches a (.link k .ctrl) data = true →
      let old := s.reg (.link k .ctrl)
      let v := (LReg.spec .ctrl).apply old (laneMask (lanesOf a)) data
      let idle := if l.signal then LinkState.training else .down
      let next := if bitAt v 0 = false then LinkState.down
        else if bitAt v 1 = true then (if l.state = .loopback ∧ bitAt v 2 = true then .loopback else .fenced)
        else if bitAt old 1 = true ∨ bitAt old 0 = false ∨ l.state = .down then idle else l.state
      let written := fun (t : State) => t.reg (.link k .ctrl) = v ∧ (t.link k).state = next ∧ (t.link k).signal = l.signal
        ∧ (l.state = .up → next ≠ .up → left t) ∧ (l.state ≠ .up → t.sites = s.sites ∧ ∀ n, t.station k n = s.station k n)
        ∧ apart t
      Answers (.en a k data) s written ∧ Answers (.loopback a k data) s written
      ∧ (writes1 a data 1 = true → Answers (.fenceWritten1 a k data) s written)
      ∧ (writes0 a data 1 = true → Answers (.fenceWritten0 a k data) s written))
    ∧ (∀ errors, l.state = .fenced → s.linkEn k = true → s.linkFence k = true → s.linkLoop k = true →
      Answers (.loopbackLock k errors) s (fun t => (t.link k).state = .loopback
        ∧ (t.reg (.link k .prbsErr)).toNat = min ((s.reg (.link k .prbsErr)).toNat + errors.toNat) 0xFFFFFFFF
        ∧ (∀ r, r ≠ .link k .prbsErr → t.reg r = s.reg r) ∧ t.sites = s.sites ∧ apart t))

/-- R90, R92 to R101: a frame that passes its checks on an UP link. The next DATA of a site goes to a free inbox slot in the
layout of R340 (that it is the lowest-numbered one is the model's choice: notes/assumptions/20.md) and owes an
acknowledgement; one already received is acknowledged again, and one outside the window is answered with a NAK. An
acknowledgement frees the frames up to it and moves SB_SEQ_ACK; a NAK of the last one acknowledged sends every held frame
again. During the stop of an atomic tide a frame that passes is kept for the mapping to come (R505). HELLO makes the station
present, and the timers send ACK and HEARTBEAT frames, go back, and lose silent stations. R115, R116, R118, R120: a hold
timer that runs out makes its transaction UNDELIVERED, sets SB_ATTN.UNSETTLED and queues an undelivered record for each held
frame, in order. LC_DISPOSE replays an undelivered transaction of the site fed from its station, arms the replay where the
station is absent, or starts a write-off, and records the outcome; any other case changes nothing but the record. -/
def Obligations.FramesTimersAndHeldTransactions : Prop :=
  (∀ (s : State) (k : LinkId) (r : RxFrame),
      let f := frameFields r.bytes
      let st := f.station
      let sends := fun (u : State) (y : StationId) (type : Nat) (flags : Nat) => ∃ bs : List Byte,
        u.sent = s.sent ++ [{ link := k, bytes := bs }] ∧ bs.length = 16 ∧ (bs.getD 0 0).toNat = type ∧ crcGood bs = true
        ∧ ((bs.getD 1 0).toNat % 16 = y.toNat) ∧ (bs.getD 1 0).toNat / 32 % 2 = flags
      let passed := (s.link k).state = .up ∧ r.coding = false ∧ crcGood r.bytes = true ∧ lengthGood r.bytes = true
        ∧ formatGood r.bytes = true ∧ s.boot.cl0 = false ∧ s.boot.phase = .off ∧ s.tide.stopping = false ∧ s.inReset = false
      (passed → ∀ n, s.installedSite k st = some n →
        let v := s.site n
        (f.type = 1 → f.ackv = false →
          (∀ i, f.seq = (s.station k st).inSeq → v.freeInbox = some i → Answers (.data k r) s (fun t =>
            (t.station k st).inSeq = f.seq + 1 ∧ (t.station k st).any = true ∧ (t.station k st).ackOwed = true
            ∧ (∃ x : InFrame, (t.site n).inbox = v.inbox ++ [x] ∧ x.slot = i ∧ x.seq = f.seq ∧ x.utype = f.utype ∧ x.len = f.len)
            ∧ (∀ j, j < f.len → s.inKeyArray (s.inboxSlot n i + 16 + j) = false →
                t.memByte (s.inboxSlot n i + 16 + j) = f.payload.getD j 0)
            ∧ t.sent = s.sent))
          ∧ (1 ≤ ((s.station k st).inSeq - f.seq).toNat → ((s.station k st).inSeq - f.seq).toNat ≤ 32 →
              Answers (.data k r) s (fun t => sends t st 2 0 ∧ t.mem = s.mem ∧ t.sites = s.sites))
          ∧ (32 < ((s.station k st).inSeq - f.seq).toNat → (s.station k st).lastNak = none →
              Answers (.data k r) s (fun t => sends t st 3 0 ∧ t.mem = s.mem ∧ t.sites = s.sites)))
        ∧ (f.type = 2 ∨ f.type = 4 → ∀ i o, f.ackv = true → v.unacked.drop i = o :: v.unacked.drop (i + 1) → o.seq = f.ack →
          (∀ p, p ∈ v.unacked.take i → p.seq ≠ f.ack) →
          let freed := fun (t : State) => (t.site n).unacked = v.unacked.drop (i + 1) ∧ (t.site n).goBacks = 0
            ∧ t.reg (.site n .seqAck) = f.ack.setWidth 32 ∧ (∀ b, s.inKeyArray b = false → t.memByte b = s.memByte b) ∧ t.sent = s.sent
          (f.type = 2 → Answers (.ack k r) s freed) ∧ (f.type = 4 → Answers (.heartbeat k r) s freed))
        ∧ (f.type = 4 → f.ackv = false → exec (.heartbeat k r) s = .next s)
        ∧ (f.type = 3 → f.ackv = true → ∀ o rest, v.unacked = o :: rest → f.ack = o.seq - 1 →
          (∀ p, p ∈ v.unacked → p.seq ≠ f.ack) → s.maySend n = true → v.goBacks < 16 → Answers (.nak k r) s (fun t =>
            t.sent.length = s.sent.length + v.unacked.length ∧ (t.site n).goBacks = v.goBacks + 1
            ∧ (t.site n).unacked = v.unacked))
        ∧ (f.type = 5 → (s.station k st).present = false → v.txn = .idle → v.unacked = [] → Answers (.hello k r) s (fun t =>
            (t.station k st).present = true ∧ sends t st 6 0 ∧ bitAt (t.reg (.site n .attn)) 3 = true ∧ t.mem = s.mem)))
      ∧ ((s.link k).state = .up → r.coding = false → crcGood r.bytes = true → lengthGood r.bytes = true → formatGood r.bytes = true →
          s.boot.cl0 = false → s.boot.phase = .off → s.tide.stopping = true → s.inReset = false →
        let waits : Out := .next { s with tide := { s.tide with deferred := s.tide.deferred ++ [(k, r)] } }
        exec (.data k r) s = waits ∧ exec (.ack k r) s = waits ∧ exec (.nak k r) s = waits ∧ exec (.heartbeat k r) s = waits
        ∧ exec (.hello k r) s = waits)
      ∧ (passed → s.installedSite k st = none → f.type = 5 → (s.station k st).present = false → Answers (.hello k r) s (fun t =>
          sends t st 6 1 ∧ t.regs = s.regs ∧ t.mem = s.mem ∧ t.sites = s.sites))
      ∧ (s.inReset = true → exec (.data k r) s = .next s.bootGo ∧ exec (.hello k r) s = .next s.bootGo)
      ∧ (∀ y : StationId, (s.link k).state = .up → s.inReset = false →
        ((s.station k y).ackOwed = true → Answers (.ackTimer k y) s (fun t => sends t y 2 0
          ∧ (t.station k y).ackOwed = false ∧ t.regs = s.regs ∧ t.mem = s.mem ∧ t.sites = s.sites))
        ∧ ((s.station k y).present = true → Answers (.heartbeatTimer k y) s (fun t => sends t y 4 0
          ∧ (t.station k y).ackOwed = false ∧ t.regs = s.regs ∧ t.mem = s.mem ∧ t.sites = s.sites)))
      ∧ (∀ y : StationId, (s.station k y).present = true → Answers (.stationLossTimeout k y) s (fun t =>
          (t.station k y).present = false
          ∧ (t.reg (.link k .lost)).toNat = min ((s.reg (.link k .lost)).toNat + 1) 0xFFFFFFFF
          ∧ (∀ n, s.fedSite k y = some n → bitAt (t.reg (.site n .attn)) 2 = true) ∧ t.mem = s.mem ∧ t.sent = s.sent))
      ∧ (∀ n, (s.site n).unacked ≠ [] → s.maySend n = true → s.inReset = false →
        ((s.site n).goBacks < 16 → Answers (.retransmitTimeout n) s (fun t =>
          t.sent.length = s.sent.length + (s.site n).unacked.length ∧ (t.site n).goBacks = (s.site n).goBacks + 1))
        ∧ (16 ≤ (s.site n).goBacks → Answers (.retransmitTimeout n) s (fun t =>
          (t.station (s.siteLink n).1 (s.siteLink n).2).present = false ∧ t.sent = s.sent))))
  ∧ ((∀ (s : State) (n : SiteId), (s.site n).txn = .unsettled → (s.site n).holdTimer.isSome = true →
      Answers (.holdTimer n) s (fun t => (t.site n).txn = .undelivered ∧ (t.site n).holdTimer = none
        ∧ (t.site n).unacked = (s.site n).unacked ∧ bitAt (t.reg (.site n .attn)) 1 = true ∧ bitAt (t.reg (.d .irqLinePend)) 6 = true
        ∧ (t.site n).appends.map (·.kind) = (s.site n).appends.map (·.kind) ++ (s.site n).unacked.map AppendKind.undelivered
        ∧ (∀ m, m ≠ n → t.site m = s.site m) ∧ (∀ b, s.inKeyArray b = false → t.memByte b = s.memByte b) ∧ t.ctxs = s.ctxs))
    ∧ (∀ (s : State) (a : Access) (k : LinkId) (data : Word32), s.reaches a (.link k .dispose) data = true → lanesOf a ≠ 0 →
        let seen := data &&& laneMask (lanesOf a)
        let y : StationId := BitVec.ofNat 4 (bitsOf seen 3 0)
        let result := fun (act res : Nat) => BitVec.ofNat 32 (y.toNat + 256 * act + 65536 * res)
        let only := fun (t : State) (act res : Nat) => t = (s.setReg (.link k .disposeResult) (result act res)).complete a
        (bitsOf seen 9 8 = 1 →
          (s.fedSite k y = none → Answers (.replay a k data) s (fun t => only t 1 3))
          ∧ (∀ n, s.fedSite k y = some n → ((s.site n).txn ≠ .undelivered ∨ (s.site n).woffPending = true) →
              Answers (.replay a k data) s (fun t => only t 1 2))
          ∧ (∀ n, s.fedSite k y = some n → (s.site n).txn = .undelivered → (s.site n).woffPending = false →
            (s.stationUp n = false → exec (.replay a k data) s = .next
              (((s.upSite n (fun v => { v with armed := true })).setReg (.link k .disposeResult) (result 1 1)).complete a))
            ∧ (s.stationUp n = true → s.inReset = false → Answers (.replay a k data) s (fun t => (t.site n).txn = .replaying
                ∧ (t.site n).armed = false ∧ t.sent.length = s.sent.length + (s.site n).unacked.length
                ∧ t.reg (.link k .disposeResult) = result 1 0))))
        ∧ (bitsOf seen 9 8 = 2 →
          (s.fedSite k y = none → Answers (.writeOff a k data) s (fun t => only t 2 3))
          ∧ (∀ n, s.fedSite k y = some n → (s.site n).woffPending = false →
              ((s.site n).txn = .undelivered ∨ ((s.site n).txn = .taken ∧ (s.site n).tstate ≠ .loaded)) →
              Answers (.writeOff a k data) s (fun t => (t.site n).woffPending = true ∧ (t.site n).txn = (s.site n).txn
                ∧ (t.site n).appends.map (·.kind) = (s.site n).appends.map (·.kind) ++ [.writeOff]
                ∧ t.reg (.link k .disposeResult) = result 2 0 ∧ (∀ b, s.inKeyArray b = false → t.memByte b = s.memByte b)))
          ∧ (∀ n, s.fedSite k y = some n → ((s.site n).woffPending = true
              ∨ ((s.site n).txn ≠ .undelivered ∧ ((s.site n).txn ≠ .taken ∨ (s.site n).tstate = .loaded))) →
              Answers (.writeOff a k data) s (fun t => only t 2 2)))))


/-! ## Resets, clocks, supplies and randomness (spec/17, spec/18, spec/23) -/

/-- R414 to R416, R433 to R437, R447, R543, R546 to R551: a chip reset leaves every register but RESET_CAUSE, SCRATCH1 and
BC_STATUS at its reset value, keeps the queue, and loses DRAM or keeps what the reset scrub spares, as its cause says. The
end of the internal reset senses the fuses and starts the boot core at the ROM. Clock and supply events, the sensors, VID
and the random bit generator change what their rules name. During a chip reset a PLL that loses lock is shown as outside it.
What is the model's reading: that a health failure clears STARTUP_PASS (notes/assumptions/69.md), that all PLLs lock with
REFCLK_OK, and that a link leaves UP at a SERDES loss of lock and trains again at once (notes/assumptions/61.md). An update
or a ring's vault command that the reset cuts short may have written memory (R476), so what memory keeps is said where none
is under way. -/
def Obligations.ResetsClocksSuppliesAndRandomness : Prop :=
  ∀ s : State,
    let calm := s.ue.busy = none ∧ s.vaultRings = []
    let down := fun (t : State) (cause scratch : Word32) => t.inReset = true ∧ t.reg (.g .resetCause) = cause
      ∧ t.reg (.g .scratch1) = scratch
      ∧ (∀ r, r ≠ .g .resetCause → r ≠ .g .scratch1 → r ≠ .boot .status → t.reg r = r.spec.reset)
      ∧ t.cores = [] ∧ t.sites = [] ∧ t.pending = s.pending
      ∧ (calm → ∀ b, 0x8000000000 ≤ b → t.memByte b = s.memByte b)
    let lost := fun (t : State) (m : Word32) => down t (s.reg (.g .resetCause) ||| m) (s.reg (.g .scratch1))
      ∧ t.ctxs = keepHalts s.ctxs ∧ (∀ b, b < 0x8000000000 → t.memByte b = 0) ∧ bitAt (t.reg (.boot .status)) 1 = false
    let kept := fun (t : State) (m : Word32) => down t (s.reg (.g .resetCause) ||| m) (s.reg (.g .scratch1))
      ∧ t.ctxs = keepHalts s.ctxs ∧ (calm → ∀ b, b < 0x8000000000 → t.memByte b = if s.scrubbed b then 0 else s.memByte b)
      ∧ bitAt (t.reg (.boot .status)) 1 = (!s.inReset || bitAt (s.reg (.boot .status)) 1)
    let same := fun (t : State) => t.mem = s.mem ∧ t.ctxs = s.ctxs ∧ t.inReset = s.inReset
    let entropyLost := fun (t : State) => t.drbg.instantiated = false ∧ t.drbg.startupPass = false ∧ t.drbg.healthFail = true
      ∧ t.drbg.collected = 0 ∧ bitAt (t.reg (.g .hintStatus)) 25 = true ∧ bitAt (t.reg (.d .irqLinePend)) 13 = true ∧ same t
    let running := s.inReset = false
    Answers (.porstN true) s (fun t => down t 1 0 ∧ (∀ b, b < 0x8000000000 → t.memByte b = 0) ∧ t.port = {} ∧ t.ctxs = []
        ∧ t.elec.porst = true)
    ∧ exec (.porstN false) s = .next { s with elec := { s.elec with porst := false } }
    ∧ Answers (.resetN true) s (fun t => kept t 2 ∧ t.elec.resetN = true)
    ∧ exec (.resetN false) s = .next { s with elec := { s.elec with resetN := false } }
    ∧ (∀ a data, a.req = .ctx bootCtx → (s.ctx bootCtx).world = .secure → s.reaches a (.boot .softReset) data = true →
        bitAt data 0 = true → bitsOf data 15 8 = 0xA5 → Answers (.soft a data) s (fun t => kept t 0x40))
    ∧ (∀ a data, a.req = .ctx bootCtx → (s.ctx bootCtx).world = .secure → s.reaches a (.boot .romLock) data = true →
        exec (.romLock a data) s = .next (s.setReg (.boot .romLock) (s.reg (.boot .romLock) ||| (data &&& 1))))
    ∧ (s.elec.refclkOk = true →
        (running → Answers (.clkloss 0) s (fun t => lost t 8 ∧ t.elec.refclkOk = false ∧ t.elec.pllLock = 0))
        ∧ (s.inReset = true → exec (.clkloss 0) s = .next { s with elec := { s.elec with refclkOk := false, pllLock := 0 } })
        ∧ (∀ what, what ≠ 0 → Answers (.clkloss what) s (fun t => lost t 8 ∧ t.elec.refclkOk = true
            ∧ t.elec.pllLock = s.elec.pllLock &&& ~~~pllMask what)))
    ∧ exec .refclkOk s = .next { s with elec := { s.elec with refclkOk := true, pllLock := 0xF } }
    ∧ (s.elec.refclkOk = true → Answers .serdesLossOfLock s (fun t =>
        (∀ k, (s.link k).state ≠ .up → t.link k = s.link k)
        ∧ (∀ k, (s.link k).state = .up → (t.link k).state = s.linkBase k ∧ ∀ n, (t.station k n).present = false)
        ∧ bitAt (t.reg (.g .hintStatus)) 21 = true ∧ bitAt (t.reg (.d .irqLinePend)) 12 = true
        ∧ t.elec.pllLock = s.elec.pllLock &&& 0xB ∧ same t))
    ∧ (s.elec.porst = true → ∀ rail : BitVec 3, rail.toNat < 6 → exec (.brownout rail) s = .next
        { s with elec := { s.elec with railOut := s.elec.railOut ||| BitVec.ofNat 6 (2 ^ rail.toNat) } })
    ∧ (s.elec.porst = false → ∀ rail : BitVec 3, rail.toNat < 5 → Answers (.brownout rail) s (fun t => lost t 0x10 ∧ bitAt t.elec.railOut rail.toNat = true))
    ∧ (s.elec.porst = false → Answers (.brownout 5) s (fun t => bitAt t.elec.railOut 5 = true ∧ t.port.fuse.busy = false
        ∧ t.fuseCtrl = {} ∧ same t))
    ∧ (s.elec.porst = true → ∀ out, exec (.droop out) s = .next { s with elec := { s.elec with railOut := out } })
    ∧ (s.elec.porst = false → ∀ out : BitVec 6, Answers (.droop out) s (fun t => t.elec.railOut = out ∧ same t
        ∧ (∀ i, i < 6 → bitAt out i = true → bitAt s.elec.railOut i = false → bitAt (t.reg (.g .vmonStatus)) (16 + i) = true
            ∧ bitAt (t.reg (.g .hintStatus)) 20 = true ∧ bitAt (t.reg (.d .irqLinePend)) 12 = true)
        ∧ ((∀ i, i < 6 → bitAt out i = true → bitAt s.elec.railOut i = true) → t.regs = s.regs)))
    ∧ (∀ r, s.tripped r = true → Answers (.thermtrip r) s (fun t => lost t 0x20) ∧ Answers (.warn r) s (fun t => lost t 0x20)
        ∧ Answers (.crit r) s (fun t => lost t 0x20))
    ∧ (running → ∀ r, s.tripped r = false →
        let sensed := fun (t : State) => t.elec.therm = some r ∧ same t ∧ ∀ x h, t.tmax = some (x, h) →
          t.elec.tmaxSeen = some x ∧ (x < 100 → t.regs = s.regs)
          ∧ (∀ lim bit, (lim = 100 ∧ bit = 16) ∨ (lim = 105 ∧ bit = 17) → lim ≤ x → (∀ y, s.elec.tmaxSeen = some y → y < lim) →
              bitAt (t.reg (.g .thermStatus)) bit = true ∧ bitAt (t.reg (.g .hintStatus)) 19 = true
              ∧ bitAt (t.reg (.d .irqLinePend)) 11 = true)
        Answers (.warn r) s sensed ∧ Answers (.crit r) s sensed ∧ Answers (.thermtrip r) s sensed)
    ∧ (running → ∀ up, exec (.vidStep up) s = .next { s with elec := { s.elec with vid :=
        if up = true ∧ s.elec.vid.toNat < 50 then s.elec.vid + 1
        else if up = false ∧ 20 < s.elec.vid.toNat then s.elec.vid - 1 else s.elec.vid } })
    ∧ (∀ bmode, s.inReset = true → s.elec.refclkOk = true → s.port.holdsReset = false → s.elec.porst = false →
        s.elec.resetN = false → bitAt s.elec.railOut 5 = false →
        Answers (.internalResetEnd bmode) s (fun t => t.inReset = false ∧ t.time = 0 ∧ t.sensed = s.fuses ∧ t.port.sensed = true
          ∧ t.boot.phase = .ready ∧ t.bootPhase = 1 ∧ t.boot.bmode = bmode ∧ bitsOf (t.reg (.boot .status)) 10 8 = bmode.toNat
          ∧ bitAt (t.reg (.boot .status)) 3 = decide (t.lcState = 2 ∨ t.lcState = 3)
          ∧ (t.core 16).state = .running ∧ (t.ctx bootCtx).pc = 0xFFFFF00000 ∧ (t.ctx bootCtx).world = .secure
          ∧ (t.ctx bootCtx).occ = .monitor ∧ (∀ g, (t.ctx bootCtx).getG g = 0) ∧ t.mem = s.mem))
    ∧ (∀ bmode, (s.elec.porst = true ∨ s.elec.resetN = true) → exec (.internalResetEnd bmode) s = .next s)
    ∧ (running → exec .zeroDone s = .next (s.setReg (.boot .status) (setBit (s.reg (.boot .status)) 2 true)))
    ∧ (running → s.elec.refclkOk = true → s.drbg.instantiated = false → (s.boot.phase = .off ∨ s.boot.phase = .ready) →
        Answers .rngReady s (fun t => t.drbg.instantiated = true ∧ t.drbg.startupPass = true ∧ t.drbg.collected = 512
          ∧ t.drbg.healthFail = s.drbg.healthFail ∧ bitAt (t.reg (.d .irqLinePend)) 13 = true ∧ same t))
    ∧ (running → Answers .healthFail s entropyLost)
    ∧ (s.drbg.instantiated = true → exec (.drbgReseed true) s = .next
        { s with drbg := { s.drbg with requests := 0, reseeds := s.drbg.reseeds + 1 } })
    ∧ (s.drbg.instantiated = true → Answers (.drbgReseed false) s entropyLost)

/-! ## The boot ROM (spec/18) -/

/-- R437 to R447: the ROM halts with 0xF1 or 0xF0 where its first checks fail; in mailbox mode it zeroes SRAM, derives SR
and waits for the host. Training records what it found on each channel, and DRAM that the new layout still uses keeps its
contents where the same channels trained (R30); that DRAM_NONE is the error with no DIMM at all is the model's reading
(notes/assumptions/58.md). In recovery, BOOT_DATA joins the stream, a BOOT_END whose stream holds a good monitor derives BBK
and jumps to ENTRY, one that fails is answered with its code, and RESET resets the chip. A source or the wait for randomness
that times out fails as its rule says. That the result of a load or a time-out in recovery stands in BC_SRC_RESULT[3:0] is
the model's reading (notes/assumptions/75.md). -/
def Obligations.TheBootRomLoadsAndRecovers : Prop :=
  ∀ s : State,
    let error := fun (t : State) (code : Nat) => bitsOf (s.reg (.g .bootStatus)) 23 16 = 0 →
      bitsOf (t.reg (.g .bootStatus)) 23 16 = code
    let recovering := fun (t : State) => t.boot.phase = .recovery ∧ t.bootPhase = 0xE ∧ t.mbxOpen = true
    (s.boot.phase = .ready → ∀ nor,
      (∀ rom bad, Answers (.bootRom false rom bad nor) s (fun t => t.bootPhase = 0xF ∧ t.boot.phase = .off ∧ error t 0xF1))
      ∧ (∀ bad, Answers (.bootRom true false bad nor) s (fun t => t.bootPhase = 0xF ∧ t.boot.phase = .off ∧ error t 0xF0))
      ∧ (s.boot.bmode = 3 → s.fuseField 0x240 1 = 0 → s.calRec = none → ∀ bad, Answers (.bootRom true true bad nor) s (fun t =>
          t.bootPhase = 2 ∧ t.reg (.boot .step) = 5 ∧ t.boot.phase = .source ∧ t.mbxOpen = true
          ∧ bitsOf (t.reg (.g .mbxStatus)) 15 8 = 1
          ∧ t.curlew.sr = deriveSr (BitVec.ofNat 256 (s.fuseField 0x100 256)) s.lcState s.uidBytes
          ∧ (∀ b, 0xF000000000 ≤ b → b < 0xF000800000 → t.memByte b = 0)
          ∧ (∀ b, b < 0xF000000000 ∨ 0xF000800000 ≤ b → t.memByte b = s.memByte b))))
    ∧ (s.boot.trained = false → s.curlew.drkOff = true →
        (s.boot.phase = .off ∨ (s.boot.phase = .recovery ∧ s.boot.stream = [] ∧ s.boot.streamEnd = false)) →
      ∀ c0 c1 c2 c3 : Channel, let ch := fun (k : Nat) => ([c0, c1, c2, c3].getD k c3)
        let good := fun (k : Nat) => (ch k).present && (s.reuses k (ch k) || (ch k).passes)
        let new := (List.range 4).filter good
        Answers (.trainingDone c0 c1 c2 c3) s (fun t => t.boot.trained = true ∧ t.boot.dramHeld = true ∧ t.ctxs = s.ctxs
          ∧ t.dramChans = new
          ∧ (let used := new.length * (bitsOf (t.reg (.g .dramStatus)) 23 16 * 2 ^ 30)
             (∀ b, used ≤ b → b < 0x8000000000 → t.memByte b = 0)
             ∧ (s.dramChans = new → ∀ b, (b < used ∨ 0x8000000000 ≤ b) → t.memByte b = s.memByte b))
          ∧ (∀ k, k < 4 → bitAt (t.reg (.g .dramStatus)) k = (ch k).present ∧ bitAt (t.reg (.g .dramStatus)) (4 + k) = good k
              ∧ bitAt (t.reg (.g .dramStatus)) (8 + k) = ((ch k).present && !good k)
              ∧ (good k = true → bitsOf (t.reg (.g .dramStatus)) 23 16 ≤ (ch k).gib.toNat))
          ∧ ((∀ k, k < 4 → good k = false) → error t 0x21)
          ∧ ((∃ k, k < 4 ∧ good k = true) → (∃ k, k < 4 ∧ (ch k).present = true ∧ good k = false) → error t 0x20)))
    ∧ (s.boot.phase = .recovery → s.h2dFull = true → s.boot.waitTrain = false →
      let took := fun (b : Boot) => ({ s with h2dFull := false, boot := b } : State)
      let more := { s.boot with began := true, stream := s.boot.stream ++ s.h2dBytes }
      let full := { s.boot with began := true, streamEnd := true }
      let load := (took full).loadSet none true s.boot.stream
      (s.h2dType = 0x10 → (∀ w, smGet s.mbxPoison false w = false) → s.boot.streamEnd = false → s.boot.streamBad = false → more.stream ≠ [] →
        ((took more).loadSet none false more.stream).1 = .more → Answers .bootData s (fun t =>
          t.boot.stream = s.boot.stream ++ s.h2dBytes ∧ t.h2dFull = false ∧ t.boot.phase = .recovery))
      ∧ (s.h2dType = 0x11 → s.boot.streamBad = false → s.d2hFull = false →
        (∀ c, c < 16 → load.1 = .fail c → Answers .bootEnd s (fun t => t.boot.stream = [] ∧ t.boot.phase = .recovery
          ∧ t.d2hFull = true ∧ smGet t.d2h 0 0 = BitVec.ofNat 8 c ∧ bitsOf (t.reg (.g .mbxStatus)) 15 8 = 5
          ∧ bitsOf (t.reg (.boot .srcResult)) 3 0 = c))
        ∧ (∀ m, load.1 = .mon m → load.2.boot.trained = true →
            hdrField m.header 0x20 2 ≤ stepping → stepping ≤ hdrField m.header 0x22 2 →
            (hdrField m.header 7 1 % 2 = 1 → load.2.rngReady = true) → Answers .bootEnd s (fun t =>
          (t.ctx bootCtx).pc = BitVec.ofNat 48 (hdrEntry m.header) ∧ (t.ctx bootCtx).world = .secure ∧ t.bootPhase = 3
          ∧ t.boot.phase = .off ∧ t.boot.locked = true ∧ t.boot.booted = load.2.boot.booted
          ∧ (∀ k : Fin 12, t.reg (.boot (.monMeas k)) = measWord m.meas k.val)
          ∧ t.curlew.bbk = deriveBbk load.2.curlew.sr load.2.lcState (beBytes 48 m.meas.toNat) (load.2.monVer m)
          ∧ t.curlew.bbkValid = true
          ∧ bitAt (t.reg (.boot .status)) 0 = true ∧ bitAt (t.reg (.boot .status)) 3 = false)))
      ∧ (s.h2dType = 0x12 → Answers .reset s (fun t => t.inReset = true
          ∧ t.reg (.g .resetCause) = s.reg (.g .resetCause) ||| 0x40)))
    ∧ (s.boot.phase = .recovery → s.boot.began = true → s.boot.waitTrain = false → s.d2hFull = false → Answers .sourceTimeout s (fun t =>
        t.boot.stream = [] ∧ t.boot.phase = .recovery ∧ t.d2hFull = true ∧ smGet t.d2h 0 0 = 6
        ∧ bitsOf (t.reg (.g .mbxStatus)) 15 8 = 5 ∧ bitsOf (t.reg (.g .mbxStatus)) 31 16 = 1
        ∧ bitsOf (t.reg (.boot .srcResult)) 3 0 = 6))
    ∧ (s.boot.phase = .source → s.bootEntries = [(3, 0)] → s.boot.entry = 0 → s.boot.probed = true → s.boot.began = true →
        s.boot.waitTrain = false →
        Answers .sourceTimeout s (fun t => recovering t ∧ error t 0x10
          ∧ t.reg (.boot .srcResult) = s.reg (.boot .srcResult) ||| 6))
    ∧ (s.boot.phase = .rng → Answers .rngWaitTimeout s (fun t => recovering t ∧ error t 0x30))

/-! ## The update engine and fuses (spec/19, spec/20, spec/22) -/

/-- R469 to R475, R492, R529, R531, R533: a permitted engine command is taken with its parameters, and any other is refused
with 0x60 or, while one is busy, 0x61. When its work ends the bank is erased or programmed, a record with a new SEQ, the
bank's new state and its CRC stands in the journal, written again where fewer than three tries fail (R466), or the failure's
code is shown. A VERIFY that finds a good set shows its measurement and security version, sets STAGE_VALID and makes the
bank VALID in a record that holds the measurement, or finds the bank VALID with the same one; where no slot takes the record
it ends with 0x6B and none of this (R471). CAL_SAVE makes a record of the user calibration in use. DISABLE drops the patch
and the boot core's hooks until a core is released. FUSE_CTRL refuses or starts, and blows exactly the bits of its
operation. -/
def Obligations.UpdateEngineAndFuseOperations : Prop :=
  (∀ (s : State) (a : Access),
    let word := fun (o : Nat) => BitVec.ofNat 32 o
    let result := fun (t : State) (c : Nat) => bitsOf (t.reg (.d .ueStatus)) 15 8 = c ∧ bitsOf (t.reg (.g .updStatus)) 23 16 = c
    let runs := fun (i : Instr) (o : Nat) => s.reaches a (.d .ueCmd) (word o) = true →
      (s.ue.busy = none → s.uePermitted o = true → Answers i s (fun t =>
          (∃ c, t.ue.busy = some c ∧ c.op.toNat = o ∧ c.src = s.pairBase (.d .ueSrcLo) (.d .ueSrcHi) 0
            ∧ c.ofs = bitsOf (s.reg (.d .ueOfs)) 22 8 * 256 ∧ c.len = bitsOf (s.reg (.d .ueLen)) 20 8 * 256)
          ∧ t.ue.stageValid = (s.ue.stageValid && decide (5 ≤ o)) ∧ t.flash = s.flash ∧ t.mem = s.mem))
      ∧ (s.ue.busy = none → s.uePermitted o = false → Answers i s (fun t => t.ue = s.ue ∧ result t 0x60 ∧ t.flash = s.flash))
      ∧ (s.ue.busy.isSome = true → Answers i s (fun t => t.ue = s.ue ∧ result t 0x61 ∧ t.flash = s.flash))
    runs (.empty a) 1 ∧ runs (.erase a) 2 ∧ runs (.write a) 3 ∧ runs (.markWritten a) 4 ∧ runs (.ueVerify a) 5
    ∧ runs (.activate a) 6 ∧ runs (.confirm a) 7 ∧ runs (.retire a) 8 ∧ runs (.calSave a) 9)
  ∧ (∀ (s : State) (c : UeOp), s.ue.busy = some c →
    let b := s.ueTarget
    let r := s.forceRec
    let base := bankOfs b
    let result := fun (t : State) (v : Nat) => t.ue.busy = none ∧ bitsOf (t.reg (.d .ueStatus)) 15 8 = v ∧ t.mem = s.mem
    let inBank := fun (o : Nat) => base ≤ o ∧ o < base + 0x800000
    let bankAt := fun (x : List Byte) (k : Bool) => leNat (slice x (if k then 5 else 4) 1)
    let wrote := fun (k : Bool) (v : Nat) => ∀ f, flashTries f < 3 → Answers (.ueCommandDone f) s (fun t => result t 0
      ∧ (∀ o, o < 0x1000000 → t.flashByte o = s.flashByte o)
      ∧ ∃ copy slot, slot < 64 ∧ let x := t.slotRecord copy slot
          recSeq x = s.nextSeq % 2 ^ 32 ∧ bankAt x k = v ∧ bankAt x (!k) = bankAt r (!k)
          ∧ leNat (slice x 0xFC 4) = (recCrc x).toNat)
    let staged := fun (m : MonImage) (t : State) => result t 0 ∧ t.ue.stageValid = true ∧ t.ue.stageMeas = m.meas
      ∧ (∀ k : Fin 12, t.reg (.d (.ueMeas k)) = measWord m.meas k.val)
      ∧ t.reg (.d .ueInfo) = (BitVec.ofNat 8 (hdrSvn m.header)).setWidth 32
      ∧ (∀ o, o < 0x1000000 → t.flashByte o = s.flashByte o)
    let idle := fun (t : State) => t.ue.stageValid = s.ue.stageValid ∧ t.ue.stageMeas = s.ue.stageMeas
      ∧ t.reg (.d .ueInfo) = s.reg (.d .ueInfo) ∧ ∀ k : Fin 12, t.reg (.d (.ueMeas k)) = s.reg (.d (.ueMeas k))
    (∀ m, c.op = 5 → s.verifyBank b = .good m →
      let meas := beBytes 48 m.meas.toNat
      (bankState r b = 2 → recMeas r b = meas → Answers (.ueCommandDone .none) s (fun t => staged m t ∧ t.flash = s.flash))
      ∧ (bankState r b = 2 → recMeas r b ≠ meas → Answers (.ueCommandDone .none) s (fun t => result t 0x68 ∧ idle t
          ∧ t.flash = s.flash))
      ∧ (bankState r b ≠ 2 → ∀ f, flashTries f < 3 → Answers (.ueCommandDone f) s (fun t => staged m t
          ∧ ∃ copy slot, slot < 64 ∧ let x := t.slotRecord copy slot
              recSeq x = s.nextSeq % 2 ^ 32 ∧ bankAt x b = 2 ∧ bankAt x (!b) = bankAt r (!b) ∧ recMeas x b = meas
              ∧ leNat (slice x 0xFC 4) = (recCrc x).toNat))
      ∧ (bankState r b ≠ 2 → ∀ f, 3 ≤ flashTries f → Answers (.ueCommandDone f) s (fun t => staged m t ∨ (result t 0x6B ∧ idle t))))
    ∧ (c.op = 1 → wrote b 0) ∧ (c.op = 4 → wrote b 1) ∧ (c.op = 8 → wrote b 5) ∧ (c.op = 7 → wrote (!b) 4)
    ∧ (c.op = 6 → c.ok = true → wrote b 3)
    ∧ (c.op = 6 → c.ok = false → Answers (.ueCommandDone .none) s (fun t => result t 0x69 ∧ t.flash = s.flash))
    ∧ (c.op = 2 → Answers (.ueCommandDone .none) s (fun t => result t 0
        ∧ (∀ o, inBank o → t.flashByte o = 0xFF) ∧ (∀ o, ¬ inBank o → t.flashByte o = s.flashByte o)))
    ∧ (c.op = 3 → c.len % 256 = 0 → 0 < c.len → c.len ≤ 0x100000 → c.ofs + c.len ≤ 0x800000 → s.ueSource c.src c.len = true →
        s.anyPoison c.src c.len = false → (∀ i, 256 * c.pages ≤ i → i < c.len → s.flashByte (base + c.ofs + i) = 0xFF) →
        Answers (.ueCommandDone .none) s (fun t => t.ue.busy = none ∧ bitsOf (t.reg (.d .ueStatus)) 15 8 = 0
          ∧ (∀ b, s.inKeyArray b = false → t.memByte b = s.memByte b)
          ∧ (∀ i, 256 * c.pages ≤ i → i < c.len → t.flashByte (base + c.ofs + i) = s.memByte (c.src + i))
          ∧ (∀ o, o < base + c.ofs + 256 * c.pages ∨ base + c.ofs + c.len ≤ o → t.flashByte o = s.flashByte o)))
    ∧ (c.op = 5 → ∀ v, v < 256 → s.verifyBank b = .err v → Answers (.ueCommandDone .none) s (fun t =>
        result t v ∧ t.flash = s.flash ∧ t.ue.stageValid = s.ue.stageValid))
    ∧ (c.op = 9 → (∀ k, s.calRec = some k → k.seq + 1 < 0xFFFFFFFF) → Answers (.ueCommandDone .none) s (fun t => result t 0
        ∧ (∀ o, (o < 0x1020000 ∨ 0x1030000 ≤ o) → t.flashByte o = s.flashByte o)
        ∧ ∃ k, t.calRec = some k ∧ k.uid = s.uid ∧ k.therm = s.reg (.g .thermUserOfs) ∧ k.drv = s.reg (.g .drvUserAdj)
          ∧ k.vmon = s.reg (.d .calVmonUser) ∧ k.dly = s.reg (.d .calHostDly) 
          ∧ (∀ l : LinkId, k.eq.getD l.toNat 0 = s.reg (.link l .eq))
          ∧ ∀ h, h < 4 → k.chans.getD h none =
              (s.boot.serials.find? (fun e => decide (e.1 = h))).map (fun e => (e.2, smGet s.boot.phy 0 h))))
    ∧ (c.op = 1 → ∀ f, 3 ≤ flashTries f → Answers (.ueCommandDone f) s (fun t => (result t 0 ∨ result t 0x6B)
        ∧ ∀ o, o < 0x1000000 → t.flashByte o = s.flashByte o)))
  ∧ (∀ (s : State) (a : Access) (data : Word32), s.reaches a (.d .ucCtrl) data = true → writes1 a data 0 = true →
      (s.reg (.g .coreRelease) ≠ 0 → exec (.disable a data) s = .next (s.complete a))
      ∧ (s.reg (.g .coreRelease) = 0 → Answers (.disable a data) s (fun t => t.reg (.d .ucCtrl) = 1
          ∧ t.reg (.d .ucStatus) = 0x20102 ∧ t.reg (.d .ucPatchId) = 0 ∧ t.reg (.d .ucCounts) = 0 ∧ t.ue.patch = none
          ∧ (t.core 16).stores = { (s.core 16).stores with hooks := [] } ∧ (∀ c, c ≠ 16 → t.core c = s.core c)
          ∧ (∀ k, t.reg (.d (.ucPatchMeas k)) = 0) ∧ t.mem = s.mem)))
  ∧ (∀ (s : State) (a : Access) (fuse : BitVec 12) (target : BitVec 3), s.fuseCtrl.busy = false →
      let code := fun (t : State) (v : Nat) => bitsOf (t.reg (.d .fuseStatus)) 11 8 = v ∧ t.fuseCtrl = s.fuseCtrl ∧ t.fuses = s.fuses
      (s.reaches a (.d .fuseCtrl) (BitVec.ofNat 32 (fuse.toNat + 0x10000)) = true →
        (s.fuseRefusal 1 fuse.toNat 0 = none → Answers (.program a fuse) s (fun t => t.fuses = s.fuses
          ∧ t.fuseCtrl = { busy := true, op := 1, addr := fuse, target := 0 }))
        ∧ (∀ v, s.fuseRefusal 1 fuse.toNat 0 = some v → Answers (.program a fuse) s (fun t => code t v)))
      ∧ (s.reaches a (.d .fuseCtrl) (BitVec.ofNat 32 (0x20000 + target.toNat * 2 ^ 24)) = true →
        (s.fuseRefusal 2 0 target.toNat = none → Answers (.fuseCtrlLcAdv a target) s (fun t => t.fuses = s.fuses
          ∧ t.fuseCtrl = { busy := true, op := 2, addr := 0, target := target }))
        ∧ (∀ v, s.fuseRefusal 2 0 target.toNat = some v → Answers (.fuseCtrlLcAdv a target) s (fun t => code t v))))
  ∧ (∀ s : State, s.fuseCtrl.busy = true →
      let f := s.fuseCtrl
      let done := fun (t : State) (v : Nat) (bits : List Nat) => t.fuseCtrl.busy = false
        ∧ bitsOf (t.reg (.d .fuseStatus)) 11 8 = v ∧ (∀ n, smGet t.fuses false n = (smGet s.fuses false n || bits.contains n))
        ∧ t.sensed = s.sensed ∧ t.mem = s.mem
      (f.op = 1 → Answers (.fuseCtrlDone true) s (fun t => done t 0 [f.addr.toNat]))
      ∧ (f.op = 2 → 1 ≤ f.target.toNat → Answers (.fuseCtrlDone true) s (fun t =>
          done t 0 [2 * f.target.toNat - 2, 2 * f.target.toNat - 1]))
      ∧ Answers (.fuseCtrlDone false) s (fun t => done t 5 []))

/-! ## The maintenance port (spec/22) -/

/-- R518 to R530, R533, R538: every instruction of the port becomes current and captures what it is to show; EXTEST, CLAMP
and HIGHZ start a chip reset that they hold. Fuse, sort and life-cycle requests are refused with their reason or blow
exactly their bits. A debug access waits for its edges and ends with its data or its refusal. HALT, RELEASE and STEP act on
the context they name. A code that names no instruction acts as BYPASS (R520), and a scan cuts a pulse under way short
(R529). That the bypass register captures 0, for BYPASS, CLAMP and HIGHZ, is presumed from the family of such ports and no rule
of the spec (notes/assumptions/56.md). -/
def Obligations.MaintenancePortInstructions : Prop :=
  ∀ s : State,
    let cur := fun (t : State) (i : PortIns) (dr : Nat) => t.port.ir = i ∧ t.port.irCap = s.irCapture ∧ t.port.dr = dr
    let loaded := fun (i : PortIns) (dr : Nat) => ({ s with port := { s.port with ir := i, irCap := s.irCapture, dr := dr } } : State)
    let quiet := fun (t : State) => t.regs = s.regs ∧ t.mem = s.mem ∧ t.inReset = s.inReset
    let tap := fun (t : State) => t.inReset = true ∧ t.reg (.g .resetCause) = s.reg (.g .resetCause) ||| 0x80
    let holds := fun (t : State) => (s.port.holdsReset = false → tap t) ∧ (s.port.holdsReset = true → quiet t ∧ t.ctxs = s.ctxs)
    let blown := fun (t : State) (p : Nat → Bool) => ∀ n, smGet t.fuses false n = (smGet s.fuses false n || p n)
    (s.port.fuse.busy = false →
    exec .idcode s = .next (loaded .idcode 0xB10245CF)
    ∧ (∀ code : Byte, code.toNat ∉ [0, 1, 2, 3, 4, 0x10, 0x11, 0x20, 0x21, 0x22, 0x30, 0x31, 0x32] →
        exec (.bypass code) s = .next (loaded .bypass 0))
    ∧ Answers .clamp s (fun t => cur t .clamp 0 ∧ holds t) ∧ Answers .highz s (fun t => cur t .highz 0 ∧ holds t)
    ∧ (∀ pins update, pins < 2 ^ 1184 → update < 2 ^ 1184 →
        Answers (.extest pins update) s (fun t => cur t .extest pins ∧ t.port.boundary = update ∧ holds t)
        ∧ Answers (.samplePreload pins update) s (fun t => cur t .sample pins ∧ t.port.boundary = update ∧ quiet t))
    ∧ Answers .testLogicReset s (fun t => t.port.ir = .idcode ∧ t.port.dae.pending = false ∧ quiet t
        ∧ ∀ x, (t.ctx x).haltReq = false ∧ (t.ctx x).halted = (s.ctx x).halted ∧ (t.ctx x).pc = (s.ctx x).pc)
    ∧ Answers .idRead s (fun t => cur t .idRead (packWords s.idWords) ∧ quiet t)
    ∧ exec .calRead s = .next (loaded .calRead (if s.port.sensed then s.fuseField 0x400 328 else 0))
    ∧ (∀ adr : BitVec 12, Answers (.fuseProg (BitVec.ofNat 20 (adr.toNat + 0x1000))) s (fun t =>
        cur t .fuseProg s.progCapture ∧ t.fuses = s.fuses ∧ t.port.fuse = match s.progRefusal adr.toNat with
          | none => { addr := adr, busy := true }
          | some c => { addr := adr, reason := BitVec.ofNat 4 c }))
    ∧ (∀ edges, (s.sortRefused = true → Answers (.sortGen 0x5A edges) s (fun t => cur t .sortGen s.sortCapture
          ∧ t.port.sort = { reason := 1 } ∧ t.fuses = s.fuses))
        ∧ (s.sortRefused = false → 320 * 256 ≤ edges → Answers (.sortGen 0x5A edges) s (fun t => cur t .sortGen s.sortCapture
          ∧ t.sortGen = true ∧ t.port.sort = { done := true } ∧ t.port.sortBits = 320
          ∧ blown t (fun n => (List.range 320).any (fun i => decide (sortBit i = n) && bitAt (Config.freeWord (s.free + i)) 0)))))
    ∧ (∀ (v : BitVec 16) (edges : Nat), let target := bitsOf v 2 0
        let shown := s.lcNow + 256 * bit s.port.lcAdv.done + 512 * bit (decide (s.port.lcAdv.reason ≠ 0))
        ((s.lcAdvOk target = false ∨ s.fuseSupplyBad = true ∨ s.fuseCtrl.busy = true) →
            Answers (.lcAdv v edges) s (fun t => cur t .lcAdv shown ∧ t.port.lcAdv = { reason := 1 } ∧ t.fuses = s.fuses))
          ∧ (s.lcAdvOk target = true → s.fuseSupplyBad = false → s.fuseCtrl.busy = false → 512 ≤ edges →
            Answers (.lcAdv v edges) s (fun t => cur t .lcAdv shown ∧ t.port.lcAdv = { done := true }
              ∧ blown t (fun n => decide (n = 2 * target - 2) || decide (n = 2 * target - 1)))))
    ∧ (∀ v : BitVec 112, Answers (.dae v) s (fun t => cur t .dae s.daeCapture ∧ quiet t
        ∧ t.port.dae = if bitAt v 44 then { req := v, pending := true } else s.port.dae))
    ∧ (∀ n : BitVec 7, n.toNat ≤ 64 →
        let x : CtxId := Fin.ofNat 65 n.toNat
        let chosen := fun (t : State) => cur t .dbgCtrl s.dbgCapture ∧ t.port.dbgCtx = n ∧ quiet t
          ∧ ∀ y, y ≠ x → t.ctx y = s.ctx y
        ((s.ctx x).halted = false → Answers (.halt n true) s (fun t => chosen t ∧ t.ctx x = { s.ctx x with haltReq := true }))
        ∧ Answers (.halt n false) s (fun t => chosen t ∧ t.ctx x = s.ctx x)
        ∧ ((s.ctx x).halted = true → (s.ctx x).dbgBytes = [] → (s.ctx x).trapDue = none → (s.ctx x).stepDue = false →
            let freed := fun (step : Bool) => { s.ctx x with halted := false, haltReq := false, stepping := step }
            Answers (.release n) s (fun t => chosen t ∧ t.ctx x = freed false)
            ∧ Answers (.step n) s (fun t => chosen t ∧ t.ctx x = freed true))))
    ∧ ((s.port.ir = .idRead ∨ s.port.ir = .calRead) → s.port.sensed = false → s.fuseSupplyBad = false →
        exec .portFuseSense s = .next { s with sensed := s.fuses, port := { s.port with sensed := true } })
    ∧ (s.port.fuse.busy = true → Answers (.fusePulseDone true) s (fun t => t.port.fuse.busy = false ∧ t.port.fuse.done = true
          ∧ blown t (fun n => decide (n = s.port.fuse.addr.toNat)))
        ∧ Answers (.fusePulseDone false) s (fun t => t.port.fuse.busy = false ∧ t.port.fuse.done = false
          ∧ ∀ n, n ≠ s.port.fuse.addr.toNat → smGet t.fuses false n = smGet s.fuses false n))
    ∧ (s.port.fuse.busy = true →
        let cut := fun (i : Instr) => Answers i s (fun t => t.port.fuse.busy = false ∧ quiet t
          ∧ ∀ n, n ≠ s.port.fuse.addr.toNat → smGet t.fuses false n = smGet s.fuses false n)
        cut .idcode ∧ cut (.bypass 0xFF) ∧ cut .idRead ∧ cut .calRead ∧ cut .testLogicReset
        ∧ (∀ pins update, cut (.samplePreload pins update)) ∧ (∀ v, cut (.dae v)) ∧ (∀ n, cut (.halt n false)))
    ∧ (s.port.dae.pending = true →
        let q := daeReq s.port.dae.req
        let ended := fun (t : State) (c v : Nat) => t.port.dae = { s.port.dae with
          pending := false, done := true, result := BitVec.ofNat 4 c, rdata := BitVec.ofNat 64 v }
        let plain := q.window = false ∧ s.daeRefusal q = none ∧ (s.region q.addr = .dram ∨ s.region q.addr = .sram)
          ∧ s.poisoned q.addr = false
        (∀ c, q.window = false → s.daeRefusal q = some c → Answers .daeComplete s (fun t => ended t c 0 ∧ quiet t))
        ∧ (plain → q.wr = false → Answers .daeComplete s (fun t => quiet t
            ∧ ended t 0 (leNat ((List.range q.size).map (fun k => s.memByte (q.addr + k))))))
        ∧ (plain → q.wr = true → Answers .daeComplete s (fun t => ended t 0 0 ∧ t.regs = s.regs
            ∧ (∀ k, k < q.size → t.memByte (q.addr + k) = byteOf q.wdata.toNat k)
            ∧ (∀ b, b < q.addr ∨ q.addr + q.size ≤ b → t.memByte b = s.memByte b)))
        ∧ (q.window = true → s.inReset = false → q.clean = true → q.addr % q.size = 0 → q.addr < 65 * 0x400 →
            (s.ctx (Fin.ofNat 65 (q.addr / 0x400))).halted = false → Answers .daeComplete s (fun t => ended t 10 0 ∧ quiet t))
        ∧ Answers (.daeTimeout false) s (fun t => ended t 7 0 ∧ quiet t))

/-- R528: an Update-DR of TAP_RESET with 0xA5 starts a chip reset of cause TAP when NSI or SI is set: RESET_CAUSE gains bit
7, every register but RESET_CAUSE, SCRATCH1 and BC_STATUS takes its reset value, and no site stays, and of the contexts only
the pending halt requests. Any other value, or neither enable set, leaves the chip as it was; only the port's instruction
changes. -/
def Obligations.TapResetNeedsItsValueAndAnEnable : Prop :=
  ∀ (s : State) (v : Byte), let able := bitAt s.dbgEn 0 = true ∨ bitAt s.dbgEn 2 = true
    (v = 0xA5 → able → Answers (.tapReset v) s (fun t => t.inReset = true
      ∧ t.reg (.g .resetCause) = s.reg (.g .resetCause) ||| 0x80 ∧ t.ctxs = keepHalts s.ctxs ∧ t.sites = []
      ∧ (∀ r, r ≠ .g .resetCause → r ≠ .g .scratch1 → r ≠ .boot .status → t.reg r = r.spec.reset)))
    ∧ (v ≠ 0xA5 ∨ ¬ able → Answers (.tapReset v) s (fun t => t.regs = s.regs ∧ t.mem = s.mem ∧ t.inReset = s.inReset
      ∧ t.ctxs = s.ctxs ∧ t.sites = s.sites ∧ t.cores = s.cores ∧ (s.port.fuse.busy = false → t.fuses = s.fuses) ∧ t.port.ir = .tapReset))

/-! ## The machine as a whole -/

/-- Table 18.1, R374, R376, R398: the state after power-on reset. Every register holds the value its table gives for reset:
among them all memory is secure, every source is secure, Bittern is off, and no core is released; no context is occupied,
nothing is listed in memory, the queue is empty, and memory has its canonical form. That a byte which nothing has written
reads 0 is the model's choice for SRAM (notes/assumptions/4.md). -/
def Obligations.ResetStateHoldsTheSpecsValues : Prop :=
  State.reset.canonical = true ∧ State.reset.inReset = true ∧ State.reset.pending = []
  ∧ (∀ r, State.reset.reg r = r.spec.reset)
  ∧ State.reset.secWeir = 0x8000000000 ∧ State.reset.sramWeir = 0xF000800000
  ∧ (∀ k, State.reset.linkWorld k = .secure) ∧ (∀ x, State.reset.timerWorld x = .secure)
  ∧ State.reset.reg (.g .chipId) = 0x0F2E1024 ∧ State.reset.reg (.g .resetCause) = 1
  ∧ State.reset.reg (.g .hostCtrl) = 0x10 ∧ State.reset.reg (.g .hostTimeout) = 0x1000
  ∧ State.reset.reg (.d .wdtCtrl) = 0x0003E800 ∧ State.reset.reg (.g .coreRelease) = 0
  ∧ (∀ n, State.reset.reg (.site n .holdLimit) = 500) ∧ (∀ k, State.reset.reg (.link k .ctrl) = 1)
  ∧ (∀ x, (State.reset.ctx x).occ = .free ∧ ∀ g, (State.reset.ctx x).getG g = 0)
  ∧ (∀ b, State.reset.memByte b = 0)

/-- Every step keeps memory, the flash window and the poison map in canonical form: addresses strictly rising, and no entry
equal to what an unlisted address reads as. -/
def Obligations.EveryStepKeepsTheCanonicalForm : Prop :=
  ∀ s t : State, s.canonical = true → step s = .next t → t.canonical = true
end

