-- ==== Sys2Proof/Laws/Sparse.lean ====
section
/-! SUPPORT. The laws of sparse maps: reading after writing, and the canonical form under writing. -/

namespace Sys2Proof.Laws

open Sys2Proof.Machine

variable {α : Type}

@[simp] theorem smGet_nil (d : α) (k : Nat) : smGet [] d k = d := rfl

theorem smGet_drop_same (m : SMap α) (d : α) (k : Nat) : smGet (smDrop m k) d k = d := by
  induction m with
  | nil => rfl
  | cons e t ih =>
    obtain ⟨j, v⟩ := e
    by_cases h : j = k
    · simpa [smDrop, h] using ih
    · have := ih
      simp only [smDrop] at this ⊢
      simp [h, smGet, this]

theorem smGet_drop_other (m : SMap α) (d : α) (k j : Nat) (hj : j ≠ k) : smGet (smDrop m k) d j = smGet m d j := by
  induction m with
  | nil => rfl
  | cons e t ih =>
    obtain ⟨i, v⟩ := e
    simp only [smDrop] at ih ⊢
    by_cases h : i = k
    · subst h
      have hij : ¬ i = j := fun h => hj h.symm
      simp [smGet, ih, hij]
    · by_cases hi : i = j
      · simp [smGet, hi, hj]
      · simp [h, smGet, hi, ih]

/-- No entry of key `k` is listed. -/
def Unlisted (m : SMap α) (k : Nat) : Prop := ∀ e ∈ m, e.1 ≠ k

theorem unlisted_drop (m : SMap α) (k : Nat) : Unlisted (smDrop m k) k := by
  intro e he
  simpa [smDrop] using (List.mem_filter.mp he).2

theorem smGet_put_same (m : SMap α) (d v : α) (k : Nat) (h : Unlisted m k) : smGet (smPut m k v) d k = v := by
  induction m with
  | nil => simp [smPut, smGet]
  | cons e t ih =>
    obtain ⟨j, w⟩ := e
    have hj : j ≠ k := h (j, w) (by simp)
    have ht : Unlisted t k := fun e he => h e (by simp [he])
    by_cases hk : k < j <;> simp [smPut, smGet, hk, hj, ih ht]

theorem smGet_put_other (m : SMap α) (d v : α) (k j : Nat) (hj : j ≠ k) : smGet (smPut m k v) d j = smGet m d j := by
  induction m with
  | nil => simp [smPut, smGet, Ne.symm hj]
  | cons e t ih =>
    obtain ⟨i, w⟩ := e
    by_cases hk : k < i
    · simp [smPut, smGet, hk, Ne.symm hj]
    · by_cases hi : i = j
      · subst hi
        simp [smPut, smGet, hk]
      · simp [smPut, smGet, hk, hi, ih]

theorem smDrop_of_unlisted (m : SMap α) (k : Nat) (h : Unlisted m k) : smDrop m k = m := by
  simp only [smDrop, List.filter_eq_self]
  intro e he
  simpa using h e he

theorem smDrop_put (m : SMap α) (k : Nat) (v : α) : smDrop (smPut m k v) k = smDrop m k := by
  induction m with
  | nil => simp [smPut, smDrop]
  | cons e t ih =>
    obtain ⟨j, w⟩ := e
    simp only [smDrop] at ih ⊢
    by_cases hk : k < j
    · simp [smPut, hk]
    · by_cases hj : j = k <;> simp [smPut, hk, hj, ih]

variable [DecidableEq α]

/-- Reading a key after writing it gives the value written. -/
@[simp] theorem smGet_set_same (m : SMap α) (d : α) (k : Nat) (v : α) : smGet (smSet m d k v) d k = v := by
  by_cases h : v = d
  · simp [smSet, h, smGet_drop_same]
  · simp [smSet, h, smGet_put_same _ _ _ _ (unlisted_drop m k)]

/-- Writing a key leaves every other key alone. -/
theorem smGet_set_other (m : SMap α) (d d' : α) (k j : Nat) (v : α) (hj : j ≠ k) :
    smGet (smSet m d k v) d' j = smGet m d' j := by
  by_cases h : v = d
  · simp [smSet, h, smGet_drop_other _ _ _ _ hj]
  · simp [smSet, h, smGet_put_other _ _ _ _ _ hj, smGet_drop_other _ _ _ _ hj]

/-- Reading a key after writing one. -/
theorem smGet_set (m : SMap α) (d : α) (k j : Nat) (v : α) :
    smGet (smSet m d k v) d j = if j = k then v else smGet m d j := by
  by_cases h : j = k
  · simp [h]
  · simp [h, smGet_set_other _ _ _ _ _ _ h]

/-- The last of two writes of one key stands. -/
@[simp] theorem smSet_set (m : SMap α) (d : α) (k : Nat) (v w : α) : smSet (smSet m d k v) d k w = smSet m d k w := by
  have hd : smDrop (smSet m d k v) k = smDrop m k := by
    by_cases h : v = d
    · simp [smSet, h, smDrop_of_unlisted _ _ (unlisted_drop m k)]
    · simp [smSet, h, smDrop_put, smDrop_of_unlisted _ _ (unlisted_drop m k)]
  have e : ∀ n : SMap α, smSet n d k w = if w = d then smDrop n k else smPut (smDrop n k) k w := fun _ => rfl
  rw [e, e, hd]

/-! ## The canonical form -/

omit [DecidableEq α] in
/-- The keys of a map rise strictly: the form that `smRising` decides. -/
theorem smRising_iff (m : SMap α) : smRising m = true ↔ m.Pairwise (fun a b => a.1 < b.1) := by
  induction m with
  | nil => simp [smRising]
  | cons e t ih =>
    obtain ⟨k, v⟩ := e
    cases t with
    | nil => simp [smRising]
    | cons e' t' =>
      obtain ⟨k', v'⟩ := e'
      simp only [smRising, Bool.and_eq_true, decide_eq_true_eq, ih]
      constructor
      · rintro ⟨h, hp⟩
        refine List.pairwise_cons.mpr ⟨?_, hp⟩
        intro e he
        rcases List.mem_cons.mp he with rfl | he
        · exact h
        · exact lt_trans h ((List.pairwise_cons.mp hp).1 e he)
      · intro h
        exact ⟨(List.pairwise_cons.mp h).1 (k', v') (by simp), (List.pairwise_cons.mp h).2⟩

theorem mem_put (m : SMap α) (k : Nat) (v : α) (e : Nat × α) : e ∈ smPut m k v ↔ e = (k, v) ∨ e ∈ m := by
  induction m with
  | nil => simp [smPut]
  | cons x t ih =>
    obtain ⟨j, w⟩ := x
    by_cases hk : k < j
    · simp [smPut, hk]
    · simp only [smPut, hk, if_false, List.mem_cons, ih]
      tauto

theorem rising_put (m : SMap α) (k : Nat) (v : α) (hm : m.Pairwise (fun a b => a.1 < b.1)) (hk : Unlisted m k) :
    (smPut m k v).Pairwise (fun a b => a.1 < b.1) := by
  induction m with
  | nil => simp [smPut]
  | cons x t ih =>
    obtain ⟨j, w⟩ := x
    have hj : j ≠ k := hk (j, w) (by simp)
    have ht : Unlisted t k := fun e he => hk e (by simp [he])
    obtain ⟨h1, h2⟩ := List.pairwise_cons.mp hm
    by_cases hlt : k < j
    · simp only [smPut, hlt, if_true]
      refine List.pairwise_cons.mpr ⟨?_, hm⟩
      intro e he
      rcases List.mem_cons.mp he with rfl | he
      · exact hlt
      · exact lt_trans hlt (h1 e he)
    · simp only [smPut, hlt, if_false]
      refine List.pairwise_cons.mpr ⟨?_, ih h2 ht⟩
      intro e he
      rcases (mem_put t k v e).mp he with rfl | he
      · simp only; omega
      · exact h1 e he

/-- Writing keeps the canonical form. -/
theorem smWf_set (m : SMap α) (d : α) (k : Nat) (v : α) (h : smWf m d = true) : smWf (smSet m d k v) d = true := by
  simp only [smWf, Bool.and_eq_true, smRising_iff, List.all_eq_true] at h ⊢
  obtain ⟨hr, hd⟩ := h
  have hr' : (smDrop m k).Pairwise (fun a b => a.1 < b.1) := hr.filter _
  have hd' : ∀ e ∈ smDrop m k, decide (e.2 ≠ d) = true := fun e he => hd e (List.mem_filter.mp he).1
  by_cases hv : v = d
  · simpa [smSet, hv] using ⟨hr', by simpa using hd'⟩
  · refine ⟨?_, ?_⟩
    · simpa [smSet, hv] using rising_put _ k v hr' (unlisted_drop m k)
    · intro e he
      simp only [smSet, hv, if_false] at he
      rcases (mem_put _ k v e).mp he with rfl | he
      · simpa using hv
      · exact hd' e he

/-- Keeping some entries keeps the canonical form. -/
theorem smWf_filter (m : SMap α) (d : α) (p : Nat × α → Bool) (h : smWf m d = true) : smWf (m.filter p) d = true := by
  simp only [smWf, Bool.and_eq_true, smRising_iff, List.all_eq_true] at h ⊢
  exact ⟨h.1.filter _, fun e he => h.2 e (List.mem_filter.mp he).1⟩

/-- A map in canonical form is determined by what its keys read as. -/
theorem smWf_ext (m n : SMap α) (d : α) (hm : smWf m d = true) (hn : smWf n d = true)
    (h : ∀ k, smGet m d k = smGet n d k) : m = n := by
  induction m generalizing n with
  | nil =>
    cases n with
    | nil => rfl
    | cons e t =>
      obtain ⟨k, v⟩ := e
      simp only [smWf, Bool.and_eq_true, List.all_eq_true] at hn
      have hv : v ≠ d := by simpa using hn.2 (k, v) (by simp)
      exact absurd (by simpa [smGet] using (h k).symm) hv
  | cons e t ih =>
    obtain ⟨k, v⟩ := e
    simp only [smWf, Bool.and_eq_true, smRising_iff, List.all_eq_true, List.pairwise_cons] at hm
    have hv : v ≠ d := by simpa using hm.2 (k, v) (by simp)
    have low : ∀ (l : SMap α) (j : Nat), (∀ e ∈ l, j < e.1) → smGet l d j = d := by
      intro l j hl
      induction l with
      | nil => rfl
      | cons x l ihl =>
        have := hl x (by simp)
        simp [smGet, show x.1 ≠ j by omega, ihl (fun e he => hl e (by simp [he]))]
    cases n with
    | nil => exact absurd (by simpa [smGet] using h k) hv
    | cons e' t' =>
      obtain ⟨k', v'⟩ := e'
      simp only [smWf, Bool.and_eq_true, smRising_iff, List.all_eq_true, List.pairwise_cons] at hn
      have hv' : v' ≠ d := by simpa using hn.2 (k', v') (by simp)
      have hk : k = k' := by
        rcases Nat.lt_trichotomy k k' with hlt | heq | hgt
        · have := h k
          rw [low ((k', v') :: t') k (by
            intro e he
            rcases List.mem_cons.mp he with rfl | he
            · exact hlt
            · exact lt_trans hlt (hn.1.1 e he))] at this
          exact absurd (by simpa [smGet] using this) hv
        · exact heq
        · have := (h k').symm
          rw [low ((k, v) :: t) k' (by
            intro e he
            rcases List.mem_cons.mp he with rfl | he
            · exact hgt
            · exact lt_trans hgt (hm.1.1 e he))] at this
          exact absurd (by simpa [smGet] using this) hv'
      subst hk
      have hvv : v = v' := by simpa [smGet] using h k
      subst hvv
      congr 1
      apply ih
      · simp only [smWf, Bool.and_eq_true, smRising_iff, List.all_eq_true]
        exact ⟨hm.1.2, fun e he => hm.2 e (by simp [he])⟩
      · simp only [smWf, Bool.and_eq_true, smRising_iff, List.all_eq_true]
        exact ⟨hn.1.2, fun e he => hn.2 e (by simp [he])⟩
      · intro j
        by_cases hj : j = k
        · subst hj
          rw [low t j (fun e he => hm.1.1 e he), low t' j (fun e he => hn.1.1 e he)]
        · have := h j
          simpa [smGet, Ne.symm hj] using this

end Sys2Proof.Laws
end

