-- ==== Sys2Proof/Laws/State.lean ====
section
/-! SUPPORT. What each update of the state leaves in every field and accessor, so that no proof unfolds a record update. -/

namespace Sys2Proof.Laws

open Sys2Proof Sys2Proof.Machine

/-! ## setReg -/

@[simp] theorem setReg_snaps (s : State) (r : Reg) (v : Word32) : (s.setReg r v).snaps = s.snaps := rfl
@[simp] theorem setReg_stagedLo (s : State) (r : Reg) (v : Word32) : (s.setReg r v).stagedLo = s.stagedLo := rfl
@[simp] theorem setReg_resp (s : State) (r : Reg) (v : Word32) : (s.setReg r v).resp = s.resp := rfl
@[simp] theorem setReg_accepting (s : State) (r : Reg) (v : Word32) : (s.setReg r v).accepting = s.accepting := rfl
@[simp] theorem setReg_hbclkMhz (s : State) (r : Reg) (v : Word32) : (s.setReg r v).hbclkMhz = s.hbclkMhz := rfl
@[simp] theorem setReg_h2d (s : State) (r : Reg) (v : Word32) : (s.setReg r v).h2d = s.h2d := rfl
@[simp] theorem setReg_d2h (s : State) (r : Reg) (v : Word32) : (s.setReg r v).d2h = s.d2h := rfl
@[simp] theorem setReg_mbxPoison (s : State) (r : Reg) (v : Word32) : (s.setReg r v).mbxPoison = s.mbxPoison := rfl
@[simp] theorem setReg_mbxOpen (s : State) (r : Reg) (v : Word32) : (s.setReg r v).mbxOpen = s.mbxOpen := rfl
@[simp] theorem setReg_h2dFull (s : State) (r : Reg) (v : Word32) : (s.setReg r v).h2dFull = s.h2dFull := rfl
@[simp] theorem setReg_d2hFull (s : State) (r : Reg) (v : Word32) : (s.setReg r v).d2hFull = s.d2hFull := rfl
@[simp] theorem setReg_mem (s : State) (r : Reg) (v : Word32) : (s.setReg r v).mem = s.mem := rfl
@[simp] theorem setReg_flash (s : State) (r : Reg) (v : Word32) : (s.setReg r v).flash = s.flash := rfl
@[simp] theorem setReg_poison (s : State) (r : Reg) (v : Word32) : (s.setReg r v).poison = s.poison := rfl
@[simp] theorem setReg_stale (s : State) (r : Reg) (v : Word32) : (s.setReg r v).stale = s.stale := rfl
@[simp] theorem setReg_sites (s : State) (r : Reg) (v : Word32) : (s.setReg r v).sites = s.sites := rfl
@[simp] theorem setReg_links (s : State) (r : Reg) (v : Word32) : (s.setReg r v).links = s.links := rfl
@[simp] theorem setReg_ctxs (s : State) (r : Reg) (v : Word32) : (s.setReg r v).ctxs = s.ctxs := rfl
@[simp] theorem setReg_cores (s : State) (r : Reg) (v : Word32) : (s.setReg r v).cores = s.cores := rfl
@[simp] theorem setReg_curlew (s : State) (r : Reg) (v : Word32) : (s.setReg r v).curlew = s.curlew := rfl
@[simp] theorem setReg_drbg (s : State) (r : Reg) (v : Word32) : (s.setReg r v).drbg = s.drbg := rfl
@[simp] theorem setReg_tide (s : State) (r : Reg) (v : Word32) : (s.setReg r v).tide = s.tide := rfl
@[simp] theorem setReg_spb (s : State) (r : Reg) (v : Word32) : (s.setReg r v).spb = s.spb := rfl
@[simp] theorem setReg_tickets (s : State) (r : Reg) (v : Word32) : (s.setReg r v).tickets = s.tickets := rfl
@[simp] theorem setReg_encl (s : State) (r : Reg) (v : Word32) : (s.setReg r v).encl = s.encl := rfl
@[simp] theorem setReg_enclTable (s : State) (r : Reg) (v : Word32) : (s.setReg r v).enclTable = s.enclTable := rfl
@[simp] theorem setReg_enclV (s : State) (r : Reg) (v : Word32) : (s.setReg r v).enclV = s.enclV := rfl
@[simp] theorem setReg_ctxBaseSet (s : State) (r : Reg) (v : Word32) : (s.setReg r v).ctxBaseSet = s.ctxBaseSet := rfl
@[simp] theorem setReg_siteBufSet (s : State) (r : Reg) (v : Word32) : (s.setReg r v).siteBufSet = s.siteBufSet := rfl
@[simp] theorem setReg_fuses (s : State) (r : Reg) (v : Word32) : (s.setReg r v).fuses = s.fuses := rfl
@[simp] theorem setReg_sensed (s : State) (r : Reg) (v : Word32) : (s.setReg r v).sensed = s.sensed := rfl
@[simp] theorem setReg_inReset (s : State) (r : Reg) (v : Word32) : (s.setReg r v).inReset = s.inReset := rfl
@[simp] theorem setReg_boot (s : State) (r : Reg) (v : Word32) : (s.setReg r v).boot = s.boot := rfl
@[simp] theorem setReg_ue (s : State) (r : Reg) (v : Word32) : (s.setReg r v).ue = s.ue := rfl
@[simp] theorem setReg_elec (s : State) (r : Reg) (v : Word32) : (s.setReg r v).elec = s.elec := rfl
@[simp] theorem setReg_port (s : State) (r : Reg) (v : Word32) : (s.setReg r v).port = s.port := rfl
@[simp] theorem setReg_fuseCtrl (s : State) (r : Reg) (v : Word32) : (s.setReg r v).fuseCtrl = s.fuseCtrl := rfl
@[simp] theorem setReg_sortGen (s : State) (r : Reg) (v : Word32) : (s.setReg r v).sortGen = s.sortGen := rfl
@[simp] theorem setReg_wdtHalf (s : State) (r : Reg) (v : Word32) : (s.setReg r v).wdtHalf = s.wdtHalf := rfl
@[simp] theorem setReg_wdtWarned (s : State) (r : Reg) (v : Word32) : (s.setReg r v).wdtWarned = s.wdtWarned := rfl
@[simp] theorem setReg_scrubPos (s : State) (r : Reg) (v : Word32) : (s.setReg r v).scrubPos = s.scrubPos := rfl
@[simp] theorem setReg_dramChans (s : State) (r : Reg) (v : Word32) : (s.setReg r v).dramChans = s.dramChans := rfl
@[simp] theorem setReg_enclCtl (s : State) (r : Reg) (v : Word32) : (s.setReg r v).enclCtl = s.enclCtl := rfl
@[simp] theorem setReg_replaced (s : State) (r : Reg) (v : Word32) : (s.setReg r v).replaced = s.replaced := rfl
@[simp] theorem setReg_time (s : State) (r : Reg) (v : Word32) : (s.setReg r v).time = s.time := rfl
@[simp] theorem setReg_arrivals (s : State) (r : Reg) (v : Word32) : (s.setReg r v).arrivals = s.arrivals := rfl
@[simp] theorem setReg_sent (s : State) (r : Reg) (v : Word32) : (s.setReg r v).sent = s.sent := rfl
@[simp] theorem setReg_upset (s : State) (r : Reg) (v : Word32) : (s.setReg r v).upset = s.upset := rfl
@[simp] theorem setReg_free (s : State) (r : Reg) (v : Word32) : (s.setReg r v).free = s.free := rfl
@[simp] theorem setReg_pending (s : State) (r : Reg) (v : Word32) : (s.setReg r v).pending = s.pending := rfl
@[simp] theorem setReg_site (s : State) (r : Reg) (v : Word32) (m : SiteId) : (s.setReg r v).site m = s.site m := rfl
@[simp] theorem setReg_link (s : State) (r : Reg) (v : Word32) (j : LinkId) : (s.setReg r v).link j = s.link j := rfl
@[simp] theorem setReg_station (s : State) (r : Reg) (v : Word32) (j : LinkId) (y : StationId) : (s.setReg r v).station j y = s.station j y := rfl
@[simp] theorem setReg_ctx (s : State) (r : Reg) (v : Word32) (y : CtxId) : (s.setReg r v).ctx y = s.ctx y := rfl
@[simp] theorem setReg_core (s : State) (r : Reg) (v : Word32) (d : Nat) : (s.setReg r v).core d = s.core d := rfl
@[simp] theorem setReg_memByte (s : State) (r : Reg) (v : Word32) (b : Nat) : (s.setReg r v).memByte b = s.memByte b := rfl

/-! ## setSite -/

@[simp] theorem setSite_regs (s : State) (n : SiteId) (v : Site) : (s.setSite n v).regs = s.regs := rfl
@[simp] theorem setSite_snaps (s : State) (n : SiteId) (v : Site) : (s.setSite n v).snaps = s.snaps := rfl
@[simp] theorem setSite_stagedLo (s : State) (n : SiteId) (v : Site) : (s.setSite n v).stagedLo = s.stagedLo := rfl
@[simp] theorem setSite_resp (s : State) (n : SiteId) (v : Site) : (s.setSite n v).resp = s.resp := rfl
@[simp] theorem setSite_accepting (s : State) (n : SiteId) (v : Site) : (s.setSite n v).accepting = s.accepting := rfl
@[simp] theorem setSite_hbclkMhz (s : State) (n : SiteId) (v : Site) : (s.setSite n v).hbclkMhz = s.hbclkMhz := rfl
@[simp] theorem setSite_h2d (s : State) (n : SiteId) (v : Site) : (s.setSite n v).h2d = s.h2d := rfl
@[simp] theorem setSite_d2h (s : State) (n : SiteId) (v : Site) : (s.setSite n v).d2h = s.d2h := rfl
@[simp] theorem setSite_mbxPoison (s : State) (n : SiteId) (v : Site) : (s.setSite n v).mbxPoison = s.mbxPoison := rfl
@[simp] theorem setSite_mbxOpen (s : State) (n : SiteId) (v : Site) : (s.setSite n v).mbxOpen = s.mbxOpen := rfl
@[simp] theorem setSite_h2dFull (s : State) (n : SiteId) (v : Site) : (s.setSite n v).h2dFull = s.h2dFull := rfl
@[simp] theorem setSite_d2hFull (s : State) (n : SiteId) (v : Site) : (s.setSite n v).d2hFull = s.d2hFull := rfl
@[simp] theorem setSite_mem (s : State) (n : SiteId) (v : Site) : (s.setSite n v).mem = s.mem := rfl
@[simp] theorem setSite_flash (s : State) (n : SiteId) (v : Site) : (s.setSite n v).flash = s.flash := rfl
@[simp] theorem setSite_poison (s : State) (n : SiteId) (v : Site) : (s.setSite n v).poison = s.poison := rfl
@[simp] theorem setSite_stale (s : State) (n : SiteId) (v : Site) : (s.setSite n v).stale = s.stale := rfl
@[simp] theorem setSite_links (s : State) (n : SiteId) (v : Site) : (s.setSite n v).links = s.links := rfl
@[simp] theorem setSite_ctxs (s : State) (n : SiteId) (v : Site) : (s.setSite n v).ctxs = s.ctxs := rfl
@[simp] theorem setSite_cores (s : State) (n : SiteId) (v : Site) : (s.setSite n v).cores = s.cores := rfl
@[simp] theorem setSite_curlew (s : State) (n : SiteId) (v : Site) : (s.setSite n v).curlew = s.curlew := rfl
@[simp] theorem setSite_drbg (s : State) (n : SiteId) (v : Site) : (s.setSite n v).drbg = s.drbg := rfl
@[simp] theorem setSite_tide (s : State) (n : SiteId) (v : Site) : (s.setSite n v).tide = s.tide := rfl
@[simp] theorem setSite_spb (s : State) (n : SiteId) (v : Site) : (s.setSite n v).spb = s.spb := rfl
@[simp] theorem setSite_tickets (s : State) (n : SiteId) (v : Site) : (s.setSite n v).tickets = s.tickets := rfl
@[simp] theorem setSite_encl (s : State) (n : SiteId) (v : Site) : (s.setSite n v).encl = s.encl := rfl
@[simp] theorem setSite_enclTable (s : State) (n : SiteId) (v : Site) : (s.setSite n v).enclTable = s.enclTable := rfl
@[simp] theorem setSite_enclV (s : State) (n : SiteId) (v : Site) : (s.setSite n v).enclV = s.enclV := rfl
@[simp] theorem setSite_ctxBaseSet (s : State) (n : SiteId) (v : Site) : (s.setSite n v).ctxBaseSet = s.ctxBaseSet := rfl
@[simp] theorem setSite_siteBufSet (s : State) (n : SiteId) (v : Site) : (s.setSite n v).siteBufSet = s.siteBufSet := rfl
@[simp] theorem setSite_fuses (s : State) (n : SiteId) (v : Site) : (s.setSite n v).fuses = s.fuses := rfl
@[simp] theorem setSite_sensed (s : State) (n : SiteId) (v : Site) : (s.setSite n v).sensed = s.sensed := rfl
@[simp] theorem setSite_inReset (s : State) (n : SiteId) (v : Site) : (s.setSite n v).inReset = s.inReset := rfl
@[simp] theorem setSite_boot (s : State) (n : SiteId) (v : Site) : (s.setSite n v).boot = s.boot := rfl
@[simp] theorem setSite_ue (s : State) (n : SiteId) (v : Site) : (s.setSite n v).ue = s.ue := rfl
@[simp] theorem setSite_elec (s : State) (n : SiteId) (v : Site) : (s.setSite n v).elec = s.elec := rfl
@[simp] theorem setSite_port (s : State) (n : SiteId) (v : Site) : (s.setSite n v).port = s.port := rfl
@[simp] theorem setSite_fuseCtrl (s : State) (n : SiteId) (v : Site) : (s.setSite n v).fuseCtrl = s.fuseCtrl := rfl
@[simp] theorem setSite_sortGen (s : State) (n : SiteId) (v : Site) : (s.setSite n v).sortGen = s.sortGen := rfl
@[simp] theorem setSite_wdtHalf (s : State) (n : SiteId) (v : Site) : (s.setSite n v).wdtHalf = s.wdtHalf := rfl
@[simp] theorem setSite_wdtWarned (s : State) (n : SiteId) (v : Site) : (s.setSite n v).wdtWarned = s.wdtWarned := rfl
@[simp] theorem setSite_scrubPos (s : State) (n : SiteId) (v : Site) : (s.setSite n v).scrubPos = s.scrubPos := rfl
@[simp] theorem setSite_dramChans (s : State) (n : SiteId) (v : Site) : (s.setSite n v).dramChans = s.dramChans := rfl
@[simp] theorem setSite_enclCtl (s : State) (n : SiteId) (v : Site) : (s.setSite n v).enclCtl = s.enclCtl := rfl
@[simp] theorem setSite_replaced (s : State) (n : SiteId) (v : Site) : (s.setSite n v).replaced = s.replaced := rfl
@[simp] theorem setSite_time (s : State) (n : SiteId) (v : Site) : (s.setSite n v).time = s.time := rfl
@[simp] theorem setSite_arrivals (s : State) (n : SiteId) (v : Site) : (s.setSite n v).arrivals = s.arrivals := rfl
@[simp] theorem setSite_sent (s : State) (n : SiteId) (v : Site) : (s.setSite n v).sent = s.sent := rfl
@[simp] theorem setSite_upset (s : State) (n : SiteId) (v : Site) : (s.setSite n v).upset = s.upset := rfl
@[simp] theorem setSite_free (s : State) (n : SiteId) (v : Site) : (s.setSite n v).free = s.free := rfl
@[simp] theorem setSite_pending (s : State) (n : SiteId) (v : Site) : (s.setSite n v).pending = s.pending := rfl
@[simp] theorem setSite_reg (s : State) (n : SiteId) (v : Site) (q : Reg) : (s.setSite n v).reg q = s.reg q := rfl
@[simp] theorem setSite_link (s : State) (n : SiteId) (v : Site) (j : LinkId) : (s.setSite n v).link j = s.link j := rfl
@[simp] theorem setSite_station (s : State) (n : SiteId) (v : Site) (j : LinkId) (y : StationId) : (s.setSite n v).station j y = s.station j y := rfl
@[simp] theorem setSite_ctx (s : State) (n : SiteId) (v : Site) (y : CtxId) : (s.setSite n v).ctx y = s.ctx y := rfl
@[simp] theorem setSite_core (s : State) (n : SiteId) (v : Site) (d : Nat) : (s.setSite n v).core d = s.core d := rfl
@[simp] theorem setSite_memByte (s : State) (n : SiteId) (v : Site) (b : Nat) : (s.setSite n v).memByte b = s.memByte b := rfl

/-! ## setLink -/

@[simp] theorem setLink_regs (s : State) (k : LinkId) (v : Link) : (s.setLink k v).regs = s.regs := rfl
@[simp] theorem setLink_snaps (s : State) (k : LinkId) (v : Link) : (s.setLink k v).snaps = s.snaps := rfl
@[simp] theorem setLink_stagedLo (s : State) (k : LinkId) (v : Link) : (s.setLink k v).stagedLo = s.stagedLo := rfl
@[simp] theorem setLink_resp (s : State) (k : LinkId) (v : Link) : (s.setLink k v).resp = s.resp := rfl
@[simp] theorem setLink_accepting (s : State) (k : LinkId) (v : Link) : (s.setLink k v).accepting = s.accepting := rfl
@[simp] theorem setLink_hbclkMhz (s : State) (k : LinkId) (v : Link) : (s.setLink k v).hbclkMhz = s.hbclkMhz := rfl
@[simp] theorem setLink_h2d (s : State) (k : LinkId) (v : Link) : (s.setLink k v).h2d = s.h2d := rfl
@[simp] theorem setLink_d2h (s : State) (k : LinkId) (v : Link) : (s.setLink k v).d2h = s.d2h := rfl
@[simp] theorem setLink_mbxPoison (s : State) (k : LinkId) (v : Link) : (s.setLink k v).mbxPoison = s.mbxPoison := rfl
@[simp] theorem setLink_mbxOpen (s : State) (k : LinkId) (v : Link) : (s.setLink k v).mbxOpen = s.mbxOpen := rfl
@[simp] theorem setLink_h2dFull (s : State) (k : LinkId) (v : Link) : (s.setLink k v).h2dFull = s.h2dFull := rfl
@[simp] theorem setLink_d2hFull (s : State) (k : LinkId) (v : Link) : (s.setLink k v).d2hFull = s.d2hFull := rfl
@[simp] theorem setLink_mem (s : State) (k : LinkId) (v : Link) : (s.setLink k v).mem = s.mem := rfl
@[simp] theorem setLink_flash (s : State) (k : LinkId) (v : Link) : (s.setLink k v).flash = s.flash := rfl
@[simp] theorem setLink_poison (s : State) (k : LinkId) (v : Link) : (s.setLink k v).poison = s.poison := rfl
@[simp] theorem setLink_stale (s : State) (k : LinkId) (v : Link) : (s.setLink k v).stale = s.stale := rfl
@[simp] theorem setLink_sites (s : State) (k : LinkId) (v : Link) : (s.setLink k v).sites = s.sites := rfl
@[simp] theorem setLink_ctxs (s : State) (k : LinkId) (v : Link) : (s.setLink k v).ctxs = s.ctxs := rfl
@[simp] theorem setLink_cores (s : State) (k : LinkId) (v : Link) : (s.setLink k v).cores = s.cores := rfl
@[simp] theorem setLink_curlew (s : State) (k : LinkId) (v : Link) : (s.setLink k v).curlew = s.curlew := rfl
@[simp] theorem setLink_drbg (s : State) (k : LinkId) (v : Link) : (s.setLink k v).drbg = s.drbg := rfl
@[simp] theorem setLink_tide (s : State) (k : LinkId) (v : Link) : (s.setLink k v).tide = s.tide := rfl
@[simp] theorem setLink_spb (s : State) (k : LinkId) (v : Link) : (s.setLink k v).spb = s.spb := rfl
@[simp] theorem setLink_tickets (s : State) (k : LinkId) (v : Link) : (s.setLink k v).tickets = s.tickets := rfl
@[simp] theorem setLink_encl (s : State) (k : LinkId) (v : Link) : (s.setLink k v).encl = s.encl := rfl
@[simp] theorem setLink_enclTable (s : State) (k : LinkId) (v : Link) : (s.setLink k v).enclTable = s.enclTable := rfl
@[simp] theorem setLink_enclV (s : State) (k : LinkId) (v : Link) : (s.setLink k v).enclV = s.enclV := rfl
@[simp] theorem setLink_ctxBaseSet (s : State) (k : LinkId) (v : Link) : (s.setLink k v).ctxBaseSet = s.ctxBaseSet := rfl
@[simp] theorem setLink_siteBufSet (s : State) (k : LinkId) (v : Link) : (s.setLink k v).siteBufSet = s.siteBufSet := rfl
@[simp] theorem setLink_fuses (s : State) (k : LinkId) (v : Link) : (s.setLink k v).fuses = s.fuses := rfl
@[simp] theorem setLink_sensed (s : State) (k : LinkId) (v : Link) : (s.setLink k v).sensed = s.sensed := rfl
@[simp] theorem setLink_inReset (s : State) (k : LinkId) (v : Link) : (s.setLink k v).inReset = s.inReset := rfl
@[simp] theorem setLink_boot (s : State) (k : LinkId) (v : Link) : (s.setLink k v).boot = s.boot := rfl
@[simp] theorem setLink_ue (s : State) (k : LinkId) (v : Link) : (s.setLink k v).ue = s.ue := rfl
@[simp] theorem setLink_elec (s : State) (k : LinkId) (v : Link) : (s.setLink k v).elec = s.elec := rfl
@[simp] theorem setLink_port (s : State) (k : LinkId) (v : Link) : (s.setLink k v).port = s.port := rfl
@[simp] theorem setLink_fuseCtrl (s : State) (k : LinkId) (v : Link) : (s.setLink k v).fuseCtrl = s.fuseCtrl := rfl
@[simp] theorem setLink_sortGen (s : State) (k : LinkId) (v : Link) : (s.setLink k v).sortGen = s.sortGen := rfl
@[simp] theorem setLink_wdtHalf (s : State) (k : LinkId) (v : Link) : (s.setLink k v).wdtHalf = s.wdtHalf := rfl
@[simp] theorem setLink_wdtWarned (s : State) (k : LinkId) (v : Link) : (s.setLink k v).wdtWarned = s.wdtWarned := rfl
@[simp] theorem setLink_scrubPos (s : State) (k : LinkId) (v : Link) : (s.setLink k v).scrubPos = s.scrubPos := rfl
@[simp] theorem setLink_dramChans (s : State) (k : LinkId) (v : Link) : (s.setLink k v).dramChans = s.dramChans := rfl
@[simp] theorem setLink_enclCtl (s : State) (k : LinkId) (v : Link) : (s.setLink k v).enclCtl = s.enclCtl := rfl
@[simp] theorem setLink_replaced (s : State) (k : LinkId) (v : Link) : (s.setLink k v).replaced = s.replaced := rfl
@[simp] theorem setLink_time (s : State) (k : LinkId) (v : Link) : (s.setLink k v).time = s.time := rfl
@[simp] theorem setLink_arrivals (s : State) (k : LinkId) (v : Link) : (s.setLink k v).arrivals = s.arrivals := rfl
@[simp] theorem setLink_sent (s : State) (k : LinkId) (v : Link) : (s.setLink k v).sent = s.sent := rfl
@[simp] theorem setLink_upset (s : State) (k : LinkId) (v : Link) : (s.setLink k v).upset = s.upset := rfl
@[simp] theorem setLink_free (s : State) (k : LinkId) (v : Link) : (s.setLink k v).free = s.free := rfl
@[simp] theorem setLink_pending (s : State) (k : LinkId) (v : Link) : (s.setLink k v).pending = s.pending := rfl
@[simp] theorem setLink_reg (s : State) (k : LinkId) (v : Link) (q : Reg) : (s.setLink k v).reg q = s.reg q := rfl
@[simp] theorem setLink_site (s : State) (k : LinkId) (v : Link) (m : SiteId) : (s.setLink k v).site m = s.site m := rfl
@[simp] theorem setLink_ctx (s : State) (k : LinkId) (v : Link) (y : CtxId) : (s.setLink k v).ctx y = s.ctx y := rfl
@[simp] theorem setLink_core (s : State) (k : LinkId) (v : Link) (d : Nat) : (s.setLink k v).core d = s.core d := rfl
@[simp] theorem setLink_memByte (s : State) (k : LinkId) (v : Link) (b : Nat) : (s.setLink k v).memByte b = s.memByte b := rfl

/-! ## setCtx -/

@[simp] theorem setCtx_regs (s : State) (x : CtxId) (v : Ctx) : (s.setCtx x v).regs = s.regs := rfl
@[simp] theorem setCtx_snaps (s : State) (x : CtxId) (v : Ctx) : (s.setCtx x v).snaps = s.snaps := rfl
@[simp] theorem setCtx_stagedLo (s : State) (x : CtxId) (v : Ctx) : (s.setCtx x v).stagedLo = s.stagedLo := rfl
@[simp] theorem setCtx_resp (s : State) (x : CtxId) (v : Ctx) : (s.setCtx x v).resp = s.resp := rfl
@[simp] theorem setCtx_accepting (s : State) (x : CtxId) (v : Ctx) : (s.setCtx x v).accepting = s.accepting := rfl
@[simp] theorem setCtx_hbclkMhz (s : State) (x : CtxId) (v : Ctx) : (s.setCtx x v).hbclkMhz = s.hbclkMhz := rfl
@[simp] theorem setCtx_h2d (s : State) (x : CtxId) (v : Ctx) : (s.setCtx x v).h2d = s.h2d := rfl
@[simp] theorem setCtx_d2h (s : State) (x : CtxId) (v : Ctx) : (s.setCtx x v).d2h = s.d2h := rfl
@[simp] theorem setCtx_mbxPoison (s : State) (x : CtxId) (v : Ctx) : (s.setCtx x v).mbxPoison = s.mbxPoison := rfl
@[simp] theorem setCtx_mbxOpen (s : State) (x : CtxId) (v : Ctx) : (s.setCtx x v).mbxOpen = s.mbxOpen := rfl
@[simp] theorem setCtx_h2dFull (s : State) (x : CtxId) (v : Ctx) : (s.setCtx x v).h2dFull = s.h2dFull := rfl
@[simp] theorem setCtx_d2hFull (s : State) (x : CtxId) (v : Ctx) : (s.setCtx x v).d2hFull = s.d2hFull := rfl
@[simp] theorem setCtx_mem (s : State) (x : CtxId) (v : Ctx) : (s.setCtx x v).mem = s.mem := rfl
@[simp] theorem setCtx_flash (s : State) (x : CtxId) (v : Ctx) : (s.setCtx x v).flash = s.flash := rfl
@[simp] theorem setCtx_poison (s : State) (x : CtxId) (v : Ctx) : (s.setCtx x v).poison = s.poison := rfl
@[simp] theorem setCtx_stale (s : State) (x : CtxId) (v : Ctx) : (s.setCtx x v).stale = s.stale := rfl
@[simp] theorem setCtx_sites (s : State) (x : CtxId) (v : Ctx) : (s.setCtx x v).sites = s.sites := rfl
@[simp] theorem setCtx_links (s : State) (x : CtxId) (v : Ctx) : (s.setCtx x v).links = s.links := rfl
@[simp] theorem setCtx_cores (s : State) (x : CtxId) (v : Ctx) : (s.setCtx x v).cores = s.cores := rfl
@[simp] theorem setCtx_curlew (s : State) (x : CtxId) (v : Ctx) : (s.setCtx x v).curlew = s.curlew := rfl
@[simp] theorem setCtx_drbg (s : State) (x : CtxId) (v : Ctx) : (s.setCtx x v).drbg = s.drbg := rfl
@[simp] theorem setCtx_tide (s : State) (x : CtxId) (v : Ctx) : (s.setCtx x v).tide = s.tide := rfl
@[simp] theorem setCtx_spb (s : State) (x : CtxId) (v : Ctx) : (s.setCtx x v).spb = s.spb := rfl
@[simp] theorem setCtx_tickets (s : State) (x : CtxId) (v : Ctx) : (s.setCtx x v).tickets = s.tickets := rfl
@[simp] theorem setCtx_encl (s : State) (x : CtxId) (v : Ctx) : (s.setCtx x v).encl = s.encl := rfl
@[simp] theorem setCtx_enclTable (s : State) (x : CtxId) (v : Ctx) : (s.setCtx x v).enclTable = s.enclTable := rfl
@[simp] theorem setCtx_enclV (s : State) (x : CtxId) (v : Ctx) : (s.setCtx x v).enclV = s.enclV := rfl
@[simp] theorem setCtx_ctxBaseSet (s : State) (x : CtxId) (v : Ctx) : (s.setCtx x v).ctxBaseSet = s.ctxBaseSet := rfl
@[simp] theorem setCtx_siteBufSet (s : State) (x : CtxId) (v : Ctx) : (s.setCtx x v).siteBufSet = s.siteBufSet := rfl
@[simp] theorem setCtx_fuses (s : State) (x : CtxId) (v : Ctx) : (s.setCtx x v).fuses = s.fuses := rfl
@[simp] theorem setCtx_sensed (s : State) (x : CtxId) (v : Ctx) : (s.setCtx x v).sensed = s.sensed := rfl
@[simp] theorem setCtx_inReset (s : State) (x : CtxId) (v : Ctx) : (s.setCtx x v).inReset = s.inReset := rfl
@[simp] theorem setCtx_boot (s : State) (x : CtxId) (v : Ctx) : (s.setCtx x v).boot = s.boot := rfl
@[simp] theorem setCtx_ue (s : State) (x : CtxId) (v : Ctx) : (s.setCtx x v).ue = s.ue := rfl
@[simp] theorem setCtx_elec (s : State) (x : CtxId) (v : Ctx) : (s.setCtx x v).elec = s.elec := rfl
@[simp] theorem setCtx_port (s : State) (x : CtxId) (v : Ctx) : (s.setCtx x v).port = s.port := rfl
@[simp] theorem setCtx_fuseCtrl (s : State) (x : CtxId) (v : Ctx) : (s.setCtx x v).fuseCtrl = s.fuseCtrl := rfl
@[simp] theorem setCtx_sortGen (s : State) (x : CtxId) (v : Ctx) : (s.setCtx x v).sortGen = s.sortGen := rfl
@[simp] theorem setCtx_wdtHalf (s : State) (x : CtxId) (v : Ctx) : (s.setCtx x v).wdtHalf = s.wdtHalf := rfl
@[simp] theorem setCtx_wdtWarned (s : State) (x : CtxId) (v : Ctx) : (s.setCtx x v).wdtWarned = s.wdtWarned := rfl
@[simp] theorem setCtx_scrubPos (s : State) (x : CtxId) (v : Ctx) : (s.setCtx x v).scrubPos = s.scrubPos := rfl
@[simp] theorem setCtx_dramChans (s : State) (x : CtxId) (v : Ctx) : (s.setCtx x v).dramChans = s.dramChans := rfl
@[simp] theorem setCtx_enclCtl (s : State) (x : CtxId) (v : Ctx) : (s.setCtx x v).enclCtl = s.enclCtl := rfl
@[simp] theorem setCtx_replaced (s : State) (x : CtxId) (v : Ctx) : (s.setCtx x v).replaced = s.replaced := rfl
@[simp] theorem setCtx_time (s : State) (x : CtxId) (v : Ctx) : (s.setCtx x v).time = s.time := rfl
@[simp] theorem setCtx_arrivals (s : State) (x : CtxId) (v : Ctx) : (s.setCtx x v).arrivals = s.arrivals := rfl
@[simp] theorem setCtx_sent (s : State) (x : CtxId) (v : Ctx) : (s.setCtx x v).sent = s.sent := rfl
@[simp] theorem setCtx_upset (s : State) (x : CtxId) (v : Ctx) : (s.setCtx x v).upset = s.upset := rfl
@[simp] theorem setCtx_free (s : State) (x : CtxId) (v : Ctx) : (s.setCtx x v).free = s.free := rfl
@[simp] theorem setCtx_pending (s : State) (x : CtxId) (v : Ctx) : (s.setCtx x v).pending = s.pending := rfl
@[simp] theorem setCtx_reg (s : State) (x : CtxId) (v : Ctx) (q : Reg) : (s.setCtx x v).reg q = s.reg q := rfl
@[simp] theorem setCtx_site (s : State) (x : CtxId) (v : Ctx) (m : SiteId) : (s.setCtx x v).site m = s.site m := rfl
@[simp] theorem setCtx_link (s : State) (x : CtxId) (v : Ctx) (j : LinkId) : (s.setCtx x v).link j = s.link j := rfl
@[simp] theorem setCtx_station (s : State) (x : CtxId) (v : Ctx) (j : LinkId) (y : StationId) : (s.setCtx x v).station j y = s.station j y := rfl
@[simp] theorem setCtx_core (s : State) (x : CtxId) (v : Ctx) (d : Nat) : (s.setCtx x v).core d = s.core d := rfl
@[simp] theorem setCtx_memByte (s : State) (x : CtxId) (v : Ctx) (b : Nat) : (s.setCtx x v).memByte b = s.memByte b := rfl

/-! ## setCore -/

@[simp] theorem setCore_regs (s : State) (c : Nat) (v : Core) : (s.setCore c v).regs = s.regs := rfl
@[simp] theorem setCore_snaps (s : State) (c : Nat) (v : Core) : (s.setCore c v).snaps = s.snaps := rfl
@[simp] theorem setCore_stagedLo (s : State) (c : Nat) (v : Core) : (s.setCore c v).stagedLo = s.stagedLo := rfl
@[simp] theorem setCore_resp (s : State) (c : Nat) (v : Core) : (s.setCore c v).resp = s.resp := rfl
@[simp] theorem setCore_accepting (s : State) (c : Nat) (v : Core) : (s.setCore c v).accepting = s.accepting := rfl
@[simp] theorem setCore_hbclkMhz (s : State) (c : Nat) (v : Core) : (s.setCore c v).hbclkMhz = s.hbclkMhz := rfl
@[simp] theorem setCore_h2d (s : State) (c : Nat) (v : Core) : (s.setCore c v).h2d = s.h2d := rfl
@[simp] theorem setCore_d2h (s : State) (c : Nat) (v : Core) : (s.setCore c v).d2h = s.d2h := rfl
@[simp] theorem setCore_mbxPoison (s : State) (c : Nat) (v : Core) : (s.setCore c v).mbxPoison = s.mbxPoison := rfl
@[simp] theorem setCore_mbxOpen (s : State) (c : Nat) (v : Core) : (s.setCore c v).mbxOpen = s.mbxOpen := rfl
@[simp] theorem setCore_h2dFull (s : State) (c : Nat) (v : Core) : (s.setCore c v).h2dFull = s.h2dFull := rfl
@[simp] theorem setCore_d2hFull (s : State) (c : Nat) (v : Core) : (s.setCore c v).d2hFull = s.d2hFull := rfl
@[simp] theorem setCore_mem (s : State) (c : Nat) (v : Core) : (s.setCore c v).mem = s.mem := rfl
@[simp] theorem setCore_flash (s : State) (c : Nat) (v : Core) : (s.setCore c v).flash = s.flash := rfl
@[simp] theorem setCore_poison (s : State) (c : Nat) (v : Core) : (s.setCore c v).poison = s.poison := rfl
@[simp] theorem setCore_stale (s : State) (c : Nat) (v : Core) : (s.setCore c v).stale = s.stale := rfl
@[simp] theorem setCore_sites (s : State) (c : Nat) (v : Core) : (s.setCore c v).sites = s.sites := rfl
@[simp] theorem setCore_links (s : State) (c : Nat) (v : Core) : (s.setCore c v).links = s.links := rfl
@[simp] theorem setCore_ctxs (s : State) (c : Nat) (v : Core) : (s.setCore c v).ctxs = s.ctxs := rfl
@[simp] theorem setCore_curlew (s : State) (c : Nat) (v : Core) : (s.setCore c v).curlew = s.curlew := rfl
@[simp] theorem setCore_drbg (s : State) (c : Nat) (v : Core) : (s.setCore c v).drbg = s.drbg := rfl
@[simp] theorem setCore_tide (s : State) (c : Nat) (v : Core) : (s.setCore c v).tide = s.tide := rfl
@[simp] theorem setCore_spb (s : State) (c : Nat) (v : Core) : (s.setCore c v).spb = s.spb := rfl
@[simp] theorem setCore_tickets (s : State) (c : Nat) (v : Core) : (s.setCore c v).tickets = s.tickets := rfl
@[simp] theorem setCore_encl (s : State) (c : Nat) (v : Core) : (s.setCore c v).encl = s.encl := rfl
@[simp] theorem setCore_enclTable (s : State) (c : Nat) (v : Core) : (s.setCore c v).enclTable = s.enclTable := rfl
@[simp] theorem setCore_enclV (s : State) (c : Nat) (v : Core) : (s.setCore c v).enclV = s.enclV := rfl
@[simp] theorem setCore_ctxBaseSet (s : State) (c : Nat) (v : Core) : (s.setCore c v).ctxBaseSet = s.ctxBaseSet := rfl
@[simp] theorem setCore_siteBufSet (s : State) (c : Nat) (v : Core) : (s.setCore c v).siteBufSet = s.siteBufSet := rfl
@[simp] theorem setCore_fuses (s : State) (c : Nat) (v : Core) : (s.setCore c v).fuses = s.fuses := rfl
@[simp] theorem setCore_sensed (s : State) (c : Nat) (v : Core) : (s.setCore c v).sensed = s.sensed := rfl
@[simp] theorem setCore_inReset (s : State) (c : Nat) (v : Core) : (s.setCore c v).inReset = s.inReset := rfl
@[simp] theorem setCore_boot (s : State) (c : Nat) (v : Core) : (s.setCore c v).boot = s.boot := rfl
@[simp] theorem setCore_ue (s : State) (c : Nat) (v : Core) : (s.setCore c v).ue = s.ue := rfl
@[simp] theorem setCore_elec (s : State) (c : Nat) (v : Core) : (s.setCore c v).elec = s.elec := rfl
@[simp] theorem setCore_port (s : State) (c : Nat) (v : Core) : (s.setCore c v).port = s.port := rfl
@[simp] theorem setCore_fuseCtrl (s : State) (c : Nat) (v : Core) : (s.setCore c v).fuseCtrl = s.fuseCtrl := rfl
@[simp] theorem setCore_sortGen (s : State) (c : Nat) (v : Core) : (s.setCore c v).sortGen = s.sortGen := rfl
@[simp] theorem setCore_wdtHalf (s : State) (c : Nat) (v : Core) : (s.setCore c v).wdtHalf = s.wdtHalf := rfl
@[simp] theorem setCore_wdtWarned (s : State) (c : Nat) (v : Core) : (s.setCore c v).wdtWarned = s.wdtWarned := rfl
@[simp] theorem setCore_scrubPos (s : State) (c : Nat) (v : Core) : (s.setCore c v).scrubPos = s.scrubPos := rfl
@[simp] theorem setCore_dramChans (s : State) (c : Nat) (v : Core) : (s.setCore c v).dramChans = s.dramChans := rfl
@[simp] theorem setCore_enclCtl (s : State) (c : Nat) (v : Core) : (s.setCore c v).enclCtl = s.enclCtl := rfl
@[simp] theorem setCore_replaced (s : State) (c : Nat) (v : Core) : (s.setCore c v).replaced = s.replaced := rfl
@[simp] theorem setCore_time (s : State) (c : Nat) (v : Core) : (s.setCore c v).time = s.time := rfl
@[simp] theorem setCore_arrivals (s : State) (c : Nat) (v : Core) : (s.setCore c v).arrivals = s.arrivals := rfl
@[simp] theorem setCore_sent (s : State) (c : Nat) (v : Core) : (s.setCore c v).sent = s.sent := rfl
@[simp] theorem setCore_upset (s : State) (c : Nat) (v : Core) : (s.setCore c v).upset = s.upset := rfl
@[simp] theorem setCore_free (s : State) (c : Nat) (v : Core) : (s.setCore c v).free = s.free := rfl
@[simp] theorem setCore_pending (s : State) (c : Nat) (v : Core) : (s.setCore c v).pending = s.pending := rfl
@[simp] theorem setCore_reg (s : State) (c : Nat) (v : Core) (q : Reg) : (s.setCore c v).reg q = s.reg q := rfl
@[simp] theorem setCore_site (s : State) (c : Nat) (v : Core) (m : SiteId) : (s.setCore c v).site m = s.site m := rfl
@[simp] theorem setCore_link (s : State) (c : Nat) (v : Core) (j : LinkId) : (s.setCore c v).link j = s.link j := rfl
@[simp] theorem setCore_station (s : State) (c : Nat) (v : Core) (j : LinkId) (y : StationId) : (s.setCore c v).station j y = s.station j y := rfl
@[simp] theorem setCore_ctx (s : State) (c : Nat) (v : Core) (y : CtxId) : (s.setCore c v).ctx y = s.ctx y := rfl
@[simp] theorem setCore_memByte (s : State) (c : Nat) (v : Core) (b : Nat) : (s.setCore c v).memByte b = s.memByte b := rfl

/-! ## setPort -/

@[simp] theorem setPort_regs (s : State) (f : Port → Port) : (s.setPort f).regs = s.regs := rfl
@[simp] theorem setPort_snaps (s : State) (f : Port → Port) : (s.setPort f).snaps = s.snaps := rfl
@[simp] theorem setPort_stagedLo (s : State) (f : Port → Port) : (s.setPort f).stagedLo = s.stagedLo := rfl
@[simp] theorem setPort_resp (s : State) (f : Port → Port) : (s.setPort f).resp = s.resp := rfl
@[simp] theorem setPort_accepting (s : State) (f : Port → Port) : (s.setPort f).accepting = s.accepting := rfl
@[simp] theorem setPort_hbclkMhz (s : State) (f : Port → Port) : (s.setPort f).hbclkMhz = s.hbclkMhz := rfl
@[simp] theorem setPort_h2d (s : State) (f : Port → Port) : (s.setPort f).h2d = s.h2d := rfl
@[simp] theorem setPort_d2h (s : State) (f : Port → Port) : (s.setPort f).d2h = s.d2h := rfl
@[simp] theorem setPort_mbxPoison (s : State) (f : Port → Port) : (s.setPort f).mbxPoison = s.mbxPoison := rfl
@[simp] theorem setPort_mbxOpen (s : State) (f : Port → Port) : (s.setPort f).mbxOpen = s.mbxOpen := rfl
@[simp] theorem setPort_h2dFull (s : State) (f : Port → Port) : (s.setPort f).h2dFull = s.h2dFull := rfl
@[simp] theorem setPort_d2hFull (s : State) (f : Port → Port) : (s.setPort f).d2hFull = s.d2hFull := rfl
@[simp] theorem setPort_mem (s : State) (f : Port → Port) : (s.setPort f).mem = s.mem := rfl
@[simp] theorem setPort_flash (s : State) (f : Port → Port) : (s.setPort f).flash = s.flash := rfl
@[simp] theorem setPort_poison (s : State) (f : Port → Port) : (s.setPort f).poison = s.poison := rfl
@[simp] theorem setPort_stale (s : State) (f : Port → Port) : (s.setPort f).stale = s.stale := rfl
@[simp] theorem setPort_sites (s : State) (f : Port → Port) : (s.setPort f).sites = s.sites := rfl
@[simp] theorem setPort_links (s : State) (f : Port → Port) : (s.setPort f).links = s.links := rfl
@[simp] theorem setPort_ctxs (s : State) (f : Port → Port) : (s.setPort f).ctxs = s.ctxs := rfl
@[simp] theorem setPort_cores (s : State) (f : Port → Port) : (s.setPort f).cores = s.cores := rfl
@[simp] theorem setPort_curlew (s : State) (f : Port → Port) : (s.setPort f).curlew = s.curlew := rfl
@[simp] theorem setPort_drbg (s : State) (f : Port → Port) : (s.setPort f).drbg = s.drbg := rfl
@[simp] theorem setPort_tide (s : State) (f : Port → Port) : (s.setPort f).tide = s.tide := rfl
@[simp] theorem setPort_spb (s : State) (f : Port → Port) : (s.setPort f).spb = s.spb := rfl
@[simp] theorem setPort_tickets (s : State) (f : Port → Port) : (s.setPort f).tickets = s.tickets := rfl
@[simp] theorem setPort_encl (s : State) (f : Port → Port) : (s.setPort f).encl = s.encl := rfl
@[simp] theorem setPort_enclTable (s : State) (f : Port → Port) : (s.setPort f).enclTable = s.enclTable := rfl
@[simp] theorem setPort_enclV (s : State) (f : Port → Port) : (s.setPort f).enclV = s.enclV := rfl
@[simp] theorem setPort_ctxBaseSet (s : State) (f : Port → Port) : (s.setPort f).ctxBaseSet = s.ctxBaseSet := rfl
@[simp] theorem setPort_siteBufSet (s : State) (f : Port → Port) : (s.setPort f).siteBufSet = s.siteBufSet := rfl
@[simp] theorem setPort_fuses (s : State) (f : Port → Port) : (s.setPort f).fuses = s.fuses := rfl
@[simp] theorem setPort_sensed (s : State) (f : Port → Port) : (s.setPort f).sensed = s.sensed := rfl
@[simp] theorem setPort_inReset (s : State) (f : Port → Port) : (s.setPort f).inReset = s.inReset := rfl
@[simp] theorem setPort_boot (s : State) (f : Port → Port) : (s.setPort f).boot = s.boot := rfl
@[simp] theorem setPort_ue (s : State) (f : Port → Port) : (s.setPort f).ue = s.ue := rfl
@[simp] theorem setPort_elec (s : State) (f : Port → Port) : (s.setPort f).elec = s.elec := rfl
@[simp] theorem setPort_fuseCtrl (s : State) (f : Port → Port) : (s.setPort f).fuseCtrl = s.fuseCtrl := rfl
@[simp] theorem setPort_sortGen (s : State) (f : Port → Port) : (s.setPort f).sortGen = s.sortGen := rfl
@[simp] theorem setPort_wdtHalf (s : State) (f : Port → Port) : (s.setPort f).wdtHalf = s.wdtHalf := rfl
@[simp] theorem setPort_wdtWarned (s : State) (f : Port → Port) : (s.setPort f).wdtWarned = s.wdtWarned := rfl
@[simp] theorem setPort_scrubPos (s : State) (f : Port → Port) : (s.setPort f).scrubPos = s.scrubPos := rfl
@[simp] theorem setPort_dramChans (s : State) (f : Port → Port) : (s.setPort f).dramChans = s.dramChans := rfl
@[simp] theorem setPort_enclCtl (s : State) (f : Port → Port) : (s.setPort f).enclCtl = s.enclCtl := rfl
@[simp] theorem setPort_replaced (s : State) (f : Port → Port) : (s.setPort f).replaced = s.replaced := rfl
@[simp] theorem setPort_time (s : State) (f : Port → Port) : (s.setPort f).time = s.time := rfl
@[simp] theorem setPort_arrivals (s : State) (f : Port → Port) : (s.setPort f).arrivals = s.arrivals := rfl
@[simp] theorem setPort_sent (s : State) (f : Port → Port) : (s.setPort f).sent = s.sent := rfl
@[simp] theorem setPort_upset (s : State) (f : Port → Port) : (s.setPort f).upset = s.upset := rfl
@[simp] theorem setPort_free (s : State) (f : Port → Port) : (s.setPort f).free = s.free := rfl
@[simp] theorem setPort_pending (s : State) (f : Port → Port) : (s.setPort f).pending = s.pending := rfl
@[simp] theorem setPort_reg (s : State) (f : Port → Port) (q : Reg) : (s.setPort f).reg q = s.reg q := rfl
@[simp] theorem setPort_site (s : State) (f : Port → Port) (m : SiteId) : (s.setPort f).site m = s.site m := rfl
@[simp] theorem setPort_link (s : State) (f : Port → Port) (j : LinkId) : (s.setPort f).link j = s.link j := rfl
@[simp] theorem setPort_station (s : State) (f : Port → Port) (j : LinkId) (y : StationId) : (s.setPort f).station j y = s.station j y := rfl
@[simp] theorem setPort_ctx (s : State) (f : Port → Port) (y : CtxId) : (s.setPort f).ctx y = s.ctx y := rfl
@[simp] theorem setPort_core (s : State) (f : Port → Port) (d : Nat) : (s.setPort f).core d = s.core d := rfl
@[simp] theorem setPort_memByte (s : State) (f : Port → Port) (b : Nat) : (s.setPort f).memByte b = s.memByte b := rfl

/-! ## setBoot -/

@[simp] theorem setBoot_regs (s : State) (f : Boot → Boot) : (s.setBoot f).regs = s.regs := rfl
@[simp] theorem setBoot_snaps (s : State) (f : Boot → Boot) : (s.setBoot f).snaps = s.snaps := rfl
@[simp] theorem setBoot_stagedLo (s : State) (f : Boot → Boot) : (s.setBoot f).stagedLo = s.stagedLo := rfl
@[simp] theorem setBoot_resp (s : State) (f : Boot → Boot) : (s.setBoot f).resp = s.resp := rfl
@[simp] theorem setBoot_accepting (s : State) (f : Boot → Boot) : (s.setBoot f).accepting = s.accepting := rfl
@[simp] theorem setBoot_hbclkMhz (s : State) (f : Boot → Boot) : (s.setBoot f).hbclkMhz = s.hbclkMhz := rfl
@[simp] theorem setBoot_h2d (s : State) (f : Boot → Boot) : (s.setBoot f).h2d = s.h2d := rfl
@[simp] theorem setBoot_d2h (s : State) (f : Boot → Boot) : (s.setBoot f).d2h = s.d2h := rfl
@[simp] theorem setBoot_mbxPoison (s : State) (f : Boot → Boot) : (s.setBoot f).mbxPoison = s.mbxPoison := rfl
@[simp] theorem setBoot_mbxOpen (s : State) (f : Boot → Boot) : (s.setBoot f).mbxOpen = s.mbxOpen := rfl
@[simp] theorem setBoot_h2dFull (s : State) (f : Boot → Boot) : (s.setBoot f).h2dFull = s.h2dFull := rfl
@[simp] theorem setBoot_d2hFull (s : State) (f : Boot → Boot) : (s.setBoot f).d2hFull = s.d2hFull := rfl
@[simp] theorem setBoot_mem (s : State) (f : Boot → Boot) : (s.setBoot f).mem = s.mem := rfl
@[simp] theorem setBoot_flash (s : State) (f : Boot → Boot) : (s.setBoot f).flash = s.flash := rfl
@[simp] theorem setBoot_poison (s : State) (f : Boot → Boot) : (s.setBoot f).poison = s.poison := rfl
@[simp] theorem setBoot_stale (s : State) (f : Boot → Boot) : (s.setBoot f).stale = s.stale := rfl
@[simp] theorem setBoot_sites (s : State) (f : Boot → Boot) : (s.setBoot f).sites = s.sites := rfl
@[simp] theorem setBoot_links (s : State) (f : Boot → Boot) : (s.setBoot f).links = s.links := rfl
@[simp] theorem setBoot_ctxs (s : State) (f : Boot → Boot) : (s.setBoot f).ctxs = s.ctxs := rfl
@[simp] theorem setBoot_cores (s : State) (f : Boot → Boot) : (s.setBoot f).cores = s.cores := rfl
@[simp] theorem setBoot_curlew (s : State) (f : Boot → Boot) : (s.setBoot f).curlew = s.curlew := rfl
@[simp] theorem setBoot_drbg (s : State) (f : Boot → Boot) : (s.setBoot f).drbg = s.drbg := rfl
@[simp] theorem setBoot_tide (s : State) (f : Boot → Boot) : (s.setBoot f).tide = s.tide := rfl
@[simp] theorem setBoot_spb (s : State) (f : Boot → Boot) : (s.setBoot f).spb = s.spb := rfl
@[simp] theorem setBoot_tickets (s : State) (f : Boot → Boot) : (s.setBoot f).tickets = s.tickets := rfl
@[simp] theorem setBoot_encl (s : State) (f : Boot → Boot) : (s.setBoot f).encl = s.encl := rfl
@[simp] theorem setBoot_enclTable (s : State) (f : Boot → Boot) : (s.setBoot f).enclTable = s.enclTable := rfl
@[simp] theorem setBoot_enclV (s : State) (f : Boot → Boot) : (s.setBoot f).enclV = s.enclV := rfl
@[simp] theorem setBoot_ctxBaseSet (s : State) (f : Boot → Boot) : (s.setBoot f).ctxBaseSet = s.ctxBaseSet := rfl
@[simp] theorem setBoot_siteBufSet (s : State) (f : Boot → Boot) : (s.setBoot f).siteBufSet = s.siteBufSet := rfl
@[simp] theorem setBoot_fuses (s : State) (f : Boot → Boot) : (s.setBoot f).fuses = s.fuses := rfl
@[simp] theorem setBoot_sensed (s : State) (f : Boot → Boot) : (s.setBoot f).sensed = s.sensed := rfl
@[simp] theorem setBoot_inReset (s : State) (f : Boot → Boot) : (s.setBoot f).inReset = s.inReset := rfl
@[simp] theorem setBoot_ue (s : State) (f : Boot → Boot) : (s.setBoot f).ue = s.ue := rfl
@[simp] theorem setBoot_elec (s : State) (f : Boot → Boot) : (s.setBoot f).elec = s.elec := rfl
@[simp] theorem setBoot_port (s : State) (f : Boot → Boot) : (s.setBoot f).port = s.port := rfl
@[simp] theorem setBoot_fuseCtrl (s : State) (f : Boot → Boot) : (s.setBoot f).fuseCtrl = s.fuseCtrl := rfl
@[simp] theorem setBoot_sortGen (s : State) (f : Boot → Boot) : (s.setBoot f).sortGen = s.sortGen := rfl
@[simp] theorem setBoot_wdtHalf (s : State) (f : Boot → Boot) : (s.setBoot f).wdtHalf = s.wdtHalf := rfl
@[simp] theorem setBoot_wdtWarned (s : State) (f : Boot → Boot) : (s.setBoot f).wdtWarned = s.wdtWarned := rfl
@[simp] theorem setBoot_scrubPos (s : State) (f : Boot → Boot) : (s.setBoot f).scrubPos = s.scrubPos := rfl
@[simp] theorem setBoot_dramChans (s : State) (f : Boot → Boot) : (s.setBoot f).dramChans = s.dramChans := rfl
@[simp] theorem setBoot_enclCtl (s : State) (f : Boot → Boot) : (s.setBoot f).enclCtl = s.enclCtl := rfl
@[simp] theorem setBoot_replaced (s : State) (f : Boot → Boot) : (s.setBoot f).replaced = s.replaced := rfl
@[simp] theorem setBoot_time (s : State) (f : Boot → Boot) : (s.setBoot f).time = s.time := rfl
@[simp] theorem setBoot_arrivals (s : State) (f : Boot → Boot) : (s.setBoot f).arrivals = s.arrivals := rfl
@[simp] theorem setBoot_sent (s : State) (f : Boot → Boot) : (s.setBoot f).sent = s.sent := rfl
@[simp] theorem setBoot_upset (s : State) (f : Boot → Boot) : (s.setBoot f).upset = s.upset := rfl
@[simp] theorem setBoot_free (s : State) (f : Boot → Boot) : (s.setBoot f).free = s.free := rfl
@[simp] theorem setBoot_pending (s : State) (f : Boot → Boot) : (s.setBoot f).pending = s.pending := rfl
@[simp] theorem setBoot_reg (s : State) (f : Boot → Boot) (q : Reg) : (s.setBoot f).reg q = s.reg q := rfl
@[simp] theorem setBoot_site (s : State) (f : Boot → Boot) (m : SiteId) : (s.setBoot f).site m = s.site m := rfl
@[simp] theorem setBoot_link (s : State) (f : Boot → Boot) (j : LinkId) : (s.setBoot f).link j = s.link j := rfl
@[simp] theorem setBoot_station (s : State) (f : Boot → Boot) (j : LinkId) (y : StationId) : (s.setBoot f).station j y = s.station j y := rfl
@[simp] theorem setBoot_ctx (s : State) (f : Boot → Boot) (y : CtxId) : (s.setBoot f).ctx y = s.ctx y := rfl
@[simp] theorem setBoot_core (s : State) (f : Boot → Boot) (d : Nat) : (s.setBoot f).core d = s.core d := rfl
@[simp] theorem setBoot_memByte (s : State) (f : Boot → Boot) (b : Nat) : (s.setBoot f).memByte b = s.memByte b := rfl

/-! ## An updated part reads back -/

@[simp] theorem site_setSite_same (s : State) (n : SiteId) (v : Site) : (s.setSite n v).site n = v := by
  simp [State.site, State.setSite]

theorem site_setSite_other (s : State) (n m : SiteId) (v : Site) (h : m ≠ n) : (s.setSite n v).site m = s.site m := by
  have : m.toNat ≠ n.toNat := fun e => h (BitVec.eq_of_toNat_eq e)
  simp [State.site, State.setSite, smGet_set_other _ _ _ _ _ _ this]

@[simp] theorem link_setLink_same (s : State) (k : LinkId) (v : Link) : (s.setLink k v).link k = v := by
  simp [State.link, State.setLink]

theorem link_setLink_other (s : State) (k j : LinkId) (v : Link) (h : j ≠ k) : (s.setLink k v).link j = s.link j := by
  have : j.toNat ≠ k.toNat := fun e => h (BitVec.eq_of_toNat_eq e)
  simp [State.link, State.setLink, smGet_set_other _ _ _ _ _ _ this]

@[simp] theorem ctx_setCtx_same (s : State) (x : CtxId) (v : Ctx) : (s.setCtx x v).ctx x = v := by
  simp [State.ctx, State.setCtx]

theorem ctx_setCtx_other (s : State) (x y : CtxId) (v : Ctx) (h : y ≠ x) : (s.setCtx x v).ctx y = s.ctx y := by
  have : y.val ≠ x.val := fun e => h (Fin.ext e)
  simp [State.ctx, State.setCtx, smGet_set_other _ _ _ _ _ _ this]

@[simp] theorem core_setCore_same (s : State) (c : Nat) (v : Core) : (s.setCore c v).core c = v := by
  simp [State.core, State.setCore]

theorem core_setCore_other (s : State) (c d : Nat) (v : Core) (h : d ≠ c) : (s.setCore c v).core d = s.core d := by
  simp [State.core, State.setCore, smGet_set_other _ _ _ _ _ _ h]

@[simp] theorem setSite_setSite (s : State) (n : SiteId) (v w : Site) : (s.setSite n v).setSite n w = s.setSite n w := by
  simp [State.setSite]

@[simp] theorem setLink_setLink (s : State) (k : LinkId) (v w : Link) : (s.setLink k v).setLink k w = s.setLink k w := by
  simp [State.setLink]

@[simp] theorem setCtx_setCtx (s : State) (x : CtxId) (v w : Ctx) : (s.setCtx x v).setCtx x w = s.setCtx x w := by
  simp [State.setCtx]

@[simp] theorem setCore_setCore (s : State) (c : Nat) (v w : Core) : (s.setCore c v).setCore c w = s.setCore c w := by
  simp [State.setCore]

end Sys2Proof.Laws
end

