-- ==== Sys2Proof/Laws/Events.lean ====
section
/-! SUPPORT. What the operations that events share do: one lemma for each way they end. -/

namespace Sys2Proof.Laws

open Sys2Proof Sys2Proof.Machine

/-- A command that meets nothing in the arrays is its operation alone. -/
@[simp] theorem withUpset_none (s : State) (f : State → State) : s.withUpset .none f = f s := rfl
/-- A read that finds no word uncorrectable is as ever. -/
@[simp] theorem finding_nil (f : State → State) (n : Nat) (s : State) : State.finding f n [] s = f s := by
  cases n <;> rfl
/-- The boot ROM that runs no phase does nothing when an event comes. -/
theorem bootGo_off (s : State) (h : s.boot.phase = .off) : s.bootGo = s := by
  rw [State.bootGo, h]
/-- In reset nothing is received (R556). -/
theorem receive_inReset (s : State) (k : LinkId) (r : RxFrame) (h : s.inReset = true) : s.receive k r = s := by
  rw [State.receive, if_pos (.inl h)]
/-- During the stop of an atomic tide a good frame is kept for the mapping to come (R505). -/
theorem receive_stopping (s : State) (k : LinkId) (r : RxFrame) (hr : s.inReset = false) (hu : (s.link k).state = .up)
    (hc : r.coding = false) (hg : crcGood r.bytes = true) (hl : lengthGood r.bytes = true) (hf : formatGood r.bytes = true)
    (hb : s.boot.cl0 = false) (ht : s.tide.stopping = true) :
    s.receive k r = { s with tide := { s.tide with deferred := s.tide.deferred ++ [(k, r)] } } := by
  simp [State.receive, hr, hu, hc, hg, hl, hf, hb, ht]
/-- Outside it, the frame is directed under the mapping in force. -/
theorem receive_passed (s : State) (k : LinkId) (r : RxFrame) (hr : s.inReset = false) (hu : (s.link k).state = .up)
    (hc : r.coding = false) (hg : crcGood r.bytes = true) (hl : lengthGood r.bytes = true) (hf : formatGood r.bytes = true)
    (hb : s.boot.cl0 = false) (ht : s.tide.stopping = false) : s.receive k r = s.directFrame k r := by
  simp [State.receive, hr, hu, hc, hg, hl, hf, hb, ht]
/-- In reset the transmitters idle (R556). -/
theorem sendFrame_inReset (s : State) (k : LinkId) (t : StationId) (type : Nat) (absent invert : Bool) (seq : BitVec 24)
    (utype : Byte) (payload : List Byte) (h : s.inReset = true) :
    s.sendFrame k t type absent invert seq utype payload = s := by
  simp [State.sendFrame, h]
/-- While an input or the port holds the reset, or REFCLK is not good, it does not end (R433, R436). -/
theorem endInternalReset_held (s : State) (b : BitVec 3) (h : s.elec.refclkOk = false ∨ s.port.holdsReset = true
    ∨ s.elec.porst = true ∨ s.elec.resetN = true) : s.endInternalReset b = s := by
  rcases h with h | h | h | h <;> simp [State.endInternalReset, h]
/-- A patch that the ROM must pass over changes nothing but that it has been seen (R489, R492). -/
theorem decidePatch_shut (s : State) (img : List Byte) (h : s.patchShut = true) :
    s.decidePatch img = s.setBoot (fun b => { b with patchSeen := true }) := by
  have h1 : (s.setBoot (fun b => { b with patchSeen := true })).patchShut = true := h
  simp only [State.decidePatch, h1, if_true]
/-- A reply waits behind the one that the host has not acknowledged (R446). -/
theorem bootReply_full (s : State) (code : Nat) (h : s.d2hFull = true) :
    s.bootReply code = s.setBoot (fun b => { b with replyDue := b.replyDue ++ [BitVec.ofNat 8 code] }) := by
  rw [State.bootReply, h]; rfl
/-- Flash reads of the ROM that meet no word are as ever. -/
@[simp] theorem romMeets_none (s : State) (n : Nat) : s.romMeets none n = s := rfl

end Sys2Proof.Laws
end

