-- ==== Sys2Proof/Laws/Instr.lean ====
section
/-! SUPPORT. One spec lemma per shared operation of executing an instruction: a command of an instruction that executes
alone is its effect, and one that goes on in sequence retires. -/

namespace Sys2Proof.Laws

open Sys2Proof Sys2Proof.Machine

/-! ## Contexts -/

@[simp] theorem ctx_upCtx_same (s : State) (x : CtxId) (f : Ctx → Ctx) : (s.upCtx x f).ctx x = f (s.ctx x) := by
  simp [State.upCtx, State.setCtx, State.ctx]

@[simp] theorem upCtx_upCtx (s : State) (x : CtxId) (f g : Ctx → Ctx) :
    (s.upCtx x f).upCtx x g = s.upCtx x (fun c => g (f c)) := by
  simp [State.upCtx, State.setCtx, State.ctx]

theorem ctx_upCtx_other (s : State) (x y : CtxId) (f : Ctx → Ctx) (h : y ≠ x) : (s.upCtx x f).ctx y = s.ctx y := by
  have : y.val ≠ x.val := fun e => h (Fin.ext e)
  simp [State.upCtx, State.setCtx, State.ctx, smGet_set_other _ _ _ _ _ _ this]

/-! ## Executing alone -/

/-- A command of an instruction that executes alone is what its effect gives. -/
theorem command_alone {s s1 : State} {x : CtxId} {i : Ins} {f : Fetched} (h : s.alone x = some (i, f, s1)) (steps : Nat) :
    s.command x i.op steps =
      match effect i.op (envOf s1 x f steps) i s1 with
      | .exc e s2 => if s2.inReset then s2 else s2.raiseIns x (e.captured (s1.ctx x).wform f)
      | .ok d s2 => if s2.inReset then s2 else s2.finish s x f [d] := by
  unfold State.alone at h
  split at h
  case isFalse => cases h
  case isTrue h0 =>
  obtain ⟨h0, -⟩ := Bool.and_eq_true_iff.mp h0
  obtain ⟨hrun, hd⟩ := Bool.and_eq_true_iff.mp h0
  split at h
  · cases h
  rename_i f' s1' hf
  split at h
  case h_2 => cases h
  rename_i i' hi
  split at h
  case isFalse => cases h
  rename_i hq
  cases h
  simp only [Bool.and_eq_true, Bool.not_eq_true', Ctx.quiet, Option.isNone_iff_eq_none] at hq hd
  obtain ⟨⟨⟨⟨⟨⟨⟨⟨⟨q1, q2⟩, q3⟩, q4⟩, q5⟩, q6⟩, q7⟩, q8⟩, hr⟩, hp⟩ := hq
  have he : earlyExc (envOf s1 x f steps) f s1 = none := by simp [earlyExc, envOf, q3, q1]
  have hv : evalOne (envOf s1 x f steps) i s1 = effect i.op (envOf s1 x f steps) i s1 := by
    have hp' : ((i.uao || i.keyo) && (envOf s1 x f steps).user) = false := hp
    have hl : (envOf s1 x f steps).c.atLoopEnd = false := q2
    simp [evalOne, hp', hl]
  have hfn : s.fetchNext x = .ok f s1 := by simp [State.fetchNext, hd, hf]
  simp only [State.command, hrun, hfn, State.execute, hi, he, evalAll, hv]
  cases effect i.op (envOf s1 x f steps) i s1 <;> simp [XR.bind, keepFirst]

/-- Where an instruction executes alone no tide stops the contexts, and its command is the instruction's alone (R505). -/
theorem commandUpset_alone {s s1 : State} {x : CtxId} {i : Ins} {f : Fetched} (h : s.alone x = some (i, f, s1)) (o : Op)
    (steps : Nat) : s.commandUpset x o steps .none = s.command x o steps := by
  unfold State.alone at h
  split at h
  case isFalse => cases h
  case isTrue h0 =>
  have h1 := (Bool.and_eq_true_iff.mp h0).2
  simp only [Bool.not_eq_true'] at h1
  simp [State.commandUpset, State.meetsUpset, h1]

theorem alone_quiet {s s1 : State} {x : CtxId} {i : Ins} {f : Fetched} (h : s.alone x = some (i, f, s1)) :
    (s1.ctx x).quiet = true ∧ s1.inReset = false := by
  unfold State.alone at h
  split at h
  case isFalse => cases h
  split at h
  · cases h
  split at h
  case h_2 => cases h
  split at h
  case isFalse => cases h
  rename_i hq
  cases h
  simp only [Bool.and_eq_true, Bool.not_eq_true'] at hq
  exact ⟨hq.1.1, hq.1.2⟩

/-- A quiet context that retires keeps nothing due. -/
theorem begun_quiet (c : Ctx) (own : Option Nat) (h : c.quiet = true) : c.begun own = c.retired own := by
  simp only [Ctx.quiet, Bool.and_eq_true, Bool.not_eq_true', Option.isNone_iff_eq_none, List.isEmpty_iff] at h
  obtain ⟨⟨⟨⟨⟨⟨⟨q1, q2⟩, q3⟩, q4⟩, q5⟩, q6⟩, q7⟩, q8⟩ := h
  cases c
  simp only [Ctx.begun, Ctx.retired, Ctx.dueLoads] at *
  subst q4
  split <;> simp

/-- A context where nothing is due and no delay bundle, step or loop end at `pc` waits. -/
def Calm (c : Ctx) (pc : VirtAddr) : Prop :=
  c.delay = none ∧ c.stepping = false ∧ c.stepDue = false ∧ c.trapDue = none ∧ ∀ k, c.endsAt k pc = false ∨ 3 ≤ k

/-- At a context that is calm, an address in sequence is where execution goes on. -/
theorem goOn_calm (c : Ctx) (pc : VirtAddr) (n : Nat) (h : Calm c pc) : c.goOn pc n = c.goTo n := by
  obtain ⟨-, -, -, -, h⟩ := h
  have h0 := (h 0).resolve_right (by omega)
  have h1 := (h 1).resolve_right (by omega)
  have h2 := (h 2).resolve_right (by omega)
  simp [Ctx.goOn, Ctx.loopEnd, h0, h1, h2]

theorem quiet_calm (c : Ctx) (h : c.quiet = true) : Calm c c.pc := by
  simp only [Ctx.quiet, Bool.and_eq_true, Bool.not_eq_true', Option.isNone_iff_eq_none, List.isEmpty_iff] at h
  obtain ⟨⟨⟨⟨⟨⟨⟨q1, q2⟩, q3⟩, q4⟩, q5⟩, q6⟩, q7⟩, q8⟩ := h
  refine ⟨q1, q6, q7, q8, fun k => ?_⟩
  by_cases hk : k < 3
  · simp only [Ctx.atLoopEnd, List.any_eq_false, List.mem_range] at q2
    exact .inl (by simpa using q2 k hk)
  · exact .inr (by omega)

/-- At a calm context that is not stepped a boundary changes nothing. -/
theorem boundary_calm (s : State) (x : CtxId) (pc : VirtAddr) (h : Calm (s.ctx x) pc) : s.boundary x = s := by
  obtain ⟨h1, h2, h3, h4, -⟩ := h
  by_cases hs : (s.ctx x).stopped <;> simp [State.boundary, State.stepEnded, h1, h2, h3, h4, hs, State.takeDue, State.takeStep]

theorem inReset_upCtx (s : State) (x : CtxId) (f : Ctx → Ctx) : (s.upCtx x f).inReset = s.inReset := rfl

/-- An instruction that executes alone, goes on in sequence and leaves its context calm retires: its writes, and the PC after
it. -/
theorem finish_seq {s0 s : State} {x : CtxId} {f : Fetched} {d : Done} (hq : (s.ctx x).quiet = true) (hd : d.ctl = .seq)
    (hr : (d.commit (s.upCtx x (fun c => c.retired f.own))).inReset = false)
    (hc : Calm ((d.commit (s.upCtx x (fun c => c.retired f.own))).ctx x) (s.ctx x).pc) :
    s.finish s0 x f [d] = (d.commit (s.upCtx x (fun c => c.retired f.own))).upCtx x (fun c => c.goTo f.next) := by
  have hb : s.upCtx x (fun c => c.begun f.own) = s.upCtx x (fun c => c.retired f.own) := by
    simp [State.upCtx, begun_quiet _ f.own hq]
  have hca : s.commitAll x f [d] = d.commit (s.upCtx x (fun c => c.retired f.own)) := by
    simp [State.commitAll, hb]
  have hdl : (s.ctx x).delay = none := (quiet_calm _ hq).1
  have hss : bitAt (s.ctx x).csw 7 = false := by
    simp only [Ctx.quiet, Bool.and_eq_true, Bool.not_eq_true'] at hq
    exact hq.1.1.1.2
  have hw : Done.waits d = false := by simp [Done.waits, hd]
  have hp : Done.pauses d = false := by simp [Done.pauses, hd]
  have hctl : ctlOf [d] = .seq := by simp [ctlOf, hd]
  set t := d.commit (s.upCtx x (fun c => c.retired f.own)) with ht
  have hfo : t.upCtx x (fun c => c.follow (s.ctx x) f (ctlOf [d])) = t.upCtx x (fun c => c.goTo f.next) := by
    simp [State.upCtx, Ctx.follow, hdl, hctl, goOn_calm _ _ _ hc]
  simp only [State.finish, List.any_cons, List.any_nil, hw, hp, Bool.or_false, Bool.false_eq_true, if_false, State.retire, hca,
    hr, State.afterCommit, hfo, State.noteStep, hss, Bool.false_and]
  apply boundary_calm _ _ (s.ctx x).pc
  obtain ⟨c1, c2, c3, c4, c5⟩ := hc
  simp only [ctx_upCtx_same]
  exact ⟨c1, c2, c3, c4, c5⟩

/-- An update of a context that leaves alone what a boundary looks at. -/
def LocalUpdate (u : Ctx → Ctx) (c : Ctx) : Prop :=
  (u c).delay = c.delay ∧ (u c).stepping = c.stepping ∧ (u c).stepDue = c.stepDue ∧ (u c).trapDue = c.trapDue
    ∧ (u c).csw = c.csw ∧ (u c).lpe = c.lpe

/-- An instruction whose whole effect is an update of its own context. -/
theorem finish_local {s0 s : State} {x : CtxId} {f : Fetched} {u : Ctx → Ctx} (hq : (s.ctx x).quiet = true)
    (hr : s.inReset = false) (hu : LocalUpdate u ((s.ctx x).retired f.own)) :
    s.finish s0 x f [{ commit := fun s => s.upCtx x u, ctl := .seq }] = s.afterIns x f u := by
  obtain ⟨u1, u2, u3, u4, u5, u6⟩ := hu
  obtain ⟨c1, c2, c3, c4, c5⟩ := quiet_calm _ hq
  rw [finish_seq hq rfl (by simpa [inReset_upCtx] using hr)]
  · simp [State.afterIns]
  · simp only [ctx_upCtx_same]
    refine ⟨u1.trans c1, u2.trans c2, u3.trans c3, u4.trans c4, fun k => ?_⟩
    have : (u ((s.ctx x).retired f.own)).endsAt k (s.ctx x).pc = (s.ctx x).endsAt k (s.ctx x).pc := by
      unfold Ctx.endsAt Ctx.lact
      rw [u5, u6]
      rfl
    rw [this]
    exact c5 k

/-- A command of an instruction that executes alone and only updates its own context: the state after it. -/
theorem command_local {s s1 : State} {x : CtxId} {i : Ins} {f : Fetched} {u : Ctx → Ctx} (h : s.alone x = some (i, f, s1))
    (steps : Nat)
    (he : effect i.op (envOf s1 x f steps) i s1 = .ok { commit := fun s => s.upCtx x u, ctl := .seq } s1)
    (hu : LocalUpdate u ((s1.ctx x).retired f.own)) : s.command x i.op steps = s1.afterIns x f u := by
  obtain ⟨hq, hr⟩ := alone_quiet h
  simp [command_alone h, he, hr, finish_local hq hr hu]

theorem local_setG (c : Ctx) (r : BitVec 5) (v : Word) : LocalUpdate (fun c => c.setG r v) c := by
  unfold LocalUpdate Ctx.setG
  by_cases h : r = 0
  · simp only [if_pos h, and_self]
  · simp only [if_neg h, and_self]

/-- A transfer that executes alone: its writes, and where control goes. -/
theorem finish_transfer {s0 s : State} {x : CtxId} {f : Fetched} {u : Ctx → Ctx} {taken call : Bool} {target : Word}
    (hq : (s.ctx x).quiet = true) (hr : s.inReset = false) (hu : LocalUpdate u ((s.ctx x).retired f.own))
    (hpc : (u ((s.ctx x).retired f.own)).pc = (s.ctx x).pc) :
    s.finish s0 x f [{ commit := fun s => s.upCtx x u, ctl := .transfer taken target call }]
      = s.afterTransfer x f taken target call u := by
  obtain ⟨u1, u2, u3, u4, u5, u6⟩ := hu
  obtain ⟨c1, c2, c3, c4, c5⟩ := quiet_calm _ hq
  have hb : s.upCtx x (fun c => c.begun f.own) = s.upCtx x (fun c => c.retired f.own) := by
    simp [State.upCtx, begun_quiet _ f.own hq]
  have hss : bitAt (s.ctx x).csw 7 = false := by
    simp only [Ctx.quiet, Bool.and_eq_true, Bool.not_eq_true'] at hq
    exact hq.1.1.1.2
  have hw : (u ((s.ctx x).retired f.own)).wform = (s.ctx x).wform := by
    unfold Ctx.wform
    rw [u5]
    rfl
  have hfo : (u ((s.ctx x).retired f.own)).follow (s.ctx x) f (.transfer taken target call)
      = (u ((s.ctx x).retired f.own)).transferred (s.ctx x).shadow f taken target call := by
    simp only [Ctx.follow, c1, Ctx.transferred, hw, hpc]
  have hst : s.finish s0 x f [{ commit := fun s => s.upCtx x u, ctl := .transfer taken target call }]
      = ((s.afterTransfer x f taken target call u).noteStep x (s.ctx x) f.own).boundary x := by
    simp only [State.finish, List.any_cons, List.any_nil, Done.waits, Done.pauses, Bool.or_false, Bool.false_eq_true, if_false,
      State.retire, State.commitAll, List.foldl_cons, List.foldl_nil, hb, upCtx_upCtx, inReset_upCtx, hr, State.afterCommit,
      ctlOf, List.find?_cons]
    have hup : s.upCtx x (fun c => (u (c.retired f.own)).follow (s.ctx x) f (.transfer taken target call))
        = s.afterTransfer x f taken target call u := by
      unfold State.afterTransfer State.upCtx
      exact congrArg (s.setCtx x) hfo
    exact congrArg (fun t => (t.noteStep x (s.ctx x) f.own).boundary x) hup
  rw [hst]
  have hn : ∀ t : State, t.noteStep x (s.ctx x) f.own = t := fun t => by simp [State.noteStep, hss]
  rw [hn]
  set c := u ((s.ctx x).retired f.own) with hc
  have hctx : (s.afterTransfer x f taken target call u).ctx x = c.transferred (s.ctx x).shadow f taken target call := by
    simp [State.afterTransfer, hc]
  unfold State.boundary
  rw [hctx]
  by_cases hf : c.wform = true
  · simp [Ctx.transferred, hf]
  · have k1 : c.stepping = false := u2.trans c2
    have k2 : c.stepDue = false := u3.trans c3
    have k3 : c.trapDue = none := u4.trans c4
    have k4 : c.delay = none := u1.trans c1
    have kl : ∀ c : Ctx, (c.completeLoads).stepping = c.stepping ∧ (c.completeLoads).stepDue = c.stepDue
        ∧ (c.completeLoads).trapDue = c.trapDue ∧ (c.completeLoads).delay = c.delay := by
      intro c
      have : ∀ (l : List PendLoad) (c : Ctx), (l.foldl Ctx.writeLoad c).stepping = c.stepping
          ∧ (l.foldl Ctx.writeLoad c).stepDue = c.stepDue ∧ (l.foldl Ctx.writeLoad c).trapDue = c.trapDue
          ∧ (l.foldl Ctx.writeLoad c).delay = c.delay := by
        intro l
        induction l with
        | nil => simp
        | cons p t ih =>
          intro c
          obtain ⟨i1, i2, i3, i4⟩ := ih (c.writeLoad p)
          have w : (c.writeLoad p).stepping = c.stepping ∧ (c.writeLoad p).stepDue = c.stepDue
              ∧ (c.writeLoad p).trapDue = c.trapDue ∧ (c.writeLoad p).delay = c.delay := by
            unfold Ctx.writeLoad Ctx.setG Ctx.setD
            split
            · split <;> simp
            · simp
          simp [i1, i2, i3, i4, w]
      exact this c.loads c
    have hj : ∀ c : Ctx, ∀ t : Word, ∀ w : Bool, c.stepping = false → c.stepDue = false → c.trapDue = none → c.delay = none →
        (c.jumpTo t w).stepping = false ∧ (c.jumpTo t w).stepDue = false ∧ (c.jumpTo t w).trapDue = none
          ∧ (c.jumpTo t w).delay = none := by
      intro c t w h1 h2 h3 h4
      have hg : ∀ a, (c.goTo a).stepping = false ∧ (c.goTo a).stepDue = false ∧ (c.goTo a).trapDue = none
          ∧ (c.goTo a).delay = none := fun a => ⟨h1, h2, h3, h4⟩
      have hk := kl (c.goTo (bitsOf t 62 0))
      unfold Ctx.jumpTo
      simp only
      split
      · exact hg _
      · exact ⟨hk.1.trans h1, hk.2.1.trans h2, hk.2.2.1.trans h3, hk.2.2.2.trans h4⟩
    have hp : ∀ c : Ctx, ∀ v : Word, (c.push v).stepping = c.stepping ∧ (c.push v).stepDue = c.stepDue
        ∧ (c.push v).trapDue = c.trapDue ∧ (c.push v).delay = c.delay := by
      intro c v
      unfold Ctx.push
      split <;> simp
    have hall : (c.transferred (s.ctx x).shadow f taken target call).stepping = false ∧ (c.transferred (s.ctx x).shadow f taken target call).stepDue = false
        ∧ (c.transferred (s.ctx x).shadow f taken target call).trapDue = none ∧ (c.transferred (s.ctx x).shadow f taken target call).delay = none := by
      unfold Ctx.transferred
      rw [if_neg hf]
      have hp' := hp c (retPtr false f.next)
      cases call <;> cases taken <;> simp only [Bool.false_eq_true, if_false, if_true]
      · exact ⟨k1, k2, k3, k4⟩
      · exact hj _ _ _ k1 k2 k3 k4
      · exact ⟨hp'.1.trans k1, hp'.2.1.trans k2, hp'.2.2.1.trans k3, hp'.2.2.2.trans k4⟩
      · exact hj _ _ _ (hp'.1.trans k1) (hp'.2.1.trans k2) (hp'.2.2.1.trans k3) (hp'.2.2.2.trans k4)
    obtain ⟨h1, h2, h3, h4⟩ := hall
    simp only [h1, h2, h3, h4, Option.isSome_none, Bool.false_or, Bool.and_false, Bool.or_false, Bool.false_eq_true,
      if_false, State.takeDue, State.takeStep, State.stepEnded, hctx, Bool.false_and, ite_self]

/-- A command of a transfer that executes alone: the state after it. -/
theorem command_transfer {s s1 : State} {x : CtxId} {i : Ins} {f : Fetched} {u : Ctx → Ctx} {taken call : Bool} {target : Word}
    (h : s.alone x = some (i, f, s1)) (steps : Nat)
    (he : effect i.op (envOf s1 x f steps) i s1
      = .ok { commit := fun s => s.upCtx x u, ctl := .transfer taken target call } s1)
    (hu : LocalUpdate u ((s1.ctx x).retired f.own)) (hpc : (u ((s1.ctx x).retired f.own)).pc = (s1.ctx x).pc) :
    s.command x i.op steps = s1.afterTransfer x f taken target call u := by
  obtain ⟨hq, hr⟩ := alone_quiet h
  simp [command_alone h, he, hr, finish_transfer hq hr hu hpc]

end Sys2Proof.Laws
end

