-- ==== Sys2Proof/Laws/Memory.lean ====
section
/-! SUPPORT. Memory: a byte written is the byte read and every other byte stays, and every operation over memory, the flash
window and the poison map keeps their canonical form. -/

namespace Sys2Proof.Laws

open Sys2Proof Sys2Proof.Machine

/-! ## Bytes -/

theorem smGet_memSet (m : List Host.Cell) (a b : Nat) (v : Byte) :
    smGet (memSet m a v) 0 b = if b = a then v else smGet m 0 b := by
  simp [memSet, smGet_set]

theorem smGet_memSetAll (bs : List Byte) (m : List Host.Cell) (a b : Nat) :
    smGet (memSetAll m a bs) 0 b = if a ≤ b ∧ b < a + bs.length then bs.getD (b - a) 0 else smGet m 0 b := by
  induction bs generalizing m a with
  | nil =>
    have : ¬ (a ≤ b ∧ b < a + ([] : List Byte).length) := by simp
    rw [if_neg this]; rfl
  | cons v t ih =>
    simp only [memSetAll, ih, smGet_memSet, List.length_cons]
    by_cases h : b = a
    · subst h
      have h1 : ¬ (b + 1 ≤ b ∧ b < b + 1 + t.length) := by omega
      have h2 : b ≤ b ∧ b < b + (t.length + 1) := by omega
      rw [if_neg h1, if_pos rfl, if_pos h2]; simp
    · by_cases h1 : a + 1 ≤ b ∧ b < a + 1 + t.length
      · have h2 : a ≤ b ∧ b < a + (t.length + 1) := by omega
        rw [if_pos h1, if_pos h2]
        have : b - a = (b - (a + 1)) + 1 := by omega
        rw [this, List.getD_cons_succ]
      · have h2 : ¬ (a ≤ b ∧ b < a + (t.length + 1)) := by omega
        rw [if_neg h1, if_neg h2, if_neg h]

/-! ## Canonical form -/

theorem wf_memSet (m : List Host.Cell) (a : Nat) (b : Byte) (h : Memory.wf m = true) : Memory.wf (memSet m a b) = true :=
  smWf_set m 0 a b h

theorem wf_memSetAll (bs : List Byte) (m : List Host.Cell) (a : Nat) (h : Memory.wf m = true) :
    Memory.wf (memSetAll m a bs) = true := by
  induction bs generalizing m a with
  | nil => exact h
  | cons b t ih => exact ih _ _ (wf_memSet m a b h)

theorem wf_memSetBut (bs : List Byte) (m : List Host.Cell) (a : Nat) (but : List Nat) (h : Memory.wf m = true) :
    Memory.wf (memSetBut m a bs but) = true := by
  induction bs generalizing m a with
  | nil => exact h
  | cons b t ih =>
    refine ih _ _ ?_
    split
    · exact h
    · exact wf_memSet m a b h

/-- A property that every step of a fold keeps holds after the fold. -/
theorem foldl_keeps {α β : Type} (p : α → Prop) (f : α → β → α) (l : List β) (a : α) (h : p a)
    (hf : ∀ a b, p a → p (f a b)) : p (l.foldl f a) := by
  induction l generalizing a with
  | nil => exact h
  | cons b t ih => exact ih _ (hf a b h)

theorem wf_memSetLanes (m : List Host.Cell) (a : Nat) (be : BitVec 4) (d : Word32) (h : Memory.wf m = true) :
    Memory.wf (memSetLanes m a be d) = true := by
  refine foldl_keeps (fun m => Memory.wf m = true) _ _ _ h (fun m k hm => ?_)
  split
  · exact wf_memSet m _ _ hm
  · exact hm

theorem wf_dropPoison (p : SMap Bool) (ws : List Nat) (h : smWf p false = true) : smWf (dropPoison p ws) false = true :=
  foldl_keeps (fun m => smWf m false = true) _ _ _ h (fun m k hm => smWf_set m false k false hm)

/-- The canonical form, part by part. -/
theorem canonical_iff (s : State) :
    s.canonical = true ↔ Memory.wf s.mem = true ∧ smWf s.flash 0xFF = true ∧ smWf s.poison false = true := by
  simp [State.canonical, Bool.and_eq_true, and_assoc]

/-- A state with the same memory, flash and poison is in canonical form as well. -/
theorem canonical_same (s t : State) (h : s.canonical = true) (h1 : t.mem = s.mem) (h2 : t.flash = s.flash)
    (h3 : t.poison = s.poison) : t.canonical = true := by
  rw [canonical_iff] at *; rw [h1, h2, h3]; exact h

theorem canonical_setReg (s : State) (r : Reg) (v : Word32) (h : s.canonical = true) : (s.setReg r v).canonical = true := h

theorem canonical_memWrite (s : State) (a : Nat) (bs : List Byte) (h : s.canonical = true) :
    (s.memWrite a bs).canonical = true := by
  have hc := (canonical_iff s).1 h
  have hs : ({ s with
      mem := memSetBut s.mem a bs (s.droppedWords a bs.length)
      poison := dropPoison s.poison
        ((((List.range bs.length).map (fun i => wordOf (a + i))).eraseDups).filter (fun w => covers a bs.length w)) } :
      State).canonical = true := by
    rw [canonical_iff]
    exact ⟨wf_memSetBut _ _ _ _ hc.1, hc.2.1, wf_dropPoison _ _ hc.2.2⟩
  unfold State.memWrite
  dsimp only
  split
  · exact hs
  · exact hs

theorem canonical_poisonWord (s : State) (a : Nat) (h : s.canonical = true) : (s.poisonWord a).canonical = true := by
  have hc := (canonical_iff s).1 h
  rw [canonical_iff]
  exact ⟨wf_memSetAll _ _ _ hc.1, hc.2.1, smWf_set s.poison false (wordOf a) true hc.2.2⟩

theorem canonical_markFrame (s : State) (f : Nat) (m : Byte) (h : s.canonical = true) : (s.markFrame f m).canonical = true := by
  have hc := (canonical_iff s).1 h
  unfold State.markFrame
  split
  · split
    · exact canonical_setReg _ _ _ h
    rw [canonical_iff]; exact ⟨wf_memSet _ _ _ hc.1, hc.2.1, hc.2.2⟩
  · exact h

theorem canonical_touch (s : State) (a len : Nat) (w : Bool) (h : s.canonical = true) : (s.touch a len w).canonical = true :=
  foldl_keeps (fun s => s.canonical = true) _ _ _ h (fun s f hs => canonical_markFrame s f _ hs)

theorem canonical_agentWrite (s : State) (a : Nat) (bs : List Byte) (h : s.canonical = true) :
    (s.agentWrite a bs).canonical = true :=
  foldl_keeps (fun s => s.canonical = true) _ _ _ (canonical_memWrite s a bs h) (fun s f hs => canonical_markFrame s f _ hs)

theorem canonical_writePieces (ps : List (Nat × Nat)) (s : State) (bs : List Byte) (h : s.canonical = true) :
    (s.writePieces ps bs).canonical = true := by
  induction ps generalizing s bs with
  | nil => exact h
  | cons p t ih => exact ih _ _ (canonical_agentWrite _ _ _ h)

theorem canonical_setKeyByte (s : State) (a : Nat) (b : Byte) (h : s.canonical = true) : (s.setKeyByte a b).canonical = true := by
  have hc := (canonical_iff s).1 h
  unfold State.setKeyByte
  split
  · exact h
  split
  · exact canonical_setReg _ _ _ h
  rw [canonical_iff]
  exact ⟨wf_memSet _ _ _ hc.1, hc.2.1, hc.2.2⟩

theorem canonical_integRec (s : State) (path cause core agent a : Nat) (h : s.canonical = true) :
    (s.integRec path cause core agent a).canonical = true := by
  unfold State.integRec
  dsimp only
  split
  · exact canonical_setReg _ _ _ h
  · unfold State.setLine State.orReg
    exact canonical_setReg _ _ _ (canonical_setReg _ _ _ (canonical_setReg _ _ _ (canonical_setReg _ _ _ h)))

theorem canonical_aperStore (s : State) (o : Nat) (be : BitVec 4) (d : Word32) (h : s.canonical = true) :
    (s.aperStore o be d).canonical = true := by
  have hc := (canonical_iff s).1 h
  unfold State.aperStore
  dsimp only
  split
  · exact h
  · split
    · exact canonical_integRec _ _ _ _ _ _ (canonical_setReg _ _ _ h)
    · refine canonical_touch _ _ _ _ ?_
      rw [canonical_iff]; exact ⟨wf_memSetLanes _ _ _ _ hc.1, hc.2.1, hc.2.2⟩

theorem canonical_program (s : State) (o : Nat) (bs : List Byte) (h : s.canonical = true) : (s.program o bs).canonical = true := by
  have hc := (canonical_iff s).1 h
  rw [canonical_iff]
  exact ⟨hc.1, foldl_keeps (fun m => smWf m 0xFF = true) _ _ _ hc.2.1 (fun m p hm => smWf_set _ _ _ _ hm), hc.2.2⟩

theorem canonical_eraseFlash (s : State) (o n : Nat) (h : s.canonical = true) : (s.eraseFlash o n).canonical = true := by
  have hc := (canonical_iff s).1 h
  rw [canonical_iff]
  exact ⟨hc.1, smWf_filter _ _ _ hc.2.1, hc.2.2⟩

theorem canonical_programTorn (s : State) (o : Nat) (bs : List Byte) (h : s.canonical = true) :
    (s.programTorn o bs).canonical = true := canonical_program _ _ _ h

theorem canonical_eraseTorn (s : State) (o n : Nat) (h : s.canonical = true) : (s.eraseTorn o n).canonical = true := by
  have hc := (canonical_iff s).1 h
  rw [canonical_iff]
  exact ⟨hc.1, foldl_keeps (fun m => smWf m 0xFF = true) _ _ _ hc.2.1 (fun m p hm => smWf_set _ _ _ _ hm), hc.2.2⟩

/-- What a filter of the listed bytes and poisoned words leaves is in canonical form. -/
theorem canonical_filter (s : State) (p : Host.Cell → Bool) (q : Nat × Bool → Bool) (h : s.canonical = true) :
    ({ s with mem := s.mem.filter p, poison := s.poison.filter q } : State).canonical = true := by
  have hc := (canonical_iff s).1 h
  rw [canonical_iff]
  exact ⟨smWf_filter _ _ _ hc.1, hc.2.1, smWf_filter _ _ _ hc.2.2⟩

end Sys2Proof.Laws
end

