-- ==== Sys2Proof/Laws/Regs.lean ====
section
/-! SUPPORT. Registers: each lies at its address and nowhere else, one stored is the one read, and an access that reaches a
register writes or reads exactly it. -/

namespace Sys2Proof.Laws

open Sys2Proof Sys2Proof.Machine

/-! ## Offsets -/

theorem greg_off (r : GReg) : r.off < 0x400 ∧ GReg.ofOff r.off = some r := by
  cases r <;> first | decide | (rename_i k; revert k; decide)

theorem dreg_off (r : DReg) : 0x400 ≤ r.off ∧ r.off < 0x1000 ∧ DReg.ofOff r.off = some r := by
  cases r <;> first | decide | (rename_i k; revert k; decide)

theorem creg_off (r : CReg) : r.off < 0x10000 ∧ CReg.ofOff r.off = some r := by
  rcases r with _ | k | _ | _ | _ | _ | _ | _ | _ | _ | _ | ⟨k, x⟩ | _ | _ <;>
    first | decide | (cases x <;> revert k <;> decide) | (revert k; decide)

theorem breg_off (r : BReg) : r.off < 0x10000 ∧ BReg.ofOff r.off = some r := by
  cases r <;> first | decide | (rename_i k; revert k; decide) | (rename_i x; cases x <;> decide)

theorem sreg_off (r : SReg) : r.off < 0x400 ∧ SReg.ofOff r.off = some r := by
  cases r <;> first | decide | (rename_i k; revert k; decide)

theorem lreg_off (r : LReg) : r.off < 0x10000 ∧ LReg.ofOff r.off = some r := by
  cases r <;> first | decide | (rename_i k; revert k; decide)

theorem kreg_off (r : KReg) : r.off < 0x1000 ∧ KReg.ofOff r.off = some r := by
  cases r <;> first | decide | (rename_i k; revert k; decide)

theorem preg_off (r : PReg) : r.off < 0x1000 ∧ PReg.ofOff r.off = some r := by
  cases r <;> decide

theorem treg_off (r : TReg) : r.off < 0x1000 ∧ TReg.ofOff r.off = some r := by
  cases r <;> first | decide | (rename_i k; revert k; decide)

/-! ## Places -/

/-- What lies at a register's physical address is that register (Table 1.3). -/
theorem devPlace_addr (r : Reg) : devPlace r.addr = .reg r := by
  cases r with
  | g r =>
    have h := greg_off r
    show devPlace (0xF100000000 + r.off) = _
    unfold devPlace
    rw [if_neg (by omega), if_pos (by omega)]
    simp only [Nat.add_sub_cancel_left]
    rw [if_pos h.1, h.2]; rfl
  | d r =>
    have h := dreg_off r
    show devPlace (0xF100000000 + r.off) = _
    unfold devPlace
    rw [if_neg (by omega), if_pos (by omega)]
    simp only [Nat.add_sub_cancel_left]
    rw [if_neg (by omega), h.2.2]; rfl
  | core c r =>
    have h := creg_off r
    have hc := c.isLt
    show devPlace (0xF100100000 + 0x10000 * c.toNat + r.off) = _
    unfold devPlace
    rw [if_neg (by omega), if_neg (by omega), if_pos (by omega)]
    have e1 : (0xF100100000 + 0x10000 * c.toNat + r.off - 0xF100100000) % 0x10000 = r.off := by omega
    have e2 : (0xF100100000 + 0x10000 * c.toNat + r.off - 0xF100100000) / 0x10000 = c.toNat := by omega
    simp only [e1, e2, h.2]; simp [devPlaceOf]
  | boot r =>
    have h := breg_off r
    show devPlace (0xF100200000 + r.off) = _
    unfold devPlace
    rw [if_neg (by omega), if_neg (by omega), if_neg (by omega), if_pos (by omega)]
    simp only [Nat.add_sub_cancel_left]
    rw [h.2]; rfl
  | site n r =>
    have h := sreg_off r
    have hn := n.isLt
    show devPlace (0xF105000000 + 0x400 * n.toNat + r.off) = _
    unfold devPlace
    iterate 13 rw [if_neg (by omega)]
    rw [if_pos (by omega)]
    have e1 : (0xF105000000 + 0x400 * n.toNat + r.off - 0xF105000000) % 0x400 = r.off := by omega
    have e2 : (0xF105000000 + 0x400 * n.toNat + r.off - 0xF105000000) / 0x400 = n.toNat := by omega
    simp only [e1, e2, h.2]; simp [devPlaceOf]
  | link k r =>
    have h := lreg_off r
    have hk := k.isLt
    show devPlace (0xF101000000 + 0x10000 * k.toNat + r.off) = _
    unfold devPlace
    iterate 5 rw [if_neg (by omega)]
    rw [if_pos (by omega)]
    have e1 : (0xF101000000 + 0x10000 * k.toNat + r.off - 0xF101000000) % 0x10000 = r.off := by omega
    have e2 : (0xF101000000 + 0x10000 * k.toNat + r.off - 0xF101000000) / 0x10000 = k.toNat := by omega
    simp only [e1, e2, h.2]; simp [devPlaceOf]
  | curlew r =>
    have h := kreg_off r
    show devPlace (0xF102000000 + r.off) = _
    unfold devPlace
    iterate 7 rw [if_neg (by omega)]
    rw [if_pos (by omega)]
    simp only [Nat.add_sub_cancel_left]
    rw [h.2]; rfl
  | door n r =>
    have h := preg_off r
    have hn := n.isLt
    show devPlace (0xF103000000 + 0x1000 * n.toNat + r.off) = _
    unfold devPlace
    iterate 9 rw [if_neg (by omega)]
    rw [if_pos (by omega)]
    have e1 : (0xF103000000 + 0x1000 * n.toNat + r.off - 0xF103000000) % 0x1000 = r.off := by omega
    have e2 : (0xF103000000 + 0x1000 * n.toNat + r.off - 0xF103000000) / 0x1000 = n.toNat := by omega
    simp only [e1, e2, h.2]; simp [devPlaceOf]
  | timer r =>
    have h := treg_off r
    show devPlace (0xF104000000 + r.off) = _
    unfold devPlace
    iterate 11 rw [if_neg (by omega)]
    rw [if_pos (by omega)]
    simp only [Nat.add_sub_cancel_left]
    rw [h.2]; rfl

/-- No two registers share an address. -/
theorem addr_injective (r q : Reg) (h : r.addr = q.addr) : r = q := by
  have := devPlace_addr r
  rw [h, devPlace_addr q] at this
  exact (DevPlace.reg.inj this).symm

/-- Every register of the device region lies in that region (Table 1.3). -/
theorem addr_range (r : Reg) : 0xF100000000 ≤ r.addr ∧ r.addr < 0xF105100000 := by
  cases r with
  | g r => have h := greg_off r; constructor <;> simp only [Reg.addr] <;> omega
  | d r => have h := dreg_off r; constructor <;> simp only [Reg.addr] <;> omega
  | core c r => have h := creg_off r; have := c.isLt; constructor <;> simp only [Reg.addr] <;> omega
  | boot r => have h := breg_off r; constructor <;> simp only [Reg.addr] <;> omega
  | site n r => have h := sreg_off r; have := n.isLt; constructor <;> simp only [Reg.addr] <;> omega
  | link k r => have h := lreg_off r; have := k.isLt; constructor <;> simp only [Reg.addr] <;> omega
  | curlew r => have h := kreg_off r; constructor <;> simp only [Reg.addr] <;> omega
  | door n r => have h := preg_off r; have := n.isLt; constructor <;> simp only [Reg.addr] <;> omega
  | timer r => have h := treg_off r; constructor <;> simp only [Reg.addr] <;> omega

/-! ## Stored bits -/

@[simp] theorem reg_setReg_same (s : State) (r : Reg) (v : Word32) : (s.setReg r v).reg r = v := by
  simp [State.reg, State.setReg]

theorem reg_setReg_other (s : State) (r q : Reg) (v : Word32) (h : q ≠ r) : (s.setReg r v).reg q = s.reg q := by
  have : q.addr ≠ r.addr := fun e => h (addr_injective q r e)
  simp [State.reg, State.setReg, smGet_set_other _ _ _ _ _ _ this]

/-- A register after a store to any register. -/
theorem reg_setReg (s : State) (r q : Reg) (v : Word32) : (s.setReg r v).reg q = if q = r then v else s.reg q := by
  split
  · next h => subst h; simp
  · next h => exact reg_setReg_other s r q v h

@[simp] theorem reg_orReg_same (s : State) (r : Reg) (m : Word32) : (s.orReg r m).reg r = s.reg r ||| m := by
  simp [State.orReg]

theorem reg_orReg_other (s : State) (r q : Reg) (m : Word32) (h : q ≠ r) : (s.orReg r m).reg q = s.reg q :=
  reg_setReg_other s r q _ h

@[simp] theorem setReg_setReg (s : State) (r : Reg) (v w : Word32) : (s.setReg r v).setReg r w = s.setReg r w := by
  simp [State.setReg]

/-! ## The host window -/

theorem greg_aligned (r : GReg) : r.off % 4 = 0 := by
  cases r <;> first | rfl | (rename_i k; revert k; decide)

theorem dreg_aligned (r : DReg) : r.off % 4 = 0 := by
  cases r <;> first | rfl | (rename_i k; revert k; decide)

theorem creg_aligned (r : CReg) : r.off % 4 = 0 := by
  rcases r with _ | k | _ | _ | _ | _ | _ | _ | _ | _ | _ | ⟨k, x⟩ | _ | _ <;>
    first | rfl | (cases x <;> revert k <;> decide) | (revert k; decide)

theorem breg_aligned (r : BReg) : r.off % 4 = 0 := by
  cases r <;> first | rfl | (rename_i k; revert k; decide) | (rename_i x; cases x <;> rfl)

theorem sreg_aligned (r : SReg) : r.off % 4 = 0 := by
  cases r <;> first | rfl | (rename_i k; revert k; decide)

theorem lreg_aligned (r : LReg) : r.off % 4 = 0 := by
  cases r <;> first | rfl | (rename_i k; revert k; decide)

theorem kreg_aligned (r : KReg) : r.off % 4 = 0 := by
  cases r <;> first | rfl | (rename_i k; revert k; decide)

theorem preg_aligned (r : PReg) : r.off % 4 = 0 := by cases r <;> rfl

theorem treg_aligned (r : TReg) : r.off % 4 = 0 := by
  cases r <;> first | rfl | (rename_i k; revert k; decide)

/-- Every register has a word address. -/
theorem addr_aligned (r : Reg) : r.addr % 4 = 0 := by
  cases r with
  | g r => have := greg_aligned r; simp only [Reg.addr]; omega
  | d r => have := dreg_aligned r; simp only [Reg.addr]; omega
  | core c r => have := creg_aligned r; simp only [Reg.addr]; omega
  | boot r => have := breg_aligned r; simp only [Reg.addr]; omega
  | site n r => have := sreg_aligned r; simp only [Reg.addr]; omega
  | link k r => have := lreg_aligned r; simp only [Reg.addr]; omega
  | curlew r => have := kreg_aligned r; simp only [Reg.addr]; omega
  | door n r => have := preg_aligned r; simp only [Reg.addr]; omega
  | timer r => have := treg_aligned r; simp only [Reg.addr]; omega

/-- What lies at a register's host address is that register (Table 2.6), at a word address of the window. -/
theorem hostPlace_addr (r : Reg) (x : Nat) (h : r.hostAddr = some x) :
    hostPlace x = .reg r ∧ x < 2 ^ 24 ∧ x % 4 = 0 := by
  cases r with
  | g r =>
    have ho := greg_off r
    have ha := greg_aligned r
    simp only [Reg.hostAddr, Option.some.injEq] at h
    subst h
    refine ⟨?_, by omega, ha⟩
    unfold hostPlace
    rw [if_pos ho.1, ho.2]; rfl
  | core c r =>
    have ho := creg_off r
    have ha := creg_aligned r
    have hc := c.isLt
    simp only [Reg.hostAddr] at h
    split at h <;> [rename_i hl; exact absurd h (by simp)]
    simp only [Option.some.injEq] at h
    subst h
    refine ⟨?_, by omega, by omega⟩
    unfold hostPlace
    iterate 2 rw [if_neg (by omega)]
    rw [if_pos (by omega)]
    have e1 : (0x1000 + 0x100 * c.toNat + r.off - 0x1000) % 0x100 = r.off := by omega
    have e2 : (0x1000 + 0x100 * c.toNat + r.off - 0x1000) / 0x100 = c.toNat := by omega
    simp only [e1, e2, ho.2]; simp [hostPlaceOf]
  | boot r =>
    have ho := breg_off r
    have ha := breg_aligned r
    simp only [Reg.hostAddr] at h
    split at h <;> [rename_i hl; exact absurd h (by simp)]
    simp only [Option.some.injEq] at h
    subst h
    refine ⟨?_, by omega, by omega⟩
    unfold hostPlace
    iterate 3 rw [if_neg (by omega)]
    rw [if_pos (by omega)]
    simp only [Nat.add_sub_cancel_left]
    rw [ho.2]; rfl
  | link k r =>
    have ho := lreg_off r
    have ha := lreg_aligned r
    have hk := k.isLt
    simp only [Reg.hostAddr] at h
    split at h <;> [rename_i hl; exact absurd h (by simp)]
    simp only [Option.some.injEq] at h
    subst h
    refine ⟨?_, by omega, by omega⟩
    unfold hostPlace
    iterate 5 rw [if_neg (by omega)]
    rw [if_pos (by omega)]
    have e1 : (0x4000 + 0x100 * k.toNat + r.off - 0x4000) % 0x100 = r.off := by omega
    have e2 : (0x4000 + 0x100 * k.toNat + r.off - 0x4000) / 0x100 = k.toNat := by omega
    simp only [e1, e2, ho.2]; simp [hostPlaceOf]
  | site n r =>
    have ho := sreg_off r
    have ha := sreg_aligned r
    have hn := n.isLt
    simp only [Reg.hostAddr, Option.some.injEq] at h
    subst h
    refine ⟨?_, by omega, by omega⟩
    unfold hostPlace
    iterate 10 rw [if_neg (by omega)]
    rw [if_pos (by omega)]
    have e1 : (0x400000 + 0x400 * n.toNat + r.off - 0x400000) % 0x400 = r.off := by omega
    have e2 : (0x400000 + 0x400 * n.toNat + r.off - 0x400000) / 0x400 = n.toNat := by omega
    simp only [e1, e2, ho.2]; simp [hostPlaceOf]
  | d r => exact absurd h (by simp [Reg.hostAddr])
  | curlew r => exact absurd h (by simp [Reg.hostAddr])
  | door n r => exact absurd h (by simp [Reg.hostAddr])
  | timer r => exact absurd h (by simp [Reg.hostAddr])

/-! ## Accesses that reach a register -/

theorem region_device (s : State) (a : Nat) (h : 0xF100000000 ≤ a) (h2 : a < 0xF105100000) : s.region a = .device := by
  unfold State.region
  rw [if_neg (by omega), if_neg (by omega), if_pos (by omega)]

theorem leNat_leBytes4 (d : Word32) : BitVec.ofNat 32 (leNat (leBytes 4 d.toNat)) = d := by
  have h : leNat (leBytes 4 d.toNat) = d.toNat := by
    have := d.isLt
    simp [leBytes, byteOf, leNat, List.range, List.range.loop, Nat.shiftRight_eq_div_pow]
    omega
  rw [h]; simp

/-- A context with no store waiting drains nothing. -/
theorem drain_empty (s : State) (x : CtxId) (h : (s.ctx x).storeBuf = []) : s.drain x = s := by
  simp [State.drain, h, State.performMany]

/-- A write access that reaches a register, and whose write is accepted, leaves what the write leaves. -/
theorem accessWrite_reg (s t : State) (a : Access) (addr : PhysAddr) (r : Reg) (d : Word32) (hn : namesReg a addr r)
    (hr : s.reaches a r d = true) (hw : s.regWrite (whoOf a) (s.accWorld a r) r (lanesOf a) d = (true, t))
    (hm : r = .g .mbxCtrl → bitAt (seen a.be d) 16 = true → s.postRefused a.be d = false) :
    s.accessWrite a addr d = t.complete a := by
  unfold namesReg regAddrFor at hn
  unfold State.reaches at hr
  unfold State.accWorld whoOf lanesOf at hw
  unfold State.accessWrite State.complete
  have hd := devPlace_addr r
  have hrange := addr_range r
  have hreg := region_device s r.addr hrange.1 hrange.2
  have hal := addr_aligned r
  split at hn
  · next hq =>
    simp only [hq] at hr hw ⊢
    have hp := hostPlace_addr r _ hn
    simp only [hn, Bool.and_eq_true, decide_eq_true_eq, Bool.not_eq_true'] at hr
    obtain ⟨⟨⟨h1, h2⟩, h3⟩, h4⟩ := hr
    have e0 : addr.toNat % 2 ^ 24 = addr.toNat := Nat.mod_eq_of_lt hp.2.1
    have e : addr.toNat % 2 ^ 24 / 4 * 4 = addr.toNat := by omega
    unfold State.hostWrite
    simp only [h1, h2, h3, e, hp.1, Bool.not_true, Bool.false_eq_true, if_false, ne_eq, not_true_eq_false]
    unfold State.hostReg
    have hm' : ¬ (r = .g .mbxCtrl ∧ bitAt (seen a.be d) 16 = true ∧ s.postRefused a.be d = true) := by
      rintro ⟨p, q, z⟩
      exact absurd z (by simp [hm p q])
    rw [if_neg hm']
    simp only [h4, hw, if_true, Bool.false_eq_true, if_false]
  · next x hq =>
    simp only [hq] at hr hw ⊢
    simp only [Option.some.injEq] at hn
    simp only [Bool.and_eq_true, Bool.or_eq_true, decide_eq_true_eq, Bool.not_eq_true', List.isEmpty_iff] at hr
    obtain ⟨hr, hb⟩ := hr
    rw [← hn]
    unfold State.ctxWrite
    have hv : ¬ ((s.ctx x).world = .nonSecure ∧ s.region r.addr = .device ∧ s.deviceSecure r.addr true = true) := by
      rintro ⟨p, -, q⟩
      rcases hr.1 with z | z
      · rw [p] at z; cases z
      · rw [q] at z; cases z
    simp only [if_neg hv, drain_empty s x hb]
    unfold State.perform
    have hh : s.storeHole x { addr := r.addr, bytes := leBytes 4 d.toNat, world := (s.ctx x).world, word := true } = false := by
      simp [State.storeHole, State.refused, hreg, hd, hal, hr.2, Kind.fetches, leBytes]
    simp only [hh, Bool.false_eq_true, if_false, hreg, if_true]
    unfold State.performReg
    simp only [hd, leNat_leBytes4, hw, if_true]
  · next w hq =>
    simp only [hq] at hr hw ⊢
    simp only [Option.some.injEq] at hn
    rw [← hn]
    unfold State.daeRegWrite
    simp only [hr, Bool.not_true, Bool.false_eq_true, if_false, hd, hw]

/-- A write of a register by name is the access at its address. -/
theorem writeReg_eq (s : State) (a : Access) (r : Reg) (d : Word32) (x : Nat) (h : regAddrFor a.req r = some x) :
    s.writeReg a r d = s.accessWrite a (BitVec.ofNat 40 x) d ∧ namesReg a (BitVec.ofNat 40 x) r := by
  have hx : x < 2 ^ 40 := by
    have hrange := addr_range r
    unfold regAddrFor at h
    split at h
    · have := (hostPlace_addr r x h).2.1; omega
    · simp only [Option.some.injEq] at h; omega
    · simp only [Option.some.injEq] at h; omega
  refine ⟨by simp [State.writeReg, h], ?_⟩
  unfold namesReg
  rw [h, BitVec.toNat_ofNat, Nat.mod_eq_of_lt hx]

/-- A write of a register by name that reaches it, and is accepted, leaves what the write leaves. -/
theorem writeReg_reg (s t : State) (a : Access) (r : Reg) (d : Word32) (hr : s.reaches a r d = true)
    (hw : s.regWrite (whoOf a) (s.accWorld a r) r (lanesOf a) d = (true, t))
    (hm : r = .g .mbxCtrl → bitAt (seen a.be d) 16 = true → s.postRefused a.be d = false) :
    s.writeReg a r d = t.complete a := by
  have hx : ∃ x, regAddrFor a.req r = some x := by
    unfold regAddrFor
    split
    · next hq =>
      unfold State.reaches at hr
      simp only [hq] at hr
      cases hh : r.hostAddr with
      | none => simp [hh] at hr
      | some y => exact ⟨y, rfl⟩
    · exact ⟨_, rfl⟩
    · exact ⟨_, rfl⟩
  obtain ⟨x, hx⟩ := hx
  obtain ⟨e, hn⟩ := writeReg_eq s a r d x hx
  rw [e]
  exact accessWrite_reg s t a _ r d hn hr hw hm

/-- An address that names a register lies where the register does. -/
theorem placeReg_names (a : Access) (addr : PhysAddr) (r : Reg) (hn : namesReg a addr r) : placeReg a addr = some r := by
  unfold namesReg regAddrFor at hn
  unfold placeReg
  split at hn
  · next hq =>
    have hp := hostPlace_addr r _ hn
    have e : addr.toNat % 2 ^ 24 / 4 * 4 = addr.toNat := by omega
    simp only [hq, e, hp.1]
  · next x hq =>
    simp only [Option.some.injEq] at hn
    simp only [hq, ← hn, regAt, devPlace_addr]
  · next w hq =>
    simp only [Option.some.injEq] at hn
    simp only [hq, ← hn, regAt, devPlace_addr]

/-- A read access that reaches a register gives its value, and leaves what the read leaves. -/
theorem accessRead_reg (s : State) (a : Access) (addr : PhysAddr) (r : Reg) (hn : namesReg a addr r)
    (hr : s.readsReg a r = true) :
    s.accessRead a addr = (s.regRead (whoOf a) (s.readWorld a r) r).2.done (s.regRead (whoOf a) (s.readWorld a r) r).1 := by
  unfold namesReg regAddrFor at hn
  unfold State.readsReg at hr
  unfold State.readWorld whoOf
  unfold State.accessRead
  have hd := devPlace_addr r
  have hrange := addr_range r
  have hreg := region_device s r.addr hrange.1 hrange.2
  have hal := addr_aligned r
  split at hn
  · next hq =>
    simp only [hq] at hr ⊢
    have hp := hostPlace_addr r _ hn
    simp only [hn, Bool.and_eq_true] at hr
    have e0 : addr.toNat % 2 ^ 24 = addr.toNat := Nat.mod_eq_of_lt hp.2.1
    have e : addr.toNat % 2 ^ 24 / 4 * 4 = addr.toNat := by omega
    unfold State.hostRead
    simp only [hr.1, hr.2, e, hp.1, Bool.not_true, Bool.false_eq_true, if_false]
  · next x hq =>
    simp only [hq] at hr ⊢
    simp only [Option.some.injEq] at hn
    simp only [Bool.and_eq_true, Bool.or_eq_true, decide_eq_true_eq, Bool.not_eq_true', List.isEmpty_iff] at hr
    obtain ⟨hr, hb⟩ := hr
    rw [← hn]
    unfold State.ctxRead
    have hv : ¬ ((s.ctx x).world = .nonSecure ∧ s.deviceSecure r.addr false = true) := by
      rintro ⟨p, q⟩
      rcases hr with z | z
      · rw [p] at z; cases z
      · rw [q] at z; cases z
    simp [hreg, hal, hd, if_neg hv, State.drainFor, hb]
  · next w hq =>
    simp only [hq] at hr ⊢
    simp only [Option.some.injEq] at hn
    rw [← hn]
    unfold State.daeRegRead
    simp only [hr, Bool.not_true, Bool.false_eq_true, if_false, hd]

end Sys2Proof.Laws
end

