-- ==== Sys2Proof/WellFormed.lean ====
section
/-! DEFINITION. Well-formed commands: the operands that the interfaces of the L1024 can carry (spec/02 R42, R54; spec/03;
spec/07; spec/20; spec/22; spec/23). A command that is not well formed names nothing that can happen to the part. -/

namespace Sys2Proof

/-- An access names a word (R14, R42): HA[23:2] for the host, and an aligned physical address otherwise. -/
def Access.reaches (a : Access) (addr : PhysAddr) : Bool :=
  decide (addr.toNat % 4 = 0) && (match a.req with
    | .host => decide (addr.toNat < 2 ^ 24)
    | .ctx _ => true
    | .dae _ => true)

/-- An address is one of the micro-store 0, the nano-store 1 or the hook table 2 (Table 20.1). -/
def storeHas (store : BitVec 2) (addr : BitVec 14) : Bool :=
  match store.toNat with
  | 0 => true
  | 1 => decide (addr.toNat < 0xA00)
  | 2 => decide (addr.toNat < 64)
  | _ => false

/-- An address is one of the patch RAM of the micro-store or the nano-store, or of the hook table, which the secure patch copy holds
(R478, R490). -/
def patchHas (store : BitVec 2) (addr : BitVec 14) : Bool :=
  storeHas store addr && (match store.toNat with
    | 0 => decide (0x3000 ≤ addr.toNat)
    | 1 => decide (0x800 ≤ addr.toNat)
    | _ => true)

/-- Where a return fails (R514, R515): at step 1 in what is loaded from the patch copy, at step 2 in a ROM word (R487). -/
def returnPlaceGood (failed : BitVec 2) (addr : BitVec 14) (store : BitVec 2) : Bool :=
  match failed.toNat with
  | 0 => true
  | 2 => decide (store.toNat < 2) && storeHas store addr && !patchHas store addr
  | _ => patchHas store addr

/-- An upset names a register that exists (R342), or an address of one of the three stores (R482). -/
def Upset.wellFormed (u : Upset) : Bool :=
  match u with
  | .register r => decide (r.toNat < 44)
  | .store m a _ => storeHas m a
  | .corrected _ _ rest | .uncorrectable _ _ rest | .refetched rest => rest.wellFormed
  | .none | .residue _ => true

/-- The instruction codes that Table 22.1 gives an instruction of its own; every other code acts as BYPASS (R520). -/
def assignedCodes : List Nat := [0x00, 0x01, 0x02, 0x03, 0x04, 0x10, 0x11, 0x20, 0x21, 0x22, 0x30, 0x31, 0x32]

/-- A command is well formed: its access names a word, its upset exists, a reply has 1 to 32,768 bytes (R54), a rail is one of
the six (Table 23.4), boundary values fit the 1,184-bit register (Table 22.1), a context number is 0 to 64 (R526), and
a code that acts as BYPASS is one that no other instruction has (R520). -/
def Instr.wellFormed (i : Instr) : Bool :=
  match i with
  | .apertureRead a addr u => a.reaches addr && u.wellFormed
  | .reply _ bytes => decide (1 ≤ bytes.length) && decide (bytes.length ≤ 32768)
  | .coreReturnDone _ failed addr store => returnPlaceGood failed addr store
  | .coreStart _ bad => bad.all (fun w => patchHas w.1 w.2)
  | .brownout rail => decide (rail.toNat < 6)
  | .bypass code => !assignedCodes.contains code.toNat
  | .extest pins update | .samplePreload pins update => decide (pins < 2 ^ 1184) && decide (update < 2 ^ 1184)
  | .halt n _ | .release n | .step n => decide (n.toNat ≤ 64)
  | .registerWrite a addr _ | .rcRead a addr | .loRead a addr | .hiRead a addr | .loWrite a addr _
  | .hiWrite a addr _ | .validClear a addr _ | .apertureWrite a addr _ | .timeout a addr _ _ _
  | .mailboxWrite a addr _ | .mailboxRead a addr _ | .tideStageWrite a addr _ | .tideImmediateWrite a addr _
  | .assignWrite a addr _ | .kvaultWrite a addr _ => a.reaches addr
  | .dispatchLoad _ u | .count _ u | .repair _ u | .nop _ u | .trap _ u | .bkpt _ u | .sync _ u | .formW _ u
  | .formB _ u | .sysc _ u | .sysret _ u | .xret _ u | .gcall _ u | .gret _ u | .moncall _ u | .monret _ u
  | .mfsr _ u | .mtsr _ u | .rand _ u | .add _ u | .sub _ u | .and _ u | .or _ u | .xor _ u | .andn _ u | .shl _ u
  | .shr _ u | .sar _ u | .ror _ u | .min _ u | .max _ u | .minu _ u | .maxu _ u | .cmp _ u | .cmpu _ u | .mul _ u
  | .mulh _ u | .mulhu _ u | .div _ u | .divu _ u | .rem _ u | .remu _ u | .clz _ u | .ctz _ u | .popc _ u
  | .sext _ u | .zext _ u | .li _ u | .lis _ u | .ld _ u | .st _ u | .casD _ u | .ldu _ u | .stu _ u | .bcc _ u
  | .dbcc _ u | .bbs _ u | .bbc _ u | .br _ u | .jmp _ u | .call _ u | .callr _ u | .bal _ u | .balr _ u | .ret _ u
  | .loop _ u | .lexit _ u | .movp _ u | .addp _ u | .subp _ u | .mulp _ u | .divp _ u | .shrp _ u | .cmpp _ u
  | .packa _ u | .unpka _ u | .dadd _ u | .dsub _ u | .dneg _ u | .dabs _ u | .dmul _ u | .ddiv _ u | .drem _ u
  | .dsrr _ u | .dcmp _ u | .dmov _ u | .cvbd _ u | .cvdb _ u | .dld _ u | .dst _ u | .mvst _ _ u | .mvstU _ _ u
  | .trst _ _ u | .scns _ _ u | .cmps _ _ u | .edit _ _ u | .edpos _ _ u | .fadd _ u | .fsub _ u | .fneg _ u
  | .fabs _ u | .fmul _ u | .fmac _ u | .fmsu _ u | .facl _ u | .fsha _ u | .frnd _ u | .fmva _ u | .fmvg _ u
  | .bset _ u | .bclr _ u | .btas _ u | .btst _ u | .bfext _ u | .bfins _ u | .bpop _ u | .bff _ u | .spbGo _ u
  | .spbWait _ u | .siteTake _ u | .sitePost _ u | .siteSettle _ u | .lapp _ u | .tlbi _ u | .tlbl _ u | .tlbu _ u
  | .kset _ u | .kget _ u | .krst _ u | .kload _ u | .kerase _ u | .nak _ _ u | .hello _ _ u | .retransmitTimeout _ u
  | .replay _ _ _ u | .autoReplay _ _ _ u | .appendComplete _ u | .keyLoadOnDemand _ u | .curlewRetry _ u | .kloadDone u
  | .genkey _ u | .kwrapStaged _ u | .verify _ u | .ueCommandDone _ u | .daeComplete u
  | .nmiEntry _ u | .interruptEntry _ u | .busErrorEntry _ u | .enclCommitDone u | .crProdWrite _ _ _ u
  | .messageConsumed _ u | .tenantConversion _ u | .coreFenceDone _ u | .clearSettlement _ u | .sbJrnlTailWrite _ _ _ u
  | .tenantSave _ u | .data _ _ u | .ack _ _ u | .heartbeat _ _ u | .holdTimer _ u | .writeOff _ _ _ u | .cwReqClear _ _ u
  | .bootRom _ _ _ _ u | .trainingDone _ _ _ _ u | .sourceTimeout u | .bootData _ u | .bootEnd u => u.wellFormed
  | .strobeDuringCycle | .h2dPost _ _ | .d2hAck _ _ | .hbclkMeasure _ | .rngDataRead _
  | .clkCtrlWrite _ _ | .phaseWrite _ _ | .start _ _ | .abort _ _ | .updCtrlSecureRead _ | .commit _ _ | .discard _ _
  | .tideForce _ | .fenceReq _ _ | .coreRelease _ _
  | .coreReturn _ _ | .cxStart _ _ _ | .enWritten1 _ _ _ | .enWritten0 _ _ _ | .holdWritten1 _ _ _
  | .holdWritten0 _ _ _ | .fault _ _ _ | .resume _ _ _ | .ctrClear _ _ _
  | .ringInstall _ _ _ | .cbPreempt _ _ _ | .poolClear _ _ _ | .ctxBaseWrite _ _
  | .siteBufBaseWrite _ _ | .keyBaseWrite _ _ | .secWeirWrite _ _ | .sramWeirWrite _ _ | .enclCommit _ _
  | .dbgEnWrite _ _ | .wdtCtrlWrite _ _ | .wdtKick _ _ | .watchdogWarning | .swdt | .ring _ _ _ | .timerCompare _
  | .nmiN | .patrolScrub _ _ | .storeBusError _ _ | .quantum _
  | .signalPresent _ | .signalLost _ | .blockLock _ | .blockLockLost _ | .en _ _ _ | .fenceWritten1 _ _ _
  | .fenceWritten0 _ _ _ | .loopback _ _ _ | .loopbackLock _ _
  | .ackTimer _ _ | .heartbeatTimer _ _ | .stationLossTimeout _ _
  | .counterResidueRetry _ | .rngReady
  | .healthFail | .drbgReseed _ | .tlbiComplete _ | .porstN _ | .resetN _ | .clkloss _ | .refclkOk | .serdesLossOfLock
  | .droop _ | .thermtrip _ | .warn _ | .crit _ | .vidStep _ | .internalResetEnd _ | .zeroDone
  | .rngWaitTimeout | .reset | .soft _ _
  | .romLock _ _ | .empty _ | .erase _ | .write _ | .markWritten _ | .ueVerify _ | .activate _ | .confirm _
  | .retire _ | .calSave _ | .disable _ _ | .program _ _ | .fuseCtrlLcAdv _ _ | .testLogicReset
  | .idcode | .clamp | .highz | .idRead | .calRead | .portFuseSense | .fuseProg _ | .fusePulseDone _
  | .sortGen _ _ | .lcAdv _ _ | .dae _ | .daeTimeout _ | .debugHalt _ | .tapReset _
  | .storePerformed _ | .fuseCtrlDone _ | .interfaceAcceptsCycles => true

end Sys2Proof
end

