-- ==== Sys2Proof/Tests/Slice0.lean ====
section
/-! SUPPORT. Tests of one command each on small states: ill-formed terms, instruction words written out from spec/10, results
that spec/06 to spec/17 state, and for each obligation with hypotheses a state that meets them. -/

open Sys2Proof Sys2Proof.Machine

set_option Elab.async false

namespace Sys2Proof.Tests

/-! ## Small states -/

/-- Where the test code stands: the bottom of SRAM. -/
def base : Nat := 0xF000000000
/-- The context that the tests run. -/
abbrev cpu : CtxId := bootCtx

/-- Reset has ended, and the boot core runs `code` in B-form as the secure monitor; `f` changes its context. -/
def boot (code : List Byte) (f : Ctx → Ctx) : State :=
  let s : State := { State.reset with inReset := false, mem := memSetAll [] base code }
  let s := s.setCore 16 { s.core 16 with state := .running }
  s.upCtx cpu (fun c => f { c with occ := .monitor, csw := 0x6, pc := 0xF000000000 })

/-- The same in W-form. -/
def bootW (words : List Word32) (f : Ctx → Ctx) : State :=
  boot (words.flatMap (fun w => leBytes 4 w.toNat)) (fun c => f { c with csw := c.csw ||| 1 })

/-- The same as a tenant, number 5, in the secure world. -/
def bootTen (code : List Byte) (f : Ctx → Ctx) : State := boot code (fun c => f { c with csw := 0x500000016 })

/-- The instruction that context 64 executes next alone, with its fetch and the state after it, has a property. -/
def aloneIs (s : State) (p : Ins → Fetched → State → Prop) [∀ i f t, Decidable (p i f t)] : Bool :=
  match s.alone cpu with
  | some (i, f, t) => decide (p i f t)
  | none => false

/-- A command answers a next state with a property. -/
def nextIs (i : Instr) (s : State) (p : State → Prop) [∀ t, Decidable (p t)] : Bool :=
  match exec i s with
  | .next t => decide (p t)
  | _ => false

/-- A G register of context 64. -/
def gr (t : State) (r : BitVec 5) : Word := (t.ctx cpu).getG r

/-- The context 64 of a state. -/
def cx (t : State) : Ctx := t.ctx cpu

/-- Two source registers. -/
def srcs (a b : Word) (c : Ctx) : Ctx := (c.setG 2 a).setG 3 b

/-- A host cycle on all four lanes, its parity lines high. -/
def hostAcc : Access := { req := .host, be := 0xF, hap := true, hdp := 0xF }
/-- An access of a context on all four lanes. -/
def ctxAcc (k : CtxId) : Access := { req := .ctx k, be := 0xF, hap := true, hdp := 0xF }

/-- Where the test data stands. -/
def dat : Nat := 0xF000000100
/-- `boot` with data in SRAM, G2 and G3 addressing it and the 16 bytes after. -/
def bootD (code data : List Byte) (f : Ctx → Ctx) : State :=
  let s := boot code (fun c => f (srcs 0xF000000100 0xF000000110 c))
  { s with mem := memSetAll s.mem dat data }

/-- A checked access gives a value and a state with a property. -/
def okIs {α : Type} (r : XR α) (p : α → State → Prop) [∀ a t, Decidable (p a t)] : Bool :=
  match r with
  | .ok a t => decide (p a t)
  | .exc _ _ => false

/-- Operands evaluate to values with a property. -/
def opsAre (s : State) (f : Fetched) (i : Ins) (n : Nat) (vs : List Val) : Bool :=
  match evalOpnds (envOf s cpu f n) i (s.ctx cpu) 0 i.ops with
  | .ok q => decide (q.1 = vs)
  | .error _ => false

/-- `bootD` under translation: the code page is the supervisor's, and a user page at 0x1000 holds the data; G2 is 0x1100. -/
def bootU (code data : List Byte) (f : Ctx → Ctx) : State :=
  let s := (boot code (fun c => f (srcs 0x1100 0x1110 c))).setReg (.d .secRootLo) 1
  let e : TlbEntry := { page := 0xF000000000, level := 4, w := true, x := true, u := false, g := true, nc := false, out := 0xF000000000
                        world := .secure, tag := 0 }
  { s.setCore 16 { s.core 16 with locked := [(0, some e), (1, some { e with page := 0x1000, x := false, u := true })] } with
    mem := memSetAll s.mem dat data }

/-- A host cycle with good parity. -/
def hostFor (addr : PhysAddr) (write : Bool) (d : Word32) : Access :=
  let a : Access := { req := .host, be := 0xF, hap := true
                      hdp := bitsFrom 4 (fun k => !parityOf 8 (d.toNat >>> (8 * k))) }
  { a with hap := hapGood a (addr.toNat % 2 ^ 24) write }
/-- The interface answers, and nothing else has happened since reset. -/
def awake : State := { State.reset with inReset := false, accepting := true }
/-- The secure monitor in context 64. -/
def mon : State := boot [] id
/-- Its accesses. -/
def monAcc : Access := ctxAcc 64

/-! ## Ill-formed terms (WellFormed) -/

theorem test_access_offNarrow : (Instr.registerWrite hostAcc 0x1000002 0).wellFormed = false := by decide +kernel
theorem test_access_offRange : (Instr.rcRead (ctxAcc 3) 0xE00000D002).wellFormed = false := by decide +kernel
theorem test_upset_register : (Instr.add 64 (.register 44)).wellFormed = false := by decide +kernel
theorem test_reply_empty : (Instr.reply 0 []).wellFormed = false := by decide +kernel
theorem test_rail_sixth : (Instr.brownout 6).wellFormed = false := by decide +kernel
theorem test_boundary_long : (Instr.extest (2 ^ 1184) 0).wellFormed = false := by decide +kernel
theorem test_context_beyond : (Instr.halt 65).wellFormed = false := by decide +kernel
theorem test_return_rom : (Instr.coreReturnDone 0 2 0x3000 0).wellFormed = false := by decide +kernel
theorem test_upset_store : (Instr.count 0 (.store 3 0 false)).wellFormed = false := by decide +kernel
theorem test_return_store : (Instr.coreReturnDone 0 2 0 3).wellFormed = false := by decide +kernel
theorem test_wellFormed_good : (Instr.registerWrite hostAcc 0x4 7).wellFormed = true
    ∧ (Instr.halt 64).wellFormed = true ∧ (Instr.brownout 5).wellFormed = true := by decide +kernel

/-! ## Integer instructions (Tables 6.1, 10.2, 10.7) -/

/-- The commands of opcodes 0x10 to 0x26, in order. -/
def aluCmds : List (CtxId → Instr) :=
  [(.add ·), (.sub ·), (.and ·), (.or ·), (.xor ·), (.andn ·), (.shl ·), (.shr ·), (.sar ·), (.ror ·), (.min ·), (.max ·),
   (.minu ·), (.maxu ·), (.cmp ·), (.cmpu ·), (.mul ·), (.mulh ·), (.mulhu ·), (.div ·), (.divu ·), (.rem ·), (.remu ·)]

/-- Two sources and the result of each of those, from Table 6.1. -/
def aluCases : List (Word × Word × Word) :=
  [(-1, 1, 0), (0, 1, -1), (0xC, 0xA, 8), (0xC, 0xA, 0xE), (0xC, 0xA, 6), (0xC, 0xA, 4), (1, 64, 1), (2 ^ 63, 127, 1),
   (2 ^ 63, 63, -1), (1, 1, 2 ^ 63), (-1, 0, -1), (-1, 0, 0), (-1, 0, 0), (-1, 0, -1), (-1, 0, -1), (-1, 0, 1),
   (2 ^ 32, 2 ^ 32, 0), (-1, -1, 0), (-1, -1, -2), (-7, 2, -3), (7, 0, 0), (-7, 2, -1), (7, 0, 7)]

theorem test_alu_results : ∀ k < 23, nextIs ((aluCmds.getD k (.nop ·)) cpu)
    (boot [BitVec.ofNat 8 (0x10 + k), 1, 2, 3] (srcs (aluCases.getD k (0, 0, 0)).1 (aluCases.getD k (0, 0, 0)).2.1))
    (fun t => gr t 1 = (aluCases.getD k (0, 0, 0)).2.2 ∧ (cx t).pc = 0xF000000004) = true := by decide +kernel

theorem test_alu_words : ∀ k < 23, aloneIs (bootW [BitVec.ofNat 32 (2 ^ 31 + 2 ^ 24 + 2 ^ 17 * k + 2 ^ 12 + 2 * 2 ^ 7 + 3 * 4)] id)
    (fun i _ _ => i.op = aluOps.getD k .nop ∧ i.ops = [.reg 1, .reg 2, .reg 3]) = true := by decide +kernel

theorem witness_TwoSourceIntegerResults : ∀ k < 23, aloneIs (boot [BitVec.ofNat 8 (0x10 + k), 1, 2, 0xE0, 0xFF] (srcs 5 7))
    (fun i _ t => i.op = aluOps.getD k .nop ∧ i.ops = [.reg 1, .reg 2, .imm (-1)]
      ∧ (t.ctx cpu).operand (.reg 2) = some 5 ∧ (t.ctx cpu).operand (.imm (-1)) = some (-1)) = true := by decide +kernel

theorem test_div_overflow : nextIs (.div cpu) (boot [0x23, 1, 2, 3] (srcs (2 ^ 63) (-1))) (fun t => gr t 1 = 2 ^ 63) = true := by
  decide +kernel
theorem test_g0_discards : nextIs (.add cpu) (boot [0x10, 0, 2, 3] (srcs 5 7)) (fun t => gr t 0 = 0) = true := by decide +kernel

/-- The commands of opcodes 0x27 to 0x30. -/
def unaryCmds : List (CtxId → Instr) :=
  [(.clz ·), (.ctz ·), (.popc ·), (.sext ·), (.sext ·), (.sext ·), (.zext ·), (.zext ·), (.zext ·)]
/-- A source and the result of each of those. -/
def unaryCases : List (Word × Word) :=
  [(0, 64), (0x10, 4), (-1, 64), (0x80, -128), (0x8000, -0x8000), (2 ^ 31, -(2 ^ 31)), (-1, 0xFF), (-1, 0xFFFF), (-1, 0xFFFFFFFF)]

theorem test_unary_results : ∀ k < 9, nextIs ((unaryCmds.getD k (.nop ·)) cpu)
    (boot [BitVec.ofNat 8 (0x27 + k), 1, 2] (srcs (unaryCases.getD k (0, 0)).1 0))
    (fun t => gr t 1 = (unaryCases.getD k (0, 0)).2) = true := by decide +kernel
theorem test_li : nextIs (.li cpu) (boot [0x30, 1, 0xE1, 0xFE, 0xFF] id) (fun t => gr t 1 = -2) = true := by decide +kernel
theorem test_lis : nextIs (.lis cpu) (bootW [0x80618001] (fun c => c.setG 1 (-1)))
    (fun t => gr t 1 = 0x8001FFFFFFFFFFFF) = true := by decide +kernel

theorem witness_OneSourceIntegerResults : ∀ k < 9, aloneIs (boot [BitVec.ofNat 8 (0x27 + k), 1, 2] (srcs (2 ^ 63) 0))
    (fun i _ t => i.op = (unaryOps.getD k (.nop, 0)).1 ∧ i.sub = (unaryOps.getD k (.nop, 0)).2 ∧ i.ops = [.reg 1, .reg 2]
      ∧ (t.ctx cpu).operand (.reg 2) = some 0x8000000000000000) = true := by decide +kernel
theorem witness_CtzLastBit : bitAt (2 ^ 63 : Word) 63 = true ∧ ∀ j < 63, bitAt (2 ^ 63 : Word) j = false := by decide +kernel
theorem witness_LisReplacesSixteenBits : aloneIs (bootW [0x80618001] id)
    (fun i _ _ => i.op = .lis ∧ i.ops = [.reg 1] ∧ i.sub = 3 ∧ i.num = 0x8001) = true := by decide +kernel


/-! ## Words written out from Tables 10.1 to 10.13: each decodes to its instruction -/

/-- The bytes of B-form instructions with their operations. -/
def wordsB : List (List Byte × Op) :=
  [([0x01], .nop), ([0x02, 0x7F], .trap), ([0x03], .sync), ([0x04], .formW), ([0x05], .formB), ([0x06], .sysc),
   ([0x07], .sysret), ([0x08], .xret), ([0x09, 0x05, 0x00], .gcall), ([0x0A], .gret), ([0x0B], .moncall), ([0x0C], .monret),
   ([0x0D, 0x00, 0x00, 0x01], .mfsr), ([0x0E, 0x04, 0x00, 0x01], .mtsr), ([0x0F, 0x01, 0x02], .rand),
   ([0x31, 0x01, 0x22], .ld), ([0x38, 0x22, 0x01], .st), ([0x3C, 0x01, 0x22, 0x03], .casD), ([0x3D, 0x03, 0x01, 0x22], .ldu),
   ([0x3E, 0x03, 0x22, 0x01], .stu), ([0x3F], .bkpt), ([0x40, 0x10, 0x00, 0x01, 0x02], .bcc), ([0x4C, 0x10, 0x00], .br),
   ([0x4E, 0x10, 0x00], .call), ([0x50, 0x10, 0x00, 0x01], .bal), ([0x52, 0x01], .jmp), ([0x53, 0x01], .callr),
   ([0x54, 0x01, 0x02], .balr), ([0x55], .ret), ([0x56, 0x00, 0x10, 0x00, 0x02], .loop), ([0x57, 0x02], .lexit)]

/-- The bytes of the decimal, string, fraction and bit instructions. -/
def wordsB2 : List (List Byte × Op) :=
  [([0x58, 0x11, 0x21, 0x22], .movp), ([0x59, 0x11, 0x03, 0x21, 0x22], .cmpp), ([0x5A, 0x11, 0x21, 0x22], .addp),
   ([0x5B, 0x11, 0x21, 0x22], .subp), ([0x5C, 0x11, 0x21, 0x22], .mulp), ([0x5D, 0x11, 0x21, 0x22], .divp),
   ([0x5E, 0x13, 0x21, 0x02], .shrp), ([0x5F, 0x11, 0x21, 0x22], .packa), ([0x60, 0x11, 0x21, 0x22], .unpka),
   ([0x61, 0x10, 0x00, 0x01, 0x02], .dbcc), ([0x69, 0x10, 0x00, 0x01, 0xE0, 0x05], .bbs), ([0x6A, 0x10, 0x00, 0x01, 0xE0, 0x05], .bbc),
   ([0x70, 0x01, 0x02, 0x03], .dadd), ([0x71, 0x01, 0x02, 0x03], .dsub), ([0x72, 0x01, 0x02], .dneg), ([0x73, 0x01, 0x02], .dabs),
   ([0x74, 0x01, 0x02, 0x03], .dmul), ([0x75, 0x01, 0x02, 0x03], .ddiv), ([0x76, 0x01, 0x02, 0x03], .drem),
   ([0x77, 0x3E, 0x01, 0x02], .dsrr), ([0x78, 0x01, 0x02, 0x03], .dcmp), ([0x79, 0x01, 0x02], .dmov), ([0x7A, 0x01, 0x02], .cvbd),
   ([0x7B, 0x01, 0x02], .cvdb), ([0x7C, 0x07, 0x01, 0x22], .dld), ([0x7D, 0x07, 0x22, 0x01], .dst),
   ([0x80, 0x01, 0x02, 0x03], .mvst), ([0x81, 0x01, 0x02, 0x03], .mvstU), ([0x82, 0x01, 0x02, 0x03, 0x04], .trst),
   ([0x83, 0x01, 0x02, 0x03, 0x04], .scns), ([0x84, 0x01, 0x02, 0x03, 0x04], .cmps), ([0x85, 0x01, 0x02, 0x03, 0x04], .edit),
   ([0x86, 0x01, 0x02, 0x03, 0x04, 0x05], .edpos), ([0x90, 0x01, 0x02, 0x03], .fadd), ([0x93, 0x01, 0x02, 0x03], .fsub),
   ([0x94, 0x01, 0x02], .fneg), ([0x97, 0x01, 0x02], .fabs), ([0x98, 0x02, 0x01, 0x02, 0x03], .fmul),
   ([0x9B, 0x02, 0x01, 0x02, 0x03], .fmac), ([0x9C, 0x02, 0x01, 0x02, 0x03], .fmsu), ([0x9F, 0x01, 0x02], .facl),
   ([0xA0, 0x3F, 0x01], .fsha), ([0xA1, 0x02, 0x01, 0x02], .frnd), ([0xA3, 0x01, 0x02], .fmva), ([0xA4, 0x01, 0x02], .fmvg)]

/-- The bytes of the bit, site, key and look-aside instructions. -/
def wordsB3 : List (List Byte × Op) :=
  [([0xA8, 0x01, 0xE0, 0x05], .bset), ([0xA9, 0x01, 0xE0, 0x05], .bclr), ([0xAA, 0x02, 0x01, 0xE0, 0x05], .btas),
   ([0xAB, 0x02, 0x01, 0xE0, 0x05], .btst), ([0xAC, 0x3F, 0x02, 0x01, 0xE0, 0x05], .bfext), ([0xAD, 0x3F, 0x01, 0xE0, 0x05, 0x02], .bfins),
   ([0xAE, 0x02, 0x01, 0xE0, 0x05, 0x03], .bpop), ([0xAF, 0x02, 0x01, 0xE0, 0x05, 0x03], .bff), ([0xB0, 0x01, 0x02], .spbGo),
   ([0xB2, 0x01, 0x02], .spbWait), ([0xB4, 0x01, 0x02], .siteTake), ([0xB5, 0x01, 0x02, 0x03], .sitePost),
   ([0xB7, 0x01, 0x02, 0x03], .siteSettle), ([0xB8, 0x01, 0x02, 0x03], .lapp), ([0xE0, 0x00, 0x06, 0x01, 0x02], .tlbi),
   ([0xE0, 0x01, 0x01, 0x02], .kset), ([0xE0, 0x02, 0x01, 0x02], .kget), ([0xE0, 0x03, 0x01, 0x02], .krst),
   ([0xE0, 0x04, 0x01, 0x02], .tlbl), ([0xE0, 0x05, 0x01], .tlbu), ([0xE1, 0x00, 0x01, 0x02], .kload), ([0xE1, 0x01, 0x01, 0x02], .kerase)]

theorem test_decode_general : ∀ p ∈ wordsB, aloneIs (boot p.1 id) (fun i f _ => i.op = p.2 ∧ f.next = base + p.1.length) = true := by
  decide +kernel
theorem test_decode_data : ∀ p ∈ wordsB2, aloneIs (boot p.1 id) (fun i f _ => i.op = p.2 ∧ f.next = base + p.1.length) = true := by
  decide +kernel
theorem test_decode_site : ∀ p ∈ wordsB3, aloneIs (boot p.1 id) (fun i f _ => i.op = p.2 ∧ f.next = base + p.1.length) = true := by
  decide +kernel

/-- The example of spec/05: ADDP with DLX, a length byte, an indexed operand and a displaced one. -/
theorem test_decode_addp : aloneIs (boot [0xF7, 0x5A, 0x33, 0x85, 0x20, 0xC6, 0x67, 0x00] id)
    (fun i f _ => i.op = .addp ∧ i.l1 = 20 ∧ i.l2 = 20 ∧ i.ops = [.mem (.disp 5 0x20), .mem (.index 6 7 8 0)]
      ∧ f.next = base + 8) = true := by decide +kernel

/-- The example bundle of spec/10: ADD G5, G4, 12 and LD.D G6, [G3 + 8] in lanes C and L. -/
theorem test_decode_bundle : (match (bootW [0x020A400C, 0xA630C008] id).fetch cpu with
    | .ok f _ => decide (f.insns = [{ op := .add, ops := [.reg 5, .reg 4, .imm 12] },
        { op := .ld, sub := 6, ops := [.reg 6, .mem (.disp 3 8)] }] ∧ f.next = base + 8)
    | .exc _ _ => false) = true := by decide +kernel

/-- A syllable decodes to an instruction, with every field of it. -/
def sylIs (p : Word32 × Ins) : Bool :=
  match decodeSyl p.1 with
  | .ok i => decide (i = p.2)
  | .error _ => false

/-- C syllables of transfers and integer operations (Tables 10.6 and 10.7). -/
def wordsC : List (Word32 × Ins) :=
  [(0x90FFFFFF, { op := .br, imm := -4 }), (0x94000001, { op := .call, imm := 4 }),
   (0x9F800000, { op := .bal, imm := -0x2000000, ops := [.reg 31] }),
   (0x8D10E000, { op := .bcc, imm := -0x8000, sub := 5, ops := [.reg 2, .reg 3] }),
   (0x8EBD0001, { op := .dbcc, imm := 4, sub := 2, ops := [.reg 7, .reg 5] }),
   (0x85FFFF00, { op := .bbs, imm := -0x400, ops := [.reg 15, .imm (-1)] }),
   (0x86200A01, { op := .bbc, imm := 4, ops := [.reg 1, .imm 5] }),
   (0x82022800, { op := .add, ops := [.reg 1, .reg 2, .imm (-2048)] }),
   (0x82422800, { op := .and, ops := [.reg 1, .reg 2, .imm (-2048)] }),
   (0x82822800, { op := .or, ops := [.reg 1, .reg 2, .imm (-2048)] }),
   (0x82C22800, { op := .xor, ops := [.reg 1, .reg 2, .imm (-2048)] }),
   (0x83022800, { op := .min, ops := [.reg 1, .reg 2, .imm (-2048)] }),
   (0x83422800, { op := .max, ops := [.reg 1, .reg 2, .imm (-2048)] }),
   (0x83822800, { op := .cmp, ops := [.reg 1, .reg 2, .imm (-2048)] }),
   (0x83C22800, { op := .cmpu, ops := [.reg 1, .reg 2, .imm (-2048)] }),
   (0x80A60000, { op := .li, ops := [.reg 9, .imm (-0x8000)] }),
   (0x8140117E, { op := .shl, ops := [.reg 1, .reg 2, .imm 63] }),
   (0x8142117E, { op := .shr, ops := [.reg 1, .reg 2, .imm 63] }),
   (0x8144117E, { op := .sar, ops := [.reg 1, .reg 2, .imm 63] }),
   (0x8146117E, { op := .ror, ops := [.reg 1, .reg 2, .imm 63] }), (0x812E1100, { op := .clz, ops := [.reg 1, .reg 2] }),
   (0x81301100, { op := .ctz, ops := [.reg 1, .reg 2] }), (0x81321100, { op := .popc, ops := [.reg 1, .reg 2] }),
   (0x81341100, { op := .sext, ops := [.reg 1, .reg 2] }),
   (0x81361100, { op := .sext, sub := 1, ops := [.reg 1, .reg 2] }),
   (0x81381100, { op := .sext, sub := 2, ops := [.reg 1, .reg 2] }),
   (0x813A1100, { op := .zext, ops := [.reg 1, .reg 2] }),
   (0x813C1100, { op := .zext, sub := 1, ops := [.reg 1, .reg 2] }),
   (0x813E1100, { op := .zext, sub := 2, ops := [.reg 1, .reg 2] })]

theorem test_decode_wordsC : ∀ p ∈ wordsC, sylIs p = true := by decide +kernel

/-- C syllables of the system format (Table 10.8). -/
def wordsS : List (Word32 × Ins) :=
  [(0x81800000, { op := .nop }), (0x81820000, { op := .sync }), (0x8184007F, { op := .trap, num := 0x7F }),
   (0x81860000, { op := .bkpt }), (0x81880000, { op := .formB }), (0x818A0000, { op := .formW }),
   (0x818C0000, { op := .sysc }), (0x818E0000, { op := .sysret }), (0x81900000, { op := .xret }),
   (0x8192FFFF, { op := .gcall, num := 0xFFFF }), (0x81940000, { op := .gret }), (0x81960000, { op := .moncall }),
   (0x81980000, { op := .monret }), (0x819A73FF, { op := .mfsr, num := 0x3FF, ops := [.reg 7] }),
   (0x819C7004, { op := .mtsr, num := 4, ops := [.reg 7] }), (0x819E1100, { op := .rand, ops := [.reg 1, .reg 2] }),
   (0x81A00180, { op := .jmp, ops := [.reg 3] }), (0x81A20180, { op := .callr, ops := [.reg 3] }),
   (0x81A41180, { op := .balr, ops := [.reg 1, .reg 3] }), (0x81A60000, { op := .ret }),
   (0x81A84FFF, { op := .loop, num := 16380, ops := [.reg 4] }),
   (0x81AC4001, { op := .loop, sub := 2, num := 4, ops := [.reg 4] }), (0x81AE0002, { op := .lexit, sub := 2 }),
   (0x81B01106, { op := .tlbi, num := 6, ops := [.reg 1, .reg 2] }),
   (0x81B21100, { op := .kset, ops := [.reg 1, .reg 2] }), (0x81B41100, { op := .kget, ops := [.reg 1, .reg 2] }),
   (0x81B61100, { op := .krst, ops := [.reg 1, .reg 2] }), (0x81B81100, { op := .tlbl, ops := [.reg 1, .reg 2] }),
   (0x81BA1000, { op := .tlbu, ops := [.reg 1] })]

theorem test_decode_wordsS : ∀ p ∈ wordsS, sylIs p = true := by decide +kernel

/-- L syllables (Tables 10.9 to 10.11). -/
def wordsL : List (Word32 × Ins) :=
  [(0xA030C7FF, { op := .ld, ops := [.reg 6, .mem (.disp 3 (-1))] }),
   (0xA130C7FF, { op := .ld, sub := 1, ops := [.reg 6, .mem (.disp 3 (-1))] }),
   (0xA230C7FF, { op := .ld, sub := 2, ops := [.reg 6, .mem (.disp 3 (-1))] }),
   (0xA330C7FF, { op := .ld, sub := 3, ops := [.reg 6, .mem (.disp 3 (-1))] }),
   (0xA430C7FF, { op := .ld, sub := 4, ops := [.reg 6, .mem (.disp 3 (-1))] }),
   (0xA530C7FF, { op := .ld, sub := 5, ops := [.reg 6, .mem (.disp 3 (-1))] }),
   (0xA630C7FF, { op := .ld, sub := 6, ops := [.reg 6, .mem (.disp 3 (-1))] }),
   (0xA830C800, { op := .st, ops := [.mem (.postInc 3), .reg 6] }),
   (0xA930C800, { op := .st, sub := 1, ops := [.mem (.postInc 3), .reg 6] }),
   (0xAA30C800, { op := .st, sub := 2, ops := [.mem (.postInc 3), .reg 6] }),
   (0xAB30C800, { op := .st, sub := 3, ops := [.mem (.postInc 3), .reg 6] }),
   (0xB1A8D000, { op := .dld, l1 := 7, ops := [.reg 5, .mem (.preDec 3)] }),
   (0xB7E8DA60, { op := .dst, l1 := 16, ops := [.mem (.index 3 9 16 0), .reg 5] }),
   (0xB930C008, { op := .ldu, sub := 1, ops := [.reg 6, .mem (.disp 3 8)] }),
   (0xBF30C008, { op := .stu, sub := 3, ops := [.mem (.disp 3 8), .reg 6] }),
   (0xA630E400, { op := .ld, sub := 6, ops := [.reg 6, .mem (.modulo 2 3)] }),
   (0xA630EE00, { op := .ld, sub := 6, ops := [.reg 6, .mem (.bitRev 3 3)] }),
   (0xAF004020, { op := .siteTake, ops := [.reg 1, .reg 2] }),
   (0xAF084020, { op := .siteTake, sub := 1, ops := [.reg 1, .reg 2] }),
   (0xAF104620, { op := .sitePost, ops := [.reg 1, .reg 3, .reg 2] }),
   (0xAF184620, { op := .sitePost, sub := 1, ops := [.reg 1, .reg 3, .reg 2] }),
   (0xAF204620, { op := .siteSettle, ops := [.reg 1, .reg 3, .reg 2] }),
   (0xAF404600, { op := .spbGo, ops := [.reg 1, .reg 3] }), (0xAF484600, { op := .spbWait, ops := [.reg 1, .reg 3] }),
   (0xAF504600, { op := .spbWait, sub := 1, ops := [.reg 1, .reg 3] }),
   (0xAF804620, { op := .lapp, ops := [.reg 1, .reg 3, .reg 2] }),
   (0xAF884600, { op := .kload, ops := [.reg 1, .reg 3] }), (0xAF904600, { op := .kerase, ops := [.reg 1, .reg 3] })]

theorem test_decode_wordsL : ∀ p ∈ wordsL, sylIs p = true := by decide +kernel

/-- P syllables (R255, Table 10.12). -/
def wordsP : List (Word32 × Ins) :=
  [(0xC0088600, { op := .dadd, ops := [.reg 1, .reg 2, .reg 3] }),
   (0xC1088600, { op := .dsub, ops := [.reg 1, .reg 2, .reg 3] }),
   (0xC4088600, { op := .dmul, ops := [.reg 1, .reg 2, .reg 3] }),
   (0xC5088600, { op := .ddiv, ops := [.reg 1, .reg 2, .reg 3] }),
   (0xC6088600, { op := .drem, ops := [.reg 1, .reg 2, .reg 3] }),
   (0xC8088600, { op := .dcmp, ops := [.reg 1, .reg 2, .reg 3] }),
   (0xC2088000, { op := .dneg, ops := [.reg 1, .reg 2] }), (0xC3088000, { op := .dabs, ops := [.reg 1, .reg 2] }),
   (0xC9088000, { op := .dmov, ops := [.reg 1, .reg 2] }), (0xCA088000, { op := .cvbd, ops := [.reg 1, .reg 2] }),
   (0xCB088000, { op := .cvdb, ops := [.reg 1, .reg 2] }),
   (0xC708BEC0, { op := .dsrr, imm := -2, rm := 3, ops := [.reg 1, .reg 2] }),
   (0xD0088600, { op := .mvst, ops := [.reg 1, .reg 2, .reg 3] }),
   (0xD1088600, { op := .mvstU, ops := [.reg 1, .reg 2, .reg 3] }),
   (0xD2088640, { op := .trst, ops := [.reg 1, .reg 2, .reg 3, .reg 4] }),
   (0xD3088640, { op := .scns, ops := [.reg 1, .reg 2, .reg 3, .reg 4] }),
   (0xD4088640, { op := .cmps, ops := [.reg 1, .reg 2, .reg 3, .reg 4] }),
   (0xD5088640, { op := .edit, ops := [.reg 1, .reg 2, .reg 3, .reg 4] }),
   (0xD608864F, { op := .edpos, ops := [.reg 31, .reg 1, .reg 2, .reg 3, .reg 4] })]

theorem test_decode_wordsP : ∀ p ∈ wordsP, sylIs p = true := by decide +kernel

/-- Q syllables (Table 10.13). -/
def wordsQ : List (Word32 × Ins) :=
  [(0xE00110C0, { op := .fadd, ops := [.reg 1, .reg 2, .reg 3] }),
   (0xE02110C0, { op := .fadd, sub := 1, ops := [.reg 1, .reg 2, .reg 3] }),
   (0xE04110C0, { op := .fsub, ops := [.reg 1, .reg 2, .reg 3] }),
   (0xE06110C0, { op := .fsub, sub := 1, ops := [.reg 1, .reg 2, .reg 3] }),
   (0xE0811000, { op := .fneg, ops := [.reg 1, .reg 2] }),
   (0xE0A11000, { op := .fneg, sub := 1, ops := [.reg 1, .reg 2] }),
   (0xE0C11000, { op := .fabs, ops := [.reg 1, .reg 2] }),
   (0xE0E11000, { op := .fabs, sub := 1, ops := [.reg 1, .reg 2] }),
   (0xE1C11000, { op := .facl, ops := [.reg 1, .reg 2] }),
   (0xE1E11000, { op := .facl, sub := 1, ops := [.reg 1, .reg 2] }),
   (0xE10110E0, { op := .fmul, rm := 2, ops := [.reg 1, .reg 2, .reg 3] }),
   (0xE12110E0, { op := .fmul, rm := 2, sub := 1, ops := [.reg 1, .reg 2, .reg 3] }),
   (0xE14110E0, { op := .fmac, rm := 2, ops := [.reg 1, .reg 2, .reg 3] }),
   (0xE16110E0, { op := .fmac, rm := 2, sub := 1, ops := [.reg 1, .reg 2, .reg 3] }),
   (0xE18110E0, { op := .fmsu, rm := 2, ops := [.reg 1, .reg 2, .reg 3] }),
   (0xE1A110E0, { op := .fmsu, rm := 2, sub := 1, ops := [.reg 1, .reg 2, .reg 3] }),
   (0xE2038010, { op := .fsha, imm := -32, rm := 1, ops := [.reg 3] }),
   (0xE2211030, { op := .frnd, rm := 3, ops := [.reg 1, .reg 2] }),
   (0xE2411030, { op := .frnd, sub := 1, rm := 3, ops := [.reg 1, .reg 2] }),
   (0xE2611000, { op := .fmva, ops := [.reg 1, .reg 2] }), (0xE2811000, { op := .fmvg, ops := [.reg 1, .reg 2] }),
   (0xE407C000, { op := .bset, ops := [.reg 15, .imm (-2048)] }),
   (0xE507C000, { op := .bclr, ops := [.reg 15, .imm (-2048)] }),
   (0xE63FBFF8, { op := .btas, ops := [.reg 7, .reg 15, .imm 2047] }),
   (0xE73FBFF8, { op := .btst, ops := [.reg 7, .reg 15, .imm 2047] }),
   (0xF1FFFFFF, { op := .bfext, num := 63, ops := [.reg 7, .reg 15, .imm (-1)] }),
   (0xF9FFFFFF, { op := .bfins, num := 63, ops := [.reg 15, .imm (-1), .reg 7] }),
   (0xE8FFFFE9, { op := .bpop, ops := [.reg 7, .reg 15, .imm (-1), .reg 9] }),
   (0xECFFFFE9, { op := .bff, ops := [.reg 7, .reg 15, .imm (-1), .reg 9] })]

theorem test_decode_wordsQ : ∀ p ∈ wordsQ, sylIs p = true := by decide +kernel


/-! ## Transfers and loops (Table 6.2, spec/06) -/

theorem test_transfers :
    nextIs (.br cpu) (boot [0x4C, 0x10, 0x00] id) (fun t => (cx t).pc = 0xF000000010) = true
    ∧ nextIs (.call cpu) (boot [0x4E, 0xF0, 0xFF] id) (fun t => (cx t).pc = 0xEFFFFFFFF0 ∧ (cx t).rsp = 1
        ∧ (cx t).top = 0xF000000003) = true
    ∧ nextIs (.jmp cpu) (boot [0x52, 0x02] (srcs 0x1000 0)) (fun t => (cx t).pc = 0x1000) = true
    ∧ nextIs (.callr cpu) (boot [0x53, 0x02] (srcs 0x1000 0)) (fun t => (cx t).pc = 0x1000 ∧ (cx t).top = 0xF000000002) = true
    ∧ nextIs (.bal cpu) (boot [0x50, 0x10, 0x00, 0x01] id) (fun t => (cx t).pc = 0xF000000010 ∧ gr t 1 = 0xF000000004) = true
    ∧ nextIs (.balr cpu) (boot [0x54, 0x02, 0x02] (srcs 0x1000 0)) (fun t => (cx t).pc = 0x1000 ∧ gr t 2 = 0xF000000003) = true
    ∧ nextIs (.ret cpu) (boot [0x55] (fun c => c.push 0x2000)) (fun t => (cx t).pc = 0x2000 ∧ (cx t).rsp = 0) = true := by
  decide +kernel
/-- Whether each condition of Table 6.2 holds of −1 and 1: EQ, NE, LT, GE, LTU, GEU. -/
def condCases : List Bool := [false, true, true, false, false, true]
theorem test_conditions : ∀ k < 6, nextIs (.bcc cpu) (boot [BitVec.ofNat 8 (0x40 + k), 0x10, 0x00, 2, 3] (srcs (-1) 1))
    (fun t => (cx t).pc = if condCases.getD k false then 0xF000000010 else 0xF000000005) = true := by decide +kernel
theorem test_loop_and_lexit :
    nextIs (.loop cpu) (boot [0x56, 0x00, 0x10, 0x00, 0x02] (srcs 3 0)) (fun t => smGet (cx t).lpc 0 0 = 3
      ∧ smGet (cx t).lps 0 0 = 0xF000000005 ∧ smGet (cx t).lpe 0 0 = 0xF000000015 ∧ bitAt (cx t).csw 13 = true) = true
    ∧ nextIs (.lexit cpu) (boot [0x57, 0x00] (fun c => { c with csw := 0xE006 })) (fun t => (cx t).csw = 0x6) = true := by
  decide +kernel

theorem witness_TransfersGoToTheirTargets :
    (∀ k < 6, aloneIs (boot [BitVec.ofNat 8 (0x40 + k), 0x10, 0x00, 2, 3] (srcs (-1) (-1))) (fun i _ t =>
      i.op = .bcc ∧ i.sub = k ∧ i.ops = [.reg 2, .reg 3] ∧ (t.ctx cpu).operand (.reg 2) = some (-1)) = true)
    ∧ aloneIs (boot [0x55] (fun c => c.push 0x2000)) (fun i _ t => i.op = .ret ∧ (t.ctx cpu).rsp ≠ 0
      ∧ bitAt (t.ctx cpu).top 63 = (t.ctx cpu).wform) = true
    ∧ aloneIs (boot [0x53, 0x02] id) (fun i _ t => i.op = .callr ∧ (t.ctx cpu).pushTraps = false) = true
    ∧ aloneIs (boot [0x4E, 0x10, 0x00] id) (fun i _ t => i.op = .call ∧ (t.ctx cpu).pushTraps = false) = true := by decide +kernel
theorem witness_LinkBranchesWriteTheReturnPointer :
    aloneIs (boot [0x50, 0x10, 0x00, 0x01] id) (fun i _ t => i.op = .bal ∧ i.ops = [.reg 1] ∧ (t.ctx cpu).wform = false) = true
    ∧ aloneIs (bootW [0x9F000001, 0x81800000] id) (fun i f t => i.op = .bal ∧ i.ops = [.reg 31] ∧ (t.ctx cpu).wform = true
      ∧ (match (t.upCtx cpu (fun c => { c.goTo f.next with inEncl := f.own, delay := some {
            addr := c.pc, target := 0, taken := false, call := false, replay := false, shadow := false } })).fetch cpu with
          | .ok g _ => decide (g.next = base + 8)
          | .exc _ _ => false) = true) = true
    ∧ aloneIs (bootW [0x9F000001, 0x00618001, 0x80618001] id) (fun i f t => i.op = .bal ∧ (t.ctx cpu).wform = true
      ∧ (match (t.upCtx cpu (fun c => { c.goTo f.next with inEncl := f.own, delay := some {
            addr := c.pc, target := 0, taken := false, call := false, replay := false, shadow := false } })).fetch cpu with
          | .ok _ _ => false
          | .exc _ _ => true) = true
      ∧ (t.upCtx cpu (fun c => { c.goTo f.next with inEncl := f.own, delay := some {
            addr := c.pc, target := 0, taken := false, call := false, replay := false, shadow := false } })).bundleLen cpu = some 2) = true
    ∧ aloneIs (bootW [0x81A41180, 0x00618001, 0x80618001] id) (fun i f t => i.op = .balr ∧ i.ops = [.reg 1, .reg 3]
      ∧ (t.upCtx cpu (fun c => { c.goTo f.next with inEncl := f.own, delay := some {
            addr := c.pc, target := 0, taken := false, call := false, replay := false, shadow := false } })).bundleLen cpu = some 2) = true
    ∧ aloneIs (bootW [0x81A41180, 0x81800000] id) (fun i _ t => i.op = .balr ∧ i.ops = [.reg 1, .reg 3]
      ∧ (t.ctx cpu).wform = true) = true := by decide +kernel
theorem witness_LoopsArmAndExit :
    aloneIs (boot [0x56, 0x02, 0x10, 0x00, 0x02] (fun c => { srcs 0xFFFFFFFF 0 c with
        csw := 0x6006, lpe := [(0, 0xF000000100), (1, 0xF000000100)] }))
      (fun i f t => i.op = .loop ∧ i.sub = 2 ∧ i.ops = [.reg 2] ∧ (t.ctx cpu).operand (.reg 2) = some 0xFFFFFFFF
        ∧ (t.ctx cpu).lact 2 = false ∧ (t.ctx cpu).lact 0 = true ∧ (t.ctx cpu).lact 1 = true
        ∧ smGet (t.ctx cpu).lpe 0 0 = 0xF000000100 ∧ smGet (t.ctx cpu).lpe 0 1 = 0xF000000100 ∧ BitVec.ofNat 48 (f.next + i.num) = 0xF000000015 ∧ (t.ctx cpu).pc = 0xF000000000) = true
    ∧ aloneIs (boot [0x57, 0x02] id) (fun i _ _ => i.op = .lexit ∧ i.sub = 2) = true := by decide +kernel

/-! ## System instructions (spec/05, spec/15) -/

theorem test_system_instructions :
    nextIs (.nop cpu) (boot [0x01] id) (fun t => (cx t).pc = 0xF000000001 ∧ (cx t).g = []) = true
    ∧ nextIs (.formW cpu) (boot [0x04] id) (fun t => (cx t).pc = 0xF000000004 ∧ (cx t).csw = 7 ∧ (cx t).shadow = true) = true
    ∧ nextIs (.formB cpu) (bootW [0x81880000] id) (fun t => (cx t).pc = 0xF000000004 ∧ (cx t).csw = 6) = true
    ∧ nextIs (.mfsr cpu) (boot [0x0D, 0x07, 0x00, 0x01] id) (fun t => gr t 1 = 0x100) = true
    ∧ nextIs (.mtsr cpu) (boot [0x0E, 0x04, 0x00, 0x02] (srcs 5 0)) (fun t => (cx t).kmaskRd = 5) = true
    ∧ nextIs (.rand cpu) (boot [0x0F, 0x02, 0x03] (srcs 1 1)) (fun t => gr t 2 = 0 ∧ gr t 3 = 0) = true
    ∧ nextIs (.sync cpu) (boot [0x03] id) (fun t => (cx t).pc = 0xF000000001) = true := by decide +kernel
/-- VBR of the secure bank in SRAM. -/
def vec (c : Ctx) : Ctx := { c with bankS := { vbr := 0xF000000200 } }
/-- R355, R359: the vectors of TRAP and BKPT, with VBR in SRAM, where every pointer reads 0. -/
theorem test_trap_and_bkpt :
    nextIs (.trap cpu) (boot [0x02, 0x7F] vec) (fun t => (cx t).bankS.xpc = 0xF000000002 ∧ bitsOf (cx t).bankS.xinfo 7 0 = 0x7F) = true
    ∧ nextIs (.bkpt cpu) (boot [0x3F] vec) (fun t => (cx t).bankS.xpc = 0xF000000000 ∧ bitsOf (cx t).bankS.xinfo 7 0 = 1) = true := by
  decide +kernel

theorem witness_NopFormTrapBreakpointAndSync :
    aloneIs (boot [0x04] id) (fun i _ t => i.op = .formW ∧ (t.ctx cpu).anyLevel = false) = true
    ∧ aloneIs (bootW [0x81880000] id) (fun i _ t => i.op = .formB ∧ (t.ctx cpu).anyLevel = false) = true
    ∧ aloneIs (boot [0x02, 0xFF] id) (fun i _ t => i.op = .trap ∧ (t.ctx cpu).haltReq = false ∧ (t.ctx cpu).stopped = false) = true
    ∧ aloneIs (boot [0x3F] id) (fun i f t => i.op = .bkpt ∧ t.fromClosed f.own = false) = true
    ∧ aloneIs (boot [0x03] id) (fun i _ t => i.op = .sync ∧ t.tlbiPending cpu = false ∧ (t.drain cpu).inReset = false
      ∧ ((t.drain cpu).ctx cpu).quiet = true ∧ ((t.drain cpu).ctx cpu).storeErr = none) = true := by decide +kernel
theorem witness_SystemRegisterInstructions :
    aloneIs (boot [0x0D, 0x07, 0x00, 0x01] id) (fun i _ t => i.op = .mfsr ∧ i.ops = [.reg 1]
      ∧ (t.ctx cpu).sysGet cpu i.num = some 0x100 ∧ sysRightExc (t.ctx cpu) i.num false = none) = true
    ∧ aloneIs (boot [0x0E, 0x04, 0x00, 0x02] (srcs 5 0)) (fun i _ t => i.op = .mtsr ∧ i.ops = [.reg 2]
      ∧ (t.ctx cpu).sysGet cpu i.num = some 0 ∧ sysRightExc (t.ctx cpu) i.num true = none
      ∧ ((t.ctx cpu).sysSet i.num ((t.ctx cpu).getG 2)).atLoopEnd = false) = true
    ∧ aloneIs { boot [0x0F, 0x01, 0x02] id with drbg := { instantiated := true }, elec := { refclkOk := true } }
      (fun i _ t => i.op = .rand ∧ i.ops = [.reg 1, .reg 2] ∧ t.rngReady = true) = true
    ∧ aloneIs (boot [0x0F, 0x01, 0x02] id) (fun i _ t => i.op = .rand ∧ t.rngReady = false) = true := by decide +kernel

/-! ## Loads, stores, compare-and-swap, keys and look-aside buffers -/

/-- The value that each load of Table 6.3 gives for the bytes 0x80, 0x81, …, 0x87. -/
def loadCases : List Word :=
  [0xFFFFFFFFFFFFFF80, 0x80, 0xFFFFFFFFFFFF8180, 0x8180, 0xFFFFFFFF83828180, 0x83828180, 0x8786858483828180]
/-- Those bytes. -/
def ramp : List Byte := [0x80, 0x81, 0x82, 0x83, 0x84, 0x85, 0x86, 0x87]
theorem test_loads : ∀ k < 7, nextIs (.ld cpu) (bootD [BitVec.ofNat 8 (0x31 + k), 1, 0x42] ramp id)
    (fun t => gr t 1 = loadCases.getD k 0 ∧ gr t 2 = BitVec.ofNat 64 (dat + [1, 1, 2, 2, 4, 4, 8].getD k 0)) = true := by decide +kernel
theorem test_ldu : nextIs (.ldu cpu) (bootU [0x3D, 1, 1, 0x22] ramp id) (fun t => gr t 1 = 0x8180) = true := by decide +kernel
theorem test_load_w_form_is_late : nextIs (.ld cpu) { bootW [0xA630C008] (srcs 0 0xF000000100) with
    mem := memSetAll (leBytes 4 0xA630C008 |> memSetAll [] base) 0xF000000108 ramp }
    (fun t => gr t 6 = 0 ∧ (cx t).loads = [{ reg := 6, val := 0x8786858483828180, left := 2 }]) = true := by decide +kernel
theorem test_store_enters_buffer : nextIs (.st cpu) (bootD [0x39, 0x22, 1] [] (fun c => c.setG 1 0x12345678))
    (fun t => (cx t).storeBuf = [{ addr := dat, bytes := [0x78, 0x56], world := .secure, word := true }]
      ∧ t.memByte dat = 0) = true := by decide +kernel
theorem test_stu : nextIs (.stu cpu) (bootU [0x3E, 0, 0x22, 1] [] (fun c => c.setG 1 0x12345678))
    (fun t => ((cx t).storeBuf.map (·.bytes)) = [[0x78]]) = true := by decide +kernel
theorem test_casD : nextIs (.casD cpu) (bootD [0x3C, 1, 0x22, 4] ramp (fun c => (c.setG 1 0x8786858483828180).setG 4 9))
    (fun t => gr t 1 = 0x8786858483828180 ∧ t.memRead dat 8 = [9, 0, 0, 0, 0, 0, 0, 0]) = true
    ∧ nextIs (.casD cpu) (bootD [0x3C, 1, 0x22, 4] ramp (fun c => (c.setG 1 5).setG 4 9))
    (fun t => gr t 1 = 0x8786858483828180 ∧ t.memRead dat 8 = ramp) = true := by decide +kernel

theorem witness_LoadsReadMemory :
    (∀ k < 7, aloneIs (bootD [BitVec.ofNat 8 (0x31 + k), 1, 0x22] ramp id) (fun i f t => i.op = .ld ∧ i.sub = k
      ∧ i.ops = [.reg 1, .mem (.disp 2 0)] ∧ okIs (t.checkRead cpu (i.controls f) .read true (pagePieces dat (2 ^ (k / 2))))
        (fun ps u => ps = [(dat, 2 ^ (k / 2))] ∧ u.region dat = .sram ∧ u.inReset = false ∧ (u.ctx cpu).quiet = true) = true) = true)
    ∧ (∀ k < 4, aloneIs (bootU [0x3D, BitVec.ofNat 8 k, 1, 0x22] ramp id) (fun i f t => i.op = .ldu ∧ i.sub = k
      ∧ okIs (t.checkRead cpu { i.controls f with um := .asUser } .read true (pagePieces 0x1100 (2 ^ k)))
        (fun ps u => ps = [(dat, 2 ^ k)] ∧ u.region dat = .sram ∧ u.inReset = false ∧ (u.ctx cpu).quiet = true) = true) = true) := by
  decide +kernel
theorem witness_StoresEnterTheStoreBuffer :
    (∀ k < 4, aloneIs (bootD [BitVec.ofNat 8 (0x38 + k), 0x22, 1] [] id) (fun i f t => i.op = .st ∧ i.sub = k
      ∧ i.ops = [.mem (.disp 2 0), .reg 1] ∧ okIs (t.checkWrite cpu (i.controls f) dat (2 ^ k))
        (fun ps u => ps = [(dat, 2 ^ k)] ∧ u.storesExit cpu (2 ^ k) dat = false ∧ u.inReset = false ∧ (u.ctx cpu).quiet = true) = true) = true)
    ∧ (∀ k < 4, aloneIs (bootU [0x3E, BitVec.ofNat 8 k, 0x22, 1] [] id) (fun i f t => i.op = .stu ∧ i.sub = k
      ∧ okIs (t.checkWrite cpu { i.controls f with um := .asUser } 0x1100 (2 ^ k))
        (fun ps u => ps = [(dat, 2 ^ k)] ∧ u.storesExit cpu (2 ^ k) dat = false ∧ u.inReset = false ∧ (u.ctx cpu).quiet = true) = true) = true) := by
  decide +kernel
theorem witness_CompareAndSwapIsOneAccess :
    aloneIs (bootD [0x3C, 1, 0x22, 4] ramp id) (fun i f t => i.op = .casD ∧ i.ops = [.reg 1, .mem (.disp 2 0), .reg 4]
      ∧ okIs (t.checkRead cpu (i.controls f) .rw false (pagePieces dat 8)) (fun ps u => ps = [(dat, 8)] ∧ u.poisoned dat = false
        ∧ u.inReset = false ∧ (u.ctx cpu).quiet = true ∧ (u.ctx cpu).storeBuf = [] ∧ u.inKeyArray dat = false
        ∧ u.inKeyArray (dat + 7) = false) = true) = true := by decide +kernel

/-- A state with 1 GiB of DRAM and the key array at 0x1000. -/
def withKeys (s : State) : State :=
  ((s.setReg (.g .dramStatus) 0x11011).setReg (.d .keyBaseLo) 0x1001).setReg (.d .keyBaseHi) 0
theorem test_keys :
    nextIs (.kset cpu) (withKeys (boot [0xE0, 0x01, 0x02, 0x03] (srcs 0x5000 0x1FF))) (fun t => t.memByte 0x1005 = 0xFF) = true
    ∧ nextIs (.kget cpu) { withKeys (boot [0xE0, 0x02, 0x01, 0x02] (srcs 0x5000 0)) with
        mem := memSet (memSetAll [] base [0xE0, 0x02, 0x01, 0x02]) 0x1005 0x7F } (fun t => gr t 1 = 0x7F) = true
    ∧ nextIs (.krst cpu) { withKeys (boot [0xE0, 0x03, 0x01, 0x02] (srcs 0x5000 0)) with
        mem := memSet (memSetAll [] base [0xE0, 0x03, 0x01, 0x02]) 0x1005 0x7F }
        (fun t => gr t 1 = 0x7F ∧ t.memByte 0x1005 = 0x3F) = true := by decide +kernel
theorem test_lookaside :
    nextIs (.tlbl cpu) (boot [0xE0, 0x04, 0x02, 0x03] (srcs 15 0x5123)) (fun t =>
      (smGet (t.core 16).locked none 15).map (·.page) = some 0x5000) = true
    ∧ nextIs (.tlbi cpu) (boot [0xE0, 0x00, 0x06, 0x02, 0x03] (srcs 0x5123 0)) (fun t =>
      (t.core 16).tlbis = [{ ctx := cpu, span := 2, walk := true, va := 0x5123, sel := 0 }]) = true
    ∧ nextIs (.tlbu cpu) (boot [0xE0, 0x05, 0x02] (srcs 15 0)) (fun t => smGet (t.core 16).locked none 15 = none) = true := by
  decide +kernel

theorem witness_KeyInstructionsReachTheKeyArray : ∀ lost : Bool,
    ∀ k < 3, aloneIs ((fun s : State => if lost then s.poisonWord 0x40FF8 else s)
        (withKeys (boot [0xE0, BitVec.ofNat 8 (k + 1), 0x02, 0x02] (srcs 0x3FFFFFFF 0)))) (fun i _ t =>
      i.op = [.kset, .kget, .krst].getD k .nop ∧ i.ops = [.reg 2, .reg 2] ∧ (t.ctx cpu).isUser = false
      ∧ ((t.ctx cpu).getG 2).toNat < t.dramSize ∧ (t.ctx cpu).world = .secure ∧ t.upset = [] ∧ t.keyV = true
      ∧ t.poisoned (t.keyBase + 0x3FFFF) = lost) = true := by decide +kernel
theorem witness_LookasideInstructionsComplete :
    aloneIs (boot [0xE0, 0x04, 0x02, 0x03] (srcs 15 0x5123)) (fun i f t => i.op = .tlbl ∧ i.ops = [.reg 2, .reg 3]
      ∧ (t.ctx cpu).isUser = false ∧ okIs (t.lockTarget (envOf t cpu f 0) 15 0x5123) (fun _ u => u.inReset = false ∧ (u.ctx cpu).quiet = true) = true) = true
    ∧ aloneIs (boot [0xE0, 0x05, 0x02] id) (fun i _ t => i.op = .tlbu ∧ i.ops = [.reg 2] ∧ (t.ctx cpu).isUser = false) = true
    ∧ aloneIs (boot [0xE0, 0x00, 0x06, 0x02, 0x03] id) (fun i _ t => i.op = .tlbi ∧ i.ops = [.reg 2, .reg 3]
      ∧ (t.ctx cpu).isUser = false ∧ (t.core (coreOf cpu)).tlbis.length < 4 ∧ i.num = 6) = true := by decide +kernel

/-! ## Packed decimal (spec/07) -/

/-- D1 holds −7 and D2 holds +2. -/
def decs (c : Ctx) : Ctx := (c.setD 1 0x7D).setD 2 0x2C
theorem test_decimal_registers : ∀ p ∈ ([(0x70, (.dadd ·), 0x5D), (0x71, (.dsub ·), 0x9D), (0x74, (.dmul ·), 0x14D),
    (0x75, (.ddiv ·), 0x3D), (0x76, (.drem ·), 0x1D)] : List (Nat × (CtxId → Instr) × BitVec 128)), nextIs (p.2.1 cpu) (boot [BitVec.ofNat 8 p.1, 0, 1, 2] decs)
    (fun t => (cx t).getD 0 = p.2.2 ∧ (cx t).dstat = 0) = true := by decide +kernel
theorem test_decimal_one_source :
    nextIs (.dneg cpu) (boot [0x72, 0, 1] decs) (fun t => (cx t).getD 0 = 0x7C) = true
    ∧ nextIs (.dabs cpu) (boot [0x73, 0, 1] decs) (fun t => (cx t).getD 0 = 0x7C) = true
    ∧ nextIs (.dsrr cpu) (boot [0x77, 0x7F, 0, 1] decs) (fun t => (cx t).getD 0 = 0x1D ∧ (cx t).dstat = 2) = true
    ∧ nextIs (.dcmp cpu) (boot [0x78, 4, 1, 2] decs) (fun t => gr t 4 = -1) = true
    ∧ nextIs (.dmov cpu) (boot [0x79, 0, 1] decs) (fun t => (cx t).getD 0 = 0x7D) = true
    ∧ nextIs (.cvbd cpu) (boot [0x7A, 0, 2] (srcs (2 ^ 63) 0)) (fun t => (cx t).getD 0 = 0x9223372036854775808D) = true
    ∧ nextIs (.cvdb cpu) (boot [0x7B, 4, 1] decs) (fun t => gr t 4 = -7) = true
    ∧ nextIs (.dbcc cpu) (boot [0x63, 0x10, 0x00, 1, 2] decs) (fun t => (cx t).pc = 0xF000000010) = true := by decide +kernel
/-- Operand 1 is +15 in two bytes, operand 2 is −6. -/
def packs : List Byte := [0x01, 0x5C, 0, 0, 0, 0, 0, 0, 0, 0, 0, 0, 0, 0, 0, 0, 0x00, 0x6D]
theorem test_decimal_memory : ∀ p ∈ ([(0x58, (.movp ·), [0x00, 0x6D]), (0x5A, (.addp ·), [0x00, 0x9C]),
    (0x5B, (.subp ·), [0x02, 0x1C]), (0x5C, (.mulp ·), [0x09, 0x0D]), (0x5D, (.divp ·), [0x00, 0x2D]),
    (0x60, (.unpka ·), [0x30, 0x36])] : List (Nat × (CtxId → Instr) × List Byte)), nextIs (p.2.1 cpu) (bootD [BitVec.ofNat 8 p.1, 0x11, 0x22, 0x23] packs id)
    (fun t => (cx t).storeBuf.map (·.bytes) = [p.2.2] ∧ (cx t).dstat = 0) = true := by decide +kernel
theorem test_decimal_memory_rest :
    nextIs (.cmpp cpu) (bootD [0x59, 0x11, 1, 0x22, 0x23] packs id) (fun t => gr t 1 = 1) = true
    ∧ nextIs (.packa cpu) (bootD [0x5F, 0x11, 0x22, 0x23] ((List.replicate 16 (0 : Byte)) ++ [0x34, 0x32]) id)
      (fun t => (cx t).storeBuf.map (·.bytes) = [[0x04, 0x2C]]) = true
    ∧ nextIs (.shrp cpu) (bootD [0x5E, 0x11, 0x22, 0xE0, 0xFF] packs id)
      (fun t => (cx t).storeBuf.map (·.bytes) = [[0x00, 0x2C]] ∧ (cx t).dstat = 2) = true
    ∧ nextIs (.dld cpu) (bootD [0x7C, 0x01, 5, 0x22] packs id) (fun t => (cx t).getD 5 = 0x15C) = true
    ∧ nextIs (.dst cpu) (bootD [0x7D, 0x01, 0x22, 1] packs decs) (fun t => (cx t).storeBuf.map (·.bytes) = [[0x00, 0x7D]]) = true := by
  decide +kernel

theorem witness_DecimalRegisterResults :
    (∀ p ∈ [0x70, 0x71, 0x74, 0x75, 0x76, 0x78], aloneIs (boot [BitVec.ofNat 8 p, 0, 1, 2] decs) (fun i _ t => i.ops = [.reg 0, .reg 1, .reg 2]
      ∧ (t.ctx cpu).validD [1, 2] = true ∧ (t.ctx cpu).decValue 1 = -7 ∧ (t.ctx cpu).decValue 2 = 2) = true)
    ∧ aloneIs (boot [0x77, 0x60, 0, 1] decs) (fun i _ t => i.op = .dsrr ∧ i.imm = -32 ∧ i.rm = 1 ∧ (t.ctx cpu).validD [1] = true) = true
    ∧ aloneIs (boot [0x77, 0x1F, 0, 1] decs) (fun i _ t => i.op = .dsrr ∧ i.imm = 31 ∧ (t.ctx cpu).validD [1] = true) = true
    ∧ aloneIs (boot [0x7B, 4, 1] (fun c => c.setD 1 0x9223372036854775808C)) (fun i _ t => i.op = .cvdb
      ∧ (t.ctx cpu).validD [1] = true ∧ (t.ctx cpu).decValue 1 = 2 ^ 63 ∧ (t.ctx cpu).dovt = false) = true
    ∧ (∀ k < 4, aloneIs (boot [BitVec.ofNat 8 (0x61 + k), 0x10, 0x00, 1, 2] decs) (fun i _ t => i.op = .dbcc ∧ i.sub = k
      ∧ i.ops = [.reg 1, .reg 2] ∧ (regData (t.ctx cpu) 1 [1, 2]).isNone = true) = true) := by decide +kernel
/-- The result of DecimalRegisterResults at the edge of the capacity: 10^31 − 1 fits, and 10^31 overflows to 0. -/
theorem witness_DecimalCapacity :
    ({} : Ctx).decResult (10 ^ 31 - 1) = some (0x9999999999999999999999999999999C, false)
    ∧ ({} : Ctx).decResult (10 ^ 31) = some (0xC, true) ∧ roundsTo 1 (-15) 10 (-2) ∧ roundsTo 2 (-15) 10 (-2) ∧ roundsTo 0 (-15) 10 (-1)
    ∧ roundsTo 3 11 10 2 := by
  refine ⟨by decide +kernel, by decide +kernel, ?_, ?_, ?_, ?_⟩ <;> simp [roundsTo]

/-- The two operands of a memory decimal instruction at `dat` and 16 bytes after it pass every check of DecimalMemoryResults. -/
def packOk (k : Kind) (i : Ins) (f : Fetched) (t : State) : Bool :=
  okIs (t.xlatePieces cpu (i.controls f) k (pagePieces dat i.l1)) (fun p1 u =>
    okIs (u.xlatePieces cpu (i.controls f) .read (pagePieces (dat + 16) i.l2)) (fun p2 v =>
      okIs (v.readPhase cpu k ((pagePieces dat i.l1).zip p1)) (fun _ w => w = v) = true
      ∧ okIs (v.readPhase cpu .read ((pagePieces (dat + 16) i.l2).zip p2)) (fun _ w => w = v) = true
      ∧ v.inReset = false ∧ (v.ctx cpu).quiet = true ∧ badNibble (memNibbles (v.peekPieces cpu p1)) = none
      ∧ badNibble (memNibbles (v.peekPieces cpu p2)) = none) = true)
theorem witness_DecimalMemoryResults :
    (∀ p ∈ [0x58, 0x5A, 0x5B, 0x5C, 0x5D, 0x60], aloneIs (bootD [BitVec.ofNat 8 p, 0x11, 0x22, 0x23] packs id) (fun i f t =>
      i.l1 = 2 ∧ i.l2 = 2 ∧ opsAre t f i 0 [.mem dat, .mem (dat + 16)] = true
      ∧ packOk (if i.op = .movp ∨ i.op = .unpka then .write else .rw) i f t = true) = true)
    ∧ aloneIs (bootD [0x59, 0x11, 1, 0x22, 0x23] packs id) (fun i f t => i.op = .cmpp
      ∧ opsAre t f i 0 [.reg 1 0, .mem dat, .mem (dat + 16)] = true ∧ packOk .read i f t = true) = true
    ∧ badChar [0x34, 0x32] = none ∧ memValue [0x01, 0x0C] = 10 ^ 1 := by decide +kernel
theorem witness_ShrpShiftsAndRounds :
    aloneIs (bootD [0x5E, 0x11, 0x22, 0xE0, 0xFF] packs id) (fun i f t => i.op = .shrp ∧ i.l1 = 2 ∧ i.rm = 1
      ∧ opsAre t f i 0 [.mem dat, .imm (-1)] = true ∧ okIs (t.xlatePieces cpu (i.controls f) .rw (pagePieces dat i.l1)) (fun ps u =>
        okIs (u.readPhase cpu .rw ((pagePieces dat i.l1).zip ps)) (fun _ w => w = u) = true ∧ u.inReset = false
        ∧ (u.ctx cpu).quiet = true ∧ badNibble (memNibbles (u.peekPieces cpu ps)) = none ∧ memValue (u.peekPieces cpu ps) = 15) = true) = true
    ∧ shrpCount (-1) = -1 := by decide +kernel
theorem witness_DecimalLoadStoreAndDelivery :
    aloneIs (bootD [0x7C, 0x0F, 5, 0x22] packs id) (fun i f t => i.op = .dld ∧ i.l1 = 16 ∧ opsAre t f i 0 [.reg 5 0, .mem dat] = true
      ∧ okIs (t.checkRead cpu (i.controls f) .read false (pagePieces dat 16)) (fun _ u => u.inReset = false ∧ (u.ctx cpu).quiet = true)
        = true) = true
    ∧ aloneIs (bootD [0x7D, 0x00, 0x22, 1] packs decs) (fun i f t => i.op = .dst ∧ i.l1 = 1 ∧ opsAre t f i 0 [.mem dat, .reg 1 0] = true
      ∧ okIs (t.checkWrite cpu (i.controls f) dat 1) (fun _ u => u.inReset = false ∧ (u.ctx cpu).quiet = true) = true
      ∧ (t.ctx cpu).validD [1] = true ∧ (deliver (t.ctx cpu) ((t.ctx cpu).decValue 1) 1).isSome = true) = true := by decide +kernel

/-! ## Fractions and bits (spec/09) -/

/-- FSAT set. -/
def sat (c : Ctx) : Ctx := { c with csw := 0x406 }
theorem test_fraction_results :
    nextIs (.fadd cpu) (boot [0x90, 1, 2, 3] (fun c => sat (srcs 0x7FFF 1 c))) (fun t => gr t 1 = 0x7FFF ∧ (cx t).fstat = 1) = true
    ∧ nextIs (.fsub cpu) (boot [0x93, 1, 2, 3] (srcs 0x80000000 (-1))) (fun t => gr t 1 = 0xFFFFFFFF80000001 ∧ (cx t).fstat = 0) = true
    ∧ nextIs (.fneg cpu) (boot [0x94, 1, 2] (fun c => sat (srcs 0x8000 0 c))) (fun t => gr t 1 = 0x7FFF ∧ (cx t).fstat = 1) = true
    ∧ nextIs (.fabs cpu) (boot [0x96, 1, 2] (srcs 0xFFFF 0)) (fun t => gr t 1 = 1) = true
    ∧ nextIs (.fmul cpu) (boot [0x98, 0, 1, 2, 3] (srcs 0x4000 0xC000)) (fun t => gr t 1 = 0xFFFFFFFFFFFFE000) = true
    ∧ nextIs (.fmac cpu) (boot [0x9A, 0, 3, 2, 3] (srcs 0x4000 0x4000)) (fun t => (cx t).getA 3 = 0x20000000) = true
    ∧ nextIs (.fmsu cpu) (boot [0x9D, 0, 3, 2, 3] (srcs 0x40000000 0x40000000)) (fun t => (cx t).getA 3 = 0xFFE0000000) = true
    ∧ nextIs (.facl cpu) (boot [0x9E, 0, 2] (srcs 0x8000 0)) (fun t => (cx t).getA 0 = 0xFF80000000) = true := by decide +kernel
/-- Table 9.2: reading out accumulators, with FSAT set. -/
theorem test_fraction_table :
    nextIs (.frnd cpu) (boot [0xA1, 0, 1, 0] (fun c => sat (c.setA 0 0x40008000))) (fun t => gr t 1 = 0x4000 ∧ (cx t).fstat = 0) = true
    ∧ nextIs (.frnd cpu) (boot [0xA1, 1, 1, 0] (fun c => sat (c.setA 0 0x40008000))) (fun t => gr t 1 = 0x4001) = true
    ∧ nextIs (.frnd cpu) (boot [0xA1, 2, 1, 0] (fun c => sat (c.setA 0 0x40008000))) (fun t => gr t 1 = 0x4000) = true
    ∧ nextIs (.frnd cpu) (boot [0xA1, 3, 1, 0] (fun c => sat (c.setA 0 0x40008000))) (fun t => gr t 1 = 0x4001) = true := by
  decide +kernel
/-- Table 9.2 for values below 0 and beyond the format. -/
theorem test_fraction_table_signs :
    nextIs (.frnd cpu) (boot [0xA1, 1, 1, 0] (fun c => sat (c.setA 0 0xFFBFFF8000))) (fun t => gr t 1 = 0xFFFFFFFFFFFFBFFF) = true
    ∧ nextIs (.frnd cpu) (boot [0xA1, 0, 1, 0] (fun c => sat (c.setA 0 0xFFBFFF8000))) (fun t => gr t 1 = 0xFFFFFFFFFFFFC000) = true
    ∧ nextIs (.frnd cpu) (boot [0xA2, 2, 1, 0] (fun c => sat (c.setA 0 0x90000000))) (fun t => gr t 1 = 0x7FFFFFFF
        ∧ (cx t).fstat = 1) = true := by decide +kernel
theorem test_accumulator_moves :
    nextIs (.fsha cpu) (boot [0xA0, 0x7F, 2] (fun c => c.setA 2 0xFFFFFFFFFD)) (fun t => (cx t).getA 2 = 0xFFFFFFFFFE) = true
    ∧ nextIs (.fmva cpu) (boot [0xA3, 1, 2] (fun c => c.setA 2 0x8000000000)) (fun t => gr t 1 = 0xFFFFFF8000000000) = true
    ∧ nextIs (.fmvg cpu) (boot [0xA4, 2, 3] (srcs 0 (-1))) (fun t => (cx t).getA 2 = 0xFFFFFFFFFF) = true := by decide +kernel

/-- A bit space of 2^15 bits from the bottom of SRAM, G2 the bit address of the data byte and G3 a length. -/
def bits (n : Word) (c : Ctx) : Ctx := { srcs 0x800 n c with bitspace := 0xF00000000F }
/-- `boot` with that bit space and data. -/
def bootB (code data : List Byte) (n : Word) : State :=
  let s := boot code (bits n)
  { s with mem := memSetAll s.mem dat data }
theorem test_bit_results :
    nextIs (.bset cpu) (bootB [0xA8, 2, 0xE0, 9] [] 0) (fun t => t.memByte (dat + 1) = 2) = true
    ∧ nextIs (.bclr cpu) (bootB [0xA9, 2, 0xE0, 0] [0xFF] 0) (fun t => t.memByte dat = 0xFE) = true
    ∧ nextIs (.btas cpu) (bootB [0xAA, 1, 2, 0xE0, 0] [1] 0)
      (fun t => t.memByte dat = 1 ∧ gr t 1 = 1) = true
    ∧ nextIs (.btst cpu) (bootB [0xAB, 1, 2, 0xE0, 1] [1] 0) (fun t => gr t 1 = 0) = true
    ∧ nextIs (.bfext cpu) (bootB [0xAC, 7, 1, 2, 0xE0, 4] [0xA0, 0x05] 0) (fun t => gr t 1 = 0x5A) = true
    ∧ nextIs (.bfins cpu) (bootB [0xAD, 7, 2, 0xE0, 4, 3] [0xFF, 0xFF] 0)
      (fun t => t.memRead dat 2 = [0x0F, 0xF0]) = true
    ∧ nextIs (.bpop cpu) (bootB [0xAE, 1, 2, 0xE0, 0, 3] [0xFF, 0xFF] 9) (fun t => gr t 1 = 9) = true
    ∧ nextIs (.bff cpu) (bootB [0xAF, 1, 2, 0xE0, 0, 3] [0, 4] 16)
      (fun t => gr t 1 = 0x800000000000000A) = true
    ∧ nextIs (.bbs cpu) (bootB [0x69, 0x10, 0, 2, 0xE0, 0] [1] 0) (fun t => (cx t).pc = 0xF000000010) = true
    ∧ nextIs (.bbc cpu) (bootB [0x6A, 0x10, 0, 2, 0xE0, 0] [1] 0)
      (fun t => (cx t).pc = 0xF000000006) = true := by decide +kernel

theorem witness_FractionResults :
    (∀ p ∈ ([(0x90, .fadd), (0x92, .fsub), (0x98, .fmul), (0x9A, .fmac), (0x9C, .fmsu)] : List (Nat × Op)), ∀ k < 2,
      aloneIs (boot ([BitVec.ofNat 8 (p.1 + k)] ++ (if p.1 < 0x98 then [] else [3]) ++ [1, 2, 3]) id) (fun i _ _ => i.op = p.2 ∧ i.sub = k
        ∧ i.ops = [.reg 1, .reg 2, .reg 3]) = true)
    ∧ (∀ p ∈ ([(0x94, .fneg), (0x96, .fabs), (0x9E, .facl), (0xA3, .fmva)] : List (Nat × Op)),
      aloneIs (boot [BitVec.ofNat 8 p.1, 1, 2] id) (fun i _ _ => i.op = p.2 ∧ i.sub = 0 ∧ i.ops = [.reg 1, .reg 2]) = true)
    ∧ aloneIs (boot [0xA0, 0x20, 2] id) (fun i _ _ => i.op = .fsha ∧ i.imm = -32 ∧ i.ops = [.reg 2] ∧ i.sub = 0) = true := by decide +kernel
/-- An edge of each rounding mode, and both saturations at 16 bits. -/
theorem witness_FractionRounding :
    roundsTo 0 (-3) 2 (-1) ∧ roundsTo 1 3 2 2 ∧ roundsTo 2 5 2 2 ∧ roundsTo 3 5 4 2
    ∧ (∃ c : Ctx, saturates c (2 ^ 15) 16 (2 ^ 15 - 1) true ∧ saturates c (-(2 ^ 15) - 1) 16 (-(2 ^ 15)) true)
    ∧ saturates {} (2 ^ 15 - 1) 16 (2 ^ 15 - 1) false ∧ saturates {} (-(2 ^ 15)) 16 (-(2 ^ 15)) false := by
  refine ⟨?_, ?_, ?_, ?_, ⟨sat {}, Or.inr ⟨by decide, ?_⟩, Or.inr ⟨by decide, ?_⟩⟩, ?_, ?_⟩ <;> simp [roundsTo, saturates]

/-- The bytes of bits `b` to `b + w - 1` of the bit space pass the checks of a bit instruction. -/
def bitsOk (k : Kind) (b w : Nat) (i : Ins) (f : Fetched) (t : State) : Bool :=
  (t.ctx cpu).bitOn && decide (b + w ≤ 2 ^ (t.ctx cpu).bitLog)
    && okIs (t.checkRead cpu (i.controls f) k false (pagePieces ((t.ctx cpu).bitBase + b / 8) (if w = 0 then 0 else (b + w - 1) / 8 + 1 - b / 8)))
      (fun _ u => u.inReset = false ∧ (u.ctx cpu).quiet = true ∧ (u.ctx cpu).storeBuf = [])
/-- Bit reads with the first and last bits of the space, an empty range and the widest field. -/
theorem witness_BitReadsGiveTheirBits :
    aloneIs (bootB [0xAB, 1, 0, 0xE0, 0] [] 0) (fun i f t => i.op = .btst ∧ opsAre t f i 0 [.reg 1 0, .reg 0 0, .imm 0] = true
      ∧ bitsOk .read 0 1 i f t = true) = true
    ∧ aloneIs (bootB [0xAC, 63, 1, 2, 0xE0, 5] [] 0) (fun i f t => i.op = .bfext ∧ i.num = 63
      ∧ opsAre t f i 0 [.reg 1 0, .reg 2 0x800, .imm 5] = true ∧ bitsOk .read 0x805 64 i f t = true) = true
    ∧ aloneIs (bootB [0xAE, 1, 2, 0xE0, 0, 3] [] 4096) (fun i f t => i.op = .bpop
      ∧ opsAre t f i 0 [.reg 1 0, .reg 2 0x800, .imm 0, .reg 3 4096] = true ∧ bitsOk .read 0x800 4096 i f t = true) = true
    ∧ aloneIs (bootB [0xAF, 1, 2, 0xE0, 0, 3] [] 0) (fun i f t => i.op = .bff
      ∧ opsAre t f i 0 [.reg 1 0, .reg 2 0x800, .imm 0, .reg 3 0] = true ∧ bitsOk .read 0x800 0 i f t = true) = true
    ∧ aloneIs (bootB [0x69, 0x10, 0, 2, 0xE2, 0xFF, 0x77, 0, 0] [] 0) (fun i f t => i.op = .bbs
      ∧ opsAre t f i 0 [.reg 2 0x800, .imm 0x77FF] = true ∧ bitsOk .read 0x7FFF 1 i f t = true) = true
    ∧ aloneIs (bootB [0x6A, 0x10, 0, 2, 0xE0, 0] [] 0) (fun i f t => i.op = .bbc ∧ bitsOk .read 0x800 1 i f t = true) = true := by decide +kernel
theorem witness_BitWritesReplaceTheirBits :
    (∀ p ∈ ([(0xA8, .bset), (0xA9, .bclr)] : List (Nat × Op)), aloneIs (bootB [BitVec.ofNat 8 p.1, 2, 0xE0, 9] [] 0) (fun i f t => i.op = p.2
      ∧ opsAre t f i 0 [.reg 2 0x800, .imm 9] = true ∧ bitsOk .rw 0x809 1 i f t = true) = true)
    ∧ aloneIs (bootB [0xAA, 1, 2, 0xE0, 9] [] 0) (fun i f t => i.op = .btas ∧ bitsOk .rw 0x809 1 i f t = true) = true
    ∧ aloneIs (bootB [0xAD, 63, 2, 0xE0, 5, 3] [] 7) (fun i f t => i.op = .bfins ∧ i.num = 63
      ∧ opsAre t f i 0 [.reg 2 0x800, .imm 5, .reg 3 7] = true ∧ bitsOk .rw 0x805 64 i f t = true) = true := by decide +kernel

/-! ## Strings (spec/08) -/

/-- The source field of the example of spec/08 at `dat` and its pattern 16 bytes after it; the translation of 5 is 9. -/
def editData : List Byte :=
  [0x00, 0x01, 0x23, 0x45, 0x6D, 0, 0, 0, 0, 0, 0, 0, 0, 0, 0, 0,
   0x04, 0x01, 0x01, 0x01, 0x01, 0x2C, 0x01, 0x01, 0x02, 0x05, 0x01, 0x01]
/-- The destination 32 bytes after `dat` in G4, and G5 holds L, FILL, POINT and MINUS. -/
def editRegs (c : Ctx) : Ctx := (c.setG 4 0xF000000120).setG 5 0x002D2E200000000C
/-- The bytes that context 64 has put into its store buffer. -/
def stored (t : State) : List Byte := (cx t).storeBuf.flatMap (·.bytes)
theorem test_edit_example : nextIs (.edit cpu 0) (bootD [0x85, 4, 2, 3, 5] editData editRegs)
    (fun t => stored t = [0x2D, 0x20, 0x20, 0x20, 0x31, 0x2C, 0x32, 0x33, 0x34, 0x2E, 0x35, 0x36] ∧ (cx t).strx = []) = true := by
  decide +kernel
theorem test_edpos_example : nextIs (.edpos cpu 0) (bootD [0x86, 6, 4, 2, 3, 5] editData editRegs)
    (fun t => gr t 6 = 0x8000000100000004) = true := by decide +kernel
theorem test_string_results :
    nextIs (.mvst cpu 0) (bootD [0x80, 3, 2, 4] ramp (fun c => c.setG 4 3)) (fun t => stored t = [0x80, 0x81, 0x82]) = true
    ∧ nextIs (.mvstU cpu 0) (bootD [0x81, 3, 2, 4] ramp (fun c => c.setG 4 3)) (fun t => stored t = [0x80, 0x81, 0x82]) = true
    ∧ nextIs (.trst cpu 0) (bootD [0x82, 4, 2, 3, 5] ([2] ++ List.replicate 15 0 ++ [7, 8, 9]) (fun c => (c.setG 4 0xF000000120).setG 5 1))
      (fun t => stored t = [9]) = true
    ∧ nextIs (.scns cpu 0) (bootD [0x83, 4, 2, 3, 5] ([2, 0] ++ List.replicate 14 0 ++ [0, 8, 9]) (fun c => c.setG 5 4))
      (fun t => gr t 4 = 0x8000000900000000) = true
    ∧ nextIs (.cmps cpu 0) (bootD [0x84, 4, 2, 3, 5] ([1, 2] ++ List.replicate 14 0 ++ [1, 3]) (fun c => c.setG 5 2))
      (fun t => gr t 4 = 0xFFFFFFFF00000001) = true := by decide +kernel
theorem test_mvst_pauses_after_a_step : nextIs (.mvst cpu 1) (bootD [0x80, 3, 2, 4] ramp (fun c => c.setG 4 65)) (fun t =>
    (cx t).pc = 0xF000000000 ∧ (cx t).sip = true ∧ smGet (cx t).strx 0 0 = 64 ∧ smGet (cx t).strx 0 3 = 1) = true := by decide +kernel

/-- A byte read passes its checks and gives the byte. -/
def byteOk (i : Ins) (f : Fetched) (t : State) (va : Nat) (b : Byte) : Bool :=
  okIs (t.xlate cpu (i.controls f) .read va) (fun pa u => u = t ∧ pa = va ∧ u.refused cpu .read pa 1 = false ∧ u.region pa = .sram
    ∧ u.readPoison cpu pa = false ∧ u.peekByte cpu pa = b)
/-- A byte write passes its checks. -/
def putOk (i : Ins) (f : Fetched) (t : State) (va : Nat) : Bool :=
  okIs (t.xlate cpu (i.controls f) .write va) (fun pa u => u = t ∧ pa = va ∧ u.readPoison cpu pa = false ∧ u.inReset = false
    ∧ (u.ctx cpu).quiet = true)
theorem witness_StringsOfNoBytes :
    (∀ p ∈ ([(0x80, .mvst), (0x81, .mvstU)] : List (Nat × Op)), aloneIs (boot [BitVec.ofNat 8 p.1, 2, 3, 4] (fun c => c.setG 4 (2 ^ 32 : Nat)))
      (fun i f t => i.op = p.2 ∧ opsAre t f i 0 [.reg 2 0, .reg 3 0, .reg 4 0x100000000] = true) = true)
    ∧ (∀ p ∈ ([(0x82, .trst), (0x83, .scns), (0x84, .cmps), (0x85, .edit)] : List (Nat × Op)), aloneIs (boot [BitVec.ofNat 8 p.1, 2, 3, 4, 5] id)
      (fun i f t => i.op = p.2 ∧ opsAre t f i 0 [.reg 2 0, .reg 3 0, .reg 4 0, .reg 5 0] = true) = true)
    ∧ aloneIs (boot [0x86, 1, 2, 3, 4, 5] id) (fun i f t => i.op = .edpos
      ∧ opsAre t f i 0 [.reg 1 0, .reg 2 0, .reg 3 0, .reg 4 0, .reg 5 0] = true) = true := by decide +kernel
theorem witness_StringsAndEditsOfOneByte :
    (∀ p ∈ ([(0x80, .mvst), (0x81, .mvstU)] : List (Nat × Op)), aloneIs (bootD [BitVec.ofNat 8 p.1, 3, 2, 4] [5] (fun c => c.setG 4 1))
      (fun i f t => i.op = p.2 ∧ opsAre t f i 0 [.reg 3 0xF000000110, .reg 2 0xF000000100, .reg 4 1] = true
        ∧ byteOk i f t dat 5 = true ∧ putOk i f t (dat + 16) = true) = true)
    ∧ (∀ p ∈ ([(0x82, .trst), (0x83, .scns)] : List (Nat × Op)), aloneIs (bootD [BitVec.ofNat 8 p.1, 4, 2, 3, 5] [3] (fun c => (c.setG 4 0xF000000120).setG 5 1))
      (fun i f t => i.op = p.2 ∧ opsAre t f i 0 [.reg 4 0xF000000120, .reg 2 0xF000000100, .reg 3 0xF000000110, .reg 5 1] = true
        ∧ byteOk i f t dat 3 = true ∧ byteOk i f t (dat + 19) 0 = true ∧ putOk i f t (dat + 32) = true) = true)
    ∧ aloneIs (bootD [0x84, 4, 2, 3, 5] [3] (fun c => c.setG 5 1)) (fun i f t => i.op = .cmps
      ∧ opsAre t f i 0 [.reg 4 0, .reg 2 0xF000000100, .reg 3 0xF000000110, .reg 5 1] = true
      ∧ byteOk i f t dat 3 = true ∧ byteOk i f t (dat + 16) 0 = true) = true := by decide +kernel
/-- A literal pattern byte, and a trigger digit slot over the field 7C. -/
theorem witness_EditsOfOneByte :
    aloneIs (bootD [0x85, 4, 2, 3, 5] (List.replicate 16 0 ++ [6]) (fun c => (c.setG 4 0xF000000120).setG 5 1)) (fun i f t => i.op = .edit
      ∧ opsAre t f i 0 [.reg 4 0xF000000120, .reg 2 0xF000000100, .reg 3 0xF000000110, .reg 5 1] = true
      ∧ byteOk i f t (dat + 16) 6 = true ∧ putOk i f t (dat + 32) = true) = true
    ∧ aloneIs (bootD [0x86, 6, 4, 2, 3, 5] (0x7C :: List.replicate 15 0 ++ [2]) (fun c => (c.setG 4 0xF000000120).setG 5 1)) (fun i f t =>
      i.op = .edpos ∧ opsAre t f i 0 [.reg 6 0, .reg 4 0xF000000120, .reg 2 0xF000000100, .reg 3 0xF000000110, .reg 5 1] = true
      ∧ byteOk i f t (dat + 16) 2 = true ∧ byteOk i f t dat 0x7C = true ∧ putOk i f t (dat + 32) = true) = true := by decide +kernel
theorem witness_LongStringsPauseBetweenSteps : aloneIs (bootD [0x80, 3, 2, 4] ramp (fun c => c.setG 4 65)) (fun i f t => i.op = .mvst
    ∧ opsAre t f i 1 [.reg 3 0xF000000110, .reg 2 0xF000000100, .reg 4 65] = true
    ∧ okIs (strStep (movePos (envOf t cpu f 1) (i.controls f) 0xF000000110 0xF000000100) {} {} (List.range 64) t) (fun r u =>
      (match r.1 with
       | .all _ => true
       | _ => false) = true ∧ r.2.partPoison u cpu = none ∧ u.inReset = false ∧ (u.ctx cpu).stepping = false) = true) = true := by decide +kernel

/-! ## Spoonbill (spec/09) -/

theorem test_spoonbill_instructions :
    nextIs (.spbGo cpu) (bootTen [0xB0, 1, 2] (srcs 0xF000000100 0)) (fun t => gr t 1 = 0 ∧ t.ticket 5 0 = .busy
      ∧ (t.unit 1).length = 1) = true
    ∧ nextIs (.spbWait cpu) ((bootTen [0xB1, 1, 2] (srcs 3 0)).setTicket 5 3 (.done 0x20101)) (fun t => gr t 1 = 0x20101
      ∧ t.ticket 5 3 = .free) = true
    ∧ nextIs (.spbWait cpu) ((bootTen [0xB2, 1, 2] (srcs 3 0)).setTicket 5 3 .busy) (fun t => gr t 1 = 0x0100000000000000) = true
    ∧ nextIs (.spbWait cpu) ((bootTen [0xB1, 1, 2] (srcs 3 0)).setTicket 5 3 .busy) (fun t => (cx t).pc = 0xF000000000) = true := by
  decide +kernel
theorem witness_SpoonbillInstructionsComplete :
    aloneIs (bootTen [0xB0, 1, 2] (srcs 0xF000000100 0)) (fun i f t => i.op = .spbGo ∧ (t.ctx cpu).ten = true
      ∧ opsAre t f i 0 [.reg 1 0, .reg 2 0xF000000100] = true ∧ okIs (t.checkRead cpu { own := f.own } .rw false (pagePieces dat 64))
        (fun _ u => u.inReset = false ∧ (u.ctx cpu).quiet = true ∧ u.freeTicket 5 = some 0 ∧ u.unit 1 = []) = true) = true
    ∧ aloneIs ((List.range 4).foldl (fun s k => s.setTicket 5 k .busy) (bootTen [0xB0, 1, 2] (srcs 0xF000000100 0))) (fun i _ t =>
      i.op = .spbGo ∧ t.freeTicket 5 = none) = true
    ∧ aloneIs ((bootTen [0xB1, 1, 2] id).setTicket 5 0 (.done 1)) (fun i _ t => i.op = .spbWait ∧ i.sub = 0 ∧ t.ticket 5 0 = .done 1) = true
    ∧ aloneIs ((bootTen [0xB2, 1, 2] id).setTicket 5 0 .busy) (fun i _ t => i.op = .spbWait ∧ i.sub = 1 ∧ t.ticket 5 0 = .busy) = true := by
  decide +kernel

/-- Secure tables that map the first 2 MiB of addresses to SRAM, with a map of 2 rows of 4 bits at 0x200: 1111 and 0001. -/
def mapped : State :=
  let s := ((boot [] id).setReg (.d .secRootLo) 0x1001).setReg (.d .secRootHi) 0xF0
  let m := memSetAll (memSetAll [] 0xF000000200 [0xF, 0, 0, 0, 0, 0, 0, 0, 1]) 0xF000000400 [0, 0, 0, 0]
  let m := memSetAll (memSetAll m 0xF000001000 (leBytes 8 0xF000002003)) 0xF000002000 (leBytes 8 0xF000003003)
  { s with mem := memSetAll m 0xF000003000 (leBytes 8 0xF00000002D) }
/-- A descriptor over that map, with one spare row and one spare column, accepted from tenant 5 in the secure world. -/
def spbCmd (op : Nat) : SpbCmd :=
  { tenant := 5, ticket := 2, addr := 0xF000000400, csw := 0x6, kmaskRd := 0, kmaskWr := 0, bitspace := 0xF,
    desc := leBytes 8 op ++ leBytes 4 0x1000 ++ leBytes 4 64 ++ leBytes 4 0 ++ leBytes 2 4 ++ leBytes 2 2 ++ leBytes 8 0x300
      ++ leBytes 8 0x310 ++ leBytes 2 1 ++ leBytes 2 1 ++ leBytes 4 0 ++ leBytes 8 0x320 ++ leBytes 8 0 }
theorem test_count : nextIs (.count 1) (mapped.setUnit 1 [spbCmd 1]) (fun t => t.memRead 0xF000000300 4 = [4, 0, 1, 0]
    ∧ t.memRead 0xF000000310 8 = [2, 0, 1, 0, 1, 0, 1, 0] ∧ t.memRead 0xF000000404 4 = [1, 0, 0, 0]
    ∧ t.memByte 0xF00000042C = 5 ∧ t.ticket 5 2 = .done 1) = true := by decide +kernel
theorem test_repair : nextIs (.repair 1) (mapped.setUnit 1 [spbCmd 2]) (fun t =>
    t.memRead 0xF000000320 8 = [0, 0, 0, 0, 0, 0, 0, 0x80] ∧ t.ticket 5 2 = .done 0x20001) = true := by decide +kernel
theorem witness_SpoonbillCommandsComplete : ∀ op ∈ [1, 2],
    (mapped.setUnit 1 [spbCmd op]).unit 1 = [spbCmd op] ∧ (readSpb (spbCmd op).desc).op = op
    ∧ (readSpb (spbCmd op).desc).bad (spbCmd op).ctx = none
    ∧ (match mapped.spbCheckOuts (spbCmd op).ctx (readSpb (spbCmd op).desc).allOuts with
       | .error _ => false
       | .ok l0 =>
         let s1 := mapped.spbKeys (spbCmd op).ctx (l0.flatMap (·.2.1))
         match s1.spbWindow (spbCmd op).ctx (readSpb (spbCmd op).desc) (List.range 2) with
         | (.error _, _) => false
         | (.ok f, ps) => decide (f = [[true, true, true, true], [true, false, false, false]])
           && (match ((s1.spbKeys (spbCmd op).ctx ps).touchPieces ps false).spbCheckOuts (spbCmd op).ctx
                 ((readSpb (spbCmd op).desc).out f).outs with
             | .ok _ => true
             | .error _ => false)) = true := by decide +kernel

/-! ## Site instructions and keys (spec/04, spec/17) -/

/-- Tenant 5 runs `code` in context 64, its site as `v` makes it. -/
def siteRuns (code : List Byte) (f : Ctx → Ctx) (v : Site → Site) : State := (bootTen code f).upSite 5 v
/-- An inbound frame of 3 bytes in inbox slot 2. -/
def inFrame : InFrame := { slot := 2, seq := 7, utype := 9, len := 3, stamp := 1 }
theorem test_site_take : nextIs (.siteTake cpu) { siteRuns [0xB3, 1, 2] (srcs 0xF000000100 0) (fun v => { v with inbox := [inFrame] }) with
    mem := memSetAll (memSetAll [] base [0xB3, 1, 2]) 0x282010 [1, 2, 3] } (fun t => gr t 1 = 0x0000000007090003
      ∧ t.memRead dat 3 = [1, 2, 3] ∧ (t.site 5).txn = .taken ∧ (t.site 5).inbox = []) = true := by decide +kernel
theorem test_site_take_none : nextIs (.siteTake cpu) (siteRuns [0xB4, 1, 2] (srcs 0xF000000100 0) id)
    (fun t => gr t 1 = 0x0100000000000000) = true := by decide +kernel
theorem test_site_post_held : nextIs (.sitePost cpu) (siteRuns [0xB5, 1, 2, 3] (srcs 0x60003 0xF000000100) (fun v => { v with txn := .taken }))
    (fun t => gr t 1 = 0x0100000000000000 ∧ (t.site 5).unacked = [{ slot := 0, seq := 0, utype := 6, len := 3 }]
      ∧ t.reg (.site 5 .seqOut) = 1) = true := by decide +kernel
theorem test_site_settle : nextIs (.siteSettle cpu) (siteRuns [0xB7, 1, 2, 3] (srcs 0x13 0xF000000100) (fun v => { v with txn := .taken }))
    (fun t => gr t 1 = 0 ∧ (t.site 5).txn = .settling ∧ (t.site 5).sword = 0x13) = true := by decide +kernel
theorem test_lapp_no_ring : nextIs (.lapp cpu) (siteRuns [0xB8, 1, 2, 3] (srcs 0x42000003 0xF000000100) id)
    (fun t => gr t 1 = 0x0500000000000000) = true := by decide +kernel
/-- Site 5's station is present. -/
def fed (s : State) : State := { s with links := smSet s.links {} 0 { state := .up, signal := true, stations := [(5, { present := true })] } }
/-- Thirty-two frames that wait for their acknowledgements. -/
def heldAll : List OutFrame := (List.range 32).map (fun i => { slot := i, seq := 0, utype := 0, len := 0 })
theorem test_site_waits :
    nextIs (.sitePost cpu) (fed (siteRuns [0xB6, 1, 2, 3] (srcs 3 0xF000000100) (fun v => { v with txn := .taken, unacked := heldAll })))
      (fun t => (cx t).pc = 0xF000000000 ∧ (t.site 5).unacked.length = 32) = true
    ∧ nextIs (.sitePost cpu) (fed (siteRuns [0xB5, 1, 2, 3] (srcs 3 0xF000000100) (fun v => { v with txn := .taken, unacked := heldAll })))
      (fun t => gr t 1 = 0x0200000000000000 ∧ (t.site 5).unacked.length = 32) = true := by decide +kernel
/-- A ring of the smallest size in SRAM for tenant 5. -/
def ringed (s : State) : State :=
  ((s.setReg (.site 5 .jrnlBaseLo) 0x10000).setReg (.site 5 .jrnlBaseHi) 0xF0).upSite 5 (fun v => { v with ringSet := true })
theorem test_lapp_queues : nextIs (.lapp cpu) (ringed (bootTen [0xB8, 1, 2, 3] (srcs 0x42010003 0xF000000100)))
    (fun t => gr t 1 = 0 ∧ (t.site 5).appends.map (·.kind) = [.lapp 0x42 true false [0, 0, 0]]) = true := by decide +kernel
theorem test_key_loads :
    nextIs (.kload cpu) (boot [0xE1, 0x00, 1, 2] (srcs 5 0)) (fun t => gr t 1 = 0 ∧ t.curlew.loads = [5]) = true
    ∧ nextIs (.kerase cpu) (boot [0xE1, 0x01, 1, 2] (srcs 5 0)) (fun t => gr t 1 = 0 ∧ (t.site 5).keyState = 3) = true := by decide +kernel

theorem witness_SiteInstructionsComplete :
    aloneIs (siteRuns [0xB3, 1, 2] (srcs 0xF000000100 0) (fun v => { v with inbox := [inFrame] })) (fun i f t => i.op = .siteTake
      ∧ (t.ctx cpu).ten = true ∧ opsAre t f i 0 [.reg 1 0, .reg 2 0xF000000100] = true ∧ (t.site 5).takeable = true
      ∧ t.inboxSplit 5 = ([], [inFrame]) ∧ (t.site 5).clearPending = false ∧ okIs (t.checkWrite cpu { own := f.own } dat 3)
        (fun _ u => u.inReset = false ∧ (u.ctx cpu).quiet = true ∧ (u.ctx cpu).storeBuf = []) = true) = true
    ∧ aloneIs (siteRuns [0xB4, 1, 2] id id) (fun i _ t => i.op = .siteTake ∧ i.sub = 1 ∧ (t.site 5).inbox = []
      ∧ (t.site 5).takeable = true) = true
    ∧ aloneIs (siteRuns [0xB3, 1, 2] id (fun v => { v with inbox := [inFrame], clearPending := true })) (fun i _ t => i.op = .siteTake
      ∧ i.sub ≠ 1 ∧ (t.site 5).takeable = true ∧ t.inboxSplit 5 = ([], [inFrame]) ∧ (t.site 5).txn = .idle
      ∧ (t.site 5).clearPending = true) = true
    ∧ (∀ b ∈ [0xB3, 0xB4], aloneIs (siteRuns [b, 1, 2] id (fun v => { v with txn := .settling })) (fun i _ t => i.op = .siteTake
      ∧ (i.sub = 1 ↔ b = 0xB4) ∧ (t.site 5).takeable = false) = true)
    ∧ aloneIs (siteRuns [0xB5, 1, 2, 3] id (fun v => { v with txn := .taken, outCount := 255 })) (fun i _ t => i.op = .sitePost
      ∧ (t.site 5).openTxn = true ∧ 255 ≤ (t.site 5).outCount) = true
    ∧ (∀ b ∈ [0xB5, 0xB6], ∀ f ∈ [id, fed], aloneIs (f (siteRuns [b, 1, 2, 3] id (fun v => { v with txn := .taken, unacked := heldAll })))
      (fun i _ t => i.op = .sitePost ∧ (i.sub = 1 ↔ b = 0xB6) ∧ (t.site 5).openTxn = true ∧ (t.site 5).outCount < 255
        ∧ (t.site 5).freeHold = none ∧ (t.ctx cpu).quiet = true) = true)
    ∧ (fed (siteRuns [0xB6, 1, 2, 3] id id)).stationUp 5 = true ∧ (siteRuns [0xB6, 1, 2, 3] id id).stationUp 5 = false
    ∧ (∀ len ∈ [0, 2048], aloneIs (siteRuns [0xB5, 1, 2, 3] (srcs (BitVec.ofNat 64 len) 0xF000000100) (fun v => { v with txn := .taken }))
      (fun i f t => i.op = .sitePost ∧ opsAre t f i 0 [.reg 1 0, .reg 2 (BitVec.ofNat 64 len), .reg 3 0xF000000100] = true
        ∧ (t.site 5).openTxn = true ∧ (t.site 5).outCount < 255 ∧ (t.site 5).freeHold = some 0
        ∧ okIs (t.checkRead cpu { own := f.own } .read false (pagePieces dat len)) (fun _ _ => True) = true) = true)
    ∧ aloneIs (siteRuns [0xB6, 1, 2, 3] (srcs 2049 0) (fun v => { v with txn := .taken })) (fun i f t => i.op = .sitePost
      ∧ (t.site 5).openTxn = true ∧ opsAre t f i 0 [.reg 1 0, .reg 2 2049, .reg 3 0] = true) = true
    ∧ aloneIs (siteRuns [0xB7, 1, 2, 3] id id) (fun i _ t => i.op = .siteSettle ∧ (t.site 5).openTxn = false) = true := by decide +kernel
theorem witness_SiteSettle : ∀ len ∈ [0, 1024],
    aloneIs (siteRuns [0xB7, 1, 2, 3] (srcs (BitVec.ofNat 64 (len * 2 ^ 32)) 0xF000000100) (fun v => { v with txn := .taken }))
      (fun i f t => i.op = .siteSettle ∧ opsAre t f i 0 [.reg 1 0, .reg 2 (BitVec.ofNat 64 (len * 2 ^ 32)), .reg 3 0xF000000100] = true
        ∧ (t.site 5).openTxn = true ∧ okIs (t.checkRead cpu { own := f.own } .read false (pagePieces dat len)) (fun _ u =>
          u.inReset = false ∧ (u.ctx cpu).quiet = true) = true) = true := by decide +kernel
theorem witness_LappQueuesAnAppend :
    aloneIs (ringed (bootTen [0xB8, 1, 2, 3] (srcs 0x42010800 0xF000000100))) (fun i f t => i.op = .lapp ∧ (t.ctx cpu).ten = true
      ∧ opsAre t f i 0 [.reg 1 0, .reg 2 0x42010800, .reg 3 0xF000000100] = true ∧ (t.site 5).ringSet = true
      ∧ lappGood 0x42010800 = true ∧ t.lappFull 5 = false ∧ okIs (t.checkRead cpu { own := f.own } .read false (pagePieces dat 2048))
        (fun _ u => u.inReset = false ∧ (u.ctx cpu).quiet = true) = true) = true
    ∧ aloneIs ((ringed (bootTen [0xB8, 1, 2, 3] id)).upSite 5 (fun v => { v with
        appends := List.replicate 8 { kind := .lapp 0x40 false false [] } })) (fun i _ t => i.op = .lapp ∧ t.lappFull 5 = true) = true
    ∧ lappGood 2049 = false := by decide +kernel
theorem witness_KeyLoadsQueueAndErasesTakeHold :
    aloneIs { boot [0xE1, 0x00, 1, 2] (srcs 5 0) with curlew := { loads := List.replicate 15 1 } } (fun i f t => i.op = .kload
      ∧ (t.ctx cpu).isUser = false ∧ (t.ctx cpu).world = .secure ∧ opsAre t f i 0 [.reg 1 0, .reg 2 5] = true
      ∧ t.curlew.loads.length < 16) = true
    ∧ aloneIs { boot [0xE1, 0x00, 1, 2] id with curlew := { loads := List.replicate 16 1 } } (fun i _ t => i.op = .kload
      ∧ 16 ≤ t.curlew.loads.length) = true
    ∧ aloneIs { boot [0xE1, 0x01, 1, 2] (srcs 5 0) with curlew := { slots := [(63, { loaded := true, tenant := 5 })] } }
      (fun i f t => i.op = .kerase ∧ opsAre t f i 0 [.reg 1 0, .reg 2 5] = true ∧ t.curlew.loads = [] ∧ t.slotOf 5 = some 63) = true := by
  decide +kernel

/-! ## Calls, returns and gates (spec/15, spec/16) -/

/-- The fast entry of the secure bank: to 0x2000 in W-form, with stack 0xF000000800 and CSW bits PRIV and IE. -/
def fast (c : Ctx) : Ctx :=
  { c with bankS := { fePc := 0x8000000000002000, feSp := 0xF000000800, feCsw := 0x24, gateBase := 0xF000000100 } }
theorem test_sysc : nextIs (.sysc cpu) (boot [0x06] (fun c => fast (c.setG 31 9))) (fun t => (cx t).pc = 0x2000
    ∧ (cx t).csw = 0x27 ∧ gr t 31 = 0xF000000800 ∧ (cx t).bankS.xpc = 0xF000000001 ∧ (cx t).bankS.xsp = 9
    ∧ (cx t).bankS.xcsw = 6) = true := by decide +kernel
/-- `boot` in the non-secure world: all of SRAM lies at or above its weir. -/
def bootNs (code : List Byte) (f : Ctx → Ctx) : State :=
  (boot code (fun c => { f c with csw := 0x24 })).setReg (.d .sramWeir) 0
theorem test_moncall : nextIs (.moncall cpu) (bootNs [0x0B] (fun c => fast (c.setG 31 9))) (fun t => (cx t).pc = 0x2000
    ∧ (cx t).world = .secure ∧ (cx t).bankS.xcsw = 0x24 ∧ (cx t).bankS.xinfo = 0x2000000000000000
    ∧ bitAt (t.reg (cxReg cpu .nmi)) 1 = true) = true := by decide +kernel
/-- A taken branch whose delay bundle is next. -/
def branchAt (a : VirtAddr) (target : Word) (call replay : Bool) : DelayBranch :=
  { addr := a, target := target, taken := true, call := call, replay := replay, shadow := false }
/-- A secure bank to return through: to 0x3000, secure supervisor with IE, stack 7. -/
def saved (xcsw : Word) (c : Ctx) : Ctx := { c.setG 31 9 with bankS := { xpc := 0x3000, xsp := 7, xcsw := xcsw, feSp := 5 } }
theorem test_returns :
    nextIs (.xret cpu) (boot [0x08] (saved 0x26)) (fun t => (cx t).pc = 0x3000 ∧ (cx t).csw = 0x26 ∧ gr t 31 = 7
      ∧ (cx t).bankS.xsp = 9) = true
    ∧ nextIs (.sysret cpu) (boot [0x07] (saved 0x26)) (fun t => (cx t).pc = 0x3000 ∧ gr t 31 = 7 ∧ (cx t).bankS.xsp = 5) = true
    ∧ nextIs (.monret cpu) ((boot [0x0C] (saved 0x24)).setReg (cxReg cpu .nmi) 2) (fun t => (cx t).csw = 0x24
      ∧ t.reg (cxReg cpu .nmi) = 0) = true
    ∧ nextIs (.xret cpu) (boot [0x08] (saved 0x30006)) (fun t => (cx t).csw = 0x6 ∧ (cx t).delay = some (branchAt 0x3000 0 false true)) = true := by decide +kernel
/-- The gate descriptor of the example of spec/15, as gate 5 of a table at 0xF000000100. -/
def gate5 : List Byte :=
  [0x00, 0x20, 0xF1, 0x00, 0x00, 0x00, 0x00, 0x00, 0x00, 0x00, 0x00, 0x00, 0x00, 0x00, 0x00, 0x00,
   0x03, 0x00, 0xC5, 0x00, 0x00, 0x00, 0x00, 0x00, 0x00, 0x00, 0x00, 0x00, 0xA7, 0x00, 0x00, 0x00]
/-- A call of that gate with a length of `n` bytes. -/
def calls (n : Word) : State :=
  let s := boot [0x09, 0x05, 0x00] (fun c => fast (((c.setG 31 9).setG 1 0xF000000100).setG 2 n))
  { s with mem := memSetAll s.mem 0xF0000001A0 gate5 }
theorem test_gcall : nextIs (.gcall cpu) (calls 0x42) (fun t => (cx t).pc = 0xF12000 ∧ (cx t).csw = 0x46
    ∧ gr t 31 = 0xF0000007B0 ∧ (cx t).top = 0x400000F000000003 ∧ (cx t).rsp = 1
    ∧ stored t = leBytes 8 9 ++ leBytes 8 6 ++ leBytes 8 5 ++ leBytes 8 0 ++ leBytes 8 0xF000000100 ++ leBytes 8 0x42
      ++ List.replicate 32 0) = true := by decide +kernel
/-- With a length of 0x1001 the example takes vector 19 with XINFO 0x00050206 and XADDR 0x1001. -/
theorem test_gcall_length : nextIs (.gcall cpu) { calls 0x1001 with ctxs := (boot [] (fun c => { fast (((c.setG 31 9).setG 1
      0xF000000100).setG 2 0x1001) with bankS := { (fast c).bankS with vbr := 0xF000000200 } })).ctxs }
    (fun t => (cx t).bankS.xaddr = 0x1001 ∧ bitsOf (cx t).bankS.xinfo 59 0 = 0x50206) = true := by decide +kernel
/-- A GRET to 0x40007003 from a frame at `dat` that holds G31 0x1234 and CSW 0x26. -/
def returns : State :=
  let s := boot [0x0A] (fun c => (c.setG 31 0xF000000100).push 0x4000000040007003)
  { s with mem := memSetAll s.mem dat (leBytes 8 0x1234 ++ leBytes 8 0x26) }
theorem test_gret : nextIs (.gret cpu) returns (fun t => (cx t).pc = 0x40007003 ∧ (cx t).csw = 0x26 ∧ gr t 31 = 0x1234
    ∧ (cx t).rsp = 0) = true := by decide +kernel

theorem witness_SystemAndMonitorCalls :
    aloneIs (boot [0x06] fast) (fun i _ _ => i.op = .sysc) = true
    ∧ aloneIs (bootNs [0x0B] fast) (fun i _ t => i.op = .moncall ∧ (t.ctx cpu).isUser = false ∧ (t.ctx cpu).world = .nonSecure) = true := by
  decide +kernel
theorem witness_ReturnsRestoreTheSavedState :
    aloneIs (boot [0x08] (saved 0x30006)) (fun i _ t => i.op = .xret ∧ (t.ctx cpu).isUser = false
      ∧ badXcsw ((t.ctx cpu).bank .secure).xcsw = false ∧ (t.ctx cpu).world = .secure) = true
    ∧ aloneIs (boot [0x07] (saved 0x26)) (fun i _ t => i.op = .sysret ∧ badXcsw ((t.ctx cpu).bank .secure).xcsw = false
      ∧ (t.ctx cpu).world = .secure) = true
    ∧ aloneIs (boot [0x0C] (saved 0x500000014)) (fun i _ t => i.op = .monret ∧ badXcsw ((t.ctx cpu).bank .secure).xcsw = false
      ∧ (t.ctx cpu).world = .secure ∧ bitAt ((t.ctx cpu).bank .secure).xcsw 1 = false) = true := by decide +kernel
theorem witness_GatesCallAndReturn :
    aloneIs (calls 0x1000) (fun i f t => i.op = .gcall ∧ (t.ctx cpu).pushTraps = false
      ∧ okIs (t.readGateAt (envOf t cpu f 0) 5) (fun r u => u.gateRefusal (envOf t cpu f 0) r.2 5 = none
        ∧ okIs (u.argChecks (envOf t cpu f 0) r.2 5 (List.range r.2.argc)) (fun _ v =>
          okIs (v.frameCheck (envOf t cpu f 0) r.2 5) (fun _ w => w.inReset = false ∧ w.ctx cpu = t.ctx cpu
            ∧ (t.ctx cpu).rsp.toNat ≤ 16) = true) = true) = true) = true
    ∧ aloneIs returns (fun i f t => i.op = .gret ∧ (t.ctx cpu).rsp ≠ 0 ∧ bitAt (t.ctx cpu).top 62 = true
      ∧ okIs (t.gretFrame (envOf t cpu f 0)) (fun r u => retCswBad (t.ctx cpu) r.2.2 = false
        ∧ okIs (u.returnPlace cpu { t.ctx cpu with csw := setBit r.2.2 0 false } 0x40007003) (fun p v =>
          v.returnEncl 0x40007003 p = none) = true
        ∧ (u.ctx cpu).quiet = true ∧ u.inReset = false) = true) = true := by decide +kernel

/-! ## Exceptions, bundles and stores -/

/-- A pointer to 0x9000 in W-form as vector 9 of a secure table at 0xF000000200. -/
def vectors : State :=
  let s := boot [] (fun c => { c.setG 31 3 with csw := 0xE127, bankS := { vbr := 0xF000000207, xsp := 8 } })
  { s with mem := memSetAll s.mem 0xF000000248 (leBytes 8 0x8000000000009000) }
/-- An entry that saves the address 0x123. -/
def someEntry : EntryInfo := { xpc := 0x123, xaddr := 0x456, xinfo := 1, async := false, dly := none }
theorem test_entry : let t := vectors.enter cpu 9 .secure someEntry
    (cx t).pc = 0x9000 ∧ (cx t).csw = 0x147 ∧ gr t 31 = 8 ∧ (cx t).bankS.xsp = 3 ∧ (cx t).bankS.xcsw = 0xE127
    ∧ (cx t).bankS.xpc = 0x123 ∧ (cx t).bankS.xaddr = 0x456 := by decide +kernel
theorem witness_ExceptionEntryWrites :
    okIs ((vectors.upCtx cpu Ctx.completeLoads).readVector cpu (entryCsw (vectors.ctx cpu).completeLoads.csw .secure false)
      (((vectors.ctx cpu).completeLoads.bank .secure).vbr.toNat / 8 * 8 + 8 * 9)) (fun e u => e = 0x8000000000009000
        ∧ u.ctx cpu = (vectors.ctx cpu).completeLoads) = true := by decide +kernel
/-- A context that can run, with its fetch. -/
def fetches (s : State) (p : Fetched → State → Prop) [∀ f t, Decidable (p f t)] : Bool :=
  s.canRun cpu && okIs (s.fetch cpu) p
/-- ADD G1, G2, G3 in lane C and FMVG A2, G1 in lane Q: the second reads G1 as the bundle found it. -/
def twoLanes : State := bootW [0x0100110C, 0xE2820800] (fun c => (srcs 5 7 c).setG 1 9)
theorem test_bundle_reads_first : nextIs (.add cpu) twoLanes (fun t => gr t 1 = 12 ∧ (cx t).getA 2 = 9) = true := by decide +kernel
theorem test_delay_bundle : nextIs (.nop cpu) (bootW [0x81800000] (fun c => { c with delay := some (branchAt 0xEFFFFFFFFC 0x4000 false false) })) (fun t => (cx t).pc = 0x4000
      ∧ (cx t).delay = none) = true := by decide +kernel
/-- A context whose loop level 0 ends at the PC with a count. -/
def loopEnd (n : Word32) (c : Ctx) : Ctx :=
  { c with csw := 0x2006, lps := [(0, 0xEFFFFFFF00)], lpe := [(0, 0xF000000000)], lpc := [(0, n)] }
theorem test_loop_end :
    nextIs (.nop cpu) (boot [0x01] (loopEnd 2)) (fun t => (cx t).pc = 0xEFFFFFFF00 ∧ smGet (cx t).lpc 0 0 = 1) = true
    ∧ nextIs (.nop cpu) (boot [0x01] (loopEnd 1)) (fun t => (cx t).pc = 0xF000000001 ∧ (cx t).csw = 6) = true := by decide +kernel
theorem witness_BundlesDelaysAndLoopEnds : fetches twoLanes (fun f t =>
    f.insns = [{ op := .add, ops := [.reg 1, .reg 2, .reg 3] }, { op := .fmvg, ops := [.reg 2, .reg 1] }]
    ∧ t.inReset = false ∧ (t.ctx cpu).sip = false ∧ (t.ctx cpu).loads = [] ∧ (t.ctx cpu).delay = none) = true := by decide +kernel
theorem witness_DelayBundle : fetches (bootW [0x81800000] (fun c => { c with delay := some (branchAt 0xEFFFFFFFFC 0x4000 true false) }))
    (fun f t => f.insns = [{ op := .nop }] ∧ t.inReset = false ∧ (t.ctx cpu).sip = false ∧ (t.ctx cpu).loads = []
      ∧ bitAt (t.ctx cpu).csw 7 = false ∧ (t.ctx cpu).stepping = false ∧ (t.ctx cpu).stepDue = false
      ∧ (t.ctx cpu).delay.map (·.replay) = some false ∧ (t.ctx cpu).atLoopEnd = false) = true := by decide +kernel
/-- The hypotheses on a loop end with count n. -/
def atEnd (n : Word32) : Bool := fetches (boot [0x01] (loopEnd n)) (fun f t => f.insns = [{ op := .nop }] ∧ (t.ctx cpu).delay = none
  ∧ (t.ctx cpu).endsAt 0 (t.ctx cpu).pc = true ∧ (t.ctx cpu).endsAt 1 (t.ctx cpu).pc = false
  ∧ (t.ctx cpu).endsAt 2 (t.ctx cpu).pc = false ∧ smGet (t.ctx cpu).lpc 0 0 = n)
theorem witness_LoopEnd : atEnd 1 = true ∧ atEnd 2 = true := by decide +kernel

/-- A state whose context 64 has one store waiting. -/
def waiting (a : Nat) : State :=
  (boot [] id).upCtx cpu (fun c => { c with storeBuf := [{ addr := a, bytes := [1, 2], world := .secure, word := true }] })
theorem test_store_performed : nextIs (.storePerformed cpu) (waiting dat) (fun t => t.memRead dat 2 = [1, 2]
    ∧ (cx t).storeBuf = [] ∧ (cx t).storeErr = none) = true := by decide +kernel
theorem test_store_into_hole : nextIs (.storePerformed cpu) (waiting 0xF001000000) (fun t =>
    (cx t).storeErr = some { addr := 0xF001000000, world := .secure, cause := 3, ovf := false }) = true := by decide +kernel
theorem witness_StoresArePerformedOldestFirst :
    (waiting dat).storeHole cpu { addr := dat, bytes := [1, 2], world := .secure, word := true } = false
    ∧ (waiting dat).region dat = .sram ∧ (waiting dat).droppedWords dat 2 = []
    ∧ (waiting 0xF001000000).storeHole cpu { addr := 0xF001000000, bytes := [1, 2], world := .secure, word := true } = true := by decide +kernel

/-! ## The host window (spec/00, spec/02) -/

theorem test_register_write : nextIs (.registerWrite (hostFor 0xA4 true 0x12345678) 0xA4 0x12345678) awake
    (fun t => t.reg (.g .scratch0) = 0x12345678 ∧ t.resp.code = 0) = true := by decide +kernel
theorem test_register_write_bad_parity : nextIs (.registerWrite { hostFor 0xA4 true 1 with hap := !(hostFor 0xA4 true 1).hap } 0xA4 1) awake
    (fun t => t.reg (.g .scratch0) = 0 ∧ t.resp.code = 1 ∧ t.reg (.g .busErrAddr) = 0xA4) = true := by decide +kernel
theorem test_strobe : nextIs .strobeDuringCycle awake (fun t => t.reg (.g .hintStatus) = 0x20000) = true := by decide +kernel
/-- BADFRAME counters and the like clear on read: LC_CRC_ERR of link 3 at 0x4310. -/
theorem test_rc_read : nextIs (.rcRead (hostFor 0x4310 false 0) 0x4310) (awake.setReg (.link 3 .crcErr) 5)
    (fun t => t.resp.data = 5 ∧ t.reg (.link 3 .crcErr) = 0) = true := by decide +kernel
theorem test_pairs :
    nextIs (.loRead (hostFor 0x40 false 0) 0x40) ((awake.setReg (.g .aperBaseLo) 0x800000).setReg (.g .aperBaseHi) 0xF0)
      (fun t => t.resp.data = 0x800000 ∧ smGet t.snaps none (pairKey .host (.g .aperBaseLo)) = some 0xF0) = true
    ∧ nextIs (.hiRead (hostFor 0x44 false 0) 0x44) { awake with snaps := [(pairKey .host (.g .aperBaseLo), some 0x77)] }
      (fun t => t.resp.data = 0x77 ∧ t.snaps = []) = true
    ∧ nextIs (.loWrite (hostFor 0x40 true 0x800000) 0x40 0x800000) awake (fun t => t.reg (.g .aperBaseLo) = 0
      ∧ smGet t.stagedLo none (pairKey .host (.g .aperBaseLo)) = some (0x800000, 0xF)) = true
    ∧ nextIs (.hiWrite (hostFor 0x44 true 0xF0) 0x44 0xF0) { awake with stagedLo := [(pairKey .host (.g .aperBaseLo), some (0x800000, 0xF))] }
      (fun t => t.aperBase = 0xF000800000 ∧ t.stagedLo = []) = true := by decide +kernel
theorem test_valid_clear : nextIs (.validClear (hostFor 0x3C true 1) 0x3C 1) (awake.setReg (.g .busErrInfo) 0x133)
    (fun t => t.reg (.g .busErrInfo) = 0) = true := by decide +kernel
/-- 1 GiB of DRAM above a weir of 0, with the aperture at its bottom. -/
def dramHost : State :=
  let s := (((awake.setReg (.g .hostCtrl) 0x12).setReg (.g .dramStatus) 0x11011).setReg (.d .secWeirLo) 0).setReg (.d .secWeirHi) 0
  { s with mem := memSetAll [] 4 [1, 2, 3, 4] }
theorem test_aperture :
    nextIs (.apertureRead (hostFor 0x800004 false 0) 0x800004) dramHost (fun t => t.resp.data = 0x04030201) = true
    ∧ nextIs (.apertureWrite { hostFor 0x800004 true 0xAABBCCDD with be := 0xF } 0x800004 0xAABBCCDD) dramHost
      (fun t => t.memRead 4 4 = [0xDD, 0xCC, 0xBB, 0xAA] ∧ t.resp.code = 0) = true
    ∧ nextIs (.timeout (hostFor 0x800004 true 0) 0x800004 true true 0) dramHost (fun t => t.resp.code = 3
      ∧ t.memRead 4 4 = [0, 0, 0, 0] ∧ bitAt (t.reg (.g .busErrInfo)) 20 = true) = true := by decide +kernel
/-- The mailbox is open. -/
def mail : State := { awake with mbxOpen := true }
theorem test_mailbox :
    nextIs (.mailboxWrite (hostFor 0x17FFC true 0x01020304) 0x17FFC 0x01020304) mail (fun t => bufWord t.h2d 0x7FFC = 0x01020304) = true
    ∧ nextIs (.mailboxRead (hostFor 0x10000 false 0) 0x10000) { mail with h2d := [(0, 9)] } (fun t => t.resp.data = 9) = true
    ∧ nextIs (.mailboxRead (hostFor 0x10008 false 0) 0x10008 .uncorrectable) mail (fun t => t.resp.code = 9)
      = true
    ∧ nextIs (.mailboxRead (hostFor 0x10008 false 0) 0x10008 .corrected) mail (fun t => t.resp.code = 0 ∧ t.reg (.d .integCeSram) = 1) = true
    ∧ nextIs (.mailboxRead (hostFor 0x1000C false 0) 0x1000C) { mail with mbxPoison := [(1, true)] } (fun t => t.resp.code = 9) = true
    ∧ nextIs (.h2dPost (hostFor 0x48 true 0x18000) 0x18000) mail (fun t => t.h2dFull = true ∧ bitAt (t.reg (.d .irqLinePend)) 0 = true) = true
    ∧ nextIs (.h2dPost (hostFor 0x48 true 0x18001) 0x18001) mail (fun t => t.h2dFull = false ∧ t.resp.code ≠ 0) = true
    ∧ nextIs (.d2hAck (hostFor 0x48 true 0x20000) 0x20000) { mail with d2hFull := true } (fun t => t.d2hFull = false) = true
    ∧ nextIs .messageConsumed { mail with h2dFull := true } (fun t => t.h2dFull = false) = true
    ∧ nextIs (.reply 3 [7, 8]) mail (fun t => t.d2hFull = true ∧ t.reg (.g .mbxStatus) = 0x20300 ∧ smGet t.d2h 0 1 = 8) = true := by
  decide +kernel
theorem test_globals :
    nextIs .interfaceAcceptsCycles { awake with accepting := false } (fun t => t.accepting = true) = true
    ∧ nextIs (.hbclkMeasure 66) awake (fun t => t.hbclkMhz = 66) = true
    ∧ nextIs (.rngDataRead (hostFor 0xBC false 0)) awake (fun t => t.resp.data = 0 ∧ t.resp.code = 0) = true
    ∧ nextIs (.clkCtrlWrite (hostFor 0x7C true 1) 1) awake (fun t => t.resp.code = 0) = true
    ∧ nextIs (.phaseWrite monAcc 4) (mon.setReg (.g .bootStatus) 3) (fun t => t.reg (.g .bootStatus) = 4) = true
    ∧ nextIs (.start (hostFor 0x90 true 1) 1) awake (fun t => t.ue.reqStart = true) = true
    ∧ nextIs (.abort (hostFor 0x90 true 2) 2) awake (fun t => t.ue.reqAbort = true) = true
    ∧ nextIs (.updCtrlSecureRead monAcc) { mon with ue := { reqStart := true } } (fun t => t.resp.data = 1 ∧ t.ue.reqStart = false) = true := by
  decide +kernel

theorem witness_RefusedHostWritesAreRecorded :
    awake.answers = true ∧ State.reset.answers = false
    ∧ (let a := hostFor 0xA4 true 1
       hapGood a 0xA4 true = true ∧ hapGood { a with hap := !a.hap } 0xA4 true = false ∧ badLanes { a with hdp := ~~~a.hdp } 1 = 0xF)
    ∧ bitAt (awake.reg (.g .busErrInfo)) 0 = false ∧ bitAt ((awake.setReg (.g .busErrInfo) 1).reg (.g .busErrInfo)) 0 = true := by
  decide +kernel
theorem witness_RegisterAccessTypes :
    namesReg (hostFor 0xA4 true 1) 0xA4 (.g .scratch0) ∧ awake.reaches (hostFor 0xA4 true 1) (.g .scratch0) 1 = true
    ∧ (namesReg (hostFor 0x4310 false 0) 0x4310 (.link 3 .crcErr) ∧ (Reg.link 3 .crcErr).spec.rc ≠ 0
      ∧ awake.readsReg (hostFor 0x4310 false 0) (.link 3 .crcErr) = true)
    ∧ (namesReg (hostFor 0x3C true 1) 0x3C (.g .busErrInfo) ∧ isRecord (.g .busErrInfo) = true
      ∧ writes1 (hostFor 0x3C true 1) 1 0 = true ∧ awake.reaches (hostFor 0x3C true 1) (.g .busErrInfo) 1 = true)
    ∧ (monAcc.req = .ctx 64 ∧ (mon.ctx 64).world = .secure)
    ∧ (let s := mon.upCtx 9 (fun c => { c with csw := 0x4 })
       (s.ctx 9).world = .nonSecure ∧ s.deviceSecure (Reg.g .scratch0).addr true = false) := by
  unfold namesReg; decide +kernel
theorem witness_PairsAreReadAndWrittenTogether :
    (Reg.g .aperBaseLo).pairOf = some (.g .aperBaseLo, false) ∧ namesReg (hostFor 0x40 true 9) 0x40 (.g .aperBaseLo)
    ∧ namesReg (hostFor 0x44 true 9) 0x44 (Reg.g .aperBaseLo).hiOf ∧ awake.readsReg (hostFor 0x40 false 9) (.g .aperBaseLo) = true
    ∧ awake.readsReg (hostFor 0x44 false 9) (.g .aperBaseHi) = true ∧ awake.reaches (hostFor 0x40 true 9) (.g .aperBaseLo) 9 = true
    ∧ awake.reaches (hostFor 0x44 true 9) (.g .aperBaseHi) 9 = true ∧ (Reg.g .aperBaseLo).pairMask ≠ 0
    ∧ lanesOf (hostFor 0x40 true 9) ≠ 0 ∧ smGet awake.snaps none (pairKey (whoOf (hostFor 0x44 false 9)) (.g .aperBaseLo)) = none
    ∧ smGet (State.snaps { awake with snaps := [(pairKey .host (.g .aperBaseLo), some 0x77)] }) none
        (pairKey (whoOf (hostFor 0x44 false 9)) (.g .aperBaseLo)) = some 0x77 := by
  unfold namesReg; decide +kernel
theorem witness_ApertureCyclesReachMemory :
    dramHost.answers = true ∧ hostPlace 0x800004 = .aperture 4 ∧ hostPlace 0xFFFFFC = .aperture 0x7FFFFC
    ∧ hapGood (hostFor 0x800004 false 0) 0x800004 false = true ∧ dramHost.aperRefusal 4 false = none
    ∧ hapGood (hostFor 0x800004 true 5) 0x800004 true = true ∧ badLanes (hostFor 0x800004 true 5) 5 = 0
    ∧ dramHost.aperRefusal 4 true = none ∧ dramHost.poisoned (dramHost.aperBase + 4) = false
    ∧ bitAt (dramHost.reg (.g .busErrInfo)) 0 = false ∧ (hostFor 0x800004 true 5).be ≠ 0
    ∧ (let a := { hostFor 0x800004 true 0 with be := 0 }
       hapGood { a with hap := hapGood { a with hap := true } 0x800004 true } 0x800004 true = true) := by decide +kernel
theorem witness_MailboxCarriesMessages :
    mail.mbxOpen = true ∧ mail.answers = true ∧ hostPlace 0x17FFC = .h2d 0x7FFC ∧ hostPlace 0x18000 = .d2h 0
    ∧ hapGood (hostFor 0x17FFC true 1) 0x17FFC true = true ∧ badLanes (hostFor 0x17FFC true 1) 1 = 0 ∧ mail.h2dFull = false
    ∧ mail.mbxBad 0x7FFC = false ∧ mail.mbxBad 0x8000 = false ∧ bitAt (mail.reg (.g .mchkStatus)) 0 = false
    ∧ bitAt (mail.reg (.d .integRecInfo)) 0 = false ∧ hapGood (hostFor 0x17FFC false 0) 0x17FFC false = true
    ∧ hapGood (hostFor 0x18000 false 0) 0x18000 false = true ∧ mail.reaches (hostFor 0x48 true 0x18000) (.g .mbxCtrl) 0x18000 = true
    ∧ writes1 (hostFor 0x48 true 0x18000) 0x18000 16 = true ∧ writes1 (hostFor 0x48 true 0x18000) 0x18000 17 = false
    ∧ bitsOf (mergeBits (mail.reg (.g .mbxCtrl)) (laneMask (lanesOf (hostFor 0x48 true 0x18000))) 0x18000) 15 0 = 32768
    ∧ mail.reaches (hostFor 0x48 true 0x20000) (.g .mbxCtrl) 0x20000 = true ∧ writes1 (hostFor 0x48 true 0x20000) 0x20000 16 = false
    ∧ writes1 (hostFor 0x48 true 0x20000) 0x20000 17 = true ∧ mail.romServes = false ∧ mail.d2hFull = false
    ∧ mail.boot.replyDue = [] ∧ (State.mbxBad { mail with d2hFull := true } 0x8000) = false := by decide +kernel
theorem witness_GlobalRegisterCommands :
    awake.inReset = false ∧ awake.readsReg (hostFor 0xBC false 0) (.g .rngData) = true ∧ awake.rngReady = false
    ∧ State.rngReady { awake with drbg := { instantiated := true }, elec := { refclkOk := true } } = true
    ∧ awake.reaches (hostFor 0x7C true 1) (.g .clkCtrl) 1 = true ∧ awake.clkBusy = false
    ∧ mon.reaches monAcc (.g .bootStatus) 0xE = true ∧ (mon.setReg (.g .bootStatus) 3).reg (.g .bootStatus) = 3
    ∧ awake.reaches (hostFor 0x90 true 3) (.g .updCtrl) 3 = true ∧ awake.accWorld (hostFor 0x90 true 3) (.g .updCtrl) = .nonSecure
    ∧ writes1 (hostFor 0x90 true 3) 3 0 = true ∧ writes1 (hostFor 0x90 true 3) 3 1 = true ∧ (mon.ctx 64).world = .secure := by decide +kernel

/-! ## Tides, cores, tenants and sites -/

/-- A staged entry for the equaliser of link 3. -/
def stagedEq : StagedEntry := { data := 0x2A, lanes := 0xF }
/-- The links belong to the non-secure world. -/
def open0 : State := awake.setReg (.d .assignLinkLo) 0
/-- A state with that entry alone staged. -/
def tided : State := { open0 with tide := { staged := [((Reg.link 3 .eq).addr, stagedEq)] } }
/-- A tide in progress whose one entry is the hold limit of site 5. -/
def converting : State :=
  { open0 with tide := { entries := [((Reg.site 5 .holdLimit).addr, { data := 100, lanes := 0xF })], busy := true } }
theorem test_tide :
    nextIs (.tideStageWrite (hostFor 0x4308 true 3) 0x4308 3) ((open0.setReg (.g .hostCtrl) 0x11)) (fun t =>
      t.tide.staged = [((Reg.link 3 .eq).addr, { data := 3, lanes := 0xF })] ∧ t.reg (.link 3 .eq) = open0.reg (.link 3 .eq)) = true
    ∧ nextIs (.commit (hostFor 0x54 true 1) 1) tided (fun t => t.tide.staged = [] ∧ t.reg (.g .cfgEpoch) = 1
      ∧ bitAt (t.reg (.g .hintStatus)) 3 = true) = true
    ∧ nextIs (.discard (hostFor 0x54 true 2) 2) tided (fun t => t.tide.staged = [] ∧ t.reg (.g .cfgEpoch) = 0) = true
    ∧ nextIs (.tenantConversion 5) converting (fun t => t.tide.busy = false ∧ t.reg (.site 5 .holdLimit) = 100) = true
    ∧ nextIs (.tideForce 5) (converting.upSite 5 (fun v => { v with tstate := .loaded })) (fun t => (t.site 5).save = some .tide) = true := by
  decide +kernel
theorem witness_TidesAreStagedAndConverted :
    (let a := hostFor 0x4308 true 3
     open0.tide.busy = false ∧ (Reg.link 3 .eq).isTide = true ∧ open0.reaches a (.link 3 .eq) 3 = true
      ∧ (Reg.link 3 .eq).tideLanes (lanesOf a) = true ∧ lanesOf a ≠ 0
      ∧ bitAt ((open0.setReg (.g .hostCtrl) 0x11).reg (.g .hostCtrl)) 0 = true ∧ bitAt (open0.reg (.g .hostCtrl)) 0 = false)
    ∧ (let a := hostFor 0x54 true 1
       open0.reaches a (.g .cfgCommit) 1 = true ∧ writes1 a 1 0 = true ∧ writes1 a 1 1 = false)
    ∧ (let a := hostFor 0x54 true 2
       open0.reaches a (.g .cfgCommit) 2 = true ∧ writes1 a 2 0 = false ∧ writes1 a 2 1 = true)
    ∧ converting.tide.busy = true ∧ (entriesOf converting.tide.entries 5).isEmpty = false ∧ (converting.site 5).tstate ≠ .loaded
    ∧ converting.opInFlight 5 = false ∧ converting.tide.stopping = false
    ∧ (let s := converting.upSite 5 (fun v => { v with tstate := .loaded })
       (s.site 5).tstate = .loaded ∧ (s.site 5).save = none) := by decide +kernel
theorem witness_BusyRegisters :
    (let a := hostFor 0x54 true 1
     converting.reaches a (.g .cfgCommit) 1 = true ∧ namesReg a 0x54 (.g .cfgCommit) ∧ writes1 a 1 0 = true)
    ∧ (let a := hostFor 0x4308 true 3
       let s := { tided with tide := { entries := tided.tide.staged, busy := true } }
       s.reaches a (.link 3 .eq) 3 = true ∧ s.tide.entries.map (·.1) = [(Reg.link 3 .eq).addr]) := by
  unfold namesReg; decide +kernel
theorem witness_namesReg : namesReg (hostFor 0x4308 true 3) 0x4308 (.link 3 .eq) := by
  unfold namesReg; decide +kernel
/-- The same while context 4, its delay bundle next, runs. -/
def moving : State :=
  (tided.setCore 1 { state := .running }).upCtx 4 (fun c => { c with occ := .exec, delay := some (branchAt 0x1000 0x2000 false false) })
/-- R505: the tide waits for that context, and takes effect once the delay bundle is past. -/
theorem test_tide_stop :
    nextIs (.commit (hostFor 0x54 true 1) 1) moving (fun t => t.tide.stopping = true ∧ t.tide.busy = true
      ∧ t.reg (.link 3 .eq) = open0.reg (.link 3 .eq) ∧ t.reg (.g .cfgEpoch) = 0) = true
    ∧ (let s := State.tideStop { tided with tide := { entries := tided.tide.staged, busy := true, stopping := true } }
       s.tide.busy = false ∧ s.reg (.link 3 .eq) = 0x0A) := by decide +kernel
theorem witness_ACommittedTideTakesEffect :
    tided.tide.busy = false ∧ tided.tide.overrun = false ∧ tided.tide.staged = [((Reg.link 3 .eq).addr, stagedEq)]
    ∧ tided.reaches (hostFor 0x54 true 1) (.g .cfgCommit) 1 = true
    ∧ (let e : StagedEntry := { data := 100, lanes := 0xF }
       let r := Reg.site 5 .holdLimit
       let v := mergeBits (open0.reg r) (laneMask e.lanes &&& r.tideMask) e.data
       open0.opInFlight 5 = false ∧ (open0.site 5).appends = [] ∧ 1 ≤ v.toNat ∧ v.toNat ≤ 60000)
    ∧ (let under : State := { tided with tide := { entries := tided.tide.staged, busy := true, stopping := true } }
       let noted : State := { under with tide := { under.tide with stops := under.stopsNow } }
       noted.allStopped = true)
    ∧ (∀ c, c < 16 → (tided.core c).state = .held ∧ (tided.core c).fencing = false)
    ∧ (let under : State := { moving with tide := { entries := moving.tide.staged, busy := true, stopping := true } }
       let under := under.upCtx 5 (fun c => { c with occ := .exec })
       let noted : State := { under with tide := { under.tide with stops := under.stopsNow } }
       noted.allStopped = false ∧ 5 ∈ under.stopsNow)
    ∧ moving.reaches (hostFor 0x54 true 1) (.g .cfgCommit) 1 = true := by decide +kernel
/-- The monitor is about to release ledger core 2. -/
def releasing : State :=
  let s := ((mon.setReg (.d .secRootLo) 1).setReg (.g .bootStatus) 3).setReg (.core 2 .coreVecLo) 0x1000
  let s := ((s.setReg (.d .secWeirHi) 0x80000000).setReg (.d .sramWeir) 0x80000000).setReg (.d .assignLock) 1
  let s := (s.setReg (.d .wdtCtrl) 0x80000000).setReg (.g .nmiCtrl) 0x80000000
  { s.setCore 2 { s.core 2 with vecWritten := true } with mem := s.mem }
theorem test_core :
    nextIs (.coreStart 2) (releasing.setReg (.g .coreRelease) 4) (fun t => (t.core 2).state = .running
      ∧ (t.ctx (ctxOf 2 0)).occ = .monitor ∧ (t.ctx (ctxOf 2 0)).pc = 0x1000) = true
    ∧ nextIs (.fenceReq monAcc 0x40000) mon (fun t => (t.core 2).state = .fenced) = true
    ∧ nextIs (.coreReturnDone 2 2 7 0) (mon.setCore 2 { state := .returning }) (fun t => (t.core 2).state = .fenced
      ∧ bitsOf (t.reg (.core 2 .ucErr)) 13 0 = 7) = true := by decide +kernel
theorem test_release :
    nextIs (.coreRelease monAcc 4) releasing (fun t => t.reg (.g .coreRelease) = 4) = true
    ∧ nextIs (.coreRelease monAcc 8) releasing (fun t => t.reg (.g .coreRelease) = 0) = true
    ∧ nextIs (.cxStart monAcc 9 0x1234) ((mon.setCore 2 { state := .running }).setReg (cxReg 9 .startLo) 0) (fun t =>
      (t.ctx 9).occ = .monitor ∧ (t.ctx 9).pc = 0x123400000000) = true
    ∧ nextIs (.coreReturn monAcc 4) (releasing.setCore 2 { state := .fenced, vecWritten := true }) (fun t =>
      (t.core 2).state = .returning) = true
    ∧ nextIs (.coreFenceDone 2) (mon.setCore 2 { state := .running, fencing := true }) (fun t => (t.core 2).state = .fenced) = true := by
  decide +kernel
theorem witness_LedgerCoreLifeCycle :
    releasing.reaches monAcc (.g .coreRelease) 4 = true ∧ releasing.accWorld monAcc (.g .coreRelease) = .secure
    ∧ releasing.mayStart 2 = true ∧ writes1 monAcc 4 2 = true
    ∧ bitAt ((releasing.setReg (.g .coreRelease) 4).reg (.g .coreRelease)) 2 = true ∧ (releasing.core 2).state = .held
    ∧ releasing.tide.stopping = false ∧ releasing.ue.patchPoison = [] ∧ romHas 0 7 = true
    ∧ (let s := mon.setCore 2 { state := .running }
       s.reaches monAcc (cxReg 9 .startHi) 0x1234 = true ∧ (s.ctx 9).occ = .free ∧ s.pooled 9 = false
       ∧ (s.core (coreOf 9)).state = .running ∧ bitsOf (0x1234 : Word32) 30 16 = 0 ∧ lanesOf monAcc = 0xF)
    ∧ mon.reaches monAcc (.g .coreFence) 0x40000 = true ∧ (∀ k : CoreId, writes1 monAcc 0x40000 (16 + k.toNat) = decide (k = 2))
    ∧ (mon.core 2).state = .held
    ∧ (let s := mon.setCore 2 { state := .running, fencing := true }
       (s.core 2).state = .running ∧ (s.core 2).fencing = true ∧ (s.core 2).fenceWhy < 4
       ∧ ∀ i : BitVec 2, s.fenceWaits (ctxOf 2 i) = false ∧ (s.ctx (ctxOf 2 i)).storeBuf = []) := by decide +kernel
theorem witness_core_return :
    (let s := releasing.setCore 2 { state := .fenced, vecWritten := true }
     s.reaches monAcc (.d .coreReturn) 4 = true ∧ (∀ k : CoreId, writes1 monAcc 4 k.toNat = decide (k = 2))
       ∧ (s.core 2).state = .fenced ∧ s.mayStart 2 = true)
    ∧ ((mon.setCore 2 { state := .returning }).core 2).state = .returning ∧ mon.ue.patchPoison = [] ∧ mon.tide.stopping = false
    ∧ ((mon.setCore 2 { state := .returning, romBad := some (7, 1) }).core 2).romBad = some (7, 1) := by decide +kernel
/-- Core 1 runs with its contexts pooled, and tenant 5's context block, at the bottom of DRAM, holds a PC and a good CSW. -/
def pool : State :=
  let s := ((mon.setCore 1 { state := .running }).setReg (.core 1 .dispatch) 15).setReg (.d .ctxBaseLo) 1
  let s := s.setReg (.g .dramStatus) 0x11011
  { s with mem := memSetAll (memSetAll (memSetAll [] 0x1400 [0x78, 0x56]) 0x1408 [0x10, 0, 0, 0, 5]) 0x1450 [9] }
/-- Tenant 5 is pending for cluster 0. -/
def awaits : State := (pool.upSite 5 (fun v => { v with tstate := .pending })).setReg (.site 5 .affinity) 0x20
/-- Tenant 5 stands on context 4. -/
def onCore : State :=
  let s := (pool.setReg (.site 5 .affinity) 0x20).upSite 5 (fun v => { v with tstate := .loaded, onCtx := 4 })
  s.upCtx 4 (fun c => { c with occ := .tenant 5, pc := 0x5678, csw := 0x500000010 })
theorem test_dispatch :
    nextIs (.dispatchLoad 0) awaits (fun t => (t.site 5).tstate = .loaded ∧ (t.ctx 4).pc = 0x5678 ∧ (t.ctx 4).getG 2 = 9) = true
    ∧ nextIs (.tenantSave 5) (onCore.upSite 5 (fun v => { v with save := some .hold })) (fun t =>
      (t.site 5).tstate = .idle ∧ (t.ctx 4).occ = .free ∧ t.memRead 0x1400 3 = [0x78, 0x56, 0]) = true
    ∧ nextIs (.cbPreempt monAcc 1 1) onCore (fun t => (t.site 5).save = some .preempt) = true
    ∧ nextIs (.poolClear monAcc 1 14) onCore (fun t => (t.site 5).save = some .pool) = true := by decide +kernel
/-- A key array at 0x3000000. -/
def keyed (s : State) : State := s.setReg (.d .keyBaseLo) 0x3000001
theorem witness_TenantsAreLoadedAndSaved_load :
    awaits.tide.busy = false ∧ awaits.nextLoad 0 = some (5, 4) ∧ awaits.anyPoison (awaits.blockAddr 5) 0x400 = false
    ∧ (let s := keyed awaits
       s.keyV = true ∧ s.nextLoad 0 = some (5, 4) ∧ ∀ i, i < 0x400 → s.inKeyArray (s.blockAddr 5 + i) = false)
    ∧ blockCswGood 5 (blockSlot (awaits.memRead (awaits.blockAddr 5) 0x400) 8) = true
    ∧ (awaits.core (coreOf 4)).nmiWait = false
    ∧ (let s := { awaits with mem := [] }
       s.nextLoad 0 = some (5, 4) ∧ blockCswGood 5 (blockSlot (s.memRead (s.blockAddr 5) 0x400) 8) = false) := by decide +kernel
theorem witness_TenantsAreLoadedAndSaved_save :
    (let s := onCore.upSite 5 (fun v => { v with save := some .hold })
     (s.site 5).save = some .hold ∧ (s.site 5).tstate = .loaded ∧ (s.site 5).onCtx = 4 ∧ s.saveHeld 4 = false
      ∧ (s.ctx 4).savePoint = true ∧ (s.ctx 4).storeBuf = [] ∧ (s.ctx 4).storeErr = none ∧ (s.ctx 4).inEncl = none
      ∧ (s.site 5).enClear = false ∧ (keyed s).keyV = true
      ∧ (∀ i, i < 0x400 → (keyed s).inKeyArray (s.blockAddr 5 + i) = false) ∧ s.droppedWords (s.blockAddr 5) 0x400 = [])
    ∧ ctxOf 1 0 = (4 : CtxId) ∧ (onCore.ctx 4).occ = .tenant 5 ∧ (onCore.site 5).tstate = .loaded ∧ (onCore.site 5).save = none
    ∧ onCore.reaches monAcc (.core 1 .preempt) 1 = true ∧ (∀ k < 4, writes1 monAcc 1 k = decide (k = (0 : BitVec 2).toNat))
    ∧ onCore.reaches monAcc (.core 1 .dispatch) 14 = true ∧ lanesOf monAcc = 0xF ∧ onCore.reg (.core 1 .dispatch) = 15
    ∧ (∀ k < 4, bitAt (14 : Word32) k = decide (k ≠ (0 : BitVec 2).toNat)) := by decide +kernel
/-- Tenant 6 waits for cluster 0, whose only context that is free for tenants is taken by tenant 5, its quantum over. -/
def overdue : State :=
  let s := ((onCore.setReg (.core 1 .dispatch) 1).setReg (.core 1 .quantum) 1).upSite 6 (fun v => { v with tstate := .pending })
  { s.setReg (.site 6 .affinity) 0x20 with time := 5000 }
theorem test_quantum : nextIs (.quantum 0) overdue (fun t => (t.site 5).save = some .quantum) = true := by decide +kernel
theorem witness_quantum :
    (overdue.tenantsIn 0 .pending).filter (fun m => (overdue.place m).isNone && !(overdue.site m).quantumAsked) = [6]
    ∧ overdue.quantumVictim 6 [] = some 5 ∧ (overdue.site 5).tstate = .loaded ∧ (overdue.site 5).save = none := by decide +kernel
theorem test_site_control :
    nextIs (.enWritten1 monAcc 5 1) { mon with ctxBaseSet := true, siteBufSet := true } (fun t => (t.site 5).tstate = .idle) = true
    ∧ nextIs (.enWritten1 monAcc 5 1) mon (fun t => (t.site 5).tstate = .absent ∧ bitAt (t.reg (.site 5 .status)) 9 = true) = true
    ∧ nextIs (.enWritten0 monAcc 5 0) ((mon.setReg (.site 5 .ctrl) 1).upSite 5 (fun v => { v with tstate := .idle }))
      (fun t => (t.site 5).tstate = .absent) = true
    ∧ nextIs (.fault monAcc 5 0x100) (mon.upSite 5 (fun v => { v with tstate := .idle })) (fun t => (t.site 5).tstate = .faulted
      ∧ t.reg (.site 5 .faultInfo) = 0x10080) = true
    ∧ nextIs (.resume monAcc 5 0x200) (mon.upSite 5 (fun v => { v with tstate := .faulted })) (fun t => (t.site 5).tstate = .idle) = true
    ∧ nextIs (.holdWritten1 monAcc 5 2) (mon.upSite 5 (fun v => { v with tstate := .idle })) (fun t => (t.site 5).tstate = .held) = true
    ∧ nextIs (.holdWritten0 monAcc 5 0) ((mon.setReg (.site 5 .ctrl) 2).upSite 5 (fun v => { v with tstate := .held }))
      (fun t => (t.site 5).tstate = .idle) = true := by decide +kernel
theorem witness_SiteControlEvents :
    mon.reaches monAcc (.site 5 .ctrl) 1 = true ∧ mon.reaches monAcc (.site 5 .ctrl) 0x100 = true ∧ mon.tide.busy = false
    ∧ (mon.site 5).txn ≠ .undelivered ∧ mon.reg (.site 5 .ctrl) = 0 ∧ (mon.setReg (.site 5 .ctrl) 3).reg (.site 5 .ctrl) = 3
    ∧ writes1 monAcc 1 0 = true ∧ writes1 monAcc 1 8 = false ∧ writes1 monAcc 1 9 = false ∧ writes1 monAcc 1 10 = false
    ∧ writes1 monAcc 0x100 8 = true ∧ writes1 monAcc 0x100 9 = false ∧ writes1 monAcc 0x100 10 = false
    ∧ writes0 monAcc 0 0 = true ∧ writes1 monAcc 0x400 10 = true ∧ writes1 monAcc 0x200 9 = true
    ∧ ((mon.upSite 5 (fun v => { v with tstate := .faulted })).site 5).tstate = .faulted := by decide +kernel
/-- A frame of site 5 waits unacknowledged in UNDELIVERED, its station present. -/
def undelivered : State :=
  let s := (mon.upSite 5 (fun v => { v with tstate := .idle, txn := .undelivered, unacked := [{ slot := 0, seq := 1, utype := 2, len := 4 }] }))
  { s with links := smSet s.links {} 0 { (s.link 0) with state := .up, stations := [(5, { present := true })] } }
theorem witness_autoReplay : (undelivered.site 5).txn = .undelivered ∧ (undelivered.site 5).woffPending = false
    ∧ (undelivered.site 5).unacked ≠ [] ∧ undelivered.stationUp 5 = true ∧ undelivered.reaches monAcc (.site 5 .ctrl) 4 = true
    ∧ writes1 monAcc 4 2 = true := by decide +kernel

/-! ## The journal, the keys and the command rings -/

/-- DRAM above a weir of 0, the monitor running. -/
def dramMon : State := (mon.setReg (.g .dramStatus) 0x11011).setReg (.d .secWeirHi) 0
/-- Site 5's ring of 2 slots stands at 0x10000. -/
def ringAt : State :=
  ((dramMon.setReg (.site 5 .jrnlBaseLo) 0x10001).setReg (.site 5 .jrnlTail) 1).upSite 5 (fun v => { v with ringSet := true })
/-- The copy an append works from. -/
def copy1 : OpCopy := { key := 7, epoch := 1, encSite := false, slot := 0, gen := 0, time := 0, superseded := false, revoked := false }
/-- A clear is in progress in that ring. -/
def clearing : State :=
  ringAt.upSite 5 (fun v => { v with clearPending := true, appends := [{ kind := .clear, began := some copy1 }] })
theorem test_journal :
    nextIs (.clearSettlement 5) (ringAt.upSite 5 (fun v => { v with clearPending := true })) (fun t =>
      (t.site 5).appends.map Append.kind = [.clear]) = true
    ∧ nextIs (.sbJrnlTailWrite monAcc 5 4) ((ringAt.setReg (.site 5 .jrnlHead) 3)) (fun t => t.reg (.site 5 .jrnlTail) = 4) = true
    ∧ nextIs (.sbJrnlTailWrite monAcc 5 5) ((ringAt.setReg (.site 5 .jrnlHead) 3)) (fun t => t.reg (.site 5 .jrnlTail) = 1) = true
    ∧ nextIs (.ringInstall monAcc 5 0) { dramMon with stagedLo := [(pairKey (.ctx 64) (.site 5 .jrnlBaseLo), some (0x20002, 0xF))] }
      (fun t => t.reg (.site 5 .jrnlBaseLo) = 0x20002 ∧ (t.site 5).appends.map Append.kind = [.opening]) = true := by decide +kernel
theorem witness_JournalAppends :
    (let s := ringAt.upSite 5 (fun v => { v with clearPending := true })
     (s.site 5).clearPending = true ∧ (s.site 5).txn = .idle ∧ (s.site 5).clearQueued = false)
    ∧ ringAt.reaches monAcc (.site 5 .jrnlTail) 1 = true ∧ lanesOf monAcc = 0xF ∧ ringAt.tail 5 = 1 ∧ ringAt.head 5 = 0
    ∧ dramMon.reaches monAcc (.site 5 .jrnlBaseHi) 0 = true ∧ monAcc.req ≠ .host
    ∧ dramMon.accWorld monAcc (.site 5 .jrnlBaseHi) = .secure ∧ (dramMon.site 5).txn = .idle ∧ dramMon.opInFlight 5 = false
    ∧ (let s := { dramMon with stagedLo := [(pairKey (.ctx 64) (.site 5 .jrnlBaseLo), some (0x20002, 0xF))] }
       let st := s.stagedOf (whoOf monAcc) (.site 5 .jrnlBaseLo)
       let lo := mergeBits (s.reg (.site 5 .jrnlBaseLo)) (laneMask st.2 &&& 0xFFFFF00F) st.1
       let hi := mergeBits (s.reg (.site 5 .jrnlBaseHi)) 0xFF (0 : Word32)
       s.ringPlaced 5 (baseOf lo hi 12) (bitsOf lo 3 0) = true) := by decide +kernel
theorem witness_appendComplete :
    (clearing.site 5).appends = [{ kind := .clear, began := some copy1 }] ∧ copy1.revoked = false ∧ clearing.ringAllowed 5 = true
    ∧ clearing.wantsIv 5 { kind := .clear, began := some copy1 } copy1 = false
    ∧ clearing.effectiveKind 5 .clear = .clear ∧ clearing.poison = [] ∧ clearing.upset = [] := by decide +kernel
/-- A post of GENKEY for tenant 5 on ring 0 at 0x30000 and one of VERIFY of its record 2 on ring 1 at 0x38000. -/
def posted : State :=
  let s := ((dramMon.setReg (.curlew (.crBaseLo 0)) 0x30000).setReg (.curlew (.crProd 0)) 1).setReg (.curlew .vaultLo) 0x60001
  let s := { s with curlew := { s.curlew with bbk := 3, bbkValid := true }, drbg := { instantiated := true } }
  let s := ((s.setReg (.curlew (.crBaseLo 1)) 0x38000).setReg (.curlew (.crProd 1)) 1).setReg (.site 5 .jrnlBaseLo) 0x70002
  let s := (s.setReg (.site 5 .jrnlHead) 2).setReg (.site 5 .jrnlTail) 1
  { s with mem := memSetAll (memSetAll [] 0x30000 [1, 0, 0, 0, 5, 0, 5, 0]) 0x38000 [3, 0, 0, 0, 5, 0, 5, 0, 2, 0, 0, 0, 2] }
theorem witness_CommandRings :
    posted.nextDesc 0 = some { op := 1, flags := 0, first := 5, last := 5, seqFrom := 0, seqTo := 0, clean := true }
    ∧ posted.badDesc 0 { op := 1, flags := 0, first := 5, last := 5, seqFrom := 0, seqTo := 0, clean := true } = false
    ∧ (keyed posted).keyV = true ∧ (∀ i, i < 64 → (keyed posted).inKeyArray (posted.descAddr 0 + i) = false)
    ∧ (∀ i, i < 128 → (keyed posted).inKeyArray (posted.vaultBase + 128 * 5 + i) = false)
    ∧ posted.anyPoison (posted.descAddr 0) 64 = false ∧ posted.upset = [] ∧ posted.crProd 0 = (posted.crCons 0 + 1) % 65536 ∧ (posted.site 5).appends = []
    ∧ posted.curlew.bbk = 3 ∧ posted.vaultV = true ∧ posted.drbg.instantiated = true
    ∧ posted.descAddr 0 + 64 ≤ posted.vaultBase + 128 * 5
    ∧ (let s := posted.setReg (.curlew (.crProd 0)) 0
       s.reaches monAcc (.curlew (.crProd 0)) 1 = true
       ∧ ((s.setReg (.curlew (.crProd 0)) (mergeBits (s.reg (.curlew (.crProd 0)))
            (laneMask (lanesOf monAcc) &&& (KReg.spec (.crProd 0)).rw) 1)).nextDesc 0).isSome = true) := by decide +kernel
theorem witness_kwrapStaged :
    (let s := { posted with mem := memSetAll [] 0x30000 [2, 0, 0, 0, 5, 0, 5, 0], ue := { stageValid := true } }.setReg (.curlew .stageLo) 0x80001
     s.nextDesc 0 = some { op := 2, flags := 0, first := 5, last := 5, seqFrom := 0, seqTo := 0, clean := true }
     ∧ s.ue.stageValid = true ∧ s.stageV = true ∧ s.vaultEmpty 5 = true ∧ (∀ i, i < 128 → s.inKeyArray (s.stageBase + 128 * 5 + i) = false)
     ∧ s.descAddr 0 + 64 ≤ s.stageBase + 128 * 5) := by decide +kernel

/-- The 64 bytes of a vault entry of tenant 5 before its tag: V set, epoch 1, everything else 0. -/
def vaultHead : List Byte := [1, 0, 5, 0, 1] ++ List.replicate 59 0
/-- The key that wraps tenant 5's. -/
def vaultKw : BitVec 256 := deriveKw 3 5 (leBytes 16 posted.uid)
/-- FIPS 180-4's digest of the three bytes "abc". -/
theorem test_sha384_abc : sha384 [0x61, 0x62, 0x63] =
    0xcb00753f45a35e8bb5a03d699ac65007272c32ab0eded1631a8b605a43ff5bed8086072ba1e7cc2358baeca134c825a7#384 := by decide +kernel

/-- FIPS 197's example of AES-256. -/
theorem test_aes256 : aesBlock (aesKeys (beBytes 32 0x000102030405060708090a0b0c0d0e0f101112131415161718191a1b1c1d1e1f))
    (beBytes 16 0x00112233445566778899aabbccddeeff) = beBytes 16 0x8ea2b7ca516745bfeafc49904b496089 := by decide +kernel

/-- The tag of the entry. -/
def vaultTag : BitVec 128 := gcmTag vaultKw (slice vaultHead 0x10 12) (slice vaultHead 0 32) (slice vaultHead 0x20 32)
/-- The entry. -/
def vaultBytes : List Byte := vaultHead ++ leBytes 16 vaultTag.toNat ++ List.replicate 48 0
/-- `posted` with that entry in the vault. -/
def vaulted : State := { posted with mem := memSetAll posted.mem 0x60280 vaultBytes }
theorem uid_with_mem (s : State) (m : List Host.Cell) : State.uid { s with mem := m } = s.uid := rfl
theorem mem_with_mem (s : State) (m : List Host.Cell) : State.mem { s with mem := m } = m := rfl
theorem vaultBytes_length : vaultBytes.length = 128 := by simp [vaultBytes, vaultHead, leBytes]
theorem vaulted_entry : vaulted.vaultEntry vaulted.vaultBase 5 = vaultBytes := by
  have h0 : vaulted.vaultBase + 128 * (5 : SiteId).toNat = 0x60280 := by decide +kernel
  have hp : ∀ a, vaulted.poisoned a = false := fun a => rfl
  rw [State.vaultEntry, h0, State.memRead]
  simp only [hp, State.memByte]
  apply List.ext_getElem
  · simp [vaultBytes_length]
  · intro i h1 h2
    simp only [List.length_map, List.length_range] at h1
    have h := Laws.smGet_memSetAll vaultBytes posted.mem 0x60280 (0x60280 + i)
    rw [if_pos (by rw [vaultBytes_length]; omega)] at h
    have hm : vaulted.mem = memSetAll posted.mem 0x60280 vaultBytes := by unfold vaulted; exact mem_with_mem posted _
    simp only [List.getElem_map, List.getElem_range, hm, Bool.false_eq_true, if_false]
    rw [h, Nat.add_sub_cancel_left, List.getD_eq_getElem?_getD, List.getElem?_eq_getElem h2]; rfl
/-- The number of the 16 bytes of a number below 2 to the 128. -/
theorem leNat_leBytes16 (v : BitVec 128) : leNat (leBytes 16 v.toNat) = v.toNat := by
  have h := v.isLt
  simp only [leBytes, List.range_succ, List.range_zero, List.map_cons, List.map_nil, List.nil_append,
    List.cons_append, leNat, byteOf, BitVec.toNat_ofNat, Nat.shiftRight_eq_div_pow]
  omega
theorem vaulted_unwrap : ∃ u, vaulted.unwrap 5 = some u := by
  have hk : deriveKw 3 5 vaulted.uidBytes = vaultKw := by
    have h : vaulted.uid = posted.uid := by unfold vaulted; exact uid_with_mem posted _
    rw [vaultKw, State.uidBytes, h]
  have hb : vaulted.curlew.bbk = 3 := by unfold vaulted; rfl
  have hv : vaulted.vaultReadable 5 = true := by decide +kernel
  have h : leNat (slice vaultBytes 0x40 16) = vaultTag.toNat := leNat_leBytes16 vaultTag
  have ht : gcmTag vaultKw (slice vaultBytes 0x10 12) (slice vaultBytes 0 32) (slice vaultBytes 0x20 32) = vaultTag := rfl
  have h1 : leNat (slice vaultBytes 0 1) = 1 := rfl
  have h2 : leNat (slice vaultBytes 2 2) = 5 := rfl
  have h3 : slice vaultBytes 1 1 = [0] := rfl
  have h4 : slice vaultBytes 6 10 = List.replicate 10 0 := rfl
  have h5 : slice vaultBytes 0x1C 4 = List.replicate 4 0 := rfl
  have h6 : slice vaultBytes 0x50 48 = List.replicate 48 0 := rfl
  simp only [State.unwrap, hb, hv, if_true, hk, vaulted_entry]
  rw [unwrapEntry, if_pos]
  · exact ⟨_, rfl⟩
  · rw [ht, h, h1, h2, h3, h4, h5, h6]; exact ⟨rfl, by omega, rfl, rfl, rfl, rfl, rfl, rfl⟩
/-- Site 5 waits for its key, and a key load for it is queued. -/
def asking : State :=
  { vaulted.upSite 5 (fun v => { v with ringSet := true, appends := [{ kind := .clear }] }) with
    curlew := { vaulted.curlew with loads := [5] } }
theorem unwrap_with_site (s : State) (n : SiteId) (f : Site → Site) (l : List SiteId) :
    State.unwrap { s.upSite n f with curlew := { s.curlew with loads := l } } = s.unwrap := rfl
theorem witness_KeysAreLoaded : (∃ u, asking.unwrap 5 = some u)
    ∧ asking.slotOf 5 = none ∧ asking.chooseSlot = some 0 ∧ (asking.keySlot 0).loaded = false
    ∧ asking.needsKey 5 = true ∧ (asking.site 5).keyState ≠ 3 ∧ asking.opCount < 8 ∧ asking.curlew.loads.head? = some 5 := by
  refine ⟨?_, by decide +kernel⟩
  obtain ⟨u, h⟩ := vaulted_unwrap
  exact ⟨u, by unfold asking; rw [unwrap_with_site]; exact h⟩
/-- A key load for site 5 is queued, and it has no append. -/
def loading : State := { vaulted.upSite 5 id with curlew := { vaulted.curlew with loads := [5] } }
theorem witness_kloadDone : (∃ u, loading.unwrap 5 = some u) ∧ loading.slotOf 5 = none ∧ loading.chooseSlot = some 0
    ∧ (loading.keySlot 0).loaded = false ∧ loading.curlew.loads = [5] ∧ (loading.site 5).appends = []
    ∧ vaulted.curlew.loads = [] := by
  refine ⟨?_, by decide +kernel⟩
  obtain ⟨u, h⟩ := vaulted_unwrap
  exact ⟨u, by unfold loading; rw [unwrap_with_site]; exact h⟩
theorem witness_KeysAreLoaded_others :
    posted.reaches monAcc (.curlew .cwReq) 1 = true ∧ writes1 monAcc 1 0 = true
    ∧ (let s := ringAt.upSite 5 (fun v => { v with appends := [{ kind := .settle, began := some copy1 }] })
       (s.site 5).appends = [{ kind := .settle, began := some copy1 }] ∧ bitAt (s.reg (.d .integRecInfo)) 0 = false) := by decide +kernel
/-- VERIFY of record 2 of tenant 5, its key in slot 3, its tail 1 and head 2, is next on ring 1. -/
theorem witness_verify :
    (let s := (posted.upSite 5 (fun v => { v with keyState := 2 })).setKeySlot 3 { loaded := true, tenant := 5 }
     s.liveSlot 5 = some 3 ∧ s.tail 5 = 1 ∧ s.head 5 = 2 ∧ Tide.hasSite s.tide.entries 5 = false ∧ (keyed s).keyV = true
     ∧ (keyed s).meetsKeyArray (s.slotAddr 5 1) 0x1000 = false ∧ (∀ i, i < 64 → (keyed s).inKeyArray (s.descAddr 1 + i) = false)
     ∧ s.anyPoison (s.descAddr 1) 64 = false ∧ (s.site 5).appends = []
     ∧ s.nextDesc 1 = some { op := 3, flags := 0, first := 5, last := 5, seqFrom := 2, seqTo := 2, clean := true }
     ∧ s.badDesc 1 { op := 3, flags := 0, first := 5, last := 5, seqFrom := 2, seqTo := 2, clean := true } = false
     ∧ s.crProd 1 = (s.crCons 1 + 1) % 65536) := by decide +kernel


/-! ## System registers, events, links and frames -/

/-- An enclave table under commit; memory holds no valid descriptor. -/
def committing : State := { mon.setReg (.d .enclStatus) 1 with enclCtl := 1 }
/-- Bittern is enabled. -/
def watched : State := mon.setReg (.d .wdtCtrl) 0x0003E801
theorem test_system_registers :
    nextIs (.assignWrite monAcc (BitVec.ofNat 40 (Reg.d .assignLine).addr) 0xFF) mon (fun t => t.reg (.d .assignLine) = 0xFF) = true
    ∧ nextIs (.sramWeirWrite monAcc 0x1000) mon (fun t => t.sramWeir = 0xF000001000) = true
    ∧ nextIs (.wdtKick monAcc 0) { watched with wdtHalf := true } (fun t => t.wdtHalf = false) = true
    ∧ nextIs .watchdogWarning watched (fun t => t.wdtHalf = true ∧ bitAt (t.reg (.g .hintStatus)) 23 = true) = true
    ∧ nextIs .swdt { watched with wdtHalf := true } (fun t => t.inReset = true ∧ t.reg (.g .resetCause) = 5) = true
    ∧ nextIs .enclCommitDone { committing with enclCtl := 0 } (fun t => t.reg (.d .enclStatus) = 0 ∧ t.encl = []) = true := by decide +kernel
theorem witness_SystemRegisterWrites :
    lanesOf monAcc ≠ 0 ∧ dramMon.reaches monAcc (.d .ctxBaseHi) 0 = true ∧ dramMon.anyTenant = false
    ∧ (let s := { dramMon with stagedLo := [(pairKey (.ctx 64) (.d .ctxBaseLo), some (0x100000, 0xF))] }
       s.secWeir ≤ baseOf (s.newLo monAcc (.d .ctxBaseLo)) (s.newHi monAcc (.d .ctxBaseLo) 0) 20
       ∧ baseOf (s.newLo monAcc (.d .ctxBaseLo)) (s.newHi monAcc (.d .ctxBaseLo) 0) 20 + 0x100000 ≤ s.dramSize)
    ∧ dramMon.reaches monAcc (.d .secWeirHi) 0 = true ∧ dramMon.reg (.g .coreRelease) = 0
    ∧ (dramMon.setReg (.g .coreRelease) 4).reg (.g .coreRelease) ≠ 0
    ∧ baseOf (mon.newLo monAcc (.d .secWeirLo)) (mon.newHi monAcc (.d .secWeirLo) 0) 20 ≠ mon.secWeir
    ∧ mon.reaches monAcc (.d .sramWeir) 0x1000 = true ∧ mon.reaches monAcc (.d .assignLine) 0 = true
    ∧ mon.reaches monAcc (.d .assignLock) 1 = true ∧ mon.reaches monAcc (.d .assignLinkHi) 1 = true
    ∧ mon.reaches monAcc (.curlew .vaultHi) 0 = true ∧ mon.reaches monAcc (.d .keyBaseHi) 0 = true
    ∧ mon.reaches monAcc (.d .siteBufBaseHi) 0 = true := by decide +kernel
theorem witness_SystemRegisterWrites_others :
    mon.reaches monAcc (.d .enclCommit) 1 = true ∧ writes1 monAcc 1 0 = true ∧ bitAt (mon.reg (.d .enclStatus)) 0 = false
    ∧ bitAt (committing.reg (.d .enclStatus)) 0 = true ∧ bitAt committing.enclCtl 0 = true ∧ committing.allPerformed = true
    ∧ (let s := committing.upCtx 64 (fun c => { c with storeBuf := [{ addr := dat, bytes := [1], world := .secure, word := true }] })
       bitAt (s.reg (.d .enclStatus)) 0 = true ∧ s.allPerformed = false)
    ∧ (committing.setReg (.d .sramWeir) 0).enclFailure [] = some (1, 0)
    ∧ mon.reaches monAcc (.d .dbgEn) 1 = true ∧ (lanesOf monAcc).getLsbD 0 = true
    ∧ mon.reaches monAcc (.d .wdtCtrl) 0x6401 = true ∧ bitAt (mon.reg (.d .wdtCtrl)) 31 = false
    ∧ (1 ≤ bitsOf (0x6401 : Word32) 23 8 ∧ bitsOf (0x6401 : Word32) 23 8 ≤ 16000)
    ∧ mon.reaches monAcc (.d .wdtKick) 0 = true ∧ mon.accWorld monAcc (.d .wdtKick) = .secure
    ∧ bitAt (watched.reg (.d .wdtCtrl)) 0 = true ∧ (watched.ctx bootCtx).halted = false := by decide +kernel
/-- The monitor with the interrupt of its doorbell offered, an NMI pending and a recorded bus error. -/
def rung : State :=
  ((mon.upCtx 64 (fun c => { c with csw := 0x26 })).setReg (cxReg 64 .irqPend) 8).setReg (cxReg 64 .irqEn) 8
def nmied : State :=
  let s := mon.upCtx 64 (fun c => { c with nmiPend := true, bankS := { vbr := 0xF000000100 } })
  { s with mem := memSetAll [] 0xF000000110 [0, 2, 0, 0, 0xF0] }
def erred : State := mon.upCtx 64 (fun c => { c with csw := 0x26, storeErr := some { addr := 8, world := .secure, cause := 2, ovf := true } })
theorem test_events :
    nextIs (.nmiEntry 64) nmied (fun t => (t.ctx 64).nmiPend = false ∧ (t.ctx 64).pc = 0xF000000200) = true
    ∧ nextIs .nmiN mon (fun t => (t.ctx bootCtx).nmiPend = true) = true
    ∧ nextIs (.timerCompare 64) ((mon.setReg (.timer (.ctrl 64)) 1)) (fun t => t.reg (cxReg 64 .irqPend) = 2) = true
    ∧ nextIs (.patrolScrub 2) (dramMon.setReg (.d .scrubCtrl) 1) (fun t => t.poisoned 0 = true ∧ t.scrubPos = 8) = true := by
  decide +kernel
theorem witness_EventsBetweenInstructions :
    mon.reaches monAcc (cxReg 9 .doorbell) 1 = true ∧ writes1 monAcc 1 0 = true ∧ mon.inReset = false
    ∧ nmied.nmiReady 64 = true ∧ rung.openBoundary 64 = true ∧ rung.nextIrq 64 = some (28, .secure)
    ∧ (erred.busErrReady 64).isSome = true
    ∧ (let s := mon.upCtx 64 (fun c => { c with haltReq := true })
       s.atBoundary 64 = true ∧ s.haltPermitted 64 = true)
    ∧ bitAt ((dramMon.setReg (.d .scrubCtrl) 1).reg (.d .scrubCtrl)) 0 = true ∧ 8 ≤ dramMon.dramSize
    ∧ dramMon.poisoned dramMon.scrubPos = false ∧ (State.poisoned { dramMon with poison := [(0, true)] } 0) = true
    ∧ (∀ x : CtxId, (mon.ctx x).storeBuf = []) ∧ (∀ u : BitVec 2, smGet mon.spb [] u.toNat = []) := by decide +kernel
/-- Link 0 is UP and station 5 present on it; the tenant of site 5 is installed. -/
def linked : State :=
  let s := (awake.setReg (.site 5 .ctrl) 1).upSite 5 (fun v => { v with tstate := .idle })
  { s with siteBufSet := true, links := smSet s.links {} 0 { state := .up, signal := true, stations := [(5, { present := true })] } }
/-- A frame of station 5 as Table 4.2 lays it out. -/
def frame (type ack : Byte) (flags : Byte) (payload : List Byte) : RxFrame :=
  let h : List Byte := [type, 5 + flags, BitVec.ofNat 8 payload.length, 0, 0, 0, 0, ack, 0, 0, 2, 0] ++ payload
  { bytes := h ++ leBytes 4 (crc32 h).toNat, coding := false }
/-- CRC-32 of the nine digits, the check value of the polynomial that R91 names. -/
theorem test_crc : crc32 [0x31, 0x32, 0x33, 0x34, 0x35, 0x36, 0x37, 0x38, 0x39] = 0xCBF43926 := by decide +kernel
theorem test_link :
    nextIs (.signalPresent 0) awake (fun t => (t.link 0).state = .training ∧ (t.link 0).signal = true) = true
    ∧ nextIs (.blockLock 0) (awake.setLink 0 { state := .training, signal := true }) (fun t => (t.link 0).state = .up) = true
    ∧ nextIs (.signalLost 0) linked (fun t => (t.link 0).state = .down ∧ (t.station 0 5).present = false) = true
    ∧ nextIs (.fenceWritten1 monAcc 0 3) mon (fun t => (t.link 0).state = .fenced) = true
    ∧ nextIs (.loopbackLock 0 9) ((awake.setReg (.link 0 .ctrl) 7).setLink 0 { state := .fenced }) (fun t =>
      (t.link 0).state = .loopback ∧ t.reg (.link 0 .prbsErr) = 9) = true := by decide +kernel
theorem witness_LinksFollowSignalLockAndControls :
    (linked.link 0).state = .up ∧ (awake.link 0).state = .down ∧ awake.linkEn 0 = true ∧ awake.inReset = false
    ∧ State.reset.inReset = true ∧ ((awake.setLink 0 { state := .training }).link 0).state = .training
    ∧ mon.reaches monAcc (.link 0 .ctrl) 3 = true ∧ writes1 monAcc 3 1 = true ∧ writes0 monAcc 1 1 = true
    ∧ (let s := (awake.setReg (.link 0 .ctrl) 7).setLink 0 { state := .fenced }
       (s.link 0).state = .fenced ∧ s.linkEn 0 = true ∧ s.linkFence 0 = true ∧ s.linkLoop 0 = true) := by decide +kernel
/-- The same with a frame, number 3, that waits for its acknowledgement. -/
def waits : State := linked.upSite 5 (fun v => { v with unacked := [{ slot := 0, seq := 3, utype := 2, len := 4 }] })
theorem test_frames :
    nextIs (.data 0 (frame 1 0 0 [1, 2, 3, 4])) linked (fun t => (t.site 5).inbox.length = 1 ∧ (t.station 0 5).inSeq = 1
      ∧ t.memRead (t.inboxSlot 5 0 + 16) 4 = [1, 2, 3, 4]) = true
    ∧ nextIs (.ack 0 (frame 2 3 16 [])) waits (fun t => (t.site 5).unacked = [] ∧ t.reg (.site 5 .seqAck) = 3) = true
    ∧ nextIs (.nak 0 (frame 3 2 16 [])) waits (fun t => (t.site 5).goBacks = 1 ∧ t.sent.length = 1) = true
    ∧ nextIs (.hello 0 (frame 5 0 0 [])) (linked.setLink 0 { state := .up, signal := true }) (fun t =>
      (t.station 0 5).present = true ∧ t.sent.length = 1) = true
    ∧ nextIs (.retransmitTimeout 5) waits (fun t => t.sent.length = 1) = true
    ∧ nextIs (.retransmitTimeout 5 (.uncorrectable (BitVec.ofNat 40 (waits.holdSlot 5 0 + 16)) 0 .none)) (waits.setReg (.g .dramStatus) 0x11011) (fun t =>
      t.sent.all (fun x => crcGood x.bytes) = false ∧ t.reg (.d .integCrcStomp) = 1 ∧ t.reg (.d .integPoisonUse) = 0
      ∧ bitsOf (t.reg (.d .integRecInfo)) 15 8 = 1 ∧ bitsOf (t.reg (.d .integRecInfo)) 23 20 = 3) = true := by decide +kernel
theorem witness_FramesTimersAndHeldTransactions :
    (let r := frame 1 0 0 [1, 2, 3, 4]
     let f := frameFields r.bytes
     (linked.link 0).state = .up ∧ crcGood r.bytes = true ∧ lengthGood r.bytes = true ∧ formatGood r.bytes = true
     ∧ linked.boot.cl0 = false ∧ linked.boot.phase = .off ∧ linked.inReset = false ∧ linked.tide.stopping = false ∧ linked.installedSite 0 5 = some 5 ∧ f.station = 5 ∧ f.type = 1
     ∧ f.ackv = false ∧ f.seq = (linked.station 0 5).inSeq ∧ (linked.site 5).freeInbox = some 0)
    ∧ (let f := frameFields (frame 2 3 16 []).bytes
       f.type = 2 ∧ f.ackv = true ∧ f.ack = 3 ∧ (waits.site 5).unacked = [{ slot := 0, seq := 3, utype := 2, len := 4 }])
    ∧ (let r := frame 3 2 16 []
       let f := frameFields r.bytes
       f.type = 3 ∧ f.ackv = true ∧ f.ack = 3 - 1 ∧ formatGood r.bytes = true ∧ waits.maySend 5 = true ∧ (waits.site 5).goBacks < 16)
    ∧ (frameFields (frame 4 0 0 []).bytes).type = 4 ∧ (frameFields (frame 5 0 0 []).bytes).type = 5
    ∧ State.reset.installedSite 0 5 = none ∧ (linked.station 0 5).present = true := by decide +kernel
/-- The transaction of site 5 is UNSETTLED, its hold timer running and one frame unacknowledged. -/
def unsettled : State := waits.upSite 5 (fun v => { v with txn := .unsettled, holdTimer := some 0 })
theorem test_hold : nextIs (.holdTimer 5) unsettled (fun t => (t.site 5).txn = .undelivered
    ∧ (t.site 5).appends.map Append.kind = [.undelivered { slot := 0, seq := 3, utype := 2, len := 4 }]) = true := by decide +kernel
theorem witness_holdTimer_and_dispose :
    (unsettled.site 5).txn = .unsettled ∧ (unsettled.site 5).holdTimer.isSome = true
    ∧ mon.reaches monAcc (.link 0 .dispose) 0x105 = true ∧ lanesOf monAcc ≠ 0
    ∧ bitsOf ((0x105 : Word32) &&& laneMask (lanesOf monAcc)) 9 8 = 1 ∧ bitsOf ((0x205 : Word32) &&& laneMask (lanesOf monAcc)) 9 8 = 2
    ∧ mon.fedSite 0 5 = some 5 ∧ (undelivered.site 5).txn = .undelivered ∧ undelivered.stationUp 5 = true
    ∧ (mon.setReg (.site 5 .link) 0x3F0F).fedSite 0 5 = none := by decide +kernel

/-! ## Resets, boot, updates, fuses and the maintenance port -/

/-- The reset is over but for its end; the reference clock runs. -/
def clocked : State := { State.reset with elec := { refclkOk := true } }
/-- Readings far above the trip point, and room temperature. -/
def hot : Therm := { r0 := 0x7FFF, r1 := 0, r2 := 0, r3 := 0 }
def room : Therm := { r0 := 200, r1 := 200, r2 := 200, r3 := 200 }
theorem test_resets :
    nextIs (.resetN true) awake (fun t => t.inReset = true ∧ t.reg (.g .resetCause) = 3 ∧ bitAt (t.reg (.boot .status)) 1 = true) = true
    ∧ nextIs (.internalResetEnd 3) clocked (fun t => t.inReset = false ∧ (t.ctx 64).pc = 0xFFFFF00000) = true
    ∧ nextIs (.brownout 2) awake (fun t => t.reg (.g .resetCause) = 0x11) = true
    ∧ nextIs (.clkloss 0) { awake with elec := { refclkOk := true } } (fun t => t.reg (.g .resetCause) = 9) = true
    ∧ nextIs (.thermtrip hot) awake (fun t => t.reg (.g .resetCause) = 0x21) = true
    ∧ nextIs (.droop 4) awake (fun t => bitAt (t.reg (.g .vmonStatus)) 18 = true) = true
    ∧ nextIs (.droop 4) { awake with elec := { porst := true } } (fun t => t.reg (.g .vmonStatus) = awake.reg (.g .vmonStatus)) = true
    ∧ nextIs (.clkloss 1) { awake with elec := { refclkOk := true, pllLock := 0xF } } (fun t => t.elec.pllLock ≠ 0xF ∧ t.inReset = true) = true
    ∧ nextIs .healthFail awake (fun t => bitAt (t.reg (.g .hintStatus)) 25 = true) = true := by decide +kernel
theorem witness_ResetsClocksSuppliesAndRandomness :
    awake.inReset = false ∧ (mon.ctx bootCtx).world = .secure ∧ monAcc.req = .ctx bootCtx
    ∧ mon.reaches monAcc (.boot .softReset) 0xA501 = true ∧ bitAt (0xA501 : Word32) 0 = true ∧ bitsOf (0xA501 : Word32) 15 8 = 0xA5
    ∧ mon.reaches monAcc (.boot .romLock) 1 = true ∧ State.tripped awake hot = true ∧ State.tripped awake room = false
    ∧ clocked.inReset = true ∧ clocked.elec.resetN = false ∧ awake.ue.busy = none ∧ awake.vaultRings = []
    ∧ (State.elec { clocked with elec := { refclkOk := true, resetN := true } }).resetN = true ∧ clocked.elec.refclkOk = true ∧ clocked.port.holdsReset = false ∧ bitAt clocked.elec.railOut 5 = false
    ∧ awake.drbg.instantiated = false ∧ awake.boot.phase = .off ∧ awake.elec.porst = false ∧ clocked.elec.porst = false
    ∧ (State.elec { awake with elec := { refclkOk := true, porst := true } }).porst = true
    ∧ (State.inReset { awake with elec := { refclkOk := true } }) = false
    ∧ (State.drbg { awake with drbg := { instantiated := true } }).instantiated = true := by decide +kernel
/-- A monitor image of one block of eight zero bytes, for 0xF000010000, entered past its header, as Table 19.1 lays it out with its
CRCs, its first byte the lowest. -/
def monBytes : List Byte := leBytes 140
  0x8c28b28a0000000000000000f60843f700000000000000000000000000000000000000000000000000000000000000000000000000000000000000000000000000000000000000000000000000000000000000000000000000000000000000000000000000000000ffff0000000000f000010080000000f0000100000000000c0000000800000101495a5246
/-- The ROM in recovery, a BOOT_END posted. -/
def recovery (stream : List Byte) (type : Word32) : State :=
  { (awake.setReg (.g .mbxCtrl) (type <<< 24 ||| 4)) with
    h2dFull := true, mbxOpen := true, curlew := { sr := 5, drkOff := true }
    boot := { phase := .recovery, stream := stream, trained := true } }
/-- A load found a monitor whose header has a property. -/
def foundMon (r : LoadRes) (p : List Byte → Bool) : Bool :=
  match r with
  | .mon m => p m.header
  | _ => false
theorem test_boot_ends :
    nextIs (.bootRom false true 0 none) { awake with boot := { phase := .ready } } (fun t =>
      bitsOf (t.reg (.g .bootStatus)) 23 16 = 0xF1 ∧ t.bootPhase = 0xF) = true
    ∧ nextIs .rngWaitTimeout { awake with boot := { phase := .rng } } (fun t => t.bootPhase = 0xE ∧
      bitsOf (t.reg (.g .bootStatus)) 23 16 = 0x30) = true := by decide +kernel
theorem test_boot_mailbox :
    nextIs (.bootRom true true 0 none) { awake with boot := { phase := .ready, bmode := 3 } } (fun t => t.mbxOpen = true
      ∧ t.bootPhase = 2) = true := by decide +kernel
theorem test_boot_reply :
    nextIs .bootEnd (recovery [1, 2, 3] 0x11) (fun t => t.boot.stream = [] ∧ t.d2hFull = true) = true := by decide +kernel
set_option maxRecDepth 100000 in
theorem witness_TheBootRomLoadsAndRecovers :
    (let s := recovery monBytes 0x11
     s.boot.phase = .recovery ∧ s.h2dFull = true ∧ s.h2dType = 0x11 ∧ s.boot.streamBad = false ∧ s.boot.waitTrain = false ∧ s.d2hFull = false
     ∧ (let load := State.loadSet { s with h2dFull := false, boot := { s.boot with began := true, streamEnd := true } } none true s.boot.stream
        foundMon load.1 (fun h => decide (hdrField h 0x20 2 ≤ stepping) && decide (stepping ≤ hdrField h 0x22 2)
            && decide (hdrField h 7 1 % 2 = 0)) = true
        ∧ load.2.boot.trained = true ∧ load.2.curlew.sr = 5)) := by decide +kernel
theorem witness_TheBootRom_others :
    (let s := recovery [] 0x10
     s.boot.phase = .recovery ∧ s.h2dFull = true ∧ s.h2dType = 0x10 ∧ s.boot.streamEnd = false ∧ s.h2dBytes = [0, 0, 0, 0]
     ∧ (s.mbxPoison.all (fun e => e.2 == false)) = true
     ∧ (State.loadSet { s with h2dFull := false, boot := { s.boot with began := true, stream := [0, 0, 0, 0] } } none false [0, 0, 0, 0]).1 = .more)
    ∧ (recovery [1, 2, 3] 0x11).loadSet none true [1, 2, 3] = (.fail 3, recovery [1, 2, 3] 0x11)
    ∧ (recovery [] 0x12).h2dType = 0x12
    ∧ (let s : State := { awake with boot := { phase := .ready, bmode := 3 } }
       s.boot.phase = .ready ∧ s.boot.bmode = 3 ∧ s.fuseField 0x240 1 = 0 ∧ s.calRec = none)
    ∧ (let s : State := { awake with boot := { phase := .source, bmode := 3, probed := true, began := true } }
       s.bootEntries = [(3, 0)] ∧ s.boot.entry = 0 ∧ s.boot.waitTrain = false)
    ∧ (let s : State := { awake with curlew := { drkOff := true } }
       s.boot.trained = false ∧ s.curlew.drkOff = true ∧ s.boot.phase = .off ∧ s.dramChans = [])
    ∧ (let s : State := { awake with boot := { phase := .recovery, began := true } }
       s.boot.phase = .recovery ∧ s.boot.began = true ∧ s.boot.waitTrain = false ∧ s.d2hFull = false) := by decide +kernel
/-- A command of the update engine under way. -/
def running (op : BitVec 4) : State :=
  { mon with ue := { busy := some { op := op, src := 0xF000000100, ofs := 0, len := 256, ok := true } } }
/-- Life-cycle state 2: the first four life-cycle fuses are blown and sensed. -/
def owned : State :=
  let f : SMap Bool := [(0, true), (1, true), (2, true), (3, true)]
  { mon with sensed := f, fuses := f }
theorem test_update :
    nextIs (.calSave monAcc) mon (fun t => t.ue.busy.map UeOp.op = some 9) = true
    ∧ nextIs (.erase monAcc) (running 1) (fun t => bitsOf (t.reg (.d .ueStatus)) 15 8 = 0x61) = true
    ∧ nextIs (.disable monAcc 1) mon (fun t => t.reg (.d .ucCtrl) = 1 ∧ t.reg (.d .ucStatus) = 0x20102) = true
    ∧ nextIs (.program monAcc 0x200) owned (fun t => t.fuseCtrl.busy = true) = true
    ∧ nextIs (.fuseCtrlDone true) { owned with fuseCtrl := { busy := true, op := 1, addr := 0x200 } } (fun t =>
      smGet t.fuses false 0x200 = true ∧ t.fuseCtrl.busy = false) = true := by decide +kernel
/-- VERIFY of a bank whose first 16 bytes are erased finds no monitor. -/
theorem witness_verifyBank : (running 5).verifyBank (running 5).ueTarget = .err 0x66 := by
  have hb : bankSize = 16 + 8388592 := rfl
  have h : ((running 5).flashRead (bankOfs (running 5).ueTarget) bankSize).take 16 = List.replicate 16 0xFF := by
    rw [State.flashRead, ← List.map_take, List.take_range, hb, Nat.min_eq_left (by omega)]; rfl
  have he : endMark (List.replicate 16 0xFF) = true := by decide +kernel
  rw [State.verifyBank, verifySet, List.drop_zero, h, if_pos (Or.inr he)]; rfl
/-- The bytes of flash that are not erased: the image `monBytes` at the start of bank A, and `r` in slot 0 of journal copy 0. -/
def flashOf (r : List Byte) : SMap Byte :=
  let at' := fun (o : Nat) (bs : List Byte) => (List.range bs.length).map (fun i => (o + i, bs.getD i 0))
  (at' 0 monBytes ++ at' 0x1000000 r).filter (fun e => e.2 != 0xFF)
/-- VERIFY is under way on bank A, which holds that image. -/
def verifying (r : List Byte) : State := { running 5 with flash := flashOf r }
/-- A set of one image of 140 bytes and an end mark, whatever follows. -/
theorem verify_one (pre tl : List Byte) (n : Nat) (hl : pre.length = 160) (h0 : endMark (pre.take 16) = false)
    (hp : hdrParses (pre.take 128) = true) (hs : imageSize (pre.take 128) = 140)
    (hk : hdrBlocks (pre.take 128) = 1) (hm8 : min (hdrBlock (pre.take 128)) (hdrLen (pre.take 128)) = 8)
    (hc : (crc32c ((pre.drop 128).take 8)).toNat = leNat (slice (pre.drop 128) 8 4))
    (ht : hdrType (pre.take 128) = 1) (he : endMark ((pre.drop 144).take 16) = true) :
    verifySet (pre ++ tl) (n + 2) 0 none = .good { header := pre.take 128, meas := measure (pre.take 140) } := by
  have t16 : (pre ++ tl).take 16 = pre.take 16 := List.take_append_of_le_length (by omega)
  have t128 : (pre ++ tl).take 128 = pre.take 128 := List.take_append_of_le_length (by omega)
  have t140 : (pre ++ tl).take 140 = pre.take 140 := List.take_append_of_le_length (by omega)
  have d128 : (pre ++ tl).drop 128 = pre.drop 128 ++ tl := List.drop_append_of_le_length (by omega)
  have d144 : (pre ++ tl).drop 144 = pre.drop 144 ++ tl := List.drop_append_of_le_length (by omega)
  have u16 : (pre.drop 144 ++ tl).take 16 = (pre.drop 144).take 16 :=
    List.take_append_of_le_length (by rw [List.length_drop]; omega)
  have hb : blocksGood (hdrBlock (pre.take 128)) 1 (hdrLen (pre.take 128)) (pre.drop 128 ++ tl) = true := by
    have l32 : (pre.drop 128).length = 32 := by rw [List.length_drop]; omega
    rw [blocksGood, blocksGood, hm8, slice, List.drop_append_of_le_length (by omega), List.take_append_of_le_length (by omega),
      List.take_append_of_le_length (by rw [List.length_drop]; omega), hc, slice]
    simp
  have hn : ¬ ((pre ++ tl).length < 16 ∨ endMark (pre.take 16) = true) := by
    rw [List.length_append, h0]; simp; omega
  have hm : ¬ ((pre ++ tl).length < 140) := by rw [List.length_append]; omega
  rw [verifySet]
  simp only [List.drop_zero, t16, t128, d128, if_neg hn, hp, hs, hk, hb, ht, t140, decide_eq_false hm, Bool.not_true,
    Bool.or_false, Bool.false_eq_true, if_false, if_true, nextImage]
  rw [verifySet, d144, u16, if_pos (Or.inr he)]; rfl
set_option maxRecDepth 100000 in
/-- VERIFY of that bank finds the monitor in it, whatever the journal holds. -/
theorem verifying_good (r : List Byte) (h : ((verifying r).flashRead 0 160) = monBytes ++ List.replicate 20 0xFF) :
    (verifying r).verifyBank false = .good { header := monBytes.take 128, meas := measure monBytes } := by
  have hb : bankSize = 160 + 8388448 := rfl
  have h1 : ((verifying r).flashRead 0 bankSize).take 160 = monBytes ++ List.replicate 20 0xFF := by
    rw [← h, State.flashRead, ← List.map_take, List.take_range, hb, Nat.min_eq_left (by omega)]; rfl
  have hv := verify_one (monBytes ++ List.replicate 20 0xFF) (((verifying r).flashRead 0 bankSize).drop 160) 524287
  rw [← h1, List.take_append_drop, h1] at hv
  have hz : bankOfs false = 0 := rfl
  rw [State.verifyBank, hz]
  exact hv (by decide +kernel) (by decide +kernel) (by decide +kernel) (by decide +kernel) (by decide +kernel) (by decide +kernel)
    (by decide +kernel) (by decide +kernel) (by decide +kernel)
/-- Two records with bank A VALID and SEQ 1, as Table 19.4 lays them out with their CRCs: under the SHA-384 of that image's header
and payload, and under 48 bytes of 1. -/
def sameRec : List Byte := leBytes 256
  0x3a0ffff0000000000000000000000000000000000000000000000000000000000000000000000000000000000000000000000000000000000000000000000000000000000000000000000000000000000000000000000000000000000000000000000000000000000000000000000000000000000000000000000000000000000000000000000000000000000000000000000000000000000000000000000000000000000000000000000000000000000000000000000000000000000000000022b118e970ed1e322708b95b55c8557168f0620e258ecf8d69a61a31516f3fd77ddb744b468adb6717ed98a71bd8ba6700000000000000000001000200000001
def otherRec : List Byte := leBytes 256
  0xaef49aa4000000000000000000000000000000000000000000000000000000000000000000000000000000000000000000000000000000000000000000000000000000000000000000000000000000000000000000000000000000000000000000000000000000000000000000000000000000000000000000000000000000000000000000000000000000000000000000000000000000000000000000000000000000000000000000000000000000000000000000000000000000000000000001010101010101010101010101010101010101010101010101010101010101010101010101010101010101010101010100000000000000000001000200000001
/-- A key that no entry has reads as the default. -/
theorem smGet_absent {α : Type} (m : SMap α) (d : α) (k : Nat) (h : ∀ e ∈ m, e.1 ≠ k) : smGet m d k = d := by
  induction m with
  | nil => rfl
  | cons e t ih =>
    rw [smGet, if_neg (h e (List.mem_cons_self ..))]
    exact ih (fun x hx => h x (List.mem_cons_of_mem _ hx))
/-- Flash with nothing above slot 0 of copy 0 has no other record. -/
theorem no_other_record (s : State) (h : (s.flash.all (fun e => decide (e.1 < 0x1000100))) = true) (c : Bool) (i : Nat)
    (hi : c = true ∨ i ≠ 0) : recValid (s.slotRecord c i) = false := by
  have hr : s.slotRecord c i = (List.range 256).map (fun _ => (0xFF : Byte)) := by
    refine List.map_congr_left (fun j _ => smGet_absent _ _ _ (fun e he => ?_))
    have he1 := of_decide_eq_true (List.all_eq_true.mp h e he)
    have : 0x1000100 ≤ slotOfs c i := by rcases hi with rfl | hi <;> simp [slotOfs] <;> omega
    omega
  rw [hr]; decide +kernel
/-- What its slot 0 of copy 0 holds is the record in force where it is valid; without, there is none. -/
theorem one_record (s : State) (h : (s.flash.all (fun e => decide (e.1 < 0x1000100))) = true) :
    s.inForce = if recValid (s.slotRecord false 0) then some (false, 0) else none := by
  have ht : s.effectiveSlot true = none := by
    rw [State.effectiveSlot, List.filter_eq_nil_iff.mpr (fun i _ => by simp [no_other_record s h true i (.inl rfl)])]; rfl
  have hf : (List.range 64).filter (fun i => recValid (s.slotRecord false i))
      = (List.range 64).filter (fun i => recValid (s.slotRecord false 0) && decide (i = 0)) := by
    refine List.filter_congr (fun i _ => ?_)
    by_cases hi : i = 0
    · subst hi; simp
    · simp [no_other_record s h false i (.inr hi), hi]
  have hz : s.effectiveSlot false = if recValid (s.slotRecord false 0) then some 0 else none := by
    rw [State.effectiveSlot, hf]
    cases hv : recValid (s.slotRecord false 0)
    · rw [List.filter_eq_nil_iff.mpr (by simp)]; rfl
    · rfl
  rw [State.inForce, ht, hz]
  cases recValid (s.slotRecord false 0) <;> rfl
/-- The target bank of the update engine, and the record in force. -/
theorem verifying_record (r : List Byte) (h : ((verifying r).flash.all (fun e => decide (e.1 < 0x1000100))) = true)
    (hr : (verifying r).slotRecord false 0 = r) (hv : recValid r = true) (hc : recCur r = true) :
    (verifying r).forceRec = r ∧ (verifying r).ueTarget = false := by
  have hi : (verifying r).inForce = some (false, 0) := by
    simp only [one_record (verifying r) h, hr, hv, if_true]
  have hb : (verifying r).boot.booted = none := rfl
  refine ⟨by rw [State.forceRec, hi]; exact hr, ?_⟩
  simp only [State.ueTarget, hb, hi, hr, hc, Bool.not_true]
set_option maxRecDepth 100000 in
theorem witness_verifyGood : (verifying []).inForce = none ∧ (verifying []).boot.booted = none
    ∧ (verifying []).verifyBank (verifying []).ueTarget = .good { header := monBytes.take 128, meas := measure monBytes }
    ∧ bankState (verifying []).forceRec (verifying []).ueTarget ≠ 2 := by
  have hv : recValid ((verifying []).slotRecord false 0) = false := by decide +kernel
  have hk : ((verifying []).flash.all (fun e => decide (e.1 < 0x1000100))) = true := by decide +kernel
  have hi : (verifying []).inForce = none := by rw [one_record _ hk, hv]; exact if_neg Bool.false_ne_true
  have hb : (verifying []).boot.booted = none := rfl
  have ht : (verifying []).ueTarget = false := by
    simp only [State.ueTarget, hb, hi]
  refine ⟨hi, hb, ?_, ?_⟩
  · rw [ht]; exact verifying_good [] (by decide +kernel)
  · rw [ht, State.forceRec, hi]; decide +kernel
set_option maxRecDepth 100000 in
theorem witness_verifyValid : ∀ r ∈ [sameRec, otherRec],
    (verifying r).verifyBank (verifying r).ueTarget = .good { header := monBytes.take 128, meas := measure monBytes }
    ∧ bankState (verifying r).forceRec (verifying r).ueTarget = 2
    ∧ (recMeas (verifying r).forceRec (verifying r).ueTarget = beBytes 48 (measure monBytes).toNat ↔ r = sameRec) := by
  have hm : (measure monBytes).toNat
      = 0x67bad81ba798ed1767db8a464b74db7dd73f6f51311aa6698dcf8e250e62f0687155c8555bb90827321eed70e918b122 := by decide +kernel
  intro r hr
  rcases List.mem_cons.mp hr with rfl | hr
  · obtain ⟨hf, ht⟩ := verifying_record sameRec (by decide +kernel) (by decide +kernel) (by decide +kernel) (by decide +kernel)
    rw [hf, ht, hm]
    exact ⟨verifying_good _ (by decide +kernel), by decide +kernel, by decide +kernel⟩
  · obtain rfl := List.mem_singleton.mp hr
    obtain ⟨hf, ht⟩ := verifying_record otherRec (by decide +kernel) (by decide +kernel) (by decide +kernel) (by decide +kernel)
    rw [hf, ht, hm]
    exact ⟨verifying_good _ (by decide +kernel), by decide +kernel, by decide +kernel⟩
theorem witness_UpdateEngineAndFuseOperations :
    mon.reaches monAcc (.d .ueCmd) 9 = true ∧ mon.ue.busy = none ∧ mon.uePermitted 9 = true ∧ mon.uePermitted 1 = false
    ∧ (running 2).ue.busy.isSome = true ∧ flashTries (.slots 2) < 3 ∧ 3 ≤ flashTries (.slots 3)
    ∧ (running 3).ueSource 0xF000000100 256 = true
    ∧ (running 3).anyPoison 0xF000000100 256 = false ∧ (running 3).flashByte (bankOfs (running 3).ueTarget) = 0xFF
    ∧ mon.calRec = none
    ∧ mon.reaches monAcc (.d .ucCtrl) 1 = true ∧ writes1 monAcc 1 0 = true ∧ mon.reg (.g .coreRelease) = 0
    ∧ owned.fuseCtrl.busy = false ∧ owned.reaches monAcc (.d .fuseCtrl) 0x10200 = true ∧ owned.fuseRefusal 1 0x200 0 = none
    ∧ mon.fuseRefusal 1 0x200 0 = some 1 ∧ owned.reaches monAcc (.d .fuseCtrl) 0x3020000 = true
    ∧ owned.fuseRefusal 2 0 3 = none ∧ owned.fuseRefusal 2 0 1 = some 1 := by decide +kernel
/-- A debug read of 8 bytes at 0xF000000000 waits. -/
def debugging (window : Bool) : State :=
  let req : BitVec 112 := BitVec.ofNat 112 ((if window then 0 else 0xF000000000) + 2 ^ 40 * (if window then 1 else 0) + 3 * 2 ^ 41 + 2 ^ 44)
  { mon with mem := memSetAll [] 0xF000000000 [5, 6], port := { ir := .dae, dae := { req := req, pending := true } } }
theorem test_port :
    nextIs .idcode awake (fun t => t.port.dr = 0xB10245CF) = true
    ∧ nextIs .clamp awake (fun t => t.inReset = true ∧ bitAt (t.reg (.g .resetCause)) 7 = true) = true
    ∧ nextIs .daeComplete (debugging false) (fun t => t.port.dae.rdata = 0x605 ∧ t.port.dae.result = 0 ∧ t.port.dae.done = true) = true
    ∧ nextIs .daeComplete (debugging true) (fun t => t.port.dae.result = 10) = true
    ∧ nextIs (.daeTimeout false) (debugging false) (fun t => t.port.dae.result = 7) = true
    ∧ nextIs (.fuseProg 0x1040) mon (fun t => t.port.fuse.busy = true) = true
    ∧ nextIs (.fusePulseDone true) { mon with port := { fuse := { addr := 0x40, busy := true } } } (fun t =>
      smGet t.fuses false 0x40 = true) = true
    ∧ nextIs (.halt 64 true) mon (fun t => (t.ctx 64).haltReq = true) = true
    ∧ nextIs (.lcAdv 2 512) { mon with sensed := [(0, true), (1, true)], fuses := [(0, true), (1, true)] } (fun t =>
      t.port.lcAdv.done = true ∧ smGet t.fuses false 3 = true) = true
    ∧ nextIs (.bypass 0x05) awake (fun t => t.port.ir = .bypass ∧ t.port.dr = 0) = true
    ∧ nextIs .idcode { mon with port := { fuse := { addr := 0x40, busy := true } } } (fun t => t.port.fuse.busy = false) = true
    ∧ nextIs (.tapReset 0xA5) mon (fun t => t.inReset = true) = true
    ∧ nextIs (.tapReset 0xA4) mon (fun t => t.inReset = false) = true := by decide +kernel
theorem witness_MaintenancePortInstructions :
    mon.port.holdsReset = false ∧ (State.port { mon with port := { ir := .clamp } }).holdsReset = true
    ∧ mon.port.fuse.busy = false ∧ mon.progRefusal 0x40 = none ∧ mon.sortRefused = true
    ∧ State.sortRefused { mon with drbg := { instantiated := true } } = false
    ∧ bitsOf (2 : BitVec 16) 2 0 ≠ 0 ∧ State.lcAdvOk { mon with fuses := [(0, true), (1, true)], sensed := [(0, true), (1, true)] } 2 = true ∧ mon.lcAdvOk 2 = false
    ∧ mon.fuseSupplyBad = false ∧ mon.fuseCtrl.busy = false
    ∧ (debugging false).port.ir = .dae ∧ (debugging false).port.dae.pending = true
    ∧ (let q := daeReq (debugging false).port.dae.req
       q.window = false ∧ (debugging false).daeRefusal q = none ∧ (debugging false).region q.addr = .sram
       ∧ (debugging false).poisoned q.addr = false ∧ q.wr = false)
    ∧ (let q := daeReq (debugging true).port.dae.req
       q.window = true ∧ q.clean = true ∧ q.addr % q.size = 0 ∧ q.addr < 65 * 0x400
       ∧ ((debugging true).ctx (Fin.ofNat 65 (q.addr / 0x400))).halted = false)
    ∧ (mon.ctx 64).halted = false ∧ (bitAt mon.dbgEn 0 = true ∨ bitAt mon.dbgEn 2 = true)
    ∧ ((mon.upCtx 64 (fun c => { c with halted := true })).ctx 64).halted = true
    ∧ (mon.port.ir ≠ .idRead) ∧ State.fuseSupplyBad { mon with port := { ir := .idRead } } = false := by decide +kernel

/-! ## The machine as a whole -/

/-- An empty queue: the block idles for one tick of REFCLK. -/
theorem test_idle : (match step awake with
    | .next t => decide (t.time = 10 ∧ t.pending = [])
    | _ => false) = true := by decide +kernel
/-- The command at the front of the queue is taken first. -/
theorem test_queue : (match step { awake with pending := [.vidStep true, .rngReady] } with
    | .next t => decide (t.elec.vid = 31 ∧ t.pending.length = 1)
    | _ => false) = true := by decide +kernel
theorem witness_EveryStepKeepsTheCanonicalForm : State.reset.canonical = true ∧ mon.canonical = true := by decide +kernel
theorem witness_TapResetNeedsItsValueAndAnEnable :
    (bitAt mon.dbgEn 0 = true ∨ bitAt mon.dbgEn 2 = true)
    ∧ ¬ (bitAt (mon.setReg (.d .dbgEn) 0xF).dbgEn 0 = true ∨ bitAt (mon.setReg (.d .dbgEn) 0xF).dbgEn 2 = true) := by
  decide +kernel
end Sys2Proof.Tests
end

section
/-! SUPPORT. What a register access does by the kind of its register: a plain register, one that reading clears, a record, and
the two halves of a pair (R14, R19, R20, R22, R23, R50). -/

namespace Sys2Proof.Laws

open Sys2Proof Sys2Proof.Machine

/-! ## Access commands that name a register -/

variable {s t : State} {a : Access} {addr : PhysAddr} {d : Word32} {r lo : Reg} {q : Requester} {w : World}

theorem exec_rcRead (hn : namesReg a addr r) (hrc : r.spec.rc ≠ 0) :
    exec (.rcRead a addr) s = .next (s.accessRead a addr) := by
  simp only [exec, execRcRead, placeReg_names a addr r hn, hrc, if_false]

theorem exec_validClear (hn : namesReg a addr r) (hrec : isRecord r = true) (h1 : writes1 a d 0 = true) :
    exec (.validClear a addr d) s = .next (s.accessWrite a addr d) := by
  simp [exec, execValidClear, placeReg_names a addr r hn, hrec, h1]

/-- An access by name to one half of a pair names that half. -/
theorem pairHalf_names {high : Bool} (hn : namesReg a addr r) (hp : r.pairOf = some (lo, high)) :
    pairHalf a addr = some high := by
  simp [pairHalf, placeReg_names a addr r hn, hp]

theorem exec_loRead (hn : namesReg a addr r) (hp : r.pairOf = some (lo, false)) :
    exec (.loRead a addr) s = .next (s.accessRead a addr) := by
  simp [exec, execLoRead, pairHalf_names hn hp]

theorem exec_hiRead (hn : namesReg a addr r) (hp : r.pairOf = some (lo, true)) :
    exec (.hiRead a addr) s = .next (s.accessRead a addr) := by
  simp [exec, execHiRead, pairHalf_names hn hp]

theorem exec_loWrite (hn : namesReg a addr r) (hp : r.pairOf = some (lo, false)) :
    exec (.loWrite a addr d) s = .next (s.accessWrite a addr d) := by
  simp [exec, execLoWrite, pairHalf_names hn hp]

theorem exec_hiWrite (hn : namesReg a addr r) (hp : r.pairOf = some (lo, true)) :
    exec (.hiWrite a addr d) s = .next (s.accessWrite a addr d) := by
  simp [exec, execHiWrite, pairHalf_names hn hp]

/-! ## What the table of pairs says (R22) -/

/-- The upper half that a register names belongs to the same pair as the register (R22). -/
theorem pairOf_hiOf (r : Reg) : r.hiOf.pairOf = r.pairOf.map (fun p => (p.1, true)) := by
  cases r with
  | g r => cases r <;> rfl
  | d r => cases r <;> rfl
  | core c r =>
    cases r with
    | cx x r => cases r <;> rfl
    | _ => rfl
  | boot r =>
    cases r with
    | cx r => cases r <;> rfl
    | _ => rfl
  | site n r => cases r <;> rfl
  | link k r => cases r <;> rfl
  | curlew r => cases r <;> rfl
  | door n r => rfl
  | timer r => cases r <;> rfl

/-- No register whose reading clears a field is half of a pair (R20, R22). -/
theorem pairOf_isNone_or_rc_zero (r : Reg) : (r.pairOf.isNone || r.spec.rc == 0#32) = true := by
  cases r with
  | g r => cases r <;> rfl
  | d r => cases r <;> rfl
  | core c r =>
    cases r with
    | cx x r => cases r <;> rfl
    | _ => rfl
  | boot r =>
    cases r with
    | cx r => cases r <;> rfl
    | _ => rfl
  | site n r => cases r <;> rfl
  | link k r => cases r <;> rfl
  | curlew r => cases r <;> rfl
  | door n r => rfl
  | timer r => cases r <;> rfl

theorem pairOf_of_rc (h : r.spec.rc ≠ 0) : r.pairOf = none := by
  simpa [show r.spec.rc ≠ 0#32 from h] using pairOf_isNone_or_rc_zero r

/-! ## Reads -/

/-- A register that is half of no pair and has no action of its own on reading gives its value, and its RC field is cleared
but for the debug access engine (R20, R526). -/
theorem regRead_plain (hp : r.pairOf = none) (h1 : r ≠ .g .rngData) (h2 : r ≠ .g .updCtrl) :
    s.regRead q w r = (s.regValue w r, if isDae q then s else s.clrReg r r.spec.rc) := by
  unfold State.regRead
  split
  · exact absurd rfl h1
  · exact absurd rfl h2
  · simp only [hp]

theorem regRead_pair {high : Bool} (hp : r.pairOf = some (lo, high)) : s.regRead q w r = s.readPair q w lo high := by
  unfold State.regRead
  split
  · cases hp
  · cases hp
  · simp only [hp]

theorem accessRead_pair {high : Bool} (hn : namesReg a addr r) (hr : s.readsReg a r = true)
    (hp : r.pairOf = some (lo, high)) :
    s.accessRead a addr = (s.readPair (whoOf a) (s.readWorld a r) lo high).2.done
      (s.readPair (whoOf a) (s.readWorld a r) lo high).1 := by
  rw [accessRead_reg s a addr r hn hr, regRead_pair hp]

theorem readPair_hi_captured {v : Word32} (hv : smGet s.snaps none (pairKey q lo) = some v) :
    s.readPair q w lo true = (v, { s with snaps := smSet s.snaps none (pairKey q lo) none }) := by
  simp only [State.readPair, hv, if_true]

theorem readPair_hi_uncaptured (hv : smGet s.snaps none (pairKey q lo) = none) :
    s.readPair q w lo true = (s.regValue w lo.hiOf, s) := by
  simp only [State.readPair, hv, if_true]

/-! ## Writes -/

theorem regWrite_pair {high : Bool} {be : BitVec 4} (hp : r.pairOf = some (lo, high)) :
    s.regWrite q w r be d = s.writePair q w lo high be d := by
  unfold State.regWrite
  simp only [hp]

/-- A write of a register that is half of no pair and holds no tide-class field is the write of its own table. -/
theorem regWrite_live {be : BitVec 4} (hp : r.pairOf = none) (ht : r.isTide = false)
    (hw : s.liveWrite q w r be d = some t) : s.regWrite q w r be d = (true, t) := by
  simp [State.regWrite, hp, ht, Reg.tideLanes, State.inTide, hw]

/-- A write access to a half of a pair that reaches it, and that the pair's own rule accepts, leaves what that rule leaves. -/
theorem accessWrite_pair {high : Bool} (hn : namesReg a addr r) (hr : s.reaches a r d = true)
    (hp : r.pairOf = some (lo, high))
    (hw : s.writePair (whoOf a) (s.accWorld a r) lo high (lanesOf a) d = (true, t)) : s.accessWrite a addr d = t.complete a := by
  refine accessWrite_reg s t a addr r d hn hr (by rw [regWrite_pair hp, hw]) ?_
  rintro rfl
  cases hp

/-- Where a register has no W1C and no W1S bit, a write replaces its RW bits in the enabled lanes (R14, R19). -/
theorem regSpec_apply_rw {sp : RegSpec} {old m : Word32} (hc : sp.w1c = 0) (hs : sp.w1s = 0) :
    sp.apply old m d = mergeBits old (m &&& sp.rw) d := by
  simp only [RegSpec.apply, hc, hs, BitVec.ofNat_eq_ofNat, BitVec.and_zero, BitVec.zero_and, BitVec.not_zero,
    BitVec.and_allOnes, BitVec.or_zero]

/-- SCRATCH0 holds every bit written in an enabled lane (Table 2.7). -/
theorem regWrite_scratch0 (be : BitVec 4) :
    s.regWrite q w (.g .scratch0) be d
      = (true, s.setReg (.g .scratch0) (mergeBits (s.reg (.g .scratch0)) (laneMask be) d)) := by
  refine regWrite_live rfl rfl ?_
  have hm : laneMask be &&& (Reg.g .scratch0).spec.rw = laneMask be := BitVec.and_allOnes
  simp only [State.liveWrite, State.gWrite, State.plainWrite, regSpec_apply_rw (sp := (Reg.g .scratch0).spec) rfl rfl, hm]

/-- Writing 1 to VALID empties a record register (R50, R345). -/
theorem regWrite_record {be : BitVec 4} (hrec : isRecord r = true) (h1 : bitAt (seen be d) 0 = true) :
    s.regWrite q w r be d = (true, s.setReg r 0) := by
  simp only [isRecord, Bool.or_eq_true, decide_eq_true_eq] at hrec
  obtain (rfl | rfl) | rfl := hrec <;>
    exact regWrite_live rfl rfl (by simp [State.liveWrite, State.gWrite, State.dWrite, State.validClear, h1])

/-! ## Pairs -/

theorem writePair_lo {be : BitVec 4} (hm : lo.pairMask ≠ 0) (hbe : be ≠ 0) :
    s.writePair q w lo false be d = (true, s.stageLo q lo be d) := by
  simp only [State.writePair, Bool.not_false, if_true, hm, hbe, or_self, if_false]

/-- A write of the upper half, unless it would move the weir of a running part (R497), drops the staged value and puts both
halves to the pair's own rule (R22). -/
theorem writePair_hi (hbe : lanesOf a ≠ 0) (hlo : lo ≠ .d .secWeirLo) :
    s.writePair (whoOf a) w lo true (lanesOf a) d
      = (true, (s.dropLo (whoOf a) lo).applyPair (whoOf a) w lo (s.newLo a lo) (s.newHi a lo d)) := by
  have hweir (l h : Word32) : s.weirBusy lo l h (lanesOf a) = false := by simp [State.weirBusy, hlo]
  simp only [State.writePair, Bool.not_true, Bool.false_eq_true, hbe, hweir, if_false]
  rfl

/-- An upper half without W1S bits takes its RW bits in the enabled lanes (R14, R19). -/
theorem newHi_rw (hm : lo.hiOf.pairMask = lo.hiOf.spec.rw) (hs : lo.hiOf.spec.w1s = 0) :
    s.newHi a lo d = mergeBits (s.reg lo.hiOf) (laneMask (lanesOf a) &&& lo.hiOf.spec.rw) d := by
  simp only [State.newHi, hm, hs, BitVec.ofNat_eq_ofNat, BitVec.not_zero, BitVec.and_allOnes, BitVec.or_self,
    BitVec.and_zero, BitVec.zero_and, BitVec.or_zero]

/-- A write of the upper half of APER_BASE or SPACE_BASE, which no rule restrains, stores both halves in their enabled
lanes. -/
theorem writePair_base (hlo : lo = .g .aperBaseLo ∨ lo = .d .spaceBaseLo) (hbe : lanesOf a ≠ 0) :
    s.writePair (whoOf a) w lo true (lanesOf a) d = (true, (s.dropLo (whoOf a) lo).setPair lo
      (mergeBits (s.reg lo) (laneMask (s.stagedOf (whoOf a) lo).2 &&& lo.spec.rw) (s.stagedOf (whoOf a) lo).1)
      (mergeBits (s.reg lo.hiOf) (laneMask (lanesOf a) &&& lo.hiOf.spec.rw) d)) := by
  obtain rfl | rfl := hlo
  · rw [writePair_hi hbe (by simp), newHi_rw rfl rfl]; rfl
  · rw [writePair_hi hbe (by simp), newHi_rw rfl rfl]; rfl

end Sys2Proof.Laws
end

section
/-! PROOFS. The register access types and the pairs (spec/00). -/

namespace Sys2Proof.Proofs.Scope

open Sys2Proof Sys2Proof.Machine Sys2Proof.Laws

/-- The read that RC_READ makes (R20), and the exception of the debug access engine (R526). -/
theorem rcRead_clears (s : State) (a : Access) (addr : PhysAddr) (r : Reg) (hn : namesReg a addr r) (hrc : r.spec.rc ≠ 0)
    (hr : s.readsReg a r = true) : exec (.rcRead a addr) s = .next
      ((if isDae (whoOf a) then s else s.clrReg r r.spec.rc).done (s.regValue (s.readWorld a r) r)) := by
  have h1 : r ≠ .g .rngData := fun h => by subst h; exact hrc rfl
  have h2 : r ≠ .g .updCtrl := fun h => by subst h; exact hrc rfl
  rw [exec_rcRead hn hrc, accessRead_reg s a addr r hn hr, regRead_plain (pairOf_of_rc hrc) h1 h2]

/-- R313 for a register store that passes the world check (R377). -/
theorem registerWrite_drains (s : State) (a : Access) (addr : PhysAddr) (data : Word32) (x : CtxId) (hq : a.req = .ctx x)
    (hw : (s.ctx x).world = .secure ∨ s.deviceSecure addr.toNat true = false) :
    exec (.registerWrite a addr data) s = .next ((s.drain x).perform x
      { addr := addr.toNat, bytes := leBytes 4 data.toNat, world := (s.ctx x).world, word := true }) := by
  have hok : ¬ ((s.ctx x).world = .nonSecure ∧ s.region addr.toNat = .device ∧ s.deviceSecure addr.toNat true = true) := by
    rintro ⟨hns, -, hsec⟩
    obtain h | h := hw
    · simp [hns] at h
    · simp [hsec] at h
  simp [exec, execRegisterWrite, State.accessWrite, hq, State.ctxWrite, hok]

/-- Settles O36, by the write or the read of each kind of register. -/
theorem registerAccessTypes : Obligations.RegisterAccessTypes := by
  unfold Obligations.RegisterAccessTypes
  intro s a addr data r hn
  refine ⟨?_, ?_, ?_, fun x => registerWrite_drains s a addr data x⟩
  · rintro rfl hr
    exact congrArg Host.Outcome.next
      (accessWrite_reg s _ a addr _ data hn hr (regWrite_scratch0 _) (fun h => by simp at h))
  · intro hrc hr
    rw [rcRead_clears s a addr r hn hrc hr]
    unfold whoOf
    cases a.req <;> rfl
  · intro hrec h1 hr
    rw [exec_validClear hn hrec h1]
    refine congrArg Host.Outcome.next (accessWrite_reg s _ a addr r data hn hr (regWrite_record hrec h1) ?_)
    rintro rfl
    simp [isRecord] at hrec

/-- Settles O37, by the rules of a pair's two halves. -/
theorem pairsAreReadAndWrittenTogether : Obligations.PairsAreReadAndWrittenTogether := by
  unfold Obligations.PairsAreReadAndWrittenTogether
  intro s a addr data lo hlo
  have hhi : lo.hiOf.pairOf = some (lo, true) := by rw [pairOf_hiOf, hlo]; rfl
  refine ⟨?_, ?_, ?_, ?_, ?_⟩
  · intro hn hr
    rw [exec_loRead hn hlo, accessRead_pair hn hr hlo]
    rfl
  · intro hn hr v hv
    rw [exec_hiRead hn hhi, accessRead_pair hn hr hhi, readPair_hi_captured hv]
  · intro hn hr hv
    rw [exec_hiRead hn hhi, accessRead_pair hn hr hhi, readPair_hi_uncaptured hv]
  · intro hn hr hm hbe
    rw [exec_loWrite hn hlo, accessWrite_pair hn hr hlo (writePair_lo hm hbe)]
    rfl
  · intro hbase hn hr hbe
    rw [exec_hiWrite hn hhi, accessWrite_pair hn hr hhi (writePair_base hbase hbe)]
    rfl

end Sys2Proof.Proofs.Scope
end

section
/-! SUPPORT. Fields of a word, filtered maps, and operations that touch registers alone. -/

namespace Sys2Proof.Laws

open Sys2Proof Sys2Proof.Machine

/-! ## Fields of a word -/

theorem bitAt_setBits {w : Nat} (v : BitVec w) (hi lo x k : Nat) :
    bitAt (setBits v hi lo x) k = if lo ≤ k ∧ k ≤ hi ∧ k < w then x.testBit (k - lo) else bitAt v k := by
  simp only [bitAt, setBits, mergeBits, BitVec.getLsbD_or, BitVec.getLsbD_and, BitVec.getLsbD_not, BitVec.getLsbD_ofNat,
    Nat.testBit_shiftLeft, Nat.testBit_two_pow_sub_one]
  by_cases hw : k < w
  · by_cases hlo : lo ≤ k
    · have h : k - lo < hi + 1 - lo ↔ k ≤ hi := by omega
      by_cases hhi : k ≤ hi <;> simp [hw, hlo, hhi, h]
    · simp [hw, hlo]
  · simp [hw, BitVec.getLsbD_of_ge v k (by omega)]

theorem testBit_bitsOf {w : Nat} (v : BitVec w) (hi lo i : Nat) :
    (bitsOf v hi lo).testBit i = (decide (i < hi + 1 - lo) && bitAt v (lo + i)) := by
  simp [bitsOf, bitAt, BitVec.getLsbD, Nat.testBit_mod_two_pow, Nat.testBit_shiftRight]

/-- The field written reads back. -/
theorem bitsOf_setBits_same {w : Nat} (v : BitVec w) (hi lo x : Nat) (h : hi < w) :
    bitsOf (setBits v hi lo x) hi lo = x % 2 ^ (hi + 1 - lo) := by
  refine Nat.eq_of_testBit_eq fun i => ?_
  rw [testBit_bitsOf, bitAt_setBits, Nat.testBit_mod_two_pow]
  by_cases hi' : i < hi + 1 - lo
  · rw [if_pos (by omega), Nat.add_sub_cancel_left]
  · simp [hi']

/-- A field that does not meet the one written stays. -/
theorem bitsOf_setBits_apart {w : Nat} (v : BitVec w) (hi lo x hi' lo' : Nat) (h : hi' < lo ∨ hi < lo') :
    bitsOf (setBits v hi lo x) hi' lo' = bitsOf v hi' lo' := by
  refine Nat.eq_of_testBit_eq fun i => ?_
  rw [testBit_bitsOf, testBit_bitsOf, bitAt_setBits]
  by_cases hi : i < hi' + 1 - lo'
  · rw [if_neg (by omega)]
  · simp [hi]

theorem bitAt_setBit_same {w : Nat} (v : BitVec w) (k : Nat) (b : Bool) (h : k < w) : bitAt (setBit v k b) k = b := by
  cases b <;> simp [setBit, bitAt_setBits, h]

theorem bitAt_setBit_other {w : Nat} (v : BitVec w) (k j : Nat) (b : Bool) (h : j ≠ k) :
    bitAt (setBit v k b) j = bitAt v j := by
  rw [setBit, bitAt_setBits, if_neg (by omega)]

/-! ## Filtered maps -/

theorem smGet_filter {α : Type} (m : SMap α) (d : α) (p : Nat → Bool) (k : Nat) :
    smGet (m.filter (fun e => p e.1)) d k = if p k then smGet m d k else d := by
  induction m with
  | nil => simp
  | cons e t ih =>
    obtain ⟨j, v⟩ := e
    by_cases hk : j = k
    · subst hk
      by_cases hj : p j <;> simp_all [smGet]
    · by_cases hj : p j <;> simp [hj, smGet, hk, ih]

/-! ## A register that an operation leaves alone -/

section

variable {s t : State} {q : Reg}

theorem reg_ite {p : Prop} [Decidable p] (h : t.reg q = s.reg q) : (if p then t else s).reg q = s.reg q := by
  split
  · exact h
  · rfl

theorem foldl_reg {β : Type} {f : State → β → State} (hf : ∀ s b, (f s b).reg q = s.reg q) (l : List β)
    (s : State) : (l.foldl f s).reg q = s.reg q := by
  induction l generalizing s with
  | nil => rfl
  | cons b l ih => rw [List.foldl_cons, ih, hf]

end

/-! ## Operations that touch registers alone -/

/-- The second state differs from the first in its registers at most. -/
def RegsOnly (s t : State) : Prop := { t with regs := s.regs } = s

namespace RegsOnly

variable {s t u : State}

theorem refl (s : State) : RegsOnly s s := rfl

theorem setReg (s : State) (r : Reg) (v : Word32) : RegsOnly s (s.setReg r v) := rfl

theorem trans (h : RegsOnly s t) (k : RegsOnly t u) : RegsOnly s u := by
  have h' : { ({ u with regs := t.regs } : State) with regs := s.regs } = s := by rw [k]; exact h
  exact h'

theorem ite {p : Prop} [Decidable p] (h : RegsOnly s t) (k : RegsOnly s u) : RegsOnly s (if p then t else u) := by
  split
  · exact h
  · exact k

theorem foldl {β : Type} (f : State → β → State) (l : List β) (s : State) (hf : ∀ s b, RegsOnly s (f s b)) :
    RegsOnly s (l.foldl f s) :=
  foldl_keeps (RegsOnly s) f l s (refl s) fun t b h => h.trans (hf t b)

/-- Whatever does not depend on the registers stays. -/
theorem keeps {β : Type} (h : RegsOnly s t) (f : State → β) (hf : ∀ v m, f { v with regs := m } = f v) :
    f t = f s := by
  rw [← hf t s.regs, h]

theorem boot (h : RegsOnly s t) : t.boot = s.boot := h.keeps State.boot fun _ _ => rfl
theorem ctxs (h : RegsOnly s t) : t.ctxs = s.ctxs := h.keeps State.ctxs fun _ _ => rfl
theorem sensed (h : RegsOnly s t) : t.sensed = s.sensed := h.keeps State.sensed fun _ _ => rfl
theorem flash (h : RegsOnly s t) : t.flash = s.flash := h.keeps State.flash fun _ _ => rfl
theorem curlew (h : RegsOnly s t) : t.curlew = s.curlew := h.keeps State.curlew fun _ _ => rfl
theorem dramChans (h : RegsOnly s t) : t.dramChans = s.dramChans := h.keeps State.dramChans fun _ _ => rfl
theorem memByte (h : RegsOnly s t) (b : Nat) : t.memByte b = s.memByte b :=
  h.keeps (State.memByte · b) fun _ _ => rfl

end RegsOnly

end Sys2Proof.Laws
end

section
/-! SUPPORT. What the boot ROM does from its first step to its sources, and in recovery (spec/18, R437 to R446). -/

namespace Sys2Proof.Laws

open Sys2Proof Sys2Proof.Machine

variable {s t : State}

/-! ## Phases, errors and records -/

theorem setPhase_regsOnly (s : State) (p : Nat) : RegsOnly s (s.setPhase p) := .ite (.refl s) rfl
theorem bootErr_regsOnly (s : State) (c : Nat) : RegsOnly s (s.bootErr c) := .ite rfl (.refl s)
theorem setMeas_regsOnly (s : State) (r : Fin 12 → Reg) (m : BitVec 384) : RegsOnly s (s.setMeas r m) :=
  .foldl _ _ _ fun _ _ => rfl
theorem showJournal_regsOnly (s : State) : RegsOnly s s.showJournal := by
  unfold State.showJournal
  split
  · exact .setReg s _ _
  · exact .setReg s _ _

@[simp] theorem setPhase_boot (s : State) (p : Nat) : (s.setPhase p).boot = s.boot := (setPhase_regsOnly s p).boot

/-! ## BOOT_STATUS -/

/-- BOOT_STATUS.ERROR. -/
def errorCode (s : State) : Nat := bitsOf (s.reg (.g .bootStatus)) 23 16

theorem setPhase_reg (p : Nat) {q : Reg} (h : q ≠ .g .bootStatus) (h' : q ≠ .g .hintStatus) :
    (s.setPhase p).reg q = s.reg q := by
  unfold State.setPhase
  split
  · rfl
  · rw [State.setHint, reg_orReg_other _ _ _ _ h', reg_setReg_other _ _ _ _ h]

theorem bootErr_reg (c : Nat) {q : Reg} (h : q ≠ .g .bootStatus) : (s.bootErr c).reg q = s.reg q := by
  unfold State.bootErr
  dsimp only
  split
  · exact reg_setReg_other _ _ _ _ h
  · rfl

theorem setPhase_bootStatus (p hi lo : Nat) (h : 3 < lo) :
    bitsOf ((s.setPhase p).reg (.g .bootStatus)) hi lo = bitsOf (s.reg (.g .bootStatus)) hi lo := by
  unfold State.setPhase
  split
  · rfl
  · simp [State.setHint, State.orReg, reg_setReg, bitsOf_setBits_apart _ _ _ _ _ _ (.inr h)]

@[simp] theorem bootPhase_setPhase (p : Nat) : (s.setPhase p).bootPhase = p % 16 := by
  unfold State.setPhase
  split
  · next h => rw [← h]; exact (Nat.mod_mod _ _).symm
  · simp [State.bootPhase, State.setHint, State.orReg, reg_setReg, bitsOf_setBits_same]

@[simp] theorem errorCode_setPhase (p : Nat) : errorCode (s.setPhase p) = errorCode s :=
  setPhase_bootStatus p 23 16 (by decide)

/-- The first error stands (R445). -/
theorem errorCode_bootErr {c : Nat} (hc : c < 256) (h : errorCode s = 0) : errorCode (s.bootErr c) = c := by
  have hs : s.bootErr c = s.setReg (.g .bootStatus) (setBits (s.reg (.g .bootStatus)) 23 16 c) := if_pos h
  rw [hs, errorCode, reg_setReg_same, bitsOf_setBits_same _ _ _ _ (by decide)]
  exact Nat.mod_eq_of_lt hc

theorem errorCode_congr (h : t.reg (.g .bootStatus) = s.reg (.g .bootStatus)) : errorCode t = errorCode s := by
  rw [errorCode, h]; rfl

@[simp] theorem errorCode_setReg {r : Reg} {v : Word32} (h : .g .bootStatus ≠ r) :
    errorCode (s.setReg r v) = errorCode s :=
  errorCode_congr (reg_setReg_other s r _ v h)

theorem bootPhase_congr (h : t.reg (.g .bootStatus) = s.reg (.g .bootStatus)) : t.bootPhase = s.bootPhase := by
  rw [State.bootPhase, h]; rfl

/-! ## The first checks (R437, R443) -/

theorem thermCross_reg (seen : Option Int) (now limit : Int) (k : Nat) {q : Reg} (h : q ≠ .g .thermStatus)
    (h' : q ≠ .g .hintStatus) (h'' : q ≠ .d .irqLinePend) : (s.thermCross seen now limit k).reg q = s.reg q := by
  refine reg_ite ?_
  simp only [State.setLine, State.setHint, reg_orReg_other _ _ _ _ h, reg_orReg_other _ _ _ _ h',
    reg_orReg_other _ _ _ _ h'']

theorem thermCheck_reg {q : Reg} (h : q ≠ .g .thermStatus) (h' : q ≠ .g .hintStatus) (h'' : q ≠ .d .irqLinePend) :
    s.thermCheck.reg q = s.reg q := by
  unfold State.thermCheck
  split
  · rfl
  · show ((State.thermCross _ _ _ _ _).thermCross _ _ _ _).reg q = s.reg q
    rw [thermCross_reg _ _ _ _ h h' h'', thermCross_reg _ _ _ _ h h' h'']

theorem tideDone_reg {q : Reg} (h : q ≠ .g .cfgEpoch) (h' : q ≠ .g .hintStatus) (h'' : q ≠ .d .irqLinePend) :
    s.tideDone.reg q = s.reg q := by
  rw [State.tideDone, State.setLine, reg_orReg_other _ _ _ _ h'', State.setHint, reg_orReg_other _ _ _ _ h', State.bumpWrap,
    reg_setReg_other _ _ _ _ h]
  rfl

/-- No user calibration value stands in BOOT_STATUS (R539). -/
theorem loadCal_bootStatus (s : State) : s.loadCal.reg (.g .bootStatus) = s.reg (.g .bootStatus) := by
  unfold State.loadCal
  split
  · rfl
  · rw [thermCheck_reg (by simp) (by simp) (by simp), tideDone_reg (by simp) (by simp) (by simp),
      foldl_reg (q := .g .bootStatus) fun t k => reg_setReg_other t _ _ _ (by simp)]
    simp [reg_setReg]

/-- A halt shows its error and phase 0xF, and no register but theirs changes. -/
theorem reg_bootHalt (c : Nat) (q : Reg) : (s.bootHalt c).reg q = ((s.bootErr c).setPhase 0xF).reg q := by
  rw [State.bootHalt, State.upCtx, setCtx_reg, setBoot_reg]

theorem bootPhase_bootHalt (c : Nat) : (s.bootHalt c).bootPhase = 0xF := by
  rw [bootPhase_congr (reg_bootHalt c _), bootPhase_setPhase]

theorem errorCode_bootHalt {c : Nat} (hc : c < 256) (h : errorCode s = 0) : errorCode (s.bootHalt c) = c := by
  rw [errorCode_congr (reg_bootHalt c _), errorCode_setPhase, errorCode_bootErr hc h]

/-- Step 1: PHASE shows the ROM. -/
def romStarted (s : State) : State := (s.setPhase 1).bootStep 1

/-- Every byte of on-chip SRAM is zeroed, and its poison goes. -/
def sramZeroed (s : State) : State :=
  { s with
    mem := s.mem.filter (fun e => !(decide (0xF000000000 ≤ e.1) && decide (e.1 < 0xF000800000)))
    poison := s.poison.filter (fun e => !(decide (0xF000000000 ≤ e.1) && decide (e.1 < 0xF000800000))) }

/-- SRAM is initialised and the user calibration is in use, at step 2. -/
def romCalibrated (s : State) : State := (sramZeroed (romStarted s)).loadCal.bootStep 2

/-- SR is derived, and DRK is out of reach. -/
def srDerived (s : State) : State :=
  { s with curlew := { s.curlew with
    sr := deriveSr (BitVec.ofNat 256 (s.fuseField 0x100 256)) s.lcState s.uidBytes, drkOff := true } }

/-- With SR derived the sources are next, at step 5. -/
def romKeyed (s : State) : State := ((srDerived (s.bootStep 3)).setPhase 2).bootStep 5

theorem runRom_sramBad (h : s.boot.phase = .ready) (rom : Bool) (bad : Nat) (nor : Option (List Byte)) :
    s.runRom false rom bad nor = (romStarted s).bootHalt 0xF1 := by
  simp only [State.runRom, h]; rfl

theorem runRom_storeBad (h : s.boot.phase = .ready) (bad : Nat) (nor : Option (List Byte)) :
    s.runRom true false bad nor = (romCalibrated s).bootHalt 0xF0 := by
  simp only [State.runRom, h]; rfl

theorem runRom_good (h : s.boot.phase = .ready) (bad : Nat) (nor : Option (List Byte)) :
    s.runRom true true bad nor = State.runSources 9 ((romKeyed (romCalibrated s)).setBoot (fun b =>
      { b with phase := .source, nor := nor, entry := 0, probed := false, scanned := 0, patchBad := bad })) := by
  simp only [romKeyed, srDerived, romCalibrated, sramZeroed, romStarted, State.runRom, h, ne_eq, not_true_eq_false, if_false,
    Bool.not_true, Bool.false_eq_true]

theorem errorCode_romStarted : errorCode (romStarted s) = errorCode s := by
  simp [romStarted, State.bootStep]

theorem errorCode_romCalibrated : errorCode (romCalibrated s) = errorCode s := by
  rw [romCalibrated, State.bootStep, errorCode_setReg (by simp), errorCode_congr (loadCal_bootStatus _)]
  exact errorCode_romStarted

/-! ## Mailbox mode (R437, R440) -/

theorem fuseField_congr (h : t.sensed = s.sensed) : t.fuseField = s.fuseField := by
  funext lo n
  rw [State.fuseField, h]; rfl

theorem lcState_congr (h : t.sensed = s.sensed) : t.lcState = s.lcState := by
  rw [State.lcState, fuseField_congr h]; rfl

theorem uidBytes_congr (h : t.sensed = s.sensed) : t.uidBytes = s.uidBytes := by
  rw [State.uidBytes, State.uid, fuseField_congr h]; rfl

theorem calRec_congr (h : t.flash = s.flash) : t.calRec = s.calRec := by
  have hb : t.flashByte = s.flashByte := by funext o; rw [State.flashByte, h]; rfl
  have hr : t.flashRead = s.flashRead := by funext o n; rw [State.flashRead, hb]; rfl
  have hh : t.calHalf = s.calHalf := by funext k; rw [State.calHalf, hr]; rfl
  rw [State.calRec, hh]; rfl

/-- Without a valid calibration half no value is written (R539). -/
theorem loadCal_none (h : s.calRec = none) : s.loadCal = s := by rw [State.loadCal, h]

theorem romStarted_regsOnly (s : State) : RegsOnly s (romStarted s) := (setPhase_regsOnly s 1).trans (.setReg _ _ _)

theorem romCalibrated_uncalibrated (h : s.calRec = none) : romCalibrated s = (sramZeroed (romStarted s)).bootStep 2 := by
  have hf : (sramZeroed (romStarted s)).flash = s.flash := (romStarted_regsOnly s).flash
  rw [romCalibrated, loadCal_none ((calRec_congr hf).trans h)]

theorem memByte_sramZeroed (b : Nat) :
    (sramZeroed s).memByte b = if 0xF000000000 ≤ b ∧ b < 0xF000800000 then 0 else s.memByte b := by
  refine (smGet_filter s.mem 0 (fun a => !(decide (0xF000000000 ≤ a) && decide (a < 0xF000800000))) b).trans ?_
  by_cases h : 0xF000000000 ≤ b ∧ b < 0xF000800000 <;> simp [h, State.memByte]

/-- Steps 3 to 5 derive SR and touch registers besides. -/
theorem romKeyed_regsOnly (s : State) : RegsOnly (srDerived (s.bootStep 3)) (romKeyed s) :=
  (setPhase_regsOnly _ 2).trans (.setReg _ _ _)

theorem bootPhase_romKeyed : (romKeyed s).bootPhase = 2 :=
  (bootPhase_congr (reg_setReg_other _ _ _ _ (by simp))).trans (bootPhase_setPhase 2)

theorem boot_romKeyed : (romKeyed s).boot = s.boot := (romKeyed_regsOnly s).boot

theorem sensed_romKeyed : (romKeyed s).sensed = s.sensed := (romKeyed_regsOnly s).sensed

theorem memByte_romKeyed (b : Nat) : (romKeyed s).memByte b = s.memByte b := (romKeyed_regsOnly s).memByte b

theorem step_romKeyed : (romKeyed s).reg (.boot .step) = 5 := reg_setReg_same _ _ _

theorem sr_romKeyed : (romKeyed s).curlew.sr
    = deriveSr (BitVec.ofNat 256 (s.fuseField 0x100 256)) s.lcState s.uidBytes := by
  have hs : (s.bootStep 3).sensed = s.sensed := rfl
  rw [(romKeyed_regsOnly s).curlew, srDerived, fuseField_congr hs, lcState_congr hs, uidBytes_congr hs]

theorem boot_romCalibrated (h : s.calRec = none) : (romCalibrated s).boot = s.boot := by
  rw [romCalibrated_uncalibrated h]; exact (romStarted_regsOnly s).boot

theorem sensed_romCalibrated (h : s.calRec = none) : (romCalibrated s).sensed = s.sensed := by
  rw [romCalibrated_uncalibrated h]; exact (romStarted_regsOnly s).sensed

theorem memByte_romCalibrated (h : s.calRec = none) (b : Nat) : (romCalibrated s).memByte b
    = if 0xF000000000 ≤ b ∧ b < 0xF000800000 then 0 else s.memByte b := by
  rw [romCalibrated_uncalibrated h, ← (romStarted_regsOnly s).memByte b]; exact memByte_sramZeroed b

/-- The ROM has opened the mailbox and waits for the first message (R440). -/
def mailboxWaits (s : State) : State :=
  (((s.openMbx 1).setBoot (fun b => { b.clearStream with probed := true, src := 3 })).scannedTo 0).setBoot
    (fun b => { b with waitTrain := false })

/-- An empty stream gives nothing to load. -/
theorem loadSet_nil (h : s.boot.scanned = 0) : s.loadSet none false [] = (.more, s.scannedTo 0) := by
  simp [State.loadSet, State.scanSet, h]

theorem tryStream_nil (h : s.boot.scanned = 0) (hs : s.boot.stream = []) (he : s.boot.streamEnd = false)
    (hb : s.boot.streamBad = false) : s.tryStream = (.more, s.scannedTo 0) := by
  simp [State.tryStream, hs, he, hb, loadSet_nil h]

theorem runSources_mailbox (n : Nat) (hm : s.boot.bmode = 3) (hf : s.fuseField 0x240 1 = 0) (he : s.boot.entry = 0)
    (hp : s.boot.probed = false) : State.runSources (n + 1) s = mailboxWaits s := by
  have hl : s.bootEntries[s.boot.entry]? = some (3, 0) := by simp [State.bootEntries, State.listed, hf, hm, he]
  have ht : s.trySource 3 0
      = (.more, ((s.openMbx 1).setBoot (fun b => { b.clearStream with probed := true, src := 3 })).scannedTo 0) := by
    simp only [State.trySource, hp]
    exact tryStream_nil rfl rfl rfl rfl
  rw [State.runSources, hl]
  simp only [ht]
  rfl

/-! ## Recovery and replies (R440, R446) -/

theorem bootPhase_recovery : s.recovery.bootPhase = 0xE :=
  (bootPhase_congr (reg_setReg_other _ _ _ _ (by simp))).trans (bootPhase_setPhase 0xE)

theorem errorCode_recovery : errorCode s.recovery = errorCode s :=
  (errorCode_congr (reg_setReg_other _ _ _ _ (by simp))).trans (errorCode_setPhase 0xE)

theorem reg_recovery {q : Reg} (h : q ≠ .g .bootStatus) (h' : q ≠ .g .hintStatus) (h'' : q ≠ .g .mbxStatus) :
    s.recovery.reg q = s.reg q :=
  (reg_setReg_other _ _ _ _ h'').trans (setPhase_reg 0xE h h')

/-- A reply is posted at once where the host holds none. -/
theorem bootReply_free (code : Nat) (h : s.d2hFull = false) : s.bootReply code = s.postReply 5 [BitVec.ofNat 8 code] := by
  rw [State.bootReply, h]; rfl

/-- What depends neither on the waiting replies nor on the mailbox stays when the ROM replies. -/
theorem bootReply_keeps {β : Type} (f : State → β) (code : Nat)
    (hq : ∀ v l, f (v.setBoot (fun b => { b with replyDue := b.replyDue ++ l })) = f v)
    (hp : ∀ v bs, f (v.postReply 5 bs) = f v) : f (s.bootReply code) = f s := by
  unfold State.bootReply
  split
  · exact hq s _
  · exact hp s _

theorem reg_bootReply {q : Reg} (code : Nat) (h : q ≠ .g .mbxStatus) : (s.bootReply code).reg q = s.reg q :=
  bootReply_keeps (State.reg · q) code (fun _ _ => rfl) fun v _ => reg_setReg_other v _ _ _ h

/-- A reply of one byte stands in the buffer, with its CODE and its length. -/
theorem postReply_byte (code : Nat) (c : Byte) :
    (s.postReply code [c]).d2hFull = true ∧ smGet (s.postReply code [c]).d2h 0 0 = c
    ∧ bitsOf ((s.postReply code [c]).reg (.g .mbxStatus)) 15 8 = code % 256
    ∧ bitsOf ((s.postReply code [c]).reg (.g .mbxStatus)) 31 16 = 1 := by
  have hr : (s.postReply code [c]).reg (.g .mbxStatus) = setBits (setBits (s.reg (.g .mbxStatus)) 15 8 code) 31 16 1 :=
    reg_setReg_same s _ _
  refine ⟨rfl, smGet_set_same _ _ _ _, ?_, ?_⟩
  · rw [hr, bitsOf_setBits_apart _ _ _ _ _ _ (by decide), bitsOf_setBits_same _ _ _ _ (by decide)]; rfl
  · rw [hr, bitsOf_setBits_same _ _ _ _ (by decide)]; rfl

/-- A load or a time-out that fails in recovery: its code is shown and answered, and the stream begins anew (R446). -/
def recoveryFails (s : State) (c : Nat) : State := ((s.setBoot Boot.clearStream).recoveryResult c).bootReply c

theorem recoveryFails_answers {c : Nat} (hc : c < 16) (hd : s.d2hFull = false) :
    (recoveryFails s c).boot.stream = [] ∧ (recoveryFails s c).boot.phase = s.boot.phase
    ∧ (recoveryFails s c).d2hFull = true ∧ smGet (recoveryFails s c).d2h 0 0 = BitVec.ofNat 8 c
    ∧ bitsOf ((recoveryFails s c).reg (.g .mbxStatus)) 15 8 = 5
    ∧ bitsOf ((recoveryFails s c).reg (.g .mbxStatus)) 31 16 = 1
    ∧ bitsOf ((recoveryFails s c).reg (.boot .srcResult)) 3 0 = c := by
  have hr : bitsOf ((recoveryFails s c).reg (.boot .srcResult)) 3 0 = c := by
    rw [recoveryFails, reg_bootReply c (by simp), State.recoveryResult, reg_setReg_same,
      bitsOf_setBits_same _ _ _ _ (by decide)]
    exact Nat.mod_eq_of_lt hc
  have hpost : recoveryFails s c = ((s.setBoot Boot.clearStream).recoveryResult c).postReply 5 [BitVec.ofNat 8 c] :=
    bootReply_free c hd
  rw [hpost] at hr ⊢
  obtain ⟨hf, hb, hcode, hlen⟩ := postReply_byte (s := (s.setBoot Boot.clearStream).recoveryResult c) 5 (.ofNat 8 c)
  exact ⟨rfl, rfl, hf, hb, hcode, hlen, hr⟩

theorem sourceTimeout_recovery (hp : s.boot.phase = .recovery) (hb : s.boot.began = true) (hw : s.boot.waitTrain = false) :
    s.sourceTimeout = recoveryFails s 6 := by
  simp only [State.sourceTimeout, hp, Boot.streamBegan, hb, hw, and_self, if_true]
  rfl

theorem rngTimeout_rng (hp : s.boot.phase = .rng) : s.rngTimeout = (s.bootErr 0x30).recovery := by
  rw [State.rngTimeout, if_pos hp]

/-! ## The last source fails (R440) -/

theorem bootEntries_congr (hs : t.sensed = s.sensed) (hb : t.boot.bmode = s.boot.bmode) : t.bootEntries = s.bootEntries := by
  rw [State.bootEntries, State.listed, fuseField_congr hs, hb]; rfl

/-- The source under way has ended with a code, and the one after it is next. -/
def sourceEnded (s : State) (c : Nat) : State :=
  (s.endSource c).setBoot (fun b => { b with entry := b.entry + 1, probed := false, second := false, scanned := 0 })

/-- The end of a mailbox source is answered. -/
def answered (s : State) (c : Nat) : State := if s.bootKind = 3 then s.bootReply c else s

theorem answered_keeps {β : Type} (f : State → β) (c : Nat)
    (hq : ∀ v l, f (v.setBoot (fun b => { b with replyDue := b.replyDue ++ l })) = f v)
    (hp : ∀ v bs, f (v.postReply 5 bs) = f v) : f (answered s c) = f s := by
  unfold answered
  split
  · exact bootReply_keeps f c hq hp
  · rfl

/-- The fuses, the straps and the entry under way do not depend on replies. -/
theorem answered_place (s : State) (c : Nat) : (answered s c).sensed = s.sensed
    ∧ (answered s c).boot.bmode = s.boot.bmode ∧ (answered s c).boot.entry = s.boot.entry :=
  ⟨answered_keeps State.sensed c (fun _ _ => rfl) fun _ _ => rfl,
    answered_keeps (fun v => v.boot.bmode) c (fun _ _ => rfl) fun _ _ => rfl,
    answered_keeps (fun v => v.boot.entry) c (fun _ _ => rfl) fun _ _ => rfl⟩

theorem reg_answered (c : Nat) {q : Reg} (h : q ≠ .g .mbxStatus) : (answered s c).reg q = s.reg q :=
  answered_keeps (State.reg · q) c (fun _ _ => rfl) fun v _ => reg_setReg_other v _ _ _ h

theorem endSource_eq (c : Nat) :
    s.endSource c = ((answered s c).srcResult c).setBoot (fun b => { b with cl0Data := false }) := rfl

theorem endSource_place (s : State) (c : Nat) : (s.endSource c).sensed = s.sensed
    ∧ (s.endSource c).boot.bmode = s.boot.bmode ∧ (s.endSource c).boot.entry = s.boot.entry := by
  rw [endSource_eq]
  exact answered_place s c

theorem reg_endSource (c : Nat) {q : Reg} (h : q ≠ .g .mbxStatus) (h' : q ≠ .boot .srcResult) :
    (s.endSource c).reg q = s.reg q := by
  rw [endSource_eq, setBoot_reg, State.srcResult, reg_orReg_other _ _ _ _ h', reg_answered c h]

theorem srcResult_endSource (c : Nat) : (s.endSource c).reg (.boot .srcResult)
    = s.reg (.boot .srcResult) ||| BitVec.ofNat 32 (c * 2 ^ (4 * s.boot.entry)) := by
  obtain ⟨-, -, hentry⟩ := answered_place s c
  rw [endSource_eq, setBoot_reg, State.srcResult, reg_orReg_same, reg_answered c (by simp), hentry]

/-- With no source left the ROM shows NO_IMAGE and enters recovery (R443 step 5). -/
theorem failSource_last (c : Nat) (he : s.bootEntries = [(3, 0)]) (h0 : s.boot.entry = 0) :
    s.failSource c = ((sourceEnded s c).bootErr 0x10).recovery := by
  obtain ⟨hs, hm, hentry⟩ := endSource_place s c
  have hk : (sourceEnded s c).bootEntries = s.bootEntries := bootEntries_congr hs hm
  have he1 : (sourceEnded s c).boot.entry = s.boot.entry + 1 := by rw [← hentry]; rfl
  have hn : (sourceEnded s c).bootEntries[(sourceEnded s c).boot.entry]? = none := by rw [hk, he1, he, h0]; rfl
  rw [State.failSource]
  show State.runSources 9 (sourceEnded s c) = _
  rw [State.runSources, hn]

theorem sourceTimeout_mailbox (hp : s.boot.phase = .source) (he : s.bootEntries = [(3, 0)]) (h0 : s.boot.entry = 0)
    (hpr : s.boot.probed = true) (hb : s.boot.began = true) (hw : s.boot.waitTrain = false) :
    s.sourceTimeout = s.failSource 6 := by
  simp [State.sourceTimeout, hp, he, h0, hpr, hw, Boot.streamBegan, hb]

end Sys2Proof.Laws
end

section
/-! SUPPORT. Loads from a stream, the pairing of a monitor, the jump to it, and the messages of recovery (spec/18, R440 to
R447). -/

namespace Sys2Proof.Laws

open Sys2Proof Sys2Proof.Machine

variable {s t : State}

/-! ## What a load from a stream leaves (R441, R442, R489) -/

/-- The ROM's place, the stream, and whether each mailbox buffer is full. -/
structure Intake where
  phase : BootPhase
  stream : List Byte
  h2dFull : Bool
  d2hFull : Bool

/-- What a load from a stream never changes. -/
def intake (s : State) : Intake :=
  { phase := s.boot.phase, stream := s.boot.stream, h2dFull := s.h2dFull, d2hFull := s.d2hFull }

theorem phase_of_intake (h : intake t = intake s) : t.boot.phase = s.boot.phase := congrArg Intake.phase h
theorem stream_of_intake (h : intake t = intake s) : t.boot.stream = s.boot.stream := congrArg Intake.stream h
theorem h2dFull_of_intake (h : intake t = intake s) : t.h2dFull = s.h2dFull := congrArg Intake.h2dFull h
theorem d2hFull_of_intake (h : intake t = intake s) : t.d2hFull = s.d2hFull := congrArg Intake.d2hFull h

theorem intake_of_regsOnly (h : RegsOnly s t) : intake t = intake s := h.keeps intake fun _ _ => rfl

theorem intake_setReg (r : Reg) (v : Word32) : intake (s.setReg r v) = intake s := rfl

theorem intake_bootErr (c : Nat) : intake (s.bootErr c) = intake s := intake_of_regsOnly (bootErr_regsOnly s c)

theorem intake_storePatch (p : List Byte) : intake (s.storePatch p) = intake s := rfl

theorem intake_dropHooks : intake s.dropHooks = intake s := rfl

theorem intake_patchDone : intake (s.setBoot (fun b => { b with patchDone := true })) = intake s := rfl

theorem intake_memWrite (a : Nat) (bs : List Byte) : intake (s.memWrite a bs) = intake s := by
  unfold State.memWrite
  dsimp only
  split <;> rfl

theorem intake_decidePatch (img : List Byte) : intake (s.decidePatch img) = intake s := by
  unfold State.decidePatch
  dsimp only
  split
  · rfl
  split
  · rfl
  split
  · rw [intake_bootErr]; rfl
  split
  · rw [intake_bootErr, intake_dropHooks, intake_storePatch]; rfl
  · rw [intake_of_regsOnly (setMeas_regsOnly _ _ _), intake_setReg, intake_setReg, intake_setReg, intake_patchDone,
      intake_storePatch]; rfl

theorem intake_loadBlocks (block : Nat) (complete : Bool) (n : Nat) (s : State) (dest left : Nat) (bs : List Byte) :
    intake (State.loadBlocks block complete n s none dest left bs).2 = intake s := by
  induction n generalizing s dest left bs with
  | zero => rfl
  | succ n ih =>
    simp only [State.loadBlocks, romMeets_none, Option.map_none]
    split
    · rfl
    split
    · rfl
    · rw [ih, intake_memWrite]

theorem intake_scanSet (complete : Bool) (bs : List Byte) (fuel : Nat) (s : State) (o : Nat) :
    intake (State.scanSet none complete bs fuel s o).2 = intake s := by
  induction fuel generalizing s o with
  | zero => rfl
  | succ fuel ih =>
    have hscan : intake (s.scannedTo o) = intake s := rfl
    simp only [State.scanSet, romMeets_none, Option.map_none]
    have hload : intake (State.loadBlocks (hdrBlock ((bs.drop o).take 128)) complete (hdrBlocks ((bs.drop o).take 128))
        ((s.scannedTo o).memWrite (loadDest ((bs.drop o).take 128)) ((bs.drop o).take 128)) none
        (loadDest ((bs.drop o).take 128) + 128) (hdrLen ((bs.drop o).take 128)) ((bs.drop o).drop 128)).2 = intake s := by
      rw [intake_loadBlocks, intake_memWrite, hscan]
    split
    · rfl
    split
    · rfl
    split
    · rfl
    split
    · rfl
    split
    · rfl
    split
    · rw [ih, hscan]
    split
    · split
      · split
        · rw [ih, intake_decidePatch]; exact hload
        · exact hload
      · exact hload
    · rfl

theorem intake_loadSet (complete : Bool) (bs : List Byte) (s : State) :
    intake (s.loadSet none complete bs).2 = intake s := intake_scanSet _ _ _ _ _

/-! ## A monitor is paired, and the ROM jumps to it (R443, R447) -/

theorem takeNmiWait_reg (x : CtxId) (q : Reg) : (s.takeNmiWait x).reg q = s.reg q := reg_ite rfl

theorem takeNmiWait_boot (x : CtxId) : (s.takeNmiWait x).boot = s.boot := by
  unfold State.takeNmiWait
  dsimp only
  split <;> rfl

theorem takeNmiWait_curlew (x : CtxId) : (s.takeNmiWait x).curlew = s.curlew := by
  unfold State.takeNmiWait
  dsimp only
  split <;> rfl

theorem takeNmiWait_ctx (x : CtxId) : ((s.takeNmiWait x).ctx x).pc = (s.ctx x).pc
    ∧ ((s.takeNmiWait x).ctx x).world = (s.ctx x).world := by
  unfold State.takeNmiWait
  dsimp only
  split
  · rw [ctx_upCtx_same]; exact ⟨rfl, rfl⟩
  · exact ⟨rfl, rfl⟩

theorem world_startCsw (ptr : Word) (w : World) : (if bitAt (startCsw ptr w) 1 then World.secure else .nonSecure) = w := by
  cases hb : bitAt ptr 63 <;> cases w <;> simp only [startCsw, hb] <;> decide

/-- A context starts at the address of its code pointer, in its world (R447). -/
theorem startCtx_ctx (x : CtxId) (ptr : Word) (w : World) (occ : Occ) :
    ((s.startCtx x ptr w occ).ctx x).pc = ptr.setWidth 48 ∧ ((s.startCtx x ptr w occ).ctx x).world = w := by
  obtain ⟨hpc, hw⟩ := takeNmiWait_ctx (s := (s.setCtx x { startedCtx ptr w occ s.time with
    modes := (s.ctx x).modes + 1
    nmiPend := (s.ctx x).nmiPend, haltReq := (s.ctx x).haltReq }).putBit (cxReg x .nmi) 1 (decide (w = .secure))) x
  rw [State.startCtx, hpc, hw, State.putBit, setReg_ctx, ctx_setCtx_same]
  exact ⟨rfl, world_startCsw ptr w⟩

theorem startCtx_reg (x : CtxId) (ptr : Word) (w : World) (occ : Occ) {q : Reg} (h : q ≠ cxReg x .nmi) :
    (s.startCtx x ptr w occ).reg q = s.reg q :=
  (takeNmiWait_reg x q).trans (reg_setReg_other _ _ _ _ h)

theorem setMeas_reg_same {r : Fin 12 → Reg} (hr : Function.Injective r) (m : BitVec 384) (k : Fin 12) :
    (s.setMeas r m).reg (r k) = measWord m k.val := by
  have h (n : Nat) (hn : n ≤ 12) (hk : k.val < n) : ((List.range n).foldl
      (fun s i => s.setReg (r (Fin.ofNat 12 i)) (measWord m i)) s).reg (r k) = measWord m k.val := by
    induction n with
    | zero => omega
    | succ n ih =>
      rw [List.range_succ, List.foldl_append, List.foldl_cons, List.foldl_nil]
      by_cases he : k.val = n
      · have : Fin.ofNat 12 n = k := Fin.ext (by simp [he]; omega)
        rw [this, reg_setReg_same, he]
      · have : k ≠ Fin.ofNat 12 n := fun e => he (by rw [e]; simp; omega)
        rw [reg_setReg_other _ _ _ _ (hr.ne this), ih (by omega) (by omega)]
  exact h 12 (by decide) k.isLt

/-- The jump itself: the ROM lock takes effect, and the boot core's context starts at an address. -/
def romEnters (s : State) (e : Nat) : State :=
  (s.lockRom.startCtx bootCtx (BitVec.ofNat 64 e) .secure .monitor).setBoot (fun b => { b with phase := .off })

theorem boot_romEnters (e : Nat) : (romEnters s e).boot
    = { s.boot with locked := true, cl0 := false, cl0Data := false, phase := .off } :=
  congrArg (fun b : Boot => { b with phase := .off }) (takeNmiWait_boot bootCtx)

theorem curlew_romEnters (e : Nat) : (romEnters s e).curlew = s.curlew := takeNmiWait_curlew bootCtx

theorem ctx_romEnters (e : Nat) : ((romEnters s e).ctx bootCtx).pc = BitVec.ofNat 48 e
    ∧ ((romEnters s e).ctx bootCtx).world = .secure := by
  obtain ⟨hpc, hw⟩ := startCtx_ctx (s := s.lockRom) bootCtx (BitVec.ofNat 64 e) .secure .monitor
  refine ⟨hpc.trans ?_, hw⟩
  apply BitVec.eq_of_toNat_eq
  simp

theorem status_romEnters (e : Nat) : (romEnters s e).reg (.boot .status)
    = setBit (setBit (s.reg (.boot .status)) 0 true) 3 false :=
  (startCtx_reg _ _ _ _ (by decide)).trans (reg_setReg_same _ _ _)

theorem reg_romEnters (e : Nat) {q : Reg} (h : q ≠ .boot .status) (h' : q ≠ cxReg bootCtx .nmi) :
    (romEnters s e).reg q = s.reg q :=
  (startCtx_reg _ _ _ _ h').trans (reg_setReg_other _ _ _ _ h)

/-- The records of step 10 (R443). -/
def romNoted (s : State) (m : MonImage) (ver : Nat) : State :=
  let e := hdrEntry m.header
  let s1 := (s.bootStep 10).showJournal
  let s2 := s1.setReg (.g .bootSrcUsed) (BitVec.ofNat 32 (s.boot.src + s.boot.entry * 16 + bit s.listed * 256))
  let s3 := (s2.setMeas (fun k => .boot (.monMeas k)) m.meas).setReg (.boot .monSvn)
    (BitVec.ofNat 32 (hdrSvn m.header + ver * 65536))
  ((s3.setReg (.boot .monEntryLo) (BitVec.ofNat 32 (e % 2 ^ 32))).setReg (.boot .monEntryHi)
    (BitVec.ofNat 32 (e / 2 ^ 32))).setReg (.boot .elapsed) s.elapsedUs

/-- The ROM's work area is zeroed. -/
def workZeroed (s : State) : State :=
  let keeps := fun (a : Nat) => decide (a < 0xF0007C0000) || decide (0xF000800000 ≤ a)
  { s with mem := s.mem.filter (fun c => keeps c.1), poison := s.poison.filter (fun c => keeps c.1) }

/-- Step 11 up to the jump (R443). -/
def romLocking (s : State) : State := (((workZeroed s).bootStep 11).setReg (.boot .romLock) 1).setPhase 3

theorem romJump_eq (m : MonImage) (ver : Nat) :
    s.romJump m ver = romEnters (romLocking (romNoted s m ver)) (hdrEntry m.header) := rfl

theorem boot_romLocking : (romLocking s).boot = s.boot := setPhase_boot _ 3

theorem curlew_romLocking : (romLocking s).curlew = s.curlew :=
  (setPhase_regsOnly (((workZeroed s).bootStep 11).setReg (.boot .romLock) 1) 3).curlew

theorem monMeas_romLocking (k : Fin 12) : (romLocking s).reg (.boot (.monMeas k)) = s.reg (.boot (.monMeas k)) := by
  rw [romLocking, setPhase_reg _ (by simp) (by simp), reg_setReg_other _ _ _ _ (by simp), State.bootStep,
    reg_setReg_other _ _ _ _ (by simp)]
  rfl

theorem romNoted_regsOnly (s : State) (m : MonImage) (ver : Nat) : RegsOnly s (romNoted s m ver) := by
  refine .trans ?_ (.setReg _ _ _)
  refine .trans ?_ (.setReg _ _ _)
  refine .trans ?_ (.setReg _ _ _)
  refine .trans ?_ (.setReg _ _ _)
  refine .trans ?_ (setMeas_regsOnly _ _ _)
  refine .trans ?_ (.setReg _ _ _)
  exact .trans (.setReg _ _ _) (showJournal_regsOnly _)

theorem monMeas_romNoted (m : MonImage) (ver : Nat) (k : Fin 12) :
    (romNoted s m ver).reg (.boot (.monMeas k)) = measWord m.meas k.val := by
  rw [romNoted, reg_setReg_other _ _ _ _ (by simp), reg_setReg_other _ _ _ _ (by simp), reg_setReg_other _ _ _ _ (by simp),
    reg_setReg_other _ _ _ _ (by simp)]
  exact setMeas_reg_same (r := fun k => .boot (.monMeas k)) (fun i j h => by simpa using h) m.meas k

/-- The ROM has jumped to a monitor (R447): where it stands, and what the boot core and its registers show. -/
structure Jumped (m : MonImage) (t : State) : Prop where
  pc : (t.ctx bootCtx).pc = BitVec.ofNat 48 (hdrEntry m.header)
  world : (t.ctx bootCtx).world = .secure
  phase : t.bootPhase = 3
  off : t.boot.phase = .off
  locked : t.boot.locked = true
  meas : ∀ k : Fin 12, t.reg (.boot (.monMeas k)) = measWord m.meas k.val
  shown : bitAt (t.reg (.boot .status)) 0 = true
  unheld : bitAt (t.reg (.boot .status)) 3 = false

theorem romJump_jumped (m : MonImage) (ver : Nat) : Jumped m (s.romJump m ver) := by
  rw [romJump_eq]
  obtain ⟨hpc, hw⟩ := ctx_romEnters (s := romLocking (romNoted s m ver)) (hdrEntry m.header)
  exact {
    pc := hpc
    world := hw
    phase := (bootPhase_congr (reg_romEnters _ (by simp) (by decide))).trans (bootPhase_setPhase 3)
    off := by rw [boot_romEnters]
    locked := by rw [boot_romEnters]
    meas := fun k => (reg_romEnters _ (by simp) (by simp [cxReg, bootCtx])).trans
      ((monMeas_romLocking k).trans (monMeas_romNoted m ver k))
    shown := by
      rw [status_romEnters, bitAt_setBit_other _ _ _ _ (by decide), bitAt_setBit_same _ _ _ (by decide)]
    unheld := by rw [status_romEnters, bitAt_setBit_same _ _ _ (by decide)] }

theorem romJump_boot (m : MonImage) (ver : Nat) : (s.romJump m ver).boot.booted = s.boot.booted := by
  rw [romJump_eq, boot_romEnters, boot_romLocking, (romNoted_regsOnly s m ver).boot]

theorem romJump_curlew (m : MonImage) (ver : Nat) : (s.romJump m ver).curlew = s.curlew := by
  rw [romJump_eq, curlew_romEnters, curlew_romLocking]
  exact (romNoted_regsOnly s m ver).curlew

/-! ## Pairing -/

theorem monVer_congr (h : t.fuses = s.fuses) : t.monVer = s.monVer := by
  funext m
  rw [State.monVer, State.floorCount, h]; rfl

/-- What the pairing of a monitor rests on beside its image. -/
structure Pairing where
  trained : Bool
  booted : Option Bool
  curlew : Curlew
  sensed : SMap Bool
  fuses : SMap Bool
  drbg : Drbg

/-- What pairing reads in a state, and does not change but by the derivation of BBK. -/
def pairing (s : State) : Pairing :=
  { trained := s.boot.trained, booted := s.boot.booted, curlew := s.curlew, sensed := s.sensed, fuses := s.fuses
    drbg := s.drbg }

theorem trained_of_pairing (h : pairing t = pairing s) : t.boot.trained = s.boot.trained := congrArg Pairing.trained h
theorem booted_of_pairing (h : pairing t = pairing s) : t.boot.booted = s.boot.booted := congrArg Pairing.booted h
theorem curlew_of_pairing (h : pairing t = pairing s) : t.curlew = s.curlew := congrArg Pairing.curlew h
theorem lcState_of_pairing (h : pairing t = pairing s) : t.lcState = s.lcState := lcState_congr (congrArg Pairing.sensed h)
theorem monVer_of_pairing (h : pairing t = pairing s) : t.monVer = s.monVer := monVer_congr (congrArg Pairing.fuses h)
theorem rngReady_of_pairing (h : pairing t = pairing s) : t.rngReady = s.rngReady :=
  congrArg (fun p => p.drbg.instantiated) h

theorem pairing_of_regsOnly (h : RegsOnly s t) : pairing t = pairing s := h.keeps pairing fun _ _ => rfl

theorem pairing_writeDram : pairing s.writeDram = pairing s := by
  unfold State.writeDram
  dsimp only
  split <;> rfl

/-- A monitor that finds DRAM trained, and randomness where it asks for it, is jumped to (R443 steps 8 and 9). -/
theorem finishMon_jumps (m : MonImage) (ht : s.boot.trained = true)
    (hr : hdrField m.header 7 1 % 2 = 1 → s.rngReady = true) :
    ∃ u ver, s.finishMon m = u.romJump m ver ∧ pairing u = pairing s := by
  have ht' : (s.bootStep 8).boot.trained = true := ht
  have hp : pairing ((s.bootStep 8).writeDram.bootStep 9) = pairing s := pairing_writeDram
  simp only [State.finishMon, ht', Bool.not_true, Bool.false_eq_true, if_false]
  generalize (s.bootStep 8).writeDram.bootStep 9 = v at hp ⊢
  split
  · next hflag =>
    have hv : v.rngReady = true := (rngReady_of_pairing hp).trans (hr hflag)
    exact ⟨_, _, if_pos hv, hp⟩
  · exact ⟨v, _, rfl, hp⟩

/-- Step 6 for a monitor of this stepping, up to step 7: whether a patch was passed over is shown (R489). -/
def patchNoted (s : State) : State :=
  let u := s.bootStep 6
  (if u.boot.patchSeen && !u.boot.patchDone then
    u.setReg (.g .bootStatus) (setBit (u.reg (.g .bootStatus)) 8 true) else u).bootStep 7

theorem pairing_patchNoted : pairing (patchNoted s) = pairing s :=
  pairing_of_regsOnly (.trans (.setReg s _ _) (.trans (.ite (.setReg _ _ _) (.refl _)) (.setReg _ _ _)))

theorem boot_withCurlew (c : Curlew) : ({ s with curlew := c } : State).boot = s.boot := rfl

theorem rngReady_withCurlew (c : Curlew) : ({ s with curlew := c } : State).rngReady = s.rngReady := rfl

/-- BBK is derived for a monitor (R404, R443 step 7). -/
def bbkDerived (s : State) (m : MonImage) : State :=
  { s with curlew := { s.curlew with
    bbk := deriveBbk s.curlew.sr s.lcState (beBytes 48 m.meas.toNat) (s.monVer m), bbkValid := true
    belowFloor := decide (s.monVer m = 0xFFFF) } }

/-- BBK is derived, and BOOT_STATUS shows a monitor below the floor. -/
def paired (s : State) (m : MonImage) : State :=
  let u := bbkDerived s m
  if s.monVer m = 0xFFFF then u.setReg (.g .bootStatus) (setBit (u.reg (.g .bootStatus)) 10 true) else u

theorem pairing_paired (m : MonImage) : pairing (paired s m) = pairing (bbkDerived s m) :=
  pairing_of_regsOnly (.ite (.setReg _ _ _) (.refl _))

theorem boot_bbkDerived (m : MonImage) : (bbkDerived s m).boot = s.boot := boot_withCurlew _

theorem trained_paired (m : MonImage) : (paired s m).boot.trained = s.boot.trained := by
  rw [trained_of_pairing (pairing_paired m), boot_bbkDerived]

theorem booted_paired (m : MonImage) : (paired s m).boot.booted = s.boot.booted := by
  rw [booted_of_pairing (pairing_paired m), boot_bbkDerived]

theorem rngReady_paired (m : MonImage) : (paired s m).rngReady = s.rngReady := by
  rw [rngReady_of_pairing (pairing_paired m)]
  exact rngReady_withCurlew _

/-- The key and its validity as pairing leaves them (R404). -/
theorem bbk_paired (m : MonImage) : (paired s m).curlew.bbkValid = true
    ∧ (paired s m).curlew.bbk = deriveBbk s.curlew.sr s.lcState (beBytes 48 m.meas.toNat) (s.monVer m) := by
  rw [curlew_of_pairing (pairing_paired m)]
  exact ⟨rfl, rfl⟩

theorem pairMon_inRange (m : MonImage) (hlo : hdrField m.header 0x20 2 ≤ stepping)
    (hhi : stepping ≤ hdrField m.header 0x22 2) : s.pairMon m = (paired (patchNoted s) m).finishMon m := by
  simp only [State.pairMon, hlo, hhi, decide_true, Bool.and_self, Bool.not_true, Bool.false_and, Bool.false_eq_true,
    if_false, if_true]
  rfl

theorem pairMon_jumps (m : MonImage) (ht : s.boot.trained = true)
    (hlo : hdrField m.header 0x20 2 ≤ stepping) (hhi : stepping ≤ hdrField m.header 0x22 2)
    (hr : hdrField m.header 7 1 % 2 = 1 → s.rngReady = true) : Jumped m (s.pairMon m)
    ∧ (s.pairMon m).boot.booted = s.boot.booted ∧ (s.pairMon m).curlew.bbkValid = true
    ∧ (s.pairMon m).curlew.bbk = deriveBbk s.curlew.sr s.lcState (beBytes 48 m.meas.toNat) (s.monVer m) := by
  rw [pairMon_inRange m hlo hhi]
  have hn : pairing (patchNoted s) = pairing s := pairing_patchNoted
  obtain ⟨u, ver, hj, hu⟩ := finishMon_jumps (s := paired (patchNoted s) m) m
    (by rw [trained_paired, trained_of_pairing hn, ht])
    fun h => by rw [rngReady_paired, rngReady_of_pairing hn, hr h]
  obtain ⟨hvalid, hbbk⟩ := bbk_paired (s := patchNoted s) m
  rw [hj, romJump_boot, romJump_curlew, booted_of_pairing hu, booted_paired, booted_of_pairing hn, curlew_of_pairing hu,
    hbbk, curlew_of_pairing hn, lcState_of_pairing hn, monVer_of_pairing hn]
  exact ⟨romJump_jumped m ver, rfl, hvalid, rfl⟩

/-! ## Messages in recovery (R440, R446) -/

theorem romServes_recovery (hp : s.boot.phase = .recovery) : s.romServes = true := by rw [State.romServes, hp]

/-- Reading sound words of a message changes nothing. -/
theorem romReads_sound (h : ∀ w, smGet s.mbxPoison false w = false) : s.romReads [] = s := by
  refine foldl_keeps (fun t => t = s) _ _ _ rfl fun t w ht => ?_
  subst ht
  rw [State.romWord, h]; rfl

/-- In recovery a message of the stream is taken into it, and the ROM goes on (R440). -/
theorem consumeType_stream {type : Nat} (hp : s.boot.phase = .recovery) (hf : s.h2dFull = true)
    (hw : s.boot.waitTrain = false) (ht : s.h2dType = type) (hmsg : type = 0x10 ∨ type = 0x11)
    (hpo : type = 0x10 → ∀ w, smGet s.mbxPoison false w = false) :
    s.consumeType type [] = ({ s with h2dFull := false, boot := s.boot.message type s.h2dBytes } : State).bootGo := by
  have hs := romServes_recovery hp
  have hr : (if type = 0x10 then ({ s with h2dFull := false } : State).romReads [] else { s with h2dFull := false })
      = { s with h2dFull := false } := by
    split
    · next h => exact romReads_sound (hpo h)
    · rfl
  have hn : ¬ (type ≠ 0x10 ∧ type ≠ 0x11) := by omega
  have h12 : type ≠ 0x12 := by omega
  simp only [State.consumeType, State.consume, hs, ht, hf, hw, hp, hr, hn, h12, Bool.not_true, Bool.and_false, Bool.or_self,
    Bool.false_eq_true, true_and, and_true, and_false, if_false, if_true]
  rfl

/-- In recovery RESET resets the chip (R446). -/
theorem consumeType_reset (hp : s.boot.phase = .recovery) (hf : s.h2dFull = true) (hw : s.boot.waitTrain = false)
    (ht : s.h2dType = 0x12) : s.consumeType 0x12 [] = ({ s with h2dFull := false } : State).chipReset .soft := by
  have hs := romServes_recovery hp
  simp only [State.consumeType, State.consume, hs, ht, hf, hw, hp]
  rfl

theorem chipReset_soft (s : State) : (s.chipReset .soft).inReset = true
    ∧ (s.chipReset .soft).reg (.g .resetCause) = s.reg (.g .resetCause) ||| 0x40 := by
  refine ⟨rfl, ?_⟩
  rw [State.chipReset, reg_setReg_other _ _ _ _ (by simp), reg_setReg_other _ _ _ _ (by simp), reg_setReg_same]
  rfl

theorem bootGo_recovery (hp : s.boot.phase = .recovery) (hs : s.boot.stream ≠ [] ∨ s.boot.streamEnd = true) :
    s.bootGo = s.recoveryLoad := by
  simp only [State.bootGo, hp]
  refine if_neg ?_
  rcases hs with h | h <;> simp [h]

/-- In recovery with nothing to load the ROM waits for a message (R446). -/
theorem bootGo_recovery_waits (hp : s.boot.phase = .recovery) (hs : s.boot.stream = []) (he : s.boot.streamEnd = false) :
    s.bootGo = s := by
  simp only [State.bootGo, hp, hs, he]
  rfl

/-- A part of the stream that leaves the load short of bytes is kept, and the ROM waits (R440). -/
theorem recoveryLoad_more (hb : s.boot.streamBad = false) (hl : (s.loadSet none s.boot.streamEnd s.boot.stream).1 = .more) :
    s.recoveryLoad = (s.loadSet none s.boot.streamEnd s.boot.stream).2.setBoot (fun b => { b with waitTrain := false }) := by
  have h : s.tryStream = (.more, (s.loadSet none s.boot.streamEnd s.boot.stream).2) := by
    simp [State.tryStream, hl, hb]
  rw [State.recoveryLoad, h]; rfl

theorem recoveryLoad_fail {c : Nat} (hl : (s.loadSet none s.boot.streamEnd s.boot.stream).1 = .fail c) :
    s.recoveryLoad = recoveryFails (s.loadSet none s.boot.streamEnd s.boot.stream).2 c := by
  have h : s.tryStream = (.fail c, (s.loadSet none s.boot.streamEnd s.boot.stream).2) := by
    simp [State.tryStream, hl]
  rw [State.recoveryLoad, h]; rfl

/-- The monitor of a whole stream is answered, and stands as one of the host mailbox (R446). -/
def recovered (s : State) : State :=
  (((s.bootStep 5).setBoot (fun b => { b with src := 3, entry := 0 })).recoveryResult 1).bootReply 1

theorem recoveryLoad_mon {m : MonImage} (hb : s.boot.streamBad = false) (he : s.boot.streamEnd = true)
    (hl : (s.loadSet none s.boot.streamEnd s.boot.stream).1 = .mon m) :
    s.recoveryLoad = (recovered (s.loadSet none s.boot.streamEnd s.boot.stream).2).pairMon m := by
  have h : s.tryStream = (.mon m, (s.loadSet none s.boot.streamEnd s.boot.stream).2) := by
    simp only [State.tryStream, hl]
    simp [hb, he]
  rw [State.recoveryLoad, h]; rfl

theorem pairing_recovered : pairing (recovered s) = pairing s :=
  bootReply_keeps pairing 1 (fun _ _ => rfl) fun _ _ => rfl

end Sys2Proof.Laws
end

section
/-! SUPPORT. Training, and how it deals out DRAM that was kept (spec/01 R30, spec/18 R444). -/

namespace Sys2Proof.Laws

open Sys2Proof Sys2Proof.Machine

variable {s t : State}

/-! ## DRAM dealt out over the trained channels (R30) -/

/-- The byte `r` of frame `q` on channel `i` of `n`, each used up to frame `c`, lies below the end of what they use. -/
theorem frame_used {q i n c r : Nat} (hi : i < n) (hq : q < c) (hr : r < 4096) :
    (q * n + i) * 4096 + r < n * (4096 * c) := by
  have h : (q + 1) * n ≤ c * n := Nat.mul_le_mul_right n hq
  rw [Nat.succ_mul] at h
  rw [show n * (4096 * c) = c * n * 4096 by ring]
  omega

/-- A frame that is kept lies within what the trained channels use. -/
theorem redealt_used {old new : List Nat} {cap a b : Nat} (hc : cap % 4096 = 0) (h : redealt old new cap a = some b) :
    b < new.length * cap ∨ 0x8000000000 ≤ b := by
  unfold redealt at h
  dsimp only at h
  split at h
  · next ha => obtain rfl := Option.some.inj h; exact .inr ha
  split at h
  · cases h
  split at h
  · next k _ hk =>
    obtain rfl := Option.some.inj h
    rw [Bool.and_eq_true, decide_eq_true_eq] at hk
    obtain ⟨hin, hq⟩ := hk
    have hi : new.idxOf k < new.length := List.idxOf_lt_length_iff.mpr (List.contains_iff_mem.mp hin)
    left
    obtain ⟨c, rfl⟩ : 4096 ∣ cap := Nat.dvd_of_mod_eq_zero hc
    exact frame_used hi (by omega) (Nat.mod_lt _ (by decide))
  · cases h

theorem smGet_redeal {β : Type} [DecidableEq β] {m : SMap β} {d : β} {old new : List Nat} {cap b : Nat}
    (h : ∀ a, redealt old new cap a ≠ some b) : smGet (redeal m d old new cap) d b = d := by
  refine foldl_keeps (fun t => smGet t d b = d) _ _ _ rfl fun t e ht => ?_
  split
  · exact ht
  · next a ha => rw [smGet_set_other _ _ _ _ _ _ fun e => h _ (by rw [ha, e]), ht]

theorem dealDram_chans (new : List Nat) (cap : Nat) : (s.dealDram new cap).dramChans = new := by
  unfold State.dealDram
  dsimp only
  split
  · next h => exact h.symm
  · rfl

theorem dealDram_boot (new : List Nat) (cap : Nat) : (s.dealDram new cap).boot = s.boot := by
  unfold State.dealDram
  dsimp only
  split <;> rfl

theorem dealDram_ctxs (new : List Nat) (cap : Nat) : (s.dealDram new cap).ctxs = s.ctxs := by
  unfold State.dealDram
  dsimp only
  split <;> rfl

theorem dealDram_reg (new : List Nat) (cap : Nat) (q : Reg) : (s.dealDram new cap).reg q = s.reg q := by
  unfold State.dealDram
  dsimp only
  split <;> rfl

/-- Where the channels are the same, what they still use keeps its contents, and the rest is lost. -/
theorem memByte_dealDram_same {new : List Nat} (h : new = s.dramChans) (cap b : Nat) : (s.dealDram new cap).memByte b
    = if 0x8000000000 ≤ b ∨ b < new.length * cap then s.memByte b else 0 := by
  rw [State.dealDram, if_pos h]
  refine (smGet_filter s.mem 0 (fun a => decide (0x8000000000 ≤ a) || decide (a < new.length * cap)) b).trans ?_
  by_cases hb : 0x8000000000 ≤ b ∨ b < new.length * cap <;> simp [hb, State.memByte]

/-- DRAM beyond what the trained channels use holds nothing. -/
theorem memByte_dealDram_unused {new : List Nat} {cap b : Nat} (hc : cap % 4096 = 0) (h1 : new.length * cap ≤ b)
    (h2 : b < 0x8000000000) : (s.dealDram new cap).memByte b = 0 := by
  by_cases h : new = s.dramChans
  · rw [memByte_dealDram_same h, if_neg (by omega)]
  · rw [State.dealDram, if_neg h]
    refine smGet_redeal fun a ha => ?_
    have := redealt_used hc ha
    omega

/-! ## Training (R444) -/

/-- A channel that has a DIMM, and trains by its stored data or in full. -/
def trains (s : State) (k : Nat) (c : Channel) : Bool := c.present && (s.reuses k c || c.passes)

/-- The channels that train, with their numbers. -/
def trainedOf (s : State) (cs : List Channel) : List (Channel × Nat) := cs.zipIdx.filter (fun p => trains s p.2 p.1)

/-- The GiB used of each of the channels listed (R30). -/
def usedGib (l : List (Channel × Nat)) : Nat :=
  l.foldl (fun m p => min m p.1.gib.toNat) (min 255 (if l.length = 0 then 0 else 512 / l.length))

/-- The mask of the channels with a property. -/
def chanMask (cs : List Channel) (f : Nat → Channel → Bool) : Nat :=
  sumNat (cs.zipIdx.map (fun p => if f p.2 p.1 then 2 ^ p.2 else 0))

/-- DRAM_STATUS as training leaves it. -/
def dramShown (s : State) (cs : List Channel) : Word32 :=
  BitVec.ofNat 32 (chanMask cs (fun _ c => c.present) + chanMask cs (trains s) * 16
    + chanMask cs (fun k c => c.present && !trains s k c) * 256 + usedGib (trainedOf s cs) * 65536)

/-- The layout is installed, and DRAM_STATUS and BC_TRAIN are written. -/
def layoutInstalled (s : State) (cs : List Channel) : State :=
  ((s.dealDram ((trainedOf s cs).map (·.2)) (usedGib (trainedOf s cs) * 2 ^ 30)).setReg (.g .dramStatus)
    (dramShown s cs)).setReg (.boot .train) (BitVec.ofNat 32 (chanMask cs (fun k c => c.present && s.reuses k c)
      + chanMask cs (fun k c => trains s k c && !s.reuses k c) * 16))

/-- TRAIN_REUSED is shown. -/
def reuseShown (s : State) (cs : List Channel) : State :=
  let u := layoutInstalled s cs
  if (trainedOf s cs).length ≠ 0 ∧ chanMask cs (fun k c => c.present && s.reuses k c) = chanMask cs (trains s) then
    u.setReg (.g .bootStatus) (setBit (u.reg (.g .bootStatus)) 12 true) else u

/-- The errors of training are shown. -/
def trainingShown (s : State) (cs : List Channel) : State :=
  if (trainedOf s cs).length = 0 then (reuseShown s cs).bootErr 0x21
  else if chanMask cs (fun k c => c.present && !trains s k c) ≠ 0 then (reuseShown s cs).bootErr 0x20 else reuseShown s cs

/-- Training has ended, and the ROM knows its outcome. -/
def trainingEnded (s : State) (cs : List Channel) : State :=
  let u := trainingShown s cs
  { u with free := u.free + 4 }.setBoot (fun b => { b with
    trained := true, dramHeld := true, waitTrain := false
    serials := (trainedOf s cs).map (fun (p : Channel × Nat) => (p.2, p.1.serial))
    phy := (trainedOf s cs).map (fun (p : Channel × Nat) => (p.2, s.phyValue p.2 p.1)) })

theorem endTraining_eq (ht : s.boot.trained = false) (hd : s.curlew.drkOff = true) (c0 c1 c2 c3 : Channel) :
    s.endTraining [c0, c1, c2, c3] = (trainingEnded s [c0, c1, c2, c3]).bootGo := by
  simp only [State.endTraining, ht, hd]
  rfl

theorem usedGib_le (l : List (Channel × Nat)) : usedGib l ≤ min 255 (if l.length = 0 then 0 else 512 / l.length) :=
  foldl_keeps (· ≤ min 255 (if l.length = 0 then 0 else 512 / l.length)) _ l _ le_rfl
    fun _ _ h => (min_le_left _ _).trans h

theorem usedGib_le_gib {l : List (Channel × Nat)} {p : Channel × Nat} (hp : p ∈ l) : usedGib l ≤ p.1.gib.toNat := by
  unfold usedGib
  generalize min 255 (if l.length = 0 then 0 else 512 / l.length) = a
  induction l generalizing a with
  | nil => cases hp
  | cons q l ih =>
    rcases List.mem_cons.mp hp with rfl | h
    · exact foldl_keeps (· ≤ p.1.gib.toNat) _ l _ (min_le_right _ _) fun _ _ h => (min_le_left _ _).trans h
    · exact ih h _

theorem trainingShown_regsOnly (s : State) (cs : List Channel) : RegsOnly (layoutInstalled s cs) (trainingShown s cs) := by
  have h : RegsOnly (layoutInstalled s cs) (reuseShown s cs) := .ite (.setReg _ _ _) (.refl _)
  exact .ite (h.trans (bootErr_regsOnly _ _)) (.ite (h.trans (bootErr_regsOnly _ _)) h)

theorem reg_trainingShown (cs : List Channel) {q : Reg} (h : q ≠ .g .bootStatus) :
    (trainingShown s cs).reg q = (layoutInstalled s cs).reg q := by
  have hr : (reuseShown s cs).reg q = (layoutInstalled s cs).reg q := reg_ite (reg_setReg_other _ _ _ _ h)
  unfold trainingShown
  split
  · rw [bootErr_reg _ h, hr]
  split
  · rw [bootErr_reg _ h, hr]
  · exact hr

theorem errorCode_reuseShown (cs : List Channel) : errorCode (reuseShown s cs) = errorCode s := by
  have hl : errorCode (layoutInstalled s cs) = errorCode s := by
    rw [layoutInstalled, errorCode_setReg (by simp), errorCode_setReg (by simp), errorCode_congr (dealDram_reg _ _ _)]
  unfold reuseShown
  dsimp only
  split
  · rw [← hl, errorCode, reg_setReg_same, setBit, bitsOf_setBits_apart _ _ _ _ _ _ (by decide)]; rfl
  · exact hl

/-- No channel that trains is DRAM_NONE, and one that fails beside others DRAM_PARTIAL (R444). -/
theorem errorCode_trainingShown {cs : List Channel} (h : errorCode s = 0) :
    ((trainedOf s cs).length = 0 → errorCode (trainingShown s cs) = 0x21)
    ∧ ((trainedOf s cs).length ≠ 0 → chanMask cs (fun k c => c.present && !trains s k c) ≠ 0 →
      errorCode (trainingShown s cs) = 0x20) := by
  have hr := (errorCode_reuseShown cs).trans h
  refine ⟨fun h0 => ?_, fun h0 hf => ?_⟩
  · rw [trainingShown, if_pos h0, errorCode_bootErr (by decide) hr]
  · rw [trainingShown, if_neg h0, if_pos hf, errorCode_bootErr (by decide) hr]

theorem boot_trainingShown (cs : List Channel) : (trainingShown s cs).boot = s.boot := by
  rw [(trainingShown_regsOnly s cs).boot, layoutInstalled, setReg_boot, setReg_boot, dealDram_boot]

theorem ctxs_trainingShown (cs : List Channel) : (trainingShown s cs).ctxs = s.ctxs := by
  rw [(trainingShown_regsOnly s cs).ctxs, layoutInstalled, setReg_ctxs, setReg_ctxs, dealDram_ctxs]

theorem dramChans_trainingShown (cs : List Channel) : (trainingShown s cs).dramChans = (trainedOf s cs).map (·.2) := by
  rw [(trainingShown_regsOnly s cs).dramChans, layoutInstalled, setReg_dramChans, setReg_dramChans, dealDram_chans]

theorem memByte_trainingShown (cs : List Channel) (b : Nat) : (trainingShown s cs).memByte b
    = (s.dealDram ((trainedOf s cs).map (·.2)) (usedGib (trainedOf s cs) * 2 ^ 30)).memByte b := by
  rw [(trainingShown_regsOnly s cs).memByte b, layoutInstalled, setReg_memByte, setReg_memByte]

theorem dramStatus_trainingShown (cs : List Channel) : (trainingShown s cs).reg (.g .dramStatus) = dramShown s cs := by
  rw [reg_trainingShown cs (by simp), layoutInstalled, reg_setReg_other _ _ _ _ (by simp), reg_setReg_same]

theorem boot_trainingEnded (cs : List Channel) : (trainingEnded s cs).boot = { (trainingShown s cs).boot with
    trained := true, dramHeld := true, waitTrain := false
    serials := (trainedOf s cs).map (fun (p : Channel × Nat) => (p.2, p.1.serial))
    phy := (trainedOf s cs).map (fun (p : Channel × Nat) => (p.2, s.phyValue p.2 p.1)) } := rfl

/-- Where the ROM runs nothing that waits for training, training alone changes the state. -/
theorem endTraining_quiet (ht : s.boot.trained = false) (hd : s.curlew.drkOff = true)
    (hp : s.boot.phase = .off ∨ (s.boot.phase = .recovery ∧ s.boot.stream = [] ∧ s.boot.streamEnd = false))
    (c0 c1 c2 c3 : Channel) : s.endTraining [c0, c1, c2, c3] = trainingEnded s [c0, c1, c2, c3] := by
  rw [endTraining_eq ht hd]
  generalize [c0, c1, c2, c3] = cs
  rw [← boot_trainingShown (s := s) cs] at hp
  rcases hp with h | ⟨h, h1, h2⟩
  · exact bootGo_off _ (by rw [boot_trainingEnded, h])
  · exact bootGo_recovery_waits (by rw [boot_trainingEnded, h]) (by rw [boot_trainingEnded, h1])
      (by rw [boot_trainingEnded, h2])

/-- The numbers of the listed items that have a property of number and item. -/
theorem numbers_filter {α : Type} (cs : List α) (f : Nat → α → Bool) (d : α) :
    (cs.zipIdx.filter (fun p => f p.2 p.1)).map (·.2) = (List.range cs.length).filter (fun k => f k (cs.getD k d)) := by
  have hr : List.range cs.length = cs.zipIdx.map (·.2) := by rw [List.range_eq_range', ← List.zipIdx_map_snd 0 cs]
  rw [hr, List.filter_map]
  refine congrArg (List.map _) (List.filter_congr fun p hp => ?_)
  simp [List.mem_zipIdx_iff_getElem?.mp hp]

/-- The number whose four low bits are given is below 16, and has those bits. -/
theorem maskOf_bools : ∀ (b0 b1 b2 b3 : Bool),
    let m := sumNat [if b0 then 2 ^ 0 else 0, if b1 then 2 ^ 1 else 0, if b2 then 2 ^ 2 else 0, if b3 then 2 ^ 3 else 0]
    m < 16 ∧ ∀ k : Fin 4, m.testBit k = [b0, b1, b2, b3].getD k b3 := by decide

theorem chanMask_lt (c0 c1 c2 c3 : Channel) (f : Nat → Channel → Bool) : chanMask [c0, c1, c2, c3] f < 16 :=
  (maskOf_bools (f 0 c0) (f 1 c1) (f 2 c2) (f 3 c3)).1

theorem testBit_chanMask (c0 c1 c2 c3 : Channel) (f : Nat → Channel → Bool) {k : Nat} (hk : k < 4) :
    (chanMask [c0, c1, c2, c3] f).testBit k = f k ([c0, c1, c2, c3].getD k c3) := by
  refine ((maskOf_bools (f 0 c0) (f 1 c1) (f 2 c2) (f 3 c3)).2 ⟨k, hk⟩).trans ?_
  interval_cases k <;> rfl

/-- The four fields that training writes in DRAM_STATUS (Table 2.21). -/
theorem dramFields {p t f g : Nat} (hp : p < 16) (ht : t < 16) (hf : f < 16) (hg : g < 256) :
    let v := BitVec.ofNat 32 (p + t * 16 + f * 256 + g * 65536)
    bitsOf v 23 16 = g ∧ ∀ k, k < 4 → bitAt v k = p.testBit k ∧ bitAt v (4 + k) = t.testBit k
      ∧ bitAt v (8 + k) = f.testBit k := by
  refine ⟨?_, fun k hk => ?_⟩
  · simp only [bitsOf, BitVec.toNat_ofNat, Nat.shiftRight_eq_div_pow]
    omega
  · simp only [bitAt, BitVec.getLsbD_ofNat, Nat.testBit_eq_decide_div_mod_eq]
    interval_cases k <;> simp <;> omega

end Sys2Proof.Laws
end

section
/-! PROOFS. The boot ROM (spec/18). -/

namespace Sys2Proof.Proofs.Boot

open Sys2Proof Sys2Proof.Machine Sys2Proof.Laws

variable {s : State}

/-! ## The commands -/

theorem exec_bootRom (sram rom : Bool) (bad : Nat) (nor : Option (List Byte)) :
    exec (.bootRom sram rom bad nor) s = .next (s.runRom sram rom bad nor) :=
  congrArg Host.Outcome.next (withUpset_none s fun s => s.runRom sram rom bad nor)

theorem exec_trainingDone (c0 c1 c2 c3 : Channel) :
    exec (.trainingDone c0 c1 c2 c3) s = .next (s.endTraining [c0, c1, c2, c3]) :=
  congrArg Host.Outcome.next (withUpset_none s fun s => s.endTraining [c0, c1, c2, c3])

theorem exec_bootData : exec .bootData s = .next (s.consumeType 0x10 []) :=
  congrArg Host.Outcome.next (withUpset_none s fun s => s.consumeType 0x10 [])

theorem exec_bootEnd : exec .bootEnd s = .next (s.consumeType 0x11 []) :=
  congrArg Host.Outcome.next (withUpset_none s fun s => s.consumeType 0x11 [])

theorem exec_reset : exec .reset s = .next (s.consumeType 0x12 []) := rfl

theorem exec_sourceTimeout : exec .sourceTimeout s = .next s.sourceTimeout :=
  congrArg Host.Outcome.next (withUpset_none s State.sourceTimeout)

theorem exec_rngWaitTimeout : exec .rngWaitTimeout s = .next s.rngTimeout := rfl

/-! ## The first checks and mailbox mode -/

/-- A boot that halts shows phase 0xF and, as the first error, its code. -/
theorem bootHalt_shows {u : State} {code : Nat} (hc : code < 256) (hu : errorCode u = errorCode s) :
    (u.bootHalt code).bootPhase = 0xF ∧ (u.bootHalt code).boot.phase = .off
    ∧ (errorCode s = 0 → errorCode (u.bootHalt code) = code) :=
  ⟨bootPhase_bootHalt code, rfl, fun h => errorCode_bootHalt hc (hu.trans h)⟩

/-- The sources are next, from the first one. -/
def sourcesNext (s : State) (bad : Nat) (nor : Option (List Byte)) : State :=
  s.setBoot (fun b => { b with phase := .source, nor := nor, entry := 0, probed := false, scanned := 0, patchBad := bad })

theorem runSources_next (hm : s.boot.bmode = 3) (hf : s.fuseField 0x240 1 = 0) (bad : Nat) (nor : Option (List Byte)) :
    State.runSources 9 (sourcesNext s bad nor) = mailboxWaits (sourcesNext s bad nor) :=
  runSources_mailbox 8 hm hf rfl rfl

/-- In mailbox mode the ROM stands at step 5, waiting for the first message. -/
theorem runRom_mailbox (hp : s.boot.phase = .ready) (hm : s.boot.bmode = 3) (hf : s.fuseField 0x240 1 = 0)
    (hc : s.calRec = none) (bad : Nat) (nor : Option (List Byte)) :
    s.runRom true true bad nor = mailboxWaits (sourcesNext (romKeyed (romCalibrated s)) bad nor) :=
  (runRom_good hp bad nor).trans (runSources_next (by rw [boot_romKeyed, boot_romCalibrated hc, hm])
    (by rw [fuseField_congr (sensed_romKeyed.trans (sensed_romCalibrated hc)), hf]) bad nor)

theorem firstChecks (hp : s.boot.phase = .ready) (nor : Option (List Byte)) :
    (∀ rom bad, Answers (.bootRom false rom bad nor) s (fun t => t.bootPhase = 0xF ∧ t.boot.phase = .off
      ∧ (errorCode s = 0 → errorCode t = 0xF1)))
    ∧ (∀ bad, Answers (.bootRom true false bad nor) s (fun t => t.bootPhase = 0xF ∧ t.boot.phase = .off
      ∧ (errorCode s = 0 → errorCode t = 0xF0))) := by
  refine ⟨fun rom bad => ⟨_, exec_bootRom _ _ _ _, ?_⟩, fun bad => ⟨_, exec_bootRom _ _ _ _, ?_⟩⟩
  · rw [runRom_sramBad hp]
    exact bootHalt_shows (by decide) errorCode_romStarted
  · rw [runRom_storeBad hp]
    exact bootHalt_shows (by decide) errorCode_romCalibrated

/-- The mailbox opens with its CODE. -/
theorem code_openMbx (code : Nat) : bitsOf ((s.openMbx code).reg (.g .mbxStatus)) 15 8 = code % 256 := by
  rw [show (s.openMbx code).reg (.g .mbxStatus) = setBits (s.reg (.g .mbxStatus)) 15 8 code from reg_setReg_same s _ _,
    bitsOf_setBits_same _ _ _ _ (by decide)]; rfl

theorem mailboxMode (hp : s.boot.phase = .ready) (hm : s.boot.bmode = 3) (hf : s.fuseField 0x240 1 = 0)
    (hc : s.calRec = none) (bad : Nat) (nor : Option (List Byte)) :
    Answers (.bootRom true true bad nor) s (fun t =>
      t.bootPhase = 2 ∧ t.reg (.boot .step) = 5 ∧ t.boot.phase = .source ∧ t.mbxOpen = true
      ∧ bitsOf (t.reg (.g .mbxStatus)) 15 8 = 1
      ∧ t.curlew.sr = deriveSr (BitVec.ofNat 256 (s.fuseField 0x100 256)) s.lcState s.uidBytes
      ∧ (∀ b, 0xF000000000 ≤ b → b < 0xF000800000 → t.memByte b = 0)
      ∧ (∀ b, b < 0xF000000000 ∨ 0xF000800000 ≤ b → t.memByte b = s.memByte b)) := by
  refine ⟨_, exec_bootRom _ _ _ _, ?_⟩
  rw [runRom_mailbox hp hm hf hc]
  have hmem (b : Nat) : (romKeyed (romCalibrated s)).memByte b
      = if 0xF000000000 ≤ b ∧ b < 0xF000800000 then 0 else s.memByte b :=
    (memByte_romKeyed b).trans (memByte_romCalibrated hc b)
  have hs := sensed_romCalibrated hc
  have hsr : (romKeyed (romCalibrated s)).curlew.sr
      = deriveSr (BitVec.ofNat 256 (s.fuseField 0x100 256)) s.lcState s.uidBytes := by
    rw [sr_romKeyed, fuseField_congr hs, lcState_congr hs, uidBytes_congr hs]
  have hph : (romKeyed (romCalibrated s)).bootPhase = 2 := bootPhase_romKeyed
  have hst : (romKeyed (romCalibrated s)).reg (.boot .step) = 5 := step_romKeyed
  generalize romKeyed (romCalibrated s) = u at hmem hsr hph hst ⊢
  refine ⟨(bootPhase_congr (reg_setReg_other u _ _ _ (by simp))).trans hph, (reg_setReg_other u _ _ _ (by simp)).trans hst,
    rfl, rfl, code_openMbx (s := sourcesNext u bad nor) 1, hsr,
    fun b h1 h2 => (hmem b).trans (if_pos ⟨h1, h2⟩), fun b h => (hmem b).trans (if_neg (by omega))⟩

/-! ## Training -/

/-! ## Training -/

section Training

variable (c0 c1 c2 c3 : Channel)

/-- What training finds on channel k. -/
def chan (k : Nat) : Channel := [c0, c1, c2, c3].getD k c3

/-- Whether channel k trains. -/
def good (s : State) (k : Nat) : Bool := trains s k (chan c0 c1 c2 c3 k)

/-- The numbers of the channels that train. -/
def goodChans (s : State) : List Nat := (List.range 4).filter (good c0 c1 c2 c3 s)

theorem trainedOf_nums : (trainedOf s [c0, c1, c2, c3]).map (·.2) = goodChans c0 c1 c2 c3 s :=
  numbers_filter [c0, c1, c2, c3] (trains s) c3

theorem trainedOf_length : (trainedOf s [c0, c1, c2, c3]).length = (goodChans c0 c1 c2 c3 s).length := by
  rw [← trainedOf_nums, List.length_map]

theorem mem_goodChans {k : Nat} : k ∈ goodChans c0 c1 c2 c3 s ↔ k < 4 ∧ good c0 c1 c2 c3 s k = true := by
  rw [goodChans, List.mem_filter, List.mem_range]

theorem usedGib_le_chan {k : Nat} (hk : k < 4) (hg : good c0 c1 c2 c3 s k = true) :
    usedGib (trainedOf s [c0, c1, c2, c3]) ≤ (chan c0 c1 c2 c3 k).gib.toNat := by
  refine usedGib_le_gib (p := (chan c0 c1 c2 c3 k, k)) (List.mem_filter.mpr ⟨List.mem_zipIdx_iff_getElem?.mpr ?_, hg⟩)
  interval_cases k <;> rfl

/-- DRAM_STATUS shows the GiB used of each channel, and of every channel whether it has a DIMM, trained, or
failed (Table 2.21). -/
theorem dramShown_fields : let v := dramShown s [c0, c1, c2, c3]
    bitsOf v 23 16 = usedGib (trainedOf s [c0, c1, c2, c3])
    ∧ ∀ k, k < 4 → bitAt v k = (chan c0 c1 c2 c3 k).present ∧ bitAt v (4 + k) = good c0 c1 c2 c3 s k
      ∧ bitAt v (8 + k) = ((chan c0 c1 c2 c3 k).present && !good c0 c1 c2 c3 s k) := by
  obtain ⟨hg, hbits⟩ := dramFields (chanMask_lt c0 c1 c2 c3 fun _ c => c.present) (chanMask_lt c0 c1 c2 c3 (trains s))
    (chanMask_lt c0 c1 c2 c3 fun k c => c.present && !trains s k c)
    (Nat.lt_succ_of_le ((usedGib_le (trainedOf s [c0, c1, c2, c3])).trans (min_le_left _ _)))
  refine ⟨hg, fun k hk => ?_⟩
  obtain ⟨hp, ht, hf⟩ := hbits k hk
  exact ⟨hp.trans (testBit_chanMask _ _ _ _ _ hk), ht.trans (testBit_chanMask _ _ _ _ _ hk),
    hf.trans (testBit_chanMask _ _ _ _ _ hk)⟩

/-- What the new layout does not use is lost, and what it does stays where the channels are the same (R30). -/
theorem memByte_trainingEnded :
    let used := (goodChans c0 c1 c2 c3 s).length * (usedGib (trainedOf s [c0, c1, c2, c3]) * 2 ^ 30)
    (∀ b, used ≤ b → b < 0x8000000000 → (trainingEnded s [c0, c1, c2, c3]).memByte b = 0)
    ∧ (s.dramChans = goodChans c0 c1 c2 c3 s → ∀ b, (b < used ∨ 0x8000000000 ≤ b) →
      (trainingEnded s [c0, c1, c2, c3]).memByte b = s.memByte b) := by
  have hm (b : Nat) := memByte_trainingShown (s := s) [c0, c1, c2, c3] b
  rw [trainedOf_nums] at hm
  refine ⟨fun b h1 h2 => (hm b).trans (memByte_dealDram_unused (by omega) h1 h2), fun h b hb => (hm b).trans ?_⟩
  rw [memByte_dealDram_same h.symm, if_pos hb.symm]

theorem errorCode_trainingEnded (h : errorCode s = 0) :
    ((∀ k, k < 4 → good c0 c1 c2 c3 s k = false) → errorCode (trainingEnded s [c0, c1, c2, c3]) = 0x21)
    ∧ ((∃ k, k < 4 ∧ good c0 c1 c2 c3 s k = true) →
      (∃ k, k < 4 ∧ (chan c0 c1 c2 c3 k).present = true ∧ good c0 c1 c2 c3 s k = false) →
      errorCode (trainingEnded s [c0, c1, c2, c3]) = 0x20) := by
  obtain ⟨hnone, hpartial⟩ := errorCode_trainingShown (s := s) (cs := [c0, c1, c2, c3]) h
  rw [trainedOf_length] at hnone hpartial
  refine ⟨fun hall => hnone ?_, fun ⟨k, hk, hg⟩ ⟨j, hj, hpres, hbad⟩ => hpartial ?_ ?_⟩
  · rw [List.length_eq_zero_iff, List.eq_nil_iff_forall_not_mem]
    intro k hk
    obtain ⟨hk4, hg⟩ := (mem_goodChans c0 c1 c2 c3).mp hk
    exact absurd hg (by rw [hall k hk4]; decide)
  · exact List.length_pos_of_mem ((mem_goodChans c0 c1 c2 c3).mpr ⟨hk, hg⟩) |>.ne'
  · intro h0
    have := testBit_chanMask c0 c1 c2 c3 (fun k c => c.present && !trains s k c) hj
    rw [h0, Nat.zero_testBit] at this
    exact absurd (this.trans (congrArg₂ (· && !·) hpres hbad)) (by decide)

end Training

/-! ## Messages -/

section Messages

/-- The state in which the ROM has taken a message, with what it then holds of the stream. -/
def took (s : State) (b : Boot) : State := { s with h2dFull := false, boot := b }

/-- What the ROM holds once BOOT_DATA has been taken. -/
def withData (s : State) : Boot := { s.boot with began := true, stream := s.boot.stream ++ s.h2dBytes }

/-- What the ROM holds once BOOT_END has been taken. -/
def withEnd (s : State) : Boot := { s.boot with began := true, streamEnd := true }

variable (hp : s.boot.phase = .recovery) (hf : s.h2dFull = true) (hw : s.boot.waitTrain = false)
include hp hf hw

theorem bootData_loads (ht : s.h2dType = 0x10) (hpo : ∀ w, smGet s.mbxPoison false w = false)
    (hs : (withData s).stream ≠ []) : exec .bootData s = .next (took s (withData s)).recoveryLoad := by
  rw [exec_bootData, consumeType_stream hp hf hw ht (.inl rfl) fun _ => hpo]
  exact congrArg _ (bootGo_recovery (s := took s (withData s)) hp (.inl hs))

theorem bootEnd_loads (ht : s.h2dType = 0x11) : exec .bootEnd s = .next (took s (withEnd s)).recoveryLoad := by
  rw [exec_bootEnd, consumeType_stream hp hf hw ht (.inr rfl) fun h => absurd h (by decide)]
  exact congrArg _ (bootGo_recovery (s := took s (withEnd s)) hp (.inr rfl))

theorem bootData_waits (ht : s.h2dType = 0x10) (hpo : ∀ w, smGet s.mbxPoison false w = false)
    (he : s.boot.streamEnd = false) (hb : s.boot.streamBad = false) (hs : (withData s).stream ≠ [])
    (hl : ((took s (withData s)).loadSet none false (withData s).stream).1 = .more) : Answers .bootData s (fun t =>
      t.boot.stream = s.boot.stream ++ s.h2dBytes ∧ t.h2dFull = false ∧ t.boot.phase = .recovery) := by
  refine ⟨_, bootData_loads hp hf hw ht hpo hs, ?_⟩
  have hi := intake_loadSet false (withData s).stream (took s (withData s))
  rw [← he] at hl hi
  rw [recoveryLoad_more (s := took s (withData s)) hb hl]
  exact ⟨stream_of_intake hi, h2dFull_of_intake hi, (phase_of_intake hi).trans hp⟩

theorem bootEnd_fails (ht : s.h2dType = 0x11) (hd : s.d2hFull = false) {c : Nat} (hc : c < 16)
    (hl : ((took s (withEnd s)).loadSet none true s.boot.stream).1 = .fail c) : Answers .bootEnd s (fun t =>
      t.boot.stream = [] ∧ t.boot.phase = .recovery ∧ t.d2hFull = true ∧ smGet t.d2h 0 0 = BitVec.ofNat 8 c
      ∧ bitsOf (t.reg (.g .mbxStatus)) 15 8 = 5 ∧ bitsOf (t.reg (.boot .srcResult)) 3 0 = c) := by
  refine ⟨_, bootEnd_loads hp hf hw ht, ?_⟩
  have hi := intake_loadSet true s.boot.stream (took s (withEnd s))
  rw [recoveryLoad_fail (s := took s (withEnd s)) hl]
  obtain ⟨hs, hph, hpost, hbyte, hcode, -, hres⟩ := recoveryFails_answers hc ((d2hFull_of_intake hi).trans hd)
  exact ⟨hs, hph.trans ((phase_of_intake hi).trans hp), hpost, hbyte, hcode, hres⟩

theorem bootEnd_jumps (ht : s.h2dType = 0x11) (hb : s.boot.streamBad = false) {m : MonImage} {load : LoadRes × State}
    (hload : (took s (withEnd s)).loadSet none true s.boot.stream = load) (hl : load.1 = .mon m)
    (htr : load.2.boot.trained = true) (hlo : hdrField m.header 0x20 2 ≤ stepping)
    (hhi : stepping ≤ hdrField m.header 0x22 2) (hr : hdrField m.header 7 1 % 2 = 1 → load.2.rngReady = true) :
    Answers .bootEnd s (fun t => Jumped m t ∧ t.boot.booted = load.2.boot.booted ∧ t.curlew.bbkValid = true
      ∧ t.curlew.bbk = deriveBbk load.2.curlew.sr load.2.lcState (beBytes 48 m.meas.toNat) (load.2.monVer m)) := by
  subst hload
  refine ⟨_, bootEnd_loads hp hf hw ht, ?_⟩
  rw [recoveryLoad_mon (s := took s (withEnd s)) hb rfl hl]
  have hi := pairing_recovered (s := ((took s (withEnd s)).loadSet none true s.boot.stream).2)
  rw [← booted_of_pairing hi, ← curlew_of_pairing hi, ← lcState_of_pairing hi, ← monVer_of_pairing hi]
  exact pairMon_jumps m ((trained_of_pairing hi).trans htr) hlo hhi fun h => (rngReady_of_pairing hi).trans (hr h)

theorem reset_resets (ht : s.h2dType = 0x12) : Answers .reset s (fun t => t.inReset = true
    ∧ t.reg (.g .resetCause) = s.reg (.g .resetCause) ||| 0x40) := by
  refine ⟨_, exec_reset, ?_⟩
  rw [consumeType_reset hp hf hw ht]
  exact chipReset_soft { s with h2dFull := false }

end Messages

/-! ## Time-outs -/

theorem sourceTimeout_answers (hp : s.boot.phase = .recovery) (hb : s.boot.began = true) (hw : s.boot.waitTrain = false)
    (hd : s.d2hFull = false) : Answers .sourceTimeout s (fun t =>
      t.boot.stream = [] ∧ t.boot.phase = .recovery ∧ t.d2hFull = true ∧ smGet t.d2h 0 0 = 6
      ∧ bitsOf (t.reg (.g .mbxStatus)) 15 8 = 5 ∧ bitsOf (t.reg (.g .mbxStatus)) 31 16 = 1
      ∧ bitsOf (t.reg (.boot .srcResult)) 3 0 = 6) := by
  refine ⟨_, exec_sourceTimeout, ?_⟩
  rw [sourceTimeout_recovery hp hb hw]
  obtain ⟨hs, hph, hrest⟩ := recoveryFails_answers (s := s) (c := 6) (by decide) hd
  exact ⟨hs, hph.trans hp, hrest⟩

/-- The ROM is in recovery, as BOOT_STATUS.PHASE shows, and serves the mailbox. -/
def Recovering (t : State) : Prop := t.boot.phase = .recovery ∧ t.bootPhase = 0xE ∧ t.mbxOpen = true

theorem recovery_recovering : Recovering s.recovery := ⟨rfl, bootPhase_recovery, rfl⟩

theorem errorCode_sourceEnded (c : Nat) : errorCode (sourceEnded s c) = errorCode s := by
  rw [errorCode, sourceEnded, setBoot_reg, reg_endSource c (by simp) (by simp)]
  rfl

theorem srcResult_sourceEnded (c : Nat) : (sourceEnded s c).reg (.boot .srcResult)
    = s.reg (.boot .srcResult) ||| BitVec.ofNat 32 (c * 2 ^ (4 * s.boot.entry)) := by
  rw [sourceEnded, setBoot_reg, srcResult_endSource]

theorem sourceTimeout_recovers (hp : s.boot.phase = .source) (he : s.bootEntries = [(3, 0)]) (h0 : s.boot.entry = 0)
    (hpr : s.boot.probed = true) (hb : s.boot.began = true) (hw : s.boot.waitTrain = false) :
    Answers .sourceTimeout s (fun t => Recovering t ∧ (errorCode s = 0 → errorCode t = 0x10)
      ∧ t.reg (.boot .srcResult) = s.reg (.boot .srcResult) ||| 6) := by
  refine ⟨_, exec_sourceTimeout, ?_⟩
  rw [sourceTimeout_mailbox hp he h0 hpr hb hw, failSource_last 6 he h0]
  refine ⟨recovery_recovering, fun h => ?_, ?_⟩
  · rw [errorCode_recovery, errorCode_bootErr (by decide) ((errorCode_sourceEnded 6).trans h)]
  · rw [reg_recovery (by simp) (by simp) (by simp), bootErr_reg _ (by simp)]
    rw [srcResult_sourceEnded, h0]
    exact congrArg (s.reg (.boot .srcResult) ||| ·) (by decide)

theorem rngWaitTimeout_recovers (hp : s.boot.phase = .rng) : Answers .rngWaitTimeout s (fun t => Recovering t
    ∧ (errorCode s = 0 → errorCode t = 0x30)) := by
  refine ⟨_, exec_rngWaitTimeout, ?_⟩
  rw [rngTimeout_rng hp]
  exact ⟨recovery_recovering, fun h => by rw [errorCode_recovery, errorCode_bootErr (by decide) h]⟩

/-- Settles O55, clause by clause: the first checks and mailbox mode, training, the messages of recovery, and time-outs. -/
theorem theBootRomLoadsAndRecovers : Obligations.TheBootRomLoadsAndRecovers := by
  unfold Obligations.TheBootRomLoadsAndRecovers
  intro s
  refine ⟨fun hp nor => ?_, fun ht hd hp c0 c1 c2 c3 => ?_, fun hp hf hw => ?_, ?_, ?_, ?_⟩
  · obtain ⟨hsram, hrom⟩ := firstChecks hp nor
    exact ⟨hsram, hrom, fun hm hfuse hc bad => mailboxMode hp hm hfuse hc bad nor⟩
  · obtain ⟨hcap, hbits⟩ := dramShown_fields (s := s) c0 c1 c2 c3
    obtain ⟨hlost, hkept⟩ := memByte_trainingEnded (s := s) c0 c1 c2 c3
    have hst : (trainingEnded s [c0, c1, c2, c3]).reg (.g .dramStatus) = dramShown s [c0, c1, c2, c3] :=
      dramStatus_trainingShown _
    refine ⟨_, (exec_trainingDone c0 c1 c2 c3).trans (congrArg _ (endTraining_quiet ht hd hp c0 c1 c2 c3)), rfl, rfl,
      ctxs_trainingShown _, (dramChans_trainingShown _).trans (trainedOf_nums c0 c1 c2 c3), ?_, fun k hk => ?_,
      fun hall h => (errorCode_trainingEnded c0 c1 c2 c3 h).1 hall,
      fun hsome hbad h => (errorCode_trainingEnded c0 c1 c2 c3 h).2 hsome hbad⟩
    · rw [hst, hcap]
      exact ⟨hlost, hkept⟩
    · obtain ⟨hpres, htrain, hfail⟩ := hbits k hk
      rw [hst, hcap]
      exact ⟨hpres, htrain, hfail, usedGib_le_chan c0 c1 c2 c3 hk⟩
  · refine ⟨fun h10 hpo he hb hs hl => bootData_waits hp hf hw h10 hpo he hb hs hl, fun h11 hb hd => ⟨fun c hc hl =>
      bootEnd_fails hp hf hw h11 hd hc hl, fun m hl htr hlo hhi hr => ?_⟩, reset_resets hp hf hw⟩
    obtain ⟨t, hex, hj, hbo, hv, hbbk⟩ := bootEnd_jumps hp hf hw h11 hb rfl hl htr hlo hhi hr
    exact ⟨t, hex, hj.pc, hj.world, hj.phase, hj.off, hj.locked, hbo, hj.meas, hbbk, hv, hj.shown, hj.unheld⟩
  · exact sourceTimeout_answers
  · exact sourceTimeout_recovers
  · exact rngWaitTimeout_recovers

end Sys2Proof.Proofs.Boot
end

section
/-! SUPPORT. Fields of a number, and what a refused cycle and the error records leave (R47, R50, R335, R336, R345). -/

namespace Sys2Proof.Laws

open Sys2Proof Sys2Proof.Machine

variable {s t : State} {q : Reg}

/-! ## Fields of a number and of a merged word -/

theorem bitAt_ofNat (n : Nat) {k : Nat} (h : k < 32) : bitAt (BitVec.ofNat 32 n) k = n.testBit k := by
  rw [bitAt, BitVec.getLsbD_ofNat, decide_eq_true h, Bool.true_and]

theorem bitsOf_ofNat (n : Nat) {hi : Nat} (lo : Nat) (h : hi < 32) :
    bitsOf (BitVec.ofNat 32 n) hi lo = n / 2 ^ lo % 2 ^ (hi + 1 - lo) := by
  refine Nat.eq_of_testBit_eq fun i => ?_
  rw [testBit_bitsOf, Nat.testBit_mod_two_pow, Nat.testBit_div_two_pow]
  by_cases hi' : i < hi + 1 - lo
  · rw [bitAt_ofNat n (by omega), Nat.add_comm lo]
  · simp [hi']

theorem bitAt_or {w : Nat} (u v : BitVec w) (k : Nat) : bitAt (u ||| v) k = (bitAt u k || bitAt v k) := BitVec.getLsbD_or

theorem bitAt_mergeBits {w : Nat} (old m new : BitVec w) (k : Nat) :
    bitAt (mergeBits old m new) k = if bitAt m k then bitAt new k else bitAt old k := by
  simp only [bitAt, mergeBits, BitVec.getLsbD_or, BitVec.getLsbD_and, BitVec.getLsbD_not]
  by_cases hk : k < w
  · by_cases hm : m.getLsbD k = true <;> simp [hk, hm, -BitVec.getLsbD_eq_getElem]
  · simp [BitVec.getLsbD_of_ge _ k (Nat.le_of_not_lt hk)]

/-! ## Operations on registers alone -/

theorem reg_bumpSat_other (r : Reg) (k : Nat) (h : q ≠ r) : (s.bumpSat r k).reg q = s.reg q := reg_setReg_other s r q _ h

theorem reg_setHint_other (k : Nat) (h : q ≠ .g .hintStatus) : (s.setHint k).reg q = s.reg q := reg_orReg_other s _ q _ h

theorem reg_setLine_other (k : Nat) (h : q ≠ .d .irqLinePend) : (s.setLine k).reg q = s.reg q := reg_orReg_other s _ q _ h

theorem mchk_regsOnly (source core : Nat) (boot : Bool) : RegsOnly s (s.mchk source core boot) :=
  .ite (.setReg _ _ _) (((RegsOnly.setReg s _ _).trans (.setReg _ _ _)).trans (.setReg _ _ _))

theorem integRec_regsOnly (path cause core agent a : Nat) : RegsOnly s (s.integRec path cause core agent a) :=
  .ite (.setReg _ _ _)
    ((((RegsOnly.setReg s _ _).trans (.setReg _ _ _)).trans (.setReg _ _ _)).trans (.setReg _ _ _))

/-! ## Refused cycles (R47, R50) -/

/-- BUS_ERR_INFO as a refused cycle records it (Table 2.15). -/
def errInfo (code : Nat) (write : Bool) (be : BitVec 4) (lanes : Nat) (performed : Bool) : Word32 :=
  BitVec.ofNat 32 (1 + 16 * code + 256 * bit write + 4096 * be.toNat + 65536 * lanes + 1048576 * bit performed)

theorem errInfo_fields {code lanes : Nat} (write : Bool) (be : BitVec 4) (performed : Bool) (hc : code < 16)
    (hl : lanes < 16) :
    bitsOf (errInfo code write be lanes performed) 7 4 = code ∧ bitsOf (errInfo code write be lanes performed) 19 16 = lanes
    ∧ bitAt (errInfo code write be lanes performed) 8 = write ∧ bitAt (errInfo code write be lanes performed) 20 = performed
    ∧ bitAt (errInfo code write be lanes performed) 0 = true := by
  have hbe := be.isLt
  have hw : bit write < 2 ∧ decide (bit write = 1) = write := by cases write <;> decide
  have hp : bit performed < 2 ∧ decide (bit performed = 1) = performed := by cases performed <;> decide
  unfold errInfo
  rw [bitsOf_ofNat _ _ (by decide), bitsOf_ofNat _ _ (by decide), bitAt_ofNat _ (by decide), bitAt_ofNat _ (by decide),
    bitAt_ofNat _ (by decide)]
  simp only [Nat.testBit_eq_decide_div_mod_eq]
  refine ⟨by omega, by omega, ?_, ?_, decide_eq_true (by omega)⟩
  · exact (decide_eq_decide.mpr (by omega)).trans hw.2
  · exact (decide_eq_decide.mpr (by omega)).trans hp.2

section

variable {addr code lanes : Nat} {write performed : Bool} {be : BitVec 4}

/-- What a refused cycle leaves beside the completion, once its record is made. -/
theorem busErr_eq (s : State) (addr code : Nat) (write : Bool) (be : BitVec 4) (lanes : Nat) (performed : Bool) :
    s.busErr addr code write be lanes performed = { (((if bitAt (s.reg (.g .busErrInfo)) 0
      then s.setReg (.g .busErrInfo) (s.reg (.g .busErrInfo) ||| 2)
      else (s.setReg (.g .busErrAddr) (BitVec.ofNat 32 (addr / 4 * 4))).setReg (.g .busErrInfo)
        (errInfo code write be lanes performed)).setHint 16).setLine 15) with resp := { code := BitVec.ofNat 4 code } } := rfl

theorem reg_withResp (p : Resp) : ({ s with resp := p } : State).reg q = s.reg q := rfl

/-- A refused cycle changes registers and the completion at most. -/
theorem busErr_regsOnly (s : State) (addr code : Nat) (write : Bool) (be : BitVec 4) (lanes : Nat) (performed : Bool) :
    RegsOnly { s with resp := { code := BitVec.ofNat 4 code } } (s.busErr addr code write be lanes performed) := by
  rw [busErr_eq]
  split <;> rfl

theorem busErr_resp : (s.busErr addr code write be lanes performed).resp = { code := BitVec.ofNat 4 code } :=
  (busErr_regsOnly s addr code write be lanes performed).keeps State.resp fun _ _ => rfl

/-- Whatever depends neither on the registers nor on the completion stays when a cycle is refused. -/
theorem busErr_keeps {β : Type} (f : State → β) (hf : ∀ v m p, f { v with regs := m, resp := p } = f v) :
    f (s.busErr addr code write be lanes performed) = f s :=
  ((busErr_regsOnly s addr code write be lanes performed).keeps f fun v m => hf v m v.resp).trans (hf s s.regs _)

theorem reg_busErr_other (hh : q ≠ .g .hintStatus) (hl : q ≠ .d .irqLinePend) (ha : q ≠ .g .busErrAddr)
    (hi : q ≠ .g .busErrInfo) : (s.busErr addr code write be lanes performed).reg q = s.reg q := by
  rw [busErr_eq, reg_withResp, reg_setLine_other 15 hl, reg_setHint_other 16 hh]
  split
  · rw [reg_setReg_other _ _ _ _ hi]
  · rw [reg_setReg_other _ _ _ _ hi, reg_setReg_other _ _ _ _ ha]

theorem busErr_hint : bitAt ((s.busErr addr code write be lanes performed).reg (.g .hintStatus)) 16 = true := by
  rw [busErr_eq, reg_withResp, reg_setLine_other 15 (by simp), State.setHint, reg_orReg_same, bitAt_or, Bool.or_eq_true]
  exact .inr rfl

theorem busErr_line : bitAt ((s.busErr addr code write be lanes performed).reg (.d .irqLinePend)) 15 = true := by
  rw [busErr_eq, reg_withResp, State.setLine, reg_orReg_same, bitAt_or, Bool.or_eq_true]
  exact .inr rfl

/-- With the record free, a refused cycle is recorded. -/
theorem busErr_recorded (h : bitAt (s.reg (.g .busErrInfo)) 0 = false) :
    (s.busErr addr code write be lanes performed).reg (.g .busErrAddr) = BitVec.ofNat 32 (addr / 4 * 4)
    ∧ (s.busErr addr code write be lanes performed).reg (.g .busErrInfo) = errInfo code write be lanes performed := by
  rw [busErr_eq, if_neg (by simp [h])]
  constructor
  · rw [reg_withResp, reg_setLine_other 15 (by simp), reg_setHint_other 16 (by simp), reg_setReg_other _ _ _ _ (by simp),
      reg_setReg_same]
  · rw [reg_withResp, reg_setLine_other 15 (by simp), reg_setHint_other 16 (by simp), reg_setReg_same]

/-- With the record taken, a refused cycle sets its overrun bit. -/
theorem busErr_overrun (h : bitAt (s.reg (.g .busErrInfo)) 0 = true) :
    (s.busErr addr code write be lanes performed).reg (.g .busErrAddr) = s.reg (.g .busErrAddr)
    ∧ (s.busErr addr code write be lanes performed).reg (.g .busErrInfo) = s.reg (.g .busErrInfo) ||| 2 := by
  rw [busErr_eq, if_pos h]
  constructor
  · rw [reg_withResp, reg_setLine_other 15 (by simp), reg_setHint_other 16 (by simp), reg_setReg_other _ _ _ _ (by simp)]
  · rw [reg_withResp, reg_setLine_other 15 (by simp), reg_setHint_other 16 (by simp), reg_setReg_same]

end

/-! ## Machine checks and integrity records (R50, R345) -/

theorem reg_mchk_other (source core : Nat) (boot : Bool) (hm : q ≠ .g .mchkStatus) (hh : q ≠ .g .hintStatus)
    (hl : q ≠ .d .irqLinePend) : (s.mchk source core boot).reg q = s.reg q := by
  unfold State.mchk
  dsimp only
  split
  · exact reg_setReg_other _ _ _ _ hm
  · rw [reg_setLine_other 9 hl, reg_setHint_other 18 hh, reg_setReg_other _ _ _ _ hm]

theorem mchk_recorded (source core : Nat) (boot : Bool) (h : bitAt (s.reg (.g .mchkStatus)) 0 = false) :
    (s.mchk source core boot).reg (.g .mchkStatus) = BitVec.ofNat 32 (1 + source * 16 + core * 256 + bit boot * 4096) := by
  unfold State.mchk
  dsimp only
  rw [if_neg (by simp [h]), reg_setLine_other 9 (by simp), reg_setHint_other 18 (by simp), reg_setReg_same]

theorem reg_integRec_other (path cause core agent a : Nat) (hi : q ≠ .d .integRecInfo) (hlo : q ≠ .d .integRecAddrLo)
    (hhi : q ≠ .d .integRecAddrHi) (hl : q ≠ .d .irqLinePend) : (s.integRec path cause core agent a).reg q = s.reg q := by
  unfold State.integRec
  dsimp only
  split
  · exact reg_setReg_other _ _ _ _ hi
  · rw [reg_setLine_other 10 hl, reg_setReg_other _ _ _ _ hhi, reg_setReg_other _ _ _ _ hlo, reg_setReg_other _ _ _ _ hi]

theorem integRec_recorded (path cause core agent a : Nat) (h : bitAt (s.reg (.d .integRecInfo)) 0 = false) :
    (s.integRec path cause core agent a).reg (.d .integRecInfo)
      = BitVec.ofNat 32 (1 + path * 16 + cause * 256 + core * 65536 + agent * 1048576) := by
  unfold State.integRec
  dsimp only
  rw [if_neg (by simp [h]), reg_setLine_other 10 (by simp), reg_setReg_other _ _ _ _ (by simp),
    reg_setReg_other _ _ _ _ (by simp), reg_setReg_same]

end Sys2Proof.Laws
end

section
/-! SUPPORT. Host cycles place by place (R45 to R56, R590): where the places of the window lie, and what a cycle comes to. -/

namespace Sys2Proof.Laws

open Sys2Proof Sys2Proof.Machine

variable {s t : State} {a : Access} {addr : PhysAddr} {d : Word32} {x o : Nat}

/-! ## The places of the window (Table 2.6) -/

/-- Where a place of the mailbox or of the aperture lies in the window. -/
inductive LiesAt (x : Nat) : HostPlace → Prop
  | empty : LiesAt x .empty
  | reg (r : Reg) : LiesAt x (.reg r)
  | h2d {o : Nat} (h : x = 0x10000 + o ∧ o < 0x8000) : LiesAt x (.h2d o)
  | d2h {o : Nat} (h : x = 0x18000 + o ∧ o < 0x8000) : LiesAt x (.d2h o)
  | aperture {o : Nat} (h : x = 0x800000 + o) : LiesAt x (.aperture o)

theorem liesAt_hostPlaceOf (x : Nat) (r : Option Reg) : LiesAt x (hostPlaceOf r) := by
  cases r with
  | none => exact .empty
  | some r => exact .reg r

theorem liesAt_ite {c : Prop} [Decidable c] {p p' : HostPlace} (h : c → LiesAt x p) (h' : ¬ c → LiesAt x p') :
    LiesAt x (if c then p else p') := by
  split
  · exact h ‹_›
  · exact h' ‹_›

theorem liesAt_hostPlace (x : Nat) : LiesAt x (hostPlace x) := by
  have reg (r : Option Reg) : LiesAt x (hostPlaceOf r) := liesAt_hostPlaceOf x r
  unfold hostPlace
  refine liesAt_ite (fun _ => reg _) fun _ => liesAt_ite (fun _ => .empty) fun _ => liesAt_ite (fun _ => reg _) fun _ =>
    liesAt_ite (fun _ => reg _) fun _ => liesAt_ite (fun _ => .empty) fun _ => liesAt_ite (fun _ => reg _) fun _ =>
    liesAt_ite (fun _ => .empty) fun _ => liesAt_ite (fun _ => .h2d ?h2d) fun _ => liesAt_ite (fun _ => .d2h ?d2h) fun _ =>
    liesAt_ite (fun _ => .empty) fun _ => liesAt_ite (fun _ => reg _) fun _ => liesAt_ite (fun _ => .empty) fun _ =>
    .aperture ?aperture
  case h2d => omega
  case d2h => omega
  case aperture => omega

theorem hostPlace_h2d (h : hostPlace x = .h2d o) : x = 0x10000 + o ∧ o < 0x8000 := by
  have hx := liesAt_hostPlace x
  rw [h] at hx
  cases hx with
  | h2d h => exact h

theorem hostPlace_d2h (h : hostPlace x = .d2h o) : x = 0x18000 + o ∧ o < 0x8000 := by
  have hx := liesAt_hostPlace x
  rw [h] at hx
  cases hx with
  | d2h h => exact h

theorem hostPlace_aperture (h : hostPlace x = .aperture o) : x = 0x800000 + o := by
  have hx := liesAt_hostPlace x
  rw [h] at hx
  cases hx with
  | aperture h => exact h

/-! ## The checks before an access (R45, R46, R57) -/

theorem answers_congr (ha : t.accepting = s.accepting) (hr : t.inReset = s.inReset)
    (hb : t.reg (.g .bootStatus) = s.reg (.g .bootStatus)) : t.answers = s.answers := by
  rw [State.answers, State.answers, ha, hr, bootPhase_congr hb]

/-- The lanes that fail the data parity check are a mask of four. -/
theorem badLanes_lt (a : Access) (d : Word32) : badLanes a d < 16 :=
  (maskOf_bools (a.be.getLsbD 0 && _) (a.be.getLsbD 1 && _) (a.be.getLsbD 2 && _) (a.be.getLsbD 3 && _)).1

/-- A lane that is not enabled fails no check. -/
theorem badLanes_no_lane (h : a.be = 0) : badLanes a d = 0 := by
  simp [badLanes, h, sumNat, List.range, List.range.loop]

theorem hostWrite_unanswered (h : s.answers = false) : s.hostWrite a x d = s := by
  simp [State.hostWrite, h]

theorem hostWrite_badAddress (h : s.answers = true) (hp : hapGood a x true = false) :
    s.hostWrite a x d = s.busErr (x / 4 * 4) 1 true a.be 0 false := by
  simp [State.hostWrite, h, hp]

theorem hostWrite_badData (h : s.answers = true) (hp : hapGood a x true = true) (hd : badLanes a d ≠ 0) :
    s.hostWrite a x d = s.busErr (x / 4 * 4) 2 true a.be (badLanes a d) false := by
  simp [State.hostWrite, h, hp, hd]

/-! ## Cycles that pass the checks -/

theorem hostWrite_h2d (h : s.answers = true) (hp : hapGood a x true = true) (hd : badLanes a d = 0)
    (hx : hostPlace (x / 4 * 4) = .h2d o) (ho : s.mbxOpen = true) (hf : s.h2dFull = false) :
    s.hostWrite a x d = s.mbxStore o a.be d := by
  simp [State.hostWrite, h, hp, hd, hx, ho, hf]

theorem hostRead_h2d (h : s.answers = true) (hp : hapGood a x false = true) (hx : hostPlace (x / 4 * 4) = .h2d o)
    (ho : s.mbxOpen = true) : s.hostRead a x = s.mbxRead (x / 4 * 4) o a.be (bufWord s.h2d o) := by
  simp [State.hostRead, h, hp, hx, ho]

theorem hostRead_d2h (h : s.answers = true) (hp : hapGood a x false = true) (hx : hostPlace (x / 4 * 4) = .d2h o)
    (ho : s.mbxOpen = true) : s.hostRead a x
      = if s.d2hFull then s.mbxRead (x / 4 * 4) (0x8000 + o) a.be (bufWord s.d2h o) else s.done 0 := by
  simp [State.hostRead, h, hp, hx, ho]

theorem hostRead_aperture (h : s.answers = true) (hp : hapGood a x false = true)
    (hx : hostPlace (x / 4 * 4) = .aperture o) (hr : s.aperRefusal o false = none) : s.hostRead a x = s.aperRead o := by
  simp [State.hostRead, h, hp, hx, hr]

theorem hostWrite_aperture (h : s.answers = true) (hp : hapGood a x true = true) (hd : badLanes a d = 0)
    (hx : hostPlace (x / 4 * 4) = .aperture o) (hr : s.aperRefusal o true = none) :
    s.hostWrite a x d = (s.aperStore o a.be d).done 0 := by
  simp [State.hostWrite, h, hp, hd, hx, hr]

/-- What of a cycle that does not complete has happened (R49). -/
def aperIssued (s : State) (o : Nat) (be : BitVec 4) (d : Word32) (write issued : Bool) : State :=
  if write && issued then s.aperStore o be d else if issued then s.touch (s.aperAddr o) 4 false else s

/-- A timeout on a cycle that makes an access (R49): what was issued is performed, and the cycle is refused with code 3. -/
theorem hostTimeout_aperture {write issued : Bool} (h : s.answers = true) (hp : hapGood a x write = true)
    (hd : badLanes a d = 0) (hx : hostPlace (x / 4 * 4) = .aperture o) (hr : s.aperRefusal o true = none)
    (hbe : write = true → a.be ≠ 0) : s.hostTimeout a x write issued d
      = (aperIssued s o a.be d write issued).busErr (x / 4 * 4) 3 write a.be 0 (write && issued) := by
  have hb : (write && decide (a.be = 0)) = false := by
    cases write
    · rfl
    · exact decide_eq_false (hbe rfl)
  unfold State.hostTimeout aperIssued
  simp only [hx, hb, h, hp, hd, hr, Bool.not_true, ne_eq, not_true_eq_false, decide_false, Bool.and_false, Bool.false_eq_true,
    if_false]

/-- A write with no lane enabled never reaches the timeout (R590). -/
theorem hostTimeout_no_lane (issued : Bool) (hx : hostPlace (x / 4 * 4) = .aperture o) (hbe : a.be = 0) :
    s.hostTimeout a x true issued d = s.hostWrite a x d := by
  simp [State.hostTimeout, hx, hbe]

end Sys2Proof.Laws
end

section
/-! PROOFS. Host writes that fail a parity check (spec/02, R46, R47, R50, R57). -/

namespace Sys2Proof.Proofs.HostWindow

open Sys2Proof Sys2Proof.Machine Sys2Proof.Laws

theorem exec_registerWrite_host {s : State} {a : Access} (hq : a.req = .host) (addr : PhysAddr) (data : Word32) :
    exec (.registerWrite a addr data) s = .next (s.hostWrite a (addr.toNat % 2 ^ 24) data) := by
  simp only [exec, execRegisterWrite, State.accessWrite, hq]

/-- What a refused write leaves: its record, HINT_STATUS.BUSERR and line 15, and everything else as it was. -/
theorem busErr_refuses (s : State) {x code lanes : Nat} (be : BitVec 4) (hc : code < 16) (hl : lanes < 16) :
    let t := s.busErr (x / 4 * 4) code true be lanes false
    t.resp.code = BitVec.ofNat 4 code ∧ t.mem = s.mem ∧ t.h2d = s.h2d ∧ t.stagedLo = s.stagedLo ∧ t.tide = s.tide
    ∧ bitAt (t.reg (.g .hintStatus)) 16 = true ∧ bitAt (t.reg (.d .irqLinePend)) 15 = true
    ∧ (bitAt (s.reg (.g .busErrInfo)) 0 = false → t.reg (.g .busErrAddr) = BitVec.ofNat 32 (x / 4 * 4)
        ∧ bitsOf (t.reg (.g .busErrInfo)) 7 4 = code ∧ bitsOf (t.reg (.g .busErrInfo)) 19 16 = lanes
        ∧ bitAt (t.reg (.g .busErrInfo)) 8 = true ∧ bitAt (t.reg (.g .busErrInfo)) 0 = true)
    ∧ (bitAt (s.reg (.g .busErrInfo)) 0 = true → t.reg (.g .busErrAddr) = s.reg (.g .busErrAddr)
        ∧ t.reg (.g .busErrInfo) = s.reg (.g .busErrInfo) ||| 2)
    ∧ (∀ r, r ≠ .g .hintStatus → r ≠ .d .irqLinePend → r ≠ .g .busErrAddr → r ≠ .g .busErrInfo → t.reg r = s.reg r) := by
  refine ⟨congrArg Resp.code busErr_resp, busErr_keeps State.mem fun _ _ _ => rfl, busErr_keeps State.h2d fun _ _ _ => rfl,
    busErr_keeps State.stagedLo fun _ _ _ => rfl, busErr_keeps State.tide fun _ _ _ => rfl, busErr_hint, busErr_line,
    fun hfree => ?_, busErr_overrun, fun r => reg_busErr_other⟩
  obtain ⟨haddr, hinfo⟩ := busErr_recorded (code := code) (write := true) (be := be) (lanes := lanes) (performed := false)
    (addr := x / 4 * 4) hfree
  obtain ⟨hcode, hlanes, hwrite, -, hvalid⟩ := errInfo_fields true be false hc hl
  rw [hinfo, haddr, Nat.mul_div_cancel _ (by decide)]
  exact ⟨rfl, hcode, hlanes, hwrite, hvalid⟩

/-- Settles O35, by the check that the write fails. -/
theorem refusedHostWritesAreRecorded : Obligations.RefusedHostWritesAreRecorded := by
  unfold Obligations.RefusedHostWritesAreRecorded
  intro s a addr data hq
  have hexec := exec_registerWrite_host (s := s) hq addr data
  refine ⟨fun hno => ?_, fun ha hp => ?_, fun ha hp hd => ?_⟩
  · rw [hexec, hostWrite_unanswered hno]
  · exact ⟨_, hexec.trans (congrArg _ (hostWrite_badAddress ha hp)), busErr_refuses s a.be (by decide) (by decide)⟩
  · exact ⟨_, hexec.trans (congrArg _ (hostWrite_badData ha hp hd)), busErr_refuses s a.be (by decide) (badLanes_lt a data)⟩

end Sys2Proof.Proofs.HostWindow
end

section
/-! SUPPORT. Words in memory, and accesses of the aperture (R55, R56, R278, R280). -/

namespace Sys2Proof.Laws

open Sys2Proof Sys2Proof.Machine

variable {s : State} {a b k f o : Nat} {d : Word32} {be : BitVec 4}

/-! ## Bytes written one after the other -/

/-- Bytes written at rising keys from `a` where `p` holds. -/
theorem smGet_foldl_range (p : Nat → Bool) (v : Nat → Byte) (m : SMap Byte) (a b n : Nat) :
    smGet ((List.range n).foldl (fun m k => if p k then smSet m 0 (a + k) (v k) else m) m) 0 b
      = if a ≤ b ∧ b < a + n ∧ p (b - a) then v (b - a) else smGet m 0 b := by
  induction n with
  | zero => rw [if_neg (by omega)]; rfl
  | succ n ih =>
    rw [List.range_succ, List.foldl_append, List.foldl_cons, List.foldl_nil]
    by_cases hb : b = a + n
    · subst hb
      rw [Nat.add_sub_cancel_left] at ih ⊢
      rw [if_neg (by omega)] at ih
      cases hp : p n with
      | true => simp
      | false => simpa using ih
    · have hlast : ∀ m : SMap Byte, smGet (if p n then smSet m 0 (a + n) (v n) else m) 0 b = smGet m 0 b := by
        intro m
        split
        · exact smGet_set_other _ _ _ _ _ _ hb
        · rfl
      have hn : (a ≤ b ∧ b < a + (n + 1) ∧ p (b - a) = true) ↔ (a ≤ b ∧ b < a + n ∧ p (b - a) = true) := by
        have hlt : b < a + (n + 1) ↔ b < a + n := by omega
        rw [hlt]
      rw [hlast, ih]
      exact if_congr hn.symm rfl rfl

/-- The lanes of a word, as they are written. -/
theorem smGet_memSetLanes (m : List Host.Cell) (a b : Nat) (be : BitVec 4) (d : Word32) :
    smGet (memSetLanes m a be d) 0 b
      = if a ≤ b ∧ b < a + 4 ∧ be.getLsbD (b - a) then byteOf d.toNat (b - a) else smGet m 0 b :=
  smGet_foldl_range (fun k => be.getLsbD k) (fun k => byteOf d.toNat k) m a b 4

/-! ## Places in memory -/

theorem pairBase_dvd (lo hi : Reg) {n : Nat} (h : n ≤ 32) : 2 ^ n ∣ s.pairBase lo hi n := by
  rw [State.pairBase, Nat.shiftLeft_eq]
  exact Nat.dvd_add ((Nat.pow_dvd_pow 2 h).mul_left _) (Nat.dvd_mul_left _ _)

theorem keyBase_dvd : 4096 ∣ s.keyBase := pairBase_dvd _ _ (by decide)

theorem aperBase_dvd : 4 ∣ s.aperBase := Nat.dvd_trans (by decide : 4 ∣ 2 ^ 23) (pairBase_dvd _ _ (by decide))

theorem dramSize_dvd : 4096 ∣ s.dramSize := Nat.dvd_trans (by decide : 4096 ∣ 2 ^ 30) (Nat.dvd_mul_left _ _)

/-- An aperture offset that a word of the window names is itself the offset of a word. -/
theorem aperAddr_dvd {x : Nat} (h : hostPlace (x / 4 * 4) = .aperture o) : 4 ∣ s.aperAddr o := by
  have hx := hostPlace_aperture h
  exact Nat.dvd_add aperBase_dvd (by omega)

/-- The key byte of a frame of DRAM lies in the key array (R278). -/
theorem inKeyArray_keyByte (hv : s.keyV = true) (hf : f * 4096 < s.dramSize) : s.inKeyArray (s.keyBase + f) = true := by
  obtain ⟨n, hn⟩ := dramSize_dvd (s := s)
  have : f < s.dramSize / 4096 := by omega
  simp [State.inKeyArray, hv, this]

/-- The key array begins at a word, so no word lies in it in part from below. -/
theorem inKeyArray_word (ha : 4 ∣ a) (hk : k < 4) (h : s.inKeyArray a = false) : s.inKeyArray (a + k) = false := by
  obtain ⟨n, hn⟩ := keyBase_dvd (s := s)
  simp only [State.inKeyArray, Bool.and_eq_false_iff, decide_eq_false_iff_not] at h ⊢
  rcases h with (hv | hlo) | hhi
  · exact .inl (.inl hv)
  · exact .inl (.inr (by omega))
  · exact .inr (by omega)

theorem poisoned_word (ha : 4 ∣ a) (hk : k < 4) : s.poisoned (a + k) = s.poisoned a := by
  have : (a + k) / 8 = a / 8 := by omega
  rw [State.poisoned, State.poisoned, wordOf, wordOf, this]

/-- A sound word reads as the bytes it holds. -/
theorem memRead_word (ha : 4 ∣ a) (h : s.poisoned a = false) :
    s.memRead a 4 = (List.range 4).map (fun k => s.memByte (a + k)) := by
  refine List.map_congr_left fun k hk => ?_
  rw [poisoned_word ha (List.mem_range.mp hk), h]
  rfl

/-! ## REF and CHG (R280) -/

theorem markFrame_memByte (m : Byte) (h : s.inKeyArray b = false) : (s.markFrame f m).memByte b = s.memByte b := by
  unfold State.markFrame
  split
  · next hf =>
    simp only [Bool.and_eq_true, decide_eq_true_eq] at hf
    split
    · rfl
    · refine smGet_set_other _ _ _ _ _ _ ?_
      rintro rfl
      rw [inKeyArray_keyByte hf.1 hf.2] at h
      cases h
  · rfl

/-- A key byte that is not poisoned is marked without a record (R337). -/
theorem markFrame_regs (m : Byte) (h : s.keyV = true → s.poisoned (s.keyBase + f) = false) :
    (s.markFrame f m).regs = s.regs := by
  unfold State.markFrame
  split
  · next hf =>
    rw [h (Bool.and_eq_true_iff.mp hf).1]
    rfl
  · rfl

theorem touch_word (ha : 4 ∣ a) (write : Bool) :
    s.touch a 4 write = s.markFrame (a / 4096) (if write then 0xC0 else 0x40) := by
  have : (a + 4 - 1) / 4096 + 1 - a / 4096 = 1 := by omega
  rw [State.touch, framesOf, if_neg (by decide : ¬ 4 = 0), this]
  rfl

/-! ## Completions (R42) -/

@[simp] theorem done_resp_code (v : Word32) : (s.done v).resp.code = 0 := rfl
@[simp] theorem done_resp_data (v : Word32) : (s.done v).resp.data = v := rfl
@[simp] theorem done_regs (v : Word32) : (s.done v).regs = s.regs := rfl
@[simp] theorem done_memByte (v : Word32) (b : Nat) : (s.done v).memByte b = s.memByte b := rfl

/-! ## Accesses of the aperture -/

theorem aperRefusal_none {write : Bool} (h : s.aperRefusal o write = none) :
    s.inKeyArray (s.aperAddr o) = false ∧ (write = false → s.poisoned (s.aperAddr o) = false) := by
  unfold State.aperRefusal at h
  dsimp only at h
  split_ifs at h with h6 h5 h7 h8
  simp only [Bool.or_eq_true, not_or, Bool.not_eq_true] at h6
  refine ⟨h6.2, ?_⟩
  rintro rfl
  simpa using h8

section

variable (ha : 4 ∣ s.aperAddr o) (hp : s.poisoned (s.aperAddr o) = false)

include ha hp

theorem aperRead_sound : s.aperRead o = (s.markFrame (s.aperAddr o / 4096) 0x40).done
    (BitVec.ofNat 32 (leNat ((List.range 4).map (fun k => s.memByte (s.aperAddr o + k))))) := by
  rw [State.aperRead, memRead_word ha hp, touch_word ha]
  rfl

theorem aperStore_sound (hbe : be ≠ 0) : s.aperStore o be d
    = ({ s with mem := memSetLanes s.mem (s.aperAddr o) be d } : State).markFrame (s.aperAddr o / 4096) 0xC0 := by
  rw [State.aperStore, if_neg hbe, hp, if_neg Bool.false_ne_true, touch_word ha]
  rfl

theorem memByte_aperStore (hb : s.inKeyArray b = false) :
    (s.aperStore o be d).memByte b = smGet (memSetLanes s.mem (s.aperAddr o) be d) 0 b := by
  by_cases hbe : be = 0
  · subst hbe
    rw [State.aperStore, if_pos rfl, smGet_memSetLanes, if_neg (by simp)]
    rfl
  · rw [aperStore_sound ha hp hbe]
    exact markFrame_memByte _ hb

theorem regs_aperStore (hkey : s.keyV = true → s.poisoned (s.keyBase + s.aperAddr o / 4096) = false) :
    (s.aperStore o be d).regs = s.regs := by
  by_cases hbe : be = 0
  · rw [State.aperStore, if_pos hbe]
  · rw [aperStore_sound ha hp hbe]
    exact markFrame_regs _ hkey

/-- A write of the aperture puts the enabled lanes where the word lies. -/
theorem memByte_aperStore_lane (hk : k < 4) (hb : s.inKeyArray (s.aperAddr o) = false) :
    (s.aperStore o be d).memByte (s.aperAddr o + k)
      = if be.getLsbD k then byteOf d.toNat k else s.memByte (s.aperAddr o + k) := by
  rw [memByte_aperStore ha hp (inKeyArray_word ha hk hb), smGet_memSetLanes, Nat.add_sub_cancel_left]
  exact if_congr ⟨fun h => h.2.2, fun h => ⟨by omega, by omega, h⟩⟩ rfl rfl

theorem memByte_aperStore_apart (hout : b < s.aperAddr o ∨ s.aperAddr o + 4 ≤ b) (hb : s.inKeyArray b = false) :
    (s.aperStore o be d).memByte b = s.memByte b := by
  rw [memByte_aperStore ha hp hb, smGet_memSetLanes, if_neg (by omega)]
  rfl

end

section

variable {write issued : Bool} (ha : 4 ∣ s.aperAddr o) (hp : write = true → s.poisoned (s.aperAddr o) = false)

include ha hp

theorem regs_aperIssued (hkey : s.keyV = true → s.poisoned (s.keyBase + s.aperAddr o / 4096) = false) :
    (aperIssued s o be d write issued).regs = s.regs := by
  unfold aperIssued
  split
  · next h => exact regs_aperStore ha (hp (Bool.and_eq_true_iff.mp h).1) hkey
  · split
    · rw [touch_word ha]
      exact markFrame_regs _ hkey
    · rfl

theorem memByte_aperIssued (hk : k < 4) (hb : s.inKeyArray (s.aperAddr o) = false) :
    (aperIssued s o be d write issued).memByte (s.aperAddr o + k)
      = if write ∧ issued ∧ be.getLsbD k then byteOf d.toNat k else s.memByte (s.aperAddr o + k) := by
  unfold aperIssued
  split
  · next h =>
    obtain ⟨hw, hi⟩ := Bool.and_eq_true_iff.mp h
    rw [memByte_aperStore_lane ha (hp hw) hk hb]
    exact if_congr ⟨fun h => ⟨hw, hi, h⟩, fun h => h.2.2⟩ rfl rfl
  · next h =>
    have hno : ¬ (write = true ∧ issued = true ∧ be.getLsbD k = true) := fun h' =>
      h (Bool.and_eq_true_iff.mpr ⟨h'.1, h'.2.1⟩)
    rw [if_neg hno]
    split
    · rw [touch_word ha]
      exact markFrame_memByte _ (inKeyArray_word ha hk hb)
    · rfl

end

end Sys2Proof.Laws
end

section
/-! PROOFS. Cycles of the aperture (spec/02, R44, R49, R55, R56, R590). -/

namespace Sys2Proof.Proofs.HostWindow

open Sys2Proof Sys2Proof.Machine Sys2Proof.Laws

section

variable {s : State} {a : Access} {addr : PhysAddr} {o : Nat} (hq : a.req = .host)
  (hx : hostPlace (addr.toNat % 2 ^ 24 / 4 * 4) = .aperture o)

include hq hx

theorem inAperture_host : inAperture a addr = true := by
  rw [inAperture, hq, hx]
  rfl

theorem exec_apertureRead_host : exec (.apertureRead a addr) s = .next (s.hostRead a (addr.toNat % 2 ^ 24)) := by
  rw [exec, execApertureRead, if_pos (inAperture_host hq hx), withUpset_none, State.accessRead, hq]

theorem exec_apertureWrite_host (data : Word32) :
    exec (.apertureWrite a addr data) s = .next (s.hostWrite a (addr.toNat % 2 ^ 24) data) := by
  rw [exec, execApertureWrite, if_pos (inAperture_host hq hx), State.accessWrite, hq]

theorem exec_timeout_host (write issued : Bool) (data : Word32) :
    exec (.timeout a addr write issued data) s = .next (s.hostTimeout a (addr.toNat % 2 ^ 24) write issued data) := by
  rw [exec, execTimeout, if_pos (inAperture_host hq hx)]

end

/-- Settles O38, by the read, the write, the timeouts with and without lanes, and the strobe. -/
theorem apertureCyclesReachMemory : Obligations.ApertureCyclesReachMemory := by
  unfold Obligations.ApertureCyclesReachMemory
  intro s a addr data o hq hans hx pa hkey
  have ha : 4 ∣ s.aperAddr o := aperAddr_dvd hx
  refine ⟨fun hp hr => ?_, fun hp hd hr hpo => ?_, fun write issued hp hd hr hw hfree => ?_, fun issued hp hbe hr => ?_, ?_⟩
  · obtain ⟨-, hpo⟩ := aperRefusal_none hr
    have hread := (hostRead_aperture hans hp hx hr).trans (aperRead_sound ha (hpo rfl))
    refine ⟨_, (exec_apertureRead_host hq hx).trans (congrArg _ hread), done_resp_code _, done_resp_data _,
      fun b hb => ?_, ?_⟩
    · rw [done_memByte, markFrame_memByte _ hb]
    · rw [done_regs]
      exact markFrame_regs _ hkey
  · obtain ⟨hk, -⟩ := aperRefusal_none hr
    refine ⟨_, (exec_apertureWrite_host hq hx data).trans (congrArg _ (hostWrite_aperture hans hp hd hx hr)),
      done_resp_code _, ?_, fun k h => ?_, fun b hout hb => ?_⟩
    · rw [done_regs, regs_aperStore ha hpo hkey]
    · rw [done_memByte]
      exact memByte_aperStore_lane ha hpo h hk
    · rw [done_memByte, memByte_aperStore_apart ha hpo hout hb]
  · obtain ⟨hk, -⟩ := aperRefusal_none hr
    have hpo := fun h => (hw h).1
    have hregs := regs_aperIssued (be := a.be) (d := data) (issued := issued) ha hpo hkey
    have hfree' : bitAt ((aperIssued s o a.be data write issued).reg (.g .busErrInfo)) 0 = false := by
      rw [State.reg, hregs]
      exact hfree
    obtain ⟨-, hinfo⟩ := busErr_recorded (addr := addr.toNat % 2 ^ 24 / 4 * 4) (code := 3) (write := write) (be := a.be)
      (lanes := 0) (performed := write && issued) hfree'
    obtain ⟨hcode, -, -, hperf, -⟩ := errInfo_fields write a.be (write && issued) (by decide : 3 < 16) (by decide : 0 < 16)
    refine ⟨_, (exec_timeout_host hq hx write issued data).trans
      (congrArg _ (hostTimeout_aperture hans hp hd hx hr fun h => (hw h).2)), congrArg Resp.code busErr_resp, ?_, ?_,
      fun k h => ?_⟩
    · exact (congrArg (bitsOf · 7 4) hinfo).trans hcode
    · exact (congrArg (bitAt · 20) hinfo).trans hperf
    · exact (busErr_keeps (State.memByte · (pa + k)) fun _ _ _ => rfl).trans (memByte_aperIssued ha hpo h hk)
  · rw [exec_timeout_host hq hx, hostTimeout_no_lane issued hx hbe, hostWrite_aperture hans hp (badLanes_no_lane hbe) hx hr,
      State.aperStore, if_pos hbe]
  · simp only [exec, execStrobeDuringCycle, hans, if_true]
    rfl

end Sys2Proof.Proofs.HostWindow
end

section
/-! SUPPORT. The mailbox (R54, R335 to R339): its buffers, its poison, and writes of MBX_CTRL. -/

namespace Sys2Proof.Laws

open Sys2Proof Sys2Proof.Machine

variable {s t : State} {a : Access} {addr : PhysAddr} {d : Word32} {q : Requester} {w : World} {be : BitVec 4} {x o : Nat}

/-! ## Reads and writes of a buffer -/

/-- An access names the word that its offset in the buffers lies in. -/
theorem mbxOffset_h2d (h : hostPlace (addr.toNat % 2 ^ 24 / 4 * 4) = .h2d o) :
    mbxOffset addr / 4 * 4 = o ∧ mbxOffset addr < 0x8000 := by
  obtain ⟨hx, ho⟩ := hostPlace_h2d h
  unfold mbxOffset
  omega

theorem mbxOffset_d2h (h : hostPlace (addr.toNat % 2 ^ 24 / 4 * 4) = .d2h o) : mbxOffset addr / 4 * 4 = 0x8000 + o := by
  obtain ⟨hx, ho⟩ := hostPlace_d2h h
  unfold mbxOffset
  omega

/-- Poison is kept by words of eight bytes. -/
theorem mbxBad_congr {o' : Nat} (h : o' / 8 = o / 8) : s.mbxBad o' = s.mbxBad o := by rw [State.mbxBad, State.mbxBad, h]

theorem mbxStore_sound (h : s.mbxBad o = false) : s.mbxStore o be d = (s.h2dStore o be d).done 0 := by
  simp [State.mbxStore, h]

theorem mbxRead_sound (v : Word32) (h : s.mbxBad o = false) : s.mbxRead x o be v = s.done v := by
  simp [State.mbxRead, h]

theorem h2d_h2dStore (k : Nat) : smGet (s.h2dStore o be d).h2d 0 k
    = if o ≤ k ∧ k < o + 4 ∧ be.getLsbD (k - o) then byteOf d.toNat (k - o) else smGet s.h2d 0 k :=
  smGet_memSetLanes s.h2d o k be d

/-- A read of a poisoned word is counted and recorded, and refused with MBX (R339). -/
theorem mbxRead_bad (v : Word32) (h : s.mbxBad o = true) : s.mbxRead x o be v
    = ((s.fresh.2.bumpSat (.d .integPoisonUse) 1).integRec 2 5 0 6 (s.fresh.1.toNat % 2 ^ 40)).busErr x 9 false be 0 false := by
  simp [State.mbxRead, h]

/-- Whatever depends neither on the registers nor on the completion nor on the free values stays when a poisoned word is
read. -/
theorem mbxRead_bad_keeps {β : Type} (f : State → β) (hf : ∀ v m p n, f { v with regs := m, resp := p, free := n } = f v)
    (v : Word32) (h : s.mbxBad o = true) : f (s.mbxRead x o be v) = f s := by
  rw [mbxRead_bad v h, busErr_keeps f fun v m p => hf v m p v.free,
    (integRec_regsOnly 2 5 0 6 _).keeps f fun v m => hf v m v.resp v.free]
  exact hf s _ s.resp _

/-! ## A word found uncorrectable (R336) -/

/-- A word of the host's buffer is poisoned and reads as zeros; its record's address is a free value. -/
def h2dLost (s : State) (o : Nat) : State :=
  { s with
    free := s.free + 1
    mbxPoison := smSet s.mbxPoison false (o / 8) true
    h2d := (List.range 8).foldl (fun m k => smSet m 0 (o / 8 * 8 + k) 0) s.h2d }

theorem mbxFound_h2d (path agent : Nat) (h : o < 0x8000) : s.mbxFound path agent o
    = ((h2dLost s o).mchk 8 0 (decide (agent = 1))).integRec path 4 0 agent (s.fresh.1.toNat % 2 ^ 40) := by
  simp only [State.mbxFound, h, if_true]
  rfl

theorem mbxFound_regsOnly (path agent : Nat) (h : o < 0x8000) : RegsOnly (h2dLost s o) (s.mbxFound path agent o) := by
  rw [mbxFound_h2d path agent h]
  exact (mchk_regsOnly _ _ _).trans (integRec_regsOnly _ _ _ _ _)

theorem h2d_h2dLost (k : Nat) : smGet (h2dLost s o).h2d 0 k = if k / 8 = o / 8 then 0 else smGet s.h2d 0 k := by
  refine (smGet_foldl_range (fun _ => true) (fun _ => 0) s.h2d (o / 8 * 8) k 8).trans (if_congr ?_ rfl rfl)
  constructor
  · rintro ⟨h1, h2, -⟩
    omega
  · intro h
    exact ⟨by omega, by omega, rfl⟩

theorem mbxBad_h2dLost : (h2dLost s o).mbxBad o = true := smGet_set_same s.mbxPoison false (o / 8) true

/-! ## Writes of MBX_CTRL -/

theorem regWrite_mbxCtrl : s.regWrite q w (.g .mbxCtrl) be d = (true, s.mbxWrite be d) := regWrite_live rfl rfl rfl

/-- H2D_LEN as a write leaves it holds the written bits in the enabled lanes. -/
theorem mbxAfter_len : bitsOf (s.mbxAfter be d) 15 0 = bitsOf (mergeBits (s.reg (.g .mbxCtrl)) (laneMask be) d) 15 0 := by
  refine Nat.eq_of_testBit_eq fun i => ?_
  rw [State.mbxAfter, regSpec_apply_rw rfl rfl, testBit_bitsOf, testBit_bitsOf, bitAt_mergeBits, bitAt_mergeBits, Nat.zero_add]
  by_cases hi : i < 16
  · have hrw : ∀ i, i < 16 → bitAt (GReg.spec .mbxCtrl).rw i = true := by decide
    rw [show bitAt (laneMask be &&& (GReg.spec .mbxCtrl).rw) i = bitAt (laneMask be) i by
      rw [bitAt, BitVec.getLsbD_and]
      exact (congrArg _ (hrw i hi)).trans (Bool.and_true _)]
  · rw [decide_eq_false (by omega), Bool.false_and, Bool.false_and]

theorem postRefused_fits (ho : s.mbxOpen = true) (hf : s.h2dFull = false)
    (hlen : let len := bitsOf (mergeBits (s.reg (.g .mbxCtrl)) (laneMask be) d) 15 0
      1 ≤ len ∧ len ≤ 32768) : s.postRefused be d = false := by
  obtain ⟨h1, h2⟩ := hlen
  rw [← mbxAfter_len] at h1 h2
  rw [State.postRefused, ho, hf, decide_eq_false (by omega), decide_eq_false (by omega)]
  rfl

theorem mbxWrite_post (hp : bitAt (seen be d) 16 = true) (ha : bitAt (seen be d) 17 = false) (hr : s.postRefused be d = false) :
    s.mbxWrite be d = ({ s.plainWrite (.g .mbxCtrl) be d with h2dFull := true } : State).setLine 0 := by
  simp [State.mbxWrite, hp, ha, hr]

theorem mbxWrite_ack (hp : bitAt (seen be d) 16 = false) (ha : bitAt (seen be d) 17 = true) (hf : s.d2hFull = true)
    (hd : s.boot.replyDue = []) : s.mbxWrite be d = { s.plainWrite (.g .mbxCtrl) be d with d2hFull := false } := by
  have hfull : (s.plainWrite (.g .mbxCtrl) be d).d2hFull = true := hf
  have hdue : (s.plainWrite (.g .mbxCtrl) be d).boot.replyDue = [] := hd
  simp [State.mbxWrite, hp, ha, hfull, State.replyNow, hdue]

/-- A write by name depends on the lanes that it enables alone. -/
theorem writeReg_lanes (r : Reg) : s.writeReg a r d = s.writeReg { a with be := lanesOf a } r d := by
  obtain ⟨q, be, hap, hdp⟩ := a
  cases q <;> rfl

theorem reaches_lanes (r : Reg) : s.reaches { a with be := lanesOf a } r d = s.reaches a r d := by
  obtain ⟨q, be, hap, hdp⟩ := a
  cases q <;> rfl

theorem lanesOf_lanes : lanesOf { a with be := lanesOf a } = lanesOf a := by
  obtain ⟨q, be, hap, hdp⟩ := a
  cases q <;> rfl

theorem complete_lanes : t.complete { a with be := lanesOf a } = t.complete a := by
  obtain ⟨q, be, hap, hdp⟩ := a
  cases q <;> rfl

/-- A write of MBX_CTRL that reaches it, and that is no refused post, leaves what the write leaves. -/
theorem writeReg_mbxCtrl (hr : s.reaches a (.g .mbxCtrl) d = true)
    (hp : writes1 a d 16 = true → s.postRefused (lanesOf a) d = false) :
    s.writeReg a (.g .mbxCtrl) d = (s.mbxWrite (lanesOf a) d).complete a := by
  rw [writeReg_lanes, ← complete_lanes]
  refine writeReg_reg s _ _ _ d ((reaches_lanes _).trans hr) ?_ fun _ => hp
  rw [lanesOf_lanes]
  exact regWrite_mbxCtrl

/-! ## Completions leave what the host does not see -/

/-- Whatever does not depend on the completion is as the write leaves it. -/
theorem complete_keeps {β : Type} (f : State → β) (hf : ∀ v p, f { v with resp := p } = f v) : f (t.complete a) = f t := by
  unfold State.complete
  split
  · exact hf t _
  · rfl
  · rfl

theorem complete_reg (r : Reg) : (t.complete a).reg r = t.reg r := complete_keeps (State.reg · r) fun _ _ => rfl

/-! ## Replies -/

theorem foldl_zipIdx_eq_memSetAll (bs : List Byte) (m : SMap Byte) (n : Nat) :
    (bs.zipIdx n).foldl (fun m p => smSet m 0 p.2 p.1) m = memSetAll m n bs := by
  induction bs generalizing m n with
  | nil => rfl
  | cons b bs ih => exact ih _ _

/-- A reply stands in the device's buffer from its first byte. -/
theorem d2h_postReply (code : Nat) (bs : List Byte) {k : Nat} (hk : k < bs.length) :
    smGet (s.postReply code bs).d2h 0 k = bs.getD k 0 := by
  refine (congrArg (smGet · 0 k) (foldl_zipIdx_eq_memSetAll bs s.d2h 0)).trans ((smGet_memSetAll bs s.d2h 0 k).trans ?_)
  rw [if_pos (by omega), Nat.sub_zero]

theorem mbxStatus_postReply (code : Nat) (bs : List Byte) : (s.postReply code bs).reg (.g .mbxStatus)
    = setBits (setBits (s.reg (.g .mbxStatus)) 15 8 code) 31 16 bs.length := reg_setReg_same s _ _

theorem reg_postReply_other (code : Nat) (bs : List Byte) {r : Reg} (h : r ≠ .g .mbxStatus) :
    (s.postReply code bs).reg r = s.reg r := reg_setReg_other s _ _ _ h

/-- A reply shows its CODE and its length. -/
theorem mbxStatus_postReply_fields {code : Nat} {bs : List Byte} (hc : code < 256) (hl : bs.length < 65536) :
    bitsOf ((s.postReply code bs).reg (.g .mbxStatus)) 15 8 = code
    ∧ bitsOf ((s.postReply code bs).reg (.g .mbxStatus)) 31 16 = bs.length := by
  rw [mbxStatus_postReply]
  constructor
  · rw [bitsOf_setBits_apart _ _ _ _ _ _ (by decide), bitsOf_setBits_same _ _ _ _ (by decide)]
    exact Nat.mod_eq_of_lt hc
  · rw [bitsOf_setBits_same _ _ _ _ (by decide)]
    exact Nat.mod_eq_of_lt hl

theorem monOpen_open (h : s.mbxOpen = true) : s.monOpen = s := by
  unfold State.monOpen
  split
  · rw [← h]
  · rfl

end Sys2Proof.Laws
end

section
/-! PROOFS. The mailbox (spec/02, R54; spec/14, R335 to R339). -/

namespace Sys2Proof.Proofs.HostWindow

open Sys2Proof Sys2Proof.Machine Sys2Proof.Laws

variable {s : State} {a : Access} {addr : PhysAddr} {o : Nat}

/-! ## The host's buffer accesses -/

theorem inMailbox_h2d (hq : a.req = .host) (hx : hostPlace (addr.toNat % 2 ^ 24 / 4 * 4) = .h2d o) : inMailbox a addr = true := by
  rw [inMailbox, hq, hx]
  rfl

theorem inMailbox_d2h (hq : a.req = .host) (hx : hostPlace (addr.toNat % 2 ^ 24 / 4 * 4) = .d2h o) : inMailbox a addr = true := by
  rw [inMailbox, hq, hx]
  rfl

theorem exec_mailboxWrite_host (hq : a.req = .host) (hm : inMailbox a addr = true) (data : Word32) :
    exec (.mailboxWrite a addr data) s = .next (s.hostWrite a (addr.toNat % 2 ^ 24) data) := by
  rw [exec, execMailboxWrite, if_pos hm, State.accessWrite, hq]

/-- A read that finds its word sound is the host's read. -/
theorem exec_mailboxRead_good (hq : a.req = .host) (hm : inMailbox a addr = true) :
    exec (.mailboxRead a addr) s = .next (s.hostRead a (addr.toNat % 2 ^ 24)) := by
  rw [exec, execMailboxRead, if_pos hm, State.accessRead, hq]
  dsimp only
  rw [ite_self]

/-- A read of a word that is poisoned already finds nothing in the array. -/
theorem exec_mailboxRead_bad (hq : a.req = .host) (hm : inMailbox a addr = true) (hb : s.mbxBad (mbxOffset addr) = true)
    (found : WordFound) : exec (.mailboxRead a addr found) s = .next (s.hostRead a (addr.toNat % 2 ^ 24)) := by
  rw [exec, execMailboxRead.eq_def, if_pos hm, hb, Bool.not_true, Bool.and_false, if_neg Bool.false_ne_true, State.accessRead, hq]

section

variable (hq : a.req = .host) (hm : inMailbox a addr = true) (hs : s.mbxServed a addr = true)
  (hb : s.mbxBad (mbxOffset addr) = false)

include hq hm hs hb

theorem exec_mailboxRead_corrected : exec (.mailboxRead a addr .corrected) s
    = .next ((s.bumpSat (.d .integCeSram) 1).hostRead a (addr.toNat % 2 ^ 24)) := by
  rw [exec, execMailboxRead, if_pos hm, hs, hb, Bool.not_false, Bool.and_true, if_pos rfl, State.accessRead, hq]

omit hq in
theorem exec_mailboxRead_uncorrectable : exec (.mailboxRead a addr .uncorrectable) s
    = .next ((s.mbxFound 2 6 (mbxOffset addr)).busErr (mbxOffset addr / 4 * 4 + 0x10000) 9 false a.be 0 false) := by
  rw [exec, execMailboxRead, if_pos hm, hs, hb, Bool.not_false, Bool.and_true, if_pos rfl]

end

/-- What a host access of the mailbox needs beside its place: an answer and good address parity, the mailbox being open. -/
theorem mbxServed_h2d (hx : hostPlace (addr.toNat % 2 ^ 24 / 4 * 4) = .h2d o) (ha : s.answers = true)
    (hp : hapGood a (addr.toNat % 2 ^ 24) false = true) (ho : s.mbxOpen = true) : s.mbxServed a addr = true := by
  rw [State.mbxServed, ha, hp, ho, decide_eq_true (mbxOffset_h2d hx).2]
  rfl

theorem mbxServed_full (ha : s.answers = true) (hp : hapGood a (addr.toNat % 2 ^ 24) false = true) (ho : s.mbxOpen = true)
    (hf : s.d2hFull = true) : s.mbxServed a addr = true := by
  rw [State.mbxServed, ha, hp, ho, hf, Bool.or_true]
  rfl

/-- Counting a corrected word changes none of the interface's checks (R335). -/
theorem answers_bumpSat (r : Reg) (k : Nat) (h : .g .bootStatus ≠ r) : (s.bumpSat r k).answers = s.answers :=
  answers_congr rfl rfl (reg_bumpSat_other r k h)

/-! ## A word found uncorrectable -/

/-- The state after a read of the host's buffer that finds its word uncorrectable (R336, R339). -/
def lostRead (s : State) (a : Access) (n : Nat) : State :=
  (s.mbxFound 2 6 n).busErr (n / 4 * 4 + 0x10000) 9 false a.be 0 false

section

variable {n : Nat} (hn : n < 0x8000)

include hn

/-- Whatever depends neither on the registers nor on the completion is as the lost word leaves it. -/
theorem lostRead_keeps {β : Type} (f : State → β) (hf : ∀ v m p, f { v with regs := m, resp := p } = f v) :
    f (lostRead s a n) = f (h2dLost s n) :=
  (busErr_keeps f hf).trans ((mbxFound_regsOnly 2 6 hn).keeps f fun v m => hf v m v.resp)

theorem bootStatus_lostRead : (lostRead s a n).reg (.g .bootStatus) = s.reg (.g .bootStatus) := by
  rw [lostRead, reg_busErr_other (by simp) (by simp) (by simp) (by simp), mbxFound_h2d 2 6 hn,
    reg_integRec_other _ _ _ _ _ (by simp) (by simp) (by simp) (by simp), reg_mchk_other _ _ _ (by simp) (by simp) (by simp)]
  rfl

theorem answers_lostRead : (lostRead s a n).answers = s.answers :=
  answers_congr (lostRead_keeps hn State.accepting fun _ _ _ => rfl) (lostRead_keeps hn State.inReset fun _ _ _ => rfl)
    (bootStatus_lostRead hn)

/-- Its machine check names the source of the mailbox (Table 2.23). -/
theorem mchk_lostRead (h : bitAt (s.reg (.g .mchkStatus)) 0 = false) :
    bitsOf ((lostRead s a n).reg (.g .mchkStatus)) 7 4 = 8 := by
  have hfree : bitAt ((h2dLost s n).reg (.g .mchkStatus)) 0 = false := h
  rw [lostRead, reg_busErr_other (by simp) (by simp) (by simp) (by simp), mbxFound_h2d 2 6 hn,
    reg_integRec_other _ _ _ _ _ (by simp) (by simp) (by simp) (by simp), mchk_recorded _ _ _ hfree]
  rfl

/-- Its integrity record names path P2 and the host (Tables 14.1, 14.4). -/
theorem integRec_lostRead (h : bitAt (s.reg (.d .integRecInfo)) 0 = false) :
    bitsOf ((lostRead s a n).reg (.d .integRecInfo)) 7 4 = 2 ∧ bitsOf ((lostRead s a n).reg (.d .integRecInfo)) 23 20 = 6 := by
  have hmchk : ((h2dLost s n).mchk 8 0 false).reg (.d .integRecInfo) = s.reg (.d .integRecInfo) :=
    reg_mchk_other _ _ _ (by simp) (by simp) (by simp)
  rw [← hmchk] at h
  rw [lostRead, reg_busErr_other (by simp) (by simp) (by simp) (by simp), mbxFound_h2d 2 6 hn,
    show decide (6 = 1) = false from rfl, integRec_recorded _ _ _ _ _ h]
  exact ⟨rfl, rfl⟩

end

/-- Once the word is poisoned, every read of it is refused with MBX and changes neither memory nor the buffer (R339). -/
theorem mailboxRead_poisoned (hq : a.req = .host) (hx : hostPlace (addr.toNat % 2 ^ 24 / 4 * 4) = .h2d o)
    (ha : s.answers = true) (hp : hapGood a (addr.toNat % 2 ^ 24) false = true) (ho : s.mbxOpen = true)
    (hb : s.mbxBad o = true) (found : WordFound) : Answers (.mailboxRead a addr found) s (fun u =>
      u.resp.code = 9 ∧ u.mem = s.mem ∧ u.h2d = s.h2d) := by
  have hb' : s.mbxBad (mbxOffset addr) = true := (mbxBad_congr (by have := mbxOffset_h2d hx; omega)).trans hb
  refine ⟨_, (exec_mailboxRead_bad hq (inMailbox_h2d hq hx) hb' found).trans (congrArg _ (hostRead_h2d ha hp hx ho)), ?_,
    mbxRead_bad_keeps State.mem (fun _ _ _ _ => rfl) _ hb, mbxRead_bad_keeps State.h2d (fun _ _ _ _ => rfl) _ hb⟩
  rw [mbxRead_bad _ hb]
  exact congrArg Resp.code busErr_resp

/-! ## The obligation, clause by clause -/

/-- The first read that finds the word uncorrectable, and every later one. -/
theorem mailboxRead_uncorrectable (hq : a.req = .host) (hx : hostPlace (addr.toNat % 2 ^ 24 / 4 * 4) = .h2d o)
    (ha : s.answers = true) (hp : hapGood a (addr.toNat % 2 ^ 24) false = true) (ho : s.mbxOpen = true)
    (hb : s.mbxBad o = false) (hm : bitAt (s.reg (.g .mchkStatus)) 0 = false)
    (hi : bitAt (s.reg (.d .integRecInfo)) 0 = false) : Answers (.mailboxRead a addr .uncorrectable) s (fun t =>
      t.resp.code = 9 ∧ t.mbxBad o = true ∧ bitsOf (t.reg (.g .mchkStatus)) 7 4 = 8
      ∧ bitsOf (t.reg (.d .integRecInfo)) 7 4 = 2 ∧ bitsOf (t.reg (.d .integRecInfo)) 23 20 = 6 ∧ t.mem = s.mem
      ∧ (∀ k, k / 8 = o / 8 → smGet t.h2d 0 k = 0) ∧ (∀ k, k / 8 ≠ o / 8 → smGet t.h2d 0 k = smGet s.h2d 0 k)
      ∧ (∀ found, Answers (.mailboxRead a addr found) t (fun u => u.resp.code = 9 ∧ u.mem = s.mem ∧ u.h2d = t.h2d))) := by
  obtain ⟨hoff, hn⟩ := mbxOffset_h2d hx
  have hword : mbxOffset addr / 8 = o / 8 := by omega
  have hb' : s.mbxBad (mbxOffset addr) = false := (mbxBad_congr hword).trans hb
  have hmem : (lostRead s a (mbxOffset addr)).mem = s.mem := lostRead_keeps hn State.mem fun _ _ _ => rfl
  have hbad : (lostRead s a (mbxOffset addr)).mbxBad o = true :=
    (lostRead_keeps hn (State.mbxBad · o) fun _ _ _ => rfl).trans ((mbxBad_congr hword.symm).trans mbxBad_h2dLost)
  have hbuf (k : Nat) : smGet (lostRead s a (mbxOffset addr)).h2d 0 k = if k / 8 = o / 8 then 0 else smGet s.h2d 0 k := by
    rw [lostRead_keeps hn State.h2d fun _ _ _ => rfl, h2d_h2dLost, hword]
  obtain ⟨hpath, hagent⟩ := integRec_lostRead (a := a) hn hi
  refine ⟨_, exec_mailboxRead_uncorrectable (inMailbox_h2d hq hx) (mbxServed_h2d hx ha hp ho) hb',
    congrArg Resp.code busErr_resp, hbad, mchk_lostRead hn hm, hpath, hagent, hmem, fun k hk => (hbuf k).trans (if_pos hk),
    fun k hk => (hbuf k).trans (if_neg hk), fun found => ?_⟩
  obtain ⟨u, hu, hcode, hmem', hbuf'⟩ := mailboxRead_poisoned hq hx ((answers_lostRead (a := a) hn).trans ha) hp
    ((lostRead_keeps hn State.mbxOpen fun _ _ _ => rfl).trans ho) hbad found
  exact ⟨u, hu, hcode, hmem'.trans hmem, hbuf'⟩

/-- A post of a message that fits (R54). -/
theorem h2dPost_posts {data : Word32} (ho : s.mbxOpen = true) (hr : s.reaches a (.g .mbxCtrl) data = true)
    (hp : writes1 a data 16 = true) (hk : writes1 a data 17 = false) (hf : s.h2dFull = false)
    (hlen : let len := bitsOf (mergeBits (s.reg (.g .mbxCtrl)) (laneMask (lanesOf a)) data) 15 0
      1 ≤ len ∧ len ≤ 32768) : Answers (.h2dPost a data) s (fun t =>
      t.h2dFull = true ∧ bitAt (t.reg (.d .irqLinePend)) 0 = true ∧ t.h2d = s.h2d ∧ t.d2hFull = s.d2hFull
      ∧ (∀ r, r ≠ .g .mbxCtrl → r ≠ .d .irqLinePend → t.reg r = s.reg r)) := by
  have href := postRefused_fits ho hf hlen
  have hexec : exec (.h2dPost a data) s = .next
      ((({ s.plainWrite (.g .mbxCtrl) (lanesOf a) data with h2dFull := true } : State).setLine 0).complete a) := by
    rw [exec, execH2dPost, if_pos hp, writeReg_mbxCtrl hr fun _ => href, mbxWrite_post hp hk href]
  refine ⟨_, hexec, complete_keeps State.h2dFull fun _ _ => rfl, ?_, complete_keeps State.h2d fun _ _ => rfl,
    complete_keeps State.d2hFull fun _ _ => rfl, fun r h1 h2 => ?_⟩
  · rw [complete_reg, State.setLine, reg_orReg_same, bitAt_or, Bool.or_eq_true]
    exact .inr rfl
  · rw [complete_reg, reg_setLine_other 0 h2]
    exact reg_setReg_other s _ _ _ h1

/-- An acknowledgement with no reply waiting (R54). -/
theorem d2hAck_frees {data : Word32} (hr : s.reaches a (.g .mbxCtrl) data = true)
    (hp : writes1 a data 16 = false) (hk : writes1 a data 17 = true) (hf : s.d2hFull = true) (hd : s.boot.replyDue = []) :
    Answers (.d2hAck a data) s (fun t =>
      t.d2hFull = false ∧ t.h2dFull = s.h2dFull ∧ (∀ r, r ≠ .g .mbxCtrl → t.reg r = s.reg r)) := by
  have hexec : exec (.d2hAck a data) s = .next
      (({ s.plainWrite (.g .mbxCtrl) (lanesOf a) data with d2hFull := false } : State).complete a) := by
    rw [exec, execD2hAck, if_pos hk, writeReg_mbxCtrl hr fun h => absurd h (by simp [hp]), mbxWrite_ack hp hk hf hd]
  refine ⟨_, hexec, complete_keeps State.d2hFull fun _ _ => rfl, complete_keeps State.h2dFull fun _ _ => rfl, fun r h => ?_⟩
  rw [complete_reg]
  exact reg_setReg_other s _ _ _ h

/-- A message consumed by the monitor, or by no one (R54). -/
theorem messageConsumed_frees (ho : s.mbxOpen = true) (hf : s.h2dFull = true) (hr : s.romServes = false) :
    exec .messageConsumed s = .next { s with h2dFull := false } := by
  rw [exec, execMessageConsumed, withUpset_none, monOpen_open ho, State.consume]
  simp only [hf, hr, Bool.not_true, Bool.not_false, Bool.false_and, Bool.or_self, Bool.false_eq_true, false_and, if_false,
    if_true]

/-- A reply of the device side (R54). -/
theorem reply_posts (code : Byte) {bytes : List Byte} (ho : s.mbxOpen = true) (hf : s.d2hFull = false) (h1 : 1 ≤ bytes.length)
    (h2 : bytes.length ≤ 32768) : Answers (.reply code bytes) s (fun t =>
      t.d2hFull = true ∧ (∀ k, k < bytes.length → smGet t.d2h 0 k = bytes.getD k 0)
      ∧ bitsOf (t.reg (.g .mbxStatus)) 15 8 = code.toNat ∧ bitsOf (t.reg (.g .mbxStatus)) 31 16 = bytes.length
      ∧ (∀ r, r ≠ .g .mbxStatus → t.reg r = s.reg r)) := by
  have hmay : s.mayReply bytes = true := by simp [State.mayReply, ho, hf, h1, h2]
  obtain ⟨hcode, hlen⟩ := mbxStatus_postReply_fields (s := s) (bs := bytes) code.isLt (by omega)
  exact ⟨s.postReply code.toNat bytes, by rw [exec, execReply, if_pos hmay, monOpen_open ho], rfl,
    fun k => d2h_postReply _ bytes, hcode, hlen, fun r => reg_postReply_other _ _⟩

/-- Settles O39, by the host's accesses of the two buffers, the writes of MBX_CTRL, and the device side. -/
theorem mailboxCarriesMessages : Obligations.MailboxCarriesMessages := by
  unfold Obligations.MailboxCarriesMessages
  intro s a addr data o wa good ho
  refine ⟨fun ⟨hq, ha, hp⟩ hd hx hf hb => ?_, fun ⟨hq, ha, hp⟩ hx hb => ?_, fun ⟨hq, ha, hp⟩ hx hb => ?_,
    fun ⟨hq, ha, hp⟩ hx hb => ?_, fun ⟨hq, ha, hp⟩ hx hb hf => ?_,
    fun ⟨hq, ha, hp⟩ hx hb => mailboxRead_uncorrectable hq hx ha hp ho hb,
    fun hr hp hk hf => h2dPost_posts ho hr hp hk hf, d2hAck_frees, messageConsumed_frees ho,
    fun code bytes => reply_posts code ho⟩
  · have hwrite := (hostWrite_h2d ha hp hd hx ho hf).trans (mbxStore_sound hb)
    exact ⟨_, (exec_mailboxWrite_host hq (inMailbox_h2d hq hx) data).trans (congrArg _ hwrite), rfl, rfl, rfl, h2d_h2dStore⟩
  · rw [exec_mailboxRead_good hq (inMailbox_h2d hq hx), hostRead_h2d ha hp hx ho, mbxRead_sound _ hb]
  · rw [exec_mailboxRead_good hq (inMailbox_d2h hq hx), hostRead_d2h ha hp hx ho, mbxRead_sound _ hb]
    split <;> rfl
  · have hb' : s.mbxBad (mbxOffset addr) = false := (mbxBad_congr (by have := mbxOffset_h2d hx; omega)).trans hb
    have hsound : (s.bumpSat (.d .integCeSram) 1).mbxBad o = false := hb
    rw [exec_mailboxRead_corrected hq (inMailbox_h2d hq hx) (mbxServed_h2d hx ha hp ho) hb',
      hostRead_h2d ((answers_bumpSat _ 1 (by simp)).trans ha) hp hx ho, mbxRead_sound _ hsound]
    rfl
  · have hb' : s.mbxBad (mbxOffset addr) = false := (mbxBad_congr (by have := mbxOffset_d2h hx; omega)).trans hb
    have hsound : (s.bumpSat (.d .integCeSram) 1).mbxBad (0x8000 + o) = false := hb
    have hfull : (s.bumpSat (.d .integCeSram) 1).d2hFull = true := hf
    rw [exec_mailboxRead_corrected hq (inMailbox_d2h hq hx) (mbxServed_full ha hp ho hf) hb',
      hostRead_d2h ((answers_bumpSat _ 1 (by simp)).trans ha) hp hx ho, if_pos hfull, mbxRead_sound _ hsound]
    rfl

end Sys2Proof.Proofs.HostWindow
end

section
/-! SUPPORT. Accesses by name to single registers, and writes of UPD_CTRL and of PHASE (R19, R450, R473). -/

namespace Sys2Proof.Laws

open Sys2Proof Sys2Proof.Machine

variable {s t : State} {a : Access} {r : Reg} {d : Word32} {q : Requester} {w : World} {be : BitVec 4}

/-- A read of a register by name that reaches it gives its value, and leaves what the read leaves. -/
theorem readReg_reg (hr : s.readsReg a r = true) :
    s.readReg a r = (s.regRead (whoOf a) (s.readWorld a r) r).2.done (s.regRead (whoOf a) (s.readWorld a r) r).1 := by
  have hx : ∃ x, regAddrFor a.req r = some x := by
    unfold State.readsReg at hr
    unfold regAddrFor
    cases hq : a.req with
    | host =>
      cases hh : r.hostAddr with
      | none => simp [hq, hh] at hr
      | some x => exact ⟨x, rfl⟩
    | ctx x => exact ⟨_, rfl⟩
    | dae w => exact ⟨_, rfl⟩
  obtain ⟨x, hx⟩ := hx
  have hread : s.readReg a r = s.accessRead a (BitVec.ofNat 40 x) := by rw [State.readReg, hx]
  rw [hread]
  exact accessRead_reg s a _ r (writeReg_eq s a r 0 x hx).2 hr

/-- A write of a register other than MBX_CTRL, that is half of no pair and holds no tide-class field, leaves what the write of
its own table leaves. -/
theorem writeReg_live (hr : s.reaches a r d = true) (hp : r.pairOf = none) (ht : r.isTide = false) (hm : r ≠ .g .mbxCtrl)
    (hw : s.liveWrite (whoOf a) (s.accWorld a r) r (lanesOf a) d = some t) : s.writeReg a r d = t.complete a :=
  writeReg_reg s t a r d hr (regWrite_live hp ht hw) fun h => absurd h hm

/-- A bit that a write sees lies in an enabled lane (R19). -/
theorem lane_of_seen {k : Nat} (h : bitAt (seen be d) k = true) : bitAt (laneMask be) k = true := by
  rw [seen, bitAt, BitVec.getLsbD_and, Bool.and_eq_true] at h
  exact h.2

/-- The lowest lane enables the low bits of a word. -/
theorem lane0_of_laneMask {k : Nat} (hk : k < 8) (h : bitAt (laneMask be) k = true) : be.getLsbD 0 = true := by
  revert be k
  decide

/-- A write of UPD_CTRL that writes START or ABORT is a request (R473). -/
theorem liveWrite_updCtrl {k : Nat} (hk : k < 8) (h : bitAt (seen be d) k = true) :
    s.liveWrite q w (.g .updCtrl) be d
      = some (s.updRequest (decide (w ≠ .secure)) (bitAt (seen be d) 0) (bitAt (seen be d) 1)) := by
  have hbe := lane0_of_laneMask hk (lane_of_seen h)
  simp only [State.liveWrite, State.gWrite, hbe, if_true]

/-- The monitor may move PHASE from MONITOR to EXEC_RUN or to RECOVERY (R450). -/
theorem phaseWrite_monitor (hs : s.reg (.g .bootStatus) = 3) (hd : d = 4 ∨ d = 0xE) : s.phaseWrite 0xF d
    = (s.setReg (.g .bootStatus) d).setReg (.g .hintStatus) (s.reg (.g .hintStatus) ||| 4) := by
  have hph : s.bootPhase = 3 := by rw [State.bootPhase, hs]; rfl
  have hhint (v : Word32) : (s.setReg (.g .bootStatus) v).setHint 2
      = (s.setReg (.g .bootStatus) v).setReg (.g .hintStatus) (s.reg (.g .hintStatus) ||| 4) := by
    rw [State.setHint, State.orReg, reg_setReg_other _ _ _ _ (by simp)]
    rfl
  obtain rfl | rfl := hd
  · rw [State.phaseWrite, if_pos ⟨by decide, hph, by decide⟩, State.setPhase, hph, hs]
    exact hhint 4
  · rw [State.phaseWrite, if_pos ⟨by decide, hph, by decide⟩, State.setPhase, hph, hs]
    exact hhint 0xE

end Sys2Proof.Laws
end

section
/-! PROOFS. The single registers of the host window (spec/02, R57, R59; spec/17 R417; spec/18 R450; spec/19 R473). -/

namespace Sys2Proof.Proofs.HostWindow

open Sys2Proof Sys2Proof.Machine Sys2Proof.Laws

variable {s : State} {a : Access} {data : Word32}

/-- What RNG_DATA gives while the DRBG is ready (R417). -/
theorem rngDataRead_ready (hr : s.readsReg a (.g .rngData) = true) (hrng : s.rngReady = true) :
    exec (.rngDataRead a) s = .next
      ({ s with free := s.free + 1, drbg := s.drbg.request }.done ((Config.freeWord s.free).setWidth 32)) := by
  have hread (q : Requester) (w : World) : s.regRead q w (.g .rngData)
      = ((Config.freeWord s.free).setWidth 32, { s with free := s.free + 1, drbg := s.drbg.request }) := by
    rw [State.regRead, if_pos hrng]
    rfl
  rw [exec, execRngDataRead, readReg_reg hr, hread]

theorem rngDataRead_unready (hr : s.readsReg a (.g .rngData) = true) (hrng : s.rngReady = false) :
    exec (.rngDataRead a) s = .next (s.done 0) := by
  have hread (q : Requester) (w : World) : s.regRead q w (.g .rngData) = (0, s) := by
    rw [State.regRead, if_neg (by simp [hrng])]
  rw [exec, execRngDataRead, readReg_reg hr, hread]

theorem clkCtrlWrite_idle (hr : s.reaches a (.g .clkCtrl) data = true) (hb : s.clkBusy = false) :
    exec (.clkCtrlWrite a data) s = .next ((s.plainWrite (.g .clkCtrl) (lanesOf a) data).complete a) := by
  have hw : s.liveWrite (whoOf a) (s.accWorld a (.g .clkCtrl)) (.g .clkCtrl) (lanesOf a) data
      = some (s.plainWrite (.g .clkCtrl) (lanesOf a) data) := by
    simp only [State.liveWrite, State.gWrite, State.clkWrite, hb, Bool.false_eq_true, if_false]
  rw [exec, execClkCtrlWrite, writeReg_live hr rfl rfl (by simp) hw]

theorem phaseWrite_secure {x : CtxId} (hq : a.req = .ctx x) (hw : (s.ctx x).world = .secure)
    (hr : s.reaches a (.g .bootStatus) data = true) :
    exec (.phaseWrite a data) s = .next (s.phaseWrite 0xF data) := by
  have hlive : s.liveWrite (whoOf a) (s.accWorld a (.g .bootStatus)) (.g .bootStatus) (lanesOf a) data
      = some (s.phaseWrite 0xF data) := by
    rw [whoOf, State.accWorld, lanesOf, hq]
    simp [State.liveWrite, State.gWrite, hw]
  rw [exec, execPhaseWrite, writeReg_live hr rfl rfl (by simp) hlive, State.complete, hq]

/-- A request that is no secure core's, as START and ABORT both make it (R473). -/
theorem writeReg_updCtrl (hr : s.reaches a (.g .updCtrl) data = true) (hw : s.accWorld a (.g .updCtrl) = .nonSecure) {k : Nat}
    (hk : k < 8) (h : writes1 a data k = true) : s.writeReg a (.g .updCtrl) data
      = (s.updRequest true (writes1 a data 0) (writes1 a data 1)).complete a := by
  refine writeReg_live hr rfl rfl (by simp) ?_
  rw [liveWrite_updCtrl hk h, hw]
  rfl

theorem updCtrlRead_secure {x : CtxId} (hq : a.req = .ctx x) (hw : (s.ctx x).world = .secure)
    (hr : s.readsReg a (.g .updCtrl) = true) : exec (.updCtrlSecureRead a) s = .next
      ({ s with ue := { s.ue with reqStart := false, reqAbort := false } }.done
        (BitVec.ofNat 32 (bit s.ue.reqStart + 2 * bit s.ue.reqAbort))) := by
  have hworld : s.worldOf a.req = .secure := by
    rw [hq]
    exact hw
  have hread : s.readWorld a (.g .updCtrl) = .secure := by
    rw [State.readWorld, hq]
    exact hw
  rw [exec, execUpdCtrlSecureRead, if_pos hworld, readReg_reg hr, hread]
  rfl

/-- Settles O40, register by register. -/
theorem globalRegisterCommands : Obligations.GlobalRegisterCommands := by
  unfold Obligations.GlobalRegisterCommands
  intro s a data lanes
  refine ⟨fun h => ?_, fun mhz h => ?_, fun hr hrng => ⟨_, rngDataRead_ready hr hrng, rfl, rfl, rfl, rfl, rfl⟩,
    rngDataRead_unready, clkCtrlWrite_idle, fun x p hq hw hr hs hp hd => ?_, fun hr hw => ⟨fun h => ?_, fun h => ?_⟩,
    fun x => updCtrlRead_secure⟩
  · rw [exec, execInterfaceAcceptsCycles, if_neg (by simp [h])]
  · rw [exec, execHbclkMeasure, if_neg (by simp [h])]
  · subst hp
    rw [phaseWrite_secure hq hw hr, phaseWrite_monitor hs hd]
  · rw [exec, execStart, if_pos h, writeReg_updCtrl hr hw (by decide : 0 < 8) h, h]
    rfl
  · rw [exec, execAbort, if_pos h, writeReg_updCtrl hr hw (by decide : 1 < 8) h, h]
    rfl

end Sys2Proof.Proofs.HostWindow
end

section
/-! PROOFS. Appends of the sealed journal (spec/03, R67; spec/14, R336; spec/17, R426). -/

namespace Sys2Proof.Proofs.Journal

open Sys2Proof Sys2Proof.Machine Sys2Proof.Laws

/-- A clear of tenant 0 is pending behind a settlement of it that has not begun. The first word of the tenant's vault entry, at
address 0, is poisoned while memory still holds a byte there, and the command under way finds that word uncorrectable. -/
def foundInVault : State :=
  { regs := [((Reg.curlew .vaultLo).addr, 1)]
    sites := [(0, { clearPending := true, ringSet := true, keyState := 2, appends := [{ kind := .settle }] })]
    curlew := { slots := [(0, { loaded := true })] }
    mem := [(0, 1)], poison := [(0, true)], upset := [(0, 0)] }

/-- The settlement begins once the clear stands behind it, and Curlew reads the vault entry (R425): the detection zeroes the
word (R336). -/
theorem clearSettlement_zeroes_foundInVault (t : State) (h : exec (.clearSettlement 0) foundInVault = .next t) :
    t.memByte 0 = 0 := by
  obtain ⟨⟩ := h
  decide +kernel

/-- Refutes O46: in its first clause CLEAR_SETTLEMENT is said to keep every byte outside the key array in every state, where
only the clause on APPEND_COMPLETE asks that the command under way finds no word uncorrectable (`upset = []`). Accepting the
clear begins the settlement before it, which reads the vault, and a word that this read finds uncorrectable is zeroed. -/
theorem not_journalAppends : ¬ Obligations.JournalAppends := by
  unfold Obligations.JournalAppends
  intro h
  obtain ⟨hclear, -⟩ := h foundInVault { req := .host, be := 0, hap := true, hdp := 0 } 0 0
  obtain ⟨t, hexec, -, hkept, -⟩ := hclear rfl rfl rfl
  have hkeeps : t.memByte 0 = foundInVault.memByte 0 := hkept 0 rfl
  rw [clearSettlement_zeroes_foundInVault t hexec] at hkeeps
  exact absurd hkeeps (by decide)

end Sys2Proof.Proofs.Journal
end

section
/-! SUPPORT. The pairs of the system registers: a write of the upper half, the rule of each pair, and BUSY (spec/00 R22, spec/21 R497). -/

namespace Sys2Proof.Laws

open Sys2Proof Sys2Proof.Machine

variable {s t : State} {a : Access} {addr : PhysAddr} {d : Word32} {r lo : Reg} {q : Requester} {w : World}

/-- What a write of the upper half puts to the pair's own rule (R22), once the weir may move (R497). -/
def pairApplied (s : State) (a : Access) (lo : Reg) (d : Word32) : State :=
  (s.dropLo (whoOf a) lo).applyPair (whoOf a) (s.accWorld a lo.hiOf) lo (s.newLo a lo) (s.newHi a lo d)

theorem writePair_unlocked (hbe : lanesOf a ≠ 0)
    (hw : s.weirBusy lo (s.newLo a lo) (s.newHi a lo d) (lanesOf a) = false) :
    s.writePair (whoOf a) w lo true (lanesOf a) d
      = (true, (s.dropLo (whoOf a) lo).applyPair (whoOf a) w lo (s.newLo a lo) (s.newHi a lo d)) := by
  unfold State.newLo State.newHi at hw
  simp only [State.writePair, Bool.not_true, Bool.false_eq_true, hbe, hw, if_false]
  rfl

theorem weirBusy_of_held (l h : Word32) (be : BitVec 4) (hlo : lo ≠ .d .secWeirLo ∨ s.reg (.g .coreRelease) = 0) :
    s.weirBusy lo l h be = false := by
  rcases hlo with h | h <;> simp [State.weirBusy, h]

theorem accessWrite_hi (hn : namesReg a addr lo.hiOf) (hr : s.reaches a lo.hiOf d = true)
    (hp : lo.hiOf.pairOf = some (lo, true)) (hbe : lanesOf a ≠ 0)
    (hlo : lo ≠ .d .secWeirLo ∨ s.reg (.g .coreRelease) = 0) :
    s.accessWrite a addr d = (pairApplied s a lo d).complete a :=
  accessWrite_pair hn hr hp (writePair_unlocked hbe (weirBusy_of_held _ _ _ hlo))

theorem writeReg_hi (hr : s.reaches a lo.hiOf d = true)
    (hp : lo.hiOf.pairOf = some (lo, true)) (hbe : lanesOf a ≠ 0)
    (hlo : lo ≠ .d .secWeirLo ∨ s.reg (.g .coreRelease) = 0) :
    s.writeReg a lo.hiOf d = (pairApplied s a lo d).complete a := by
  refine writeReg_reg s _ a _ d hr ((regWrite_pair hp).trans (writePair_unlocked hbe (weirBusy_of_held _ _ _ hlo))) ?_
  intro h
  rw [h] at hp
  cases hp

/-- The two outcomes of a write of the upper half whose rule takes the pair where a condition holds. -/
theorem pair_outcome {ok : Prop} [Decidable ok] {e : State → State} {u : State} (hu : u = (pairApplied s a lo d).complete a)
    (hp : pairApplied s a lo d = if ok then e ((s.dropLo (whoOf a) lo).setPair lo (s.newLo a lo) (s.newHi a lo d))
      else s.dropLo (whoOf a) lo) :
    (ok → (.next u : Out) = .next (s.pairTaken a lo d e)) ∧ (¬ ok → (.next u : Out) = .next (s.pairIgnored a lo)) :=
  ⟨fun h => by rw [hu, hp, if_pos h]; rfl, fun h => by rw [hu, hp, if_neg h]; rfl⟩

variable {l h : Word32}

theorem applyPair_ctxBase : s.applyPair q w (.d .ctxBaseLo) l h
    = if s.anyTenant = false ∧ s.secWeir ≤ baseOf l h 20 ∧ baseOf l h 20 + 0x100000 ≤ s.dramSize
      then { s.setPair (.d .ctxBaseLo) l h with ctxBaseSet := true } else s := by
  simp only [State.applyPair, State.aboveWeir, Bool.and_eq_true, Bool.not_eq_true', decide_eq_true_eq]

theorem applyPair_siteBufBase : s.applyPair q w (.d .siteBufBaseLo) l h
    = if s.anyTenant = false ∧ s.secWeir ≤ baseOf l h 19 ∧ baseOf l h 19 + 0x20000000 ≤ s.dramSize
      then { s.setPair (.d .siteBufBaseLo) l h with siteBufSet := true } else s := by
  simp only [State.applyPair, State.aboveWeir, Bool.and_eq_true, Bool.not_eq_true', decide_eq_true_eq]

theorem applyPair_keyBase : s.applyPair q w (.d .keyBaseLo) l h
    = if bitAt (s.reg (.d .keyBaseHi)) 31 = false ∧ (bitAt l 0 = true → baseOf l h 12 + s.dramSize / 4096 ≤ s.secWeir
        ∧ baseOf l h 12 + s.dramSize / 4096 ≤ s.dramSize)
      then s.setPair (.d .keyBaseLo) l h else s := by
  simp only [State.applyPair]
  rw [← ite_not]
  refine if_congr ?_ rfl rfl
  simp only [Bool.or_eq_true, Bool.and_eq_true, Bool.not_eq_true', Bool.and_eq_false_iff, decide_eq_false_iff_not]
  cases bitAt (s.reg (.d .keyBaseHi)) 31 <;> cases bitAt l 0 <;> simp

theorem applyPair_secWeir : s.applyPair q w (.d .secWeirLo) l h
    = if bitAt (s.reg (.d .secWeirHi)) 31 = false ∧ (s.keyV = true → s.keyBase + s.dramSize / 4096 ≤ baseOf l h 20)
        ∧ (s.ctxBaseSet = true → baseOf l h 20 ≤ s.ctxBase) ∧ (s.siteBufSet = true → baseOf l h 20 ≤ s.siteBufBase)
      then s.setPair (.d .secWeirLo) l h else s := by
  simp only [State.applyPair]
  rw [← ite_not]
  refine if_congr ?_ rfl rfl
  simp only [Bool.or_eq_true, Bool.and_eq_true, decide_eq_true_eq, not_or, not_and, not_lt, Bool.not_eq_true, and_assoc]

theorem applyPair_assign (hlo : lo = .d .assignLinkLo ∨ lo = .d .assignTimerLo ∨ lo = .d .assignDbellLo) :
    s.applyPair q w lo l h = if bitAt (s.reg (.d .assignLock)) 0 = false then s.setPair lo l h else s := by
  obtain rfl | rfl | rfl := hlo <;> simp only [State.applyPair] <;> cases bitAt (s.reg (.d .assignLock)) 0 <;> rfl

theorem applyPair_vault (hlo : lo = .curlew .vaultLo ∨ lo = .curlew .stageLo) :
    s.applyPair q w lo l h = if bitAt l 0 = true → baseOf l h 17 + 0x20000 ≤ s.secWeir ∧ baseOf l h 17 + 0x20000 ≤ s.dramSize
      then s.setPair lo l h else s := by
  have hc : (bitAt l 0 && !s.vaultPlaced (baseOf l h 17)) = true
      ↔ ¬ (bitAt l 0 = true → baseOf l h 17 + 0x20000 ≤ s.secWeir ∧ baseOf l h 17 + 0x20000 ≤ s.dramSize) := by
    simp only [State.vaultPlaced, Bool.and_eq_true, Bool.not_eq_true', Bool.and_eq_false_iff, decide_eq_false_iff_not,
      Classical.not_imp, not_and_or]
  obtain rfl | rfl := hlo <;> simp only [State.applyPair] <;> rw [← ite_not (p := bitAt l 0 = true → _)] <;>
    exact if_congr hc rfl rfl

/-- No register outside the window is reached by a host cycle (Table 2.6). -/
theorem req_ne_host_of_reaches (hr : s.reaches a r d = true) (hh : r.hostAddr = none) : a.req ≠ .host := by
  intro hq
  simp [State.reaches, hq, hh] at hr

/-- A context's write that reaches a register and is refused with BUSY records a bus error (R497, R356). -/
theorem writeReg_refused_ctx {x : CtxId} (hq : a.req = .ctx x) (hr : s.reaches a r d = true)
    (hw : s.regWrite (.ctx x) (s.ctx x).world r 0xF d = (false, t)) :
    s.writeReg a r d = t.storeFail x r.addr (s.ctx x).world 3 := by
  have hdev := region_device s r.addr (addr_range r).1 (addr_range r).2
  have haddr : (BitVec.ofNat 40 r.addr).toNat = r.addr := by
    have := (addr_range r).2
    rw [BitVec.toNat_ofNat, Nat.mod_eq_of_lt (by omega)]
  simp only [State.reaches, hq, Bool.and_eq_true, Bool.or_eq_true, decide_eq_true_eq, Bool.not_eq_true', List.isEmpty_iff] at hr
  obtain ⟨⟨hworld, hkey⟩, hbuf⟩ := hr
  have hshut : ¬ ((s.ctx x).world = .nonSecure ∧ True ∧ s.deviceSecure r.addr true = true) := by
    rintro ⟨hns, -, hsec⟩
    rcases hworld with h | h
    · rw [hns] at h; cases h
    · rw [hsec] at h; cases h
  have hhole : s.storeHole x { addr := r.addr, bytes := leBytes 4 d.toNat, world := (s.ctx x).world, word := true } = false := by
    simp [State.storeHole, State.refused, hdev, devPlace_addr, addr_aligned, hkey, Kind.fetches, leBytes]
  simp only [State.writeReg, regAddrFor, hq, State.accessWrite, State.ctxWrite, haddr, hdev, if_neg hshut, drain_empty s x hbuf,
    State.perform, hhole, Bool.false_eq_true, if_false, if_true, State.performReg, devPlace_addr, leNat_leBytes4, hw]

/-- The debug access engine's write that is refused with BUSY leaves what the register's rule leaves. -/
theorem writeReg_refused_dae {v : World} (hq : a.req = .dae v) (hr : s.reaches a r d = true)
    (hw : s.regWrite (.dae .nonSecure) (s.daeWorld r.addr true) r 0xF d = (false, t)) : s.writeReg a r d = t := by
  have haddr : (BitVec.ofNat 40 r.addr).toNat = r.addr := by
    have := (addr_range r).2
    rw [BitVec.toNat_ofNat, Nat.mod_eq_of_lt (by omega)]
  simp only [State.reaches, hq] at hr
  simp only [State.writeReg, regAddrFor, hq, State.accessWrite, haddr, State.daeRegWrite, hr, Bool.not_true, Bool.false_eq_true,
    if_false, devPlace_addr, hw]

/-- What a bus error of a performed store leaves (R356): the record of its context, and CB_ASYNC_ERR of its core. -/
theorem storeFail_spec (s : State) (x : CtxId) (addr : Nat) (w : World) (cause : BitVec 8) :
    (∃ e, ((s.storeFail x addr w cause).ctx x).storeErr = some e)
    ∧ ∀ r, (∀ c k, r ≠ .core c k) → (s.storeFail x addr w cause).reg r = s.reg r := by
  unfold State.storeFail State.setErrAddr
  constructor
  · split
    · rw [ctx_upCtx_same]; exact ⟨_, rfl⟩
    · rw [setReg_ctx, setReg_ctx, ctx_upCtx_same]; exact ⟨_, rfl⟩
  · intro r hr
    split
    · rfl
    · rw [reg_setReg_other _ _ _ _ (hr _ _), reg_setReg_other _ _ _ _ (hr _ _)]; rfl

/-- A write that would move the weir once a core has been released is refused with BUSY (R497). -/
theorem writePair_weirBusy (hbe : lanesOf a ≠ 0) (hrel : s.reg (.g .coreRelease) ≠ 0)
    (hmove : baseOf (s.newLo a (.d .secWeirLo)) (s.newHi a (.d .secWeirLo) d) 20 ≠ s.secWeir) :
    s.writePair (whoOf a) w (.d .secWeirLo) true (lanesOf a) d = (false, s.dropLo (whoOf a) (.d .secWeirLo)) := by
  unfold State.newLo State.newHi at hmove
  simp only [State.writePair, Bool.not_true, Bool.false_eq_true, hbe, if_false, State.weirBusy, hrel, hmove, decide_true,
    ne_eq, not_false_eq_true, Bool.and_true, Bool.or_true, if_true]

theorem secWeir_congr (hl : t.reg (.d .secWeirLo) = s.reg (.d .secWeirLo)) (hh : t.reg (.d .secWeirHi) = s.reg (.d .secWeirHi)) :
    t.secWeir = s.secWeir := by
  rw [State.secWeir, State.pairBase, hl, hh]; rfl

theorem secWeirWrite_busy (hr : s.reaches a (.d .secWeirHi) d = true) (hbe : lanesOf a ≠ 0)
    (hrel : s.reg (.g .coreRelease) ≠ 0)
    (hmove : baseOf (s.newLo a (.d .secWeirLo)) (s.newHi a (.d .secWeirLo) d) 20 ≠ s.secWeir) :
    (∀ r, (∀ c k, r ≠ .core c k) → (s.writeReg a (.d .secWeirHi) d).reg r = s.reg r)
    ∧ ∀ x, a.req = .ctx x → ∃ e, ((s.writeReg a (.d .secWeirHi) d).ctx x).storeErr = some e := by
  have hpair (w : World) : s.regWrite (whoOf a) w (.d .secWeirHi) (lanesOf a) d
      = (false, s.dropLo (whoOf a) (.d .secWeirLo)) :=
    (regWrite_pair rfl).trans (writePair_weirBusy hbe hrel hmove)
  cases hq : a.req with
  | host => exact absurd hq (req_ne_host_of_reaches hr rfl)
  | ctx x =>
    have hw := hpair (s.ctx x).world
    rw [whoOf, lanesOf, hq] at hw
    obtain ⟨herr, hreg⟩ := storeFail_spec (s.dropLo (.ctx x) (.d .secWeirLo)) x (Reg.d .secWeirHi).addr (s.ctx x).world 3
    rw [writeReg_refused_ctx hq hr hw]
    refine ⟨hreg, ?_⟩
    rintro y ⟨⟩
    exact herr
  | dae v =>
    have hw := hpair (s.daeWorld (Reg.d .secWeirHi).addr true)
    rw [whoOf, lanesOf, hq] at hw
    rw [writeReg_refused_dae hq hr hw]
    exact ⟨fun _ _ => rfl, by rintro x ⟨⟩⟩

end Sys2Proof.Laws
end

section
/-! SUPPORT. Single system registers: SRAM_WEIR, the ASSIGN registers and the vault pairs (spec/16 R374, R376; spec/17 R406). -/

namespace Sys2Proof.Laws

open Sys2Proof Sys2Proof.Machine

variable {s t : State} {a : Access} {addr : PhysAddr} {d : Word32} {r lo : Reg} {q : Requester} {w : World}

theorem accessWrite_live (hn : namesReg a addr r) (hr : s.reaches a r d = true) (hp : r.pairOf = none) (ht : r.isTide = false)
    (hm : r ≠ .g .mbxCtrl) (hw : s.liveWrite (whoOf a) (s.accWorld a r) r (lanesOf a) d = some t) :
    s.accessWrite a addr d = t.complete a :=
  accessWrite_reg s t a addr r d hn hr (regWrite_live hp ht hw) fun h => absurd h hm

theorem sramWeirWrite_held {be : BitVec 4} (h : s.reg (.g .coreRelease) = 0) :
    let old := s.reg (.d .sramWeir)
    let new := (DReg.spec .sramWeir).apply old (laneMask be) d
    s.sramWeirWrite be d = some (s.setReg (.d .sramWeir)
      (setBits new 23 12 (bitsOf (if bitAt old 31 = true ∨ 0x800 < bitsOf new 23 12 then old else new) 23 12))) := by
  intro old new
  have hofs : (if bitAt old 31 = true then bitsOf old 23 12 else if bitsOf new 23 12 ≤ 0x800 then bitsOf new 23 12
      else bitsOf old 23 12) = bitsOf (if bitAt old 31 = true ∨ 0x800 < bitsOf new 23 12 then old else new) 23 12 := by
    by_cases hl : bitAt old 31 = true
    · rw [if_pos hl, if_pos (.inl hl)]
    · by_cases hle : bitsOf new 23 12 ≤ 0x800
      · rw [if_neg hl, if_pos hle, if_neg (not_or.mpr ⟨hl, by omega⟩)]
      · rw [if_neg hl, if_neg hle, if_pos (.inr (by omega))]
  rw [← hofs, State.sramWeirWrite]
  simp only [h, ne_eq, not_true_eq_false, decide_false, Bool.false_and, Bool.false_eq_true, if_false]
  rfl

theorem plainWrite_assignLock {be : BitVec 4} :
    s.plainWrite (.d .assignLock) be d = s.setReg (.d .assignLock) (s.reg (.d .assignLock) ||| (laneMask be &&& 1 &&& d)) := by
  have hkeep : (~~~0#32 : Word32) = BitVec.allOnes 32 := rfl
  simp only [State.plainWrite, Reg.spec, DReg.spec, RegSpec.apply, mergeBits, BitVec.ofNat_eq_ofNat, BitVec.and_zero,
    BitVec.zero_and, BitVec.or_zero, hkeep, BitVec.and_allOnes]

theorem exec_assignWrite (hn : namesReg a addr r) (hr : isAssign r = true) :
    exec (.assignWrite a addr d) s = .next (s.accessWrite a addr d) := by
  show Host.Outcome.next (match placeReg a addr with | none => _ | some r => _) = _
  rw [placeReg_names a addr r hn]
  exact congrArg Host.Outcome.next (if_pos hr)

theorem exec_kvaultWrite (hlo : lo = .curlew .vaultLo ∨ lo = .curlew .stageLo) (hn : namesReg a addr lo.hiOf) :
    exec (.kvaultWrite a addr d) s = .next (s.accessWrite a addr d) := by
  have hp := placeReg_names a addr lo.hiOf hn
  show execKvaultWrite a addr d s = _
  obtain rfl | rfl := hlo <;> rw [execKvaultWrite, hp] <;> rfl

end Sys2Proof.Laws
end

section
/-! SUPPORT. A commit of the enclave table (spec/16 R384, R385). -/

namespace Sys2Proof.Laws

open Sys2Proof Sys2Proof.Machine

variable {s : State} {d : Word32}

theorem enclCommit_begins (h : bitAt d 0 = true) (hb : bitAt (s.reg (.d .enclStatus)) 0 = false) :
    s.enclCommit d = { s.setReg (.d .enclStatus) (s.reg (.d .enclStatus) ||| 1) with enclCtl := s.reg (.d .enclCtrl) } := by
  simp only [State.enclCommit, h, hb, Bool.not_false, Bool.and_self, if_true]
  rfl

/-- The valid descriptors of the table under commit. -/
def validDescriptors (s : State) : List Descriptor :=
  ((List.range 2048).map (s.descriptor s.enclBase)).filter Descriptor.valid

/-- Whether memory has lost a word of the table under commit. -/
def tableLost (s : State) : Bool :=
  s.poison.any (fun e => e.2 && decide (s.enclBase ≤ e.1) && decide (e.1 < s.enclBase + 0x10000))

theorem enclReads_sound (h : tableLost s = false) : s.enclReads = s := by
  have hf : s.poison.filter (fun e => e.2 && decide (s.enclBase ≤ e.1) && decide (e.1 < s.enclBase + 0x10000)) = [] := by
    rw [List.filter_eq_nil_iff]
    exact List.any_eq_false.mp h
  rw [State.enclReads, hf]
  rfl

theorem enclFails_sound (c n : Nat) (h : tableLost s = false) :
    s.enclFails c n = s.setReg (.d .enclStatus) (BitVec.ofNat 32 (16 * c + 65536 * n)) := by
  rw [State.enclFails, enclReads_sound h, ite_self]

/-- The enclave that a descriptor commits (R385). -/
def enclaveOf (d : Descriptor) : Enclave :=
  { num := d.num, dbg := decide (d.w0 / 2 % 2 = 1), base := d.base, limit := d.limit
    owner := BitVec.ofNat 10 d.owner, gfirst := d.gfirst, gcount := d.gcount }

section

variable (hb : bitAt (s.reg (.d .enclStatus)) 0 = true)

include hb

theorem enclDone_off (he : bitAt s.enclCtl 0 = false) (hp : s.allPerformed = true) :
    s.enclDone = { s.setReg (.d .enclStatus) 0 with encl := [], enclV := false, enclTable := s.enclBase } := by
  simp only [State.enclDone, hb, he, hp, Bool.not_true, Bool.not_false, Bool.false_eq_true, if_false, if_true]

theorem enclDone_on (he : bitAt s.enclCtl 0 = true) : s.enclDone = match s.enclFailure (validDescriptors s) with
    | some (c, n) => s.enclFails c n
    | none => if !s.allPerformed then s
      else { s.enclReads.setReg (.d .enclStatus) 0 with
        enclV := true, enclTable := s.enclBase, encl := (validDescriptors s).map enclaveOf } := by
  simp only [State.enclDone, hb, he, Bool.not_true, Bool.false_eq_true, if_false]
  rfl

/-- A table that fails leaves the code and the number of its first failure, and changes nothing (R385). -/
theorem enclDone_fails {c n : Nat} (he : bitAt s.enclCtl 0 = true) (hf : s.enclFailure (validDescriptors s) = some (c, n))
    (hl : tableLost s = false) : s.enclDone = s.setReg (.d .enclStatus) (BitVec.ofNat 32 (16 * c + 65536 * n)) := by
  rw [enclDone_on hb he, hf]
  exact enclFails_sound c n hl

/-- A table that commits puts its valid descriptors in force (R385). -/
theorem enclDone_sound (he : bitAt s.enclCtl 0 = true) (hf : s.enclFailure (validDescriptors s) = none)
    (hp : s.allPerformed = true) (hl : tableLost s = false) : s.enclDone.reg (.d .enclStatus) = 0
    ∧ s.enclDone.encl = (validDescriptors s).map enclaveOf ∧ s.enclDone.mem = s.mem := by
  rw [enclDone_on hb he, hf, enclReads_sound hl]
  generalize (validDescriptors s).map enclaveOf = es
  simp only [hp, Bool.not_true, Bool.false_eq_true, if_false, true_and]
  exact ⟨reg_setReg_same s (.d .enclStatus) 0, rfl⟩

/-- A commit waits while an access checked under the table in force has not been performed (R385). -/
theorem enclDone_waits (hp : s.allPerformed = false)
    (hf : bitAt s.enclCtl 0 = false ∨ s.enclFailure (validDescriptors s) = none) : s.enclDone = s := by
  cases he : bitAt s.enclCtl 0 with
  | false => simp only [State.enclDone, hb, he, hp, Bool.not_true, Bool.not_false, Bool.false_eq_true, if_false, if_true]
  | true =>
    have hnone := hf.resolve_left (by simp [he])
    rw [enclDone_on hb he, hnone]
    simp only [hp, Bool.not_false, if_true]

end

/-- A table that commits has no descriptor of a bad format (R385). -/
theorem formatGood_of_enclFailure {ds : List Descriptor} (h : s.enclFailure ds = none) {e : Descriptor} (he : e ∈ ds) :
    e.formatGood = true := by
  unfold State.enclFailure at h
  dsimp only at h
  split at h
  · cases h
  · split at h
    · cases h
    · next hn =>
      simpa using List.find?_eq_none.mp hn e he

theorem enclave_of_formatGood {e : Descriptor} (h : e.formatGood = true) :
    (enclaveOf e).base = e.w0 / 4096 ∧ (enclaveOf e).limit = e.w1 / 4096 ∧ (enclaveOf e).owner.toNat = e.owner := by
  simp only [Descriptor.formatGood, Bool.and_eq_true, decide_eq_true_eq] at h
  obtain ⟨⟨⟨⟨⟨⟨⟨-, hw0⟩, -⟩, hw1⟩, howner⟩, -⟩, -⟩, -⟩ := h
  refine ⟨Nat.mod_eq_of_lt (by omega), Nat.mod_eq_of_lt (by omega), ?_⟩
  exact (BitVec.toNat_ofNat _ _).trans (Nat.mod_eq_of_lt howner)

end Sys2Proof.Laws
end

section
/-! SUPPORT. DBG_EN: the enables in force, and the contexts that a write releases (spec/16 R393, R397). -/

namespace Sys2Proof.Laws

open Sys2Proof Sys2Proof.Machine

variable {s t : State} {d : Word32}

/-- The second state differs from the first in its contexts at most. -/
def CtxsOnly (s t : State) : Prop := { t with ctxs := s.ctxs } = s

theorem CtxsOnly.trans {s t u : State} (h : CtxsOnly s t) (k : CtxsOnly t u) : CtxsOnly s u := by
  have h' : { ({ u with ctxs := t.ctxs } : State) with ctxs := s.ctxs } = s := by rw [k]; exact h
  exact h'

/-- Whatever does not depend on the contexts stays. -/
theorem CtxsOnly.keeps {s t : State} {β : Type} (h : CtxsOnly s t) (f : State → β)
    (hf : ∀ v m, f { v with ctxs := m } = f v) : f t = f s := by
  rw [← hf t s.ctxs, h]

/-- A halted context that the port or a cleared enable lets go (R397, R527). -/
def releasedCtx (c : Ctx) : Ctx := { c with halted := false, haltReq := false, stepping := false }

/-- A context that resumes with nothing due and nothing written through the window. -/
def Undisturbed (c : Ctx) : Prop := c.trapDue = none ∧ c.stepDue = false ∧ c.dbgBytes = []

theorem resumeCtx_undisturbed {x : CtxId} (hh : (s.ctx x).halted = true) (hu : Undisturbed (s.ctx x)) :
    s.resumeCtx x false = s.upCtx x releasedCtx := by
  obtain ⟨htrap, hstep, hbytes⟩ := hu
  have hr : s.resumeCtx x false = (s.upCtx x (releasedCtx ·.dbgApply)).takeDue x := by
    rw [State.resumeCtx, if_pos hh]
    rfl
  have happly : (s.ctx x).dbgApply = s.ctx x := by simp [Ctx.dbgApply, hbytes]
  have hup : s.upCtx x (releasedCtx ·.dbgApply) = s.upCtx x releasedCtx := by
    rw [State.upCtx, happly]; rfl
  have hd : ((s.upCtx x releasedCtx).ctx x).trapDue = none := by rw [ctx_upCtx_same]; exact htrap
  have hs : ((s.upCtx x releasedCtx).ctx x).stepDue = false := by rw [ctx_upCtx_same]; exact hstep
  rw [hr, hup, State.takeDue]
  simp only [hd, State.takeStep, hs, Bool.false_and, Bool.false_eq_true, if_false]

theorem foldl_resumeCtx (l : List CtxId) (hn : l.Nodup) (s : State)
    (hl : ∀ x ∈ l, (s.ctx x).halted = true ∧ Undisturbed (s.ctx x)) :
    CtxsOnly s (l.foldl (fun s x => s.resumeCtx x false) s)
    ∧ ∀ x, (l.foldl (fun s x => s.resumeCtx x false) s).ctx x = if x ∈ l then releasedCtx (s.ctx x) else s.ctx x := by
  induction l generalizing s with
  | nil => exact ⟨rfl, fun _ => rfl⟩
  | cons y l ih =>
    obtain ⟨hy, hn⟩ := List.nodup_cons.mp hn
    have hother : ∀ x ∈ l, (s.upCtx y releasedCtx).ctx x = s.ctx x := fun x hx =>
      ctx_upCtx_other s y x _ fun h => hy (h ▸ hx)
    obtain ⟨hhalt, hdue⟩ := hl y (.head _)
    obtain ⟨hrest, hctx⟩ := ih hn (s.upCtx y releasedCtx) fun x hx => by rw [hother x hx]; exact hl x (.tail _ hx)
    rw [List.foldl_cons, resumeCtx_undisturbed hhalt hdue]
    refine ⟨CtxsOnly.trans (t := s.upCtx y releasedCtx) rfl hrest, fun x => ?_⟩
    rw [hctx x]
    by_cases hxl : x ∈ l
    · rw [if_pos hxl, if_pos (.tail _ hxl), hother x hxl]
    · rw [if_neg hxl]
      by_cases hxy : x = y
      · subst hxy
        rw [if_pos (.head _), ctx_upCtx_same]
      · rw [if_neg (by simp [hxy, hxl]), ctx_upCtx_other s y x _ hxy]

theorem nodup_allCtxs : allCtxs.Nodup := by decide
theorem mem_allCtxs (x : CtxId) : x ∈ allCtxs := by revert x; decide

/-- Every context that stands halted in a world is released, and nothing else changes (R397). -/
theorem releaseWorld_undisturbed (w : World) (hu : ∀ x, Undisturbed (s.ctx x)) :
    CtxsOnly s (s.releaseWorld w)
    ∧ ∀ x, (s.releaseWorld w).ctx x
      = if (s.ctx x).halted = true ∧ (s.ctx x).world = w then releasedCtx (s.ctx x) else s.ctx x := by
  obtain ⟨hrest, hctx⟩ := foldl_resumeCtx
    (allCtxs.filter (fun x => (s.ctx x).halted && decide ((s.ctx x).world = w))) (nodup_allCtxs.filter _) s fun x hx => by
      have hx := (List.mem_filter.mp hx).2
      exact ⟨(Bool.and_eq_true_iff.mp hx).1, hu x⟩
  refine ⟨hrest, fun x => (hctx x).trans (if_congr ?_ rfl rfl)⟩
  simp [List.mem_filter, mem_allCtxs]


theorem releaseWorld_if (c : Bool) (w : World) (hu : ∀ x, Undisturbed (s.ctx x)) :
    CtxsOnly s (if c then s.releaseWorld w else s)
    ∧ ∀ x, (if c then s.releaseWorld w else s).ctx x
      = if c = true ∧ (s.ctx x).halted = true ∧ (s.ctx x).world = w then releasedCtx (s.ctx x) else s.ctx x := by
  cases c with
  | false => exact ⟨rfl, fun x => by simp⟩
  | true => simpa using releaseWorld_undisturbed w hu

theorem dbgCeil_congr (h : t.sensed = s.sensed) : t.dbgCeil = s.dbgCeil := by
  rw [State.dbgCeil, lcState_congr h]; rfl

/-- An enable of DBG_EN reads as its stored bit, inverted, up to its ceiling (R393). -/
theorem bitAt_dbgEn {k : Nat} (hk : k < 4) :
    bitAt s.dbgEn k = (bitAt (BitVec.ofNat 4 s.dbgCeil) k && !bitAt (s.reg (.d .dbgEn)) k) := by
  generalize hen : (BitVec.ofNat 4 s.dbgCeil) &&& ~~~((s.reg (.d .dbgEn)).setWidth 4) = en
  have hlt : en.toNat < 2 ^ 8 := by have := en.isLt; omega
  have hbit : bitAt s.dbgEn k = en.getLsbD k := by
    rw [State.dbgEn, hen, bitAt_ofNat _ (by omega), Nat.add_comm, Nat.mul_comm, Nat.testBit_two_pow_mul_add _ hlt,
      if_pos (by omega), BitVec.testBit_toNat]
  rw [hbit, ← hen]
  simp [bitAt, hk]

/-- Enables written to DBG_EN. -/
def dbgEnables (s : State) (d : Word32) : BitVec 4 := BitVec.ofNat 4 s.dbgCeil &&& d.setWidth 4

/-- DBG_EN as a write stores it. -/
def dbgStored (s : State) (d : Word32) : State := s.setReg (.d .dbgEn) ((~~~(dbgEnables s d)).setWidth 32)

theorem bitAt_dbgEnables {k : Nat} (hk : k < 4) :
    bitAt (dbgEnables s d) k = (bitAt (BitVec.ofNat 4 s.dbgCeil) k && bitAt d k) := by
  simp [dbgEnables, bitAt, hk]

theorem bitAt_dbgEn_stored {k : Nat} (hk : k < 4) : bitAt (dbgStored s d).dbgEn k = bitAt (dbgEnables s d) k := by
  rw [bitAt_dbgEn hk, dbgCeil_congr (t := dbgStored s d) (s := s) rfl, dbgStored, reg_setReg_same, bitAt_dbgEnables hk]
  have hn : bitAt ((~~~(dbgEnables s d)).setWidth 32) k = !bitAt (dbgEnables s d) k := by
    simp [bitAt, hk, show k < 32 by omega]
  rw [hn, bitAt_dbgEnables hk]
  cases bitAt (BitVec.ofNat 4 s.dbgCeil) k <;> simp

/-- A write of DBG_EN stores the enables, and an invasive enable that falls releases the contexts halted in its world. -/
theorem dbgWrite_eq {be : BitVec 4} (h : be.getLsbD 0 = true) : s.dbgWrite be d =
    (let t := if bitAt s.dbgEn 0 && !bitAt (dbgEnables s d) 0 then (dbgStored s d).releaseWorld .nonSecure else dbgStored s d
     if bitAt s.dbgEn 2 && !bitAt (dbgEnables s d) 2 then t.releaseWorld .secure else t) := by
  rw [State.dbgWrite, if_pos h]; rfl

/-- A write of DBG_EN leaves the stored enables, and each context halted in a world whose invasive enable fell released (R397). -/
theorem dbgWrite_spec {be : BitVec 4} (h : be.getLsbD 0 = true) (hu : ∀ x, Undisturbed (s.ctx x)) :
    CtxsOnly (dbgStored s d) (s.dbgWrite be d)
    ∧ ∀ x, (s.dbgWrite be d).ctx x = if (s.ctx x).halted = true
        ∧ (bitAt s.dbgEn (if (s.ctx x).world = .secure then 2 else 0)
          && !bitAt (dbgEnables s d) (if (s.ctx x).world = .secure then 2 else 0)) = true
      then releasedCtx (s.ctx x) else s.ctx x := by
  have hst (x : CtxId) : (dbgStored s d).ctx x = s.ctx x := rfl
  obtain ⟨hrest1, hctx1⟩ := releaseWorld_if (s := dbgStored s d) (bitAt s.dbgEn 0 && !bitAt (dbgEnables s d) 0)
    .nonSecure hu
  simp only [hst] at hctx1
  have hu1 : ∀ x, Undisturbed ((if (bitAt s.dbgEn 0 && !bitAt (dbgEnables s d) 0) = true
      then (dbgStored s d).releaseWorld .nonSecure else dbgStored s d).ctx x) := by
    intro x
    rw [hctx1 x]
    split
    · exact hu x
    · exact hu x
  obtain ⟨hrest2, hctx2⟩ := releaseWorld_if (bitAt s.dbgEn 2 && !bitAt (dbgEnables s d) 2) .secure hu1
  rw [dbgWrite_eq h]
  refine ⟨hrest1.trans hrest2, fun x => (hctx2 x).trans ?_⟩
  rw [hctx1 x]
  cases hw : (s.ctx x).world with
  | secure => simp [hw, and_comm]
  | nonSecure =>
    have hlast (v : Ctx) (hv : v.world = .nonSecure) : (if (bitAt s.dbgEn 2 && !bitAt (dbgEnables s d) 2) = true
        ∧ v.halted = true ∧ v.world = .secure then releasedCtx v else v) = v := if_neg (by simp [hv])
    rw [hlast _ (by split <;> exact hw)]
    simp [and_comm]

end Sys2Proof.Laws
end

section
/-! SUPPORT. Bittern (spec/16 R398, R399). -/

namespace Sys2Proof.Laws

open Sys2Proof Sys2Proof.Machine

variable {s : State} {d : Word32}

theorem wdtWrite_locked {be : BitVec 4} (h : bitAt (s.reg (.d .wdtCtrl)) 31 = true) : s.wdtWrite be d = s := by
  rw [State.wdtWrite, if_pos h]

/-- A write of WDT_CTRL that leaves TIMEOUT_MS in its range takes every field, and restarts Bittern where it enables it or changes
its limit (R398). -/
theorem wdtWrite_open {be : BitVec 4} (h : bitAt (s.reg (.d .wdtCtrl)) 31 = false) :
    let old := s.reg (.d .wdtCtrl)
    let new := (DReg.spec .wdtCtrl).apply old (laneMask be) d
    1 ≤ bitsOf new 23 8 → bitsOf new 23 8 ≤ 16000 → s.wdtWrite be d
      = ({ s with wdtHalf := s.wdtHalf && !decide (bitAt new 0 = true ∧ (bitAt old 0 = false ∨ bitsOf new 23 8 ≠ bitsOf old 23 8)) } :
          State).setReg (.d .wdtCtrl) new := by
  intro old new hlo hhi
  have hs : s.wdtWrite be d = if ((bitAt new 0 && !bitAt old 0) || (bitAt new 0 && decide (bitsOf new 23 8 ≠ bitsOf old 23 8))) = true
      then { s.setReg (.d .wdtCtrl) new with wdtHalf := false } else s.setReg (.d .wdtCtrl) new := by
    simp only [State.wdtWrite, h, Bool.false_eq_true, if_false]
    have hr : 1 ≤ bitsOf new 23 8 ∧ bitsOf new 23 8 ≤ 16000 := ⟨hlo, hhi⟩
    show (if _ then _ else _) = _
    simp only [new, old] at hr
    simp only [if_pos hr]
    rfl
  have hrestart : ((bitAt new 0 && !bitAt old 0) || (bitAt new 0 && decide (bitsOf new 23 8 ≠ bitsOf old 23 8))) = true
      ↔ bitAt new 0 = true ∧ (bitAt old 0 = false ∨ bitsOf new 23 8 ≠ bitsOf old 23 8) := by
    simp only [Bool.or_eq_true, Bool.and_eq_true, Bool.not_eq_true', decide_eq_true_eq, ← and_or_left]
  rw [hs]
  by_cases hre : bitAt new 0 = true ∧ (bitAt old 0 = false ∨ bitsOf new 23 8 ≠ bitsOf old 23 8)
  · rw [if_pos (hrestart.mpr hre), decide_eq_true hre, Bool.not_true, Bool.and_false]; rfl
  · rw [if_neg (mt hrestart.mp hre), decide_eq_false hre, Bool.not_false, Bool.and_true]

/-- Bittern's warning: bit 3 of the boot context's CX_IRQ_PEND, and its hint (R399). -/
theorem watchdogWarning_spec (he : bitAt (s.reg (.d .wdtCtrl)) 0 = true) (hh : (s.ctx bootCtx).halted = false)
    (hw : s.wdtHalf = false) : exec .watchdogWarning s = .next
      ((({ s with wdtHalf := true, wdtWarned := true } : State).setReg (cxReg bootCtx .irqPend)
        (s.reg (cxReg bootCtx .irqPend) ||| 8)).setReg (.g .hintStatus) (s.reg (.g .hintStatus) ||| 0x800000)) := by
  have hcounts : (s.wdtCounts && !s.wdtHalf) = true := by rw [State.wdtCounts, he, hh, hw]; rfl
  refine congrArg Host.Outcome.next ((if_pos hcounts).trans ?_)
  rw [State.setHint, State.setIrq, State.orReg, State.orReg, reg_setReg_other _ _ _ _ (by simp [cxReg])]
  rfl

/-- What a reset by Bittern leaves (R398, R434, R435). -/
theorem chipReset_swdt : (s.chipReset .swdt).inReset = true
    ∧ (s.chipReset .swdt).reg (.g .resetCause) = s.reg (.g .resetCause) ||| 4
    ∧ (s.chipReset .swdt).reg (.g .scratch1) = s.reg (.g .scratch1)
    ∧ (∀ r, r ≠ .g .resetCause → r ≠ .g .scratch1 → r ≠ .boot .status → (s.chipReset .swdt).reg r = r.spec.reset)
    ∧ (s.chipReset .swdt).ctxs = keepHalts s.ctxs ∧ (s.chipReset .swdt).sites = []
    ∧ (s.chipReset .swdt).pending = s.pending := by
  refine ⟨rfl, ?_, ?_, fun r hc h1 hs => ?_, rfl, rfl, rfl⟩
  · rw [State.chipReset, reg_setReg_other _ _ _ _ (by simp), reg_setReg_other _ _ _ _ (by simp), reg_setReg_same]
    rfl
  · rw [State.chipReset, reg_setReg_other _ _ _ _ (by simp), reg_setReg_same]
    rfl
  · rw [State.chipReset, reg_setReg_other _ _ _ _ hs, reg_setReg_other _ _ _ _ h1, reg_setReg_other _ _ _ _ hc]
    rfl

end Sys2Proof.Laws
end

section
/-! PROOFS. Writes of bases, weirs, ASSIGN, enclaves, DBG_EN and Bittern (O50). -/

namespace Sys2Proof.Proofs.SystemRegisters

open Sys2Proof Sys2Proof.Machine Sys2Proof.Laws

/-- A write of a register with a rule of its own completes with what the rule leaves. -/
theorem next_live {s t : State} {a : Access} {d : Word32} {r : Reg} (hr : s.reaches a r d = true) (hp : r.pairOf = none)
    (ht : r.isTide = false) (hm : r ≠ .g .mbxCtrl)
    (hw : s.liveWrite (whoOf a) (s.accWorld a r) r (lanesOf a) d = some t) :
    (.next (s.writeReg a r d) : Out) = .next (t.complete a) :=
  congrArg _ (writeReg_live hr hp ht hm hw)

theorem exec_enclCommitDone (s : State) : exec .enclCommitDone s = .next s.enclDone :=
  congrArg Host.Outcome.next (withUpset_none s State.enclDone)

/-- Settles O50: each pair by its own rule, and each of the other registers by what its write does. -/
theorem systemRegisterWrites : Obligations.SystemRegisterWrites := by
  unfold Obligations.SystemRegisterWrites
  refine ⟨fun s a addr data hbe => ⟨?ctxBase, ?siteBuf, ?keyBase, ?secWeir, ?secWeirBusy, ?sramWeir, ?assignOne, ?assignLock,
    ?assignPair, ?vault⟩, fun s a data hbe => ⟨?enclCommit, ?enclDone, ?dbgEn, ?wdtCtrl, ?wdtKick, ?bittern⟩⟩
  case ctxBase => exact fun hr => pair_outcome (writeReg_hi (lo := .d .ctxBaseLo) hr rfl hbe (.inl (by simp))) applyPair_ctxBase
  case siteBuf => exact fun hr => pair_outcome (writeReg_hi (lo := .d .siteBufBaseLo) hr rfl hbe (.inl (by simp))) applyPair_siteBufBase
  case keyBase => exact fun hr => pair_outcome (writeReg_hi (lo := .d .keyBaseLo) hr rfl hbe (.inl (by simp))) applyPair_keyBase
  case secWeir =>
    exact fun hr hrel => pair_outcome (writeReg_hi (lo := .d .secWeirLo) hr rfl hbe (.inr (not_not.mp hrel))) applyPair_secWeir
  case secWeirBusy =>
    intro hr hrel hmove
    obtain ⟨hreg, herr⟩ := secWeirWrite_busy hr hbe hrel hmove
    exact ⟨_, rfl, secWeir_congr (hreg _ (by simp)) (hreg _ (by simp)), hreg _ (by simp), herr⟩
  case sramWeir => exact fun hr hrel => next_live hr rfl rfl (by simp) (sramWeirWrite_held (not_not.mp hrel))
  case assignOne =>
    rintro r (rfl | rfl) hn hr <;>
      exact (exec_assignWrite hn rfl).trans (congrArg _ (accessWrite_live hn hr rfl rfl (by simp) rfl))
  case assignLock =>
    intro hn hr
    rw [exec_assignWrite hn rfl, accessWrite_live hn hr rfl rfl (by simp) rfl, plainWrite_assignLock]
  case assignPair =>
    intro lo hlo hn hr
    have hp : lo.hiOf.pairOf = some (lo, true) ∧ isAssign lo.hiOf = true ∧ lo ≠ .d .secWeirLo := by
      obtain rfl | rfl | rfl := hlo <;> exact ⟨rfl, rfl, by simp⟩
    obtain ⟨hpair, hassign, hweir⟩ := hp
    rw [exec_assignWrite hn hassign]
    exact pair_outcome (accessWrite_hi hn hr hpair hbe (.inl hweir)) (applyPair_assign hlo)
  case vault =>
    intro lo hlo hn hr
    have hp : lo.hiOf.pairOf = some (lo, true) ∧ lo ≠ .d .secWeirLo := by
      obtain rfl | rfl := hlo <;> exact ⟨rfl, by simp⟩
    obtain ⟨hpair, hweir⟩ := hp
    rw [exec_kvaultWrite hlo hn]
    exact pair_outcome (accessWrite_hi hn hr hpair hbe (.inl hweir)) (applyPair_vault hlo)
  case enclCommit =>
    exact fun hr hw hb => next_live hr rfl rfl (by simp) (congrArg some (enclCommit_begins hw hb))
  case enclDone =>
    intro hb
    simp only [Answers, exec_enclCommitDone]
    refine ⟨fun he hp => ⟨_, congrArg _ (enclDone_off hb he hp), rfl, reg_setReg_same s (.d .enclStatus) 0,
      fun r hr => reg_setReg_other s (.d .enclStatus) r 0 hr, rfl⟩, fun hp hf => congrArg _ (enclDone_waits hb hp hf),
      fun c n he hf hl => congrArg _ (enclDone_fails hb he hf hl), fun he hf hp hl => ?_⟩
    obtain ⟨hstatus, hencl, hmem⟩ := enclDone_sound hb he hf hp hl
    refine ⟨_, rfl, hstatus, (congrArg List.length hencl).trans (List.length_map _), hmem,
      fun e he => ⟨enclaveOf e, hencl ▸ List.mem_map_of_mem he, rfl, ?_⟩⟩
    obtain ⟨hbase, hlimit, howner⟩ := enclave_of_formatGood (formatGood_of_enclFailure hf he)
    exact ⟨hbase, hlimit, howner, rfl, rfl, rfl⟩
  case dbgEn =>
    intro hr h0 hu
    obtain ⟨hrest, hctx⟩ := dbgWrite_spec (d := data) h0 hu
    refine ⟨_, next_live hr rfl rfl (by simp) rfl, ?_⟩
    have hen (k : Nat) (hk : k < 4) : bitAt ((s.dbgWrite (lanesOf a) data).complete a).dbgEn k = bitAt (dbgEnables s data) k := by
      rw [complete_keeps State.dbgEn fun _ _ => rfl, hrest.keeps State.dbgEn fun _ _ => rfl, bitAt_dbgEn_stored hk]
    refine ⟨fun k hk => ?_, fun x => ?_, fun r hne => ?_, ?_⟩
    · rw [hen k hk, bitAt_dbgEnables hk, Bool.and_comm]
    · rw [complete_keeps (State.ctx · x) fun _ _ => rfl, hctx x]
      simp only [hen (if (s.ctx x).world = .secure then 2 else 0) (by split <;> omega)]
      rfl
    · rw [complete_reg, hrest.keeps (State.reg · r) fun _ _ => rfl]
      exact reg_setReg_other _ _ _ _ hne
    · rw [complete_keeps State.mem fun _ _ => rfl, hrest.keeps State.mem fun _ _ => rfl]
      rfl
  case wdtCtrl =>
    exact fun hr => ⟨fun hl => next_live hr rfl rfl (by simp) (congrArg some (wdtWrite_locked hl)),
      fun hl hlo hhi => next_live hr rfl rfl (by simp) (congrArg some (wdtWrite_open hl hlo hhi))⟩
  case wdtKick =>
    exact fun hr hsec => next_live hr rfl rfl (by simp) (congrArg some (if_pos ⟨hsec, hbe⟩))
  case bittern =>
    refine fun he hh => ⟨watchdogWarning_spec he hh, fun hw => ⟨s.chipReset .swdt, ?_, chipReset_swdt⟩⟩
    exact congrArg Host.Outcome.next (if_pos (by rw [State.wdtCounts, he, hh, hw]; rfl))

end Sys2Proof.Proofs.SystemRegisters
end

section
/-! SUPPORT. What the events of SB_CTRL may change, and the steps they share (spec/03 Table 3.7). -/

namespace Sys2Proof.Laws

open Sys2Proof Sys2Proof.Machine

variable {s t u : State} {n : SiteId} {be : BitVec 4} {d c c' : Word32} {k : Nat} {b : Bool} {v v' : Site} {r : Reg}

theorem bitAt_laneMask (hk : k < 32) : bitAt (laneMask be) k = be.getLsbD (k / 8) := by
  revert be k
  decide

/-- A bit that a register bit is given already changes nothing. -/
theorem setBit_self {w : Nat} (x : BitVec w) (hk : k < w) (h : bitAt x k = b) : setBit x k b = x := by
  refine BitVec.eq_of_getLsbD_eq fun i _ => ?_
  show bitAt (setBit x k b) i = bitAt x i
  by_cases hi : i = k
  · rw [hi, bitAt_setBit_same x k b hk, h]
  · exact bitAt_setBit_other x k i b hi

/-- Every field of the second state is that of the first, and every register reads the same. -/
def Agrees (s t : State) : Prop := RegsOnly s t ∧ ∀ r, t.reg r = s.reg r

theorem Agrees.refl (s : State) : Agrees s s := ⟨.refl s, fun _ => rfl⟩

theorem Agrees.trans (h : Agrees s t) (h' : Agrees t u) : Agrees s u :=
  ⟨h.1.trans h'.1, fun r => (h'.2 r).trans (h.2 r)⟩

theorem Agrees.site (h : Agrees s t) (m : SiteId) : t.site m = s.site m := h.1.keeps (State.site · m) fun _ _ => rfl

theorem putBit_agrees (hk : k < 32) (h : bitAt (s.reg r) k = b) : Agrees s (s.putBit r k b) := by
  refine ⟨.setReg _ _ _, fun q => ?_⟩
  rw [State.putBit, setBit_self _ hk h]
  by_cases hq : q = r
  · rw [hq, reg_setReg_same]
  · exact reg_setReg_other _ _ _ _ hq

/-! ## What an event of SB_CTRL may change -/

/-- The second state differs from the first in its site, in its site's registers that SB_CTRL's events write, and in the line of
its attention at most. -/
def SiteFrame (n : SiteId) (s t : State) : Prop :=
  t.mem = s.mem ∧ t.ctxs = s.ctxs ∧ (∀ m, m ≠ n → t.site m = s.site m)
    ∧ ∀ r, r ≠ .site n .ctrl → r ≠ .site n .status → r ≠ .site n .attn → r ≠ .site n .faultInfo → r ≠ .d .irqLinePend →
      t.reg r = s.reg r

theorem SiteFrame.trans (h : SiteFrame n s t) (h' : SiteFrame n t u) : SiteFrame n s u := by
  obtain ⟨hmem, hctxs, hsite, hreg⟩ := h
  obtain ⟨hmem', hctxs', hsite', hreg'⟩ := h'
  exact ⟨hmem'.trans hmem, hctxs'.trans hctxs, fun m hm => (hsite' m hm).trans (hsite m hm),
    fun r h1 h2 h3 h4 h5 => (hreg' r h1 h2 h3 h4 h5).trans (hreg r h1 h2 h3 h4 h5)⟩

/-- An event of a site's SB_CTRL leaves a site and a control word, and nothing else outside the frame. -/
structure SiteEvent (n : SiteId) (s t : State) (v : Site) (c : Word32) : Prop where
  frame : SiteFrame n s t
  site : t.site n = v
  ctrl : t.reg (.site n .ctrl) = c

namespace SiteEvent

theorem trans (h : SiteEvent n s t v c) (h' : SiteEvent n t u v' c') : SiteEvent n s u v' c' :=
  ⟨h.frame.trans h'.frame, h'.site, h'.ctrl⟩

theorem of_agrees (n : SiteId) (h : Agrees s t) : SiteEvent n s t (s.site n) (s.reg (.site n .ctrl)) :=
  ⟨⟨h.1.keeps State.mem fun _ _ => rfl, h.1.ctxs, fun m _ => h.site m, fun r _ _ _ _ _ => h.2 r⟩, h.site n, h.2 _⟩

/-- What agrees with the outcome of an event is its outcome. -/
theorem agrees (h : SiteEvent n s t v c) (ha : Agrees t u) : SiteEvent n s u v c := by
  have h' := of_agrees n ha
  rw [h.site, h.ctrl] at h'
  exact h.trans h'

/-- An event on a state that agrees with the first is one on the first. -/
theorem after (ha : Agrees s t) (h : SiteEvent n t u v c) : SiteEvent n s u v c := (of_agrees n ha).trans h

theorem complete (h : SiteEvent n s t v c) (a : Access) : SiteEvent n s (t.complete a) v c := by
  obtain ⟨⟨hmem, hctxs, hsite, hreg⟩, hv, hc⟩ := h
  refine ⟨⟨?_, ?_, fun m hm => ?_, fun r h1 h2 h3 h4 h5 => ?_⟩, ?_, (complete_reg _).trans hc⟩
  · exact (complete_keeps State.mem fun _ _ => rfl).trans hmem
  · exact (complete_keeps State.ctxs fun _ _ => rfl).trans hctxs
  · exact (complete_keeps (State.site · m) fun _ _ => rfl).trans (hsite m hm)
  · exact (complete_reg r).trans (hreg r h1 h2 h3 h4 h5)
  · exact (complete_keeps (State.site · n) fun _ _ => rfl).trans hv

theorem upSite (s : State) (n : SiteId) (f : Site → Site) : SiteEvent n s (s.upSite n f) (f (s.site n)) (s.reg (.site n .ctrl)) :=
  ⟨⟨rfl, rfl, fun m hm => site_setSite_other s n m _ hm, fun _ _ _ _ _ _ => rfl⟩, site_setSite_same s n _, rfl⟩

/-- A write of one of the other registers that SB_CTRL's events write. -/
theorem setReg (h : SiteEvent n s t v c) (x : Word32)
    (hr : r = .site n .status ∨ r = .site n .attn ∨ r = .site n .faultInfo ∨ r = .d .irqLinePend) :
    SiteEvent n s (t.setReg r x) v c := by
  obtain ⟨hframe, hv, hc⟩ := h
  refine ⟨hframe.trans ⟨rfl, rfl, fun _ _ => rfl, fun q h1 h2 h3 h4 h5 => reg_setReg_other _ _ _ _ ?_⟩, hv,
    (reg_setReg_other _ _ _ _ ?_).trans hc⟩
  · obtain rfl | rfl | rfl | rfl := hr <;> assumption
  · obtain rfl | rfl | rfl | rfl := hr <;> simp

theorem putCtrl (s : State) (n : SiteId) (k : Nat) (b : Bool) :
    SiteEvent n s (s.putBit (.site n .ctrl) k b) (s.site n) (setBit (s.reg (.site n .ctrl)) k b) :=
  ⟨⟨rfl, rfl, fun _ _ => rfl, fun _ h1 _ _ _ _ => reg_setReg_other _ _ _ _ h1⟩, rfl, reg_setReg_same _ _ _⟩

end SiteEvent

/-! ## The steps of a write of SB_CTRL -/

/-- A tenant put into a state of Table 3.7. -/
def intoState (v : Site) (q : TState) : Site := { v with tstate := q, quantumAsked := v.quantumAsked && decide (q = .pending) }

/-- The state that a tenant rests in where HOLD has a value (Table 3.7). -/
def restFor (v : Site) (hold : Bool) : TState := if hold then .held else if v.events = 0 then .idle else .pending

theorem setTState_event (s : State) (n : SiteId) (q : TState) :
    SiteEvent n s (s.setTState n q) (intoState (s.site n) q) (s.reg (.site n .ctrl)) := .upSite s n _

theorem enRefused_event (s : State) (n : SiteId) : SiteEvent n s (s.enRefused n) (s.site n) (s.reg (.site n .ctrl))
    ∧ bitAt ((s.enRefused n).reg (.site n .status)) 9 = true := by
  refine ⟨(SiteEvent.of_agrees n (.refl s)).setReg _ (.inl rfl), ?_⟩
  rw [State.enRefused, State.putBit, reg_setReg_same]
  exact bitAt_setBit_same _ _ _ (by omega)

theorem requestSave_event (h : (s.site n).tstate = .loaded) (q : SaveReason) :
    SiteEvent n s (s.requestSave n q) { s.site n with save := some (SaveReason.over (s.site n).save q) } (s.reg (.site n .ctrl)) := by
  rw [State.requestSave, if_pos h]
  exact .upSite s n _

/-- FAULT stands over every other reason of a save (notes/assumptions/72.md). -/
theorem over_fault (o : Option SaveReason) : SaveReason.over o .fault = .fault := by
  cases o with
  | none => rfl
  | some q => cases q <;> rfl

/-- A tenant that enters FAULTED records its code, counts the entry, and sets its attention and its line (R74, Table 3.6). -/
theorem enterFaulted_event (s : State) (n : SiteId) {code : Nat} (hc : code < 256) :
    SiteEvent n s (s.enterFaulted n code) (intoState (s.site n) .faulted) (s.reg (.site n .ctrl))
    ∧ bitsOf ((s.enterFaulted n code).reg (.site n .faultInfo)) 7 0 = code
    ∧ bitAt ((s.enterFaulted n code).reg (.site n .attn)) 4 = true
    ∧ bitsOf ((s.enterFaulted n code).reg (.site n .faultInfo)) 31 16 = min (bitsOf (s.reg (.site n .faultInfo)) 31 16 + 1) 65535
    ∧ bitAt ((s.enterFaulted n code).reg (.d .irqLinePend)) 7 = true := by
  generalize hx : setBits (setBits (s.reg (.site n .faultInfo)) 7 0 code) 31 16
    (min (bitsOf (s.reg (.site n .faultInfo)) 31 16 + 1) 65535) = x
  have hs : s.enterFaulted n code
      = ((((s.setTState n .faulted).setReg (.site n .faultInfo) x).orReg (.site n .attn) 16).orReg (.d .irqLinePend) 128) := by
    rw [← hx]; rfl
  have hinfo : (s.enterFaulted n code).reg (.site n .faultInfo) = x := by
    rw [hs, reg_orReg_other _ _ _ _ (by simp), reg_orReg_other _ _ _ _ (by simp), reg_setReg_same]
  refine ⟨?_, ?_, ?_, ?_, ?_⟩
  · rw [hs]
    exact (((setTState_event s n .faulted).setReg x (.inr (.inr (.inl rfl)))).setReg _ (.inr (.inl rfl))).setReg _
      (.inr (.inr (.inr rfl)))
  · rw [hinfo, ← hx, bitsOf_setBits_apart _ _ _ _ _ _ (.inl (by omega)), bitsOf_setBits_same _ _ _ _ (by omega)]
    exact Nat.mod_eq_of_lt hc
  · rw [hs, reg_orReg_other _ _ _ _ (by simp), reg_orReg_same, bitAt_or]
    exact Bool.or_true _
  · rw [hinfo, ← hx, bitsOf_setBits_same _ _ _ _ (by omega)]
    exact Nat.mod_eq_of_lt (by omega)
  · rw [hs, reg_orReg_same, bitAt_or]
    exact Bool.or_true _

end Sys2Proof.Laws
end

section
/-! SUPPORT. The events of SB_CTRL one by one, and a write of it as their sequence (spec/03 R67, R73, R75, R81). -/

namespace Sys2Proof.Laws

open Sys2Proof Sys2Proof.Machine

variable {s t u : State} {n : SiteId} {be : BitVec 4} {d c c' : Word32} {k : Nat} {b : Bool} {v v' : Site} {r : Reg}

theorem convert_idle (m : Bool) (h : s.tide.busy = false) : s.convert n m = s := by
  simp [State.convert, h]

/-! ## EN -/

theorem en0_off (h : s.siteEn n = false) : s.en0 n = s := by simp [State.en0, h]

theorem en0_txn (h : s.siteEn n = true) (hx : (s.site n).txn ≠ .idle) : s.en0 n = s.enRefused n := by
  simp [State.en0, h, hx]

theorem en0_loaded (h : s.siteEn n = true) (hx : (s.site n).txn = .idle) (hl : (s.site n).tstate = .loaded) :
    SiteEvent n s (s.en0 n) { s.site n with enClear := true, save := some (SaveReason.over (s.site n).save .en0) }
      (s.reg (.site n .ctrl)) := by
  have he : s.en0 n = (s.upSite n (fun v => { v with enClear := true })).requestSave n .en0 := by simp [State.en0, h, hx, hl]
  have hmark := SiteEvent.upSite s n (fun v => { v with enClear := true })
  have hsave := requestSave_event (s := s.upSite n (fun v => { v with enClear := true })) (n := n) (by rw [hmark.site]; exact hl) .en0
  rw [hmark.site, hmark.ctrl] at hsave
  rw [he]
  exact hmark.trans hsave

theorem en0_removes (h : s.siteEn n = true) (hx : (s.site n).txn = .idle) (hl : (s.site n).tstate ≠ .loaded)
    (hb : s.tide.busy = false) :
    SiteEvent n s (s.en0 n) (intoState (s.site n) .absent) (setBit (s.reg (.site n .ctrl)) 0 false) := by
  have he : s.en0 n = ((s.putBit (.site n .ctrl) 0 false).setTState n .absent).convert n false := by simp [State.en0, h, hx, hl]
  have hbusy : ((s.putBit (.site n .ctrl) 0 false).setTState n .absent).tide.busy = false := hb
  have hput := SiteEvent.putCtrl s n 0 false
  have habsent := setTState_event (s.putBit (.site n .ctrl) 0 false) n .absent
  rw [hput.site, hput.ctrl] at habsent
  rw [he, convert_idle _ hbusy]
  exact hput.trans habsent

theorem en1_on (h : s.siteEn n = true) : s.en1 n = s := by simp [State.en1, h]

theorem restState_eq : s.restState n = restFor (s.site n) (s.siteHold n) := rfl

theorem en1_installs (h : s.siteEn n = false) (hc : s.ctxBaseSet = true) (hb : s.siteBufSet = true) :
    SiteEvent n s (s.en1 n) (intoState (s.site n) (restFor (s.site n) (s.siteHold n))) (setBit (s.reg (.site n .ctrl)) 0 true) := by
  have he : s.en1 n = (s.putBit (.site n .ctrl) 0 true).setTState n (restFor (s.site n) (s.siteHold n)) := by
    simp [State.en1, h, hc, hb, restState_eq]
  have hput := SiteEvent.putCtrl s n 0 true
  have hrest := setTState_event (s.putBit (.site n .ctrl) 0 true) n (restFor (s.site n) (s.siteHold n))
  rw [hput.site, hput.ctrl] at hrest
  rw [he]
  exact hput.trans hrest

theorem en1_refused (h : s.siteEn n = false) (hc : s.ctxBaseSet = false ∨ s.siteBufSet = false) : s.en1 n = s.enRefused n := by
  rcases hc with hc | hc <;> simp [State.en1, h, hc]

/-! ## FAULT and RESUME -/

theorem faultWritten_resting (h : (s.site n).tstate = .idle ∨ (s.site n).tstate = .pending ∨ (s.site n).tstate = .held) :
    s.faultWritten n = s.enterFaulted n 0x80 := by
  rcases h with h | h | h <;> simp only [State.faultWritten, h]

theorem faultWritten_loaded (h : (s.site n).tstate = .loaded) : s.faultWritten n = s.requestSave n .fault := by
  simp only [State.faultWritten, h]

theorem faultWritten_none (h : (s.site n).tstate = .absent ∨ (s.site n).tstate = .faulted) : s.faultWritten n = s := by
  rcases h with h | h <;> simp only [State.faultWritten, h]

theorem resume_event (hold : Bool) (h : (s.site n).tstate = .faulted) :
    SiteEvent n s (s.resume n hold) (intoState (s.site n) (restFor (s.site n) hold)) (s.reg (.site n .ctrl))
    ∧ ∀ k, bitAt ((s.resume n hold).reg (.site n .faultInfo)) k = (decide (8 ≤ k) && bitAt (s.reg (.site n .faultInfo)) k) := by
  have he : s.resume n hold = (s.setTState n (restFor (s.site n) hold)).setReg (.site n .faultInfo)
      (setBits (s.reg (.site n .faultInfo)) 7 0 0) := if_pos h
  rw [he]
  refine ⟨(setTState_event s n _).setReg _ (.inr (.inr (.inl rfl))), fun k => ?_⟩
  rw [reg_setReg_same, bitAt_setBits]
  by_cases hk : 8 ≤ k
  · rw [if_neg (by omega), decide_eq_true hk, Bool.true_and]
  · rw [if_pos (by omega), decide_eq_false hk]
    exact Nat.zero_testBit _

/-! ## HOLD -/

theorem holdWritten_agrees (h : s.siteHold n = b) : Agrees s (s.holdWritten n b) := by
  rw [State.holdWritten, h]
  simp only [if_true]
  exact putBit_agrees (by omega) h

theorem holdWritten_put (h : s.siteHold n = false) (hs : (s.site n).tstate = .idle ∨ (s.site n).tstate = .pending) :
    s.holdWritten n true = (s.putBit (.site n .ctrl) 1 true).setTState n .held := by
  rcases hs with hs | hs <;> simp [State.holdWritten, h, hs]

theorem holdWritten_loaded (h : s.siteHold n = false) (hs : (s.site n).tstate = .loaded) :
    s.holdWritten n true = (s.putBit (.site n .ctrl) 1 true).requestSave n .hold := by
  simp [State.holdWritten, h, hs]

theorem holdWritten_mark (h : s.siteHold n = false)
    (hs : (s.site n).tstate = .absent ∨ (s.site n).tstate = .held ∨ (s.site n).tstate = .faulted) :
    s.holdWritten n true = s.putBit (.site n .ctrl) 1 true := by
  rcases hs with hs | hs | hs <;> simp [State.holdWritten, h, hs]

/-- HOLD set: a tenant at rest is held, and the save of a loaded one is asked for (Table 3.7). -/
theorem holdWritten_set (h : s.siteHold n = false) : ∃ v,
    SiteEvent n s (s.holdWritten n true) v (setBit (s.reg (.site n .ctrl)) 1 true)
    ∧ ((s.site n).tstate = .idle ∨ (s.site n).tstate = .pending → v = intoState (s.site n) .held)
    ∧ ((s.site n).tstate = .loaded → v = { s.site n with save := some (SaveReason.over (s.site n).save .hold) })
    ∧ v.txn = (s.site n).txn := by
  have hput := SiteEvent.putCtrl s n 1 true
  cases hs : (s.site n).tstate with
  | idle =>
    have hheld := setTState_event (s.putBit (.site n .ctrl) 1 true) n .held
    rw [hput.site, hput.ctrl] at hheld
    rw [holdWritten_put h (.inl hs)]
    exact ⟨_, hput.trans hheld, by simp, by simp, rfl⟩
  | pending =>
    have hheld := setTState_event (s.putBit (.site n .ctrl) 1 true) n .held
    rw [hput.site, hput.ctrl] at hheld
    rw [holdWritten_put h (.inr hs)]
    exact ⟨_, hput.trans hheld, by simp, by simp, rfl⟩
  | loaded =>
    have hsave := requestSave_event (s := s.putBit (.site n .ctrl) 1 true) (n := n) (by rw [hput.site]; exact hs) .hold
    rw [hput.site, hput.ctrl] at hsave
    rw [holdWritten_loaded h hs]
    exact ⟨_, hput.trans hsave, by simp, by simp, rfl⟩
  | absent => exact ⟨_, holdWritten_mark h (.inl hs) ▸ hput, by simp, by simp, rfl⟩
  | held => exact ⟨_, holdWritten_mark h (.inr (.inl hs)) ▸ hput, by simp, by simp, rfl⟩
  | faulted => exact ⟨_, holdWritten_mark h (.inr (.inr hs)) ▸ hput, by simp, by simp, rfl⟩

/-- HOLD cleared: a held tenant goes to the state it rests in, and any other stays (Table 3.7). -/
theorem holdWritten_clear (h : s.siteHold n = true) : SiteEvent n s (s.holdWritten n false)
    (if (s.site n).tstate = .held then intoState (s.site n) (restFor (s.site n) false) else s.site n)
    (setBit (s.reg (.site n .ctrl)) 1 false) := by
  have hput := SiteEvent.putCtrl s n 1 false
  have hoff : (s.putBit (.site n .ctrl) 1 false).siteHold n = false := by
    rw [State.siteHold, hput.ctrl]
    exact bitAt_setBit_same _ _ _ (by omega)
  by_cases hs : (s.site n).tstate = .held
  · have he : s.holdWritten n false = (s.putBit (.site n .ctrl) 1 false).setTState n (restFor (s.site n) false) := by
      have hrest : (s.putBit (.site n .ctrl) 1 false).restState n = restFor (s.site n) false := by
        rw [restState_eq, hoff, hput.site]
      simp [State.holdWritten, h, hs, hrest]
    have hrest := setTState_event (s.putBit (.site n .ctrl) 1 false) n (restFor (s.site n) false)
    rw [hput.site, hput.ctrl] at hrest
    rw [if_pos hs, he]
    exact hput.trans hrest
  · have he : s.holdWritten n false = s.putBit (.site n .ctrl) 1 false := by simp [State.holdWritten, h, hs]
    rw [if_neg hs, he]
    exact hput

/-! ## AUTO_REPLAY -/

theorem autoWritten_put (h : b = false ∨ (s.site n).txn ≠ .undelivered) : s.autoWritten n b = s.putBit (.site n .ctrl) 2 b := by
  have hsite : (s.putBit (.site n .ctrl) 2 b).site n = s.site n := rfl
  simp only [State.autoWritten, hsite]
  rcases h with h | h <;> simp [h]

/-! ## The whole write -/

/-- What a write of SB_CTRL with lane 0 takes of HOLD, of EN set, and of AUTO_REPLAY. -/
def takeBits (s : State) (n : SiteId) (d : Word32) : State :=
  (if bitAt d 0 then (s.holdWritten n (bitAt d 1)).en1 n else s.holdWritten n (bitAt d 1)).autoWritten n (bitAt d 2)

theorem sbCtrlWrite_eq (s : State) (n : SiteId) (be : BitVec 4) (d : Word32) : s.sbCtrlWrite n be d =
    (let hold := if be.getLsbD 0 then bitAt d 1 else s.siteHold n
     let s0 := if be.getLsbD 0 && !bitAt d 0 then s.en0 n else s
     let s1 := if be.getLsbD 1 && bitAt d 8 then s0.faultWritten n else s0
     let s2 := if be.getLsbD 1 && bitAt d 9 then s1.resume n hold else s1
     let s3 := if be.getLsbD 0 then takeBits s2 n d else s2
     if be.getLsbD 1 && bitAt d 10 then s3.ctrClear n else s3) := by
  rw [State.sbCtrlWrite]
  cases be.getLsbD 0 <;> rfl

/-- Bits that SB_CTRL holds already, of a tenant with nothing undelivered, change nothing. -/
theorem takeBits_agrees (h0 : bitAt d 0 = true → bitAt (s.reg (.site n .ctrl)) 0 = true)
    (h1 : bitAt d 1 = bitAt (s.reg (.site n .ctrl)) 1) (h2 : bitAt d 2 = bitAt (s.reg (.site n .ctrl)) 2)
    (ht : (s.site n).txn ≠ .undelivered) : Agrees s (takeBits s n d) := by
  have hhold := holdWritten_agrees (s := s) (n := n) h1.symm
  have hen : (if bitAt d 0 then (s.holdWritten n (bitAt d 1)).en1 n else s.holdWritten n (bitAt d 1)) = s.holdWritten n (bitAt d 1) := by
    by_cases hd : bitAt d 0 = true
    · rw [if_pos hd, en1_on]
      rw [State.siteEn, hhold.2, h0 hd]
    · rw [if_neg hd]
  rw [takeBits, hen, autoWritten_put (.inr (by rw [hhold.site]; exact ht))]
  exact hhold.trans (putBit_agrees (by omega) (by rw [hhold.2]; exact h2.symm))

end Sys2Proof.Laws
end

section
/-! SUPPORT. Writes of SB_CTRL that carry one event (spec/03 Table 3.7). -/

namespace Sys2Proof.Laws

open Sys2Proof Sys2Proof.Machine

variable {s t u : State} {n : SiteId} {be : BitVec 4} {d c c' : Word32} {k : Nat} {b : Bool} {v v' : Site} {r : Reg}

/-! ## Writes that carry one event -/

/-- A write of SB_CTRL that carries no event of lane 1. -/
theorem sbCtrlWrite_bits (hl : be.getLsbD 0 = true) (h8 : (be.getLsbD 1 && bitAt d 8) = false)
    (h9 : (be.getLsbD 1 && bitAt d 9) = false) (h10 : (be.getLsbD 1 && bitAt d 10) = false) :
    s.sbCtrlWrite n be d = takeBits (if bitAt d 0 then s else s.en0 n) n d := by
  rw [sbCtrlWrite_eq, h8, h9, h10, hl]
  cases bitAt d 0 <;> rfl

/-- One that keeps EN as well. -/
theorem sbCtrlWrite_bits_en (hl : be.getLsbD 0 = true) (h8 : (be.getLsbD 1 && bitAt d 8) = false)
    (h9 : (be.getLsbD 1 && bitAt d 9) = false) (h10 : (be.getLsbD 1 && bitAt d 10) = false)
    (h0 : bitAt d 0 = s.siteEn n) : s.sbCtrlWrite n be d = takeBits s n d := by
  rw [sbCtrlWrite_bits hl h8 h9 h10, h0]
  cases hen : s.siteEn n with
  | true => rfl
  | false => rw [en0_off hen, ite_self]

/-- EN set where it is clear: the tenant is installed where both bases are set, and refused otherwise (R73, Table 3.7). -/
theorem en1_event (h : s.siteEn n = false) : ∃ v b,
    SiteEvent n s (s.en1 n) v (setBit (s.reg (.site n .ctrl)) 0 b) ∧ v.txn = (s.site n).txn
    ∧ (s.ctxBaseSet = true → s.siteBufSet = true → b = true ∧ v = intoState (s.site n) (restFor (s.site n) (s.siteHold n)))
    ∧ ((s.ctxBaseSet = false ∨ s.siteBufSet = false) → b = false ∧ v = s.site n
      ∧ bitAt ((s.en1 n).reg (.site n .status)) 9 = true) := by
  by_cases hset : s.ctxBaseSet = true ∧ s.siteBufSet = true
  · obtain ⟨hc, hb⟩ := hset
    exact ⟨_, _, en1_installs h hc hb, rfl, fun _ _ => ⟨rfl, rfl⟩, by simp [hc, hb]⟩
  · have hno : s.ctxBaseSet = false ∨ s.siteBufSet = false := by
      simpa only [not_and_or, Bool.not_eq_true] using hset
    obtain ⟨hev, hbit⟩ := enRefused_event s n
    have hself : setBit (s.reg (.site n .ctrl)) 0 false = s.reg (.site n .ctrl) := setBit_self _ (by omega) h
    rw [← hself] at hev
    rw [en1_refused h hno]
    exact ⟨s.site n, false, hev, rfl, fun hc hb => absurd ⟨hc, hb⟩ hset, fun _ => ⟨rfl, rfl, hbit⟩⟩

section

variable (ht : (s.site n).txn ≠ .undelivered)

include ht

/-- EN set and no other bit changed does what the event of EN does. -/
theorem takeBits_en1 (h0 : bitAt d 0 = true) (h : s.siteEn n = false) (h1 : bitAt d 1 = s.siteHold n)
    (h2 : bitAt d 2 = bitAt (s.reg (.site n .ctrl)) 2) : ∃ v b,
    SiteEvent n s (takeBits s n d) v (setBit (s.reg (.site n .ctrl)) 0 b)
    ∧ (s.ctxBaseSet = true → s.siteBufSet = true → b = true ∧ v = intoState (s.site n) (restFor (s.site n) (s.siteHold n)))
    ∧ ((s.ctxBaseSet = false ∨ s.siteBufSet = false) → b = false ∧ v = s.site n
      ∧ bitAt ((takeBits s n d).reg (.site n .status)) 9 = true) := by
  have hhold := holdWritten_agrees (s := s) (n := n) h1.symm
  generalize hs1 : s.holdWritten n (bitAt d 1) = s1 at hhold
  obtain ⟨v, b, hev, htxn, hset, hno⟩ := en1_event (s := s1) (n := n) (by rw [State.siteEn, hhold.2]; exact h)
  have hafter : Agrees (s1.en1 n) (takeBits s n d) := by
    rw [takeBits, if_pos h0, hs1, autoWritten_put (.inr (by rw [hev.site, htxn, hhold.site]; exact ht))]
    refine putBit_agrees (by omega) ?_
    rw [hev.ctrl, bitAt_setBit_other _ _ _ _ (by omega), hhold.2, h2]
  rw [hhold.2] at hev
  rw [hhold.site, State.siteHold, hhold.2, hhold.1.keeps State.ctxBaseSet fun _ _ => rfl,
    hhold.1.keeps State.siteBufSet fun _ _ => rfl] at hset
  rw [hhold.site, hhold.1.keeps State.ctxBaseSet fun _ _ => rfl, hhold.1.keeps State.siteBufSet fun _ _ => rfl, ← hafter.2] at hno
  exact ⟨v, b, (SiteEvent.after hhold hev).agrees hafter, hset, hno⟩

/-- What an event leaves is left where the other bits are written as they stand. -/
theorem takeBits_after (hev : SiteEvent n s u v c) (htxn : v.txn = (s.site n).txn) (h0 : bitAt d 0 = true → bitAt c 0 = true)
    (h1 : bitAt d 1 = bitAt c 1) (h2 : bitAt d 2 = bitAt c 2) : Agrees u (takeBits u n d) :=
  takeBits_agrees (by rwa [hev.ctrl]) (by rwa [hev.ctrl]) (by rwa [hev.ctrl]) (by rw [hev.site, htxn]; exact ht)

end

/-- EN cleared: refused in a transaction, and otherwise the tenant is removed or its save is asked for (R75, Table 3.7). -/
theorem en0_event (h : s.siteEn n = true) (hb : s.tide.busy = false) : ∃ v b,
    SiteEvent n s (s.en0 n) v (setBit (s.reg (.site n .ctrl)) 0 b) ∧ v.txn = (s.site n).txn
    ∧ ((s.site n).txn ≠ .idle → b = true ∧ v = s.site n ∧ bitAt ((s.en0 n).reg (.site n .status)) 9 = true)
    ∧ ((s.site n).txn = .idle → (s.site n).tstate ≠ .loaded → b = false ∧ v = intoState (s.site n) .absent)
    ∧ ((s.site n).txn = .idle → (s.site n).tstate = .loaded → b = true
      ∧ v = { s.site n with enClear := true, save := some (SaveReason.over (s.site n).save .en0) }) := by
  have hself : setBit (s.reg (.site n .ctrl)) 0 true = s.reg (.site n .ctrl) := setBit_self _ (by omega) h
  by_cases hx : (s.site n).txn = .idle
  · by_cases hl : (s.site n).tstate = .loaded
    · have hev := en0_loaded h hx hl
      rw [← hself] at hev
      exact ⟨_, true, hev, rfl, fun hn => absurd hx hn, fun _ hn => absurd hl hn, fun _ _ => ⟨rfl, rfl⟩⟩
    · exact ⟨_, false, en0_removes h hx hl hb, rfl, fun hn => absurd hx hn, fun _ _ => ⟨rfl, rfl⟩, fun _ hn => absurd hn hl⟩
  · obtain ⟨hev, hbit⟩ := enRefused_event s n
    rw [← hself] at hev
    rw [en0_txn h hx]
    exact ⟨_, true, hev, rfl, fun _ => ⟨rfl, rfl, hbit⟩, fun hn => absurd hn hx, fun hn => absurd hn hx⟩

/-- EN cleared and no other bit changed does what the event of EN does. -/
theorem takeBits_en0 (ht : (s.site n).txn ≠ .undelivered) (hb : s.tide.busy = false) (h0 : bitAt d 0 = false)
    (h1 : bitAt d 1 = s.siteHold n) (h2 : bitAt d 2 = bitAt (s.reg (.site n .ctrl)) 2) (h : s.siteEn n = true) :
    Agrees (s.en0 n) (takeBits (s.en0 n) n d) := by
  obtain ⟨v, b, hev, htxn, -⟩ := en0_event h hb
  refine takeBits_after ht hev htxn (by simp [h0]) ?_ ?_
  · rw [bitAt_setBit_other _ _ _ _ (by omega), h1]; rfl
  · rw [bitAt_setBit_other _ _ _ _ (by omega), h2]

/-- HOLD changed and no other bit: what the event of HOLD leaves is left. -/
theorem takeBits_hold (ht : (s.site n).txn ≠ .undelivered) (hd : bitAt d 1 = b)
    (hev : SiteEvent n s (s.holdWritten n b) v (setBit (s.reg (.site n .ctrl)) 1 b)) (htxn : v.txn = (s.site n).txn)
    (h0 : bitAt d 0 = s.siteEn n) (h2 : bitAt d 2 = bitAt (s.reg (.site n .ctrl)) 2) :
    Agrees (s.holdWritten n b) (takeBits s n d) := by
  have hen : (if bitAt d 0 then (s.holdWritten n b).en1 n else s.holdWritten n b) = s.holdWritten n b := by
    by_cases hd : bitAt d 0 = true
    · rw [if_pos hd, en1_on]
      rw [State.siteEn, hev.ctrl, bitAt_setBit_other _ _ _ _ (by omega)]
      exact h0.symm.trans hd
    · rw [if_neg hd]
  rw [takeBits, hd, hen, autoWritten_put (.inr (by rw [hev.site, htxn]; exact ht))]
  exact putBit_agrees (by omega) (by rw [hev.ctrl, bitAt_setBit_other _ _ _ _ (by omega), h2])

/-- AUTO_REPLAY set and no other bit changed: its event, on a state that agrees with the first. -/
theorem takeBits_auto (h0 : bitAt d 0 = s.siteEn n) (h1 : bitAt d 1 = s.siteHold n) (h2 : bitAt d 2 = true) :
    ∃ s1, Agrees s s1 ∧ takeBits s n d = s1.autoWritten n true := by
  have hhold := holdWritten_agrees (s := s) (n := n) h1.symm
  refine ⟨_, hhold, ?_⟩
  rw [takeBits, h2]
  by_cases hd : bitAt d 0 = true
  · rw [if_pos hd, en1_on]
    rw [State.siteEn, hhold.2]
    exact h0.symm.trans hd
  · rw [if_neg hd]

/-- FAULT: a tenant at rest enters FAULTED with code 0x80, and the save of a loaded one is asked for (Table 3.7). -/
theorem faultWritten_event (s : State) (n : SiteId) : ∃ v,
    SiteEvent n s (s.faultWritten n) v (s.reg (.site n .ctrl)) ∧ v.txn = (s.site n).txn
    ∧ ((s.site n).tstate = .idle ∨ (s.site n).tstate = .pending ∨ (s.site n).tstate = .held → v = intoState (s.site n) .faulted
      ∧ bitsOf ((s.faultWritten n).reg (.site n .faultInfo)) 7 0 = 0x80
      ∧ bitAt ((s.faultWritten n).reg (.site n .attn)) 4 = true
      ∧ bitsOf ((s.faultWritten n).reg (.site n .faultInfo)) 31 16 = min (bitsOf (s.reg (.site n .faultInfo)) 31 16 + 1) 65535
      ∧ bitAt ((s.faultWritten n).reg (.d .irqLinePend)) 7 = true)
    ∧ ((s.site n).tstate = .loaded → v = { s.site n with save := some .fault }) := by
  by_cases hrest : (s.site n).tstate = .idle ∨ (s.site n).tstate = .pending ∨ (s.site n).tstate = .held
  · obtain ⟨hev, hrec⟩ := enterFaulted_event s n (show 0x80 < 256 by omega)
    rw [faultWritten_resting hrest]
    refine ⟨_, hev, rfl, fun _ => ⟨rfl, hrec⟩, fun hl => ?_⟩
    simp [hl] at hrest
  · by_cases hl : (s.site n).tstate = .loaded
    · have hev := requestSave_event hl .fault
      rw [over_fault] at hev
      rw [faultWritten_loaded hl]
      exact ⟨_, hev, rfl, fun h => absurd h hrest, fun _ => rfl⟩
    · have hnone : (s.site n).tstate = .absent ∨ (s.site n).tstate = .faulted := by
        cases hs : (s.site n).tstate <;> simp_all
      rw [faultWritten_none hnone]
      exact ⟨_, .of_agrees n (.refl s), rfl, fun h => absurd h hrest, fun h => absurd h hl⟩

section

variable (hkeep : ∀ k, k < 3 → be.getLsbD 0 = true → bitAt d k = bitAt (s.reg (.site n .ctrl)) k)

include hkeep

/-- A write that keeps EN does not clear it. -/
theorem en0_kept : (if be.getLsbD 0 && !bitAt d 0 then s.en0 n else s) = s := by
  split
  · next h =>
    obtain ⟨hl, hd⟩ := Bool.and_eq_true_iff.mp h
    refine en0_off ?_
    rw [State.siteEn, ← hkeep 0 (by omega) hl]
    exact (Bool.not_eq_true' _).mp hd
  · rfl

theorem hold_kept : (if be.getLsbD 0 then bitAt d 1 else s.siteHold n) = s.siteHold n := by
  split
  · next h => exact hkeep 1 (by omega) h
  · rfl

/-- What an event of lane 1 leaves is left where EN, HOLD and AUTO_REPLAY are written as they stand. -/
theorem bits_kept (ht : (s.site n).txn ≠ .undelivered) (hev : SiteEvent n s u v (s.reg (.site n .ctrl)))
    (htxn : v.txn = (s.site n).txn) : Agrees u (if be.getLsbD 0 then takeBits u n d else u) := by
  split
  · next h =>
    exact takeBits_after ht hev htxn (fun h0 => by rw [← hkeep 0 (by omega) h, h0]) (hkeep 1 (by omega) h) (hkeep 2 (by omega) h)
  · exact .refl u

variable (ht : (s.site n).txn ≠ .undelivered)

include ht

theorem sbCtrlWrite_fault (h8 : (be.getLsbD 1 && bitAt d 8) = true)
    (h9 : (be.getLsbD 1 && bitAt d 9) = false) (h10 : (be.getLsbD 1 && bitAt d 10) = false) :
    Agrees (s.faultWritten n) (s.sbCtrlWrite n be d) := by
  obtain ⟨v, hev, htxn, -⟩ := faultWritten_event s n
  rw [sbCtrlWrite_eq, en0_kept hkeep, h8, h9, h10]
  exact bits_kept hkeep ht hev htxn

theorem sbCtrlWrite_resume (h8 : (be.getLsbD 1 && bitAt d 8) = false)
    (h9 : (be.getLsbD 1 && bitAt d 9) = true) (h10 : (be.getLsbD 1 && bitAt d 10) = false)
    (hs : (s.site n).tstate = .faulted) : Agrees (s.resume n (s.siteHold n)) (s.sbCtrlWrite n be d) := by
  rw [sbCtrlWrite_eq, en0_kept hkeep, hold_kept hkeep, h8, h9, h10]
  exact bits_kept hkeep ht (resume_event (s.siteHold n) hs).1 rfl

theorem sbCtrlWrite_ctrClear (h8 : (be.getLsbD 1 && bitAt d 8) = false)
    (h9 : (be.getLsbD 1 && bitAt d 9) = false) (h10 : (be.getLsbD 1 && bitAt d 10) = true) :
    ∃ s1, Agrees s s1 ∧ s.sbCtrlWrite n be d = s1.ctrClear n := by
  rw [sbCtrlWrite_eq, en0_kept hkeep, h8, h9, h10]
  exact ⟨_, bits_kept hkeep ht (.of_agrees n (.refl s)) rfl, rfl⟩

end

end Sys2Proof.Laws
end

section
/-! SUPPORT. Reads of memory with their records, and AUTO_REPLAY (spec/14 R336; spec/04 Table 4.7). -/

namespace Sys2Proof.Laws

open Sys2Proof Sys2Proof.Machine

variable {s t u : State} {n : SiteId} {be : BitVec 4} {d c c' : Word32} {k : Nat} {b : Bool} {v v' : Site} {r : Reg}

/-! ## Reads of memory by an agent, and what they record -/

/-- The second state differs from the first in memory, in what it has lost, and in registers other than SB_CTRL at most. -/
def ReadsOnly (s t : State) : Prop :=
  { t with regs := s.regs, mem := s.mem, poison := s.poison, upset := s.upset } = s
    ∧ ∀ n, t.reg (.site n .ctrl) = s.reg (.site n .ctrl)

namespace ReadsOnly

theorem refl (s : State) : ReadsOnly s s := ⟨rfl, fun _ => rfl⟩

theorem trans (h : ReadsOnly s t) (h' : ReadsOnly t u) : ReadsOnly s u := by
  refine ⟨?_, fun n => (h'.2 n).trans (h.2 n)⟩
  have hfields : { ({ u with regs := t.regs, mem := t.mem, poison := t.poison, upset := t.upset } : State) with
      regs := s.regs, mem := s.mem, poison := s.poison, upset := s.upset } = s := by rw [h'.1]; exact h.1
  exact hfields

/-- Whatever depends on none of these stays. -/
theorem keeps {β : Type} (h : ReadsOnly s t) (f : State → β)
    (hf : ∀ v r m p x, f { v with regs := r, mem := m, poison := p, upset := x } = f v) : f t = f s := by
  rw [← hf t s.regs s.mem s.poison s.upset, h.1]

theorem setReg (s : State) (x : Word32) (h : ∀ n, r ≠ .site n .ctrl) : ReadsOnly s (s.setReg r x) :=
  ⟨rfl, fun n => reg_setReg_other _ _ _ _ (h n).symm⟩

theorem bumpSat (s : State) (k : Nat) (h : ∀ n, r ≠ .site n .ctrl) : ReadsOnly s (s.bumpSat r k) := setReg s _ h

theorem orReg (s : State) (x : Word32) (h : ∀ n, r ≠ .site n .ctrl) : ReadsOnly s (s.orReg r x) := setReg s _ h

theorem ite {p : Prop} [Decidable p] (h : ReadsOnly s t) (k : ReadsOnly s u) : ReadsOnly s (if p then t else u) := by
  split
  · exact h
  · exact k

theorem foldl {β : Type} (f : State → β → State) (l : List β) (s : State) (hf : ∀ s b, ReadsOnly s (f s b)) :
    ReadsOnly s (l.foldl f s) :=
  foldl_keeps (ReadsOnly s) f l s (refl s) fun t b h => h.trans (hf t b)

theorem integRec (s : State) (path cause core agent a : Nat) : ReadsOnly s (s.integRec path cause core agent a) :=
  .ite (.setReg _ _ (by simp)) ((((setReg s _ (by simp)).trans (.setReg _ _ (by simp))).trans (.setReg _ _ (by simp))).trans
    (.orReg _ _ (by simp)))

theorem mchk (s : State) (source core : Nat) (boot : Bool) : ReadsOnly s (s.mchk source core boot) :=
  .ite (.setReg _ _ (by simp)) (((setReg s _ (by simp)).trans (.orReg _ _ (by simp))).trans (.orReg _ _ (by simp)))

theorem markFrame (s : State) (f : Nat) (m : Byte) : ReadsOnly s (s.markFrame f m) :=
  .ite (.ite (.bumpSat _ _ (by simp)) ⟨rfl, fun _ => rfl⟩) (.refl s)

theorem touch (s : State) (a len : Nat) (write : Bool) : ReadsOnly s (s.touch a len write) :=
  .foldl _ _ _ fun s f => markFrame s f _

theorem noteUe (s : State) (source a : Nat) (array : BitVec 2) (core agent : Nat) :
    ReadsOnly s (s.noteUe source a array core agent) := by
  have hrec := (integRec s 5 (array.toNat + 1) core agent (wordOf a)).trans (.mchk _ source core (decide (agent = 1)))
  exact .ite ((hrec.trans (.orReg _ _ (by simp))).trans (.orReg _ _ (by simp))) hrec

theorem meet (s : State) (a core agent : Nat) : ReadsOnly s (s.meet a core agent) := by
  unfold State.meet
  split
  · exact .refl s
  · next array _ =>
    have hlost : ReadsOnly s (({ s with upset := s.upset.filter (fun e => decide (e.1 ≠ wordOf a)) } : State).poisonWord (wordOf a)) :=
      ⟨rfl, fun _ => rfl⟩
    exact hlost.trans (.noteUe _ _ _ _ _ _)

theorem countPoison (s : State) (core agent : Nat) (ws : List Nat) : ReadsOnly s (s.countPoison core agent ws) :=
  .foldl _ _ _ fun s w => .ite (.meet s w core agent) (.bumpSat s 1 (by simp))

theorem consumeAll (s : State) (path core agent : Nat) (ws : List Nat) : ReadsOnly s (s.consumeAll path core agent ws) := by
  cases ws with
  | nil => exact .refl s
  | cons w ws =>
    have hfirst : ReadsOnly s (s.usePoison path core agent w) :=
      .ite (.meet s w core agent) ((bumpSat s 1 (by simp)).trans (.integRec _ _ _ _ _ _))
    exact hfirst.trans (.countPoison _ core agent ws)

theorem readVault (s : State) (m : SiteId) : ReadsOnly s (s.readVault m) :=
  .ite ((consumeAll s _ _ _ _).trans (.touch _ _ _ _)) (.refl s)

end ReadsOnly

/-! ## Frames sent again (Table 4.7) -/

/-- What sending frames leaves: the tenants, the contexts, SB_CTRL, and whether the chip stands in reset; out of reset a number
of frames has been sent. -/
structure Sends (k : Nat) (s t : State) : Prop where
  sites : t.sites = s.sites
  ctxs : t.ctxs = s.ctxs
  inReset : t.inReset = s.inReset
  ctrl : ∀ n, t.reg (.site n .ctrl) = s.reg (.site n .ctrl)
  sent : s.inReset = false → t.sent.length = s.sent.length + k

theorem ReadsOnly.sends (h : ReadsOnly s t) : Sends 0 s t :=
  ⟨h.keeps State.sites fun _ _ _ _ _ => rfl, h.keeps State.ctxs fun _ _ _ _ _ => rfl, h.keeps State.inReset fun _ _ _ _ _ => rfl,
    h.2, fun _ => congrArg List.length (h.keeps State.sent fun _ _ _ _ _ => rfl)⟩

theorem Sends.trans {j : Nat} (h : Sends k s t) (h' : Sends j t u) : Sends (k + j) s u :=
  ⟨h'.sites.trans h.sites, h'.ctxs.trans h.ctxs, h'.inReset.trans h.inReset, fun n => (h'.ctrl n).trans (h.ctrl n), fun hr => by
    rw [h'.sent (h.inReset.trans hr), h.sent hr, Nat.add_assoc]⟩

theorem sendFrame_sends (s : State) (l : LinkId) (x : StationId) (type : Nat) (absent invert : Bool) (seq : BitVec 24)
    (utype : Byte) (payload : List Byte) : Sends 1 s (s.sendFrame l x type absent invert seq utype payload) := by
  cases hr : s.inReset with
  | true =>
    rw [sendFrame_inReset _ _ _ _ _ _ _ _ _ hr]
    exact ⟨rfl, rfl, rfl, fun _ => rfl, by simp [hr]⟩
  | false =>
    simp only [State.sendFrame, hr, Bool.false_eq_true, if_false]
    exact ⟨rfl, rfl, rfl, fun _ => rfl, fun _ => List.length_append⟩

theorem sendHeld_sends (s : State) (n : SiteId) (f : OutFrame) : Sends 1 s (s.sendHeld n f) := by
  unfold State.sendHeld
  dsimp only
  have hframe := (sendFrame_sends s (s.siteLink n).1 (s.siteLink n).2 frameData false
    (!(s.poisonWords (s.holdSlot n f.slot) (16 + f.len)).isEmpty) f.seq f.utype (s.memRead (s.holdSlot n f.slot + 16) f.len)).trans
    (ReadsOnly.touch _ (s.holdSlot n f.slot) (16 + f.len) false).sends
  split
  · exact hframe
  · exact hframe.trans (((ReadsOnly.countPoison _ _ _ _).trans (.bumpSat _ _ (by simp))).trans (.integRec _ _ _ _ _ _)).sends

theorem resend_sends (s : State) (n : SiteId) (fs : List OutFrame) : Sends fs.length s (s.resend n fs) := by
  induction fs generalizing s with
  | nil => exact (ReadsOnly.refl s).sends
  | cons f fs ih =>
    have hone := (sendHeld_sends s n f).trans
      (ReadsOnly.bumpSat (r := .link (s.siteLink n).1 .retry) _ 1 (by simp)).sends
    rw [List.length_cons, Nat.add_comm]
    exact hone.trans (ih _)

theorem setAttn_ctrl (s : State) (n m : SiteId) (k : Nat) : (s.setAttn n k).reg (.site m .ctrl) = s.reg (.site m .ctrl) := by
  rw [State.setAttn]
  cases attnLine k with
  | none => exact reg_orReg_other _ _ _ _ (by simp)
  | some l => exact (reg_setLine_other l (by simp)).trans (reg_orReg_other _ _ _ _ (by simp))

theorem useSlot_reg (s : State) (k : Nat) (r : Reg) : (s.useSlot k).reg r = s.reg r := rfl

/-- An append that begins, or does not, leaves SB_CTRL. -/
theorem tryBegin_ctrl (s : State) (n m : SiteId) : (s.tryBegin n).reg (.site m .ctrl) = s.reg (.site m .ctrl) := by
  unfold State.tryBegin
  split
  · rfl
  · dsimp only
    split_ifs
    · rfl
    · rfl
    · exact setAttn_ctrl _ n m 6
    · rfl
    · split
      · rfl
      · exact (useSlot_reg _ _ _).trans ((setSite_reg _ _ _ _).trans ((ReadsOnly.readVault s n).2 m))
    · split
      · rfl
      · exact (useSlot_reg _ _ _).trans (setSite_reg _ _ _ _)

theorem startSettle_ctrl (s : State) (n m : SiteId) : (s.startSettle n).reg (.site m .ctrl) = s.reg (.site m .ctrl) := by
  unfold State.startSettle
  dsimp only
  split
  · exact tryBegin_ctrl _ n m
  · rfl

/-- A settlement waits for what is unacknowledged (Table 4.7). -/
theorem startSettle_waits (h : (s.site n).unacked ≠ []) : s.startSettle n = s := by
  refine if_neg ?_
  rintro ⟨-, hnone, -⟩
  exact h (List.isEmpty_iff.mp hnone)

/-! ## AUTO_REPLAY set -/

/-- A tenant whose frames are to be sent again (Table 4.7). -/
def replaying (s : State) (n : SiteId) : State :=
  (s.putBit (.site n .ctrl) 2 true).upSite n (fun v => { v with txn := .replaying, armed := false })

theorem autoWritten_ctrl (s : State) (n : SiteId) :
    (s.autoWritten n true).reg (.site n .ctrl) = setBit (s.reg (.site n .ctrl)) 2 true := by
  have hput : (s.putBit (.site n .ctrl) 2 true).reg (.site n .ctrl) = setBit (s.reg (.site n .ctrl)) 2 true := reg_setReg_same _ _ _
  unfold State.autoWritten
  dsimp only
  split
  · exact (startSettle_ctrl _ n n).trans (((resend_sends (replaying s n) n _).ctrl n).trans hput)
  · exact hput

theorem stationUp_congr (hl : t.links = s.links) (hr : ∀ m, t.reg (.site m .link) = s.reg (.site m .link)) :
    t.stationUp n = s.stationUp n := by
  have hlink : t.siteLink = s.siteLink := funext fun m => by simp only [State.siteLink, hr]
  unfold State.stationUp State.isFed State.fedSite State.station State.link
  rw [hlink, hl]

/-- AUTO_REPLAY set where frames stand undelivered to a station that is up: each is sent again (Table 4.7). -/
theorem autoWritten_replays (hx : (s.site n).txn = .undelivered) (hw : (s.site n).woffPending = false)
    (hu : (s.site n).unacked ≠ []) (hup : s.stationUp n = true) (hr : s.inReset = false) :
    (s.autoWritten n true).site n = { s.site n with txn := .replaying, armed := false }
    ∧ (s.autoWritten n true).sent.length = s.sent.length + (s.site n).unacked.length
    ∧ (s.autoWritten n true).ctxs = s.ctxs := by
  have hup' : (s.putBit (.site n .ctrl) 2 true).stationUp n = true :=
    (stationUp_congr (s := s) (t := s.putBit (.site n .ctrl) 2 true) rfl fun m =>
      reg_setReg_other s _ _ _ (by simp)).trans hup
  have hsends := resend_sends (replaying s n) n (s.site n).unacked
  have hmark : (replaying s n).site n = { s.site n with txn := .replaying, armed := false } := by
    rw [replaying, State.upSite, site_setSite_same]
    rfl
  have hsite : ((replaying s n).resend n (s.site n).unacked).site n = { s.site n with txn := .replaying, armed := false } := by
    rw [← hmark, State.site, hsends.sites]
    rfl
  have hwait := startSettle_waits (s := (replaying s n).resend n (s.site n).unacked) (n := n) (by rw [hsite]; exact hu)
  have he : s.autoWritten n true = (replaying s n).resend n (s.site n).unacked := by
    have hput : (s.putBit (.site n .ctrl) 2 true).site n = s.site n := rfl
    simp only [State.autoWritten, hput, hx, hw, hup']
    exact hwait
  rw [he]
  exact ⟨hsite, hsends.sent hr, hsends.ctxs⟩

end Sys2Proof.Laws
end

section
/-! SUPPORT. Commands that write SB_CTRL. -/

namespace Sys2Proof.Laws

open Sys2Proof Sys2Proof.Machine

variable {s t u : State} {n : SiteId} {be : BitVec 4} {d c c' : Word32} {k : Nat} {b : Bool} {v v' : Site} {r : Reg}

/-! ## Commands that write SB_CTRL -/

theorem bitAt_setBit {w : Nat} (x : BitVec w) (e k : Nat) (b : Bool) (he : e < w) :
    bitAt (setBit x e b) k = if k = e then b else bitAt x k := by
  by_cases h : k = e
  · rw [if_pos h, h, bitAt_setBit_same x e b he]
  · rw [if_neg h, bitAt_setBit_other x e k b h]

theorem writes1_lanes (a : Access) (d : Word32) (hk : k < 32) :
    writes1 a d k = ((lanesOf a).getLsbD (k / 8) && bitAt d k) := by
  rw [writes1, seen, bitAt, BitVec.getLsbD_and, Bool.and_comm]
  exact congrArg (· && _) (bitAt_laneMask hk)

theorem lanes_of_writes0 {a : Access} (hk : k < 32) (h : writes0 a d k = true) :
    (lanesOf a).getLsbD (k / 8) = true ∧ bitAt d k = false := by
  rw [writes0, bitAt_laneMask hk, Bool.and_eq_true, Bool.not_eq_true'] at h
  exact h

theorem lanes_of_writes1 {a : Access} (hk : k < 32) (h : writes1 a d k = true) :
    (lanesOf a).getLsbD (k / 8) = true ∧ bitAt d k = true := by
  rw [writes1_lanes a d hk, Bool.and_eq_true] at h
  exact h

/-- A command that makes a write of SB_CTRL completes with what the write does. -/
theorem next_sbCtrl {a : Access} {p : Bool} (hr : s.reaches a (.site n .ctrl) d = true) (hp : p = true) :
    (.next (if p then s.writeReg a (.site n .ctrl) d else s) : Out) = .next ((s.sbCtrlWrite n (lanesOf a) d).complete a) :=
  congrArg _ ((if_pos hp).trans (writeReg_live hr rfl rfl (by simp) rfl))

end Sys2Proof.Laws
end

section
/-! PROOFS. Events of SB_CTRL (O45). -/

namespace Sys2Proof.Proofs.SiteControl

open Sys2Proof Sys2Proof.Machine Sys2Proof.Laws

/-- The bits of SB_CTRL after an event that gives one of them a value. -/
theorem bits_of_event {s t : State} {n : SiteId} {c : Word32} {v : Site} {e : Nat} {b : Bool}
    (h : SiteEvent n s t v (setBit c e b)) (he : e < 32) (k : Nat) :
    bitAt (t.reg (.site n .ctrl)) k = if k = e then b else bitAt c k := by
  rw [h.ctrl, bitAt_setBit c e k b he]

/-- The events of lane 1 in a write that carries one event at most. -/
theorem lane1_events {a : Access} {d : Word32} {e : Nat}
    (h : ∀ k, k = 8 ∨ k = 9 ∨ k = 10 → writes1 a d k = decide (k = e)) :
    ((lanesOf a).getLsbD 1 && bitAt d 8) = decide (8 = e) ∧ ((lanesOf a).getLsbD 1 && bitAt d 9) = decide (9 = e)
    ∧ ((lanesOf a).getLsbD 1 && bitAt d 10) = decide (10 = e) :=
  ⟨(writes1_lanes a d (by omega)).symm.trans (h 8 (.inl rfl)), (writes1_lanes a d (by omega)).symm.trans (h 9 (.inr (.inl rfl))),
    (writes1_lanes a d (by omega)).symm.trans (h 10 (.inr (.inr rfl)))⟩

/-- Settles O45, event by event: each write does what its one event does, and a bit that is written as it stands does nothing. -/
theorem siteControlEvents : Obligations.SiteControlEvents := by
  unfold Obligations.SiteControlEvents
  refine fun s a n d hr hb => ⟨?en1, ?en0, ?fault, ?resume, ?hold1, ?hold0, ?auto, ?ctr⟩
  case en1 =>
    intro ht honly hkeep hw h0
    obtain ⟨h8, h9, h10⟩ := lane1_events honly
    obtain ⟨hl, hd⟩ := lanes_of_writes1 (by omega) hw
    obtain ⟨v, b, hev, hset, hno⟩ := takeBits_en1 ht hd h0 (hkeep 1 (by omega) (by omega) hl) (hkeep 2 (by omega) (by omega) hl)
    have hwrite : s.sbCtrlWrite n (lanesOf a) d = takeBits s n d := (sbCtrlWrite_bits hl h8 h9 h10).trans (by rw [if_pos hd])
    have hdone := hev.complete a
    refine ⟨_, next_sbCtrl hr hw, ?_⟩
    rw [hwrite]
    refine ⟨hdone.frame, fun hc hs => ?_, fun hn => ?_⟩
    · obtain ⟨rfl, rfl⟩ := hset hc hs
      exact ⟨bits_of_event hdone (by omega), hdone.site⟩
    · obtain ⟨rfl, rfl, hstatus⟩ := hno hn
      exact ⟨bits_of_event hdone (by omega), hdone.site, by rwa [complete_reg]⟩
  case en0 =>
    intro ht honly hkeep hw h0
    obtain ⟨h8, h9, h10⟩ := lane1_events honly
    obtain ⟨hl, hd⟩ := lanes_of_writes0 (by omega) hw
    obtain ⟨v, b, hev, -, htxn, habsent, hloaded⟩ := en0_event h0 hb
    have hafter := takeBits_en0 ht hb hd (hkeep 1 (by omega) (by omega) hl) (hkeep 2 (by omega) (by omega) hl) h0
    have hwrite : s.sbCtrlWrite n (lanesOf a) d = takeBits (s.en0 n) n d :=
      (sbCtrlWrite_bits hl h8 h9 h10).trans (by rw [hd]; rfl)
    have hdone := (hev.agrees hafter).complete a
    refine ⟨_, next_sbCtrl hr hw, ?_⟩
    rw [hwrite]
    refine ⟨hdone.frame, fun hx => ?_, fun hx hs => ?_, fun hx hs => ?_⟩
    · obtain ⟨rfl, rfl, hstatus⟩ := htxn hx
      exact ⟨bits_of_event hdone (by omega), hdone.site, by rwa [complete_reg, hafter.2]⟩
    · obtain ⟨rfl, rfl⟩ := habsent hx hs
      exact ⟨bits_of_event hdone (by omega), hdone.site⟩
    · obtain ⟨rfl, rfl⟩ := hloaded hx hs
      exact ⟨bits_of_event hdone (by omega), hdone.site⟩
  case fault =>
    intro ht honly hkeep hw
    obtain ⟨h8, h9, h10⟩ := lane1_events honly
    obtain ⟨v, hev, -, hrest, hloaded⟩ := faultWritten_event s n
    have hafter := sbCtrlWrite_fault (fun k hk => hkeep k hk (by omega)) ht h8 h9 h10
    have hdone := (hev.agrees hafter).complete a
    refine ⟨_, next_sbCtrl hr hw, hdone.frame, fun hs => ?_, fun hs => hdone.site.trans (hloaded hs)⟩
    rw [hdone.site, complete_reg, complete_reg, complete_reg, hafter.2, hafter.2, hafter.2]
    exact hrest hs
  case resume =>
    intro ht honly hkeep hw hs
    obtain ⟨h8, h9, h10⟩ := lane1_events honly
    obtain ⟨hev, hinfo⟩ := resume_event (s.siteHold n) hs
    have hafter := sbCtrlWrite_resume (fun k hk => hkeep k hk (by omega)) ht h8 h9 h10 hs
    have hdone := (hev.agrees hafter).complete a
    refine ⟨_, next_sbCtrl hr hw, hdone.frame, hdone.site, fun k => ?_⟩
    rw [complete_reg, hafter.2]
    exact hinfo k
  case hold1 =>
    intro ht honly hkeep hw h0
    obtain ⟨h8, h9, h10⟩ := lane1_events honly
    obtain ⟨hl, hd⟩ := lanes_of_writes1 (by omega) hw
    obtain ⟨v, hev, hheld, hloaded, htxn⟩ := holdWritten_set h0
    have hen := hkeep 0 (by omega) (by omega) hl
    have hafter := takeBits_hold ht hd hev htxn hen (hkeep 2 (by omega) (by omega) hl)
    have hdone := (hev.agrees hafter).complete a
    refine ⟨_, next_sbCtrl hr hw, ?_⟩
    rw [sbCtrlWrite_bits_en hl h8 h9 h10 hen]
    exact ⟨hdone.frame, bits_of_event hdone (by omega), fun hs => hdone.site.trans (hheld hs),
      fun hs => hdone.site.trans (hloaded hs)⟩
  case hold0 =>
    intro ht honly hkeep hw h0
    obtain ⟨h8, h9, h10⟩ := lane1_events honly
    obtain ⟨hl, hd⟩ := lanes_of_writes0 (by omega) hw
    have hev := holdWritten_clear h0
    have hen := hkeep 0 (by omega) (by omega) hl
    have hafter := takeBits_hold ht hd hev (by split <;> rfl) hen (hkeep 2 (by omega) (by omega) hl)
    have hdone := (hev.agrees hafter).complete a
    refine ⟨_, next_sbCtrl hr hw, ?_⟩
    rw [sbCtrlWrite_bits_en hl h8 h9 h10 hen]
    exact ⟨hdone.frame, bits_of_event hdone (by omega), fun hs => hdone.site.trans (if_pos hs),
      fun hs => hdone.site.trans (if_neg hs)⟩
  case auto =>
    intro honly hkeep hw
    obtain ⟨h8, h9, h10⟩ := lane1_events honly
    obtain ⟨hl, hd⟩ := lanes_of_writes1 (by omega) hw
    have hen := hkeep 0 (by omega) (by omega) hl
    obtain ⟨s1, hs1, hauto⟩ := takeBits_auto hen (hkeep 1 (by omega) (by omega) hl) hd
    have hwrite := (sbCtrlWrite_bits_en hl h8 h9 h10 hen).trans hauto
    have hcases (hx : (s.site n).txn ≠ .undelivered) : SiteEvent n s ((s1.autoWritten n true).complete a) (s.site n)
        (setBit (s.reg (.site n .ctrl)) 2 true) := by
      have hput := SiteEvent.putCtrl s1 n 2 true
      rw [hs1.site, hs1.2] at hput
      rw [autoWritten_put (.inr (by rwa [hs1.site]))]
      exact (SiteEvent.after hs1 hput).complete a
    refine ⟨(s.sbCtrlWrite n (lanesOf a) d).complete a, next_sbCtrl hr hw, ?_⟩
    rw [hwrite]
    refine ⟨fun k => ?_, fun hx => ⟨(hcases hx).frame, (hcases hx).site⟩, fun hx hwoff hun hup hres => ?_⟩
    · rw [complete_reg, autoWritten_ctrl, hs1.2, bitAt_setBit _ _ _ _ (by omega)]
    · have hup1 : s1.stationUp n = true :=
        (stationUp_congr (s := s) (hs1.1.keeps State.links fun _ _ => rfl) fun m => hs1.2 _).trans hup
      have hrep := autoWritten_replays (s := s1) (n := n) (by rw [hs1.site]; exact hx) (by rw [hs1.site]; exact hwoff)
        (by rw [hs1.site]; exact hun) hup1
        ((hs1.1.keeps State.inReset fun _ _ => rfl).trans hres)
      rw [hs1.site, hs1.1.keeps State.sent fun _ _ => rfl, hs1.1.ctxs] at hrep
      rw [complete_keeps (State.site · n) fun _ _ => rfl, complete_keeps State.sent fun _ _ => rfl,
        complete_keeps State.ctxs fun _ _ => rfl]
      exact hrep
  case ctr =>
    intro ht honly hkeep hw
    obtain ⟨h8, h9, h10⟩ := lane1_events honly
    obtain ⟨s1, hs1, hwrite⟩ := sbCtrlWrite_ctrClear (fun k hk => hkeep k hk (by omega)) ht h8 h9 h10
    have hdone := (SiteEvent.after hs1 (.upSite s1 n (fun v => { v with clearPending := true }))).complete a
    refine ⟨_, next_sbCtrl hr hw, ?_⟩
    rw [hwrite]
    exact ⟨hdone.frame, hdone.site.trans (by rw [hs1.site])⟩

end Sys2Proof.Proofs.SiteControl
end

section
/-! SUPPORT. Marks of frames, and writes of an agent that drop no word (spec/11 R278, R280; spec/14 R337). -/

namespace Sys2Proof.Laws

open Sys2Proof Sys2Proof.Machine

variable {s t u : State} {n : SiteId} {x y : CtxId} {c : CoreId} {be : BitVec 4} {d : Word32} {a b k len : Nat} {r : Reg}

/-! ## REF and CHG of an agent's accesses -/

theorem inKeyArray_congr (h : ∀ r, r = .d .keyBaseLo ∨ r = .d .keyBaseHi ∨ r = .g .dramStatus → t.reg r = s.reg r) :
    t.inKeyArray b = s.inKeyArray b := by
  unfold State.inKeyArray State.keyV State.keyBase State.pairBase State.dramSize State.channels
  rw [h _ (.inl rfl), h _ (.inr (.inl rfl)), h _ (.inr (.inr rfl))]

/-- The second state differs from the first in the bytes of the key array and in the count of dropped marks at most. -/
structure MarksOnly (s t : State) : Prop where
  fields : { t with regs := s.regs, mem := s.mem } = s
  reg : ∀ r, r ≠ .d .integPoisonDrop → t.reg r = s.reg r
  memByte : ∀ b, s.inKeyArray b = false → t.memByte b = s.memByte b

namespace MarksOnly

/-- Whatever depends on neither registers nor memory stays. -/
theorem keeps {β : Type} (h : MarksOnly s t) (f : State → β) (hf : ∀ v r m, f { v with regs := r, mem := m } = f v) : f t = f s := by
  rw [← hf t s.regs s.mem, h.fields]

theorem inKeyArray (h : MarksOnly s t) (b : Nat) : t.inKeyArray b = s.inKeyArray b :=
  inKeyArray_congr (fun r hr => h.reg r (by rcases hr with rfl | rfl | rfl <;> simp))

theorem refl (s : State) : MarksOnly s s := ⟨rfl, fun _ _ => rfl, fun _ _ => rfl⟩

theorem trans (h : MarksOnly s t) (h' : MarksOnly t u) : MarksOnly s u := by
  refine ⟨?_, fun r hr => (h'.reg r hr).trans (h.reg r hr), fun b hb => ?_⟩
  · have hfields : { ({ u with regs := t.regs, mem := t.mem } : State) with regs := s.regs, mem := s.mem } = s := by
      rw [h'.fields]; exact h.fields
    exact hfields
  · exact (h'.memByte b ((h.inKeyArray b).trans hb)).trans (h.memByte b hb)

theorem markFrame (s : State) (f : Nat) (m : Byte) : MarksOnly s (s.markFrame f m) := by
  refine ⟨?_, fun r hr => ?_, fun b hb => markFrame_memByte m hb⟩
  · unfold State.markFrame
    split_ifs <;> rfl
  · unfold State.markFrame
    split_ifs
    · exact reg_bumpSat_other _ _ hr
    · rfl
    · rfl

theorem foldl (fs : List Nat) (m : Byte) (s : State) : MarksOnly s (fs.foldl (fun s f => s.markFrame f m) s) :=
  foldl_keeps (MarksOnly s) _ fs s (refl s) fun t f h => h.trans (markFrame t f m)

theorem touch (s : State) (a len : Nat) (write : Bool) : MarksOnly s (s.touch a len write) := foldl _ _ s

end MarksOnly

theorem anyPoison_congr (h : t.poison = s.poison) : t.anyPoison a len = s.anyPoison a len := by
  unfold State.anyPoison State.poisoned
  rw [h]

theorem memRead_congr (hp : t.poison = s.poison) (hm : ∀ i, i < len → t.memByte (a + i) = s.memByte (a + i)) :
    t.memRead a len = s.memRead a len := by
  refine List.map_congr_left fun i hi => ?_
  rw [State.poisoned, hp, hm i (List.mem_range.mp hi)]
  rfl

/-! ## A write that drops no word -/

theorem memSetBut_nil (bs : List Byte) (m : List Host.Cell) (a : Nat) : memSetBut m a bs [] = memSetAll m a bs := by
  induction bs generalizing m a with
  | nil => rfl
  | cons v bs ih => exact ih _ _

/-- The words that a write of bytes covers, whose poison it takes away. -/
def coveredWords (a : Nat) (bs : List Byte) : List Nat :=
  (((List.range bs.length).map (fun i => wordOf (a + i))).eraseDups).filter (fun w => covers a bs.length w)

theorem agentWrite_marks (s : State) (a : Nat) (bs : List Byte) : MarksOnly (s.memWrite a bs) (s.agentWrite a bs) := .foldl _ _ _

section

variable {bs : List Byte} (h : s.droppedWords a bs.length = [])

include h

theorem memWrite_whole : s.memWrite a bs = { s with
    mem := memSetAll s.mem a bs, poison := dropPoison s.poison (coveredWords a bs), stale := s.noteStale (coveredWords a bs) } := by
  rw [State.memWrite, h, memSetBut_nil]
  rfl

/-- An agent's write that drops no word changes no byte outside its range and the key array. -/
theorem memByte_agentWrite (hb : s.inKeyArray b = false) :
    (s.agentWrite a bs).memByte b = if a ≤ b ∧ b < a + bs.length then bs.getD (b - a) 0 else s.memByte b := by
  have hkey : (s.memWrite a bs).inKeyArray b = false := by rw [memWrite_whole h]; exact hb
  rw [(agentWrite_marks s a bs).memByte b hkey, memWrite_whole h]
  exact smGet_memSetAll bs s.mem a b

/-- Whatever depends on neither registers nor memory, its poison and its staleness stays. -/
theorem agentWrite_keeps {β : Type} (f : State → β)
    (hf : ∀ v r m p q, f { v with regs := r, mem := m, poison := p, stale := q } = f v) : f (s.agentWrite a bs) = f s := by
  have hmarks := (agentWrite_marks s a bs).keeps f fun v r m => hf v r m v.poison v.stale
  rw [hmarks, memWrite_whole h]
  exact hf s _ _ _ _

theorem agentWrite_reg {r : Reg} (hr : r ≠ .d .integPoisonDrop) : (s.agentWrite a bs).reg r = s.reg r := by
  rw [(agentWrite_marks s a bs).reg r hr, memWrite_whole h]
  rfl

end

end Sys2Proof.Laws
end

section
/-! SUPPORT. The dispatcher's load of a context block (spec/03 R74, R77; spec/05 R128). -/

namespace Sys2Proof.Laws

open Sys2Proof Sys2Proof.Machine

variable {s t u : State} {n : SiteId} {x y : CtxId} {c : CoreId} {be : BitVec 4} {d : Word32} {a b k len : Nat} {r : Reg}

theorem convertDue_idle (h : s.tide.busy = false) : s.convertDue k = s := by
  simp [State.convertDue, h]

theorem smGet_blockRegs {w : Nat} (bs : List Byte) (o m k : Nat) (h : k < m) :
    smGet (blockRegs (w := w) bs o m) 0 k = BitVec.ofNat w (blockSlot bs (o + 8 * k)) := by
  induction m with
  | zero => omega
  | succ m ih =>
    rw [blockRegs, List.range_succ, List.foldl_append, List.foldl_cons, List.foldl_nil]
    by_cases hk : k = m
    · rw [hk, smGet_set_same]
    · rw [smGet_set_other _ _ _ _ _ _ hk]
      exact ih (by omega)

/-- The general registers of a loaded block, of which the first reads 0. -/
theorem loadBlock_getG (v : Ctx) (bs : List Byte) {q : BitVec 5} (h : q ≠ 0) :
    (loadBlock v bs).getG q = BitVec.ofNat 64 (blockSlot bs (0x40 + 8 * q.toNat)) := by
  have hq : q.toNat ≠ 0 := fun hz => h (BitVec.eq_of_toNat_eq hz)
  rw [Ctx.getG, if_neg h]
  exact (smGet_drop_other _ _ _ _ hq).trans (smGet_blockRegs bs 0x40 32 _ q.isLt)

theorem takeNmiWait_none (h : (s.core (coreOf x)).nmiWait = false) : s.takeNmiWait x = s := by
  simp [State.takeNmiWait, h]

/-! ## The dispatcher's load (R74, R77, R128) -/

/-- The dispatcher may read a block for a context: frames are marked, and nothing of the context's last tenant is left. -/
structure ReadyToLoad (s t : State) (x : CtxId) : Prop where
  fields : { t with regs := s.regs, mem := s.mem, snaps := s.snaps, stagedLo := s.stagedLo } = s
  memByte : ∀ b, s.inKeyArray b = false → t.memByte b = s.memByte b
  irqPend : bitAt (t.reg (cxReg x .irqPend)) 0 = false

theorem ReadyToLoad.keeps {β : Type} (h : ReadyToLoad s t x) (f : State → β)
    (hf : ∀ v r m p q, f { v with regs := r, mem := m, snaps := p, stagedLo := q } = f v) : f t = f s := by
  rw [← hf t s.regs s.mem s.snaps s.stagedLo, h.fields]

theorem MarksOnly.readyToLoad (h : MarksOnly s t) : ReadyToLoad s ((t.dropPairs x).clearSiteIrq x) x := by
  have hfields : { ({ t with regs := s.regs, mem := s.mem } : State) with snaps := s.snaps, stagedLo := s.stagedLo } = s := by
    rw [h.fields]
  refine ⟨hfields, h.memByte, ?_⟩
  rw [State.clearSiteIrq, State.clrReg, reg_setReg_same, bitAt, BitVec.getLsbD_and]
  exact Bool.and_false _

/-- What the dispatcher makes of its context with a good block. -/
def loadedCtx (s : State) (n : SiteId) (x : CtxId) (bs : List Byte) : Ctx :=
  { loadBlock (s.ctx x) bs with occ := .tenant n, heldSince := s.time, modes := (s.ctx x).modes + 1 }

theorem loadedCtx_spec (s : State) (n : SiteId) (x : CtxId) (bs : List Byte) : (loadedCtx s n x bs).occ = .tenant n
    ∧ (loadedCtx s n x bs).pc = BitVec.ofNat 48 (blockSlot bs 0) ∧ (loadedCtx s n x bs).csw = BitVec.ofNat 64 (blockSlot bs 8)
    ∧ ∀ r : BitVec 5, r ≠ 0 → (loadedCtx s n x bs).getG r = BitVec.ofNat 64 (blockSlot bs (0x40 + 8 * r.toNat)) :=
  ⟨rfl, rfl, rfl, fun _ hr => loadBlock_getG (s.ctx x) bs hr⟩

section

variable (hp : s.anyPoison (s.blockAddr n) 0x400 = false) (hk : ∀ i, i < 0x400 → s.inKeyArray (s.blockAddr n + i) = false)

include hp hk

/-- The load reads its block as it stands. -/
theorem loadTenant_reads : ∃ t, ReadyToLoad s t x ∧ s.loadTenant n x = (let bs := s.memRead (s.blockAddr n) 0x400
    if !blockCswGood n (blockSlot bs 8) then t.enterFaulted n 2
    else (((t.setCtx x (loadedCtx t n x bs)).upSite n
      (fun v => { v with tstate := .loaded, onCtx := x, save := none, quantumAsked := false })).bumpWrap
        (.core (BitVec.ofNat 4 (coreOf x)) .dispatchCount) 1).takeNmiWait x) := by
  have ht := (MarksOnly.touch s (s.blockAddr n) 0x400 false).readyToLoad (x := x)
  unfold State.loadTenant
  dsimp only
  generalize ((s.touch (s.blockAddr n) 0x400 false).dropPairs x).clearSiteIrq x = t at ht
  have hpoison : t.poison = s.poison := ht.keeps State.poison fun _ _ _ _ _ => rfl
  have hread : t.memRead (s.blockAddr n) 0x400 = s.memRead (s.blockAddr n) 0x400 :=
    memRead_congr hpoison fun i hi => ht.memByte _ (hk i hi)
  have hclean : t.anyPoison (s.blockAddr n) 0x400 = false := (anyPoison_congr hpoison).trans hp
  refine ⟨t, ht, ?_⟩
  simp only [hclean, hread, Bool.false_eq_true, if_false]
  rfl

/-- A block with a bad CSW makes its tenant FAULTED with code 2 (R74, R128). -/
theorem loadTenant_bad (hbad : blockCswGood n (blockSlot (s.memRead (s.blockAddr n) 0x400) 8) = false) :
    ∃ t, ReadyToLoad s t x ∧ s.loadTenant n x = t.enterFaulted n 2 := by
  obtain ⟨t, ht, hload⟩ := loadTenant_reads (x := x) hp hk
  simp only [hbad, Bool.not_false, if_true] at hload
  exact ⟨t, ht, hload⟩

variable (hgood : blockCswGood n (blockSlot (s.memRead (s.blockAddr n) 0x400) 8) = true) (hw : (s.core (coreOf x)).nmiWait = false)

include hgood hw

theorem loadTenant_good : ∃ t, ReadyToLoad s t x
    ∧ s.loadTenant n x = ((t.setCtx x (loadedCtx t n x (s.memRead (s.blockAddr n) 0x400))).upSite n
      (fun v => { v with tstate := .loaded, onCtx := x, save := none, quantumAsked := false })).bumpWrap
        (.core (BitVec.ofNat 4 (coreOf x)) .dispatchCount) 1 := by
  obtain ⟨t, ht, hload⟩ := loadTenant_reads (x := x) hp hk
  have hcore (u : State) (hu : u.cores = t.cores) : u.takeNmiWait x = u := by
    refine takeNmiWait_none ?_
    rw [State.core, hu, ht.keeps State.cores fun _ _ _ _ _ => rfl]
    exact hw
  simp only [hgood, Bool.not_true, Bool.false_eq_true, if_false] at hload
  refine ⟨t, ht, hload.trans (hcore _ ?_)⟩
  simp only [State.bumpWrap, State.upSite, setReg_cores, setSite_cores, setCtx_cores]

end

theorem cxReg_ne_dispatchCount (x : CtxId) (c : CoreId) : cxReg x .irqPend ≠ .core c .dispatchCount := by
  unfold cxReg
  split <;> simp

/-- A tenant that is loaded stands in its context, with no arrival and with every other context as it was (R77, R128). -/
theorem loaded_spec (ht : ReadyToLoad s t x) (v : Ctx) (c : CoreId) :
    let u := ((t.setCtx x v).upSite n
      (fun v => { v with tstate := .loaded, onCtx := x, save := none, quantumAsked := false })).bumpWrap (.core c .dispatchCount) 1
    (u.site n).tstate = .loaded ∧ (u.site n).onCtx = x ∧ u.ctx x = v ∧ bitAt (u.reg (cxReg x .irqPend)) 0 = false
    ∧ (∀ y, y ≠ x → u.ctx y = s.ctx y) ∧ ∀ b, s.inKeyArray b = false → u.memByte b = s.memByte b := by
  intro u
  have hsite : u.site n = { t.site n with tstate := .loaded, onCtx := x, save := none, quantumAsked := false } :=
    site_setSite_same (t.setCtx x v) n { t.site n with tstate := .loaded, onCtx := x, save := none, quantumAsked := false }
  refine ⟨by rw [hsite], by rw [hsite], ctx_setCtx_same t x v, ?_, fun y hy => ?_, fun b hb => ht.memByte b hb⟩
  · exact (congrArg (bitAt · 0) (reg_setReg_other _ _ _ _ (cxReg_ne_dispatchCount x c))).trans ht.irqPend
  · exact (ctx_setCtx_other t x y v hy).trans (ht.keeps (State.ctx · y) fun _ _ _ _ _ => rfl)

end Sys2Proof.Laws
end

section
/-! SUPPORT. A save of a tenant (spec/03 R80; spec/05 R129, R130). -/

namespace Sys2Proof.Laws

open Sys2Proof Sys2Proof.Machine

variable {s t u : State} {n : SiteId} {x y : CtxId} {c : CoreId} {be : BitVec 4} {d : Word32} {a b k len : Nat} {q : SaveReason}

/-! ## A save (R80, R129, R130) -/

theorem leBytes_length (m v : Nat) : (leBytes m v).length = m := by simp [leBytes]

theorem flatMap_range_length (f : Nat → List Byte) (m k : Nat) (h : ∀ i, (f i).length = k) :
    ((List.range m).flatMap f).length = m * k := by
  simp [List.length_flatMap, h]

theorem blockBytes_length (v : Ctx) : (blockBytes v).length = 0x400 := by
  have hw (f : Nat → Nat) (m : Nat) : ((List.range m).flatMap (fun i => leBytes 8 (f i))).length = m * 8 :=
    flatMap_range_length _ m 8 fun i => leBytes_length 8 (f i)
  have hd (f : Nat → Nat) (m : Nat) : ((List.range m).flatMap (fun i => beBytes 16 (f i))).length = m * 16 :=
    flatMap_range_length _ m 16 fun i => by rw [beBytes, List.length_reverse, leBytes_length]
  rw [blockBytes, blockImage]
  simp only [List.length_append, leBytes_length, hw, hd, List.length_replicate]

/-- The context that a saved tenant leaves. -/
def freedCtx (v : Ctx) : Ctx := { v.completeLoads with occ := .free, inEncl := none, arrival := .none }

/-- A context whose block has been written is free, with nothing of its tenant left. -/
def freed (s : State) (x : CtxId) : State := ((s.upCtx x freedCtx).dropPairs x).clearSiteIrq x

/-- What a save makes of its tenant. -/
def saved (s : State) (n : SiteId) (q : SaveReason) : State :=
  s.upSite n (fun v => { v with save := none, tstate := s.afterSave n q, quantumAsked := false })

theorem cxReg_ne_site (x : CtxId) (r : SReg) : Reg.site n r ≠ cxReg x .irqPend := by
  unfold cxReg
  split <;> simp

theorem freed_site_reg (r : SReg) : (freed s x).reg (.site n r) = s.reg (.site n r) :=
  reg_setReg_other _ _ _ _ (cxReg_ne_site x r)

/-- The state that a tenant rests in after a save that no FAULT made (Table 3.7). -/
theorem afterSave_unfaulted (s : State) (n : SiteId) (q : SaveReason) :
    q ≠ .fault → s.afterSave n q = (if s.siteHold n then .held
    else match q with
      | .giveUp | .hold | .en0 => if (s.site n).events = 0 then .idle else .pending
      | _ => .pending) := by
  intro hq
  cases q with
  | fault => exact absurd rfl hq
  | _ => rfl

theorem decideEn_stays (h : (s.site n).enClear = false) : s.decideEn n = s := by simp [State.decideEn, h]

/-- After a save, no clear of EN and no tide waits for the tenant. -/
theorem saved_ends (hc : (s.site n).enClear = false) (hb : s.tide.busy = false) :
    ((saved (freed s x) n q).decideEn n).convert n true = saved (freed s x) n q := by
  have hclear : ((saved (freed s x) n q).site n).enClear = false := by
    rw [saved, State.upSite, site_setSite_same]
    exact hc
  rw [decideEn_stays hclear]
  exact convert_idle true hb

theorem saveTenant_steps (hx : (s.site n).onCtx = x) (he : (s.ctx x).inEncl = none) (hq : q ≠ .fault) :
    s.saveTenant n q = ((saved (freed (s.agentWrite (s.blockAddr n) (blockBytes (s.ctx x).completeLoads)) x) n q).decideEn
      n).convert n true := by
  have hout : s.leaveEncl x (s.ctx x).completeLoads.pc.toNat = s := by simp only [State.leaveEncl, he]
  simp only [State.saveTenant, hx, hout, if_neg hq]
  generalize s.agentWrite (s.blockAddr n) (blockBytes (s.ctx x).completeLoads) = u
  rfl

section

variable (hx : (s.site n).onCtx = x) (he : (s.ctx x).inEncl = none) (hc : (s.site n).enClear = false)
  (hq : q ≠ .fault) (hb : s.tide.busy = false) (hdrop : s.droppedWords (s.blockAddr n) 0x400 = [])

include hx he hc hq hb hdrop

/-- A save writes the block, frees the context, and puts the tenant where it rests; no clear of EN waits for it. -/
theorem saveTenant_eq :
    s.saveTenant n q = saved (freed (s.agentWrite (s.blockAddr n) (blockBytes (s.ctx x).completeLoads)) x) n q := by
  rw [← blockBytes_length (s.ctx x).completeLoads] at hdrop
  have hsite := agentWrite_keeps hdrop (State.site · n) fun _ _ _ _ _ => rfl
  have htide := agentWrite_keeps hdrop State.tide fun _ _ _ _ _ => rfl
  rw [saveTenant_steps hx he hq]
  exact saved_ends (by rw [hsite]; exact hc) (by rw [htide]; exact hb)

end

theorem afterSave_congr (hs : t.site n = s.site n) (hc : t.reg (.site n .ctrl) = s.reg (.site n .ctrl)) :
    t.afterSave n q = s.afterSave n q := by
  unfold State.afterSave State.siteHold
  rw [hs, hc]

/-- What the end of a save leaves of the state in which the block stands written. -/
theorem saved_spec (u : State) (n : SiteId) (x : CtxId) (q : SaveReason) :
    (∀ b, (saved (freed u x) n q).memByte b = u.memByte b)
    ∧ ((saved (freed u x) n q).ctx x).occ = .free ∧ (∀ y, y ≠ x → (saved (freed u x) n q).ctx y = u.ctx y)
    ∧ ((saved (freed u x) n q).site n).save = none ∧ ((saved (freed u x) n q).site n).tstate = u.afterSave n q := by
  have hsite : (saved (freed u x) n q).site n
      = { u.site n with save := none, tstate := (freed u x).afterSave n q, quantumAsked := false } :=
    site_setSite_same (freed u x) n { u.site n with save := none, tstate := (freed u x).afterSave n q, quantumAsked := false }
  refine ⟨fun _ => rfl, ?_, fun y hy => ctx_upCtx_other u x y freedCtx hy, by rw [hsite], ?_⟩
  · exact congrArg Ctx.occ (ctx_upCtx_same u x freedCtx)
  · rw [hsite]
    exact afterSave_congr rfl (freed_site_reg .ctrl)

section

variable (hx : (s.site n).onCtx = x) (he : (s.ctx x).inEncl = none) (hc : (s.site n).enClear = false)
  (hq : q ≠ .fault) (hb : s.tide.busy = false) (hdrop : s.droppedWords (s.blockAddr n) 0x400 = [])
  (hk : ∀ i, i < 0x400 → s.inKeyArray (s.blockAddr n + i) = false)

include hx he hc hq hb hdrop hk

/-- What a save leaves: the block in memory, the context free, and the tenant at rest (R80, R129). -/
theorem saveTenant_spec :
    (∀ i, i < 0x400 → (s.saveTenant n q).memByte (s.blockAddr n + i) = (blockBytes (s.ctx x).completeLoads).getD i 0)
    ∧ (∀ b, (b < s.blockAddr n ∨ s.blockAddr n + 0x400 ≤ b) → s.inKeyArray b = false → (s.saveTenant n q).memByte b = s.memByte b)
    ∧ ((s.saveTenant n q).ctx x).occ = .free ∧ (∀ y, y ≠ x → (s.saveTenant n q).ctx y = s.ctx y)
    ∧ ((s.saveTenant n q).site n).save = none ∧ ((s.saveTenant n q).site n).tstate = s.afterSave n q := by
  rw [saveTenant_eq hx he hc hq hb hdrop]
  have hlen := blockBytes_length (s.ctx x).completeLoads
  rw [← hlen] at hdrop
  have hmem (b : Nat) (hb : s.inKeyArray b = false) := memByte_agentWrite hdrop hb
  have hsite := agentWrite_keeps hdrop (State.site · n) fun _ _ _ _ _ => rfl
  have hctx (y : CtxId) := agentWrite_keeps hdrop (State.ctx · y) fun _ _ _ _ _ => rfl
  have hctrl := agentWrite_reg hdrop (r := .site n .ctrl) (by simp)
  rw [hlen] at hmem
  generalize s.agentWrite (s.blockAddr n) (blockBytes (s.ctx x).completeLoads) = u at hsite hctx hctrl hmem
  obtain ⟨hbyte, hocc, hother, hsave, hstate⟩ := saved_spec u n x q
  refine ⟨fun i hi => ?_, fun b hout hb => ?_, hocc, fun y hy => (hother y hy).trans (hctx y), hsave,
    hstate.trans (afterSave_congr hsite hctrl)⟩
  · rw [hbyte, hmem _ (hk i hi), if_pos (by omega), Nat.add_sub_cancel_left]
  · rw [hbyte, hmem b hb, if_neg (by omega)]

end

end Sys2Proof.Laws
end

section
/-! SUPPORT. Saves that are asked for: preemption, the pool and the quantum rule (spec/03 R79, R80). -/

namespace Sys2Proof.Laws

open Sys2Proof Sys2Proof.Machine

variable {s t u : State} {n w : SiteId} {x y : CtxId} {c : CoreId} {be : BitVec 4} {d : Word32} {q : SaveReason} {i : BitVec 2}

/-! ## Saves that are asked for (R79, R80) -/

/-- A save asked for where none is: its reason stands. -/
theorem requestSave_first (hl : (s.site n).tstate = .loaded) (hn : (s.site n).save = none) :
    s.requestSave n q = s.upSite n (fun v => { v with save := some q }) := by
  rw [State.requestSave, if_pos hl, State.upSite, State.upSite, hn]
  rfl

theorem saveOn_tenant (ho : (s.ctx x).occ = .tenant n) : s.saveOn x q = s.requestSave n q := by
  rw [State.saveOn, ho]

/-- One context of four is named. -/
theorem foldl_range4_one {α : Type} (f : α → Nat → α) (p : Nat → Bool) (a : α) (h : ∀ k, k < 4 → p k = decide (k = i.toNat)) :
    (List.range 4).foldl (fun a k => if p k then f a k else a) a = f a i.toNat := by
  have h0 := h 0 (by omega)
  have h1 := h 1 (by omega)
  have h2 := h 2 (by omega)
  have h3 := h 3 (by omega)
  show (if p 3 then _ else _) = _
  have hi : i.toNat = 0 ∨ i.toNat = 1 ∨ i.toNat = 2 ∨ i.toNat = 3 := by have := i.isLt; omega
  rcases hi with hi | hi | hi | hi <;> simp [hi, h0, h1, h2, h3]

section

variable (hx : ctxOf c i = x) (ho : (s.ctx x).occ = .tenant n) (hl : (s.site n).tstate = .loaded) (hn : (s.site n).save = none)

include hx ho hl hn

theorem preemptWrite_one (h : ∀ k, k < 4 → bitAt (seen be d) k = decide (k = i.toNat)) :
    s.preemptWrite c be d = s.upSite n (fun v => { v with save := some .preempt }) := by
  rw [State.preemptWrite, foldl_range4_one (fun (s : State) k => s.saveOn (ctxOf c (BitVec.ofNat 2 k)) .preempt) _ _ h,
    BitVec.ofNat_toNat, BitVec.setWidth_eq, hx, saveOn_tenant ho, requestSave_first hl hn]

/-- A context leaves the pool: the save of its tenant is asked for (R80). -/
theorem dispatchWrite_one (hp : s.reg (.core c .dispatch) = 15) (h : ∀ k, k < 4 → bitAt d k = decide (k ≠ i.toNat)) :
    s.dispatchWrite c 0xF d = (s.setReg (.core c .dispatch) (mergeBits 15 ((CReg.spec .dispatch).rw) d)).upSite n
      (fun v => { v with save := some .pool }) := by
  have hplain : s.plainWrite (.core c .dispatch) 0xF d
      = s.setReg (.core c .dispatch) (mergeBits 15 ((CReg.spec .dispatch).rw) d) := by
    have hlanes : laneMask 0xF = BitVec.allOnes 32 := by decide
    rw [State.plainWrite, regSpec_apply_rw rfl rfl, hp, hlanes, BitVec.allOnes_and]
    rfl
  have hgone : ∀ k, k < 4 →
      bitAt ((15 : Word32) &&& ~~~(mergeBits (15 : Word32) ((CReg.spec .dispatch).rw) d)) k = decide (k = i.toNat) := by
    intro k hk
    have hset : ∀ k, k < 4 → bitAt (15 : Word32) k = true ∧ bitAt (CReg.spec .dispatch).rw k = true := by decide
    obtain ⟨hpool, hrw⟩ := hset k hk
    have hbit : bitAt (mergeBits (15 : Word32) ((CReg.spec .dispatch).rw) d) k = decide (k ≠ i.toNat) := by
      rw [bitAt_mergeBits, hrw, if_pos rfl, h k hk]
    have hnot (v : Word32) : bitAt ((15 : Word32) &&& ~~~v) k = (bitAt (15 : Word32) k && !bitAt v k) := by
      simp only [bitAt, BitVec.getLsbD_and, BitVec.getLsbD_not]
      rw [decide_eq_true (by omega : k < 32), Bool.true_and]
    rw [hnot, hpool, hbit]
    simp
  rw [State.dispatchWrite, hplain, reg_setReg_same, hp,
    foldl_range4_one (fun (s : State) k => s.saveOn (ctxOf c (BitVec.ofNat 2 k)) .pool) _ _ hgone,
    BitVec.ofNat_toNat, BitVec.setWidth_eq, hx, saveOn_tenant (by exact ho)]
  exact requestSave_first (by exact hl) (by exact hn)

end

/-- The quantum rule on one waiting tenant with a victim (R79). -/
theorem quantumPick_one (hp : (s.place w).isNone = true) (hv : s.quantumVictim w [] = some n)
    (hl : (s.site n).tstate = .loaded) (hn : (s.site n).save = none) :
    s.quantumPick [w] [] = (s.upSite n (fun v => { v with save := some .quantum })).upSite w
      (fun v => { v with quantumAsked := true }) := by
  have hsome : (s.place w).isSome = false := by rw [← Option.not_isNone, hp]; rfl
  rw [← requestSave_first hl hn, State.quantumPick, hsome, hv]
  rfl

end Sys2Proof.Laws
end

section
/-! PROOFS. The dispatcher's loads and saves (O44). -/

namespace Sys2Proof.Proofs.Dispatcher

open Sys2Proof Sys2Proof.Machine Sys2Proof.Laws

theorem exec_dispatchLoad {s : State} {cl : BitVec 2} {n : SiteId} {x : CtxId} (hb : s.tide.busy = false)
    (hstop : s.tide.stopping = false) (hnext : s.nextLoad cl.toNat = some (n, x)) :
    exec (.dispatchLoad cl) s = .next (s.loadTenant n x) := by
  show execDispatchLoad cl .none s = _
  rw [execDispatchLoad, hstop, convertDue_idle hb, hnext]
  simp only [Bool.false_eq_true, if_false]
  exact congrArg Host.Outcome.next (withUpset_none s (fun s => s.loadTenant n x))

theorem exec_tenantSave {s : State} {n : SiteId} {x : CtxId} {q : SaveReason} (hq : (s.site n).save = some q)
    (hl : (s.site n).tstate = .loaded) (hx : (s.site n).onCtx = x) (hheld : s.saveHeld x = false)
    (hpoint : (s.ctx x).savePoint = true) (hbuf : (s.ctx x).storeBuf = []) (herr : (s.ctx x).storeErr = none) :
    exec (.tenantSave n) s = .next (s.saveTenant n q) := by
  have htry : s.trySave n q = s.saveTenant n q := by
    simp only [State.trySave, hx, hl, hpoint, drain_empty s x hbuf, herr, and_self, if_true]
  show execTenantSave n .none s = _
  rw [execTenantSave, hq, hx, hheld, ← htry]
  rfl

/-- Settles O44, event by event. -/
theorem tenantsAreLoadedAndSaved : Obligations.TenantsAreLoadedAndSaved := by
  unfold Obligations.TenantsAreLoadedAndSaved
  refine fun s a c data n x hb hstop => ⟨?load, ?save, ?asked, ?quantum⟩
  case load =>
    intro cl hnext hclean hkey
    have hexec (t : State) (ht : s.loadTenant n x = t) : exec (.dispatchLoad cl) s = .next t := by
      rw [← ht]
      exact exec_dispatchLoad hb hstop hnext
    refine ⟨fun hgood hwait => ?_, fun hbad => ?_⟩
    · obtain ⟨t, hready, hload⟩ := loadTenant_good hclean hkey hgood hwait
      obtain ⟨hstate, hctx, hv, hpend, hother, hmem⟩ := loaded_spec (n := n) hready
        (loadedCtx t n x (s.memRead (s.blockAddr n) 0x400)) (BitVec.ofNat 4 (coreOf x))
      obtain ⟨hocc, hpc, hcsw, hregs⟩ := loadedCtx_spec t n x (s.memRead (s.blockAddr n) 0x400)
      rw [← hv] at hocc hpc hcsw hregs
      exact ⟨_, hexec _ hload, hstate, hctx, hocc, hpc, hcsw, hregs, hpend, hother, hmem⟩
    · obtain ⟨t, hready, hload⟩ := loadTenant_bad hclean hkey hbad
      obtain ⟨hevent, hcode, hattn, -, hline⟩ := enterFaulted_event t n (show 2 < 256 by omega)
      obtain ⟨hmem, hctxs, -⟩ := hevent.frame
      refine ⟨_, hexec _ hload, by rw [hevent.site]; rfl, hcode, hattn, hline,
        hctxs.trans (hready.keeps State.ctxs fun _ _ _ _ _ => rfl), fun b hb => ?_⟩
      rw [State.memByte, hmem]
      exact hready.memByte b hb
  case save =>
    intro q hq hl hx hheld hpoint hbuf herr hencl hclear hfault hkey hdrop
    obtain ⟨hblock, hmem, hfree, hother, hsave, hstate⟩ := saveTenant_spec hx hencl hclear hfault hb hdrop hkey
    refine ⟨_, exec_tenantSave hq hl hx hheld hpoint hbuf herr, hblock, hmem, hfree, hother, hsave, ?_⟩
    rw [hstate]
    exact afterSave_unfaulted s n q hfault
  case asked =>
    intro i hi hocc hl hn
    refine ⟨fun hr hw => ?_, fun hr hlanes hpool hbits => ?_⟩
    · exact congrArg _ (writeReg_live hr rfl rfl (by simp) (congrArg some (preemptWrite_one hi hocc hl hn hw)))
    · exact congrArg _ (writeReg_live hr rfl rfl (by simp) (congrArg some (by
        rw [hlanes]; exact dispatchWrite_one hi hocc hl hn hpool hbits)))
  case quantum =>
    intro cl w hwait hvictim hl hn
    have hmem : w ∈ (s.tenantsIn cl.toNat .pending).filter (fun m => (s.place m).isNone && !(s.site m).quantumAsked) := by
      rw [hwait]
      exact .head _
    have hnone := (Bool.and_eq_true_iff.mp (List.mem_filter.mp hmem).2).1
    refine congrArg Host.Outcome.next ((if_neg (by rw [hstop]; exact Bool.false_ne_true)).trans ?_)
    rw [hwait]
    exact quantumPick_one hnone hvictim hl hn

end Sys2Proof.Proofs.Dispatcher
end

section
/-! SUPPORT. What a link's change of state leaves, and the stations that it loses (spec/04, R86, R87, R100). -/

namespace Sys2Proof.Laws

open Sys2Proof Sys2Proof.Machine

variable {s t u : State} {k : LinkId} {n : SiteId} {y : StationId} {v : LinkState}

/-! ## Stations -/

theorem station_setLink_same (s : State) (k : LinkId) (w : Link) (y : StationId) :
    (s.setLink k w).station k y = smGet w.stations {} y.toNat := by
  rw [State.station, link_setLink_same]

@[simp] theorem station_setStation_same (s : State) (k : LinkId) (y : StationId) (w : Station) :
    (s.setStation k y w).station k y = w := by
  rw [State.setStation, station_setLink_same, smGet_set_same]

theorem station_setStation_other (s : State) (k : LinkId) {x y : StationId} (w : Station) (h : x ≠ y) :
    (s.setStation k y w).station k x = s.station k x := by
  rw [State.setStation, station_setLink_same, smGet_set_other _ _ _ _ _ _ fun e => h (BitVec.eq_of_toNat_eq e)]
  rfl

/-! ## What links' events may touch -/

/-- The second state differs from the first in link k, in sites, and in registers other than its LB_CTRL at most. -/
structure LinkFrame (k : LinkId) (s t : State) : Prop where
  others : ∀ j, j ≠ k → t.link j = s.link j
  mem : t.mem = s.mem
  ctxs : t.ctxs = s.ctxs
  ctrl : t.reg (.link k .ctrl) = s.reg (.link k .ctrl)

namespace LinkFrame

theorem refl (k : LinkId) (s : State) : LinkFrame k s s := ⟨fun _ _ => rfl, rfl, rfl, rfl⟩

theorem trans (h : LinkFrame k s t) (h' : LinkFrame k t u) : LinkFrame k s u :=
  ⟨fun j hj => (h'.others j hj).trans (h.others j hj), h'.mem.trans h.mem, h'.ctxs.trans h.ctxs, h'.ctrl.trans h.ctrl⟩

theorem setLink (s : State) (k : LinkId) (w : Link) : LinkFrame k s (s.setLink k w) :=
  ⟨fun j hj => link_setLink_other s k j w hj, rfl, rfl, rfl⟩

end LinkFrame

/-- Losing stations of link k leaves its state and its signal, and no absent station becomes present. -/
structure Loses (k : LinkId) (s t : State) : Prop where
  frame : LinkFrame k s t
  state : (t.link k).state = (s.link k).state
  signal : (t.link k).signal = (s.link k).signal
  absent : ∀ y, (s.station k y).present = false → (t.station k y).present = false

namespace Loses

theorem refl (k : LinkId) (s : State) : Loses k s s := ⟨.refl k s, rfl, rfl, fun _ h => h⟩

theorem trans (h : Loses k s t) (h' : Loses k t u) : Loses k s u :=
  ⟨h.frame.trans h'.frame, h'.state.trans h.state, h'.signal.trans h.signal, fun y hy => h'.absent y (h.absent y hy)⟩

/-- What touches sites and registers other than LB_CTRL alone loses no station. -/
theorem of_links (hl : t.links = s.links) (hm : t.mem = s.mem) (hc : t.ctxs = s.ctxs)
    (hr : t.reg (.link k .ctrl) = s.reg (.link k .ctrl)) : Loses k s t := by
  have hlink (j : LinkId) : t.link j = s.link j := by rw [State.link, hl]; rfl
  exact ⟨⟨fun j _ => hlink j, hm, hc, hr⟩, by rw [hlink], by rw [hlink], fun y hy => by rwa [State.station, hlink]⟩

theorem setReg {r : Reg} (s : State) (x : Word32) (h : .link k .ctrl ≠ r) : Loses k s (s.setReg r x) :=
  of_links rfl rfl rfl (reg_setReg_other s r _ x h)

theorem upSite (s : State) (n : SiteId) (f : Site → Site) : Loses k s (s.upSite n f) := of_links rfl rfl rfl rfl

theorem setStation (s : State) {w : Station} (h : w.present = false) : Loses k s (s.setStation k y w) := by
  refine ⟨.setLink s k _, by rw [State.setStation, link_setLink_same], by rw [State.setStation, link_setLink_same], fun x hx => ?_⟩
  by_cases hy : x = y
  · rw [hy, station_setStation_same, h]
  · rwa [station_setStation_other s k w hy]

theorem setAttn (s : State) (n : SiteId) (b : Nat) : Loses k s (s.setAttn n b) := by
  have hattn : Loses k s (s.orReg (.site n .attn) (BitVec.ofNat 32 (2 ^ b))) := setReg s _ (by simp)
  rw [State.setAttn]
  cases attnLine b with
  | none => exact hattn
  | some l => exact hattn.trans (setReg _ _ (by simp))

theorem txnLost (s : State) (n : SiteId) : Loses k s (s.txnLost n) := by
  have hheld (x : Txn) : Loses k s ((s.upSite n (fun v => { v with txn := x })).startHold n) :=
    (upSite s n _).trans (upSite _ n _)
  unfold State.txnLost
  dsimp only
  split
  · exact refl k s
  · split
    · exact hheld _
    · split
      · exact upSite s n _
      · exact hheld _
    · exact refl k s

theorem stationLost (s : State) (k : LinkId) (y : StationId) : Loses k s (s.stationLost k y) := by
  unfold State.stationLost
  dsimp only
  split
  · have hgone : Loses k s ((s.setStation k y { s.station k y with present := false }).bumpSat (.link k .lost) 1) :=
      (setStation s rfl).trans (setReg _ _ (by simp))
    split
    · exact hgone
    · exact hgone.trans ((setAttn _ _ _).trans (txnLost _ _))
  · exact refl k s

theorem linkLost (s : State) (k : LinkId) : Loses k s (s.linkLost k) :=
  foldl_keeps (Loses k s) _ _ s (refl k s) fun t _ h => h.trans (stationLost t k _)

end Loses

/-- A station declared lost is absent (R100). -/
theorem stationLost_absent (s : State) (k : LinkId) (y : StationId) : ((s.stationLost k y).station k y).present = false := by
  cases hp : (s.station k y).present with
  | false => exact (Loses.stationLost s k y).absent y hp
  | true =>
    have hgone : (((s.setStation k y { s.station k y with present := false }).bumpSat (.link k .lost) 1).station k y).present
        = false := by rw [State.bumpSat, setReg_station, station_setStation_same]
    unfold State.stationLost
    simp only [hp, if_true]
    split
    · exact hgone
    · exact ((Loses.setAttn _ _ _).trans (.txnLost _ _)).absent y hgone

theorem foldl_stationLost_absent (l : List Nat) (s : State) (h : y.toNat ∈ l) :
    ((l.foldl (fun s x => s.stationLost k (BitVec.ofNat 4 x)) s).station k y).present = false := by
  induction l generalizing s with
  | nil => cases h
  | cons x l ih =>
    rw [List.foldl_cons]
    by_cases hx : y.toNat ∈ l
    · exact ih _ hx
    · have hy : y = BitVec.ofNat 4 x := by
        rw [← (List.mem_cons.mp h).resolve_right hx, BitVec.ofNat_toNat, BitVec.setWidth_eq]
      have hrest : Loses k (s.stationLost k y) (l.foldl (fun s x => s.stationLost k (BitVec.ofNat 4 x)) (s.stationLost k y)) :=
        foldl_keeps (Loses k _) _ l _ (.refl k _) fun t _ h => h.trans (.stationLost t k _)
      rw [← hy]
      exact hrest.absent y (stationLost_absent s k y)

/-- A link that is lost has no station present (R87). -/
theorem linkLost_absent (s : State) (k : LinkId) (y : StationId) : ((s.linkLost k).station k y).present = false :=
  foldl_stationLost_absent _ s (List.mem_range.mpr y.isLt)

end Sys2Proof.Laws
end

section
/-! SUPPORT. Changes of a link's state, and writes of LB_CTRL (spec/04, R86 to R88, R516, R517, Table 4.1). -/

namespace Sys2Proof.Laws

open Sys2Proof Sys2Proof.Machine

variable {s t : State} {k : LinkId} {v : LinkState} {old w d : Word32} {a : Access}

/-- A link has left UP: it has no station, and HINT_STATUS.LINK and line 4 show it (R86, R87). -/
def LeftUp (k : LinkId) (t : State) : Prop :=
  (∀ y : StationId, (t.station k y).present = false) ∧ bitAt (t.reg (.g .hintStatus)) 4 = true
    ∧ bitAt (t.reg (.d .irqLinePend)) 4 = true

/-- HINT_STATUS.LINK and line 4 are set. -/
def linkTold (t : State) : State := (t.setHint 4).setLine 4

theorem linkTold_eq (t : State) : linkTold t = (t.setReg (.g .hintStatus) (t.reg (.g .hintStatus) ||| 0x10)).setReg
    (.d .irqLinePend) (t.reg (.d .irqLinePend) ||| 0x10) := by
  rw [linkTold, State.setLine, State.orReg, reg_setHint_other 4 (by simp)]
  rfl

theorem linkTold_shows (t : State) : bitAt ((linkTold t).reg (.g .hintStatus)) 4 = true
    ∧ bitAt ((linkTold t).reg (.d .irqLinePend)) 4 = true := by
  constructor
  · rw [linkTold, reg_setLine_other 4 (by simp), State.setHint, reg_orReg_same, bitAt_or]
    exact Bool.or_true _
  · rw [linkTold, State.setLine, reg_orReg_same, bitAt_or]
    exact Bool.or_true _

theorem linkTold_loses (k : LinkId) (t : State) : Loses k t (linkTold t) :=
  (Loses.setReg t _ (by simp)).trans (.setReg _ _ (by simp))

/-! ## Changes of state -/

theorem setLinkState_below (h : (s.link k).state ≠ .up) (hv : v ≠ .up) :
    s.setLinkState k v = s.setLink k { s.link k with state := v } := by
  simp only [State.setLinkState, h, hv, false_and, if_false, if_true]

theorem setLinkState_rises (h : (s.link k).state ≠ .up) :
    s.setLinkState k .up = linkTold (s.setLink k { s.link k with state := .up }) := by
  simp only [State.setLinkState, h, false_and, if_false, false_iff, not_true_eq_false]
  rfl

theorem setLinkState_falls (h : (s.link k).state = .up) (hv : v ≠ .up) :
    s.setLinkState k v = linkTold ((s.linkLost k).setLink k { (s.linkLost k).link k with state := v }) := by
  simp only [State.setLinkState, h, hv, ne_eq, not_false_eq_true, and_self, if_true, true_iff, if_false]
  rfl

/-- Link k is left in a state: where that leaves UP it has lost its stations, and below UP no site and no station changes. -/
structure LinkMoved (k : LinkId) (v : LinkState) (s t : State) : Prop where
  frame : LinkFrame k s t
  state : (t.link k).state = v
  signal : (t.link k).signal = (s.link k).signal
  falls : (s.link k).state = .up → v ≠ .up → LeftUp k t
  below : (s.link k).state ≠ .up → t.sites = s.sites ∧ ∀ y : StationId, t.station k y = s.station k y

namespace LinkMoved

theorem refl (k : LinkId) (s : State) : LinkMoved k (s.link k).state s s :=
  ⟨.refl k s, rfl, rfl, fun h h' => absurd h h', fun _ => ⟨rfl, fun _ => rfl⟩⟩

/-- A link that has lost every station is put into a state, and that is told. -/
theorem of_lost (h : Loses k s t) (ha : ∀ y : StationId, (t.station k y).present = false) (hup : (s.link k).state = .up) :
    LinkMoved k v s (linkTold (t.setLink k { t.link k with state := v })) := by
  have htold := linkTold_loses k (t.setLink k { t.link k with state := v })
  refine ⟨h.frame.trans ((LinkFrame.setLink t k _).trans htold.frame), ?_, ?_, fun _ _ => ⟨fun y => htold.absent y ?_, linkTold_shows _⟩,
    fun h' => absurd hup h'⟩
  · rw [htold.state, link_setLink_same]
  · rw [htold.signal, link_setLink_same]
    exact h.signal
  · rw [station_setLink_same]
    exact ha y

theorem setLinkState (s : State) (k : LinkId) (hv : v ≠ .up) : LinkMoved k v s (s.setLinkState k v) := by
  by_cases h : (s.link k).state = .up
  · rw [setLinkState_falls h hv]
    exact of_lost (.linkLost s k) (linkLost_absent s k) h
  · rw [setLinkState_below h hv]
    exact ⟨.setLink s k _, by rw [link_setLink_same], by rw [link_setLink_same], fun h' => absurd h' h,
      fun _ => ⟨rfl, fun y => station_setLink_same s k _ y⟩⟩

/-- The completion of an access leaves the link where it is. -/
theorem complete (h : LinkMoved k v s t) (a : Access) : LinkMoved k v s (t.complete a) := by
  unfold State.complete
  split
  · exact ⟨⟨h.frame.others, h.frame.mem, h.frame.ctxs, h.frame.ctrl⟩, h.state, h.signal, h.falls, h.below⟩
  · exact h
  · exact h

end LinkMoved

/-! ## Writes of LB_CTRL -/

/-- Where a write of LB_CTRL leaves a link, given the values before and after it (Table 4.1, notes/assumptions/76.md). -/
def ctrlNext (l : Link) (old w : Word32) : LinkState :=
  if bitAt w 0 = false then .down
  else if bitAt w 1 = true then (if l.state = .loopback ∧ bitAt w 2 = true then .loopback else .fenced)
  else if bitAt old 1 = true ∨ bitAt old 0 = false ∨ l.state = .down then (if l.signal then .training else .down) else l.state

theorem linkCtrlWritten_moved (s : State) (k : LinkId) (old : Word32) :
    LinkMoved k (ctrlNext (s.link k) old (s.reg (.link k .ctrl))) s (s.linkCtrlWritten k old) := by
  have hidle : (if (s.link k).signal then LinkState.training else .down) ≠ .up := by split <;> simp
  unfold State.linkCtrlWritten ctrlNext State.linkBase State.linkEn State.linkFence State.linkLoop
  cases hen : bitAt (s.reg (.link k .ctrl)) 0 with
  | false => exact .setLinkState s k (by simp)
  | true =>
    cases hfence : bitAt (s.reg (.link k .ctrl)) 1 with
    | true =>
      by_cases hloop : (s.link k).state = .loopback ∧ bitAt (s.reg (.link k .ctrl)) 2 = true
      · simp only [hloop, Bool.not_true, Bool.false_eq_true, Bool.true_eq_false, and_self, if_true, if_false]
        rw [← hloop.1]
        exact .refl k s
      · simp only [hloop, Bool.not_true, Bool.false_eq_true, Bool.true_eq_false, if_true, if_false]
        exact .setLinkState s k (by simp)
    | false =>
      have hcond : (bitAt old 1 = true ∨ (s.link k).state = .down ∨ (!bitAt old 0) = true)
          ↔ (bitAt old 1 = true ∨ bitAt old 0 = false ∨ (s.link k).state = .down) := by
        rw [Bool.not_eq_true', or_comm (a := (s.link k).state = .down)]
      by_cases hmoves : bitAt old 1 = true ∨ bitAt old 0 = false ∨ (s.link k).state = .down
      · simp only [hcond, hmoves, Bool.not_true, Bool.false_eq_true, Bool.true_eq_false, if_true, if_false]
        exact .setLinkState s k hidle
      · simp only [hcond, hmoves, Bool.not_true, Bool.false_eq_true, Bool.true_eq_false, if_false]
        exact .refl k s

end Sys2Proof.Laws
end

section
/-! PROOFS. Signals, block lock, LB_CTRL and the PRBS checker (O52). -/

namespace Sys2Proof.Proofs.Links

open Sys2Proof Sys2Proof.Machine Sys2Proof.Laws

variable {s : State} {k : LinkId}

/-! ## Signals and block lock -/

theorem exec_signalPresent (s : State) (k : LinkId) : exec (.signalPresent k) s = .next (s.setLink k { s.link k with
    signal := true
    state := if (s.link k).state = .down ∧ s.linkEn k = true then (if s.linkFence k then .fenced else .training)
      else (s.link k).state }) := by
  have hbase : (s.setSignal k true).linkBase k
      = if s.linkEn k = true then (if s.linkFence k then .fenced else .training) else .down := by
    have hsignal : ((s.setSignal k true).link k).signal = true := by rw [State.setSignal, link_setLink_same]
    rw [State.linkBase, hsignal]
    show (if !s.linkEn k then _ else if s.linkFence k then _ else _) = _
    cases s.linkEn k <;> rfl
  have hlink : (s.setSignal k true).link k = { s.link k with signal := true } := link_setLink_same s k _
  show execSignalPresent k s = _
  by_cases hd : (s.link k).state = .down
  · have hup : (if s.linkEn k = true then (if s.linkFence k then LinkState.fenced else .training) else .down) ≠ .up := by
      split_ifs <;> simp
    rw [execSignalPresent, if_pos hd, hbase, setLinkState_below (by rw [hlink, hd]; simp) hup, hlink]
    simp only [hd, true_and]
    exact congrArg Host.Outcome.next (setLink_setLink s k _ _)
  · simp only [execSignalPresent, hd, if_false, false_and]
    rfl

theorem exec_signalLost_below (h : (s.link k).state ≠ .up) : exec (.signalLost k) s = .next (s.setLink k { s.link k with
    signal := false, state := if (s.link k).state = .training then .down else (s.link k).state }) := by
  have hlink : (s.setSignal k false).link k = { s.link k with signal := false } := link_setLink_same s k _
  show execSignalLost k s = _
  unfold execSignalLost
  cases hst : (s.link k).state with
  | up => exact absurd hst h
  | training =>
    simp only
    rw [setLinkState_below (by rw [hlink, hst]; simp) (by simp), hlink]
    exact congrArg Host.Outcome.next (setLink_setLink s k _ _)
  | down => simp [State.setSignal, hst]
  | fenced => simp [State.setSignal, hst]
  | loopback => simp [State.setSignal, hst]

theorem exec_signalLost_up (h : (s.link k).state = .up) :
    exec (.signalLost k) s = .next ((s.setSignal k false).setLinkState k .down) := by
  show execSignalLost k s = _
  rw [execSignalLost, h]

theorem exec_blockLock_training (h : (s.link k).state = .training) (hr : s.inReset = false) :
    exec (.blockLock k) s = .next (linkTold (s.setLink k { s.link k with state := .up })) := by
  show execBlockLock k s = _
  rw [execBlockLock, if_pos ⟨hr, h⟩, setLinkState_rises (by rw [h]; simp)]

theorem exec_blockLock_inReset (hr : s.inReset = true) : exec (.blockLock k) s = .next s := by
  show execBlockLock k s = _
  rw [execBlockLock, if_neg (by rw [hr]; simp)]

theorem exec_blockLockLost_up (h : (s.link k).state = .up) :
    exec (.blockLockLost k) s = .next (s.setLinkState k .training) := by
  show execBlockLockLost k s = _
  rw [execBlockLockLost, if_pos h]

/-! ## LB_CTRL -/

/-- A write of LB_CTRL that reaches the register leaves its new value, and the link where Table 4.1 says. -/
theorem ctrlWrite_moved {a : Access} {d : Word32} (hr : s.reaches a (.link k .ctrl) d = true) :
    let w := (LReg.spec .ctrl).apply (s.reg (.link k .ctrl)) (laneMask (lanesOf a)) d
    LinkMoved k (ctrlNext (s.link k) (s.reg (.link k .ctrl)) w) (s.setReg (.link k .ctrl) w) (s.writeReg a (.link k .ctrl) d) := by
  intro w
  have hmoved := linkCtrlWritten_moved (s.setReg (.link k .ctrl) w) k (s.reg (.link k .ctrl))
  rw [reg_setReg_same, setReg_link] at hmoved
  rw [writeReg_live hr rfl rfl (by simp) rfl]
  exact hmoved.complete a

/-! ## The PRBS checker -/

theorem exec_loopbackLock_fenced (errors : Word32) (h : (s.link k).state = .fenced) (hen : s.linkEn k = true)
    (hfence : s.linkFence k = true) (hloop : s.linkLoop k = true) : exec (.loopbackLock k errors) s
      = .next ((s.setLink k { s.link k with state := .loopback }).bumpSat (.link k .prbsErr) errors.toNat) := by
  show execLoopbackLock k errors s = _
  have hruns : s.prbsRuns k = true := by rw [State.prbsRuns, h, hen, hfence, hloop]; rfl
  rw [execLoopbackLock, if_pos hruns, setLinkState_below (by rw [h]; simp) (by simp)]

/-- Settles O52, event by event, each by what a change of the link's state leaves. -/
theorem linksFollowSignalLockAndControls : Obligations.LinksFollowSignalLockAndControls := by
  unfold Obligations.LinksFollowSignalLockAndControls
  intro s k
  refine ⟨exec_signalPresent s k, exec_signalLost_below, ?signalLost, ?lock, exec_blockLock_inReset,
    ?lockLost, ?ctrl, ?prbs⟩
  case signalLost =>
    intro hup
    have hlink : (s.setSignal k false).link k = { s.link k with signal := false } := link_setLink_same s k _
    have hm := LinkMoved.setLinkState (v := .down) (s.setSignal k false) k (by simp)
    have hf := (LinkFrame.setLink s k { s.link k with signal := false }).trans hm.frame
    exact ⟨_, exec_signalLost_up hup, hm.state, hm.signal.trans (by rw [hlink]), hm.falls (by rw [hlink, hup]) (by simp),
      hf.others, hf.mem, hf.ctxs⟩
  case lock => exact fun h hr => (exec_blockLock_training h hr).trans (congrArg Host.Outcome.next (linkTold_eq _))
  case lockLost =>
    intro hup
    have hm := LinkMoved.setLinkState (v := .training) s k (by simp)
    exact ⟨_, exec_blockLockLost_up hup, hm.state, hm.signal, hm.falls hup (by simp), hm.frame.others, hm.frame.mem, hm.frame.ctxs⟩
  case ctrl =>
    intro a data hr old v idle next written
    have hm := ctrlWrite_moved hr
    have hwritten : written (s.writeReg a (.link k .ctrl) data) :=
      ⟨hm.frame.ctrl.trans (reg_setReg_same _ _ _), hm.state, hm.signal, hm.falls, hm.below, hm.frame.others, hm.frame.mem,
        hm.frame.ctxs⟩
    exact ⟨⟨_, rfl, hwritten⟩, ⟨_, rfl, hwritten⟩, fun h => ⟨_, congrArg Host.Outcome.next (if_pos h), hwritten⟩,
      fun h => ⟨_, congrArg Host.Outcome.next (if_pos h), hwritten⟩⟩
  case prbs =>
    intro errors h hen hfence hloop
    refine ⟨_, exec_loopbackLock_fenced errors h hen hfence hloop, ?_, ?_, fun r hr => reg_bumpSat_other _ _ hr, rfl,
      fun j hj => (setReg_link _ _ _ j).trans (link_setLink_other s k j _ hj), rfl, rfl⟩
    · rw [State.bumpSat, setReg_link, link_setLink_same]
    · rw [State.bumpSat, reg_setReg_same, BitVec.toNat_ofNat, Nat.mod_eq_of_lt (by omega)]
      rfl

end Sys2Proof.Proofs.Links
end

section
/-! PROOFS. The site instructions (O26). -/

namespace Sys2Proof.Proofs.SiteInstructions

open Sys2Proof Sys2Proof.Machine Sys2Proof.Laws

/-- Where the instruction stands: the bottom of SRAM. -/
def settleAt : Nat := 0xF000000000

/-- The boot core's context runs tenant 0 at SITE.SETTLE G1, G2, G3 with every register 0, and the transaction is TAKEN with nothing
unacknowledged, in the state where Curlew's read of the tenant's vault entry finds a word uncorrectable. -/
def settlesFoundInVault : State :=
  { Journal.foundInVault with
    inReset := false
    mem := memSetAll Journal.foundInVault.mem settleAt [0xB7, 1, 2, 3]
    cores := [(16, { state := .running })]
    ctxs := [(bootCtx.val, { occ := .monitor, csw := 0x16, pc := BitVec.ofNat 48 settleAt })]
    sites := [(0, { txn := .taken, ringSet := true, keyState := 2 })] }

theorem isSome_alone_settles : (settlesFoundInVault.alone bootCtx).isSome = true := by decide +kernel

/-- The instruction that the context executes next, with its fetch and the state after it. -/
def settle : Ins × Fetched × State := (settlesFoundInVault.alone bootCtx).get isSome_alone_settles

theorem alone_settles : settlesFoundInVault.alone bootCtx = some settle := (Option.some_get isSome_alone_settles).symm

theorem evalOpnds_settle :
    evalOpnds (envOf settle.2.2 bootCtx settle.2.1 0) settle.1 (settle.2.2.ctx bootCtx) 0 settle.1.ops
      = .ok ([.reg 1 0, .reg 2 0, .reg 3 0], []) := by decide +kernel

theorem exec_siteSettle (x : CtxId) (s : State) :
    exec (.siteSettle x) s = .next (s.commandUpset x .siteSettle 0 .none) := rfl

/-- The settlement begins, and Curlew reads the vault entry (R425): the detection zeroes the word (R336). -/
theorem siteSettle_zeroes_settlesFoundInVault :
    (settlesFoundInVault.commandUpset bootCtx .siteSettle 0 .none).memByte 0 = 0 := by decide +kernel

/-- Refutes O26: its clause on SITE.SETTLE keeps every byte outside the settlement slot and the key array in every state, and does
not ask that the command under way finds no word uncorrectable (`upset = []`). A settlement with nothing unacknowledged begins at
once where its tenant's key is loaded (R114), the append reads the vault, and a word that this read finds uncorrectable is
zeroed. -/
theorem not_siteInstructionsComplete : ¬ Obligations.SiteInstructionsComplete := by
  unfold Obligations.SiteInstructionsComplete
  intro h
  obtain ⟨-, -, hsettle⟩ := h settlesFoundInVault settle.2.2 settle.2.2 bootCtx settle.1 settle.2.1 (.reg 1 0) (.reg 2 0) (.reg 3 0)
    [] [] alone_settles (by decide +kernel) (by decide +kernel) (by decide +kernel)
  obtain ⟨-, -, hsettle⟩ := hsettle (by decide +kernel) evalOpnds_settle rfl
  obtain ⟨t, hexec, -, -, -, -, -, -, -, -, hkept⟩ := hsettle (by decide +kernel) (by decide) rfl (by decide +kernel)
  have hkeeps : t.memByte 0 = settle.2.2.memByte 0 := hkept 0 (by decide +kernel) (by decide +kernel)
  rw [exec_siteSettle] at hexec
  rw [← Host.Outcome.next.inj hexec, siteSettle_zeroes_settlesFoundInVault] at hkeeps
  exact absurd hkeeps (by decide +kernel)

end Sys2Proof.Proofs.SiteInstructions
end

section
/-! PROOFS. Frames, timers and held transactions (O53). -/

namespace Sys2Proof.Proofs.HeldTransactions

open Sys2Proof Sys2Proof.Machine Sys2Proof.Laws

/-- Tenant 0's transaction is UNSETTLED, its hold timer running and one frame unacknowledged, in the state where Curlew's read of the
tenant's vault entry finds a word uncorrectable. -/
def holdsFoundInVault : State :=
  { Journal.foundInVault with
    inReset := false
    sites := [(0, { txn := .unsettled, holdTimer := some 0, unacked := [{ slot := 0, seq := 3, utype := 2, len := 4 }]
                    ringSet := true, keyState := 2 })] }

/-- The undelivered record begins, and Curlew reads the vault entry (R425): the detection zeroes the word (R336). -/
theorem holdTimer_zeroes_holdsFoundInVault (t : State) (h : exec (.holdTimer 0) holdsFoundInVault = .next t) :
    t.memByte 0 = 0 := by
  obtain ⟨⟩ := h
  decide +kernel

/-- Refutes O53: its clause on HOLD_TIMER keeps every byte outside the key array in every state, and does not ask that the command
under way finds no word uncorrectable (`upset = []`). The undelivered record of the oldest held frame begins at once where the
tenant's key is loaded (R116, R426), the append reads the vault, and a word that this read finds uncorrectable is zeroed. -/
theorem not_framesTimersAndHeldTransactions : ¬ Obligations.FramesTimersAndHeldTransactions := by
  unfold Obligations.FramesTimersAndHeldTransactions
  intro h
  obtain ⟨-, hhold, -⟩ := h
  obtain ⟨t, hexec, -, -, -, -, -, -, -, hkept, -⟩ := hhold holdsFoundInVault 0 rfl rfl
  have hkeeps : t.memByte 0 = holdsFoundInVault.memByte 0 := hkept 0 rfl
  rw [holdTimer_zeroes_holdsFoundInVault t hexec] at hkeeps
  exact absurd hkeeps (by decide)

end Sys2Proof.Proofs.HeldTransactions
end

section
/-! SUPPORT. How an instruction or bundle ends: its writes, where control goes, and the boundary there (spec/05 R140 to R152,
spec/06 R161, R166). -/

namespace Sys2Proof.Laws

open Sys2Proof Sys2Proof.Machine

variable {s s0 s1 s2 : State} {x : CtxId} {i : Ins} {f : Fetched} {o : Op} {d : Done} {ds : List Done} {c c' : Ctx}
  {u v : Ctx → Ctx}

/-! ## Updates of a context -/

/-- An update of a context is what it gives of the context there. -/
theorem upCtx_congr (h : u (s.ctx x) = v (s.ctx x)) : s.upCtx x u = s.upCtx x v := by
  rw [State.upCtx, State.upCtx, h]

/-- A write of a general register touches the registers alone. -/
theorem setG_eq (c : Ctx) (r : BitVec 5) (w : Word) :
    c.setG r w = { c with g := if r = 0 then c.g else smSet c.g 0 r.toNat w } := by
  unfold Ctx.setG
  split <;> rfl

/-- A push touches the return stack alone. -/
theorem push_eq (c : Ctx) (w : Word) : ∃ rs p, c.push w = { c with rs := rs, rsp := p } := by
  unfold Ctx.push
  split <;> exact ⟨_, _, rfl⟩

/-- The loads that complete write the registers of the context. -/
theorem foldl_writeLoad_eq (l : List PendLoad) (c : Ctx) :
    ∃ g d r, l.foldl Ctx.writeLoad c = { c with g := g, d := d, dres := r } := by
  induction l generalizing c with
  | nil => exact ⟨c.g, c.d, c.dres, rfl⟩
  | cons p l ih =>
    have hp : ∃ g d r, c.writeLoad p = { c with g := g, d := d, dres := r } := by
      unfold Ctx.writeLoad
      split
      · exact ⟨_, c.d, c.dres, setG_eq _ _ _⟩
      · exact ⟨c.g, _, _, rfl⟩
    obtain ⟨g, d, r, hp⟩ := hp
    obtain ⟨g', d', r', hl⟩ := ih (c.writeLoad p)
    exact ⟨g', d', r', by rw [List.foldl_cons, hl, hp]⟩

/-- A context's loads complete: its registers change, and none is outstanding. -/
theorem completeLoads_eq (c : Ctx) : ∃ g d r, c.completeLoads = { c with g := g, d := d, dres := r, loads := [] } := by
  obtain ⟨g, d, r, h⟩ := foldl_writeLoad_eq c.loads c
  exact ⟨g, d, r, by rw [Ctx.completeLoads, h]⟩

theorem completeLoads_none (h : c.loads = []) : c.completeLoads = c := by
  cases c
  subst h
  rfl

/-! ## What a context that retires leaves behind -/

/-- Nothing is due at the context's next boundary: no step of the port, no step and no trap. -/
structure NothingDue (c : Ctx) : Prop where
  stepping : c.stepping = false
  stepDue : c.stepDue = false
  trapDue : c.trapDue = none

namespace NothingDue

/-- Only what may fall due counts. -/
theorem congr (h : NothingDue c) (h1 : c'.stepping = c.stepping) (h2 : c'.stepDue = c.stepDue) (h3 : c'.trapDue = c.trapDue) :
    NothingDue c' :=
  ⟨h1.trans h.stepping, h2.trans h.stepDue, h3.trans h.trapDue⟩

theorem push (h : NothingDue c) (w : Word) : NothingDue (c.push w) := by
  obtain ⟨rs, p, hp⟩ := push_eq c w
  rw [hp]
  exact h.congr rfl rfl rfl

theorem goTo (h : NothingDue c) (a : Nat) : NothingDue (c.goTo a) := h.congr rfl rfl rfl

theorem completeLoads (h : NothingDue c) : NothingDue c.completeLoads := by
  obtain ⟨g, d, r, hl⟩ := completeLoads_eq c
  rw [hl]
  exact h.congr rfl rfl rfl

theorem jumpTo (h : NothingDue c) (t : Word) (w : Bool) : NothingDue (c.jumpTo t w) := by
  unfold Ctx.jumpTo
  dsimp only
  split
  · exact h.goTo _
  · exact (h.goTo _).completeLoads.congr rfl rfl rfl

end NothingDue

/-- A quiet context, part by part. -/
theorem quiet_parts (h : c.quiet = true) : c.delay = none ∧ c.atLoopEnd = false ∧ c.sip = false ∧ c.loads = []
    ∧ bitAt c.csw 7 = false ∧ NothingDue c := by
  simp only [Ctx.quiet, Bool.and_eq_true, Bool.not_eq_true', Option.isNone_iff_eq_none, List.isEmpty_iff] at h
  obtain ⟨⟨⟨⟨⟨⟨⟨h1, h2⟩, h3⟩, h4⟩, h5⟩, h6⟩, h7⟩, h8⟩ := h
  exact ⟨h1, h2, h3, h4, h5, h6, h7, h8⟩

/-- A context with no load outstanding that retires keeps none. -/
theorem begun_noLoads (h : c.loads = []) (own : Option Nat) : c.begun own = c.retired own := by
  cases c
  subst h
  unfold Ctx.begun
  dsimp only
  split <;> rfl

/-! ## Loop ends -/

theorem endsAt_congr (h1 : c'.csw = c.csw) (h2 : c'.lpe = c.lpe) (k : Nat) (a : VirtAddr) : c'.endsAt k a = c.endsAt k a := by
  rw [Ctx.endsAt, Ctx.endsAt, Ctx.lact, Ctx.lact, h1, h2]

theorem atLoopEnd_iff : c.atLoopEnd = false ↔ ∀ k < 3, c.endsAt k c.pc = false := by
  simp [Ctx.atLoopEnd]

/-- Where no level ends, none counts down. -/
theorem loopEnd_none {a : VirtAddr} {l : List Nat} (h : ∀ k ∈ l, c.endsAt k a = false) : c.loopEnd a l = (c, none) := by
  induction l with
  | nil => rfl
  | cons k l ih =>
    rw [Ctx.loopEnd, if_neg (by simp [h k (by simp)])]
    exact ih fun j hj => h j (by simp [hj])

/-- The levels in the order in which a loop end takes them. -/
theorem loopEnd_levels {a : VirtAddr} (h : ∀ k < 3, c.endsAt k a = false) : c.loopEnd a [2, 1, 0] = (c, none) :=
  loopEnd_none fun k hk => h k (by simp at hk; omega)

theorem goOn_levels {a : VirtAddr} (h : ∀ k < 3, c.endsAt k a = false) (n : Nat) : c.goOn a n = c.goTo n := by
  rw [Ctx.goOn, loopEnd_levels h]
  rfl

/-! ## Retiring -/

/-- A boundary where nothing is due changes nothing. -/
theorem boundary_nothingDue (h : NothingDue (s.ctx x)) : s.boundary x = s := by
  simp [State.boundary, State.stepEnded, State.takeDue, State.takeStep, h.stepping, h.stepDue, h.trapDue]

/-- Outside a delay bundle an instruction in sequence goes on after it, or where a loop end sends it. -/
theorem follow_seq (hd : c'.delay = none) : c.follow c' f .seq = c.goOn c'.pc f.next := by
  rw [Ctx.follow, hd]

/-- Outside a delay bundle a mode change goes on where it says, with its shadow but after a shadow (R149, R152). -/
theorem follow_mode (hd : c'.delay = none) :
    c.follow c' f .mode = { c.completeLoads with shadow := !c'.shadow, modes := c.modes + 1 } := by
  rw [Ctx.follow, hd]

/-- An instruction or bundle that neither waits nor pauses retires: its writes, where control goes, and the boundary there. -/
theorem finish_retires (hw : ds.any Done.waits = false) (hp : ds.any Done.pauses = false) (hss : bitAt (s.ctx x).csw 7 = false)
    (hr : (s.commitAll x f ds).inReset = false) : s.finish s0 x f ds
      = ((s.commitAll x f ds).upCtx x (fun c => c.follow (s.ctx x) f (ctlOf ds))).boundary x := by
  simp [State.finish, hw, hp, State.retire, hr, State.afterCommit, State.noteStep, hss]

/-- One whose writes are an update of its own context, and that leaves nothing due. -/
theorem finish_updates (hw : ds.any Done.waits = false) (hp : ds.any Done.pauses = false) (hss : bitAt (s.ctx x).csw 7 = false)
    (hr : s.inReset = false) (hc : s.commitAll x f ds = s.upCtx x u)
    (hdue : NothingDue ((u (s.ctx x)).follow (s.ctx x) f (ctlOf ds))) :
    s.finish s0 x f ds = s.upCtx x (fun c => (u c).follow (s.ctx x) f (ctlOf ds)) := by
  rw [finish_retires hw hp hss (by rw [hc]; exact hr), hc, upCtx_upCtx, boundary_nothingDue]
  rwa [ctx_upCtx_same]

/-! ## Mode changes -/

@[simp] theorem ctx_unblockNmi (s : State) (x y : CtxId) (b : Bool) : (s.unblockNmi x b).ctx y = s.ctx y := by
  cases b <;> rfl

@[simp] theorem inReset_unblockNmi (s : State) (x : CtxId) (b : Bool) : (s.unblockNmi x b).inReset = s.inReset := by
  cases b <;> rfl

theorem upCtx_unblockNmi (s : State) (x y : CtxId) (b : Bool) (w : Ctx → Ctx) :
    (s.unblockNmi x b).upCtx y w = (s.upCtx y w).unblockNmi x b := by
  cases b <;> rfl

/-- A mode change by an instruction that executes alone; a return may unblock NMI with it. -/
theorem finish_mode (hq : (s.ctx x).quiet = true) (hr : s.inReset = false) (b : Bool)
    (hl : (u ((s.ctx x).retired f.own)).loads = []) (hdue : NothingDue (u ((s.ctx x).retired f.own))) :
    s.finish s0 x f [{ commit := fun t => (t.upCtx x u).unblockNmi x b, ctl := .mode }]
      = (s.afterMode x f u).unblockNmi x b := by
  obtain ⟨hdelay, -, -, hloads, hss, -⟩ := quiet_parts hq
  have hbegun : s.upCtx x (fun c => u (c.begun f.own)) = s.upCtx x (fun c => u (c.retired f.own)) :=
    upCtx_congr (by rw [begun_noLoads hloads])
  have hcommit : s.commitAll x f [{ commit := fun t => (t.upCtx x u).unblockNmi x b, ctl := .mode }]
      = (s.upCtx x (fun c => u (c.retired f.own))).unblockNmi x b := by
    simp only [State.commitAll, List.foldl_cons, List.foldl_nil, upCtx_upCtx, hbegun]
  have hmode : (s.upCtx x (fun c => u (c.retired f.own))).upCtx x (fun c => c.follow (s.ctx x) f .mode) = s.afterMode x f u := by
    rw [upCtx_upCtx, State.afterMode]
    refine upCtx_congr ?_
    simp only [follow_mode hdelay, completeLoads_none hl]
  have hctl : ctlOf [{ commit := fun t => (t.upCtx x u).unblockNmi x b, ctl := .mode }] = .mode := rfl
  rw [finish_retires rfl rfl hss (by rw [hcommit, inReset_unblockNmi]; exact hr), hcommit, upCtx_unblockNmi, hctl, hmode]
  refine boundary_nothingDue ?_
  rw [ctx_unblockNmi, State.afterMode, ctx_upCtx_same]
  exact hdue.congr rfl rfl rfl

/-! ## Commands of instructions -/

/-- A command of an instruction that executes alone and raises nothing. -/
theorem commandUpset_completes (h : s.alone x = some (i, f, s1)) (ho : i.op = o)
    (he : effect o (envOf s1 x f 0) i s1 = .ok d s2) (hr : s2.inReset = false) :
    s.commandUpset x o 0 .none = s2.finish s x f [d] := by
  subst ho
  simp [commandUpset_alone h, command_alone h, he, hr]

/-- A command of an instruction that executes alone and raises an exception. -/
theorem commandUpset_raises {e : Exc} (h : s.alone x = some (i, f, s1)) (ho : i.op = o)
    (he : effect o (envOf s1 x f 0) i s1 = .exc e s2) (hr : s2.inReset = false) :
    s.commandUpset x o 0 .none = s2.raiseIns x (e.captured (s1.ctx x).wform f) := by
  subst ho
  simp [commandUpset_alone h, command_alone h, he, hr]

/-- An instruction that executes alone and writes its own context alone. -/
theorem commandUpset_updates (h : s.alone x = some (i, f, s1)) (ho : i.op = o)
    (he : effect o (envOf s1 x f 0) i s1 = .ok { commit := fun t => t.upCtx x u, ctl := .seq } s1)
    (hu : LocalUpdate u ((s1.ctx x).retired f.own)) : s.commandUpset x o 0 .none = s1.afterIns x f u := by
  obtain ⟨hq, hr⟩ := alone_quiet h
  rw [commandUpset_completes h ho he hr, finish_local hq hr hu]

/-- An instruction of a context that can run, outside the stop of a tide, with what it meets in no array. -/
theorem commandUpset_fetched (hrun : s.canRun x = true) (ht : s.tide.stopping = false) (hf : s.fetchNext x = .ok f s1)
    (hi : f.insns.any (fun i => decide (i.op = o)) = true) (n : Nat) :
    s.commandUpset x o n .none = s1.execute s x f n := by
  simp [State.commandUpset, ht, State.meetsUpset, State.command, hrun, hf, hi]

end Sys2Proof.Laws
end

section
/-! SUPPORT. Entering a handler: what its read of the vector leaves, and how it ends (spec/15 R348 to R350). -/

namespace Sys2Proof.Laws

open Sys2Proof Sys2Proof.Machine

variable {s s1 s2 t : State} {x y : CtxId} {c : Ctx} {w : World} {e : Word}

/-! ## Translations and reads keep every context -/

/-- An access leaves a state with a property, whether it gives a value or raises an exception. -/
def XR.Leaves {α : Type} (r : XR α) (p : State → Prop) : Prop :=
  match r with
  | .ok _ s => p s
  | .exc _ s => p s

theorem XR.Leaves.bind {α β : Type} {r : XR α} {g : α → State → XR β} {p : State → Prop} (h : XR.Leaves r p)
    (hg : ∀ a s, p s → XR.Leaves (g a s) p) : XR.Leaves (r.bind g) p := by
  cases r with
  | ok a s => exact hg a s h
  | exc e s => exact h

theorem ReadsOnly.ctxs (h : ReadsOnly s t) : t.ctxs = s.ctxs := h.keeps State.ctxs fun _ _ _ _ _ => rfl

theorem ctx_of_ctxs (h : t.ctxs = s.ctxs) (x : CtxId) : t.ctx x = s.ctx x := by
  rw [State.ctx, State.ctx, h]

theorem choose_ctxs (s : State) (n : Nat) : (s.choose n).2.ctxs = s.ctxs := by
  unfold State.choose
  split <;> rfl

theorem tlbPut_ctxs (s : State) (core : Nat) (a : TlbArray) (t : TlbEntry) : (s.tlbPut core a t).ctxs = s.ctxs := by
  unfold State.tlbPut
  dsimp only
  split
  · rfl
  · split <;> rfl

theorem walkPut_ctxs (s : State) (core : Nat) (e : WalkEntry) : (s.walkPut core e).ctxs = s.ctxs := by
  unfold State.walkPut
  dsimp only
  split
  · rfl
  · split <;> rfl

theorem fill_ctxs (s : State) (core : Nat) (c : Ctx) (l1 : TlbArray) (va : Nat) (t : TlbEntry) (ptrs : List (Nat × Nat)) :
    (s.fill core c l1 va t ptrs).ctxs = s.ctxs :=
  foldl_keeps (fun v : State => v.ctxs = s.ctxs) _ ptrs _ ((tlbPut_ctxs _ _ _ _).trans (tlbPut_ctxs _ _ _ _))
    fun _ _ h => (walkPut_ctxs _ _ _).trans h

theorem multiHit_ctxs (s : State) (core : Nat) (b : Bool) : (s.multiHit core b).ctxs = s.ctxs := (ReadsOnly.mchk _ _ _ _).ctxs

theorem meetEntry_ctxs (s : State) (a core agent : Nat) : (s.meetEntry a core agent).ctxs = s.ctxs := by
  unfold State.meetEntry
  split
  · rfl
  · exact (ReadsOnly.noteUe _ _ _ _ _ _).ctxs

theorem probe_ctxs (s : State) (core : Nat) (a : TlbArray) (c : Ctx) (va : Nat) : (s.probe core a c va).2.ctxs = s.ctxs := by
  unfold State.probe
  dsimp only
  split
  · rfl
  · split
    · exact choose_ctxs _ _
    · split <;> exact choose_ctxs _ _

theorem walk_ctxs (s : State) (core : Nat) (c : Ctx) (va : Nat) : (s.walk core c va).2.ctxs = s.ctxs := by
  unfold State.walk
  dsimp only
  split <;> (dsimp only; split <;> exact choose_ctxs _ _)

theorem walkFor_ctxs (s : State) (core : Nat) (c : Ctx) (l1 : TlbArray) (va : Nat) :
    (s.walkFor core c l1 va).2.ctxs = s.ctxs := by
  unfold State.walkFor
  dsimp only
  split
  · dsimp only
    split
    · exact (meetEntry_ctxs _ _ _ _).trans (walk_ctxs s core c va)
    · exact walk_ctxs s core c va
  · exact (fill_ctxs _ _ _ _ _ _ _).trans (walk_ctxs s core c va)

theorem lookup_ctxs (s : State) (core : Nat) (c : Ctx) (fetches : Bool) (va : Nat) (not : Option Nat) :
    (s.lookup core c fetches va not).2.ctxs = s.ctxs := by
  have hp := probe_ctxs s core (l1Of fetches) c va
  have hq := (probe_ctxs (s.probe core (l1Of fetches) c va).2 core .unified c va).trans hp
  unfold State.lookup
  split
  · rfl
  · exact multiHit_ctxs _ _ _
  · dsimp only
    split
    · exact hp
    · exact (multiHit_ctxs _ _ _).trans hp
    · split
      · exact (tlbPut_ctxs _ _ _ _).trans hq
      · exact (multiHit_ctxs _ _ _).trans hq
      · exact (walkFor_ctxs _ _ _ _ _).trans hq

theorem readPieces_ctxs (x : CtxId) (k : Kind) (ps : List (Nat × Nat)) (s : State) (ea : Nat) :
    XR.Leaves (s.readPieces x k ea ps) (fun t => t.ctxs = s.ctxs) := by
  induction ps generalizing s ea with
  | nil => exact rfl
  | cons p ps ih =>
    unfold State.readPieces
    split
    · exact rfl
    · split
      · exact (ReadsOnly.consumeAll s 6 _ _ [_]).ctxs
      · have htouch : (s.touch p.1 p.2 false).ctxs = s.ctxs := (ReadsOnly.touch _ _ _ _).ctxs
        have hrest := ih (s.touch p.1 p.2 false) (ea + p.2)
        rw [htouch] at hrest
        exact hrest.bind fun _ _ h => h

/-- Reading a vector entry keeps every context. -/
theorem readVector_ctxs (s : State) (x : CtxId) (csw : Word) (ea : Nat) :
    XR.Leaves (s.readVector x csw ea) (fun t => t.ctxs = s.ctxs) := by
  unfold State.readVector
  dsimp only
  split
  · exact rfl
  · refine XR.Leaves.bind (p := fun t => t.ctxs = s.ctxs) ?_ fun pa v hv => ?_
    · have hl := lookup_ctxs s (coreOf x) { s.ctx x with csw := csw } false ea none
      split
      · exact rfl
      · split
        · exact hl
        · exact hl
        · split <;> exact hl
    · split
      · exact hv
      · have hpieces := readPieces_ctxs x .read [(pa, 8)] v ea
        rw [hv] at hpieces
        exact hpieces.bind fun _ _ h => h

/-! ## How an entry ends -/

/-- Leaving an enclave writes its exit record and keeps every context. -/
theorem leaveEncl_ctxs (s : State) (x : CtxId) (xpc : Nat) : (s.leaveEncl x xpc).ctxs = s.ctxs := by
  unfold State.leaveEncl
  split
  · rfl
  · unfold State.setExit State.memWrite
    dsimp only
    split <;> rfl

/-- What an entry makes of its context: the writes of R348, or the stop of R350. -/
def IsEntry (g : Ctx → Ctx) : Prop :=
  (∃ w i e, g = fun c => enterWrites c w i e) ∨ g = fun c => { c with stopped := true }

/-- An entry comes to an update of its context, whose loads have completed first (R145). -/
def Enters (x : CtxId) (c : Ctx) (t : State) : Prop :=
  ∃ (v : State) (g : Ctx → Ctx), t = v.upCtx x g ∧ v.ctx x = c ∧ IsEntry g

theorem enters_writes {i : EntryInfo} (hs : s.ctx x = c) (xpc : Nat) :
    Enters x c ((s.leaveEncl x xpc).upCtx x (fun c => enterWrites c w i e)) :=
  ⟨_, _, rfl, (ctx_of_ctxs (leaveEncl_ctxs s x xpc) x).trans hs, .inl ⟨_, _, _, rfl⟩⟩

theorem Enters.blockNmi (h : Enters x c t) : Enters x c (t.blockNmi x w) := by
  obtain ⟨v, g, rfl, hv, hg⟩ := h
  cases w with
  | nonSecure => exact ⟨v, g, rfl, hv, hg⟩
  | secure => exact ⟨v.blockNmi x .secure, g, rfl, hv, hg⟩

theorem enterSecure_enters (s : State) (x : CtxId) (v : Nat) (i : EntryInfo) :
    Enters x (s.ctx x).completeLoads (s.enterSecure x v i) := by
  unfold State.enterSecure
  dsimp only
  have hread := readVector_ctxs (s.upCtx x Ctx.completeLoads) x (entryCsw ((s.upCtx x Ctx.completeLoads).ctx x).csw .secure false)
    ((((s.upCtx x Ctx.completeLoads).ctx x).bankS.vbr.toNat / 8 * 8) + 8 * v)
  split
  next h =>
    rw [h] at hread
    exact ⟨_, _, rfl, (ctx_of_ctxs hread x).trans (ctx_upCtx_same _ _ _), .inr rfl⟩
  next h =>
    rw [h] at hread
    exact (enters_writes ((ctx_of_ctxs hread x).trans (ctx_upCtx_same _ _ _)) _).blockNmi

theorem enter_enters (s : State) (x : CtxId) (v : Nat) (w : World) (i : EntryInfo) :
    Enters x (s.ctx x).completeLoads (s.enter x v w i) := by
  cases w with
  | secure => exact enterSecure_enters s x v i
  | nonSecure =>
    unfold State.enter
    dsimp only
    have hread := readVector_ctxs (s.upCtx x Ctx.completeLoads) x
      (entryCsw ((s.upCtx x Ctx.completeLoads).ctx x).csw .nonSecure false)
      ((((s.upCtx x Ctx.completeLoads).ctx x).bankNs.vbr.toNat / 8 * 8) + 8 * v)
    split
    next e s1 h =>
      rw [h] at hread
      have hctx : s1.ctx x = (s.ctx x).completeLoads := (ctx_of_ctxs hread x).trans (ctx_upCtx_same _ _ _)
      have hnone : (s1.ctx x).completeLoads = (s.ctx x).completeLoads := by
        rw [hctx, completeLoads_none (by rfl)]
      rw [← hnone]
      exact enterSecure_enters s1 x 1 _
    next h =>
      rw [h] at hread
      exact enters_writes ((ctx_of_ctxs hread x).trans (ctx_upCtx_same _ _ _)) _

/-! ## The writes of an entry (R348) -/

/-- The CSW that an entry saves: the context's, with DLY and DTK as R147 states. -/
def savedCsw (csw : Word) (dly : Option (Bool × Word)) : Word :=
  setBit (setBit csw 16 dly.isSome) 17 ((dly.map (·.1)).getD false)

/-- The bank that an entry leaves. -/
def entryBank (c : Ctx) (w : World) (i : EntryInfo) : Bank :=
  { c.bank w with
    xcsw := savedCsw c.csw i.dly, xpc := i.xpc, xaddr := BitVec.ofNat 64 i.xaddr
    xinfo := BitVec.ofNat 64 (i.xinfo % 2 ^ 60 + entryFlags c w i.async), xsp := c.getG spReg
    xinst := i.xinst.getD (c.bank w).xinst, xdt := (i.dly.map (·.2)).getD (c.bank w).xdt }

/-- Every field that an entry writes; the others stay. -/
theorem enterWrites_eq (c : Ctx) (w : World) (i : EntryInfo) (e : Word) : enterWrites c w i e = { c with
    g := smSet c.g 0 31 (c.bank w).xsp
    bankS := if w = .secure then entryBank c w i else c.bankS
    bankNs := if w = .nonSecure then entryBank c w i else c.bankNs
    csw := entryCsw c.csw w (bitAt e 63), pc := e.setWidth 48, pcHi := BitVec.ofNat 15 (bitsOf e 62 48)
    shadow := true, delay := none, entering := some i.xpc, arrival := .none
    trapDue := none, stepDue := false, modes := c.modes + 1 } := by
  obtain ⟨xpc, xaddr, xinfo, async, dly, xinst⟩ := i
  rcases dly with _ | ⟨taken, target⟩ <;> cases w <;> rfl

/-- What an entry leaves of the steps of its context. -/
theorem IsEntry.keeps {g : Ctx → Ctx} (h : IsEntry g) (c : Ctx) :
    (g c).stepping = c.stepping ∧ ((g c).stepDue = c.stepDue ∨ (g c).stepDue = false) := by
  obtain ⟨w, i, e, rfl⟩ | rfl := h
  · dsimp only
    rw [enterWrites_eq]
    exact ⟨rfl, .inr rfl⟩
  · exact ⟨rfl, .inl rfl⟩

/-- An entry keeps whether the port steps the context. -/
theorem enter_stepping (s : State) (x : CtxId) (v : Nat) (w : World) (i : EntryInfo) :
    ((s.enter x v w i).ctx x).stepping = (s.ctx x).stepping := by
  obtain ⟨t, g, ht, hctx, hg⟩ := enter_enters s x v w i
  obtain ⟨q, d, r, hl⟩ := completeLoads_eq (s.ctx x)
  rw [ht, ctx_upCtx_same, hctx, (hg.keeps _).1, hl]

/-- An entry makes no step due. -/
theorem enter_stepDue (h : (s.ctx x).stepDue = false) (v : Nat) (w : World) (i : EntryInfo) :
    (s.enter x v w i).upCtx x (fun c => { c with stepDue := false }) = s.enter x v w i := by
  obtain ⟨t, g, ht, hctx, hg⟩ := enter_enters s x v w i
  obtain ⟨q, d, r, hl⟩ := completeLoads_eq (s.ctx x)
  have hdue : (g (t.ctx x)).stepDue = false := by
    rw [hctx, hl]
    exact (hg.keeps _).2.elim (fun k => k.trans h) id
  rw [ht, upCtx_upCtx]
  refine upCtx_congr ?_
  rw [← hdue]

end Sys2Proof.Laws
end

section
/-! PROOFS. NOP, FORM, TRAP, BKPT and SYNC (O5), the system registers and RAND (O6, O7). -/

namespace Sys2Proof.Proofs.ProgramState

open Sys2Proof Sys2Proof.Machine Sys2Proof.Laws

variable {s s0 s1 s2 : State} {x : CtxId} {i : Ins} {f : Fetched} {o : Op} {c : Ctx} {n : Nat} {v : Word}

/-! ## NOP and SYNC -/

/-- An instruction that writes nothing and goes on (R252). -/
theorem finish_goesOn (hq : (s.ctx x).quiet = true) (hr : s.inReset = false) :
    s.finish s0 x f [goesOn] = s.afterIns x f id := by
  have hcalm : Calm ((s.upCtx x (fun c => c.retired f.own)).ctx x) (s.ctx x).pc := by
    rw [ctx_upCtx_same]
    exact quiet_calm _ hq
  rw [finish_seq (d := goesOn) hq rfl hr hcalm]
  exact upCtx_upCtx s x (fun c => c.retired f.own) (fun c => c.goTo f.next)

/-- R358: with no TLBI of the context outstanding and no error recorded, a SYNC goes on once its earlier stores are performed. -/
theorem effSync_clear {e : Env} (ht : s.tlbiPending e.x = false) (he : ((s.drain e.x).ctx e.x).storeErr = none) :
    effSync e i s = .ok goesOn (s.drain e.x) := by
  rw [effSync, ht, he]
  rfl

/-! ## FORM -/

/-- A change of form where no hardware loop is active (R151, R169). -/
theorem formTo_idle {e : Env} (hl : e.c.anyLevel = false) (w : Bool) (a : Nat) : formTo e s w a
    = .ok { commit := fun t => (t.upCtx e.x (fun c => { c.goTo a with csw := setBit c.csw 0 w })).unblockNmi e.x false
            ctl := .mode } s := by
  rw [formTo, hl]
  rfl

/-- FORM goes on in its form at an address, and what follows is a shadow but after a shadow (R151, R152). -/
theorem commandUpset_form (h : s.alone x = some (i, f, s1)) (ho : i.op = o) (hl : (s1.ctx x).anyLevel = false) (w : Bool) (a : Nat)
    (he : effect o (envOf s1 x f 0) i s1 = formTo (envOf s1 x f 0) s1 w a) :
    s.commandUpset x o 0 .none = s1.upCtx x (fun c =>
      { (c.retired f.own).goTo a with csw := setBit c.csw 0 w, shadow := !c.shadow, modes := c.modes + 1 }) := by
  obtain ⟨hq, hr⟩ := alone_quiet h
  obtain ⟨-, -, -, hloads, -, hdue⟩ := quiet_parts hq
  rw [commandUpset_completes h ho (he.trans (formTo_idle (e := envOf s1 x f 0) hl w a)) hr]
  exact finish_mode (u := fun c => { c.goTo a with csw := setBit c.csw 0 w }) hq hr false hloads
    ⟨hdue.stepping, hdue.stepDue, hdue.trapDue⟩

/-! ## TRAP and BKPT -/

/-- The context with vector 23 due, or not. -/
def withTrap (p : Option Byte) (c : Ctx) : Ctx := { c with trapDue := p }

/-- The boundary at which a trap is due enters its handler (R355 item 2). -/
theorem boundary_trap {code : Byte} (hdelay : (s.ctx x).delay = none) (hstopped : (s.ctx x).stopped = false)
    (hhalt : (s.ctx x).haltReq = false) (hstepping : (s.ctx x).stepping = false) (hstep : (s.ctx x).stepDue = false)
    (htrap : (s.ctx x).trapDue = some code) : s.boundary x = (s.upCtx x (withTrap none)).enter x 23 (s.ctx x).world
      { xpc := (s.ctx x).pc, xaddr := 0, xinfo := code.toNat, async := false, dly := none } := by
  have hcalm : ((s.upCtx x (withTrap none)).ctx x).stepDue = false := by rwa [ctx_upCtx_same]
  have hkeeps := enter_stepDue hcalm 23 (s.ctx x).world
    { xpc := (s.ctx x).pc, xaddr := 0, xinfo := code.toNat, async := false, dly := none }
  have hnone (t : State) : (t.upCtx x (fun c => { c with stepDue := false })).takeStep x
      = t.upCtx x (fun c => { c with stepDue := false }) := by
    simp [State.takeStep]
  have hdue : s.takeDue x = (s.upCtx x (withTrap none)).enter x 23 (s.ctx x).world
      { xpc := (s.ctx x).pc, xaddr := 0, xinfo := code.toNat, async := false, dly := none } := by
    simp only [State.takeDue, htrap, hstep, Bool.false_and, Bool.false_eq_true, if_false]
    exact (hnone _).trans hkeeps
  simp only [State.boundary, hdelay, hstopped, State.stepEnded, hstepping, State.haltPermitted, hhalt, Option.isSome_none,
    Bool.false_and, Bool.or_false, Bool.false_eq_true, if_false, hdue]

/-- R355: a TRAP retires, and vector 23 is entered at the boundary after it. -/
theorem finish_trap (hq : (s.ctx x).quiet = true) (hr : s.inReset = false) (hhalt : (s.ctx x).haltReq = false)
    (hstopped : (s.ctx x).stopped = false) (code : Byte) :
    s.finish s0 x f [{ commit := fun t => t.upCtx x (withTrap (some code)), ctl := .seq }]
      = (s.afterIns x f id).enter x 23 (s.ctx x).world
          { xpc := BitVec.ofNat 48 f.next, xaddr := 0, xinfo := code.toNat, async := false, dly := none } := by
  obtain ⟨hdelay, hend, -, hloads, hss, hdue⟩ := quiet_parts hq
  have hgo : (withTrap (some code) ((s.ctx x).begun f.own)).follow (s.ctx x) f .seq
      = withTrap (some code) (((s.ctx x).retired f.own).goTo f.next) := by
    rw [begun_noLoads hloads, follow_seq hdelay]
    exact goOn_levels (c := withTrap (some code) ((s.ctx x).retired f.own)) (atLoopEnd_iff.mp hend) f.next
  have hup : s.upCtx x (fun c => (withTrap (some code) (c.begun f.own)).follow (s.ctx x) f .seq)
      = s.upCtx x (fun c => withTrap (some code) ((c.retired f.own).goTo f.next)) := upCtx_congr hgo
  have hfinish : s.finish s0 x f [{ commit := fun t => t.upCtx x (withTrap (some code)), ctl := .seq }]
      = (s.upCtx x (fun c => withTrap (some code) ((c.retired f.own).goTo f.next))).boundary x := by
    rw [finish_retires rfl rfl hss (by exact hr), ← hup]
    simp only [State.commitAll, List.foldl_cons, List.foldl_nil, upCtx_upCtx]
    rfl
  have hafter : s.upCtx x (fun c => withTrap none (withTrap (some code) ((c.retired f.own).goTo f.next))) = s.afterIns x f id := by
    refine upCtx_congr ?_
    rw [withTrap, ← hdue.trapDue]
    rfl
  rw [hfinish, boundary_trap (code := code), upCtx_upCtx, hafter, ctx_upCtx_same]
  · rfl
  all_goals rw [ctx_upCtx_same]
  exacts [hdelay, hstopped, hhalt, hdue.stepping, hdue.stepDue, rfl]

/-- Outside a delay bundle a fault that is no machine check, and whose address the spec gives, enters its handler (R347); a context
that the port does not step goes on there. -/
theorem raiseIns_enters {e : Exc} (hm : e.vec ≠ 1) (ho : e.vec ≠ 5 ∧ e.vec ≠ 11 ∧ e.vec ≠ 18) (ha : e.errAddr = none)
    (hw : e.monitor = false) (hd : (s.ctx x).delay = none) (hs : (s.ctx x).stepping = false) :
    s.raiseIns x e = s.enter x e.vec (s.ctx x).world
      { xpc := (s.ctx x).pc, xaddr := e.xaddr, xinfo := e.xinfo, async := e.async, dly := none, xinst := e.xinst } := by
  obtain ⟨h5, h11, h18⟩ := ho
  simp [State.raiseIns, Exc.recorded, hm, State.openAddr, h5, h11, h18, State.raise, hd, ha, hw, State.setErrAddrOpt,
    State.endStep, enter_stepping, hs]

/-- R359: BKPT enters vector 22 with the PC at the BKPT. -/
theorem commandUpset_bkpt (h : s.alone x = some (i, f, s1)) (ho : i.op = .bkpt) (hc : s1.fromClosed f.own = false) :
    s.commandUpset x .bkpt 0 .none = s1.enter x 22 (s1.ctx x).world
      { xpc := (s1.ctx x).pc, xaddr := 0, xinfo := 1, async := false, dly := none } := by
  obtain ⟨hq, hr⟩ := alone_quiet h
  obtain ⟨hdelay, -, -, -, -, hdue⟩ := quiet_parts hq
  have he : effect .bkpt (envOf s1 x f 0) i s1 = .exc { vec := 22, xinfo := 1 } s1 := by
    change effBkpt (envOf s1 x f 0) i s1 = _
    rw [effBkpt]
    exact if_neg (by simp [envOf, hc])
  rw [commandUpset_raises h ho he hr]
  exact raiseIns_enters (e := { vec := 22, xinfo := 1 }) (by decide) (by decide) rfl rfl hdelay hdue.stepping

/-- Settles O5, instruction by instruction. -/
theorem nopFormTrapBreakpointAndSync : Obligations.NopFormTrapBreakpointAndSync := by
  unfold Obligations.NopFormTrapBreakpointAndSync
  refine ⟨⟨fun s s1 x i f h => ⟨fun ho => ?_, fun ho hl => ?_, fun ho hl => ?_⟩,
    fun s s1 x i f h => ⟨fun ho hhalt hstopped => ?_, fun ho hc => ?_⟩⟩, fun s s1 x i f h ho ht hr hq he => ?_⟩
  · obtain ⟨hq, hr⟩ := alone_quiet h
    exact congrArg _ ((commandUpset_completes h ho rfl hr).trans (finish_goesOn hq hr))
  · exact congrArg _ (commandUpset_form h ho hl _ _ rfl)
  · exact congrArg _ (commandUpset_form h ho hl _ _ rfl)
  · obtain ⟨hq, hr⟩ := alone_quiet h
    have htrap := (commandUpset_completes h ho rfl hr).trans (finish_trap hq hr hhalt hstopped (BitVec.ofNat 8 i.num))
    rw [BitVec.toNat_ofNat] at htrap
    exact congrArg _ htrap
  · exact congrArg _ (commandUpset_bkpt h ho hc)
  · have heff : effect .sync (envOf s1 x f 0) i s1 = .ok goesOn (s1.drain x) := effSync_clear (i := i) ht he
    exact congrArg _ ((commandUpset_completes h ho heff hr).trans (finish_goesOn hq hr))

/-! ## System registers -/

/-- R123: MFSR of a register that is assigned, where the context has the right. -/
theorem effMfsr_reads {e : Env} {d : BitVec 5} (hops : i.ops = [.reg d]) (hget : e.c.sysGet e.x i.num = some v)
    (hright : sysRightExc e.c i.num false = none) :
    effMfsr e i s = .ok { commit := fun t => t.upCtx e.x (fun c => c.setG d v), ctl := .seq } s := by
  simp only [effMfsr, hget, hright, withOpnds, hops]
  rfl

/-- R123: MTSR of a register that is assigned, where the context has the right. -/
theorem effMtsr_writes {e : Env} {d : BitVec 5} (hops : i.ops = [.reg d]) (hget : e.c.sysGet e.x i.num = some v)
    (hright : sysRightExc e.c i.num true = none) : effMtsr e i s
      = .ok { commit := fun t => t.upCtx e.x (fun c => c.sysSet i.num (e.c.getG d)), ctl := .seq } s := by
  simp only [effMtsr, hget, hright, withOpnds, hops]
  rfl

/-- A write of a system register stands apart from what a retirement changes. -/
theorem sysSet_retired (c : Ctx) (own : Option Nat) (n : Nat) (v : Word) :
    (c.retired own).sysSet n v = (c.sysSet n v).retired own := by
  have hbank : bankWorld (c.retired own) n = bankWorld c n := rfl
  rw [Ctx.sysSet, Ctx.sysSet, hbank]
  cases bankWorld c n with
  | none =>
    dsimp only
    unfold Ctx.perSet
    split <;> rfl
  | some w => cases w <;> rfl

/-- What a write of a system register leaves of the context: what may fall due, and where it stands. -/
theorem sysSet_keeps (c : Ctx) (n : Nat) (v : Word) : (c.sysSet n v).stepping = c.stepping ∧ (c.sysSet n v).stepDue = c.stepDue
    ∧ (c.sysSet n v).trapDue = c.trapDue ∧ (c.sysSet n v).pc = c.pc := by
  unfold Ctx.sysSet
  cases bankWorld c n with
  | none =>
    dsimp only
    unfold Ctx.perSet
    split <;> exact ⟨rfl, rfl, rfl, rfl⟩
  | some w => cases w <;> exact ⟨rfl, rfl, rfl, rfl⟩

/-- R124: a write that makes no loop end of the PC goes on in sequence. -/
theorem finish_sysSet (hq : (s.ctx x).quiet = true) (hr : s.inReset = false)
    (hend : ((s.ctx x).sysSet n v).atLoopEnd = false) :
    s.finish s0 x f [{ commit := fun t => t.upCtx x (fun c => c.sysSet n v), ctl := .seq }]
      = s.afterIns x f (fun c => c.sysSet n v) := by
  obtain ⟨hdelay, -, -, hloads, hss, hdue⟩ := quiet_parts hq
  obtain ⟨h1, h2, h3, hpc⟩ := sysSet_keeps (s.ctx x) n v
  have hgo : (((s.ctx x).begun f.own).sysSet n v).follow (s.ctx x) f .seq = (((s.ctx x).retired f.own).sysSet n v).goTo f.next := by
    rw [begun_noLoads hloads, follow_seq hdelay, sysSet_retired]
    exact goOn_levels (c := ((s.ctx x).sysSet n v).retired f.own) (hpc ▸ atLoopEnd_iff.mp hend) f.next
  have hctl : ctlOf [{ commit := fun t => t.upCtx x (fun c => c.sysSet n v), ctl := .seq }] = .seq := rfl
  have hcommit : s.commitAll x f [{ commit := fun t => t.upCtx x (fun c => c.sysSet n v), ctl := .seq }]
      = s.upCtx x (fun c => (c.begun f.own).sysSet n v) := upCtx_upCtx s x (fun c => c.begun f.own) (fun c => c.sysSet n v)
  rw [finish_updates rfl rfl hss hr hcommit, hctl]
  · exact upCtx_congr hgo
  · rw [hctl, hgo, sysSet_retired]
    exact hdue.congr h1 h2 h3

/-- R417: RAND writes its registers in the state that a draw leaves, where randomness is ready. -/
theorem randTo_retired (d r : BitVec 5) : (s.upCtx x (fun c => c.retired f.own)).randTo x d r
    = if s.rngReady then (s.drawBytes 8).2.upCtx x
        (fun c => ((c.retired f.own).setG d (BitVec.ofNat 64 (leNat (s.drawBytes 8).1))).setG r 1)
      else s.upCtx x (fun c => ((c.retired f.own).setG d 0).setG r 0) := by
  have hready : (s.upCtx x (fun c => c.retired f.own)).rngReady = s.rngReady := rfl
  rw [State.randTo, hready]
  split
  · exact upCtx_upCtx (s.drawBytes 8).2 x (fun c => c.retired f.own) _
  · exact upCtx_upCtx s x (fun c => c.retired f.own) _

/-- A quiet context that writes two general registers stays calm. -/
theorem calm_setG_setG (h : c.quiet = true) (own : Option Nat) (d r : BitVec 5) (v w : Word) :
    Calm (((c.retired own).setG d v).setG r w) c.pc := by
  rw [setG_eq, setG_eq]
  exact quiet_calm _ h

/-- R417: RAND goes on in sequence. -/
theorem commandUpset_rand {d r : BitVec 5} (h : s.alone x = some (i, f, s1)) (ho : i.op = .rand) (hops : i.ops = [.reg d, .reg r]) :
    s.commandUpset x .rand 0 .none = if s1.rngReady then (s1.drawBytes 8).2.afterIns x f (fun c =>
        (c.setG d (BitVec.ofNat 64 (leNat (s1.drawBytes 8).1))).setG r 1)
      else s1.afterIns x f (fun c => (c.setG d 0).setG r 0) := by
  obtain ⟨hq, hr⟩ := alone_quiet h
  have heff : effect .rand (envOf s1 x f 0) i s1 = .ok { commit := fun t => t.randTo x d r, ctl := .seq } s1 := by
    change effRand (envOf s1 x f 0) i s1 = _
    simp only [effRand, withOpnds, hops]
    rfl
  have hseq := finish_seq (s0 := s) (f := f) (d := { commit := fun t => t.randTo x d r, ctl := .seq }) hq rfl
  dsimp only at hseq
  rw [randTo_retired] at hseq
  rw [commandUpset_completes h ho heff hr]
  split at hseq
  next hrng =>
    rw [if_pos hrng, hseq hr (by rw [ctx_upCtx_same]; exact calm_setG_setG hq _ _ _ _ _)]
    exact upCtx_upCtx (s1.drawBytes 8).2 x (fun c => _) (fun c => c.goTo f.next)
  next hrng =>
    rw [if_neg hrng, hseq hr (by rw [ctx_upCtx_same]; exact calm_setG_setG hq _ _ _ _ _)]
    exact upCtx_upCtx s1 x (fun c => _) (fun c => c.goTo f.next)

/-- Settles O6, instruction by instruction. -/
theorem systemRegisterInstructions : Obligations.SystemRegisterInstructions := by
  unfold Obligations.SystemRegisterInstructions
  intro s s1 x i f h
  obtain ⟨hq, hr⟩ := alone_quiet h
  refine ⟨fun d v ho hops hget hright => ?_, fun d v ho hops hget hright hend => ?_, fun d r ho hops hrng => ?_,
    fun d r ho hops hrng => ?_⟩
  · have heff : effect .mfsr (envOf s1 x f 0) i s1 = .ok { commit := fun t => t.upCtx x (fun c => c.setG d v), ctl := .seq } s1 :=
      effMfsr_reads (e := envOf s1 x f 0) hops hget hright
    exact congrArg _ (commandUpset_updates h ho heff (local_setG _ _ _))
  · have heff : effect .mtsr (envOf s1 x f 0) i s1
        = .ok { commit := fun t => t.upCtx x (fun c => c.sysSet i.num ((s1.ctx x).getG d)), ctl := .seq } s1 :=
      effMtsr_writes (e := envOf s1 x f 0) hops hget hright
    exact congrArg _ ((commandUpset_completes h ho heff hr).trans (finish_sysSet hq hr hend))
  · exact congrArg _ ((commandUpset_rand h ho hops).trans (if_pos hrng))
  · exact congrArg _ ((commandUpset_rand h ho hops).trans (if_neg (by simp [hrng])))

/-! ## What a system register holds -/

/-- A word cut to its low bits is the word under their mask. -/
theorem setWidth_back (v : Word) (k : Nat) : (v.setWidth k).setWidth 64 = v &&& BitVec.ofNat 64 (2 ^ k - 1) := by
  refine BitVec.eq_of_getLsbD_eq fun j hj => ?_
  rw [BitVec.getLsbD_and, BitVec.getLsbD_setWidth, BitVec.getLsbD_setWidth, BitVec.getLsbD_ofNat, Nat.testBit_two_pow_sub_one]
  simp [hj, Bool.and_comm]

theorem setWidth48_back (v : Word) : (v.setWidth 48).setWidth 64 = v &&& 0xFFFFFFFFFFFF := setWidth_back v 48

theorem setWidth32_back (v : Word) : (v.setWidth 32).setWidth 64 = v &&& 0xFFFFFFFF := setWidth_back v 32

@[simp] theorem bank_setBank (c : Ctx) (w : World) (b : Bank) : (c.setBank w b).bank w = b := by
  cases w <;> rfl

/-- A per-context register as it is read after it is written (Table 5.1). -/
theorem sysGet_sysSet_per (hn : n < 0x100) : (c.sysSet n v).sysGet x n = (c.perSet n v).perGet x n := by
  have hnone (k : Ctx) : bankWorld k n = none := if_pos hn
  rw [Ctx.sysGet, if_neg (by omega), hnone, Ctx.sysSet, hnone]

/-- A banked register as it is read after it is written (Table 5.2, R123). -/
theorem sysGet_sysSet_bank {w : World} (hn : n < 0x400) (hw : bankWorld c n = some w) :
    (c.sysSet n v).sysGet x n = ((c.bank w).set (n % 0x100) v).get (n % 0x100) := by
  have hkeep : bankWorld (c.setBank w ((c.bank w).set (n % 0x100) v)) n = bankWorld c n := by
    cases w <;> rfl
  rw [Ctx.sysGet, if_neg (by omega), Ctx.sysSet, hw]
  dsimp only
  rw [hkeep, hw]
  dsimp only
  rw [bank_setBank]

/-- The three ranges of numbers that reach a bank (R123). -/
theorem bankWorld_range {b o : Nat} (hb : b ∈ ([0x100, 0x200, 0x300] : List Nat)) (ho : o < 0x100) :
    (∃ w, bankWorld c (b + o) = some w) ∧ b + o < 0x400 ∧ (b + o) % 0x100 = o := by
  have hrange : 0x100 ≤ b + o ∧ b + o < 0x400 ∧ (b + o) % 0x100 = o := by
    simp only [List.mem_cons, List.not_mem_nil, or_false] at hb
    omega
  refine ⟨?_, hrange.2⟩
  rw [bankWorld, if_neg (by omega)]
  split
  · exact ⟨_, rfl⟩
  · split <;> exact ⟨_, rfl⟩

/-- Registers of 64 bits hold every bit. -/
theorem perGet_perSet_64 (hn : n ∈ ([0x004, 0x005, 0x030, 0x031, 0x032, 0x033] : List Nat)) :
    (c.perSet n v).perGet x n = some v := by
  simp only [List.mem_cons, List.not_mem_nil, or_false] at hn
  rcases hn with rfl | rfl | rfl | rfl | rfl | rfl <;> simp [Ctx.perSet, Ctx.perGet]

/-- Addresses hold 48 bits. -/
theorem perGet_perSet_48
    (hn : n ∈ ([0x010, 0x011, 0x012, 0x014, 0x015, 0x016, 0x020, 0x021, 0x022, 0x023] : List Nat)) :
    (c.perSet n v).perGet x n = some (v &&& 0xFFFFFFFFFFFF) := by
  simp only [List.mem_cons, List.not_mem_nil, or_false] at hn
  rcases hn with rfl | rfl | rfl | rfl | rfl | rfl | rfl | rfl | rfl | rfl <;>
    simp [Ctx.perSet, Ctx.perGet, setWidth48_back]

/-- Counts and lengths hold 32 bits. -/
theorem perGet_perSet_32 (hn : n ∈ ([0x018, 0x019, 0x01A, 0x024, 0x025, 0x026, 0x027] : List Nat)) :
    (c.perSet n v).perGet x n = some (v &&& 0xFFFFFFFF) := by
  simp only [List.mem_cons, List.not_mem_nil, or_false] at hn
  rcases hn with rfl | rfl | rfl | rfl | rfl | rfl | rfl <;> simp [Ctx.perSet, Ctx.perGet, setWidth32_back]

theorem get_set_64 (b : Bank) (hn : n ∈ ([0x02, 0x03, 0x04, 0x05, 0x06, 0x10, 0x11, 0x12] : List Nat)) :
    (b.set n v).get n = some v := by
  simp only [List.mem_cons, List.not_mem_nil, or_false] at hn
  rcases hn with rfl | rfl | rfl | rfl | rfl | rfl | rfl | rfl <;> rfl

theorem get_set_48 (b : Bank) (hn : n ∈ ([0x00, 0x01, 0x18] : List Nat)) :
    (b.set n v).get n = some (v &&& 0xFFFFFFFFFFFF) := by
  simp only [List.mem_cons, List.not_mem_nil, or_false] at hn
  rcases hn with rfl | rfl | rfl <;> exact congrArg some (setWidth48_back v)

/-- XINST0 to XINST3 ignore writes. -/
theorem set_xinst (b : Bank) (hn : n ∈ ([0x08, 0x09, 0x0A, 0x0B] : List Nat)) : b.set n v = b := by
  simp only [List.mem_cons, List.not_mem_nil, or_false] at hn
  rcases hn with rfl | rfl | rfl | rfl <;> rfl

/-- Settles O7, group by group of Tables 5.1 and 5.2. -/
theorem systemRegistersHoldWhatIsWritten : Obligations.SystemRegistersHoldWhatIsWritten := by
  unfold Obligations.SystemRegistersHoldWhatIsWritten
  intro c x v
  have hsmall {l : List Nat} (hl : ∀ k ∈ l, k < 0x100) {n : Nat} (hn : n ∈ l) :
      (c.sysSet n v).sysGet x n = (c.perSet n v).perGet x n := sysGet_sysSet_per (hl n hn)
  refine ⟨fun n hn => ?_, rfl, rfl, rfl, rfl, fun n hn => ?_, fun n hn => ?_, fun n hn => ?_,
    fun b hb => ⟨fun o ho => ?_, fun o ho => ?_, fun o ho => ?_⟩⟩
  · rw [hsmall (by decide) hn]
    exact perGet_perSet_64 (List.mem_append_left [0x030, 0x031, 0x032, 0x033] hn)
  · rw [hsmall (by decide) hn, perGet_perSet_48 hn]
  · rw [hsmall (by decide) hn, perGet_perSet_32 hn]
  · rw [hsmall (by decide) hn]
    exact perGet_perSet_64 (List.mem_append_right [0x004, 0x005] hn)
  · obtain ⟨⟨w, hw⟩, hlt, hmod⟩ := bankWorld_range (c := c) hb ((by decide : ∀ k ∈ _, k < 0x100) o ho)
    rw [sysGet_sysSet_bank hlt hw, hmod, get_set_64 _ ho]
  · obtain ⟨⟨w, hw⟩, hlt, hmod⟩ := bankWorld_range (c := c) hb ((by decide : ∀ k ∈ _, k < 0x100) o ho)
    rw [sysGet_sysSet_bank hlt hw, hmod, get_set_48 _ ho]
  · obtain ⟨⟨w, hw⟩, hlt, hmod⟩ := bankWorld_range (c := c) hb ((by decide : ∀ k ∈ _, k < 0x100) o ho)
    rw [Ctx.sysSet, hw, hmod]
    dsimp only
    rw [set_xinst _ ho]
    cases w <;> rfl

end Sys2Proof.Proofs.ProgramState
end

section
/-! PROOFS. The returns (O30). -/

namespace Sys2Proof.Proofs.Returns

open Sys2Proof Sys2Proof.Machine Sys2Proof.Laws

variable {s s1 : State} {x : CtxId} {i : Ins} {f : Fetched} {o : Op} {c : Ctx} {w : World} {b : Bank}

/-- What the stack pointers of a return leave alone: the loads, and what may fall due. -/
theorem setBank_setG_keeps (c : Ctx) (w : World) (b : Bank) (r : BitVec 5) (v : Word) :
    ((c.setBank w b).setG r v).loads = c.loads ∧ (NothingDue c → NothingDue ((c.setBank w b).setG r v)) := by
  rw [setG_eq]
  cases w <;> exact ⟨rfl, fun h => h.congr rfl rfl rfl⟩

/-- R352: XRET and SYSRET of a supervisor, with a legal saved CSW of a world that it may return to, raise nothing. -/
theorem returnExc_none {e : Env} (hu : e.c.isUser = false) (hb : badXcsw (e.c.bank e.c.world).xcsw = false)
    (hw : bitAt (e.c.bank e.c.world).xcsw 1 = false ∨ e.c.world = .secure) : returnExc e = none := by
  have hworld : ¬ (bitAt (e.c.bank e.c.world).xcsw 1 = true ∧ e.c.world = .nonSecure) := by
    rintro ⟨h1, h2⟩
    obtain h | h := hw
    · simp [h] at h1
    · simp [h] at h2
  simp only [returnExc, Env.user, hu, hb, hworld, Bool.false_eq_true, if_false]

theorem effXret_returns {e : Env} (h : returnExc e = none) :
    effXret e i s = .ok (returnBy e (fun c => swapSp c e.c.world (e.c.getG spReg))) s := by
  rw [effXret, h]

theorem effSysret_returns {e : Env} (h : returnExc e = none) :
    effSysret e i s = .ok (returnBy e (fun c => restoreSp c e.c.world)) s := by
  rw [effSysret, h]

/-- R381: MONRET of the monitor to world 0, with a legal saved CSW, raises nothing. -/
theorem effMonret_returns {e : Env} (hw : e.c.world = .secure) (hu : e.c.isUser = false)
    (hb : badXcsw (e.c.bank e.c.world).xcsw = false) (h1 : bitAt (e.c.bank e.c.world).xcsw 1 = false) :
    effMonret e i s = .ok (returnBy e (fun c => restoreSp c e.c.world)) s := by
  rw [hw] at hb h1
  have hlegal : (badXcsw e.c.bankS.xcsw || bitAt e.c.bankS.xcsw 1) = false := Bool.or_eq_false_iff.mpr ⟨hb, h1⟩
  simp [effMonret, hw, Env.user, hu, hlegal]

/-- A return unblocks NMI where it leaves the secure world. -/
theorem unblockNmi_leaves (t : State) (x : CtxId) (w : World) (v : Word) :
    t.unblockNmi x (decide (w = .secure) && !bitAt v 1)
      = if w = .secure ∧ bitAt v 1 = false then t.clrReg (cxReg x .nmi) 2 else t := by
  cases w <;> cases bitAt v 1 <;> rfl

/-- R352, R381, R147: a return through the bank of the current world that raises nothing, with the stack pointers that it leaves
in the bank and in G31. -/
theorem commandUpset_return {g : Ctx → Ctx} {v : Word} (h : s.alone x = some (i, f, s1)) (ho : i.op = o)
    (he : effect o (envOf s1 x f 0) i s1 = .ok (returnBy (envOf s1 x f 0) g) s1)
    (hg : g ((s1.ctx x).retired f.own) = (((s1.ctx x).retired f.own).setBank (s1.ctx x).world b).setG 31 v) :
    s.commandUpset x o 0 .none
      = (s1.afterMode x f (fun k =>
          ((k.setBank (s1.ctx x).world b).setG 31 v).returnTo ((s1.ctx x).bank (s1.ctx x).world))).unblockNmi x
          (decide ((s1.ctx x).world = .secure) && !bitAt ((s1.ctx x).bank (s1.ctx x).world).xcsw 1) := by
  obtain ⟨hq, hr⟩ := alone_quiet h
  obtain ⟨-, -, -, hloads, -, hdue⟩ := quiet_parts hq
  have hcomplete : ((s1.ctx x).retired f.own).completeLoads = (s1.ctx x).retired f.own := completeLoads_none hloads
  have hkeeps := setBank_setG_keeps ((s1.ctx x).retired f.own) (s1.ctx x).world b 31 v
  have hdue' := hkeeps.2 (hdue.congr rfl rfl rfl)
  rw [commandUpset_completes h ho he hr]
  refine (finish_mode (u := fun c => (g c.completeLoads).returnTo ((s1.ctx x).bank (s1.ctx x).world)) hq hr _ ?_ ?_).trans ?_
  · rw [hcomplete, hg]
    exact hkeeps.1.trans hloads
  · rw [hcomplete, hg]
    exact hdue'.congr rfl rfl rfl
  · refine congrArg (State.unblockNmi · x _) (upCtx_congr ?_)
    dsimp only
    rw [hcomplete, hg]

/-- Settles O30: each return by the one rule of returns, with its own stack pointers. -/
theorem returnsRestoreTheSavedState : Obligations.ReturnsRestoreTheSavedState := by
  unfold Obligations.ReturnsRestoreTheSavedState
  intro s s1 x i f h hu c w b hb
  have hback {o : Op} {g : Ctx → Ctx} {b' : Bank} {v : Word} (ho : i.op = o)
      (he : effect o (envOf s1 x f 0) i s1 = .ok (returnBy (envOf s1 x f 0) g) s1)
      (hg : g (c.retired f.own) = ((c.retired f.own).setBank w b').setG 31 v) :=
    (commandUpset_return h ho he hg).trans (unblockNmi_leaves _ x w b.xcsw)
  refine ⟨fun ho hw => ?_, fun ho hw => ?_, fun ho hw h1 => ?_⟩
  · exact congrArg _ (hback ho (effXret_returns (i := i) (e := envOf s1 x f 0) (returnExc_none hu hb hw)) rfl)
  · exact congrArg _ (hback ho (effSysret_returns (i := i) (e := envOf s1 x f 0) (returnExc_none hu hb hw)) rfl)
  · exact congrArg _ (hback ho (effMonret_returns (i := i) (e := envOf s1 x f 0) hw hu hb h1) rfl)

end Sys2Proof.Proofs.Returns
end

section
/-! PROOFS. The entry of a handler (O32). -/

namespace Sys2Proof.Proofs.Entries

open Sys2Proof Sys2Proof.Machine Sys2Proof.Laws

variable {s s1 : State} {x y : CtxId} {c : Ctx} {w : World} {i : EntryInfo} {e csw : Word} {v k : Nat}

/-! ## The entry as a whole -/

/-- An entry whose vector is read makes the writes of R348, leaves an enclave, and blocks NMI in the secure world. -/
theorem enter_reads (h : (s.upCtx x Ctx.completeLoads).readVector x (entryCsw (s.ctx x).completeLoads.csw w false)
      (((s.ctx x).completeLoads.bank w).vbr.toNat / 8 * 8 + 8 * v) = .ok e s1) : s.enter x v w i
      = ((s1.leaveEncl x i.xpc.toNat).upCtx x (fun c => enterWrites c w i e)).blockNmi x w := by
  cases w with
  | secure =>
    change (s.upCtx x Ctx.completeLoads).readVector x _ ((s.ctx x).completeLoads.bankS.vbr.toNat / 8 * 8 + 8 * v) = _ at h
    simp only [State.enter, State.enterSecure, ctx_upCtx_same, h]
  | nonSecure =>
    change (s.upCtx x Ctx.completeLoads).readVector x _ ((s.ctx x).completeLoads.bankNs.vbr.toNat / 8 * 8 + 8 * v) = _ at h
    simp only [State.enter, ctx_upCtx_same, h]
    rfl

@[simp] theorem ctx_blockNmi (s : State) (x y : CtxId) (w : World) : (s.blockNmi x w).ctx y = s.ctx y := by
  cases w <;> rfl

/-- An entry into the secure world blocks NMI (R365). -/
theorem blockNmi_blocks (s : State) (x : CtxId) : bitAt ((s.blockNmi x .secure).reg (cxReg x .nmi)) 1 = true := by
  have hreg : (s.blockNmi x .secure).reg (cxReg x .nmi) = s.reg (cxReg x .nmi) ||| 2 := reg_orReg_same _ _ _
  rw [hreg, bitAt, BitVec.getLsbD_or]
  simp

/-! ## The bank -/

theorem bank_enterWrites : (enterWrites c w i e).bank w = entryBank c w i := by
  rw [enterWrites_eq]
  cases w <;> rfl

/-- DLY and DTK aside, the saved CSW is the context's (R147). -/
theorem bitAt_savedCsw_other (d : Option (Bool × Word)) (h16 : k ≠ 16) (h17 : k ≠ 17) :
    bitAt (savedCsw csw d) k = bitAt csw k := by
  rw [savedCsw, bitAt_setBit_other _ _ _ _ h17, bitAt_setBit_other _ _ _ _ h16]

theorem bitAt_savedCsw_dly (d : Option (Bool × Word)) : bitAt (savedCsw csw d) 16 = d.isSome := by
  rw [savedCsw, bitAt_setBit_other _ _ _ _ (by decide), bitAt_setBit_same _ _ _ (by decide)]

theorem bitAt_savedCsw_dtk (d : Option (Bool × Word)) :
    bitAt (savedCsw csw d) 17 = (match d with | none => false | some p => p.1) := by
  rw [savedCsw, bitAt_setBit_same _ _ _ (by decide)]
  cases d <;> rfl

/-- XINFO[63:60] of an entry, as a field (R349). -/
theorem entryFlags_eq (c : Ctx) (w : World) (async : Bool) : entryFlags c w async
    = 2 ^ 60 * (bit (decide (c.world = w) && !c.isUser && !bitAt c.csw 5) + 2 * bit (decide (c.world ≠ w)) + 8 * bit async) := by
  rw [entryFlags]
  omega

/-- XINFO is the event's bits below NEST, CROSS and ASYNC (R349). -/
theorem bitAt_entryXinfo (n m : Nat) (hk : k < 64) :
    bitAt (BitVec.ofNat 64 (n % 2 ^ 60 + 2 ^ 60 * m)) k = if k < 60 then n.testBit k else m.testBit (k - 60) := by
  rw [bitAt, BitVec.getLsbD_ofNat, Nat.add_comm, Nat.testBit_two_pow_mul_add _ (Nat.mod_lt _ (by decide)),
    Nat.testBit_mod_two_pow]
  split <;> simp [*]

/-- NEST, CROSS, a clear bit and ASYNC. -/
theorem testBit_flags (a b d : Bool) : (bit a + 2 * bit b + 8 * bit d).testBit 0 = a ∧ (bit a + 2 * bit b + 8 * bit d).testBit 1 = b
    ∧ (bit a + 2 * bit b + 8 * bit d).testBit 2 = false ∧ (bit a + 2 * bit b + 8 * bit d).testBit 3 = d := by
  revert a b d
  decide

/-! ## The CSW (R348) -/

theorem bitAt_entryCsw_form (b : Bool) : bitAt (entryCsw csw w b) 0 = b := by
  cases w <;> cases b <;> simp [entryCsw, setBit, bitAt_setBits]

theorem bitAt_entryCsw_world (b : Bool) : bitAt (entryCsw csw w b) 1 = decide (w = .secure) := by
  cases w <;> simp [entryCsw, setBit, bitAt_setBits]

theorem bitAt_entryCsw_ten (b : Bool) :
    bitAt (entryCsw csw w b) 4 = (match w with | .secure => false | .nonSecure => bitAt csw 4) := by
  cases w <;> simp [entryCsw, setBit, bitAt_setBits]

/-- IE is clear, UPG set, SS clear and SIP clear. -/
theorem bitAt_entryCsw_fixed (b : Bool) : bitAt (entryCsw csw w b) 5 = false ∧ bitAt (entryCsw csw w b) 6 = true
    ∧ bitAt (entryCsw csw w b) 7 = false ∧ bitAt (entryCsw csw w b) 12 = false := by
  cases w <;> simp [entryCsw, setBit, bitAt_setBits]

theorem bitsOf_entryCsw_priv (b : Bool) : bitsOf (entryCsw csw w b) 3 2 = 1 := by
  cases w <;> simp (disch := omega) [entryCsw, setBit, bitsOf_setBits_apart, bitsOf_setBits_same]

theorem bitsOf_entryCsw_lact (b : Bool) : bitsOf (entryCsw csw w b) 15 13 = 0 := by
  cases w <;> simp (disch := omega) [entryCsw, setBit, bitsOf_setBits_same]

theorem bitsOf_entryCsw_tag (b : Bool) :
    bitsOf (entryCsw csw w b) 41 32 = (match w with | .secure => 0 | .nonSecure => bitsOf csw 41 32) := by
  cases w <;> simp (disch := omega) [entryCsw, setBit, bitsOf_setBits_apart, bitsOf_setBits_same]

/-- Settles O32, by what the writes of an entry leave in each field. -/
theorem exceptionEntryWrites : Obligations.ExceptionEntryWrites := by
  unfold Obligations.ExceptionEntryWrites
  intro s s1 x v w i e c b hread hs1 t
  have hent := enter_reads (i := i) hread
  have hleave (y : CtxId) : (s1.leaveEncl x i.xpc.toNat).ctx y = s1.ctx y := ctx_of_ctxs (leaveEncl_ctxs _ _ _) y
  have ht : t = enterWrites c w i e := by
    change (s.enter x v w i).ctx x = _
    rw [hent, ctx_blockNmi, ctx_upCtx_same, hleave, hs1]
  have hbank : t.bank w = entryBank c w i := by rw [ht, bank_enterWrites]
  have hxinfo {k : Nat} (hk : k < 64) := bitAt_entryXinfo (k := k) i.xinfo
    (bit (decide (c.world = w) && !c.isUser && !bitAt c.csw 5) + 2 * bit (decide (c.world ≠ w)) + 8 * bit i.async) hk
  rw [← entryFlags_eq] at hxinfo
  have hcsw : t.csw = entryCsw c.csw w (bitAt e 63) := by rw [ht, enterWrites_eq]
  obtain ⟨hnest, hcross, hclear, hasync⟩ :=
    testBit_flags (decide (c.world = w) && !c.isUser && !bitAt c.csw 5) (decide (c.world ≠ w)) i.async
  obtain ⟨hie, hupg, hss, hsip⟩ := bitAt_entryCsw_fixed (csw := c.csw) (w := w) (bitAt e 63)
  rw [hbank, hcsw]
  refine ⟨rfl, rfl, rfl, ?_, fun k _ => bitAt_savedCsw_other _, bitAt_savedCsw_dly _, bitAt_savedCsw_dtk _, ?_, fun k hk => ?_,
    ?_, ?_, ?_, ?_, ?_, bitAt_entryCsw_form _, ?_, bitsOf_entryCsw_priv _, hie, hupg, hss, hsip, bitsOf_entryCsw_lact _, ?_, ?_, ?_,
    fun r hr => ?_, fun y hy => ?_⟩
  · rw [ht, enterWrites_eq]
    exact smGet_set_same _ _ _ _
  · cases hd : i.dly <;> simp [entryBank, hd, b]
  · exact (hxinfo (by omega)).trans (if_pos hk)
  · refine ((hxinfo (k := 60) (by decide)).trans hnest).trans ?_
    simp [Bool.and_assoc]
  · exact (hxinfo (k := 61) (by decide)).trans hcross
  · exact (hxinfo (k := 62) (by decide)).trans hclear
  · exact (hxinfo (k := 63) (by decide)).trans hasync
  · rw [ht, enterWrites_eq]
  · rw [Ctx.world, hcsw, bitAt_entryCsw_world]
    cases w <;> rfl
  · rintro rfl
    exact ⟨bitAt_entryCsw_ten _, bitsOf_entryCsw_tag _⟩
  · rintro rfl
    exact ⟨bitAt_entryCsw_ten _, bitsOf_entryCsw_tag _⟩
  · rintro rfl
    rw [hent]
    exact blockNmi_blocks _ _
  · have h31 : r.toNat ≠ 31 := fun h => hr (BitVec.eq_of_toNat_eq h)
    rw [ht, enterWrites_eq, Ctx.getG, Ctx.getG, smGet_set_other _ _ _ _ _ _ h31]
  · rw [hent, ctx_blockNmi, ctx_upCtx_other _ _ _ _ hy, hleave]

end Sys2Proof.Proofs.Entries
end

section
/-! PROOFS. Bundles, delay bundles and loop ends (O33). -/

namespace Sys2Proof.Proofs.Bundles

open Sys2Proof Sys2Proof.Machine Sys2Proof.Laws

variable {s s1 : State} {x : CtxId} {i j : Ins} {f : Fetched} {o : Op} {c : Ctx} {e : Env} {ds : List Done} {k : Nat}
  {a : VirtAddr}

/-! ## Executing a bundle -/

/-- A delay bundle that no return resumed is fetched as any other. -/
theorem fetchNext_eq (h : ∀ d, (s.ctx x).delay = some d → d.replay = false) : s.fetchNext x = s.fetch x := by
  unfold State.fetchNext
  split
  · rfl
  next d hd => exact if_neg (by simp [h d hd])

/-- An instruction without UAO and KEYO that stands at no loop end, or is no transfer and no mode change, has its own effect. -/
theorem evalOne_plain (hi : i.uao = false ∧ i.keyo = false)
    (hend : e.c.atLoopEnd = false ∨ (i.op.isTransfer || i.op.isMode) = false) (s : State) :
    evalOne e i s = effect i.op e i s := by
  have hloop : (e.c.atLoopEnd && (i.op.isTransfer || i.op.isMode)) = false := Bool.and_eq_false_iff.mpr hend
  simp only [evalOne, hi.1, hi.2, hloop, Bool.or_self, Bool.false_and, Bool.false_eq_true, if_false]

/-- Outside a string instruction, and where no delay bundle stands at a loop end, no exception comes before the bundle. -/
theorem earlyExc_none (hsip : e.c.sip = false) (hd : e.c.delay = none ∨ e.c.atLoopEnd = false) (s : State) :
    earlyExc e f s = none := by
  have hloop : (e.c.delay.isSome && e.c.atLoopEnd) = false := by
    obtain h | h := hd <;> simp [h]
  simp only [earlyExc, hsip, hloop, Bool.false_and, Bool.false_eq_true, if_false]

/-- Two syllables that neither raise anything nor change the state under evaluation. -/
theorem evalAll_pair {g : Ins → State → XR Done} {d d' : Done} (h1 : g i s = .ok d s) (h2 : g j s = .ok d' s) :
    evalAll g none [i, j] s = .ok [d, d'] s := by
  simp only [evalAll, h1, h2, XR.bind]

theorem evalAll_one {g : Ins → State → XR Done} {d : Done} (h : g i s = .ok d s) : evalAll g none [i] s = .ok [d] s := by
  simp only [evalAll, h, XR.bind]

/-- A context that can run, outside the stop of a tide, fetches a bundle, with no string instruction in progress, no load outstanding
and nothing due; a delay bundle that it may be was resumed by no return. -/
structure Fetches (s : State) (x : CtxId) (f : Fetched) (s1 : State) : Prop where
  run : s.canRun x = true
  tide : s.tide.stopping = false
  next : s.fetchNext x = .ok f s1
  inReset : s1.inReset = false
  sip : (s1.ctx x).sip = false
  loads : (s1.ctx x).loads = []
  ss : bitAt (s1.ctx x).csw 7 = false
  due : NothingDue (s1.ctx x)

namespace Fetches

/-- A bundle that raises nothing completes. -/
theorem completes (h : Fetches s x f s1) (hi : f.insns.any (fun i => decide (i.op = o)) = true)
    (hd : (s1.ctx x).delay = none ∨ (s1.ctx x).atLoopEnd = false)
    (he : evalAll (evalOne (envOf s1 x f 0)) none f.insns s1 = .ok ds s1) :
    s.commandUpset x o 0 .none = s1.finish s x f ds := by
  have hearly : earlyExc (envOf s1 x f 0) f s1 = none := earlyExc_none (e := envOf s1 x f 0) h.sip hd s1
  rw [commandUpset_fetched h.run h.tide h.next hi]
  simp only [State.execute, hearly, he, h.inReset, Bool.false_eq_true, if_false]

/-- What retiring leaves of such a context. -/
theorem begun (h : Fetches s x f s1) : (s1.ctx x).begun f.own = (s1.ctx x).retired f.own := begun_noLoads h.loads f.own

theorem retired_due (h : Fetches s x f s1) : NothingDue ((s1.ctx x).retired f.own) := h.due.congr rfl rfl rfl

/-- A bundle of a NOP alone retires, and control goes on in sequence. -/
theorem nop (h : Fetches s x f s1) (hl : f.insns = [i]) (hi : i.uao = false ∧ i.keyo = false) (ho : i.op = .nop)
    (hd : (s1.ctx x).delay = none ∨ (s1.ctx x).atLoopEnd = false)
    (hdue : NothingDue (((s1.ctx x).retired f.own).follow (s1.ctx x) f .seq)) : exec (.nop x) s
      = .next (s1.upCtx x (fun c => (c.begun f.own).follow (s1.ctx x) f .seq)) := by
  have hone : evalOne (envOf s1 x f 0) i s1 = .ok goesOn s1 := by
    rw [evalOne_plain hi (.inr (by rw [ho]; rfl)), ho]
    rfl
  have hcmd : s.commandUpset x .nop 0 .none = s1.finish s x f [goesOn] :=
    h.completes (by simp [hl, ho]) hd (by rw [hl]; exact evalAll_one hone)
  refine congrArg Host.Outcome.next (hcmd.trans (finish_updates rfl rfl h.ss h.inReset rfl ?_))
  rw [h.begun]
  exact hdue

end Fetches

/-- ADD of registers, with the values that it found. -/
theorem effAdd_regs {d r q : BitVec 5} (hops : i.ops = [.reg d, .reg r, .reg q]) : effAdd e i s
    = .ok { commit := fun t => t.upCtx e.x (fun c => c.setG d (e.c.getG r + e.c.getG q)), ctl := .seq } s := by
  simp only [effAdd, alu, withOpnds, hops]
  rfl

/-- FMVG of registers, with the value that it found. -/
theorem effFmvg_regs {d r : BitVec 5} (hops : i.ops = [.reg d, .reg r]) : effFmvg e i s
    = .ok { commit := fun t => t.upCtx e.x (fun c => c.setA (d.toNat % 4) ((e.c.getG r).setWidth 40)), ctl := .seq } s := by
  simp only [effFmvg, withOpnds, hops]
  rfl

/-! ## Delay bundles -/

/-- The transfer that a delay bundle ends with (R146, R161): where no level ends, it is made where it is taken. -/
theorem endDelay_levels (h : ∀ k < 3, c.endsAt k a = false) (d : DelayBranch) (w : Bool) (n : Nat) :
    c.endDelay d w a n =
      let c1 : Ctx := { c with delay := none }
      let c2 := if d.call then c1.push (retPtr true n) else c1
      if d.taken then c2.jumpTo d.target (d.shadow || w) else c2.goTo n := by
  have hpush : ∀ k < 3,
      (if d.call then ({ c with delay := none } : Ctx).push (retPtr true n) else { c with delay := none }).endsAt k a = false := by
    intro k hk
    obtain ⟨rs, p, hp⟩ := push_eq { c with delay := none } (retPtr true n)
    rw [hp]
    split <;> exact h k hk
  rw [Ctx.endDelay]
  dsimp only
  rw [loopEnd_levels hpush]

theorem endDelay_nothingDue (h : ∀ k < 3, c.endsAt k a = false) (hdue : NothingDue c) (d : DelayBranch) (w : Bool) (n : Nat) :
    NothingDue (c.endDelay d w a n) := by
  have hbase : NothingDue { c with delay := none } := hdue.congr rfl rfl rfl
  rw [endDelay_levels h]
  dsimp only
  split <;> split
  · exact (hbase.push _).jumpTo _ _
  · exact hbase.jumpTo _ _
  · exact (hbase.push _).goTo _
  · exact hbase.goTo _

/-! ## Loop ends (R166) -/

/-- Dropping a level leaves the ends of the others. -/
theorem endsAt_dropLevel {n : Nat} (m : SMap Word32) (h : n ≠ k) :
    ({ c.dropLevel k with lpc := m } : Ctx).endsAt n a = c.endsAt n a := by
  have hbit : bitAt (setBit c.csw (13 + k) false) (13 + n) = bitAt c.csw (13 + n) := bitAt_setBit_other _ _ _ _ (by omega)
  rw [Ctx.endsAt, Ctx.endsAt, Ctx.lact, Ctx.lact]
  exact congrArg (· && _) hbit

/-- What the one level that ends at an address makes of a loop end: it counts down and goes back to its start, or is dropped. -/
def oneEnd (c : Ctx) (k : Nat) : Ctx × Option Nat :=
  if (smGet c.lpc 0 k).toNat ≤ 1 then ({ c.dropLevel k with lpc := smSet c.lpc 0 k 0 }, none)
  else ({ c with lpc := smSet c.lpc 0 k (smGet c.lpc 0 k - 1) }, some (smGet c.lps 0 k).toNat)

theorem loopEnd_one {l : List Nat} (hl : l.Nodup) (hk : k ∈ l) (hend : c.endsAt k a = true)
    (hothers : ∀ n ∈ l, n ≠ k → c.endsAt n a = false) : c.loopEnd a l = oneEnd c k := by
  induction l with
  | nil => simp at hk
  | cons n l ih =>
    obtain ⟨hnl, hl⟩ := List.nodup_cons.mp hl
    by_cases hn : n = k
    · subst hn
      have hrest : ({ c.dropLevel n with lpc := smSet c.lpc 0 n 0 } : Ctx).loopEnd a l
          = ({ c.dropLevel n with lpc := smSet c.lpc 0 n 0 }, none) := by
        refine loopEnd_none fun q hq => ?_
        have hne : q ≠ n := fun h => hnl (h ▸ hq)
        rw [endsAt_dropLevel _ hne, hothers q (List.mem_cons_of_mem _ hq) hne]
      rw [Ctx.loopEnd, if_pos hend, hrest, oneEnd]
    · have hmem : k ∈ l := (List.mem_cons.mp hk).resolve_left (Ne.symm hn)
      have hskip : c.endsAt n a = false := hothers n List.mem_cons_self hn
      rw [Ctx.loopEnd, if_neg (by simp [hskip])]
      exact ih hl hmem fun q hq => hothers q (List.mem_cons_of_mem _ hq)

/-- Where one level ends, an instruction in sequence goes on as that level says. -/
theorem goOn_one (hk : k < 3) (hend : c.endsAt k a = true) (hothers : ∀ n < 3, n ≠ k → c.endsAt n a = false) (n : Nat) :
    c.goOn a n = (oneEnd c k).1.goTo ((oneEnd c k).2.getD n) := by
  have hlevels : c.loopEnd a [2, 1, 0] = oneEnd c k := by
    refine loopEnd_one (by decide) (by simp; omega) hend fun q hq => hothers q ?_
    simp at hq
    omega
  rw [Ctx.goOn, hlevels]

theorem oneEnd_nothingDue (hdue : NothingDue c) (k : Nat) : NothingDue (oneEnd c k).1 := by
  unfold oneEnd
  split <;> exact hdue.congr rfl rfl rfl

/-! ## The cases -/

/-- R140: an ADD and an FMVG of one bundle read their sources before either writes. -/
theorem add_fmvg_together (h : Fetches s x f s1) {d r q d' r' : BitVec 5} (hl : f.insns = [i, j])
    (hi : i.uao = false ∧ i.keyo = false) (hj : j.uao = false ∧ j.keyo = false) (hio : i.op = .add) (hjo : j.op = .fmvg)
    (hiops : i.ops = [.reg d, .reg r, .reg q]) (hjops : j.ops = [.reg d', .reg r']) (hdelay : (s1.ctx x).delay = none)
    (hend : (s1.ctx x).atLoopEnd = false) : exec (.add x) s = .next (s1.upCtx x (fun c =>
      (((c.retired f.own).setG d ((s1.ctx x).getG r + (s1.ctx x).getG q)).setA (d'.toNat % 4)
        (((s1.ctx x).getG r').setWidth 40)).goTo f.next)) := by
  have hone : evalOne (envOf s1 x f 0) i s1
      = .ok { commit := fun t => t.upCtx x (fun c => c.setG d ((s1.ctx x).getG r + (s1.ctx x).getG q)), ctl := .seq } s1 := by
    rw [evalOne_plain hi (.inr (by rw [hio]; rfl)), hio]
    exact effAdd_regs (e := envOf s1 x f 0) hiops
  have htwo : evalOne (envOf s1 x f 0) j s1
      = .ok { commit := fun t => t.upCtx x (fun c => c.setA (d'.toNat % 4) (((s1.ctx x).getG r').setWidth 40)), ctl := .seq } s1 := by
    rw [evalOne_plain hj (.inr (by rw [hjo]; rfl)), hjo]
    exact effFmvg_regs (e := envOf s1 x f 0) hjops
  have hcmd := h.completes (o := .add) (by simp [hl, hio]) (.inl hdelay) (by rw [hl]; exact evalAll_pair hone htwo)
  have hgo : ((((s1.ctx x).begun f.own).setG d ((s1.ctx x).getG r + (s1.ctx x).getG q)).setA (d'.toNat % 4)
        (((s1.ctx x).getG r').setWidth 40)).follow (s1.ctx x) f .seq
      = ((((s1.ctx x).retired f.own).setG d ((s1.ctx x).getG r + (s1.ctx x).getG q)).setA (d'.toNat % 4)
        (((s1.ctx x).getG r').setWidth 40)).goTo f.next := by
    rw [h.begun, follow_seq hdelay, setG_eq]
    exact goOn_levels (c := { (s1.ctx x).retired f.own with g := _, a := _ }) (atLoopEnd_iff.mp hend) f.next
  have hdue : NothingDue (((((s1.ctx x).retired f.own).setG d ((s1.ctx x).getG r + (s1.ctx x).getG q)).setA (d'.toNat % 4)
        (((s1.ctx x).getG r').setWidth 40)).goTo f.next) := by
    rw [setG_eq]
    exact h.due.congr rfl rfl rfl
  refine congrArg Host.Outcome.next (hcmd.trans ?_)
  refine (finish_updates (u := fun c => ((c.begun f.own).setG d ((s1.ctx x).getG r + (s1.ctx x).getG q)).setA (d'.toNat % 4)
    (((s1.ctx x).getG r').setWidth 40)) rfl rfl h.ss h.inReset ?_ ?_).trans (upCtx_congr hgo)
  · simp only [State.commitAll, List.foldl_cons, List.foldl_nil, upCtx_upCtx]
  · exact (congrArg NothingDue hgo).mpr hdue

/-- R146: after a delay bundle the transfer that waited is made where it is taken. -/
theorem nop_endsDelay (h : Fetches s x f s1) {d : DelayBranch} (hl : f.insns = [i]) (hi : i.uao = false ∧ i.keyo = false)
    (ho : i.op = .nop) (hdelay : (s1.ctx x).delay = some d) (hend : (s1.ctx x).atLoopEnd = false) :
    exec (.nop x) s = .next (s1.upCtx x (fun c =>
      let c1 := { c.retired f.own with delay := none }
      let c2 := if d.call then c1.push (retPtr true f.next) else c1
      if d.taken then c2.jumpTo d.target (d.shadow || (s1.ctx x).shadow) else c2.goTo f.next)) := by
  have hlevels : ∀ k < 3, ((s1.ctx x).retired f.own).endsAt k (s1.ctx x).pc = false := atLoopEnd_iff.mp hend
  have hfollow (c : Ctx) : c.follow (s1.ctx x) f .seq = c.endDelay d (s1.ctx x).shadow (s1.ctx x).pc f.next := by
    rw [Ctx.follow, hdelay]
  rw [h.nop hl hi ho (.inr hend) (by rw [hfollow]; exact endDelay_nothingDue hlevels h.retired_due _ _ _)]
  refine congrArg Host.Outcome.next (upCtx_congr ?_)
  rw [hfollow, h.begun, endDelay_levels hlevels]

/-- R166: where one level ends, a NOP goes on as that level says. -/
theorem nop_endsLoop (h : Fetches s x f s1) (hl : f.insns = [i]) (hi : i.uao = false ∧ i.keyo = false) (ho : i.op = .nop)
    (hdelay : (s1.ctx x).delay = none) (hk : k < 3) (hend : (s1.ctx x).endsAt k (s1.ctx x).pc = true)
    (hothers : ∀ n < 3, n ≠ k → (s1.ctx x).endsAt n (s1.ctx x).pc = false) : exec (.nop x) s = .next (s1.upCtx x (fun c =>
      (oneEnd (c.retired f.own) k).1.goTo ((oneEnd (c.retired f.own) k).2.getD f.next))) := by
  have hgo : ((s1.ctx x).retired f.own).follow (s1.ctx x) f .seq = (oneEnd ((s1.ctx x).retired f.own) k).1.goTo
      ((oneEnd ((s1.ctx x).retired f.own) k).2.getD f.next) := by
    rw [follow_seq hdelay]
    exact goOn_one (c := (s1.ctx x).retired f.own) hk hend hothers f.next
  rw [h.nop hl hi ho (.inl hdelay) (by rw [hgo]; exact (oneEnd_nothingDue h.retired_due k).goTo _)]
  refine congrArg Host.Outcome.next (upCtx_congr ?_)
  rw [h.begun, hgo]

/-- Settles O33, case by case: a bundle of two syllables, a delay bundle, and the end of one level. -/
theorem bundlesDelaysAndLoopEnds : Obligations.BundlesDelaysAndLoopEnds := by
  unfold Obligations.BundlesDelaysAndLoopEnds
  intro s s1 x f i hrun ht hf hr c plain hsip hloads hss hstepping hstep htrap hsame
  have hfetches (hnext : ∀ d, c.delay = some d → d.replay = false) : Fetches s x f s1 :=
    ⟨hrun, ht, (fetchNext_eq (hsame ▸ hnext)).trans hf, hr, hsip, hloads, hss, hstepping, hstep, htrap⟩
  have hcalm (hdelay : c.delay = none) : Fetches s x f s1 := hfetches (by simp [hdelay])
  refine ⟨fun j d r q d' r' hl hi hj hio hjo hiops hjops hdelay hend =>
      add_fmvg_together (hcalm hdelay) hl hi hj hio hjo hiops hjops hdelay hend,
    fun d hl hi ho hdelay hreplay hend => nop_endsDelay (hfetches ?_) hl hi ho hdelay hend,
    fun k hl hi ho hdelay hk hend hothers => ?_⟩
  · intro d' hd'
    rw [hdelay] at hd'
    exact Option.some.inj hd' ▸ hreplay
  · have hloop := nop_endsLoop (hcalm hdelay) hl hi ho hdelay hk hend hothers
    refine ⟨fun hn => hloop.trans ?_, fun hn => hloop.trans ?_⟩
    · refine congrArg Host.Outcome.next (upCtx_congr ?_)
      have hback : oneEnd (c.retired f.own) k = _ := if_neg (not_le.mpr hn)
      rw [hback]
      rfl
    · refine congrArg Host.Outcome.next (upCtx_congr ?_)
      have hdrop : oneEnd (c.retired f.own) k = _ := if_pos hn
      rw [hdrop]
      rfl

end Sys2Proof.Proofs.Bundles
end

section
/-! SUPPORT. The stop of an atomic tide, and a tide of one register that stands alone (spec/21 R502 to R505, Table 21.2). -/

namespace Sys2Proof.Laws

open Sys2Proof Sys2Proof.Machine

variable {s t : State} {x : CtxId} {r : Reg} {e : StagedEntry} {l : List CtxId} {v : Word32}

/-! ## The stop -/

/-- The state in which the tide stop of the listed contexts has been made. -/
def stoppedAt (s : State) (l : List CtxId) : State := { s with tide := { s.tide with stops := l } }

theorem noteStops_eq (s : State) : s.noteStops = stoppedAt s (s.tide.stops ++ s.stopsNow) := rfl

/-- A context whose stop has been made stands at no boundary that is open. -/
theorem openBoundary_stopped (h : x ∈ l) : (stoppedAt s l).openBoundary x = false := by
  have hcontains : (stoppedAt s l).tide.stops.contains x = true := List.contains_iff_mem.mpr h
  simp [State.openBoundary, State.atBoundary, hcontains, - List.contains_eq_mem]

/-- For any other context, stops that are made change nothing. -/
theorem openBoundary_other (h : x ∉ l) (h0 : x ∉ s.tide.stops) : (stoppedAt s l).openBoundary x = s.openBoundary x := by
  have hcontains : (stoppedAt s l).tide.stops.contains x = s.tide.stops.contains x := by
    change l.contains x = _
    simp [h, h0]
  have hat : (stoppedAt s l).atBoundary x = s.atBoundary x := by
    unfold State.atBoundary
    rw [hcontains]
    rfl
  unfold State.openBoundary State.busErrReady State.nmiReady
  rw [hat]
  rfl

/-- Once the stops that are due have been made, none is. -/
theorem stopsNow_stoppedAt (h0 : s.tide.stops = []) : (stoppedAt s s.stopsNow).stopsNow = [] := by
  refine List.filter_eq_nil_iff.mpr fun x hx => ?_
  by_cases hs : x ∈ s.stopsNow
  · simp [openBoundary_stopped hs]
  · rw [openBoundary_other hs (by simp [h0])]
    have hirq : (stoppedAt s s.stopsNow).nextIrq x = s.nextIrq x := rfl
    rw [hirq]
    exact fun h => hs (List.mem_filter.mpr ⟨hx, h⟩)

/-- While a context has still to stop, the stop only waits (R505 step 1). -/
theorem tideStop_waits (ht : s.tide.stopping = true) (h : s.noteStops.allStopped = false) : s.tideStop = s.noteStops := by
  rw [State.tideStop, if_pos ht, if_neg (by simp [h])]

theorem tideStop_ends (ht : s.tide.stopping = true) (h : s.noteStops.allStopped = true) :
    s.tideStop = s.noteStops.tideApply := by
  rw [State.tideStop, if_pos ht, if_pos h]

/-- Where every stop that is due has been made and a context has still to stop, nothing happens. -/
theorem tideStop_noted (ht : s.tide.stopping = true) (h0 : s.tide.stops = []) (h : (stoppedAt s s.stopsNow).allStopped = false) :
    (stoppedAt s s.stopsNow).tideStop = stoppedAt s s.stopsNow := by
  have hnote : (stoppedAt s s.stopsNow).noteStops = stoppedAt s s.stopsNow := by
    rw [noteStops_eq, stopsNow_stoppedAt h0, List.append_nil]
    rfl
  exact (tideStop_waits (s := stoppedAt s s.stopsNow) ht (by rw [hnote]; exact h)).trans hnote

/-- A context whose stop has been made executes nothing (R505). -/
theorem canRun_stopped (h : x ∈ l) : (stoppedAt s l).canRun x = false := by
  have hcontains : (stoppedAt s l).tide.stops.contains x = true := List.contains_iff_mem.mpr h
  simp [State.canRun, State.mustWait, hcontains, - List.contains_eq_mem]

theorem commandUpset_stopped (ht : s.tide.stopping = true) (h0 : s.tide.stops = [])
    (h : (stoppedAt s s.stopsNow).allStopped = false) (hx : x ∈ s.stopsNow) (o : Op) (n : Nat) :
    (stoppedAt s s.stopsNow).commandUpset x o n .none = stoppedAt s s.stopsNow := by
  have hstop := tideStop_noted ht h0 h
  have hidle : (stoppedAt s s.stopsNow).meetsUpset x o n .none = stoppedAt s s.stopsNow := by
    rw [State.meetsUpset, State.command, canRun_stopped hx]
    rfl
  exact (if_pos ht).trans (by rw [hstop, hidle, hstop])

/-! ## The loads of the stopped contexts (R145) -/

theorem completeLoads_twice (c : Ctx) : c.completeLoads.completeLoads = c.completeLoads := completeLoads_none rfl

/-- Updating each context of a list by what done twice is as done once. -/
theorem ctx_foldl_upCtx {g : Ctx → Ctx} (hg : ∀ c, g (g c) = g c) (l : List CtxId) (s : State) (x : CtxId) :
    (l.foldl (fun s y => s.upCtx y g) s).ctx x = if x ∈ l then g (s.ctx x) else s.ctx x := by
  induction l generalizing s with
  | nil => rfl
  | cons y l ih =>
    rw [List.foldl_cons, ih]
    by_cases hxy : x = y
    · subst hxy
      simp [hg]
    · simp [ctx_upCtx_other _ _ _ _ hxy, hxy]

theorem mem_ledgerCtxs (x : CtxId) : x ∈ ledgerCtxs ↔ x ≠ bootCtx := by
  revert x
  decide

/-- The loads of every context of a ledger core have completed. -/
theorem ctx_stopLoads (s : State) (x : CtxId) :
    s.stopLoads.ctx x = if x = bootCtx then s.ctx x else (s.ctx x).completeLoads := by
  rw [State.stopLoads, ctx_foldl_upCtx completeLoads_twice]
  by_cases hx : x = bootCtx
  · simp [hx, List.mem_filter, mem_ledgerCtxs]
  · cases hl : (s.ctx x).loads with
    | nil => simp [hx, hl, completeLoads_none hl, List.mem_filter]
    | cons p q => simp [hx, hl, List.mem_filter, mem_ledgerCtxs]

/-- Nothing else changes. -/
theorem stopLoads_ctxsOnly (s : State) : { s.stopLoads with ctxs := s.ctxs } = s :=
  foldl_keeps (fun t : State => { t with ctxs := s.ctxs } = s) _ _ s rfl fun _ _ h => h

/-- Whatever does not depend on the contexts stays. -/
theorem stopLoads_keeps {β : Type} (s : State) (g : State → β) (hg : ∀ t m, g { t with ctxs := m } = g t) :
    g s.stopLoads = g s := by
  rw [← hg s.stopLoads s.ctxs, stopLoads_ctxsOnly]

/-! ## A tide of one register that stands alone -/

theorem regAt_addr (r : Reg) : regAt r.addr = some r := by
  rw [regAt, devPlace_addr]

/-- The equaliser of a link and the hold limit of a site: what an entry of theirs does is its value alone. -/
def StandsAlone (r : Reg) : Prop := (∃ k, r = .link k .eq) ∨ ∃ n, r = .site n .holdLimit

theorem applyEntries_one (h : StandsAlone r) (s : State) (e : StagedEntry) :
    s.applyEntries [(r.addr, e)] = s.setReg r (s.entryValue r e) := by
  simp only [State.applyEntries, List.filterMap_cons, regAt_addr, Option.map_some, List.filterMap_nil, List.foldl_cons,
    List.foldl_nil]
  obtain ⟨k, rfl⟩ | ⟨n, rfl⟩ := h <;> rfl

theorem tideSites_one (r : Reg) (e : StagedEntry) : tideSites [(r.addr, e)] = r.tideSite.toList := by
  have hbind : (regAt r.addr).bind Reg.tideSite = r.tideSite := by rw [regAt_addr]; rfl
  simp only [tideSites, List.filterMap_cons, List.filterMap_nil, hbind]
  cases r.tideSite <;> rfl

/-- A site with no append begins none. -/
theorem tryBegin_none {n : SiteId} (h : (s.site n).appends = []) : s.tryBegin n = s := by
  rw [State.tryBegin, h]

theorem foldl_stays {α β : Type} {g : α → β → α} {l : List β} {a : α} (h : ∀ b ∈ l, g a b = a) : l.foldl g a = a := by
  induction l with
  | nil => rfl
  | cons b l ih =>
    rw [List.foldl_cons, h b List.mem_cons_self]
    exact ih fun c hc => h c (List.mem_cons_of_mem _ hc)

/-- With no fence of a held core asked for, none is marked. -/
theorem heldFences_none (h : ∀ c < 16, (s.core c).state = .held → (s.core c).fencing = false) : s.heldFences = s := by
  refine foldl_stays fun c hc => if_neg ?_
  rintro ⟨hheld, hfencing⟩
  simp [h c (List.mem_range.mp hc) hheld] at hfencing

/-- The second part of an atomic tide over one register that stands alone (R505): the loads complete, the register holds its
value, and the tide is done. -/
theorem tideApply_one (hr : StandsAlone r) (hes : s.tide.entries = [(r.addr, e)]) (hdef : s.tide.deferred = [])
    (hv : s.entryValue r e = v) (happ : ∀ n, r.tideSite = some n → (s.site n).appends = [])
    (hf : ∀ c < 16, (s.core c).state = .held → (s.core c).fencing = false) :
    s.tideApply = (s.stopLoads.setReg r v).tideDone := by
  have hvalue : s.stopLoads.entryValue r e = v := (stopLoads_keeps s (State.entryValue · r e) fun _ _ => rfl).trans hv
  have hbegin : r.tideSite.toList.foldl (fun s n => s.tryBegin n) (s.stopLoads.setReg r v).tideDone
      = (s.stopLoads.setReg r v).tideDone := by
    refine foldl_stays fun n hn => tryBegin_none ?_
    exact (stopLoads_keeps s (State.site · n) fun _ _ => rfl).symm ▸ happ n (Option.mem_toList.mp hn)
  have hfences : (s.stopLoads.setReg r v).tideDone.heldFences = (s.stopLoads.setReg r v).tideDone := by
    refine heldFences_none fun c hc => ?_
    exact (stopLoads_keeps s (State.core · c) fun _ _ => rfl).symm ▸ hf c hc
  rw [State.tideApply, hes, hdef, applyEntries_one hr, hvalue, tideSites_one]
  exact (congrArg State.heldFences hbegin).trans hfences

/-- A commit of entries with no operation in flight at their sites stops the contexts first (R502, R505). -/
theorem commitTide_atomic (hover : s.tide.overrun = false) (hes : s.tide.staged.isEmpty = false)
    (hops : (tideSites s.tide.staged).any (fun n => s.opInFlight n) = false) : s.commitTide
      = State.tideStop { s with
          tide := { staged := [], overrun := false, entries := s.tide.staged, busy := true, stopping := true } } := by
  simp only [State.commitTide, hover, hes, hops, Bool.not_false, Bool.and_self, Bool.false_eq_true, if_false, if_true]

end Sys2Proof.Laws
end

section
/-! PROOFS. A committed tide of one register (O42). -/

namespace Sys2Proof.Proofs.Tides

open Sys2Proof Sys2Proof.Machine Sys2Proof.Laws

variable {s : State} {a : Access} {data : Word32} {r : Reg} {e : StagedEntry} {v : Word32}

/-- A write of CFG_COMMIT that commits and does not discard, while no tide is in progress. -/
theorem exec_commit (hr : s.reaches a (.g .cfgCommit) data = true) (hb : s.tide.busy = false) (h0 : writes1 a data 0 = true)
    (h1 : writes1 a data 1 = false) : exec (.commit a data) s = .next (s.commitTide.complete a) := by
  have hw : s.liveWrite (whoOf a) (s.accWorld a (.g .cfgCommit)) (.g .cfgCommit) (lanesOf a) data = some s.commitTide := by
    change s.cfgWrite (lanesOf a) data = _
    unfold writes1 at h0 h1
    simp only [State.cfgWrite, h0, h1, hb, Bool.and_false, Bool.false_eq_true, if_false, if_true]
  rw [exec, execCommit, if_pos h0, writeReg_live hr rfl rfl (by simp) hw]

/-- A hold limit in its range, and any value of an equaliser, is taken (R17, Table 3.1). -/
theorem entryValue_taken (h : (∃ k, r = .link k .eq) ∨ ∃ n, r = .site n .holdLimit
      ∧ 1 ≤ (mergeBits (s.reg r) (laneMask e.lanes &&& r.tideMask) e.data).toNat
      ∧ (mergeBits (s.reg r) (laneMask e.lanes &&& r.tideMask) e.data).toNat ≤ 60000) :
    s.entryValue r e = mergeBits (s.reg r) (laneMask e.lanes &&& r.tideMask) e.data := by
  obtain ⟨k, rfl⟩ | ⟨n, rfl, hlo, hhi⟩ := h
  · rfl
  · exact if_pos ⟨hlo, hhi⟩

/-! ## What a tide that is done leaves (R504) -/

/-- The tide's part of the state once it has ended. -/
def endedTide (t : Tide) : Tide := { t with busy := false, entries := [], stopping := false, deferred := [], stops := [] }

theorem tideDone_tide (s : State) : s.tideDone.tide = endedTide s.tide := rfl

theorem tideDone_epoch (s : State) : s.tideDone.reg (.g .cfgEpoch) = s.reg (.g .cfgEpoch) + 1 := by
  rw [State.tideDone, reg_setLine_other _ (by simp), reg_setHint_other _ (by simp), State.bumpWrap, reg_setReg_same]
  rfl

theorem tideDone_hint (s : State) : bitAt (s.tideDone.reg (.g .hintStatus)) 3 = true := by
  rw [State.tideDone, reg_setLine_other _ (by simp), State.setHint, reg_orReg_same, bitAt, BitVec.getLsbD_or]
  simp

theorem tideDone_line (s : State) : bitAt (s.tideDone.reg (.d .irqLinePend)) 2 = true := by
  rw [State.tideDone, State.setLine, reg_orReg_same, bitAt, BitVec.getLsbD_or]
  simp

theorem tideDone_other {q : Reg} (s : State) (h1 : q ≠ .g .cfgEpoch) (h2 : q ≠ .g .hintStatus) (h3 : q ≠ .d .irqLinePend) :
    s.tideDone.reg q = s.reg q := by
  rw [State.tideDone, reg_setLine_other _ h3, reg_setHint_other _ h2, State.bumpWrap, reg_setReg_other _ _ _ _ h1]
  rfl

/-- A register that stands alone is none of those that the end of a tide changes. -/
theorem standsAlone_apart (h : StandsAlone r) : r ≠ .g .cfgEpoch ∧ r ≠ .g .hintStatus ∧ r ≠ .d .irqLinePend := by
  obtain ⟨k, rfl⟩ | ⟨n, rfl⟩ := h <;> simp

/-- Settles O42: the commit begins the stop, which waits or ends at once, and what it then applies is one register. -/
theorem aCommittedTideTakesEffect : Obligations.ACommittedTideTakesEffect := by
  unfold Obligations.ACommittedTideTakesEffect
  intro s a data r e hbusy hover hstaged hr h0 h1 hkind under noted
  have halone : StandsAlone r := hkind.imp id fun ⟨n, hn, _⟩ => ⟨n, hn⟩
  have hops : (tideSites s.tide.staged).any (fun n => s.opInFlight n) = false := by
    rw [hstaged, tideSites_one]
    obtain ⟨k, rfl⟩ | ⟨n, rfl, hop, -⟩ := hkind
    · rfl
    · simp [Reg.tideSite, hop]
  have hcommit : exec (.commit a data) s = .next (under.tideStop.complete a) := by
    rw [exec_commit hr hbusy h0 h1, commitTide_atomic hover (by rw [hstaged]; rfl) hops]
  refine ⟨fun hwait => ⟨?_, fun x hx => ?_⟩, fun hall hfence => ⟨_, hcommit, ?_⟩⟩
  · rw [hcommit, tideStop_waits rfl hwait]
    rfl
  · exact congrArg Host.Outcome.next (commandUpset_stopped (s := under) rfl rfl hwait hx .nop 0)
  · have hvalue : noted.entryValue r e = mergeBits (s.reg r) (laneMask e.lanes &&& r.tideMask) e.data :=
      entryValue_taken (s := noted) (hkind.imp id fun ⟨n, hn, _, _, hlo, hhi⟩ => ⟨n, hn, hlo, hhi⟩)
    have happends (n : SiteId) (hn : r.tideSite = some n) : (noted.site n).appends = [] := by
      obtain ⟨k, rfl⟩ | ⟨m, rfl, -, happ, -⟩ := hkind
      · cases hn
      · cases hn
        exact happ
    have happly : under.tideStop = (noted.stopLoads.setReg r
        (mergeBits (s.reg r) (laneMask e.lanes &&& r.tideMask) e.data)).tideDone :=
      (tideStop_ends rfl hall).trans (tideApply_one halone hstaged rfl hvalue happends hfence)
    obtain ⟨hepoch, hhint, hline⟩ := standsAlone_apart halone
    have hregs (q : Reg) : noted.stopLoads.reg q = s.reg q := stopLoads_keeps noted (State.reg · q) fun _ _ => rfl
    rw [happly]
    refine ⟨?_, ?_, ?_, ?_, ?_, fun q hq hq1 hq2 hq3 => ?_, fun x => ?_, ?_, ?_⟩
    · rw [complete_reg, tideDone_other _ hepoch hhint hline, reg_setReg_same]
    · rw [complete_keeps State.tide fun _ _ => rfl, tideDone_tide]
      have htide : noted.stopLoads.tide = noted.tide := stopLoads_keeps noted State.tide fun _ _ => rfl
      exact congrArg endedTide htide
    · rw [complete_reg, tideDone_epoch, reg_setReg_other _ _ _ _ hepoch.symm, hregs]
    · rw [complete_reg]
      exact tideDone_hint _
    · rw [complete_reg]
      exact tideDone_line _
    · rw [complete_reg, tideDone_other _ hq1 hq2 hq3, reg_setReg_other _ _ _ _ hq, hregs]
    · rw [complete_keeps (State.ctx · x) fun _ _ => rfl]
      exact ctx_stopLoads noted x
    · rw [complete_keeps State.mem fun _ _ => rfl]
      exact stopLoads_keeps noted State.mem fun _ _ => rfl
    · rw [complete_keeps State.sites fun _ _ => rfl]
      exact stopLoads_keeps noted State.sites fun _ _ => rfl

end Sys2Proof.Proofs.Tides
end

section
/-! SUPPORT. Instructions whose effect is on registers of their context, its store buffer and the marks of frames (spec/05
R140, spec/11 R280, spec/13 R313). -/

namespace Sys2Proof.Laws

open Sys2Proof Sys2Proof.Machine

variable {s s1 s2 t : State} {x : CtxId} {i : Ins} {f : Fetched} {o : Op} {d : Done} {c c' : Ctx} {u : Ctx → Ctx}
  {m n : State → State}

/-! ## Registers and DSTAT -/

/-- A context that differs from another in its G and D registers, DSTAT and outstanding loads alone. -/
def ValuesOnly (c c' : Ctx) : Prop :=
  ∃ g d r t l, c' = { c with g := g, d := d, dres := r, dstat := t, loads := l }

namespace ValuesOnly

theorem refl (c : Ctx) : ValuesOnly c c := ⟨c.g, c.d, c.dres, c.dstat, c.loads, rfl⟩

theorem trans {c'' : Ctx} (h : ValuesOnly c c') (h' : ValuesOnly c' c'') : ValuesOnly c c'' := by
  obtain ⟨g, d, r, t, l, rfl⟩ := h
  obtain ⟨g, d, r, t, l, rfl⟩ := h'
  exact ⟨g, d, r, t, l, rfl⟩

theorem setG (c : Ctx) (r : BitVec 5) (w : Word) : ValuesOnly c (c.setG r w) :=
  ⟨_, c.d, c.dres, c.dstat, c.loads, setG_eq c r w⟩

theorem setD (c : Ctx) (r : BitVec 3) (w : BitVec 128) : ValuesOnly c (c.setD r w) := ⟨c.g, _, _, c.dstat, c.loads, rfl⟩

theorem stickD (c : Ctx) (a b : Bool) : ValuesOnly c (c.stickD a b) := ⟨c.g, c.d, c.dres, _, c.loads, rfl⟩

theorem applyG (c : Ctx) (us : List (BitVec 5 × Word)) : ValuesOnly c (c.applyG us) :=
  foldl_keeps (ValuesOnly c) _ us c (refl c) fun _ _ h => h.trans (setG _ _ _)

theorem loadReg (c : Ctx) (r : Nat) (v : BitVec 128) : ValuesOnly c (c.loadReg r v) := by
  unfold Ctx.loadReg Ctx.writeLoad
  split_ifs
  · exact ⟨c.g, c.d, c.dres, c.dstat, _, rfl⟩
  · exact setG _ _ _
  · exact setD _ _ _

/-- Such an update leaves alone what a boundary looks at. -/
theorem localUpdate (h : ValuesOnly c (u c)) : LocalUpdate u c := by
  obtain ⟨g, d, r, t, l, h⟩ := h
  simp only [LocalUpdate, h, and_self]

end ValuesOnly

/-- What an instruction leaves of a calm context that it updates is calm. -/
theorem Calm.localUpdate {pc : VirtAddr} (h : Calm c pc) (hu : LocalUpdate u c) : Calm (u c) pc := by
  obtain ⟨hdelay, hstepping, hstep, htrap, hends⟩ := h
  obtain ⟨udelay, ustepping, ustep, utrap, ucsw, ulpe⟩ := hu
  refine ⟨udelay.trans hdelay, ustepping.trans hstepping, ustep.trans hstep, utrap.trans htrap, fun k => ?_⟩
  rw [endsAt_congr ucsw ulpe]
  exact hends k

/-- G registers updated leave DSTAT. -/
@[simp] theorem dstat_setG (c : Ctx) (r : BitVec 5) (w : Word) : (c.setG r w).dstat = c.dstat := by rw [setG_eq]

@[simp] theorem dstat_applyG (c : Ctx) (us : List (BitVec 5 × Word)) : (c.applyG us).dstat = c.dstat :=
  foldl_keeps (fun c' : Ctx => c'.dstat = c.dstat) _ us c rfl fun _ _ h => (dstat_setG _ _ _).trans h

/-- DSTAT.OVF is bit 0 and DSTAT.INEXACT bit 1 (Table 5.4). -/
theorem stickD_eq (c : Ctx) (a b : Bool) :
    c.stickD a b = { c with dstat := c.dstat ||| (if a then 1 else 0) ||| (if b then 2 else 0) } := by
  have hflags : BitVec.ofNat 64 (bit a + 2 * bit b) = (if a then 1 else 0) ||| (if b then 2 else 0) := by
    cases a <;> cases b <;> rfl
  rw [Ctx.stickD, hflags, BitVec.or_assoc]

/-- With nothing discarded, DSTAT.OVF alone may be set. -/
theorem stickD_exact (c : Ctx) (a : Bool) : c.stickD a false = { c with dstat := c.dstat ||| (if a then 1 else 0) } := by
  rw [stickD_eq]
  simp

/-- A flag that nothing sets stays. -/
theorem stickD_nothing (c : Ctx) : c.stickD false false = c := by
  rw [stickD_exact, if_neg Bool.false_ne_true]
  exact congrArg (fun v => { c with dstat := v }) BitVec.or_zero

/-! ## Operations beside the registers of a context -/

/-- An operation that changes of a context its store buffer alone, and does the same where the context's fetch is past. -/
structure BuffersOnly (x : CtxId) (m : State → State) : Prop where
  retired : ∀ s own, m (s.upCtx x (fun c => c.retired own)) = (m s).upCtx x (fun c => c.retired own)
  inReset : ∀ s, (m s).inReset = s.inReset
  ctx : ∀ s, ∃ l, (m s).ctx x = { s.ctx x with storeBuf := l }

namespace BuffersOnly

theorem id (x : CtxId) : BuffersOnly x (fun s => s) := ⟨fun _ _ => rfl, fun _ => rfl, fun s => ⟨(s.ctx x).storeBuf, rfl⟩⟩

theorem comp (hm : BuffersOnly x m) (hn : BuffersOnly x n) : BuffersOnly x (fun s => n (m s)) := by
  refine ⟨fun s own => ?_, fun s => (hn.inReset _).trans (hm.inReset s), fun s => ?_⟩
  · rw [hm.retired, hn.retired]
  · obtain ⟨l, hl⟩ := hm.ctx s
    obtain ⟨k, hk⟩ := hn.ctx (m s)
    exact ⟨k, by rw [hk, hl]⟩

theorem foldl {β : Type} {g : State → β → State} (h : ∀ b, BuffersOnly x (fun s => g s b)) (l : List β) :
    BuffersOnly x (fun s => l.foldl g s) := by
  induction l with
  | nil => exact id x
  | cons b l ih => exact (h b).comp ih

theorem markFrame (x : CtxId) (a : Nat) (k : Byte) : BuffersOnly x (fun s => s.markFrame a k) := by
  refine ⟨fun s own => ?_, fun s => ?_, fun s => ⟨(s.ctx x).storeBuf, ?_⟩⟩
  · have hkey : (s.upCtx x (fun c => c.retired own)).keyV = s.keyV
        ∧ (s.upCtx x (fun c => c.retired own)).dramSize = s.dramSize
        ∧ (s.upCtx x (fun c => c.retired own)).poisoned = s.poisoned
        ∧ (s.upCtx x (fun c => c.retired own)).keyBase = s.keyBase := ⟨rfl, rfl, rfl, rfl⟩
    obtain ⟨hv, hsize, hpoison, hbase⟩ := hkey
    unfold State.markFrame
    rw [hv, hsize, hpoison, hbase]
    split_ifs <;> rfl
  · unfold State.markFrame
    split_ifs <;> rfl
  · have hctx : (s.markFrame a k).ctxs = s.ctxs := (MarksOnly.markFrame s a k).keeps State.ctxs fun _ _ _ => rfl
    exact ctx_of_ctxs hctx x

/-- Reads and writes that are performed record REF and CHG alone (R280). -/
theorem touchPieces (x : CtxId) (ps : List (Nat × Nat)) (write : Bool) : BuffersOnly x (fun s => s.touchPieces ps write) :=
  foldl (g := fun s p => s.touch p.1 p.2 write)
    (fun p => foldl (fun a => markFrame x a (if write then 0xC0 else 0x40)) (framesOf p.1 p.2)) ps

/-- A store enters the store buffer (R313). -/
theorem buffer (x : CtxId) (a : Nat) (bs : List Byte) (word : Bool) : BuffersOnly x (fun s => s.upCtx x (fun c =>
    { c with storeBuf := c.storeBuf ++ [{ addr := a, bytes := bs, world := c.world, word := word }] })) := by
  refine ⟨fun s own => ?_, fun _ => rfl, fun s => ⟨_, ctx_upCtx_same s x _⟩⟩
  rw [upCtx_upCtx, upCtx_upCtx]
  rfl

theorem retirePieces (x : CtxId) (word : Bool) (ps : List (Nat × Nat)) (bs : List Byte) :
    BuffersOnly x (fun s => s.retirePieces x word ps bs) := by
  induction ps generalizing bs with
  | nil => exact id x
  | cons p ps ih => exact (buffer x p.1 (bs.take p.2) word).comp (ih (bs.drop p.2))

theorem retireStore (x : CtxId) (word : Bool) (ps : List (Nat × Nat)) (bs : List Byte) :
    BuffersOnly x (fun s => s.retireStore x word ps bs) := retirePieces x word _ bs

end BuffersOnly

/-! ## Commands whose checks leave another state -/

/-- An instruction that executes alone and, once its checks have passed, performs an operation beside the registers of its
context and updates these. -/
theorem commandUpset_performs (h : s.alone x = some (i, f, s1)) (ho : i.op = o)
    (he : effect o (envOf s1 x f 0) i s1 = .ok d s2) (hctl : d.ctl = .seq) (hm : BuffersOnly x m)
    (hd : d.commit (s2.upCtx x (fun c => c.retired f.own)) = (m (s2.upCtx x (fun c => c.retired f.own))).upCtx x u)
    (hu : ∀ c, ValuesOnly c (u c)) (hr : s2.inReset = false) (hq : (s2.ctx x).quiet = true) :
    s.commandUpset x o 0 .none = (m s2).afterIns x f u := by
  have hcommit : d.commit (s2.upCtx x (fun c => c.retired f.own)) = (m s2).upCtx x (fun c => u (c.retired f.own)) := by
    rw [hd, hm.retired, upCtx_upCtx]
  rw [commandUpset_completes h ho he hr, finish_seq hq hctl, hcommit, upCtx_upCtx]
  · rfl
  · rw [hcommit]
    exact (hm.inReset s2).trans hr
  · rw [hcommit, ctx_upCtx_same]
    obtain ⟨l, hl⟩ := hm.ctx s2
    have hcalm : Calm (((m s2).ctx x).retired f.own) (s2.ctx x).pc := by
      rw [hl]
      exact quiet_calm _ hq
    exact hcalm.localUpdate (hu _).localUpdate

/-- The bytes that a context reads depend on its store buffer alone. -/
theorem peekPieces_retired (s : State) (x : CtxId) (own : Option Nat) (ps : List (Nat × Nat)) :
    (s.upCtx x (fun c => c.retired own)).peekPieces x ps = s.peekPieces x ps := by
  have hpeek : (s.upCtx x (fun c => c.retired own)).peekByte x = s.peekByte x := by
    funext a
    have hbuf : ((s.upCtx x (fun c => c.retired own)).ctx x).storeBuf = (s.ctx x).storeBuf := by rw [ctx_upCtx_same]; rfl
    unfold State.peekByte
    rw [hbuf]
    rfl
  rw [State.peekPieces, State.peekPieces, hpeek]

/-! ## Operands -/

/-- The D register that an operand names. -/
abbrev dReg (r : BitVec 5) : BitVec 3 := r.setWidth 3

/-- The D register that an operand names that stands first. -/
@[simp] theorem dn_valAt_zero (r : BitVec 5) (v : Word) (vs : List Val) : (valAt (.reg r v :: vs) 0).dn = dReg r := rfl

/-- The address of a memory operand that stands first. -/
@[simp] theorem addr_valAt_zero (a : Nat) (vs : List Val) : (valAt (.mem a :: vs) 0).addr = a := rfl

@[simp] theorem valAt_succ (u : Val) (vs : List Val) (n : Nat) : valAt (u :: vs) (n + 1) = valAt vs n := rfl

/-- An instruction whose operands are evaluated goes on with their values. -/
theorem withOpnds_ok {e : Env} {vs : List Val} {us : List (BitVec 5 × Word)} (h : evalOpnds e i e.c 0 i.ops = .ok (vs, us))
    (g : List Val → List (BitVec 5 × Word) → XR Done) : withOpnds e i s g = g vs us := by
  rw [withOpnds, h]

/-- Register operands are read and update nothing. -/
theorem evalOpnds_regs (e : Env) (i : Ins) (c : Ctx) (k : Nat) (rs : List (BitVec 5)) :
    evalOpnds e i c k (rs.map .reg) = .ok (rs.map (fun r => .reg r (c.getG r)), []) := by
  induction rs with
  | nil => rfl
  | cons r rs ih => simp only [List.map_cons, evalOpnds, ih]

/-- An instruction of register operands goes on with what they hold. -/
theorem withOpnds_regs (e : Env) (rs : List (BitVec 5)) (h : i.ops = rs.map .reg)
    (g : List Val → List (BitVec 5 × Word) → XR Done) :
    withOpnds e i s g = g (rs.map (fun r => .reg r (e.c.getG r))) [] := by
  refine withOpnds_ok ?_ g
  rw [h]
  exact evalOpnds_regs e i e.c 0 rs

/-- The target of a code pointer is its address with the form in bit 63 (R126, R157). -/
theorem targetIn_eq (w : Bool) (v : Word) : targetIn w v.toNat = setBit v 63 w := by
  refine BitVec.eq_of_getLsbD_eq fun k hk => ?_
  have hv : v.toNat % 2 ^ 63 < 2 ^ 63 := Nat.mod_lt _ (by positivity)
  have htarget : (targetIn w v.toNat).getLsbD k
      = if k < 63 then (v.toNat % 2 ^ 63).testBit k else (bit w).testBit (k - 63) := by
    rw [targetIn, BitVec.getLsbD_ofNat, Nat.testBit_two_pow_mul_add _ hv, decide_eq_true hk, Bool.true_and]
  rw [htarget]
  by_cases h : k < 63
  · rw [if_pos h, Nat.testBit_mod_two_pow, decide_eq_true h, Bool.true_and]
    exact (bitAt_setBit_other v 63 k w (by omega)).symm
  · obtain rfl : k = 63 := by omega
    rw [if_neg h]
    refine Eq.trans ?_ (bitAt_setBit_same v 63 w hk).symm
    cases w <;> rfl

end Sys2Proof.Laws
end

section
/-! SUPPORT. Decimal results: their delivery, their rounding, and what an instruction does with valid operands (spec/07, R176
to R187). -/

namespace Sys2Proof.Laws

open Sys2Proof Sys2Proof.Machine

variable {s s1 s2 : State} {x : CtxId} {i : Ins} {f : Fetched} {c : Ctx} {e : Env} {v q : Int} {rm cap cause : Nat}

/-! ## Delivery (R177, R180) -/

/-- A result that fits its capacity is delivered whole. -/
theorem deliver_fits (h : v.natAbs < 10 ^ cap) :
    deliver c v cap = some { mag := v.natAbs, sign := signNibble c.duns v, ovf := false } :=
  if_neg (Nat.not_le.mpr h)

/-- One that overflows with CSW.DOVT set is not delivered. -/
theorem deliver_traps (h : 10 ^ cap ≤ v.natAbs) (hd : c.dovt = true) : deliver c v cap = none := by
  rw [deliver, if_pos h, if_pos hd]

/-- One that overflows with CSW.DOVT clear is delivered as its low digits, with its true sign. -/
theorem deliver_truncates (h : 10 ^ cap ≤ v.natAbs) (hd : c.dovt = false) :
    deliver c v cap = some { mag := v.natAbs % 10 ^ cap, sign := signNibble c.duns v, ovf := true } := by
  rw [deliver, if_pos h, if_neg (by simp [hd])]

/-- What a D register holds of a result is its delivery to 31 digits. -/
theorem decResult_eq (c : Ctx) (v : Int) : c.decResult v = (deliver c v 31).map (fun o => (o.toReg, o.ovf)) := by
  unfold Ctx.decResult
  split_ifs with hfits hd
  · rw [deliver_fits hfits, Option.map_some]
  · rw [deliver_traps (Nat.not_lt.mp hfits) hd, Option.map_none]
  · rw [deliver_truncates (Nat.not_lt.mp hfits) (Bool.eq_false_iff.mpr hd), Option.map_some]

/-! ## Rounding (R181) -/

/-- A digit other than 0 is discarded where the value is no multiple of the power shifted out. -/
theorem natAbs_mod_ne_zero_iff (v : Int) (k : Nat) : v.natAbs % 10 ^ k ≠ 0 ↔ v % 10 ^ k ≠ 0 := by
  have hdvd : ((10 ^ k : Nat) : Int) ∣ v ↔ 10 ^ k ∣ v.natAbs := Int.natCast_dvd
  rw [Nat.cast_pow, Nat.cast_ofNat] at hdvd
  rw [Ne, Ne, ← Nat.dvd_iff_mod_eq_zero, ← Int.dvd_iff_emod_eq_zero, hdvd]

/-- The increment that a mode adds to the quotient `q` of a division by `p` that leaves `d` (R181). -/
def roundInc (rm p q d : Nat) : Bool :=
  match rm with
  | 0 => false
  | 1 => decide (p ≤ 2 * d)
  | 2 => decide (p < 2 * d) || (decide (2 * d = p) && decide (q % 2 = 1))
  | _ => decide (d ≠ 0)

/-- Under every mode a rounded number lies less than one above or below the quotient. -/
theorem roundsTo_near {p : Nat} (hp : 0 < p) (h : roundsTo rm v p q) :
    -(2 * (p : Int)) < 2 * ((v.natAbs : Int) - q.natAbs * p) ∧ 2 * ((v.natAbs : Int) - q.natAbs * p) < 2 * p := by
  obtain ⟨-, h0, h1, h2, h3⟩ := h
  generalize 2 * ((v.natAbs : Int) - q.natAbs * p) = err at *
  obtain rfl | rfl | rfl | hrm : rm = 0 ∨ rm = 1 ∨ rm = 2 ∨ 3 ≤ rm := by omega
  · obtain ⟨hlow, hhigh⟩ := h0 rfl
    omega
  · obtain ⟨hlow, hhigh⟩ := h1 rfl
    omega
  · obtain ⟨hlow, hhigh, -⟩ := h2 rfl
    omega
  · obtain ⟨hlow, hhigh⟩ := h3 hrm
    omega

/-- So its magnitude is the quotient, or one more. -/
theorem roundsTo_natAbs_cases {p : Nat} (hp : 0 < p) (h : roundsTo rm v p q) :
    q.natAbs = v.natAbs / p ∨ q.natAbs = v.natAbs / p + 1 := by
  obtain ⟨hlow, hhigh⟩ := roundsTo_near hp h
  have hv : v.natAbs < q.natAbs * p + p := by omega
  have hq : q.natAbs * p < v.natAbs + p := by omega
  have hle : v.natAbs / p ≤ q.natAbs := Nat.lt_succ_iff.mp ((Nat.div_lt_iff_lt_mul hp).mpr (by rwa [Nat.succ_mul]))
  have hge : q.natAbs < v.natAbs / p + 2 := by
    have hdiv : v.natAbs < (v.natAbs / p + 1) * p := Nat.lt_mul_of_div_lt (Nat.lt_succ_self _) hp
    refine Nat.lt_of_mul_lt_mul_right (a := p) ?_
    rw [Nat.succ_mul]
    omega
  omega

/-- A number rounded under a mode has the magnitude that the increment gives. -/
theorem roundsTo_natAbs {p : Nat} (hp : 0 < p) (h : roundsTo rm v p q) :
    q.natAbs = v.natAbs / p + bit (roundInc rm p (v.natAbs / p) (v.natAbs % p)) := by
  have hcases := roundsTo_natAbs_cases hp h
  obtain ⟨-, h0, h1, h2, h3⟩ := h
  have hdiv : (v.natAbs : Int) = (v.natAbs / p : Nat) * p + (v.natAbs % p : Nat) := by
    exact_mod_cast (Nat.div_add_mod' v.natAbs p).symm
  have hmod : v.natAbs % p < p := Nat.mod_lt _ hp
  have hparity : q % 2 = 0 ↔ q.natAbs % 2 = 0 := by omega
  rw [hdiv] at h0 h1 h2 h3
  rw [hparity] at h2
  generalize v.natAbs / p = a at *
  generalize v.natAbs % p = d at *
  generalize q.natAbs = b at *
  have herr : (b = a ∧ 2 * ((a : Int) * p + d - b * p) = 2 * d)
      ∨ (b = a + 1 ∧ 2 * ((a : Int) * p + d - b * p) = 2 * d - 2 * p) := by
    obtain rfl | rfl := hcases
    · exact .inl ⟨rfl, by ring⟩
    · exact .inr ⟨rfl, by push_cast; ring⟩
  generalize 2 * ((a : Int) * p + d - b * p) = err at *
  obtain rfl | rfl | rfl | hrm : rm = 0 ∨ rm = 1 ∨ rm = 2 ∨ 3 ≤ rm := by omega
  · obtain ⟨hlow, hhigh⟩ := h0 rfl
    simp only [roundInc, bit, Bool.false_eq_true, if_false]
    omega
  · obtain ⟨hlow, hhigh⟩ := h1 rfl
    simp only [roundInc, bit, decide_eq_true_eq]
    split_ifs <;> omega
  · obtain ⟨hlow, hhigh, heven⟩ := h2 rfl
    simp only [roundInc, bit, Bool.or_eq_true, Bool.and_eq_true, decide_eq_true_eq]
    split_ifs <;> omega
  · obtain ⟨hlow, hhigh⟩ := h3 hrm
    have haway : roundInc rm p a d = decide (d ≠ 0) := by
      match rm, hrm with
      | _ + 3, _ => rfl
    simp only [haway, bit, decide_eq_true_eq]
    split_ifs <;> omega

/-- R181: a shift to the left multiplies. -/
theorem shiftRound_left {n : Int} (hn : 0 ≤ n) : shiftRound v n rm = (v * 10 ^ n.toNat, false) := if_pos hn

/-- A shift to the right divides the magnitude and adds the increment of the mode (R181). -/
theorem shiftRound_neg {n : Int} (hn : n < 0) : shiftRound v n rm =
    (let p := 10 ^ (-n).toNat
     let q := v.natAbs / p + bit (roundInc rm p (v.natAbs / p) (v.natAbs % p))
     (if v < 0 then -(q : Int) else (q : Int), decide (v.natAbs % p ≠ 0))) := by
  rw [shiftRound, if_neg (Int.not_le.mpr hn)]
  rfl

/-- R181: a shift to the right rounds, and is inexact where it discards a digit other than 0. -/
theorem shiftRound_right {n : Int} (hn : n < 0) (h : roundsTo rm v (10 ^ (-n).toNat) q) :
    shiftRound v n rm = (q, decide (v % 10 ^ (-n).toNat ≠ 0)) := by
  have hmag := roundsTo_natAbs (by positivity) h
  obtain ⟨hsign, -⟩ := h
  have hshift : shiftRound v n rm = (if v < 0 then -(q.natAbs : Int) else (q.natAbs : Int),
      decide (v.natAbs % 10 ^ (-n).toNat ≠ 0)) := by
    rw [hmag, shiftRound_neg hn]
  have hq : (if v < 0 then -(q.natAbs : Int) else (q.natAbs : Int)) = q := by
    by_cases hzero : q = 0
    · simp [hzero]
    · have hiff := hsign hzero
      split_ifs <;> omega
  rw [hshift, hq, decide_eq_decide.mpr (natAbs_mod_ne_zero_iff v _)]

/-! ## Register operands (R178, R182, R197) -/

/-- Registers that are valid show no invalid nibble. -/
theorem regData_none {l : List (BitVec 3)} (h : ∀ r ∈ l, badNibble (regNibbles (c.getD r)) = none) (k : Nat) :
    regData c k l = none := by
  induction l generalizing k with
  | nil => rfl
  | cons r l ih =>
    rw [regData, h r (by simp)]
    exact ih (fun t ht => h t (by simp [ht])) (k + 1)

/-- On valid registers an instruction passes its source check and its validation. -/
theorem onRegs_valid {l : List (BitVec 3)} (h : e.c.validD l = true) (g : XR Done) : onRegs e s l g = g := by
  obtain ⟨hres, hall⟩ := Bool.and_eq_true_iff.mp h
  have hdata : regData e.c 1 l = none :=
    regData_none (fun r hr => Option.isNone_iff_eq_none.mp (List.all_eq_true.mp hall r hr)) 1
  rw [onRegs, hres, hdata]
  rfl

/-- A result that is delivered to a D register completes the instruction, with DSTAT updated. -/
theorem toDecReg_delivers {w : BitVec 128} {ovf inexact : Bool} {d : BitVec 3} (h : e.c.decResult v = some (w, ovf)) :
    toDecReg e s d v cause inexact = completes (fun s => s.upCtx e.x (fun c => (c.setD d w).stickD ovf inexact)) s := by
  rw [decResult_eq, Option.map_eq_some_iff] at h
  obtain ⟨r, hr, hout⟩ := h
  obtain ⟨rfl, rfl⟩ := Prod.mk.inj hout
  rw [toDecReg, hr]

variable {a b d : BitVec 5}

/-- A two-source instruction of valid registers delivers its result. -/
theorem decTwo_valid (hops : i.ops = [.reg d, .reg a, .reg b]) (h : e.c.validD [dReg a, dReg b] = true)
    (g : Int → Int → Int) :
    decTwo g e i s = toDecReg e s (dReg d) (g (e.c.decValue (dReg a)) (e.c.decValue (dReg b))) 1 false :=
  (withOpnds_regs e [d, a, b] hops _).trans (onRegs_valid h _)

/-- A one-source instruction. -/
theorem decOne_valid (hops : i.ops = [.reg d, .reg a]) (h : e.c.validD [dReg a] = true) (g : Int → Int) :
    decOne g e i s = toDecReg e s (dReg d) (g (e.c.decValue (dReg a))) 1 false :=
  (withOpnds_regs e [d, a] hops _).trans (onRegs_valid h _)

/-- A division by a divisor other than 0. -/
theorem decDiv_valid (hops : i.ops = [.reg d, .reg a, .reg b]) (h : e.c.validD [dReg a, dReg b] = true)
    (hb : e.c.decValue (dReg b) ≠ 0) (g : Int → Int → Int) :
    decDiv g e i s = toDecReg e s (dReg d) (g (e.c.decValue (dReg a)) (e.c.decValue (dReg b))) 1 false := by
  refine (withOpnds_regs e [d, a, b] hops _).trans ((onRegs_valid h _).trans ?_)
  exact if_neg hb

/-- DDIV rounds toward zero. -/
theorem effDdiv_valid (hops : i.ops = [.reg d, .reg a, .reg b]) (h : e.c.validD [dReg a, dReg b] = true)
    (hb : e.c.decValue (dReg b) ≠ 0) : effDdiv e i s
      = toDecReg e s (dReg d) ((e.c.decValue (dReg a)).tdiv (e.c.decValue (dReg b))) 1 false := decDiv_valid hops h hb _

/-- DREM leaves the remainder of that division. -/
theorem effDrem_valid (hops : i.ops = [.reg d, .reg a, .reg b]) (h : e.c.validD [dReg a, dReg b] = true)
    (hb : e.c.decValue (dReg b) ≠ 0) : effDrem e i s
      = toDecReg e s (dReg d) ((e.c.decValue (dReg a)).tmod (e.c.decValue (dReg b))) 1 false := decDiv_valid hops h hb _

/-- A shift delivers the result of its rounding. -/
theorem effDsrr_valid {inexact : Bool} (hops : i.ops = [.reg d, .reg a]) (h : e.c.validD [dReg a] = true)
    (hq : shiftRound (e.c.decValue (dReg a)) i.imm i.rm = (q, inexact)) :
    effDsrr e i s = toDecReg e s (dReg d) q 2 inexact := by
  simp only [effDsrr, withOpnds_regs e [d, a] hops, List.map_cons, dn_valAt_zero, valAt_succ, onRegs_valid h, hq]

/-- The result of a comparison. -/
theorem orderInt_eq (m n : Int) : orderInt m n = if m < n then -1 else if m = n then 0 else 1 := by
  unfold orderInt orderWord
  by_cases heq : m = n
  · simp [heq]
  · simp [heq]

theorem effDcmp_valid (hops : i.ops = [.reg d, .reg a, .reg b]) (h : e.c.validD [dReg a, dReg b] = true) :
    effDcmp e i s = completes (fun s => s.upCtx e.x (fun c =>
      c.setG d (orderInt (e.c.decValue (dReg a)) (e.c.decValue (dReg b))))) s :=
  (withOpnds_regs e [d, a, b] hops _).trans (onRegs_valid h _)

/-- DMOV checks residues alone (R179, R197). -/
theorem effDmov_sound (hops : i.ops = [.reg d, .reg a]) (h : e.c.residuesOk [dReg a] = true) :
    effDmov e i s = completes (fun s => s.upCtx e.x (fun c => c.setD (dReg d) (e.c.getD (dReg a)))) s := by
  refine (withOpnds_regs e [d, a] hops _).trans (if_neg ?_)
  rw [Bool.not_eq_true', Bool.not_eq_false]
  exact h

theorem effCvbd_eq (hops : i.ops = [.reg d, .reg a]) :
    effCvbd e i s = toDecReg e s (dReg d) (e.c.getG a).toInt 4 false := withOpnds_regs e [d, a] hops _

/-- Whether a value is outside 64 bits (R182). -/
def outside64 (v : Int) : Bool := decide (v < -(2 ^ 63)) || decide (2 ^ 63 ≤ v)

theorem outside64_eq_false (hlow : -(2 ^ 63) ≤ v) (hhigh : v < 2 ^ 63) : outside64 v = false := by
  rw [outside64, decide_eq_false (Int.not_lt.mpr hlow), decide_eq_false (Int.not_le.mpr hhigh)]
  rfl

theorem outside64_eq_true (h : v < -(2 ^ 63) ∨ 2 ^ 63 ≤ v) : outside64 v = true := by
  rw [outside64, ← Bool.decide_or, decide_eq_true h]

/-- CVDB that does not trap gives the value modulo 2^64. -/
theorem effCvdb_valid (hops : i.ops = [.reg d, .reg a]) (h : e.c.validD [dReg a] = true)
    (ht : (outside64 (e.c.decValue (dReg a)) && e.c.dovt) = false) :
    effCvdb e i s = completes (fun s => s.upCtx e.x (fun c =>
      (c.setG d (BitVec.ofInt 64 (e.c.decValue (dReg a)))).stickD (outside64 (e.c.decValue (dReg a))) false)) s :=
  ((withOpnds_regs e [d, a] hops _).trans (onRegs_valid h _)).trans (if_neg (Bool.eq_false_iff.mp ht))

/-- The last condition of DBcc is greater or equal (Table 6.3). -/
theorem decCond_ge (m n : Int) : decCond 3 m n = decide (n ≤ m) := by
  change (!decide (m < n)) = _
  rw [← decide_not, decide_eq_decide]
  exact Int.not_lt

/-- DBcc of valid registers decides its condition (R185). -/
theorem effDbcc_valid (hops : i.ops = [.reg a, .reg b]) (h : regData e.c 1 [dReg a, dReg b] = none) :
    effDbcc e i s
      = .ok (transfers (decCond i.sub (e.c.decValue (dReg a)) (e.c.decValue (dReg b))) (directTarget e i) false) s := by
  simp only [effDbcc, withOpnds_regs e [a, b] hops, List.map_cons, dn_valAt_zero, valAt_succ, h]

end Sys2Proof.Laws
end

section
/-! PROOFS. The register decimal instructions (O16). -/

namespace Sys2Proof.Proofs.DecimalRegisters

open Sys2Proof Sys2Proof.Machine Sys2Proof.Laws

variable {s s1 : State} {x : CtxId} {i : Ins} {f : Fetched} {o : Op} {v : Int} {a d : BitVec 5} {cause : Nat} {inexact : Bool}

/-- An instruction that delivers a result to a D register (R180): the register with its residue (R196), and DSTAT. -/
theorem commandUpset_delivers (h : s.alone x = some (i, f, s1)) (ho : i.op = o)
    (he : effect o (envOf s1 x f 0) i s1 = toDecReg (envOf s1 x f 0) s1 (dReg d) v cause inexact) (w : BitVec 128) (ovf : Bool)
    (hw : (s1.ctx x).decResult v = some (w, ovf)) : s.commandUpset x o 0 .none = s1.afterIns x f (fun c =>
      { c.setD (dReg d) w with dstat := c.dstat ||| (if ovf then 1 else 0) ||| (if inexact then 2 else 0) }) := by
  have heff := he.trans (toDecReg_delivers (e := envOf s1 x f 0) hw)
  have hvalues (c : Ctx) : ValuesOnly c ((c.setD (dReg d) w).stickD ovf inexact) := (ValuesOnly.setD c _ w).trans (.stickD _ _ _)
  rw [commandUpset_updates h ho heff (hvalues _).localUpdate]
  simp only [stickD_eq]
  rfl

/-- CVDB of valid registers (R182), where it does not trap. -/
theorem commandUpset_cvdb (h : s.alone x = some (i, f, s1)) (ho : i.op = .cvdb) (hops : i.ops = [.reg d, .reg a])
    (hv : (s1.ctx x).validD [dReg a] = true) (ht : (outside64 ((s1.ctx x).decValue (dReg a)) && (s1.ctx x).dovt) = false) :
    s.commandUpset x .cvdb 0 .none = s1.afterIns x f (fun c =>
      (c.setG d (BitVec.ofInt 64 ((s1.ctx x).decValue (dReg a)))).stickD (outside64 ((s1.ctx x).decValue (dReg a))) false) :=
  commandUpset_updates h ho (effCvdb_valid (e := envOf s1 x f 0) hops hv ht)
    ((ValuesOnly.setG _ _ _).trans (.stickD _ _ _)).localUpdate

/-- A transfer that writes nothing, by an instruction that executes alone. -/
theorem finish_transfers {s0 : State} {taken call : Bool} {target : Word} (hq : (s1.ctx x).quiet = true)
    (hr : s1.inReset = false) :
    s1.finish s0 x f [transfers taken target call] = s1.afterTransfer x f taken target call id := by
  have hcommit : s1.commitAll x f [transfers taken target call]
      = s1.commitAll x f [{ commit := fun t => t.upCtx x id, ctl := .transfer taken target call }] :=
    (upCtx_upCtx s1 x (fun c => c.begun f.own) id).symm
  rw [← finish_transfer (s0 := s0) hq hr ⟨rfl, rfl, rfl, rfl, rfl, rfl⟩ rfl]
  change s1.retire x (s1.ctx x) f [transfers taken target call] = s1.retire x (s1.ctx x) f [_]
  rw [State.retire, State.retire, hcommit]
  rfl

/-- DBcc transfers where its condition holds (R157, R185). -/
theorem commandUpset_dbcc {a b : BitVec 5} {taken : Bool} (h : s.alone x = some (i, f, s1)) (ho : i.op = .dbcc)
    (hops : i.ops = [.reg a, .reg b]) (hd : regData (s1.ctx x) 1 [dReg a, dReg b] = none)
    (ht : decCond i.sub ((s1.ctx x).decValue (dReg a)) ((s1.ctx x).decValue (dReg b)) = taken) :
    s.commandUpset x .dbcc 0 .none = s1.afterTransfer x f taken
      (setBit (BitVec.ofNat 64 (s1.ctx x).fetchAddr + BitVec.ofInt 64 i.imm) 63 (s1.ctx x).wform) false id := by
  obtain ⟨hq, hr⟩ := alone_quiet h
  have htarget : directTarget (envOf s1 x f 0) i
      = setBit (BitVec.ofNat 64 (s1.ctx x).fetchAddr + BitVec.ofInt 64 i.imm) 63 (s1.ctx x).wform := targetIn_eq _ _
  have heff := effDbcc_valid (e := envOf s1 x f 0) (s := s1) hops hd
  have htaken : decCond i.sub ((envOf s1 x f 0).c.decValue (dReg a)) ((envOf s1 x f 0).c.decValue (dReg b)) = taken := ht
  rw [htarget, htaken] at heff
  rw [commandUpset_completes h ho heff hr, finish_transfers hq hr]

/-- Settles O16, instruction by instruction. -/
theorem decimalRegisterResults : Obligations.DecimalRegisterResults := by
  unfold Obligations.DecimalRegisterResults
  dsimp only
  refine fun s s1 x i f h => ⟨fun d a b hops hv => ⟨fun ho w ovf hw => ?_, fun ho w ovf hw => ?_, fun ho w ovf hw => ?_,
    fun ho hb w ovf hw => ?_, fun ho hb w ovf hw => ?_, fun ho => ?_⟩, fun d a hops => ⟨fun ho hv w ovf hw => ?_,
    fun ho hv w ovf hw => ?_, fun ho hn hv w ovf hw => ?_, fun ho hn hv q hq w ovf hw => ?_, fun ho hv => ?_,
    fun ho w ovf hw => ?_, fun ho hv hlow hhigh => ?_, fun ho hv hout hd => ?_⟩,
    fun a b ho hops hd => ⟨fun hs => ?_, fun hs => ?_, fun hs => ?_, fun hs => ?_⟩⟩
  · exact congrArg _ (commandUpset_delivers h ho (decTwo_valid hops hv (· + ·)) w ovf hw)
  · exact congrArg _ (commandUpset_delivers h ho (decTwo_valid hops hv (· - ·)) w ovf hw)
  · exact congrArg _ (commandUpset_delivers h ho (decTwo_valid hops hv (· * ·)) w ovf hw)
  · exact congrArg _ (commandUpset_delivers (v := ((s1.ctx x).decValue (dReg a)).tdiv ((s1.ctx x).decValue (dReg b))) h ho
      (effDdiv_valid (e := envOf s1 x f 0) hops hv hb) w ovf hw)
  · exact congrArg _ (commandUpset_delivers (v := ((s1.ctx x).decValue (dReg a)).tmod ((s1.ctx x).decValue (dReg b))) h ho
      (effDrem_valid (e := envOf s1 x f 0) hops hv hb) w ovf hw)
  · have hcmp := commandUpset_updates h ho (effDcmp_valid (e := envOf s1 x f 0) hops hv) (local_setG _ _ _)
    rw [orderInt_eq] at hcmp
    exact congrArg _ hcmp
  · exact congrArg _ (commandUpset_delivers h ho (decOne_valid hops hv (- ·)) w ovf hw)
  · exact congrArg _ (commandUpset_delivers h ho (decOne_valid hops hv (fun m => (m.natAbs : Int))) w ovf hw)
  · exact congrArg _ (commandUpset_delivers h ho (effDsrr_valid hops hv (shiftRound_left hn)) w ovf hw)
  · exact congrArg _ (commandUpset_delivers h ho (effDsrr_valid hops hv (shiftRound_right hn hq)) w ovf hw)
  · exact congrArg _ (commandUpset_updates h ho (effDmov_sound (e := envOf s1 x f 0) hops hv)
      (ValuesOnly.setD _ _ _).localUpdate)
  · exact congrArg _ (commandUpset_delivers h ho (effCvbd_eq hops) w ovf hw)
  · have hcvdb := commandUpset_cvdb h ho hops hv (by rw [outside64_eq_false hlow hhigh]; rfl)
    simp only [outside64_eq_false hlow hhigh, stickD_nothing] at hcvdb
    exact congrArg _ hcvdb
  · have hcvdb := commandUpset_cvdb h ho hops hv (by rw [hd, Bool.and_false])
    simp only [outside64_eq_true hout, stickD_exact, if_true, dstat_setG] at hcvdb
    exact congrArg _ hcvdb
  · exact congrArg _ (commandUpset_dbcc h ho hops hd (by rw [hs]; rfl))
  · exact congrArg _ (commandUpset_dbcc h ho hops hd (by rw [hs]; rfl))
  · exact congrArg _ (commandUpset_dbcc h ho hops hd (by rw [hs]; rfl))
  · exact congrArg _ (commandUpset_dbcc h ho hops hd (by rw [hs]; exact decCond_ge _ _))

end Sys2Proof.Proofs.DecimalRegisters
end

section
/-! SUPPORT. The memory operands of decimal instructions: their check and read phases, and the write of operand 1 (spec/07,
R183 to R187). -/

namespace Sys2Proof.Laws

open Sys2Proof Sys2Proof.Machine

variable {s s1 s2 sa : State} {x : CtxId} {i : Ins} {f : Fetched} {o : Op} {e : Env} {k : Kind} {ea ea1 ea2 cause : Nat}
  {us : List (BitVec 5 × Word)} {ps ps1 ps2 : List (Nat × Nat)} {bs : List Byte} {v : Int} {w : DecOut} {mo : MemOps}

/-! ## Pieces of an operand (R284) -/

/-- A chain of checks that passes has passed each of them. -/
theorem XR.bind_ok {α β : Type} {r : XR α} {g : α → State → XR β} {b : β} (h : r.bind g = .ok b s2) :
    ∃ a t, r = .ok a t ∧ g a t = .ok b s2 := by
  cases r with
  | ok a t => exact ⟨a, t, rfl, h⟩
  | exc e t => cases h

/-- Translation keeps the lengths of pieces. -/
theorem xlatePieces_lengths {ctl : AccCtl} {l : List (Nat × Nat)} (h : s.xlatePieces x ctl k l = .ok ps s2) :
    ps.map Prod.snd = l.map Prod.snd := by
  induction l generalizing s ps with
  | nil =>
    rw [State.xlatePieces] at h
    cases h
    rfl
  | cons p l ih =>
    rw [State.xlatePieces] at h
    obtain ⟨pa, t, -, h⟩ := XR.bind_ok h
    obtain ⟨qs, t', hqs, h⟩ := XR.bind_ok h
    cases h
    rw [List.map_cons, List.map_cons, ih hqs]

/-- A range that is not empty begins with a piece that is not. -/
theorem pagePieces_head {n : Nat} (hn : 0 < n) : ∃ p l, pagePieces ea n = p :: l ∧ 0 < p.2 := by
  obtain ⟨c, hc⟩ : ∃ c, (ea + n - 1) / 4096 + 1 - ea / 4096 = c + 1 := ⟨(ea + n - 1) / 4096 - ea / 4096, by omega⟩
  refine ⟨_, _, by rw [pagePieces, if_neg (by omega), hc, List.range_succ_eq_map, List.map_cons], ?_⟩
  simp only [if_true, Nat.add_zero]
  omega

/-- An operand of some length has bytes. -/
theorem peekPieces_nonempty {ctl : AccCtl} (hl : 0 < i.l1) (h : s.xlatePieces x ctl k (pagePieces ea i.l1) = .ok ps sa) :
    (s2.peekPieces x ps).isEmpty = false := by
  obtain ⟨p, l, hp, hpos⟩ := pagePieces_head (ea := ea) hl
  have hlen := xlatePieces_lengths h
  rw [hp] at hlen
  cases ps with
  | nil => cases hlen
  | cons q qs =>
    obtain ⟨hq, -⟩ := List.cons.inj hlen
    rw [← hq] at hpos
    obtain ⟨n, hn⟩ := Nat.exists_eq_succ_of_ne_zero (Nat.pos_iff_ne_zero.mp hpos)
    rw [State.peekPieces, List.flatMap_cons, hn, List.range_succ_eq_map]
    rfl

/-! ## The phases of two operands (R186) -/

/-- The operands of a memory decimal instruction pass their checks and are found readable. -/
structure OperandsPass (e : Env) (i : Ins) (s : State) (k : Kind) (ea1 ea2 : Nat) (ps1 ps2 : List (Nat × Nat)) (s2 : State) :
    Prop where
  xlate : ∃ sa, s.xlatePieces e.x (i.accCtl e) k (pagePieces ea1 i.l1) = .ok ps1 sa
    ∧ sa.xlatePieces e.x (i.accCtl e) .read (pagePieces ea2 i.l2) = .ok ps2 s2
  read1 : k = .write ∨ s2.readPhase e.x k ((pagePieces ea1 i.l1).zip ps1) = .ok () s2
  read2 : s2.readPhase e.x .read ((pagePieces ea2 i.l2).zip ps2) = .ok () s2

/-- What an instruction then works on: operand 1 is read where it is not only written. -/
def opsRead (s : State) (x : CtxId) (k : Kind) (ps1 ps2 : List (Nat × Nat)) : MemOps :=
  { ps1 := ps1, bs1 := if k = .write then [] else s.peekPieces x ps1, ps2 := ps2, bs2 := s.peekPieces x ps2 }

theorem memPhases_pass (h : OperandsPass e i s1 k ea1 ea2 ps1 ps2 s2) (g : MemOps → State → XR Done) :
    memPhases e i s1 k ea1 ea2 g = g (opsRead s2 e.x k ps1 ps2) s2 := by
  obtain ⟨⟨sa, hx1, hx2⟩, hr1, hr2⟩ := h
  have hop1 : readOp e s2 k ea1 i.l1 ps1 = .ok () s2 := by
    unfold readOp
    split_ifs with hk
    · rfl
    · exact hr1.resolve_left hk
  have hop2 : readOp e s2 .read ea2 i.l2 ps2 = .ok () s2 := hr2
  simp only [memPhases, hx1, XR.bind, hx2, hop1, hop2]
  rfl

/-- The reads of the operands as they are performed: those of operand 1 where it is read, and those of operand 2 (R280). -/
def readMarks (s : State) (k : Kind) (ps1 ps2 : List (Nat × Nat)) : State :=
  if k = .write then s.touchPieces ps2 false else (s.touchPieces ps1 false).touchPieces ps2 false

theorem readMarks_opsRead (hl : 0 < i.l1) (h : OperandsPass e i s1 k ea1 ea2 ps1 ps2 s2) :
    (s2.touchPieces (if (opsRead s2 e.x k ps1 ps2).bs1.isEmpty then [] else ps1) false).touchPieces ps2 false
      = readMarks s2 k ps1 ps2 := by
  obtain ⟨⟨sa, hx1, -⟩, -, -⟩ := h
  unfold readMarks opsRead
  split_ifs with hk hempty hempty
  · rfl
  · exact absurd rfl hempty
  · rw [peekPieces_nonempty hl hx1] at hempty
    cases hempty
  · rfl

/-! ## The write of operand 1 -/

/-- A result that is delivered to operand 1 completes the instruction (R180). -/
theorem toMemOp_delivers {inexact : Bool} (h : deliver e.c v (2 * i.l1 - 1) = some w) :
    toMemOp e i s ea mo us v cause inexact
      = completes (fun s => s.storeOp1 e mo us (w.toMem i.l1) w.ovf inexact) s := by
  rw [toMemOp, h]

/-- An instruction that stores operand 1 (R186): its reads are performed, the bytes enter the store buffer, and the address
registers and DSTAT are updated. -/
theorem commandUpset_storesOp1 {ovf inexact : Bool} (h : s.alone x = some (i, f, s1)) (ho : i.op = o)
    (he : effect o (envOf s1 x f 0) i s1 = completes (fun t => t.storeOp1 (envOf s1 x f 0) mo us bs ovf inexact) s2)
    (hr : s2.inReset = false) (hq : (s2.ctx x).quiet = true) : s.commandUpset x o 0 .none =
      (((s2.touchPieces (if mo.bs1.isEmpty then [] else mo.ps1) false).touchPieces mo.ps2 false).retireStore x false mo.ps1
        bs).afterIns x f (fun c => (c.applyG us).stickD ovf inexact) := by
  have hm : BuffersOnly x (fun t => ((t.touchPieces (if mo.bs1.isEmpty then [] else mo.ps1) false).touchPieces mo.ps2
      false).retireStore x false mo.ps1 bs) :=
    ((BuffersOnly.touchPieces x _ false).comp (.touchPieces x _ false)).comp (.retireStore x false _ bs)
  have hvalues (c : Ctx) : ValuesOnly c ((c.applyG us).stickD ovf inexact) := (ValuesOnly.applyG c us).trans (.stickD _ _ _)
  exact commandUpset_performs h ho he rfl hm rfl hvalues hr hq

/-- So does one of two operands. -/
theorem commandUpset_storesTwo {ovf : Bool} (h : s.alone x = some (i, f, s1)) (hl : 0 < i.l1)
    (hops : OperandsPass (envOf s1 x f 0) i s1 k ea1 ea2 ps1 ps2 s2) (hr : s2.inReset = false) (hq : (s2.ctx x).quiet = true)
    (ho : i.op = o) (he : effect o (envOf s1 x f 0) i s1
      = completes (fun t => t.storeOp1 (envOf s1 x f 0) (opsRead s2 x k ps1 ps2) us bs ovf false) s2) :
    s.commandUpset x o 0 .none = ((readMarks s2 k ps1 ps2).retireStore x false ps1 bs).afterIns x f (fun c =>
      { c.applyG us with dstat := c.dstat ||| (if ovf then 1 else 0) }) := by
  have hstores := commandUpset_storesOp1 h ho he hr hq
  simp only [stickD_exact, dstat_applyG] at hstores
  rw [hstores, ← readMarks_opsRead hl hops]
  rfl

/-! ## Instructions of valid operands (R178, R183, R184) -/

/-- A valid operand shows no invalid nibble. -/
theorem memData_none (h : badNibble (memNibbles bs) = none) (n : Nat) : memData n ea bs = none := by
  rw [memData, h]

section

variable (hv : evalOpnds e i e.c 0 i.ops = .ok ([.mem ea1, .mem ea2], us))
include hv

/-- An instruction that reads both operands and delivers a result to the first. -/
theorem memTwo_valid {zero : Bool} (h : OperandsPass e i s1 .rw ea1 ea2 ps1 ps2 s2)
    (h1 : badNibble (memNibbles (s2.peekPieces e.x ps1)) = none) (h2 : badNibble (memNibbles (s2.peekPieces e.x ps2)) = none)
    (hz : zero = true → memValue (s2.peekPieces e.x ps2) ≠ 0) (g : Int → Int → Int)
    (hw : deliver e.c (g (memValue (s2.peekPieces e.x ps1)) (memValue (s2.peekPieces e.x ps2))) (2 * i.l1 - 1) = some w) :
    memTwo zero g e i s1
      = completes (fun t => t.storeOp1 e (opsRead s2 e.x .rw ps1 ps2) us (w.toMem i.l1) w.ovf false) s2 := by
  have hb1 : memData 1 ea1 (opsRead s2 e.x .rw ps1 ps2).bs1 = none := memData_none h1 1
  have hb2 : memData 2 ea2 (opsRead s2 e.x .rw ps1 ps2).bs2 = none := memData_none h2 2
  have hzero : ¬ (zero = true ∧ memValue (opsRead s2 e.x .rw ps1 ps2).bs2 = 0) := fun ⟨ht, h0⟩ => hz ht h0
  simp only [memTwo, withOpnds_ok hv, addr_valAt_zero, valAt_succ, memPhases_pass h, hb1, hb2, orExc, if_neg hzero]
  exact toMemOp_delivers hw

/-- MOVP delivers the value of operand 2. -/
theorem effMovp_valid (h : OperandsPass e i s1 .write ea1 ea2 ps1 ps2 s2)
    (h2 : badNibble (memNibbles (s2.peekPieces e.x ps2)) = none)
    (hw : deliver e.c (memValue (s2.peekPieces e.x ps2)) (2 * i.l1 - 1) = some w) :
    effMovp e i s1 = completes (fun t => t.storeOp1 e (opsRead s2 e.x .write ps1 ps2) us (w.toMem i.l1) w.ovf false) s2 := by
  have hb2 : memData 2 ea2 (opsRead s2 e.x .write ps1 ps2).bs2 = none := memData_none h2 2
  simp only [effMovp, withOpnds_ok hv, addr_valAt_zero, valAt_succ, memPhases_pass h, hb2]
  exact toMemOp_delivers hw

/-- PACKA delivers the value of the characters (R184). -/
theorem effPacka_valid (h : OperandsPass e i s1 .write ea1 ea2 ps1 ps2 s2) (h2 : badChar (s2.peekPieces e.x ps2) = none)
    (hw : deliver e.c (charValue (s2.peekPieces e.x ps2)) (2 * i.l1 - 1) = some w) :
    effPacka e i s1 = completes (fun t => t.storeOp1 e (opsRead s2 e.x .write ps1 ps2) us (w.toMem i.l1) w.ovf false) s2 := by
  have hb2 : badChar (opsRead s2 e.x .write ps1 ps2).bs2 = none := h2
  simp only [effPacka, withOpnds_ok hv, addr_valAt_zero, valAt_succ, memPhases_pass h, hb2]
  exact toMemOp_delivers hw

/-- UNPKA that does not trap writes the low digits of the magnitude (R184). -/
theorem effUnpka_valid (h : OperandsPass e i s1 .write ea1 ea2 ps1 ps2 s2)
    (h2 : badNibble (memNibbles (s2.peekPieces e.x ps2)) = none)
    (ht : (decide (10 ^ i.l1 ≤ (memValue (s2.peekPieces e.x ps2)).natAbs) && e.c.dovt) = false) :
    effUnpka e i s1 = completes (fun t => t.storeOp1 e (opsRead s2 e.x .write ps1 ps2) us
      (asciiDigits i.l1 ((memValue (s2.peekPieces e.x ps2)).natAbs % 10 ^ i.l1))
      (decide (10 ^ i.l1 ≤ (memValue (s2.peekPieces e.x ps2)).natAbs)) false) s2 := by
  have hb2 : memData 2 ea2 (opsRead s2 e.x .write ps1 ps2).bs2 = none := memData_none h2 2
  simp only [effUnpka, withOpnds_ok hv, addr_valAt_zero, valAt_succ, memPhases_pass h, hb2]
  exact if_neg (Bool.eq_false_iff.mp ht)

end

/-- CMPP writes the order of its operands. -/
theorem effCmpp_valid {d : BitVec 5} {u : Word} (hv : evalOpnds e i e.c 0 i.ops = .ok ([.reg d u, .mem ea1, .mem ea2], us))
    (h : OperandsPass e i s1 .read ea1 ea2 ps1 ps2 s2)
    (h1 : badNibble (memNibbles (s2.peekPieces e.x ps1)) = none) (h2 : badNibble (memNibbles (s2.peekPieces e.x ps2)) = none) :
    effCmpp e i s1 = completes (fun t => ((t.touchPieces ps1 false).touchPieces ps2 false).upCtx e.x (fun c =>
      (c.applyG us).setG d (orderInt (memValue (s2.peekPieces e.x ps1)) (memValue (s2.peekPieces e.x ps2))))) s2 := by
  have hb1 : memData 1 ea1 (opsRead s2 e.x .read ps1 ps2).bs1 = none := memData_none h1 1
  have hb2 : memData 2 ea2 (opsRead s2 e.x .read ps1 ps2).bs2 = none := memData_none h2 2
  simp only [effCmpp, withOpnds_ok hv, addr_valAt_zero, valAt_succ, memPhases_pass h, hb1, hb2, orExc]
  rfl

/-- SHRP delivers its shifted and rounded operand (R181). -/
theorem effShrp_valid {u : Val} {q : Int} {inexact : Bool} (hv : evalOpnds e i e.c 0 i.ops = .ok ([.mem ea, u], us))
    (hx : s1.xlatePieces e.x (i.accCtl e) .rw (pagePieces ea i.l1) = .ok ps s2)
    (hp : s2.readPhase e.x .rw ((pagePieces ea i.l1).zip ps) = .ok () s2)
    (hb : badNibble (memNibbles (s2.peekPieces e.x ps)) = none)
    (hq : shiftRound (memValue (s2.peekPieces e.x ps)) (shrpCount u.word) i.rm = (q, inexact))
    (hw : deliver e.c q (2 * i.l1 - 1) = some w) :
    effShrp e i s1 = completes (fun t => t.storeOp1 e { ps1 := ps, bs1 := s2.peekPieces e.x ps, ps2 := [], bs2 := [] } us
      (w.toMem i.l1) w.ovf inexact) s2 := by
  have hop : readOp e s2 .rw ea i.l1 ps = .ok () s2 := hp
  have hu : valAt [.mem ea, u] 1 = u := rfl
  simp only [effShrp, withOpnds_ok hv, addr_valAt_zero, hu, hx, XR.bind, hop, memData_none hb, hq]
  exact toMemOp_delivers hw

end Sys2Proof.Laws
end

section
/-! PROOFS. The memory decimal instructions (O17), SHRP (O18), DLD, DST and the delivery of results (O19). -/

namespace Sys2Proof.Proofs.DecimalMemory

open Sys2Proof Sys2Proof.Machine Sys2Proof.Laws

variable {s s1 s2 : State} {x : CtxId} {i : Ins} {f : Fetched} {us : List (BitVec 5 × Word)} {ps ps1 ps2 : List (Nat × Nat)}
  {ea ea1 ea2 : Nat} {d : BitVec 5} {u : Word}

/-! ## Two operands in memory -/

/-- CMPP performs its reads and writes a G register. -/
theorem commandUpset_cmpp (h : s.alone x = some (i, f, s1)) (ho : i.op = .cmpp)
    (hv : evalOpnds (envOf s1 x f 0) i (s1.ctx x) 0 i.ops = .ok ([.reg d u, .mem ea1, .mem ea2], us))
    (hops : OperandsPass (envOf s1 x f 0) i s1 .read ea1 ea2 ps1 ps2 s2)
    (h1 : badNibble (memNibbles (s2.peekPieces x ps1)) = none) (h2 : badNibble (memNibbles (s2.peekPieces x ps2)) = none)
    (hr : s2.inReset = false) (hq : (s2.ctx x).quiet = true) : s.commandUpset x .cmpp 0 .none
      = (readMarks s2 .read ps1 ps2).afterIns x f (fun c => (c.applyG us).setG d
          (orderInt (memValue (s2.peekPieces x ps1)) (memValue (s2.peekPieces x ps2)))) := by
  have hm : BuffersOnly x (fun t => (t.touchPieces ps1 false).touchPieces ps2 false) :=
    (BuffersOnly.touchPieces x ps1 false).comp (.touchPieces x ps2 false)
  have hmarks : readMarks s2 .read ps1 ps2 = (s2.touchPieces ps1 false).touchPieces ps2 false := if_neg (by decide)
  rw [hmarks]
  exact commandUpset_performs h ho (effCmpp_valid (e := envOf s1 x f 0) hv hops h1 h2) rfl hm rfl
    (fun c => (ValuesOnly.applyG c us).trans (.setG _ _ _)) hr hq

/-- UNPKA that does not trap stores the low digits of the magnitude. -/
theorem commandUpset_unpka (h : s.alone x = some (i, f, s1)) (ho : i.op = .unpka) (hl : 0 < i.l1)
    (hv : evalOpnds (envOf s1 x f 0) i (s1.ctx x) 0 i.ops = .ok ([.mem ea1, .mem ea2], us))
    (hops : OperandsPass (envOf s1 x f 0) i s1 .write ea1 ea2 ps1 ps2 s2)
    (h2 : badNibble (memNibbles (s2.peekPieces x ps2)) = none) (hr : s2.inReset = false) (hq : (s2.ctx x).quiet = true)
    (ht : (decide (10 ^ i.l1 ≤ (memValue (s2.peekPieces x ps2)).natAbs) && (s1.ctx x).dovt) = false) :
    s.commandUpset x .unpka 0 .none = ((readMarks s2 .write ps1 ps2).retireStore x false ps1
      (asciiDigits i.l1 ((memValue (s2.peekPieces x ps2)).natAbs % 10 ^ i.l1))).afterIns x f (fun c =>
        { c.applyG us with dstat := c.dstat |||
          (if decide (10 ^ i.l1 ≤ (memValue (s2.peekPieces x ps2)).natAbs) then 1 else 0) }) :=
  commandUpset_storesTwo h hl hops hr hq ho (effUnpka_valid (e := envOf s1 x f 0) hv hops h2 ht)

/-- Settles O17, instruction by instruction. -/
theorem decimalMemoryResults : Obligations.DecimalMemoryResults := by
  unfold Obligations.DecimalMemoryResults
  intro s s1 sa s2 x i f k ea1 ea2 us ps1 ps2 h hx1 hx2 hr1 hr2 hr hq
  dsimp only
  intro hl
  have hops : OperandsPass (envOf s1 x f 0) i s1 k ea1 ea2 ps1 ps2 s2 := ⟨⟨sa, hx1, hx2⟩, hr1, hr2⟩
  refine ⟨fun ho hv hk h1 h2 w hw => ?_, fun ho hv hk h1 h2 w hw => ?_, fun ho hv hk h1 h2 w hw => ?_,
    fun ho hv hk h1 h2 hz w hw => ?_, fun ho hv hk h2 w hw => ?_, fun ho hv hk h2 w hw => ?_, fun ho hv hk h2 hfits => ?_,
    fun ho hv hk h2 hover hd => ?_, fun d u ho hv hk h1 h2 => ?_⟩
  all_goals subst hk
  · exact congrArg _ (commandUpset_storesTwo h hl hops hr hq ho
      (memTwo_valid (e := envOf s1 x f 0) hv hops h1 h2 Bool.noConfusion (· + ·) hw))
  · exact congrArg _ (commandUpset_storesTwo h hl hops hr hq ho
      (memTwo_valid (e := envOf s1 x f 0) hv hops h1 h2 Bool.noConfusion (· - ·) hw))
  · exact congrArg _ (commandUpset_storesTwo h hl hops hr hq ho
      (memTwo_valid (e := envOf s1 x f 0) hv hops h1 h2 Bool.noConfusion (· * ·) hw))
  · exact congrArg _ (commandUpset_storesTwo h hl hops hr hq ho
      (memTwo_valid (e := envOf s1 x f 0) hv hops h1 h2 (fun _ => hz) Int.tdiv hw))
  · exact congrArg _ (commandUpset_storesTwo h hl hops hr hq ho (effMovp_valid (e := envOf s1 x f 0) hv hops h2 hw))
  · exact congrArg _ (commandUpset_storesTwo h hl hops hr hq ho (effPacka_valid (e := envOf s1 x f 0) hv hops h2 hw))
  · have hin := decide_eq_false (Nat.not_le.mpr hfits)
    have hunpka := commandUpset_unpka h ho hl hv hops h2 hr hq (by rw [hin, Bool.false_and])
    rw [hin, Nat.mod_eq_of_lt hfits] at hunpka
    exact congrArg _ hunpka
  · have hunpka := commandUpset_unpka h ho hl hv hops h2 hr hq (by rw [hd, Bool.and_false])
    rw [decide_eq_true hover] at hunpka
    exact congrArg _ hunpka
  · have hcmpp := commandUpset_cmpp h ho hv hops h1 h2 hr hq
    simp only [orderInt_eq] at hcmpp
    exact congrArg _ hcmpp

/-! ## SHRP -/

/-- SHRP performs its read and stores its shifted and rounded operand. -/
theorem commandUpset_shrp {v : Val} {q : Int} {inexact : Bool} {w : DecOut} (h : s.alone x = some (i, f, s1)) (ho : i.op = .shrp)
    (hl : 0 < i.l1) (hv : evalOpnds (envOf s1 x f 0) i (s1.ctx x) 0 i.ops = .ok ([.mem ea, v], us))
    (hx : s1.xlatePieces x (i.controls f) .rw (pagePieces ea i.l1) = .ok ps s2)
    (hp : s2.readPhase x .rw ((pagePieces ea i.l1).zip ps) = .ok () s2) (hr : s2.inReset = false)
    (hq : (s2.ctx x).quiet = true) (hb : badNibble (memNibbles (s2.peekPieces x ps)) = none)
    (hround : shiftRound (memValue (s2.peekPieces x ps)) (shrpCount v.word) i.rm = (q, inexact))
    (hw : deliver (s1.ctx x) q (2 * i.l1 - 1) = some w) : s.commandUpset x .shrp 0 .none
      = ((s2.touchPieces ps false).retireStore x false ps (w.toMem i.l1)).afterIns x f (fun c =>
          { c.applyG us with dstat := c.dstat ||| (if w.ovf then 1 else 0) ||| (if inexact then 2 else 0) }) := by
  have hstores := commandUpset_storesOp1 h ho (effShrp_valid (e := envOf s1 x f 0) hv hx hp hb hround hw) hr hq
  have hbytes : (s2.peekPieces x ps).isEmpty = false := peekPieces_nonempty hl hx
  simp only [stickD_eq, dstat_applyG] at hstores
  change _ = (((s2.touchPieces (if (s2.peekPieces x ps).isEmpty then [] else ps) false).touchPieces [] false).retireStore x false
    ps (w.toMem i.l1)).afterIns x f _ at hstores
  rw [hbytes] at hstores
  exact hstores

/-- Settles O18, by the direction of the shift. -/
theorem shrpShiftsAndRounds : Obligations.ShrpShiftsAndRounds := by
  unfold Obligations.ShrpShiftsAndRounds
  intro s s1 s2 x i f ea v us ps h ho hl hv hx hp hr hq
  dsimp only
  intro hb r w hleft hright hw
  obtain hn | hn := Int.lt_or_le (shrpCount v.word) 0
  · have hshrp := commandUpset_shrp h ho hl hv hx hp hr hq hb (shiftRound_right hn (hright hn)) hw
    simp only [decide_eq_true_eq] at hshrp
    simp only [hn, true_and]
    exact congrArg _ hshrp
  · have hround := shiftRound_left (v := memValue (s2.peekPieces x ps)) (rm := i.rm) hn
    rw [← hleft hn] at hround
    have hshrp := commandUpset_shrp h ho hl hv hx hp hr hq hb hround hw
    simp only [Int.not_lt.mpr hn, false_and]
    exact congrArg _ hshrp

/-! ## DLD, DST and delivery -/

/-- A D register loaded: at once in B-form, and two bundles later in W-form (R143, R188). -/
theorem loadReg_dReg (c : Ctx) (r : BitVec 3) (v : BitVec 128) : c.loadReg (32 + r.toNat) v
    = if c.wform then { c with loads := c.loads ++ [{ reg := 32 + r.toNat, val := v, left := 2 }] } else c.setD r v := by
  have hwrite : c.writeLoad { reg := 32 + r.toNat, val := v, left := 0 } = c.setD r v := by
    rw [Ctx.writeLoad, if_neg (by simp), Nat.add_sub_cancel_left, BitVec.ofNat_toNat, BitVec.setWidth_eq]
  rw [Ctx.loadReg, hwrite]

/-- DLD reads its bytes with no digit checked (R179) and loads its register. -/
theorem commandUpset_dld (h : s.alone x = some (i, f, s1)) (ho : i.op = .dld)
    (hv : evalOpnds (envOf s1 x f 0) i (s1.ctx x) 0 i.ops = .ok ([.reg d u, .mem ea], us))
    (hx : s1.checkRead x (i.controls f) .read false (pagePieces ea i.l1) = .ok ps s2) (hr : s2.inReset = false)
    (hq : (s2.ctx x).quiet = true) : s.commandUpset x .dld 0 .none = (s2.touchPieces ps false).afterIns x f (fun c =>
      (c.applyG us).loadReg (32 + (dReg d).toNat) (BitVec.ofNat 128 (beNat (s2.peekPieces x ps)))) := by
  have heff : effDld (envOf s1 x f 0) i s1 = completes (fun t => (t.touchPieces ps false).upCtx x (fun c =>
      (c.applyG us).loadReg (32 + (dReg d).toNat) (BitVec.ofNat 128 (beNat (t.peekPieces x ps))))) s2 := by
    have hcheck : s1.checkRead (envOf s1 x f 0).x (i.accCtl (envOf s1 x f 0)) .read false (pagePieces ea i.l1) = .ok ps s2 := hx
    simp only [effDld, withOpnds_ok (e := envOf s1 x f 0) hv, addr_valAt_zero, valAt_succ, hcheck, XR.bind]
    rfl
  refine commandUpset_performs h ho heff rfl (.touchPieces x ps false) ?_
    (fun c => (ValuesOnly.applyG c us).trans (.loadReg _ _ _)) hr hq
  simp only [peekPieces_retired]

/-- DST stores the value of its register with a produced sign (R188, R190). -/
theorem commandUpset_dst {w : DecOut} (h : s.alone x = some (i, f, s1)) (ho : i.op = .dst)
    (hv : evalOpnds (envOf s1 x f 0) i (s1.ctx x) 0 i.ops = .ok ([.mem ea, .reg d u], us))
    (hx : s1.checkWrite x (i.controls f) ea i.l1 = .ok ps s2) (hd : (s1.ctx x).validD [dReg d] = true)
    (hw : deliver (s1.ctx x) ((s1.ctx x).decValue (dReg d)) (2 * i.l1 - 1) = some w) (hr : s2.inReset = false)
    (hq : (s2.ctx x).quiet = true) : s.commandUpset x .dst 0 .none
      = (s2.retireStore x false ps (w.toMem i.l1)).afterIns x f (fun c => (c.applyG us).stickD w.ovf false) := by
  have heff : effDst (envOf s1 x f 0) i s1 = completes (fun t => (t.retireStore x false ps (w.toMem i.l1)).upCtx x (fun c =>
      (c.applyG us).stickD w.ovf false)) s2 := by
    have hcheck : s1.checkWrite (envOf s1 x f 0).x (i.accCtl (envOf s1 x f 0)) ea i.l1 = .ok ps s2 := hx
    have hreg : (valAt [.mem ea, .reg d u] 1).dn = dReg d := rfl
    have hdeliver : deliver (envOf s1 x f 0).c ((envOf s1 x f 0).c.decValue (dReg d)) (2 * i.l1 - 1) = some w := hw
    simp only [effDst, withOpnds_ok (e := envOf s1 x f 0) hv, addr_valAt_zero, hreg, hcheck, XR.bind,
      onRegs_valid (e := envOf s1 x f 0) hd, hdeliver]
    rfl
  exact commandUpset_performs h ho heff rfl (.retireStore x false ps _) rfl
    (fun c => (ValuesOnly.applyG c us).trans (.stickD _ _ _)) hr hq

/-- Settles O19: the load and the store of a D register, and the three cases of a delivery. -/
theorem decimalLoadStoreAndDelivery : Obligations.DecimalLoadStoreAndDelivery := by
  unfold Obligations.DecimalLoadStoreAndDelivery
  refine ⟨fun s s1 s2 x i f us ps d v ea h hl hr hq => ⟨fun ho hv hx => ?_, fun ho hv hx hd w hw => ?_⟩,
    fun c v cap => ⟨deliver_fits, deliver_traps, deliver_truncates⟩⟩
  · have hdld := commandUpset_dld h ho hv hx hr hq
    simp only [loadReg_dReg] at hdld
    exact congrArg _ hdld
  · have hdst := commandUpset_dst h ho hv hx hd hw hr hq
    simp only [stickD_exact, dstat_applyG] at hdst
    exact congrArg _ hdst

end Sys2Proof.Proofs.DecimalMemory
end

section
/-! SUPPORT. String instructions: the accesses of a step, the step of one position, and how they end (spec/08, R200 to R213). -/

namespace Sys2Proof.Laws

open Sys2Proof Sys2Proof.Machine

variable {s s1 s2 t : State} {x : CtxId} {i : Ins} {f : Fetched} {o : Op} {e : Env} {ctl : AccCtl} {c : Ctx} {k : StrKind}
  {d : Option (BitVec 5)} {st : StrSt} {a : StepAcc} {r : Word} {b : Byte} {va pa steps n : Nat}

/-- A check that has passed goes on. -/
@[simp] theorem ok_bind {α β : Type} (b : α) (s : State) (g : α → State → XR β) : (XR.ok b s).bind g = g b s := rfl

/-! ## Accesses (R204, R205, R211) -/

/-- Byte 0 of an operand is the byte it names. -/
@[simp] theorem byteAddr_zero (w : Word) : byteAddr w 0 = w.toNat := congrArg BitVec.toNat (BitVec.add_zero w)

/-- The byte of a table that a byte selects (R201, R202). -/
theorem byteAddr_toNat (w : Word) (v : Byte) : byteAddr w v.toNat = (w + v.setWidth 64).toNat := by
  have hbyte : BitVec.ofNat 64 v.toNat = v.setWidth 64 := BitVec.ofNat_toNat 64 v
  rw [byteAddr, hbyte]

/-- A byte read that passes every check, and that the step has not itself written. -/
theorem strRead_readsByte (h : s.readsByte e.x ctl va pa b t) (hw : a.byteAt pa = none) :
    strRead e ctl a va s = .ok (b, { a with frames := addNew a.frames (pa / 4096) }) t := by
  obtain ⟨hx, href, hreg, hpoison, rfl⟩ := h
  simp [strRead, hx, href, hreg, hw, hpoison]

/-- A byte write that passes its checks is taken into the step. -/
theorem strWrite_translated (h : s.xlate e.x ctl .write va = .ok pa t) (a : StepAcc) (b : Byte) :
    strWrite e ctl a va b s = .ok { a with writes := (va, pa, b) :: a.writes } t := by
  rw [strWrite, h]
  rfl

/-- A frame that a step has read already is kept once. -/
theorem addNew_twice (l : List Nat) (n : Nat) : addNew (addNew l n) n = addNew l n := by
  have hmem : n ∈ addNew l n := by
    unfold addNew
    split_ifs with h
    · exact List.contains_iff_mem.mp h
    · simp
  rw [addNew, if_pos (List.contains_iff_mem.mpr hmem)]

/-- The frames of two bytes read, each once. -/
theorem addNew_singleton (m n : Nat) : addNew [m] n = if m = n then [m] else [m, n] := by
  simp [addNew, eq_comm]

/-- A step that writes nothing writes no poisoned word in part (R341). -/
theorem partPoison_noWrites (l : List Nat) : ({ frames := l } : StepAcc).partPoison s x = none := rfl

/-- Nor does one whose byte goes to a word without poison. -/
theorem partPoison_oneWrite (h : s.readPoison x pa = false) (l : List Nat) :
    ({ writes := [(va, pa, b)], frames := l } : StepAcc).partPoison s x = none := by
  simp [StepAcc.partPoison, h]

/-! ## What a step leaves (R205) -/

/-- A step that completes changes of its context the store buffer alone. -/
theorem BuffersOnly.endStrStep (x : CtxId) (a : StepAcc) : BuffersOnly x (fun s => s.endStrStep x a) :=
  (BuffersOnly.foldl (g := fun s k => s.markFrame k 0x40) (fun k => .markFrame x k 0x40) a.frames).comp
    (BuffersOnly.foldl (g := fun s (u : Nat × List Byte) => s.retirePieces x false [(u.1, u.2.length)] u.2)
      (fun u => .retirePieces x false [(u.1, u.2.length)] u.2) _)

@[simp] theorem inReset_endStrStep (s : State) (x : CtxId) (a : StepAcc) : (s.endStrStep x a).inReset = s.inReset :=
  (BuffersOnly.endStrStep x a).inReset s

theorem ctx_endStrStep (s : State) (x : CtxId) (a : StepAcc) :
    ∃ l, (s.endStrStep x a).ctx x = { s.ctx x with storeBuf := l } := (BuffersOnly.endStrStep x a).ctx s

theorem quiet_endStrStep (h : (s.ctx x).quiet = true) (a : StepAcc) : ((s.endStrStep x a).ctx x).quiet = true := by
  obtain ⟨l, hl⟩ := ctx_endStrStep s x a
  rw [hl]
  exact h

/-! ## How a string instruction begins and ends (R200, R210, R212, R213) -/

/-- What a completed string instruction leaves of its context: STRX0 to STRX3 and CSW.SIP are 0, and the result register
holds the result. -/
def strLeaves (d : Option (BitVec 5)) (r : Word) (c : Ctx) : Ctx :=
  match d with
  | none => { c with strx := [], csw := setBit c.csw 12 false }
  | some g => { c with strx := [], csw := setBit c.csw 12 false }.setG g r

theorem strEnd_eq (e : Env) (d : Option (BitVec 5)) (r : Word) (s : State) :
    strEnd e d r s = completes (fun t => t.upCtx e.x (strLeaves d r)) s := by
  cases d <;> rfl

/-- Where no string instruction is in progress, that leaves alone what a boundary looks at. -/
theorem localUpdate_strLeaves (h : c.sip = false) (d : Option (BitVec 5)) (r : Word) : LocalUpdate (strLeaves d r) c := by
  have hcsw : setBit c.csw 12 false = c.csw := setBit_self c.csw (by decide) h
  cases d with
  | none => exact ⟨rfl, rfl, rfl, rfl, hcsw, rfl⟩
  | some g => simp only [strLeaves, setG_eq, LocalUpdate, hcsw, and_self]

/-- A string instruction that executes alone and completes: its context is left so, and the PC stands after it. -/
theorem commandUpset_strEnd (h : s.alone x = some (i, f, s1)) (ho : i.op = o)
    (he : effect o (envOf s1 x f steps) i s1 = strEnd (envOf s1 x f steps) d r t) (hr : t.inReset = false)
    (hq : (t.ctx x).quiet = true) : s.commandUpset x o steps .none = t.afterIns x f (strLeaves d r) := by
  subst ho
  obtain ⟨-, -, hsip, -⟩ := quiet_parts hq
  have hlocal : LocalUpdate (strLeaves d r) ((t.ctx x).retired f.own) :=
    localUpdate_strLeaves (c := (t.ctx x).retired f.own) hsip d r
  have heff : effect i.op (envOf s1 x f steps) i s1 = .ok { commit := fun t => t.upCtx x (strLeaves d r), ctl := .seq } t :=
    he.trans (strEnd_eq _ d r t)
  simp only [commandUpset_alone h, command_alone h, heff, hr, Bool.false_eq_true, if_false]
  exact finish_local hq hr hlocal

/-- One that completes with a step. -/
theorem commandUpset_strStep (h : s.alone x = some (i, f, s1)) (ho : i.op = o) (hr : s2.inReset = false)
    (hq : (s2.ctx x).quiet = true)
    (he : effect o (envOf s1 x f steps) i s1 = strEnd (envOf s1 x f steps) d r (s2.endStrStep x a)) :
    s.commandUpset x o steps .none = (s2.endStrStep x a).afterIns x f (strLeaves d r) :=
  commandUpset_strEnd h ho he ((inReset_endStrStep s2 x a).trans hr) (quiet_endStrStep hq a)

/-- One that begins and has no length completes at once. -/
theorem strIns_empty (hsip : e.c.sip = false) (hn : n = 0) (s : State) :
    strIns e o k d n s = strEnd e d (k.result {}) s := by
  rw [strIns, if_neg (Bool.eq_false_iff.mp hsip), if_pos hn]

/-- One that begins and has a length makes its steps from position 0 on. -/
theorem strIns_begins (hsip : e.c.sip = false) (hn : n ≠ 0) (s : State) :
    strIns e o k d n s = strRun e o k d n (max 1 e.steps) 0 {} s := by
  rw [strIns, if_neg (Bool.eq_false_iff.mp hsip), if_neg hn]

/-- The result of an instruction whose positions have come to their end; decimal data gives none. -/
def stepResult (k : StrKind) : StepEnd → Option Word
  | .all st => some (k.result st)
  | .stop _ w => some w
  | .bad _ => none

/-- A string instruction of one byte that raises nothing completes with that result. -/
theorem strIns_byte {q : StepEnd × StepAcc} (hsip : e.c.sip = false)
    (hstep : (strStep k {} {} [0] s).bind (lastStep k true) = .ok q t) (hp : q.2.partPoison t e.x = none)
    (hr : stepResult k q.1 = some r) : strIns e o k d 1 s = strEnd e d r (t.endStrStep e.x q.2) := by
  obtain ⟨m, hm⟩ : ∃ m, max 1 e.steps = m + 1 := Nat.exists_eq_succ_of_ne_zero (by omega)
  have hrange : (List.range (min 64 (1 - 0))).map (fun i => 0 + i) = [0] := rfl
  have hlast : decide (1 ≤ 0 + min 64 (1 - 0)) = true := rfl
  rw [strIns_begins hsip Nat.one_ne_zero, hm, strRun]
  simp only [hrange, hlast, hstep, ok_bind, hp]
  obtain ⟨st | ⟨st, w⟩ | y, a⟩ := q
  · cases hr
    rfl
  · cases hr
    rfl
  · cases hr

/-- One that goes on after its byte, which its last position permits. -/
theorem strIns_byte_goes (hsip : e.c.sip = false) (hpos : k.pos {} 0 {} s = .ok (.go st, a) t)
    (hfin : k.fin st a t = .ok none t) (hp : a.partPoison t e.x = none) :
    strIns e o k d 1 s = strEnd e d (k.result st) (t.endStrStep e.x a) := by
  have hstep : (strStep k {} {} [0] s).bind (lastStep k true) = .ok (.all st, a) t := by
    simp only [strStep, hpos, ok_bind, lastStep, hfin, if_true]
  exact strIns_byte hsip hstep hp rfl

/-- One that meets its stop condition there. -/
theorem strIns_byte_stops (hsip : e.c.sip = false) (hpos : k.pos {} 0 {} s = .ok (.stop r, a) t)
    (hp : a.partPoison t e.x = none) : strIns e o k d 1 s = strEnd e d r (t.endStrStep e.x a) := by
  have hstep : (strStep k {} {} [0] s).bind (lastStep k true) = .ok (.stop {} r, a) t := by
    simp only [strStep, hpos, ok_bind, lastStep]
  exact strIns_byte hsip hstep hp rfl

/-- One that goes on or stops by a condition on what it has read. -/
theorem strIns_byte_decides {p : Prop} [Decidable p] {l : List Nat} (hsip : e.c.sip = false)
    (hpos : k.pos {} 0 {} s = .ok (if p then .go {} else .stop r, { frames := l }) t)
    (hfin : k.fin {} { frames := l } t = .ok none t) :
    strIns e o k d 1 s = strEnd e d (if p then k.result {} else r) (t.endStrStep e.x { frames := l }) := by
  split_ifs at hpos ⊢
  · exact strIns_byte_goes hsip hpos hfin (partPoison_noWrites l)
  · exact strIns_byte_stops hsip hpos (partPoison_noWrites l)

/-- A string instruction that is longer than a step and may make one stands at an interruption point after it (R210). -/
theorem strIns_pauses (hsip : e.c.sip = false) (hsteps : e.steps = 1) (hn : 64 < n)
    (hstep : strStep k {} {} (List.range 64) s = .ok (.all st, a) t) (hp : a.partPoison t e.x = none) :
    strIns e o k d n s = .ok { commit := id, ctl := .pause } ((t.endStrStep e.x a).strPoint e o 64 st) := by
  have hmin : min 64 (n - 0) = 64 := by omega
  have hrange : (List.range 64).map (fun i => 0 + i) = List.range 64 := by simp
  have hmore : ¬ n ≤ 0 + 64 := by omega
  have hfuel : max 1 e.steps = 0 + 1 := by rw [hsteps]; rfl
  rw [strIns_begins hsip (by omega), hfuel, strRun]
  simp only [hmin, hrange, hstep, ok_bind, lastStep, decide_eq_false hmore, Bool.false_eq_true, if_false, hp, if_neg hmore]
  rfl

/-! ## The operands -/

/-- The operand that stands first. -/
@[simp] theorem valAt_zero (u : Val) (vs : List Val) : valAt (u :: vs) 0 = u := rfl

/-- An operand that is not there has no word and no register, whatever value stands for it. -/
theorem valAt_word (vs : List Val) (n : Nat) : (valAt vs n).word = (vs.getD n (.mem 0)).word := by
  simp only [valAt, List.getD_eq_getElem?_getD]
  cases vs[n]? <;> rfl

theorem valAt_rn (vs : List Val) (n : Nat) : (valAt vs n).rn = (vs.getD n (.mem 0)).rn := by
  simp only [valAt, List.getD_eq_getElem?_getD]
  cases vs[n]? <;> rfl

/-- The length of a string instruction is the low half of its length operand (R200). -/
theorem strLen_valAt (vs : List Val) (n : Nat) : strLen (valAt vs n) = (vs.getD n (.mem 0)).word.toNat % 2 ^ 32 := by
  rw [strLen, valAt_word]
  rfl

end Sys2Proof.Laws
end

section
/-! SUPPORT. The one position of a string instruction or edit of one byte (spec/08, R199 to R209). -/

namespace Sys2Proof.Laws

open Sys2Proof Sys2Proof.Machine

variable {s s2 sa sb t : State} {i : Ins} {o : Op} {e : Env} {ctl : AccCtl} {d : Option (BitVec 5)} {st : StrSt}
  {a a' : StepAcc} {us : List (BitVec 5 × Word)} {b p v va vb : Byte} {pa pb pd pp ps n : Nat}

/-- What a step of one byte has done: the frames it has read, and the byte it would write. -/
def oneByte (l : List Nat) (va pa : Nat) (b : Byte) : StepAcc := { writes := [(va, pa, b)], frames := l }

/-- The frames of two bytes read, each once. -/
def twoFrames (pa pb : Nat) : List Nat := if pa / 4096 = pb / 4096 then [pa / 4096] else [pa / 4096, pb / 4096]

/-- The first byte that a step reads. -/
theorem strRead_first (h : s.readsByte e.x ctl n pa va sa) :
    strRead e ctl {} n s = .ok (va, { frames := [pa / 4096] }) sa := strRead_readsByte h rfl

/-- The second one. -/
theorem strRead_second (h : s.readsByte e.x ctl n pb vb t) :
    strRead e ctl { frames := [pa / 4096] } n s = .ok (vb, { frames := twoFrames pa pb }) t := by
  rw [strRead_readsByte h rfl]
  simp only [addNew_singleton]
  rfl

/-- The byte that a step writes then. -/
theorem strWrite_first {l : List Nat} (h : s.xlate e.x ctl .write n = .ok pd t) (b : Byte) :
    strWrite e ctl { frames := l } n b s = .ok (oneByte l n pd b) t := strWrite_translated h { frames := l } b

/-! ## Moves, translation, scan and compare (Table 8.1) -/

/-- MVST copies as many bytes as its length operand says (R200). -/
theorem effMvst_eq {dv pv nv : Val} (hv : evalOpnds e i e.c 0 i.ops = .ok ([dv, pv, nv], us)) (s : State) : effMvst e i s
    = strIns e .mvst (movePos e (i.accCtl e) dv.word pv.word) none (nv.word.toNat % 2 ^ 32) s := withOpnds_ok hv _

section

variable {dv pv qv nv : Val} (hsip : e.c.sip = false) (hn : nv.word.toNat % 2 ^ 32 = 1)
include hsip

/-- A copy of one byte. -/
theorem strIns_move {src dst : Word} (hr : s.readsByte e.x ctl src.toNat pa va sa)
    (hx : sa.xlate e.x ctl .write dst.toNat = .ok pd s2) (hp : s2.readPoison e.x pd = false) :
    strIns e o (movePos e ctl dst src) none 1 s
      = strEnd e none 0 (s2.endStrStep e.x (oneByte [pa / 4096] dst.toNat pd va)) := by
  refine strIns_byte_goes hsip (st := {}) ?_ rfl (partPoison_oneWrite hp _)
  simp only [movePos, byteAddr_zero, strRead_first hr, ok_bind, strWrite_first hx]

include hn

theorem effMvst_byte (hv : evalOpnds e i e.c 0 i.ops = .ok ([dv, pv, nv], us))
    (hr : s.readsByte e.x (i.accCtl e) pv.word.toNat pa va sa)
    (hx : sa.xlate e.x (i.accCtl e) .write dv.word.toNat = .ok pd s2) (hp : s2.readPoison e.x pd = false) :
    effMvst e i s = strEnd e none 0 (s2.endStrStep e.x (oneByte [pa / 4096] dv.word.toNat pd va)) := by
  rw [effMvst_eq hv, hn]
  exact strIns_move hsip hr hx hp

theorem effMvstU_byte (hv : evalOpnds e i e.c 0 i.ops = .ok ([dv, pv, nv], us))
    (hr : s.readsByte e.x { i.accCtl e with um := .mvstU } pv.word.toNat pa va sa)
    (hx : sa.xlate e.x { i.accCtl e with um := .mvstU } .write dv.word.toNat = .ok pd s2)
    (hp : s2.readPoison e.x pd = false) :
    effMvstU e i s = strEnd e none 0 (s2.endStrStep e.x (oneByte [pa / 4096] dv.word.toNat pd va)) := by
  have hlen : strLen (valAt [dv, pv, nv] 2) = 1 := hn
  rw [effMvstU, withOpnds_ok hv, hlen]
  exact strIns_move hsip hr hx hp

/-- TRST stores the byte that the table gives for the source byte (R201). -/
theorem effTrst_byte (hv : evalOpnds e i e.c 0 i.ops = .ok ([dv, pv, qv, nv], us))
    (hr : s.readsByte e.x (i.accCtl e) pv.word.toNat pa va sa)
    (ht : sa.readsByte e.x (i.accCtl e) (qv.word + va.setWidth 64).toNat pb vb sb)
    (hx : sb.xlate e.x (i.accCtl e) .write dv.word.toNat = .ok pd s2) (hp : s2.readPoison e.x pd = false) :
    effTrst e i s = strEnd e none 0 (s2.endStrStep e.x (oneByte (twoFrames pa pb) dv.word.toNat pd vb)) := by
  have hlen : strLen (valAt [dv, pv, qv, nv] 3) = 1 := hn
  rw [effTrst, withOpnds_ok hv]
  dsimp only
  rw [hlen]
  refine strIns_byte_goes hsip (st := {}) ?_ rfl (partPoison_oneWrite hp _)
  simp only [byteAddr_zero, valAt_zero, valAt_succ, byteAddr_toNat, strRead_first hr, ok_bind, strRead_second ht,
    strWrite_first hx]

/-- SCNS stops where the table gives a byte other than 0 for the source byte (R202). -/
theorem effScns_byte (hv : evalOpnds e i e.c 0 i.ops = .ok ([dv, pv, qv, nv], us))
    (hr : s.readsByte e.x (i.accCtl e) pv.word.toNat pa va sa)
    (ht : sa.readsByte e.x (i.accCtl e) (qv.word + va.setWidth 64).toNat pb vb s2) :
    effScns e i s = strEnd e (some dv.rn) (if vb = 0 then 1 else BitVec.ofNat 64 (2 ^ 63 + vb.toNat * 2 ^ 32))
      (s2.endStrStep e.x { frames := twoFrames pa pb }) := by
  have hlen : strLen (valAt [dv, pv, qv, nv] 3) = 1 := hn
  rw [effScns, withOpnds_ok hv]
  dsimp only
  rw [hlen]
  refine strIns_byte_decides hsip ?_ rfl
  simp only [byteAddr_zero, valAt_zero, valAt_succ, byteAddr_toNat, strRead_first hr, ok_bind, strRead_second ht,
    Nat.zero_add, Nat.add_comm (2 ^ 63)]

/-- CMPS stops where the bytes differ, with their order (R203). -/
theorem effCmps_byte (hv : evalOpnds e i e.c 0 i.ops = .ok ([dv, pv, qv, nv], us))
    (hr : s.readsByte e.x (i.accCtl e) pv.word.toNat pa va sa)
    (ht : sa.readsByte e.x (i.accCtl e) qv.word.toNat pb vb s2) :
    effCmps e i s = strEnd e (some dv.rn) (if va = vb then 1 else if va < vb then 0xFFFFFFFF00000000 else 0x100000000)
      (s2.endStrStep e.x { frames := twoFrames pa pb }) := by
  have hlen : strLen (valAt [dv, pv, qv, nv] 3) = 1 := hn
  have horder : BitVec.ofNat 64 (0 + (if va < vb then 0xFFFFFFFF else 1) * 2 ^ 32)
      = if va < vb then 0xFFFFFFFF00000000 else 0x100000000 := by
    split_ifs <;> rfl
  rw [effCmps, withOpnds_ok hv]
  dsimp only
  rw [hlen]
  refine strIns_byte_decides hsip ?_ rfl
  simp only [byteAddr_zero, valAt_zero, valAt_succ, strRead_first hr, ok_bind, strRead_second ht, horder]

end

/-! ## Edits (R206 to R209, Table 8.3) -/

section

variable {g : EditArgs}

/-- The fill character of an edit. -/
abbrev fillOf (g : EditArgs) : Byte := BitVec.ofNat 8 (bitsOf g.ctl 39 32)

/-- It is CTL[39:32] (R206). -/
theorem fillOf_eq (g : EditArgs) : fillOf g = BitVec.ofNat 8 (g.ctl.toNat / 2 ^ 32) := by
  refine BitVec.eq_of_toNat_eq ?_
  rw [BitVec.toNat_ofNat, BitVec.toNat_ofNat, bitsOf, Nat.shiftRight_eq_div_pow]
  exact Nat.mod_mod _ _

/-- A pattern byte above 5 stands for itself where significance is open, and for the fill character where it is not. -/
theorem editByte_literal (h : 5 < p.toNat) (st : StrSt) (n : Nat) (a : StepAcc) (s : State) :
    editByte e ctl g st n p a s = .ok (.ok (if st.sig then p else fillOf g, st), a) s := by
  obtain ⟨m, hm⟩ : ∃ m, p.toNat = m + 6 := ⟨p.toNat - 6, by omega⟩
  rw [editByte, hm]
  rfl

/-- A position of an edit writes the byte that its pattern byte gives. -/
theorem editKind_pos {q : Byte × StrSt} {l : List Nat} (hp : s.readsByte e.x ctl g.pat.toNat pp p sa)
    (hb : editByte e ctl g {} 0 p { frames := [pp / 4096] } sa = .ok (.ok q, { frames := l }) sb)
    (hx : sb.xlate e.x ctl .write g.d.toNat = .ok pd s2) :
    (editKind e ctl g).pos {} 0 {} s = .ok (.go q.2, oneByte l g.d.toNat pd q.1) s2 := by
  simp only [editKind, byteAddr_zero, strRead_first hp, ok_bind, hb, strWrite_first hx]

/-- Outside a field the end of an edit leaves no digit over (R208). -/
theorem editKind_fin_closed (h : st.isOpen = false) (a : StepAcc) (s : State) : (editKind e ctl g).fin st a s = .ok none s := by
  simp [editKind, endField, h]

/-- EDIT and EDPOS of one literal pattern byte: significance is not open, and no field is. -/
theorem strIns_editLiteral (hsip : e.c.sip = false) (h : 5 < p.toNat) (hp : s.readsByte e.x ctl g.pat.toNat pp p sa)
    (hx : sa.xlate e.x ctl .write g.d.toNat = .ok pd s2) (hpoison : s2.readPoison e.x pd = false) :
    strIns e o (editKind e ctl g) d 1 s
      = strEnd e d 0 (s2.endStrStep e.x (oneByte [pp / 4096] g.d.toNat pd (BitVec.ofNat 8 (g.ctl.toNat / 2 ^ 32)))) := by
  rw [← fillOf_eq]
  exact strIns_byte_goes hsip (editKind_pos hp (editByte_literal h {} 0 _ _) hx) (editKind_fin_closed rfl _ _)
    (partPoison_oneWrite hpoison _)

/-- A byte that holds one digit over a sign. -/
structure DigitOverSign (v : Byte) : Prop where
  digit : v.toNat / 16 < 10
  sign : 10 ≤ v.toNat % 16

theorem signIn_digitOverSign (h : DigitOverSign v) : signIn v = some (v.toNat % 16) := by
  rw [signIn, if_neg (Nat.not_le.mpr h.digit), if_pos h.sign]

/-- A field that is not open is located by its sign, here in its first byte (R206). -/
theorem locate_firstByte (hopen : st.isOpen = false) (hr : strRead e ctl a (byteAddr g.src st.ofs) s = .ok (v, a') t)
    (hv : DigitOverSign v) :
    locate e ctl g st a s = .ok (.ok { st with isOpen := true, digits := 0, neg := minusSign (v.toNat % 16) }, a') t := by
  have hfind (k : Nat) : findSign e ctl g st.ofs 0 (k + 1) a s = .ok (some (v.toNat % 16), a') t := by
    simp only [findSign, Nat.add_zero, hr, ok_bind, signIn_digitOverSign hv]
  simp [locate, hopen, hfind 31]

/-- The next nibble of a field whose places have not run out. -/
theorem nextNibble_within (hd : st.digits < 63)
    (hr : strRead e ctl a (byteAddr g.src (st.ofs + st.digits / 2)) s = .ok (v, a') t) :
    nextNibble e ctl g st a s = .ok (if st.digits % 2 = 0 then v.toNat / 16 else v.toNat % 16, a') t := by
  rw [nextNibble, hr, ok_bind, if_neg (Nat.not_le.mpr hd)]

/-- What an edit carries after a trigger digit slot on the digit of its first byte: significance is open, and EDPOS has recorded
position 0 (R207). -/
def afterDigit (keeps : Bool) (v : Byte) : StrSt :=
  { ({ isOpen := true, neg := minusSign (v.toNat % 16) } : StrSt).opens keeps 0 with sig := true, digits := 1 }

theorem afterDigit_eq (keeps : Bool) (v : Byte) : afterDigit keeps v
    = { isOpen := true, neg := minusSign (v.toNat % 16), sig := true, digits := 1, count := bit keeps } := by
  cases keeps <;> rfl

/-- A trigger digit slot writes the digit of the first byte in ASCII (Table 8.3). -/
theorem digitSlot_firstDigit (hv : DigitOverSign v) (hs : sa.readsByte e.x ctl g.src.toNat ps v sa) :
    digitSlot e ctl g true {} 0 { frames := [pp / 4096] } sa = .ok (.ok (BitVec.ofNat 8 (0x30 + v.toNat / 16),
      afterDigit g.keeps v), { frames := twoFrames pp ps }) sa := by
  have hagain : strRead e ctl { frames := twoFrames pp ps } g.src.toNat sa = .ok (v, { frames := twoFrames pp ps }) sa := by
    rw [strRead_readsByte hs rfl, twoFrames, ← addNew_singleton, addNew_twice]
  have hlocate := locate_firstByte (g := g) (st := {}) rfl (by rw [byteAddr_zero]; exact strRead_second (pa := pp) hs) hv
  have hnibble := nextNibble_within (g := g) (v := v)
    (st := { isOpen := true, digits := 0, neg := minusSign (v.toNat % 16) }) (Nat.zero_lt_succ 62)
    (by rw [Nat.zero_div, Nat.zero_add, byteAddr_zero]; exact hagain)
  rw [digitSlot, hlocate]
  simp only [ok_bind, hnibble, Nat.zero_mod, if_true, if_neg (Nat.not_le.mpr hv.digit)]
  rfl

/-- Where the sign is next in the field, the end of the edit leaves no digit over (R208). -/
theorem editKind_fin_atSign (hv : DigitOverSign v) (hopen : st.isOpen = true) (hofs : st.ofs = 0) (hdigits : st.digits = 1)
    (hs : strRead e ctl a g.src.toNat s = .ok (v, a') t) : (editKind e ctl g).fin st a s = .ok none t := by
  have hplace : byteAddr g.src (st.ofs + st.digits / 2) = g.src.toNat := by
    rw [hofs, hdigits]
    exact byteAddr_zero _
  have hnibble : nextNibble e ctl g st a s = .ok (v.toNat % 16, a') t := by
    rw [nextNibble_within (by rw [hdigits]; decide) (hplace ▸ hs), hdigits]
    rfl
  simp only [editKind, endField, hopen, hnibble, ok_bind, if_neg (Nat.not_lt.mpr hv.sign), Bool.not_true, Bool.false_eq_true,
    if_false]

/-- EDIT and EDPOS of one trigger digit slot over a field of one digit. -/
theorem strIns_editDigit (hsip : e.c.sip = false) (hp : s.readsByte e.x ctl g.pat.toNat pp 2 sa) (hv : DigitOverSign v)
    (hs : sa.readsByte e.x ctl g.src.toNat ps v sa) (hx : sa.xlate e.x ctl .write g.d.toNat = .ok pd s2)
    (hpoison : s2.readPoison e.x pd = false) (hne : pd ≠ ps) (hs2 : s2.readsByte e.x ctl g.src.toNat ps v s2) :
    strIns e o (editKind e ctl g) d 1 s = strEnd e d (if g.keeps then BitVec.ofNat 64 (2 ^ 63 + 2 ^ 32) else 0)
      (s2.endStrStep e.x (oneByte (twoFrames pp ps) g.d.toNat pd (BitVec.ofNat 8 (0x30 + v.toNat / 16)))) := by
  have hresult : (editKind e ctl g).result (afterDigit g.keeps v)
      = if g.keeps then BitVec.ofNat 64 (2 ^ 63 + 2 ^ 32) else 0 := by
    rw [afterDigit_eq]
    cases g.keeps <;> simp [editKind, bit]
  have hfresh : (oneByte (twoFrames pp ps) g.d.toNat pd (BitVec.ofNat 8 (0x30 + v.toNat / 16))).byteAt ps = none := by
    simp [oneByte, StepAcc.byteAt, hne]
  have hfin := editKind_fin_atSign (g := g) (st := afterDigit g.keeps v) hv (by rw [afterDigit_eq]) (by rw [afterDigit_eq])
    (by rw [afterDigit_eq]) (strRead_readsByte hs2 hfresh)
  rw [← hresult]
  exact strIns_byte_goes hsip (editKind_pos hp (digitSlot_firstDigit hv hs) hx) hfin (partPoison_oneWrite hpoison _)

variable {gv dv sv pv cv : Val} (hn : cv.word.toNat % 2 ^ 32 = 1)
include hn

/-- EDIT is its edit, and keeps no position record. -/
theorem effEdit_byte (hv : evalOpnds e i e.c 0 i.ops = .ok ([dv, sv, pv, cv], us)) (s : State) :
    effEdit e i s = strIns e .edit (editKind e (i.accCtl e)
      { d := dv.word, src := sv.word, pat := pv.word, ctl := cv.word, keeps := false }) none 1 s := by
  have hlen : strLen (valAt [dv, sv, pv, cv] 3) = 1 := hn
  rw [effEdit, withOpnds_ok hv, hlen]
  rfl

/-- EDPOS is its edit, and gives the position record. -/
theorem effEdpos_byte (hv : evalOpnds e i e.c 0 i.ops = .ok ([gv, dv, sv, pv, cv], us)) (s : State) :
    effEdpos e i s = strIns e .edpos (editKind e (i.accCtl e)
      { d := dv.word, src := sv.word, pat := pv.word, ctl := cv.word, keeps := true }) (some gv.rn) 1 s := by
  have hlen : strLen (valAt [gv, dv, sv, pv, cv] 4) = 1 := hn
  rw [effEdpos, withOpnds_ok hv, hlen]
  rfl

end

end Sys2Proof.Laws
end

section
/-! PROOFS. String instructions and edits of length 0 and of one byte (O23), and a long one between its steps (O24). -/

namespace Sys2Proof.Proofs.Strings

open Sys2Proof Sys2Proof.Machine Sys2Proof.Laws

variable {s s1 s2 : State} {x : CtxId} {i : Ins} {f : Fetched} {o : Op} {steps m : Nat} {vs : List Val}
  {us : List (BitVec 5 × Word)}

/-! ## No byte -/

/-- A string instruction that executes alone has none in progress before it. -/
theorem sip_alone (h : s.alone x = some (i, f, s1)) : (s1.ctx x).sip = false := by
  obtain ⟨hq, -⟩ := alone_quiet h
  obtain ⟨-, -, hsip, -⟩ := quiet_parts hq
  exact hsip

section

variable {k : List Val → StrKind} {d : List Val → Option (BitVec 5)} {eff : Eff} (h : s.alone x = some (i, f, s1))
  (hv : evalOpnds (envOf s1 x f steps) i (s1.ctx x) 0 i.ops = .ok (vs, us)) (ho : i.op = o)
  (hn : (vs.getD m (.mem 0)).word.toNat % 2 ^ 32 = 0) (he : effect o = eff)
include h hv ho hn he

/-- A string instruction whose length operand is 0 completes at once (R200). -/
theorem commandUpset_empty (hk : eff (envOf s1 x f steps) i s1 = withOpnds (envOf s1 x f steps) i s1 (fun vs _ =>
      strIns (envOf s1 x f steps) o (k vs) (d vs) (strLen (valAt vs m)) s1)) :
    s.commandUpset x o steps .none = s1.afterIns x f (strLeaves (d vs) ((k vs).result {})) := by
  subst he
  obtain ⟨hq, hr⟩ := alone_quiet h
  have hlen : strLen (valAt vs m) = 0 := (strLen_valAt vs m).trans hn
  have hsip : (envOf s1 x f steps).c.sip = false := sip_alone h
  refine commandUpset_strEnd h ho (hk.trans ?_) hr hq
  rw [withOpnds_ok (e := envOf s1 x f steps) hv]
  exact strIns_empty hsip hlen s1

/-- One with a result register gives 0. -/
theorem commandUpset_empty_zero (hk : eff (envOf s1 x f steps) i s1 = withOpnds (envOf s1 x f steps) i s1 (fun vs _ =>
      strIns (envOf s1 x f steps) o (k vs) (some (valAt vs 0).rn) (strLen (valAt vs m)) s1))
    (hz : (k vs).result {} = 0) :
    s.commandUpset x o steps .none = s1.afterIns x f (strLeaves (some (vs.getD 0 (.mem 0)).rn) 0) := by
  rw [commandUpset_empty (d := fun vs => some (valAt vs 0).rn) h hv ho hn he hk, hz, valAt_rn]

end

/-! ## One byte -/

/-- Settles O23: no byte, one byte, and one pattern byte. -/
theorem stringsAndEditsOfOneByte : Obligations.StringsAndEditsOfOneByte := by
  unfold Obligations.StringsAndEditsOfOneByte
  refine ⟨⟨fun s s1 x i f steps vs us h hv => ?_,
    fun s s1 sa sb s2 x i f steps g d p q n us ctl pa pb pd va vb h hn hr hq => ?_⟩,
    fun s s1 sa s2 x i f steps g d src pat ctl us pp ps pd p v h hn hr hq => ?_⟩
  · have hlen (hn : (vs.getD 3 (.mem 0)).word.toNat % 2 ^ 32 = 0) : BitVec.ofNat 64 (strLen (valAt vs 3)) = 0 :=
      congrArg (BitVec.ofNat 64) ((strLen_valAt vs 3).trans hn)
    refine ⟨fun ho hn => ?_, fun ho hn => ?_, fun ho hn => ?_, fun ho hn => ?_, fun ho hn => ?_, fun ho hn => ?_,
      fun ho hn => ?_⟩
    · exact congrArg _ (commandUpset_empty (eff := effMvst) h hv ho hn rfl rfl)
    · exact congrArg _ (commandUpset_empty (eff := effMvstU) h hv ho hn rfl rfl)
    · exact congrArg _ (commandUpset_empty (eff := effTrst) h hv ho hn rfl rfl)
    · exact congrArg _ (commandUpset_empty_zero (eff := effScns) h hv ho hn rfl rfl (hlen hn))
    · exact congrArg _ (commandUpset_empty_zero (eff := effCmps) h hv ho hn rfl rfl (hlen hn))
    · exact congrArg _ (commandUpset_empty (eff := effEdit) h hv ho hn rfl rfl)
    · exact congrArg _ (commandUpset_empty_zero (eff := effEdpos) h hv ho hn rfl rfl rfl)
  · have hsip : (envOf s1 x f steps).c.sip = false := sip_alone h
    refine ⟨fun u ho hctl hv hp hx hpoison => ?_, fun ho hctl hv hp ht hx hpoison => ?_, fun ho hctl hv hp ht => ?_,
      fun ho hctl hv hp ht => ?_⟩ <;> subst hctl
    · cases u with
      | false => exact congrArg _ (commandUpset_strStep h ho hr hq (effMvst_byte hsip hn hv hp hx hpoison))
      | true => exact congrArg _ (commandUpset_strStep h ho hr hq (effMvstU_byte hsip hn hv hp hx hpoison))
    · exact congrArg _ (commandUpset_strStep h ho hr hq (effTrst_byte hsip hn hv hp ht hx hpoison))
    · exact congrArg _ (commandUpset_strStep h ho hr hq (effScns_byte hsip hn hv hp ht))
    · exact congrArg _ (commandUpset_strStep h ho hr hq (effCmps_byte hsip hn hv hp ht))
  · have hsip : (envOf s1 x f steps).c.sip = false := sip_alone h
    intro ops ends store fill one hp
    refine ⟨fun ho hv => ⟨fun hlit hx hpoison => ?_, fun htwo hs hdigit hsign hx hpoison hne hs2 => ?_⟩,
      fun ho hv => ⟨fun hlit hx hpoison => ?_, fun htwo hs hdigit hsign hx hpoison hne hs2 => ?_⟩⟩
    · have hedit := (effEdit_byte (e := envOf s1 x f steps) hn hv s1).trans (strIns_editLiteral hsip hlit hp hx hpoison)
      exact congrArg _ (commandUpset_strStep h ho hr hq hedit)
    · subst htwo
      have hedit := (effEdit_byte (e := envOf s1 x f steps) hn hv s1).trans
        (strIns_editDigit hsip hp ⟨hdigit, hsign⟩ hs hx hpoison hne hs2)
      exact congrArg _ (commandUpset_strStep h ho hr hq hedit)
    · have hedpos := (effEdpos_byte (e := envOf s1 x f steps) hn hv s1).trans (strIns_editLiteral hsip hlit hp hx hpoison)
      exact congrArg _ (commandUpset_strStep h ho hr hq hedpos)
    · subst htwo
      have hedpos := (effEdpos_byte (e := envOf s1 x f steps) hn hv s1).trans
        (strIns_editDigit hsip hp ⟨hdigit, hsign⟩ hs hx hpoison hne hs2)
      exact congrArg _ (commandUpset_strStep h ho hr hq hedpos)

/-! ## More than a step -/

/-- A string instruction that executes alone and comes to an interruption point leaves its context with its fetch behind it, in
the enclave it arrived in, and the PC at the instruction (R210). -/
theorem commandUpset_pauses {t : State} (h : s.alone x = some (i, f, s1)) (ho : i.op = o)
    (he : effect o (envOf s1 x f steps) i s1 = .ok { commit := id, ctl := .pause } t) (hr : t.inReset = false)
    (hs : (t.ctx x).stepping = false) : s.commandUpset x o steps .none = t.upCtx x (fun c => { c with
      shadow := false
      arrival := f.arrived.elim c.arrival .gate }) := by
  subst ho
  simp only [commandUpset_alone h, command_alone h, he, hr, Bool.false_eq_true, if_false]
  have hpause : t.finish s x f [{ commit := id, ctl := .pause }] = (t.upCtx x (fun c => { c with
      shadow := false
      arrival := f.arrived.elim c.arrival .gate })).endStep x := by
    cases harr : f.arrived <;> simp [State.finish, Done.waits, Done.pauses, State.pauseAt, harr]
  rw [hpause, State.endStep, ctx_upCtx_same, hs]
  rfl

/-- STRX0 holds the positions done (Table 8.5). -/
theorem strRegs_done (e : Env) (o : Op) (n : Nat) (st : StrSt) : smGet (strRegs e o n st) 0 0 = BitVec.ofNat 64 n := by
  simp only [strRegs, smGet_set, OfNat.zero_ne_ofNat, Nat.zero_ne_one, if_false, if_true]

/-- STRX3 holds the code of the instruction, the form and PC[15:0] (Table 8.5). -/
theorem strRegs_ident (e : Env) (o : Op) (n : Nat) (st : StrSt) : smGet (strRegs e o n st) 0 3
    = BitVec.ofNat 64 (o.strCode + bit e.c.wform * 2 ^ 8 + e.pc % 2 ^ 16 * 2 ^ 48) := smGet_set_same _ _ _ _

/-- The codes of Table 8.5 are few. -/
theorem strCode_lt (o : Op) : o.strCode < 8 := by
  unfold Op.strCode
  split <;> decide

/-- The fields of STRX3 are apart. -/
theorem fields_strIdent {code pc : Nat} (w : Bool) (hcode : code < 8) :
    let v := BitVec.ofNat 64 (code + bit w * 2 ^ 8 + pc % 2 ^ 16 * 2 ^ 48)
    bitsOf v 7 0 = code ∧ bitAt v 8 = w ∧ bitsOf v 63 48 = pc % 2 ^ 16 := by
  intro v
  have hbit : bit w < 2 := by cases w <;> decide
  have hv : v.toNat = code + bit w * 2 ^ 8 + pc % 2 ^ 16 * 2 ^ 48 := by
    rw [BitVec.toNat_ofNat]
    omega
  refine ⟨?_, ?_, ?_⟩
  · rw [bitsOf, hv, Nat.shiftRight_eq_div_pow]
    omega
  · rw [bitAt, BitVec.getLsbD, hv, Nat.testBit_eq_decide_div_mod_eq]
    have hdiv : (code + bit w * 2 ^ 8 + pc % 2 ^ 16 * 2 ^ 48) / 2 ^ 8 % 2 = bit w := by omega
    rw [hdiv]
    cases w <;> rfl
  · rw [bitsOf, hv, Nat.shiftRight_eq_div_pow]
    omega

/-- What an interruption point holds of its context. -/
theorem ctx_strPoint {e : Env} (he : e.x = x) (s : State) (o : Op) (n : Nat) (st : StrSt) : (s.strPoint e o n st).ctx x
    = { s.ctx x with strx := strRegs e o n st, csw := setBit (s.ctx x).csw 12 true } := by
  subst he
  exact ctx_upCtx_same s e.x _

/-- Settles O24: the step that is allowed stands, and the instruction pauses after it. -/
theorem longStringsPauseBetweenSteps : Obligations.LongStringsPauseBetweenSteps := by
  unfold Obligations.LongStringsPauseBetweenSteps
  intro s s1 s2 x i f d p n us st a h ho hv hn hstep hp hr hs
  have hsip : (envOf s1 x f 1).c.sip = false := sip_alone h
  have hsteps : (envOf s1 x f 1).steps = 1 := ite_self 1
  have hpauses : effect .mvst (envOf s1 x f 1) i s1 = .ok { commit := id, ctl := .pause }
      ((s2.endStrStep x a).strPoint (envOf s1 x f 1) .mvst 64 st) :=
    (effMvst_eq (e := envOf s1 x f 1) hv s1).trans (strIns_pauses hsip hsteps hn hstep hp)
  obtain ⟨l, hl⟩ := ctx_endStrStep s2 x a
  have hctx := ctx_strPoint (x := x) (e := envOf s1 x f 1) rfl (s2.endStrStep x a) .mvst 64 st
  have hcmd := commandUpset_pauses h ho hpauses ((inReset_endStrStep s2 x a).trans hr) (by
    rw [hctx, hl]
    exact hs)
  obtain ⟨hcode, hform, hpc⟩ := fields_strIdent (pc := (s1.ctx x).fetchAddr) (s1.ctx x).wform (strCode_lt .mvst)
  refine ⟨_, congrArg Host.Outcome.next hcmd, fun b => rfl, ?_⟩
  rw [ctx_upCtx_same, hctx]
  refine ⟨rfl, by rw [hl], ?_, ?_, ?_⟩
  · exact bitAt_setBit_same _ 12 true (by decide)
  · exact strRegs_done _ _ 64 st
  · rw [strRegs_ident]
    exact ⟨hcode, hform, hpc⟩

end Sys2Proof.Proofs.Strings
end

section
/-! SUPPORT. Fraction results: their rounding and saturation, and the registers that they go to (spec/09, R222, R223, R225). -/

namespace Sys2Proof.Laws

open Sys2Proof Sys2Proof.Machine

variable {s s1 : State} {x : CtxId} {i : Ins} {f : Fetched} {o : Op} {c : Ctx} {e : Env} {num v q r : Int} {sat : Bool}
  {rm den sh k fb n w sub : Nat} {d : BitVec 5}

/-! ## Rounding and saturation (R223) -/

/-- A number keeps its sign where it is multiplied by a positive one. -/
theorem mul_neg_iff_left {a b : Int} (hb : 0 < b) : a * b < 0 ↔ a < 0 :=
  ⟨fun h => neg_of_mul_neg_left h hb.le, fun h => mul_neg_of_neg_of_pos h hb⟩

/-- A quotient is rounded alike where its two parts are multiplied by the same number. -/
theorem roundsTo_mul (hk : 0 < k) (h : roundsTo rm num den q) : roundsTo rm (num * k) (den * k) q := by
  obtain ⟨hsign, h0, h1, h2, h3⟩ := h
  have hk' : (0 : Int) < k := by exact_mod_cast hk
  have herr : 2 * (((num * k).natAbs : Int) - q.natAbs * (den * k : Nat)) = 2 * ((num.natAbs : Int) - q.natAbs * den) * k := by
    rw [Int.natAbs_mul, Int.natAbs_natCast]
    push_cast
    ring
  have hden : ((den * k : Nat) : Int) = den * k := Nat.cast_mul den k
  have hneg : num * k < 0 ↔ num < 0 := mul_neg_iff_left hk'
  unfold roundsTo
  dsimp only
  rw [herr, hden, hneg]
  generalize 2 * ((num.natAbs : Int) - q.natAbs * den) = err at *
  refine ⟨hsign, fun hrm => ?_, fun hrm => ?_, fun hrm => ?_, fun hrm => ?_⟩
  · obtain ⟨hlow, hhigh⟩ := h0 hrm
    constructor <;> nlinarith
  · obtain ⟨hlow, hhigh⟩ := h1 hrm
    constructor <;> nlinarith
  · obtain ⟨hlow, hhigh, htie⟩ := h2 hrm
    refine ⟨by nlinarith, by nlinarith, fun hend => htie ?_⟩
    rw [← neg_mul, mul_left_inj' hk'.ne', mul_left_inj' hk'.ne'] at hend
    exact hend
  · obtain ⟨hlow, hhigh⟩ := h3 hrm
    constructor <;> nlinarith

/-- A rounded number has the sign of the number and the magnitude that the increment of the mode gives. -/
theorem roundsTo_eq (hden : 0 < den) (h : roundsTo rm v den q) : q =
    (if v < 0 then -((v.natAbs / den + bit (roundInc rm den (v.natAbs / den) (v.natAbs % den)) : Nat) : Int)
      else ((v.natAbs / den + bit (roundInc rm den (v.natAbs / den) (v.natAbs % den)) : Nat) : Int)) := by
  rw [← roundsTo_natAbs hden h]
  obtain ⟨hsign, -⟩ := h
  by_cases hzero : q = 0
  · simp [hzero]
  · have hiff := hsign hzero
    split_ifs <;> omega

/-- A result held to `w` bits: none where it is outside them and CSW.FSAT is clear (R223, R226). -/
def heldTo (c : Ctx) (q : Int) (w : Nat) : Option (Int × Bool) :=
  if (2 ^ (w - 1) - 1 : Int) < q then (if c.fsat then some (2 ^ (w - 1) - 1, true) else none)
  else if q < -(2 ^ (w - 1) : Int) then (if c.fsat then some (-(2 ^ (w - 1) : Int), true) else none)
  else some (q, false)

theorem heldTo_saturates (h : saturates c q w r sat) : heldTo c q w = some (r, sat) := by
  unfold heldTo
  have hpos : (0 : Int) < 2 ^ (w - 1) := by positivity
  obtain ⟨hlow, hhigh, rfl, rfl⟩ | ⟨hfsat, rfl, ⟨hover, rfl⟩ | ⟨hunder, rfl⟩⟩ := h
  · rw [if_neg (by omega), if_neg (by omega)]
  · rw [if_pos (by omega), if_pos hfsat]
  · rw [if_neg (by omega), if_pos hunder, if_pos hfsat]

/-- The delivery of a result is its value rounded, and then held to its bits. -/
theorem fdeliver_rounded (h : roundsTo rm (num * 2 ^ n) (2 ^ fb) q) : fdeliver c num fb n w rm = heldTo c q w := by
  have hsign : num * 2 ^ n < 0 ↔ num < 0 := mul_neg_iff_left (by positivity)
  have habs : (num * 2 ^ n).natAbs = num.natAbs * 2 ^ n := by rw [Int.natAbs_mul, Int.natAbs_pow]; rfl
  have hq := roundsTo_eq (by positivity) h
  simp only [hsign, habs] at hq
  rw [hq]
  obtain rfl | rfl | rfl | ⟨m, rfl⟩ : rm = 0 ∨ rm = 1 ∨ rm = 2 ∨ ∃ m, rm = m + 3 := by
    obtain h3 | h3 := Nat.lt_or_ge rm 3
    · omega
    · exact .inr (.inr (.inr ⟨rm - 3, by omega⟩))
  · rfl
  · rfl
  · rfl
  · have haway : roundInc (m + 3) (2 ^ fb) (num.natAbs * 2 ^ n / 2 ^ fb) (num.natAbs * 2 ^ n % 2 ^ fb)
        = decide (0 < num.natAbs * 2 ^ n % 2 ^ fb) := decide_eq_decide.mpr Nat.pos_iff_ne_zero.symm
    rw [haway]
    rfl

/-- The delivery of `v` over 2^`fb`, which is `num` over 2^`sh` in the units of the result (R223). -/
theorem fdeliver_eq (h : roundsTo rm num (2 ^ sh) q) (hnum : v * 2 ^ n = num * 2 ^ k) (hfb : fb = sh + k)
    (hs : saturates c q w r sat) : fdeliver c v fb n w rm = some (r, sat) := by
  have hround := roundsTo_mul (k := 2 ^ k) (by positivity) h
  rw [← pow_add, ← hfb, Nat.cast_pow, Nat.cast_ofNat, ← hnum] at hround
  rw [fdeliver_rounded hround, heldTo_saturates hs]

/-! ## The registers of a result -/

@[simp] theorem fstat_setG (c : Ctx) (r : BitVec 5) (w : Word) : (c.setG r w).fstat = c.fstat := by rw [setG_eq]

/-- FSTAT.SAT is bit 0 (Table 5.4). -/
theorem stickF_reg (c : Ctx) (sat : Bool) : c.stickF sat none = { c with fstat := c.fstat ||| (if sat then 1 else 0) } := by
  cases sat <;> rfl

/-- FSTAT.ACC of accumulator k is bit 4 + k. -/
theorem stickF_acc (c : Ctx) (sat : Bool) (hk : k < 4) : c.stickF sat (some k)
    = { c with fstat := c.fstat ||| (if sat then 1#64 ||| (16#64 <<< k) else 0) } := by
  have hflags : BitVec.ofNat 64 (bit sat + bit sat * 2 ^ (4 + k)) = if sat then 1#64 ||| (16#64 <<< k) else 0 := by
    interval_cases k <;> cases sat <;> rfl
  rw [← hflags]
  rfl

theorem localUpdate_fracReg (d : BitVec 5) (v : Word) (sat : Bool) (c : Ctx) :
    LocalUpdate (fun c => (c.setG d v).stickF sat none) c := by
  simp only [LocalUpdate, setG_eq, stickF_reg, and_self]

theorem localUpdate_setA (k : Nat) (v : BitVec 40) (c : Ctx) : LocalUpdate (fun c => c.setA k v) c :=
  ⟨rfl, rfl, rfl, rfl, rfl, rfl⟩

theorem localUpdate_acc (k : Nat) (v : BitVec 40) (sat : Bool) (c : Ctx) :
    LocalUpdate (fun c => (c.setA k v).stickF sat (some k)) c := ⟨rfl, rfl, rfl, rfl, rfl, rfl⟩

/-- An instruction that delivers `num` over 2^`sh`, rounded and held to its format, to a G register. -/
theorem commandUpset_toFracReg (h : s.alone x = some (i, f, s1)) (ho : i.op = o)
    (he : effect o (envOf s1 x f 0) i s1 = toFracReg (envOf s1 x f 0) s1 d v fb sub rm)
    (hnum : v * 2 ^ fracBits sub = num * 2 ^ k) (hfb : fb = sh + k) (hround : roundsTo rm num (2 ^ sh) q)
    (hsat : saturates (s1.ctx x) q (fracBits sub + 1) r sat) : s.commandUpset x o 0 .none = s1.afterIns x f (fun c =>
      { c.setG d (BitVec.ofInt 64 r) with fstat := c.fstat ||| (if sat then 1 else 0) }) := by
  have hdeliver : fdeliver (envOf s1 x f 0).c v fb (fracBits sub) (fracBits sub + 1) rm = some (r, sat) :=
    fdeliver_eq hround hnum hfb hsat
  rw [toFracReg, hdeliver] at he
  rw [commandUpset_updates h ho he (localUpdate_fracReg _ _ _ _)]
  simp only [stickF_reg, fstat_setG]

/-- One that delivers it to an accumulator. -/
theorem commandUpset_toAcc {a : Nat} (ha : a < 4) (h : s.alone x = some (i, f, s1)) (ho : i.op = o)
    (he : effect o (envOf s1 x f 0) i s1 = toAcc (envOf s1 x f 0) s1 a v fb rm)
    (hnum : v * 2 ^ 31 = num * 2 ^ k) (hfb : fb = sh + k) (hround : roundsTo rm num (2 ^ sh) q)
    (hsat : saturates (s1.ctx x) q 40 r sat) : s.commandUpset x o 0 .none = s1.afterIns x f (fun c =>
      { c.setA a (BitVec.ofInt 40 r) with fstat := c.fstat ||| (if sat then 1#64 ||| (16#64 <<< a) else 0) }) := by
  have hdeliver : fdeliver (envOf s1 x f 0).c v fb 31 40 rm = some (r, sat) := fdeliver_eq hround hnum hfb hsat
  rw [toAcc, hdeliver] at he
  rw [commandUpset_updates h ho he (localUpdate_acc _ _ _ _)]
  simp only [stickF_acc _ _ ha]
  rfl

/-! ## The effects -/

section

variable {a b : BitVec 5}

/-- A fraction instruction of two sources whose result is exact. -/
theorem fracTwo_eq (hops : i.ops = [.reg d, .reg a, .reg b]) (g : Int → Int → Int) : fracTwo g e i s = toFracReg e s d
    (g (fracRaw i.sub (e.c.getG a)) (fracRaw i.sub (e.c.getG b))) (fracBits i.sub) i.sub 0 :=
  withOpnds_regs e [d, a, b] hops _

/-- One of one source. -/
theorem fracOne_eq (hops : i.ops = [.reg d, .reg a]) (g : Int → Int) :
    fracOne g e i s = toFracReg e s d (g (fracRaw i.sub (e.c.getG a))) (fracBits i.sub) i.sub 0 :=
  withOpnds_regs e [d, a] hops _

theorem effFmul_eq (hops : i.ops = [.reg d, .reg a, .reg b]) : effFmul e i s = toFracReg e s d
    (fracRaw i.sub (e.c.getG a) * fracRaw i.sub (e.c.getG b)) (2 * fracBits i.sub) i.sub i.rm :=
  withOpnds_regs e [d, a, b] hops _

/-- A multiply-accumulate. -/
theorem macWith_eq (hops : i.ops = [.reg d, .reg a, .reg b]) (g : Int → Int → Int) : macWith g e i s = toAcc e s (d.toNat % 4)
    (g ((e.c.getA (d.toNat % 4)).toInt * 2 ^ 31)
      (fracRaw i.sub (e.c.getG a) * fracRaw i.sub (e.c.getG b) * 2 ^ (62 - 2 * fracBits i.sub))) 62 i.rm :=
  withOpnds_regs e [d, a, b] hops _

theorem effFacl_eq (hops : i.ops = [.reg d, .reg a]) :
    effFacl e i s = toAcc e s (d.toNat % 4) (fracRaw i.sub (e.c.getG a)) (fracBits i.sub) 0 :=
  withOpnds_regs e [d, a] hops _

theorem effFrnd_eq (hops : i.ops = [.reg d, .reg a]) :
    effFrnd e i s = toFracReg e s d (e.c.getA (a.toNat % 4)).toInt 31 i.sub i.rm :=
  withOpnds_regs e [d, a] hops _

theorem effFmva_eq (hops : i.ops = [.reg d, .reg a]) : effFmva e i s
    = completes (fun s => s.upCtx e.x (fun c => c.setG d ((e.c.getA (a.toNat % 4)).signExtend 64))) s :=
  withOpnds_regs e [d, a] hops _

theorem effFmvg_eq (hops : i.ops = [.reg d, .reg a]) : effFmvg e i s
    = completes (fun s => s.upCtx e.x (fun c => c.setA (d.toNat % 4) ((e.c.getG a).setWidth 40))) s :=
  withOpnds_regs e [d, a] hops _

theorem effFsha_eq (hops : i.ops = [.reg d]) : effFsha e i s = toAcc e s (d.toNat % 4)
    ((e.c.getA (d.toNat % 4)).toInt * 2 ^ i.imm.toNat) (31 + (-i.imm).toNat) i.rm :=
  withOpnds_regs e [d] hops _

end

end Sys2Proof.Laws
end

section
/-! PROOFS. The fraction instructions (O20). -/

namespace Sys2Proof.Proofs.Fractions

open Sys2Proof Sys2Proof.Machine Sys2Proof.Laws

/-- An accumulator is named by the low bits of its operand. -/
theorem accNum_lt (r : BitVec 5) : r.toNat % 4 < 4 := Nat.mod_lt _ (by decide)

/-- A format has at most the fraction bits of an accumulator. -/
theorem fracBits_le (sub : Nat) : fracBits sub ≤ 31 := by
  unfold fracBits
  split <;> decide

/-- Settles O20, instruction by instruction. -/
theorem fractionResults : Obligations.FractionResults := by
  unfold Obligations.FractionResults
  intro s s1 x i f h hsub
  refine ⟨fun d a b hops => ⟨?_, ?_, ?_, ?_, ?_⟩, fun d a hops => ⟨?_, ?_, ?_, ?_, ?_, ?_, ?_⟩, fun d ho hops => ⟨?_, ?_⟩⟩
  · intro ho q r sat hround hsat
    exact congrArg _ (commandUpset_toFracReg h ho (fracTwo_eq hops _) rfl (Nat.zero_add _).symm hround hsat)
  · intro ho q r sat hround hsat
    exact congrArg _ (commandUpset_toFracReg h ho (fracTwo_eq hops _) rfl (Nat.zero_add _).symm hround hsat)
  · intro ho q r sat hround hsat
    exact congrArg _ (commandUpset_toFracReg h ho (effFmul_eq hops) rfl (Nat.two_mul _) hround hsat)
  · intro ho q r sat hround hsat
    exact congrArg _ (commandUpset_toAcc (accNum_lt d) h ho (macWith_eq hops _) rfl rfl hround hsat)
  · intro ho q r sat hround hsat
    exact congrArg _ (commandUpset_toAcc (accNum_lt d) h ho (macWith_eq hops _) rfl rfl hround hsat)
  · intro ho q r sat hround hsat
    exact congrArg _ (commandUpset_toFracReg h ho (fracOne_eq hops _) rfl (Nat.zero_add _).symm hround hsat)
  · intro ho q r sat hround hsat
    exact congrArg _ (commandUpset_toFracReg h ho (fracOne_eq hops (fun a => (a.natAbs : Int))) rfl (Nat.zero_add _).symm
      hround hsat)
  · intro ho q r sat hround hsat
    have hunits (v : Int) : v * 2 ^ 31 = v * 2 ^ (31 - fracBits i.sub) * 2 ^ fracBits i.sub := by
      rw [mul_assoc, ← pow_add, Nat.sub_add_cancel (fracBits_le _)]
    exact congrArg _ (commandUpset_toAcc (accNum_lt d) h ho (effFacl_eq hops) (hunits _) (Nat.zero_add _).symm hround hsat)
  · intro ho hs q r sat hround hsat
    have hfb : 31 = 16 + fracBits i.sub := by rw [hs]; rfl
    exact congrArg _ (commandUpset_toFracReg h ho (effFrnd_eq hops) rfl hfb hround hsat)
  · intro ho hs q r sat hround hsat
    have hfb : 31 = 0 + fracBits i.sub := by rw [hs]; rfl
    exact congrArg _ (commandUpset_toFracReg h ho (effFrnd_eq hops) rfl hfb hround hsat)
  · intro ho
    exact congrArg _ (commandUpset_updates h ho (effFmva_eq hops) (local_setG _ _ _))
  · intro ho
    exact congrArg _ (commandUpset_updates h ho (effFmvg_eq hops) (localUpdate_setA _ _ _))
  · intro hn q r sat hround hsat
    have hfb : 31 + (-i.imm).toNat = 0 + 31 := by omega
    exact congrArg _ (commandUpset_toAcc (accNum_lt d) h ho (effFsha_eq hops) rfl hfb hround hsat)
  · intro hn q r sat hround hsat
    have hleft : i.imm.toNat = 0 := by omega
    have heff := effFsha_eq (e := envOf s1 x f 0) (s := s1) hops
    rw [hleft, pow_zero, mul_one] at heff
    exact congrArg _ (commandUpset_toAcc (accNum_lt d) h ho heff rfl (Nat.add_comm _ _) hround hsat)

end Sys2Proof.Proofs.Fractions
end

section
/-! SUPPORT. Operations on memory and on registers of the device, and what they leave as it is (spec/13 R313, spec/14 R337). -/

namespace Sys2Proof.Laws

open Sys2Proof Sys2Proof.Machine

variable {s t : State}

/-- What an operation on memory leaves as it is: the contexts, whether the chip stands in reset, and the units and tickets of
Spoonbill. -/
def standing (s : State) : SMap Ctx × Bool × SMap (List SpbCmd) × SMap Ticket := (s.ctxs, s.inReset, s.spb, s.tickets)

theorem standing_eq_iff : standing t = standing s
    ↔ t.ctxs = s.ctxs ∧ t.inReset = s.inReset ∧ t.spb = s.spb ∧ t.tickets = s.tickets := by
  simp only [standing, Prod.mk.injEq]

/-- A fold of operations that each leave it. -/
theorem standing_foldl {β : Type} {f : State → β → State} (hf : ∀ s b, standing (f s b) = standing s) (l : List β) (s : State) :
    standing (l.foldl f s) = standing s :=
  foldl_keeps (fun t => standing t = standing s) f l s rfl fun t b h => (hf t b).trans h

theorem standing_readsOnly (h : ReadsOnly s t) : standing t = standing s := h.keeps standing fun _ _ _ _ _ => rfl

theorem standing_marksOnly (h : MarksOnly s t) : standing t = standing s := h.keeps standing fun _ _ _ => rfl

@[simp] theorem standing_memWrite (s : State) (a : Nat) (bs : List Byte) : standing (s.memWrite a bs) = standing s := by
  unfold State.memWrite
  dsimp only
  split <;> rfl

@[simp] theorem standing_agentWrite (s : State) (a : Nat) (bs : List Byte) : standing (s.agentWrite a bs) = standing s :=
  (standing_marksOnly (agentWrite_marks s a bs)).trans (standing_memWrite s a bs)

@[simp] theorem standing_storeWrite (s : State) (a : Nat) (bs : List Byte) : standing (s.storeWrite a bs) = standing s :=
  standing_agentWrite (s.noteStore a bs) a bs

@[simp] theorem standing_writePieces (s : State) (ps : List (Nat × Nat)) (bs : List Byte) :
    standing (s.writePieces ps bs) = standing s := by
  induction ps generalizing s bs with
  | nil => rfl
  | cons p ps ih => exact (ih _ _).trans (standing_storeWrite s p.1 (bs.take p.2))

end Sys2Proof.Laws
end

section
/-! SUPPORT. The bits of a bit instruction: their checks, and the numbers that their bytes make (spec/09, R228 to R232). -/

namespace Sys2Proof.Laws

open Sys2Proof Sys2Proof.Machine

variable {s s1 s2 : State} {x : CtxId} {i : Ins} {c : Ctx} {e : Env} {k : Kind} {b w n m lo v : Nat} {ps l : List (Nat × Nat)}

/-! ## Checks (R229, R232) -/

/-- The bits of an instruction lie in an enabled bit space, and the bytes that hold them pass their checks. -/
structure BitsPass (e : Env) (i : Ins) (s : State) (k : Kind) (b w : Nat) (ps : List (Nat × Nat)) (s2 : State) : Prop where
  enabled : e.c.bitOn = true
  inside : b + w ≤ 2 ^ e.c.bitLog
  bytes : s.checkRead e.x (i.accCtl e) k false (pagePieces (bitBytes e.c b w).1 (bitBytes e.c b w).2) = .ok ps s2

/-- A range inside an enabled space, not longer than 4,096 bits, raises no bit-space fault. -/
theorem bitFault_none (hon : c.bitOn = true) (hin : b + w ≤ 2 ^ c.bitLog) (hn : n ≤ 4096) : bitFault c (b : Int) w n = none := by
  have hin' : ((b : Int) + w) ≤ 2 ^ c.bitLog := by exact_mod_cast hin
  simp only [bitFault, hon, Bool.not_true, Bool.false_eq_true, if_false]
  rw [if_neg (by omega), if_neg (by omega)]

/-- An instruction whose bits pass goes on with their address and the pieces of their bytes. -/
theorem onBits_passes (h : BitsPass e i s k b w ps s2) (hn : n ≤ 4096) {a : Int} (ha : a = b)
    (q : Nat → List (Nat × Nat) → State → XR Done) : onBits e i s k a w n q = q b ps s2 := by
  subst ha
  obtain ⟨hon, hin, hbytes⟩ := h
  simp only [onBits, bitFault_none hon hin hn, Int.toNat_natCast, hbytes, ok_bind]

/-- Checks keep the lengths of pieces. -/
theorem checkRead_lengths {ctl : AccCtl} {word : Bool} (h : s.checkRead x ctl k word l = .ok ps s2) :
    ps.map Prod.snd = l.map Prod.snd := by
  induction l generalizing s ps with
  | nil =>
    rw [State.checkRead] at h
    cases h
    rfl
  | cons p l ih =>
    rw [State.checkRead] at h
    obtain ⟨pa, t, -, h⟩ := XR.bind_ok h
    split at h
    · cases h
    · split at h
      · cases h
      · obtain ⟨qs, t', hqs, h⟩ := XR.bind_ok h
        cases h
        rw [List.map_cons, List.map_cons, ih hqs]

/-- The pieces of a range have its length together. -/
theorem pagePieces_sum (ea n : Nat) : ((pagePieces ea n).map Prod.snd).sum = n := by
  unfold pagePieces
  split_ifs with hn
  · exact hn.symm
  · have hpages (m : Nat) (hm : m ≤ (ea + n - 1) / 4096 + 1 - ea / 4096) : (((List.range m).map (fun i =>
        min (ea + n) ((ea / 4096 + i + 1) * 4096) - if i = 0 then ea else (ea / 4096 + i) * 4096)).sum)
          = min (ea + n) ((ea / 4096 + m) * 4096) - ea := by
      induction m with
      | zero => simp; omega
      | succ m ih =>
        rw [List.range_succ, List.map_append, List.sum_append, ih (by omega), List.map_singleton, List.sum_singleton]
        split_ifs <;> omega
    rw [List.map_map]
    exact (hpages _ le_rfl).trans (by omega)

/-- The bytes of checked pieces are as many as were asked for. -/
theorem readPhys_length {ctl : AccCtl} {word : Bool} (h : s.checkRead x ctl k word (pagePieces b n) = .ok ps s2) :
    (s1.readPhys ps).length = n := by
  have hmem : (ps.map (fun p => (s1.memRead p.1 p.2).length)) = ps.map Prod.snd :=
    List.map_congr_left fun p _ => by simp [State.memRead]
  rw [State.readPhys, List.length_flatMap, hmem, checkRead_lengths h, pagePieces_sum]

/-! ## Numbers and their bits (R228, R230) -/

/-- A number of some bytes has as many bits as they have. -/
theorem leNat_lt (bs : List Byte) : leNat bs < 2 ^ (8 * bs.length) := by
  induction bs with
  | nil => exact Nat.one_pos
  | cons b bs ih =>
    have hb : b.toNat < 256 := b.isLt
    rw [leNat, List.length_cons, Nat.mul_succ, Nat.pow_add]
    omega

theorem bitsFromBytes_eq (bs : List Byte) (b w : Nat) : bitsFromBytes bs b w = leNat bs / 2 ^ (b % 8) % 2 ^ w := by
  rw [bitsFromBytes, Nat.shiftRight_eq_div_pow]

/-- BPOP counts the bits that are set. -/
theorem popNat_eq (n v : Nat) : popNat n v = ((List.range n).filter (fun k => decide (v / 2 ^ k % 2 = 1))).length := by
  induction n generalizing v with
  | zero => rfl
  | succ n ih =>
    have hrest : (List.range n).filter ((fun k => decide (v / 2 ^ k % 2 = 1)) ∘ Nat.succ)
        = (List.range n).filter (fun k => decide (v / 2 / 2 ^ k % 2 = 1)) := by
      refine List.filter_congr fun k _ => ?_
      simp only [Function.comp_apply, Nat.pow_succ', Nat.div_div_eq_div_mul]
    rw [popNat, ih, List.range_succ_eq_map, List.filter_cons, List.filter_map, hrest]
    obtain h | h := Nat.mod_two_eq_zero_or_one v
    · simp [h]
    · simp [h, Nat.add_comm]

/-- BFF over bits of which none is set gives their number. -/
theorem firstSet_zero (n : Nat) : firstSet n 0 = BitVec.ofNat 64 n := by
  have hnone : (List.range n).find? (fun k => decide ((0 >>> k) % 2 = 1)) = none :=
    List.find?_range_eq_none.mpr fun k _ => by simp
  rw [firstSet, hnone]

/-- Otherwise it gives the first that is set. -/
theorem firstSet_eq {k : Nat} (hk : k < n) (hset : v / 2 ^ k % 2 = 1) (hlow : v % 2 ^ k = 0) :
    firstSet n v = BitVec.ofNat 64 (k + 2 ^ 63) := by
  have hbelow (j : Nat) (hj : j < k) : v.testBit j = false := by
    have hbit := Nat.testBit_mod_two_pow v k j
    rwa [hlow, Nat.zero_testBit, decide_eq_true hj, Bool.true_and, eq_comm] at hbit
  have hfound : (List.range n).find? (fun k => decide ((v >>> k) % 2 = 1)) = some k := by
    refine List.find?_range_eq_some.mpr ⟨?_, List.mem_range.mpr hk, fun j hj => ?_⟩
    · rw [Nat.shiftRight_eq_div_pow, hset]
      rfl
    · rw [Nat.shiftRight_eq_div_pow, ← Nat.testBit_eq_decide_div_mod_eq, hbelow j hj]
      rfl
  rw [firstSet, hfound]

/-- A number with `w` bits from `lo` on replaced. -/
def replaceBits (old lo w v : Nat) : Nat := old - (old >>> lo) % 2 ^ w * 2 ^ lo + v % 2 ^ w * 2 ^ lo

/-- The bits replaced stand between those below and those above. -/
theorem replaceBits_eq (old lo w v : Nat) :
    replaceBits old lo w v = 2 ^ lo * (2 ^ w * (old / 2 ^ lo / 2 ^ w) + v % 2 ^ w) + old % 2 ^ lo := by
  have hlow := Nat.div_add_mod old (2 ^ lo)
  have hmid := Nat.div_add_mod (old / 2 ^ lo) (2 ^ w)
  have hold : old = 2 ^ lo * (2 ^ w * (old / 2 ^ lo / 2 ^ w)) + old / 2 ^ lo % 2 ^ w * 2 ^ lo + old % 2 ^ lo := by
    calc old = 2 ^ lo * (2 ^ w * (old / 2 ^ lo / 2 ^ w) + old / 2 ^ lo % 2 ^ w) + old % 2 ^ lo := by rw [hmid, hlow]
      _ = _ := by ring
  rw [replaceBits, Nat.shiftRight_eq_div_pow, Nat.mul_add, Nat.mul_comm (2 ^ lo) (v % 2 ^ w)]
  omega

theorem testBit_replaceBits (old lo w v j : Nat) : (replaceBits old lo w v).testBit j
    = if lo ≤ j ∧ j < lo + w then v.testBit (j - lo) else old.testBit j := by
  rw [replaceBits_eq, Nat.testBit_two_pow_mul_add _ (Nat.mod_lt _ (by positivity)),
    Nat.testBit_two_pow_mul_add _ (Nat.mod_lt _ (by positivity))]
  simp only [Nat.testBit_mod_two_pow, Nat.testBit_div_two_pow]
  split_ifs with h1 h2 h3 h4 h5
  · omega
  · simp [h1]
  · have hj : j - lo < w := h3
    simp [hj]
  · omega
  · omega
  · congr 1
    omega

/-- So a number of as many bits with these and no other bits replaced is this one. -/
theorem eq_replaceBits {old new : Nat} (hold : old < 2 ^ m) (hnew : new < 2 ^ m) (hin : lo + w ≤ m)
    (h : ∀ j, j < m → new.testBit j = if lo ≤ j ∧ j < lo + w then v.testBit (j - lo) else old.testBit j) :
    new = replaceBits old lo w v := by
  refine Nat.eq_of_testBit_eq fun j => ?_
  rw [testBit_replaceBits]
  obtain hj | hj := Nat.lt_or_ge j m
  · exact h j hj
  · rw [if_neg (by omega), Nat.testBit_lt_two_pow (hnew.trans_le (Nat.pow_le_pow_right Nat.two_pos hj)),
      Nat.testBit_lt_two_pow (hold.trans_le (Nat.pow_le_pow_right Nat.two_pos hj))]

end Sys2Proof.Laws
end

section
/-! PROOFS. The bit instructions that read (O21) and that write (O22). -/

namespace Sys2Proof.Proofs.Bits

open Sys2Proof Sys2Proof.Machine Sys2Proof.Laws

variable {s s1 s2 : State} {x : CtxId} {i : Ins} {f : Fetched} {o : Op} {b w : Nat} {r : BitVec 5}
  {ps : List (Nat × Nat)} {m p g : State → State}

/-! ## Bits read -/

/-- An instruction that reads bits into a register performs its read and writes the register (R230). -/
theorem commandUpset_bitsInto {q : List Byte → Word} (h : s.alone x = some (i, f, s1)) (ho : i.op = o)
    (he : effect o (envOf s1 x f 0) i s1 = bitsInto (envOf s1 x f 0) r ps q s2) (hr : s2.inReset = false)
    (hq : (s2.ctx x).quiet = true) :
    s.commandUpset x o 0 .none = (s2.touchPieces ps false).afterIns x f (fun c => c.setG r (q (s2.peekPieces x ps))) := by
  refine commandUpset_performs h ho he rfl (.touchPieces x ps false) ?_ (fun c => .setG c _ _) hr hq
  change ((s2.upCtx x _).touchPieces ps false).upCtx x (fun c => c.setG r (q ((s2.upCtx x _).peekPieces x ps))) = _
  rw [peekPieces_retired]

/-- A transfer by an instruction that executes alone and performs an operation beside the registers of its context. -/
theorem commandUpset_transfersAfter {taken call : Bool} {target : Word} (h : s.alone x = some (i, f, s1)) (ho : i.op = o)
    (he : effect o (envOf s1 x f 0) i s1 = .ok { commit := m, ctl := .transfer taken target call } s2) (hm : BuffersOnly x m)
    (hr : s2.inReset = false) (hq : (s2.ctx x).quiet = true) :
    s.commandUpset x o 0 .none = (m s2).afterTransfer x f taken target call id := by
  obtain ⟨l, hl⟩ := hm.ctx s2
  have hquiet : ((m s2).ctx x).quiet = true := by
    rw [hl]
    exact hq
  have hcommit : s2.commitAll x f [{ commit := m, ctl := .transfer taken target call }]
      = (m s2).commitAll x f [transfers taken target call] := by
    have hbegun : (m s2).upCtx x (fun c => c.begun f.own) = (m s2).upCtx x (fun c => c.retired f.own) :=
      upCtx_congr (begun_quiet _ f.own hquiet)
    have hbegun' : s2.upCtx x (fun c => c.begun f.own) = s2.upCtx x (fun c => c.retired f.own) :=
      upCtx_congr (begun_quiet _ f.own hq)
    change m (s2.upCtx x (fun c => c.begun f.own)) = (m s2).upCtx x (fun c => c.begun f.own)
    rw [hbegun, hbegun', hm.retired]
  have hfinish : s2.finish s x f [{ commit := m, ctl := .transfer taken target call }]
      = (m s2).finish s x f [transfers taken target call] := by
    change s2.retire x (s2.ctx x) f _ = (m s2).retire x ((m s2).ctx x) f _
    rw [State.retire, State.retire, hcommit, hl]
    rfl
  rw [commandUpset_completes h ho he hr, hfinish,
    DecimalRegisters.finish_transfers hquiet ((hm.inReset s2).trans hr)]

/-- A branch on a bit that passes its checks. -/
theorem bitBranch_passes {e : Env} {a u : Val} {us : List (BitVec 5 × Word)} (set : Bool)
    (hv : evalOpnds e i e.c 0 i.ops = .ok ([a, u], us)) (hb : BitsPass e i s1 .read b 1 ps s2)
    (ha : a.word.toInt + u.word.toInt = (b : Int)) : bitBranch set e i s1
      = .ok { commit := fun t => t.touchPieces ps false
              ctl := .transfer (decide (leNat (s2.peekPieces e.x ps) / 2 ^ (b % 8) % 2 ^ 1 = bit set))
                (directTarget e i) false } s2 := by
  rw [← bitsFromBytes_eq]
  exact (withOpnds_ok hv _).trans (onBits_passes hb (by decide) ha _)

section

variable {e : Env} {d a u v : Val} {us : List (BitVec 5 × Word)} (ha : a.word.toInt + u.word.toInt = (b : Int))
include ha

theorem effBtst_passes (hv : evalOpnds e i e.c 0 i.ops = .ok ([d, a, u], us)) (hb : BitsPass e i s1 .read b 1 ps s2) :
    effBtst e i s1 = bitsInto e d.rn ps (fun bs => BitVec.ofNat 64 (bitsFromBytes bs b 1)) s2 :=
  (withOpnds_ok hv _).trans (onBits_passes hb (by decide) ha _)

theorem effBfext_passes (hv : evalOpnds e i e.c 0 i.ops = .ok ([d, a, u], us))
    (hb : BitsPass e i s1 .read b (i.num + 1) ps s2) :
    effBfext e i s1 = bitsInto e d.rn ps (fun bs => BitVec.ofNat 64 (bitsFromBytes bs b (i.num + 1))) s2 :=
  (withOpnds_ok hv _).trans (onBits_passes hb (by decide) ha _)

variable (hw : v.word.toNat % 2 ^ 32 = w) (hn : w ≤ 4096) (hv : evalOpnds e i e.c 0 i.ops = .ok ([d, a, u, v], us))
  (hb : BitsPass e i s1 .read b w ps s2)
include hw hn hv hb

theorem effBpop_passes : effBpop e i s1 = bitsInto e d.rn ps (fun bs => BitVec.ofNat 64 (popNat w (bitsFromBytes bs b w))) s2 := by
  subst hw
  exact (withOpnds_ok hv _).trans (onBits_passes hb hn ha _)

theorem effBff_passes : effBff e i s1 = bitsInto e d.rn ps (fun bs => firstSet w (bitsFromBytes bs b w)) s2 := by
  subst hw
  exact (withOpnds_ok hv _).trans (onBits_passes hb hn ha _)

end

/-- Settles O21, instruction by instruction. -/
theorem bitReadsGiveTheirBits : Obligations.BitReadsGiveTheirBits := by
  unfold Obligations.BitReadsGiveTheirBits
  intro s s1 s2 x i f d a o n vs us b w ps h hv c hon hin hx hr hq bits at_ lands
  have hb : BitsPass (envOf s1 x f 0) i s1 .read b w ps s2 := ⟨hon, hin, hx⟩
  have hbits : bitsFromBytes (s2.peekPieces x ps) b w = bits := bitsFromBytes_eq _ b w
  refine ⟨fun ho hvs hat hw => ?_, fun ho hvs hat hw => ?_, fun ho hvs hat hw hlen => ?_, fun ho hvs hat hw hlen => ?_,
    fun set ho hvs hat hw => ?_⟩ <;> subst hvs
  · subst hw
    have hbtst := commandUpset_bitsInto h ho (effBtst_passes (e := envOf s1 x f 0) hat hv hb) hr hq
    rw [hbits] at hbtst
    exact congrArg _ hbtst
  · subst hw
    have hbfext := commandUpset_bitsInto h ho (effBfext_passes (e := envOf s1 x f 0) hat hv hb) hr hq
    rw [hbits] at hbfext
    exact congrArg _ hbfext
  · have hbpop := commandUpset_bitsInto h ho (effBpop_passes (e := envOf s1 x f 0) hat hw.symm hlen hv hb) hr hq
    rw [hbits, popNat_eq] at hbpop
    exact congrArg _ hbpop
  · have hbff := commandUpset_bitsInto h ho (effBff_passes (e := envOf s1 x f 0) hat hw.symm hlen hv hb) hr hq
    rw [hbits] at hbff
    refine ⟨fun hzero => ?_, fun k hk hset hlow => ?_⟩
    · rw [hzero, firstSet_zero] at hbff
      exact congrArg _ hbff
    · rw [firstSet_eq hk hset hlow] at hbff
      exact congrArg _ hbff
  · subst hw
    have htarget : directTarget (envOf s1 x f 0) i
        = setBit (BitVec.ofNat 64 c.fetchAddr + BitVec.ofInt 64 i.imm) 63 c.wform := targetIn_eq _ _
    have heff := bitBranch_passes (e := envOf s1 x f 0) set hv hb hat
    rw [htarget] at heff
    cases set with
    | true => exact congrArg _ (commandUpset_transfersAfter h ho heff (.touchPieces x ps false) hr hq)
    | false => exact congrArg _ (commandUpset_transfersAfter h ho heff (.touchPieces x ps false) hr hq)

/-! ## Bits written -/

/-- An instruction whose effect reaches beyond its context and leaves of that all but its registers. -/
theorem commandUpset_through (h : s.alone x = some (i, f, s1)) (ho : i.op = o)
    (he : effect o (envOf s1 x f 0) i s1 = completes g s2) (hr : s2.inReset = false) (hq : (s2.ctx x).quiet = true)
    (hg : ∀ own, g (s2.upCtx x (fun c => c.retired own)) = p (s2.upCtx x (fun c => c.retired own)))
    (hreset : ∀ t, (p t).inReset = t.inReset) (hp : ∀ t, ValuesOnly (t.ctx x) ((p t).ctx x)) :
    s.commandUpset x o 0 .none = s2.through x f p := by
  have hcalm : Calm ((p (s2.upCtx x (fun c => c.retired f.own))).ctx x) (s2.ctx x).pc := by
    have hretired : Calm ((s2.ctx x).retired f.own) (s2.ctx x).pc := quiet_calm _ hq
    refine hretired.localUpdate (u := fun _ => (p (s2.upCtx x (fun c => c.retired f.own))).ctx x) (ValuesOnly.localUpdate ?_)
    have hvalues := hp (s2.upCtx x (fun c => c.retired f.own))
    rwa [ctx_upCtx_same] at hvalues
  rw [commandUpset_completes h ho he hr, finish_seq hq rfl, State.through]
  · simp only [hg]
  · simp only [hg]
    exact (hreset _).trans hr
  · simp only [hg]
    exact hcalm

/-- With no store waiting, the bits of checked bytes are replaced at once (R231). -/
theorem putBits_noStores (hbuf : (s.ctx x).storeBuf = []) (hr : s.inReset = false) (b w v : Nat) :
    s.putBits x ps b w v = s.writePieces (ps.flatMap (fun p => unitsOf p.1 p.2))
      (leBytes (s.readPhys ps).length (replaceBits (leNat (s.readPhys ps)) (b % 8) w v)) := by
  rw [State.putBits, State.drained, drain_empty s x hbuf, hr]
  rfl

theorem oldBit_noStores (hbuf : (s.ctx x).storeBuf = []) (b : Nat) :
    s.oldBit x ps b = bit ((leNat (s.readPhys ps)).testBit (b % 8)) := by
  rw [State.oldBit, drain_empty s x hbuf, bitsFromBytes_eq, Nat.pow_one, Nat.testBit_eq_decide_div_mod_eq]
  obtain h | h := Nat.mod_two_eq_zero_or_one (leNat (s.readPhys ps) / 2 ^ (b % 8)) <;> simp [h, bit]

section

variable {e : Env} {d a u v : Val} {us : List (BitVec 5 × Word)} (ha : a.word.toInt + u.word.toInt = (b : Int))
include ha

theorem effBset_passes (hv : evalOpnds e i e.c 0 i.ops = .ok ([a, u], us)) (hb : BitsPass e i s1 .rw b 1 ps s2) :
    effBset e i s1 = completes (fun t => t.putBits e.x ps b 1 1) s2 :=
  (withOpnds_ok hv _).trans (onBits_passes hb (by decide) ha _)

theorem effBclr_passes (hv : evalOpnds e i e.c 0 i.ops = .ok ([a, u], us)) (hb : BitsPass e i s1 .rw b 1 ps s2) :
    effBclr e i s1 = completes (fun t => t.putBits e.x ps b 1 0) s2 :=
  (withOpnds_ok hv _).trans (onBits_passes hb (by decide) ha _)

theorem effBtas_passes (hv : evalOpnds e i e.c 0 i.ops = .ok ([d, a, u], us)) (hb : BitsPass e i s1 .rw b 1 ps s2) :
    effBtas e i s1 = completes (fun t => (t.putBits e.x ps b 1 1).upCtx e.x (fun c =>
      c.setG d.rn (BitVec.ofNat 64 (t.oldBit e.x ps b)))) s2 :=
  (withOpnds_ok hv _).trans (onBits_passes hb (by decide) ha _)

theorem effBfins_passes (hv : evalOpnds e i e.c 0 i.ops = .ok ([a, u, v], us))
    (hb : BitsPass e i s1 .rw b (i.num + 1) ps s2) :
    effBfins e i s1 = completes (fun t => t.putBits e.x ps b (i.num + 1) v.word.toNat) s2 :=
  (withOpnds_ok hv _).trans (onBits_passes hb (by decide) ha _)

end

/-- The bytes that hold some bits have room for them. -/
theorem bits_fit (hw : 0 < w) : b % 8 + w ≤ 8 * ((b + w - 1) / 8 + 1 - b / 8) := by omega

/-- Settles O22: each instruction writes the number that has its bits replaced and every other bit as it was. -/
theorem bitWritesReplaceTheirBits : Obligations.BitWritesReplaceTheirBits := by
  unfold Obligations.BitWritesReplaceTheirBits
  intro s s1 s2 x i f d a o v vs us b w ps val new h hv c hon hw hin hx hr hq hbuf bytes old hlt hbits at_ put
  have hlen : (if w = 0 then 0 else (b + w - 1) / 8 + 1 - b / 8) = (b + w - 1) / 8 + 1 - b / 8 := if_neg hw.ne'
  have hb : BitsPass (envOf s1 x f 0) i s1 .rw b w ps s2 := by
    refine ⟨hon, hin, ?_⟩
    rw [← hlen] at hx
    exact hx
  have hroom : b % 8 + w ≤ 8 * bytes.length := by
    rw [readPhys_length hx]
    exact bits_fit hw
  have hnew : new = replaceBits old (b % 8) w val := eq_replaceBits (leNat_lt bytes) hlt hroom hbits
  have hbuf' (own : Option Nat) : ((s2.upCtx x (fun c => c.retired own)).ctx x).storeBuf = [] := by
    rw [ctx_upCtx_same]
    exact hbuf
  have hput (own : Option Nat) : (s2.upCtx x (fun c => c.retired own)).putBits x ps b w val
      = put (s2.upCtx x (fun c => c.retired own)) := by
    rw [putBits_noStores (hbuf' own) hr]
    exact congrArg (fun q => State.writePieces _ _ (leBytes bytes.length q)) hnew.symm
  have hkept (t : State) : (put t).ctxs = t.ctxs ∧ (put t).inReset = t.inReset := by
    obtain ⟨hctxs, hreset, -⟩ := standing_eq_iff.mp (standing_writePieces t _ (leBytes bytes.length new))
    exact ⟨hctxs, hreset⟩
  have hreset (t : State) : (put t).inReset = t.inReset := (hkept t).2
  have hvalues (t : State) : ValuesOnly (t.ctx x) ((put t).ctx x) := by
    rw [ctx_of_ctxs (hkept t).1]
    exact .refl _
  refine ⟨fun ho hvs hat hw hval => ?_, fun ho hvs hat hw hval => ?_, fun ho hvs hat hw hval => ?_,
    fun ho hvs hat hw hval => ?_⟩ <;> subst hvs hw hval
  · exact congrArg _ (commandUpset_through h ho (effBset_passes (e := envOf s1 x f 0) hat hv hb) hr hq hput hreset hvalues)
  · exact congrArg _ (commandUpset_through h ho (effBclr_passes (e := envOf s1 x f 0) hat hv hb) hr hq hput hreset hvalues)
  · have hold (own : Option Nat) : (s2.upCtx x (fun c => c.retired own)).oldBit x ps b = bit (old.testBit (b % 8)) :=
      oldBit_noStores (hbuf' own) b
    have hbtas (own : Option Nat) : ((s2.upCtx x (fun c => c.retired own)).putBits x ps b 1 1).upCtx x (fun c =>
        c.setG d.rn (BitVec.ofNat 64 ((s2.upCtx x (fun c => c.retired own)).oldBit x ps b)))
          = (put (s2.upCtx x (fun c => c.retired own))).upCtx x (fun c =>
              c.setG d.rn (BitVec.ofNat 64 (bit (old.testBit (b % 8))))) := by
      rw [hput, hold]
    refine congrArg _ (commandUpset_through (p := fun t => (put t).upCtx x _) h ho
      (effBtas_passes (e := envOf s1 x f 0) hat hv hb) hr hq hbtas hreset fun t => ?_)
    rw [ctx_upCtx_same]
    exact (hvalues t).trans (.setG _ _ _)
  · exact congrArg _ (commandUpset_through h ho (effBfins_passes (e := envOf s1 x f 0) hat hv hb) hr hq hput hreset hvalues)

end Sys2Proof.Proofs.Bits
end

section
/-! PROOFS. SPB.GO and SPB.WAIT (O25). -/

namespace Sys2Proof.Proofs.SpoonbillInstructions

open Sys2Proof Sys2Proof.Machine Sys2Proof.Laws

variable {s s1 s2 : State} {x : CtxId} {i : Ins} {f : Fetched} {o : Op} {e : Env} {g b : Val} {us : List (BitVec 5 × Word)}
  {ps : List (Nat × Nat)} {r : BitVec 5} {code k : Nat}

/-! ## Operations beside the registers of a context -/

theorem buffersOnly_setUnit (x : CtxId) (u : Nat) (l : List SpbCmd) : BuffersOnly x (fun t => t.setUnit u l) :=
  ⟨fun _ _ => rfl, fun _ => rfl, fun t => ⟨(t.ctx x).storeBuf, rfl⟩⟩

theorem buffersOnly_setTicket (x : CtxId) (n : SiteId) (k : Nat) (v : Ticket) : BuffersOnly x (fun t => t.setTicket n k v) :=
  ⟨fun _ _ => rfl, fun _ => rfl, fun t => ⟨(t.ctx x).storeBuf, rfl⟩⟩

/-! ## Instructions of a tenant -/

/-- An instruction of a tenant on an aligned operand goes on with its operands (R108, R234). -/
theorem onTenant_aligned {vs : List Val} {at_ align : Nat} (ht : e.c.ten = true)
    (hv : evalOpnds e i e.c 0 i.ops = .ok (vs, us)) (ha : (valAt vs at_).word.toNat % align = 0) (q : List Val → XR Done) :
    onTenant e i at_ align s q = q vs := by
  rw [onTenant, ht, withOpnds_ok hv]
  exact if_neg (not_not.mpr ha)

/-- An instruction that ends with a status and no other effect. -/
theorem commandUpset_withStatus (h : s.alone x = some (i, f, s1)) (ho : i.op = o)
    (he : effect o (envOf s1 x f 0) i s1 = withStatus (envOf s1 x f 0) r code s2) (hr : s2.inReset = false)
    (hq : (s2.ctx x).quiet = true) :
    s.commandUpset x o 0 .none = s2.afterIns x f (fun c => c.setG r (statusWord code 0)) :=
  commandUpset_performs h ho he rfl (.id x) rfl (fun c => .setG c _ _) hr hq

/-! ## SPB.GO (R234) -/

section

variable (ht : e.c.ten = true) (hv : evalOpnds e i e.c 0 i.ops = .ok ([g, b], us)) (ha : b.word.toNat % 64 = 0)
  (hx : s1.checkRead e.x { own := e.own } .rw false (pagePieces b.word.toNat 64) = .ok ps s2)
include ht hv ha hx

/-- SPB.GO whose checks pass, with no free ticket. -/
theorem effSpbGo_noTicket (hk : s2.freeTicket e.c.tag = none) : effSpbGo e i s1 = withStatus e g.rn 1 s2 := by
  refine (onTenant_aligned ht hv ha _).trans ?_
  simp only [valAt_succ, valAt_zero, hx, ok_bind, hk]

/-- With a free ticket and a full unit. -/
theorem effSpbGo_full (hk : s2.freeTicket e.c.tag = some k) (hfull : 16 ≤ (s2.unit (e.c.tag.toNat % 4)).length) :
    effSpbGo e i s1 = withStatus e g.rn 2 s2 := by
  refine (onTenant_aligned ht hv ha _).trans ?_
  simp only [valAt_succ, valAt_zero, hx, ok_bind, hk, if_pos hfull]

/-- With a free ticket and room in the unit. -/
theorem effSpbGo_submits (hk : s2.freeTicket e.c.tag = some k) (hroom : (s2.unit (e.c.tag.toNat % 4)).length < 16) :
    effSpbGo e i s1 = completes (fun t => t.submit e g.rn k ps) s2 := by
  refine (onTenant_aligned ht hv ha _).trans ?_
  simp only [valAt_succ, valAt_zero, hx, ok_bind, hk, if_neg (Nat.not_le.mpr hroom)]

end

/-- The command that a unit is given (R234, R238). -/
def accepted (s : State) (e : Env) (k : Nat) (ps : List (Nat × Nat)) : SpbCmd :=
  { tenant := e.c.tag, ticket := BitVec.ofNat 2 k, desc := s.peekPieces e.x ps, addr := (ps.headD (0, 0)).1, csw := e.c.csw
    kmaskRd := e.c.kmaskRd, kmaskWr := e.c.kmaskWr, bitspace := e.c.bitspace }

/-- It is the same where the context's fetch is past. -/
theorem accepted_retired (s : State) (e : Env) (own : Option Nat) (k : Nat) (ps : List (Nat × Nat)) :
    accepted (s.upCtx e.x (fun c => c.retired own)) e k ps = accepted s e k ps := by
  rw [accepted, peekPieces_retired]
  rfl

/-- SPB.GO that is accepted: its read is performed, the unit has the command, and the ticket is busy. -/
theorem commandUpset_submit (h : s.alone x = some (i, f, s1)) (ho : i.op = .spbGo)
    (he : effSpbGo (envOf s1 x f 0) i s1 = completes (fun t => t.submit (envOf s1 x f 0) r k ps) s2) (hr : s2.inReset = false)
    (hq : (s2.ctx x).quiet = true) : s.commandUpset x .spbGo 0 .none
      = (((s2.touchPieces ps false).setUnit ((s1.ctx x).tag.toNat % 4)
          (s2.unit ((s1.ctx x).tag.toNat % 4) ++ [accepted s2 (envOf s1 x f 0) k ps])).setTicket (s1.ctx x).tag k .busy).afterIns
        x f (fun c => c.setG r (statusWord 0 k)) := by
  refine commandUpset_performs h ho he rfl (((BuffersOnly.touchPieces x ps false).comp (buffersOnly_setUnit x _ _)).comp
    (buffersOnly_setTicket x _ k .busy)) ?_ (fun c => .setG c _ _) hr hq
  rw [← accepted_retired s2 (envOf s1 x f 0) f.own]
  rfl

/-! ## SPB.WAIT (R235) -/

section

variable (ht : e.c.ten = true) (hv : evalOpnds e i e.c 0 i.ops = .ok ([g, b], us))
include ht hv

/-- SPB.WAIT of a free ticket. -/
theorem effSpbWait_free (hk : s.ticket e.c.tag (b.word.toNat % 4) = .free) : effSpbWait e i s = withStatus e g.rn 3 s := by
  have hk' : s.ticket e.c.tag (bitsOf b.word 1 0) = .free := hk
  refine (onTenant_aligned ht hv (Nat.mod_one _) _).trans ?_
  simp only [valAt_succ, valAt_zero, hk']

/-- Of one that is not complete, with .N or without. -/
theorem effSpbWait_busy (hk : s.ticket e.c.tag (b.word.toNat % 4) = .busy) :
    effSpbWait e i s = if i.sub = 1 then withStatus e g.rn 1 s else waits id s := by
  have hk' : s.ticket e.c.tag (bitsOf b.word 1 0) = .busy := hk
  refine (onTenant_aligned ht hv (Nat.mod_one _) _).trans ?_
  simp only [valAt_succ, valAt_zero, hk']

/-- Of one that is complete. -/
theorem effSpbWait_done {v : Word32} (hk : s.ticket e.c.tag (b.word.toNat % 4) = .done v) :
    effSpbWait e i s = completes (fun t => t.collect e.x e.c.tag g.rn (b.word.toNat % 4) v) s := by
  have hk' : s.ticket e.c.tag (bitsOf b.word 1 0) = .done v := hk
  refine (onTenant_aligned ht hv (Nat.mod_one _) _).trans ?_
  simp only [valAt_succ, valAt_zero, hk']
  rfl

end

/-- An instruction that waits has not begun; the hold-off of a shadow ends (R152). -/
theorem commandUpset_waits (h : s.alone x = some (i, f, s1)) (ho : i.op = o)
    (he : effect o (envOf s1 x f 0) i s1 = waits id s2) (hr : s2.inReset = false) :
    s.commandUpset x o 0 .none = s.upCtx x (fun c => { c with shadow := false }) := by
  rw [commandUpset_completes h ho he hr]
  rfl

/-- Settles O25: each answer of SPB.GO, and each of SPB.WAIT. -/
theorem spoonbillInstructionsComplete : Obligations.SpoonbillInstructionsComplete := by
  unfold Obligations.SpoonbillInstructionsComplete
  intro s s1 s2 x i f g b us ps h ht hv w c n u status
  refine ⟨fun ho ha hx hr hq => ⟨fun k hk hroom => ?_, fun hk => ?_, fun k hk hfull => ?_⟩, fun ho => ?_⟩
  · exact congrArg _ (commandUpset_submit h ho (effSpbGo_submits (e := envOf s1 x f 0) ht hv ha hx hk hroom) hr hq)
  · exact congrArg _ (commandUpset_withStatus h ho (effSpbGo_noTicket (e := envOf s1 x f 0) ht hv ha hx hk) hr hq)
  · exact congrArg _ (commandUpset_withStatus h ho (effSpbGo_full (e := envOf s1 x f 0) ht hv ha hx hk hfull) hr hq)
  · obtain ⟨hq, hr⟩ := alone_quiet h
    intro k
    have hbusy (hk : s1.ticket n k = .busy) := effSpbWait_busy (e := envOf s1 x f 0) ht hv hk
    refine ⟨fun d hk => ?_, fun hk => ?_, fun hk hsub => ?_, fun hk hsub => ?_⟩
    · exact congrArg _ (commandUpset_performs h ho (effSpbWait_done (e := envOf s1 x f 0) ht hv hk) rfl
        (buffersOnly_setTicket x n k .free) rfl (fun c => .setG c _ _) hr hq)
    · exact congrArg _ (commandUpset_withStatus h ho (effSpbWait_free (e := envOf s1 x f 0) ht hv hk) hr hq)
    · exact congrArg _ (commandUpset_withStatus h ho ((hbusy hk).trans (if_pos hsub)) hr hq)
    · exact congrArg _ (commandUpset_waits h ho ((hbusy hk).trans (if_neg hsub)) hr)

end Sys2Proof.Proofs.SpoonbillInstructions
end

section
/-! SUPPORT. Spoonbill: what the accesses and the end of a command leave, and the repair list (spec/09, R238, R240). -/

namespace Sys2Proof.Laws

open Sys2Proof Sys2Proof.Machine

variable {s t : State} {k : SpbCmd} {u n : Nat} {r : RepairSt} {f : List (List Bool)}

/-! ## Accesses of a command (R238) -/

@[simp] theorem standing_touchPieces (s : State) (ps : List (Nat × Nat)) (write : Bool) :
    standing (s.touchPieces ps write) = standing s :=
  standing_foldl (f := fun t (p : Nat × Nat) => t.touch p.1 p.2 write)
    (fun t p => standing_readsOnly (.touch t p.1 p.2 write)) ps s

@[simp] theorem standing_spbKeys (s : State) (c : Ctx) (ps : List (Nat × Nat)) : standing (s.spbKeys c ps) = standing s :=
  standing_readsOnly (.countPoison _ _ _ _)

@[simp] theorem standing_spbWrite (s : State) (ps : List (Nat × Nat)) (bs : List Byte) :
    standing (s.spbWrite ps bs) = standing s :=
  (standing_writePieces _ _ _).trans (standing_foldl (fun t w => standing_agentWrite (t.freshBytes 8).2 w _) _ s)

@[simp] theorem standing_spbWriteOuts (s : State) (l : List (Nat × List (Nat × Nat) × List Byte)) :
    standing (s.spbWriteOuts l) = standing s := by
  unfold State.spbWriteOuts
  split
  · split <;> simp only [standing_spbWrite]
  · exact standing_foldl (fun t a => standing_spbWrite t _ _) _ s

@[simp] theorem standing_spbField (s : State) (k : SpbCmd) (o v : Nat) : standing (s.spbField k o v) = standing s := by
  unfold State.spbField
  split <;> exact standing_agentWrite _ _ _

/-! ## The end of a command (R234, R238) -/

@[simp] theorem unit_setUnit_same (s : State) (u : Nat) (l : List SpbCmd) : (s.setUnit u l).unit u = l := smGet_set_same _ _ _ _

@[simp] theorem ticket_setTicket_same (s : State) (n : SiteId) (k : Nat) (v : Ticket) : (s.setTicket n k v).ticket n k = v :=
  smGet_set_same _ _ _ _

/-- A command that ends leaves its unit to the next ones and its STATUS in its ticket. -/
theorem spbEnd_completes (h : standing t = standing s) (status : Nat) : (t.spbEnd u k status).unit u = (s.unit u).tail
    ∧ (t.spbEnd u k status).ctxs = s.ctxs
    ∧ (t.spbEnd u k status).ticket k.tenant k.ticket.toNat = .done (BitVec.ofNat 32 status) := by
  obtain ⟨hctxs, -, hspb, -⟩ := standing_eq_iff.mp h
  obtain ⟨hctxs', -⟩ := standing_eq_iff.mp (standing_spbField t k 4 status)
  refine ⟨?_, hctxs'.trans hctxs, ticket_setTicket_same _ _ _ _⟩
  have htail : (t.spbEnd u k status).unit u = (t.unit u).tail := unit_setUnit_same (t.spbField k 4 status) u _
  rw [htail, State.unit, State.unit, hspb]

section

variable {l0 l : List (Nat × List (Nat × Nat) × List Byte)} {ps : List (Nat × Nat)}

/-- The state in which a command has read its window: `l0` are its outputs as they were checked before. -/
def windowRead (s : State) (k : SpbCmd) (l0 : List (Nat × List (Nat × Nat) × List Byte)) (ps : List (Nat × Nat)) : State :=
  ((s.spbKeys k.ctx (l0.flatMap (·.2.1))).spbKeys k.ctx ps).touchPieces ps false

/-- The state in which it has written its outputs and TALLY. -/
def outputsWritten (s : State) (k : SpbCmd) (l : List (Nat × List (Nat × Nat) × List Byte)) (tally : Nat) : State :=
  ((s.spbKeys k.ctx (l.flatMap (·.2.1))).spbWriteOuts l).spbField k 0x2C tally

@[simp] theorem standing_outputsWritten (s : State) (k : SpbCmd) (l : List (Nat × List (Nat × Nat) × List Byte)) (tally : Nat) :
    standing (outputsWritten s k l tally) = standing s := by
  simp only [outputsWritten, standing_spbField, standing_spbWriteOuts, standing_spbKeys]

@[simp] theorem standing_windowRead (s : State) (k : SpbCmd) (l0 : List (Nat × List (Nat × Nat) × List Byte))
    (ps : List (Nat × Nat)) : standing (windowRead s k l0 ps) = standing s := by
  simp only [windowRead, standing_touchPieces, standing_spbKeys]

/-- A command whose descriptor is valid, whose window reads and whose outputs may be written ends with the STATUS of its
operation. -/
theorem spbRun_ends (hbad : (readSpb k.desc).bad k.ctx = none)
    (hl0 : s.spbCheckOuts k.ctx (readSpb k.desc).allOuts = .ok l0)
    (hwindow : (s.spbKeys k.ctx (l0.flatMap (·.2.1))).spbWindow k.ctx (readSpb k.desc) (List.range (readSpb k.desc).h)
      = (.ok f, ps))
    (hl : (windowRead s k l0 ps).spbCheckOuts k.ctx ((readSpb k.desc).out f).outs = .ok l) :
    s.spbRun u k = (outputsWritten (windowRead s k l0 ps) k l ((readSpb k.desc).out f).tally).spbEnd u k
      ((readSpb k.desc).out f).status := by
  unfold windowRead at hl
  simp only [State.spbRun, hbad, State.spbPhases, hl0, State.spbReadPhase, hwindow, hl, outputsWritten, windowRead]

end

/-! ## The repair list (R240) -/

/-- Whether row y fails in column x. -/
def failsAt (f : List (List Bool)) (y x : Nat) : Bool := (f.getD y []).getD x false

/-- What a repair of the fails `f` keeps: its lines and what is left of the spares are `n` together, and each fail of `f` still
stands or lies on a listed line. -/
structure Repairs (n : Nat) (f : List (List Bool)) (r : RepairSt) : Prop where
  spares : r.rows + r.cols + r.entries.length = n
  listed : ∀ y x, failsAt f y x = true → failsAt r.fails y x = true ∨ y ∈ r.entries ∨ 2 ^ 31 + x ∈ r.entries

namespace Repairs

/-- A line that is listed takes a spare, and clears no fail of another line. -/
theorem list {r' : RepairSt} {v : Nat} (hr : Repairs n f r) (hentries : r'.entries = r.entries ++ [v])
    (hspares : r'.rows + r'.cols + 1 = r.rows + r.cols)
    (hfails : ∀ y x, y ≠ v → 2 ^ 31 + x ≠ v → failsAt r'.fails y x = failsAt r.fails y x) : Repairs n f r' := by
  obtain ⟨hsum, hlisted⟩ := hr
  refine ⟨?_, fun y x hfail => ?_⟩
  · rw [hentries, List.length_append, List.length_singleton]
    omega
  · by_cases hy : y = v
    · exact .inr (.inl (by rw [hentries, hy]; simp))
    · by_cases hx : 2 ^ 31 + x = v
      · exact .inr (.inr (by rw [hentries, hx]; simp))
      · rw [hfails y x hy hx, hentries]
        exact (hlisted y x hfail).imp_right (.imp (List.mem_append_left _) (List.mem_append_left _))

theorem row (hr : Repairs n f r) (y : Nat) : Repairs n f (r.row y) := by
  unfold RepairSt.row
  split_ifs with hskip hnone
  · exact hr
  · exact ⟨hr.spares, hr.listed⟩
  · refine hr.list rfl (by dsimp only; omega) fun y' x hy _ => ?_
    simp only [failsAt, List.getD_eq_getElem?_getD, List.getElem?_set_ne hy.symm]

theorem col (hr : Repairs n f r) (x : Nat) : Repairs n f (r.col x) := by
  unfold RepairSt.col
  split_ifs with hskip hnone
  · exact hr
  · exact ⟨hr.spares, hr.listed⟩
  · refine hr.list rfl (by dsimp only; omega) fun y x' _ hx => ?_
    have hrow : (r.fails.map (fun row => row.set x false)).getD y [] = (r.fails.getD y []).set x false :=
      List.getD_map r.fails [] (fun row : List Bool => row.set x false)
    have hne : x ≠ x' := fun heq => hx (by rw [heq])
    simp only [failsAt, hrow, List.getD_eq_getElem?_getD, List.getElem?_set_ne hne]

theorem pass (hr : Repairs n f r) (w h : Nat) : Repairs n f (r.pass w h) :=
  foldl_keeps (Repairs n f) RepairSt.col _ _
    (foldl_keeps (Repairs n f) RepairSt.row _ _ ⟨hr.spares, hr.listed⟩ fun _ y h => h.row y) fun _ x h => h.col x

theorem loop (hr : Repairs n f r) (w h m : Nat) : Repairs n f (RepairSt.loop w h m r) := by
  induction m generalizing r with
  | zero => exact hr
  | succ m ih =>
    unfold RepairSt.loop
    split
    · exact hr.pass w h
    · exact ih (hr.pass w h)

end Repairs

theorem repairOf_repairs (d : SpbDesc) (f : List (List Bool)) : Repairs (d.spareRows + d.spareCols) f (repairOf d f) :=
  Repairs.loop (r := { rows := d.spareRows, cols := d.spareCols, fails := f }) ⟨rfl, fun _ _ => .inl⟩ d.w d.h _

/-- Fails that are counted as none are none. -/
theorem failsAt_of_failCount (h : failCount f = 0) (y x : Nat) : failsAt f y x = false := by
  rw [failCount, sumNat, ← List.sum_eq_foldl, List.sum_eq_zero_iff_forall_eq_nat] at h
  have hrow (row : List Bool) (hmem : row ∈ f) : ∀ b ∈ row, b = false := fun b hb =>
    Bool.eq_false_iff.mpr (List.countP_eq_zero.mp (h _ (List.mem_map_of_mem hmem)) b hb)
  unfold failsAt
  rw [List.getD_eq_getElem?_getD, List.getD_eq_getElem?_getD]
  cases hy : f[y]? with
  | none => rfl
  | some row =>
    cases hx : row[x]? with
    | none => simp [hx]
    | some b => simpa [hx] using hrow row (List.mem_of_getElem? hy) b (List.mem_of_getElem? hx)

/-- A repair whose DETAIL says that every fail is repaired has no fail left. -/
theorem failCount_of_detail (h : r.detail = 0) : failCount r.fails = 0 := by
  unfold RepairSt.detail at h
  split_ifs at h with hstuck hcount
  exact hcount

end Sys2Proof.Laws
end

section
/-! PROOFS. The commands of Spoonbill (O49). -/

namespace Sys2Proof.Proofs.SpoonbillCommands

open Sys2Proof Sys2Proof.Machine Sys2Proof.Laws

variable {s : State} {u : BitVec 2} {k : SpbCmd} {rest : List SpbCmd} {o other : Nat}

/-- The oldest command of a unit runs where it is not of the other operation. -/
theorem spbComplete_runs (hu : s.unit o = k :: rest) (hop : (readSpb k.desc).op ≠ other) :
    s.spbComplete o other = s.spbRun o k := by
  rw [State.spbComplete, hu]
  exact if_neg hop

theorem exec_count (u : BitVec 2) (s : State) : exec (.count u) s = .next (s.spbComplete u.toNat 2) := rfl

theorem exec_repair (u : BitVec 2) (s : State) : exec (.repair u) s = .next (s.spbComplete u.toNat 1) := rfl

/-- Settles O49: a command that runs ends, and a repair list lists what it repairs. -/
theorem spoonbillCommandsComplete : Obligations.SpoonbillCommandsComplete := by
  unfold Obligations.SpoonbillCommandsComplete
  refine ⟨fun s u k rest hu => ?_, fun d f => ⟨?_, fun hdetail y x _ _ hfail => ?_⟩⟩
  · intro d l0 f ps l hbad hl0 s1 hwindow hl
    have hrun := spbRun_ends (u := u.toNat) hbad hl0 hwindow hl
    obtain ⟨hunit, hctxs, hticket⟩ := spbEnd_completes (u := u.toNat) (k := k)
      ((standing_outputsWritten _ k l (d.out f).tally).trans (standing_windowRead s k l0 ps)) (d.out f).status
    rw [← hrun, hu] at hunit
    rw [← hrun] at hctxs hticket
    refine ⟨fun hop => ⟨_, exec_count u s, ?_⟩, fun hop => ⟨_, exec_repair u s, ?_⟩⟩
    · have hout : d.out f = countOut d f := if_pos hop
      rw [hout] at hticket
      rw [spbComplete_runs hu (by rw [show (readSpb k.desc).op = 1 from hop]; decide)]
      exact ⟨hunit, hctxs, hticket⟩
    · have hout : d.out f = repairOut d f := if_neg (by rw [hop]; decide)
      rw [hout] at hticket
      rw [spbComplete_runs hu (by rw [show (readSpb k.desc).op = 2 from hop]; decide)]
      exact ⟨hunit, hctxs, hticket⟩
  · have hspares := (repairOf_repairs d f).spares
    omega
  · have hnone := failsAt_of_failCount (failCount_of_detail hdetail) y x
    exact ((repairOf_repairs d f).listed y x hfail).resolve_left (by rw [hnone]; decide)

end Sys2Proof.Proofs.SpoonbillCommands
end

section
/-! SUPPORT. The key bytes of frames: where an instruction may reach one, and what its read and its write leave (spec/11, R278,
R281; spec/14, R336, R337). -/

namespace Sys2Proof.Laws

open Sys2Proof Sys2Proof.Machine

variable {s : State} {e : Env} {i : Ins} {p q : BitVec 5} {a : Nat}

/-! ## The key byte of a frame -/

/-- The key array is valid, and the word that holds the key byte of the frame of an address is poisoned. -/
def KeyPoisoned (s : State) (a : Nat) : Prop := s.keyV = true ∧ s.poisoned (s.keyBase + a / 4096) = true

/-- The state with a key byte replaced, where the array is valid (R278). -/
def keyWritten (s : State) (a : Nat) (b : Byte) : State :=
  if s.keyV then { s with mem := memSet s.mem (s.keyBase + a / 4096) b } else s

theorem setKeyByte_poisoned (h : KeyPoisoned s a) (b : Byte) : s.setKeyByte a b = s.bumpSat (.d .integPoisonDrop) 1 := by
  obtain ⟨hv, hpoison⟩ := h
  rw [State.setKeyByte, hv, if_neg (by decide), if_pos hpoison]

theorem setKeyByte_sound (h : ¬ KeyPoisoned s a) (b : Byte) : s.setKeyByte a b = keyWritten s a b := by
  rw [State.setKeyByte, keyWritten]
  cases hv : s.keyV with
  | false => rfl
  | true => exact if_neg fun hpoison => h ⟨hv, hpoison⟩

/-- A poisoned key byte that no detection is under way for is consumed (R336). -/
theorem meetKey_poisoned (h : KeyPoisoned s a) (hupset : s.upset = []) (x : CtxId) :
    s.meetKey x a = s.bumpSat (.d .integPoisonUse) 1 := by
  obtain ⟨hv, hpoison⟩ := h
  have hnone (w : Nat) : s.detects w = false := by rw [State.detects, hupset, List.any_nil]
  rw [State.meetKey, hv, hpoison, Bool.and_self, if_pos rfl, State.countPoison, List.foldl_cons, List.foldl_nil, hnone,
    if_neg Bool.false_ne_true]

theorem meetKey_sound (h : ¬ KeyPoisoned s a) (x : CtxId) : s.meetKey x a = s :=
  if_neg fun hmet => h (Bool.and_eq_true_iff.mp hmet)

/-- A counter of poison holds no base and poisons nothing. -/
theorem keyPoisoned_bumpSat {r : Reg} (hlo : .d .keyBaseLo ≠ r) (hhi : .d .keyBaseHi ≠ r) (k : Nat) :
    KeyPoisoned (s.bumpSat r k) a ↔ KeyPoisoned s a := by
  have hv : (s.bumpSat r k).keyV = s.keyV := by rw [State.keyV, State.keyV, reg_bumpSat_other r k hlo]
  have hbase : (s.bumpSat r k).keyBase = s.keyBase := by
    rw [State.keyBase, State.keyBase, State.pairBase, State.pairBase, reg_bumpSat_other r k hlo, reg_bumpSat_other r k hhi]
  rw [KeyPoisoned, KeyPoisoned, hv, hbase]
  rfl

/-! ## The writes keep every context -/

theorem buffersOnly_bumpSat (x : CtxId) (r : Reg) (k : Nat) : BuffersOnly x (fun t => t.bumpSat r k) :=
  ⟨fun _ _ => rfl, fun _ => rfl, fun t => ⟨(t.ctx x).storeBuf, rfl⟩⟩

theorem buffersOnly_keyWritten (x : CtxId) (a : Nat) (b : Byte) : BuffersOnly x (fun t => keyWritten t a b) := by
  refine ⟨fun t own => ?_, fun t => ?_, fun t => ⟨(t.ctx x).storeBuf, ?_⟩⟩
  · have hv : (t.upCtx x (fun c => c.retired own)).keyV = t.keyV := rfl
    unfold keyWritten
    rw [hv]
    split_ifs <;> rfl
  · unfold keyWritten
    split_ifs <;> rfl
  · unfold keyWritten
    split_ifs <;> rfl

/-! ## The key instructions -/

/-- The frame of an address lies in the installed memory, and a context of a world may reach it (R281). -/
def KeyFrame (s : State) (c : Ctx) (ga : Word) : Prop := ga.toNat < s.dramSize ∧ (c.world = .secure ∨ s.secWeir ≤ ga.toNat)

/-- A supervisor that may reach a frame is refused nothing (R281). -/
theorem keyRefusal_none {ga : Word} (hu : e.c.isUser = false) (hf : KeyFrame s e.c ga) (write : Bool) :
    s.keyRefusal e ga write = none := by
  obtain ⟨hsize, hworld⟩ := hf
  have huser : ¬ e.user = true := by rw [Env.user, hu]; exact Bool.false_ne_true
  have hweir : ¬ (e.c.world = .nonSecure ∧ ga.toNat < s.secWeir) := by
    rintro ⟨hns, hbelow⟩
    rcases hworld with hsecure | habove
    · rw [hsecure] at hns
      cases hns
    · omega
  rw [State.keyRefusal, if_neg huser, if_neg hweir, if_neg (Nat.not_le.mpr hsize)]

section

variable (hops : i.ops = [.reg p, .reg q]) (hu : e.c.isUser = false)
include hops hu

theorem effKset_reaches (hf : KeyFrame s e.c (e.c.getG p)) : effKset e i s
    = completes (fun t => t.setKeyByte (e.c.getG p).toNat ((e.c.getG q).setWidth 8)) s := by
  have hnone : s.keyRefusal e (valAt [.reg p (e.c.getG p), .reg q (e.c.getG q)] 0).word true = none := keyRefusal_none hu hf true
  rw [effKset, withOpnds_regs e [p, q] hops, List.map_cons, List.map_cons, List.map_nil, hnone]
  rfl

theorem effKget_reaches (hf : KeyFrame s e.c (e.c.getG q)) : effKget e i s
    = completes (fun t => (t.meetKey e.x (e.c.getG q).toNat).upCtx e.x (fun c =>
        c.setG p ((t.keyByte (e.c.getG q).toNat).setWidth 64))) s := by
  have hnone : s.keyRefusal e (valAt [.reg p (e.c.getG p), .reg q (e.c.getG q)] 1).word false = none :=
    keyRefusal_none hu hf false
  rw [effKget, withOpnds_regs e [p, q] hops, List.map_cons, List.map_cons, List.map_nil, hnone]
  rfl

theorem effKrst_reaches (hf : KeyFrame s e.c (e.c.getG q)) : effKrst e i s
    = completes (fun t => ((t.meetKey e.x (e.c.getG q).toNat).setKeyByte (e.c.getG q).toNat
        (t.keyByte (e.c.getG q).toNat &&& 0xBF)).upCtx e.x (fun c =>
          c.setG p ((t.keyByte (e.c.getG q).toNat).setWidth 64))) s := by
  have hnone : s.keyRefusal e (valAt [.reg p (e.c.getG p), .reg q (e.c.getG q)] 1).word true = none := keyRefusal_none hu hf true
  rw [effKrst, withOpnds_regs e [p, q] hops, List.map_cons, List.map_cons, List.map_nil, hnone]
  rfl

end

end Sys2Proof.Laws
end

section
/-! PROOFS. KSET, KGET and KRST (O14). -/

namespace Sys2Proof.Proofs.KeyInstructions

open Sys2Proof Sys2Proof.Machine Sys2Proof.Laws

variable {s s1 : State} {x : CtxId} {i : Ins} {f : Fetched} {o : Op} {p q : BitVec 5} {a : Nat} {m g : State → State}

/-- KSET of a frame in reach, by what its write does once the context's fetch is past. -/
theorem commandUpset_kset (h : s.alone x = some (i, f, s1)) (ho : i.op = .kset) (hops : i.ops = [.reg p, .reg q])
    (hu : (s1.ctx x).isUser = false) (hf : KeyFrame s1 (s1.ctx x) ((s1.ctx x).getG p)) (hm : BuffersOnly x m)
    (hw : (s1.upCtx x (fun c => c.retired f.own)).setKeyByte ((s1.ctx x).getG p).toNat (((s1.ctx x).getG q).setWidth 8)
      = m (s1.upCtx x (fun c => c.retired f.own))) :
    s.commandUpset x .kset 0 .none = (m s1).afterIns x f id := by
  obtain ⟨hq, hr⟩ := alone_quiet h
  have hcommit : m (s1.upCtx x (fun c => c.retired f.own)) = (m (s1.upCtx x (fun c => c.retired f.own))).upCtx x id := by
    rw [hm.retired, upCtx_upCtx]
    rfl
  exact commandUpset_performs h ho (effKset_reaches (e := envOf s1 x f 0) hops hu hf) rfl hm (hw.trans hcommit)
    (fun c => .refl c) hr hq

/-- An instruction that gives the key byte of a frame, by what else it does once the context's fetch is past. -/
theorem commandUpset_givesKey (h : s.alone x = some (i, f, s1)) (ho : i.op = o)
    (he : effect o (envOf s1 x f 0) i s1
      = completes (fun t => (g t).upCtx x (fun c => c.setG p ((t.keyByte a).setWidth 64))) s1)
    (hm : BuffersOnly x m) (hw : g (s1.upCtx x (fun c => c.retired f.own)) = m (s1.upCtx x (fun c => c.retired f.own))) :
    s.commandUpset x o 0 .none = (m s1).afterIns x f (fun c => c.setG p (BitVec.ofNat 64 (s1.keyByte a).toNat)) := by
  obtain ⟨hq, hr⟩ := alone_quiet h
  rw [BitVec.ofNat_toNat]
  exact commandUpset_performs h ho he rfl hm
    (congrArg (fun t : State => t.upCtx x (fun c => c.setG p ((s1.keyByte a).setWidth 64))) hw) (fun c => .setG c _ _) hr hq

/-- Settles O14, instruction by instruction: of a poisoned word the read and the write are counted, of a sound one they take
place. -/
theorem keyInstructionsReachTheKeyArray : Obligations.KeyInstructionsReachTheKeyArray := by
  unfold Obligations.KeyInstructionsReachTheKeyArray
  intro s s1 x i f p q h hops hu c may place key put lost
  have huse := buffersOnly_bumpSat x (.d .integPoisonUse) 1
  have hdrop := buffersOnly_bumpSat x (.d .integPoisonDrop) 1
  have hkget (hf : may (c.getG q)) := effKget_reaches (e := envOf s1 x f 0) hops hu hf
  have hkrst (hf : may (c.getG q)) := effKrst_reaches (e := envOf s1 x f 0) hops hu hf
  let t := s1.upCtx x (fun c => c.retired f.own)
  refine ⟨fun ho hf hlost => ?_, fun ho hf hlost hupset => ?_, fun ho hf hlost hupset => ?_, fun ho hf hsound => ?_,
    fun ho hf hsound => ?_, fun ho hf hsound => ?_⟩
  · exact congrArg _ (commandUpset_kset h ho hops hu hf hdrop (setKeyByte_poisoned (s := t) hlost _))
  · exact congrArg _ (commandUpset_givesKey h ho (hkget hf) huse (meetKey_poisoned (s := t) hlost hupset x))
  · refine congrArg _ (commandUpset_givesKey h ho (hkrst hf) (huse.comp hdrop) ?_)
    have hstill := (keyPoisoned_bumpSat (s := t) (r := .d .integPoisonUse) (by decide) (by decide) 1).mpr hlost
    exact (congrArg (fun v : State => v.setKeyByte _ _) (meetKey_poisoned (s := t) hlost hupset x)).trans
      (setKeyByte_poisoned hstill _)
  · have hbyte : BitVec.ofNat 8 ((c.getG q).toNat % 256) = (c.getG q).setWidth 8 :=
      BitVec.eq_of_toNat_eq (by rw [BitVec.toNat_ofNat, BitVec.toNat_setWidth]; exact Nat.mod_mod _ _)
    rw [hbyte]
    exact congrArg _ (commandUpset_kset h ho hops hu hf (buffersOnly_keyWritten x _ _) (setKeyByte_sound (s := t) hsound _))
  · exact congrArg _ (commandUpset_givesKey h ho (hkget hf) (.id x) (meetKey_sound (s := t) hsound x))
  · refine congrArg _ (commandUpset_givesKey h ho (hkrst hf) (buffersOnly_keyWritten x _ _) ?_)
    exact (congrArg (fun v : State => v.setKeyByte _ _) (meetKey_sound (s := t) hsound x)).trans
      (setKeyByte_sound (s := t) hsound _)

end Sys2Proof.Proofs.KeyInstructions
end

section
/-! SUPPORT. The canonical form (spec/01, spec/14, spec/19): what it says of each kind of result, and the operations
over registers, memory and records. -/

namespace Sys2Proof.Laws

open Sys2Proof Sys2Proof.Machine

/-- The states that a result holds are in canonical form: those of an optional state. -/
def OptCanonical (o : Option State) : Prop :=
  match o with
  | none => True
  | some s => s.canonical = true

/-- The state in which an exception is found first, where there is one, is in canonical form. -/
def OptExcCanonical (o : Option (Exc × State)) : Prop :=
  match o with
  | none => True
  | some p => p.2.canonical = true

/-- What a command answers is in canonical form. -/
def OutCanonical (o : Out) : Prop :=
  match o with
  | .next s => s.canonical = true
  | .fault _ => True
  | .refused _ => True

/-- Both ends of an access are in canonical form. -/
def XRCanonical {α : Type} (r : XR α) : Prop :=
  match r with
  | .ok _ s => s.canonical = true
  | .exc _ s => s.canonical = true

/-- What an instruction does keeps the canonical form. -/
def DoneCanonical (d : Done) : Prop := ∀ s : State, s.canonical = true → (d.commit s).canonical = true

/-- An effect ends in canonical form, and what it then does keeps it. -/
def EffCanonical (r : XR Done) : Prop :=
  match r with
  | .ok d s => DoneCanonical d ∧ s.canonical = true
  | .exc _ s => s.canonical = true

/-- The effect of a bundle ends in canonical form, and all that it then does keeps it. -/
def DonesCanonical (r : XR (List Done)) : Prop :=
  match r with
  | .ok ds s => (∀ d ∈ ds, DoneCanonical d) ∧ s.canonical = true
  | .exc _ s => s.canonical = true

/-- Both ends of an optional access are in canonical form. -/
def OptXRCanonical {α : Type} (o : Option (XR α)) : Prop :=
  match o with
  | none => True
  | some r => XRCanonical r

/-- The checks of a string instruction keep the canonical form. -/
structure StrKindCanonical (k : StrKind) : Prop where
  pos : ∀ st i a s, s.canonical = true → XRCanonical (k.pos st i a s)
  rest : ∀ i a s, s.canonical = true → XRCanonical (k.rest i a s)
  fin : ∀ st a s, s.canonical = true → XRCanonical (k.fin st a s)

theorem OptXRCanonical.of_some {α : Type} {o : Option (XR α)} {r : XR α} (h : OptXRCanonical o) (ho : o = some r) :
    XRCanonical r := by
  rw [ho] at h
  exact h

theorem OptExcCanonical.of_some {o : Option (Exc × State)} {p : Exc × State} (h : OptExcCanonical o) (ho : o = some p) :
    p.2.canonical = true := by
  rw [ho] at h
  exact h

/-- Memory, the flash window and the poison map alone decide the canonical form. -/
theorem canonical_with {s : State} {regs snaps stagedLo resp accepting hbclkMhz h2d d2h mbxPoison mbxOpen h2dFull
    d2hFull stale sites links ctxs
    cores curlew drbg tide spb tickets encl enclTable enclV dramChans enclCtl ctxBaseSet siteBufSet fuses sensed
    inReset boot ue elec port fuseCtrl sortGen wdtHalf wdtWarned scrubPos replaced time arrivals sent upset free
    pending}
    (h : s.canonical = true) : ({ s with
      regs := regs, snaps := snaps, stagedLo := stagedLo, resp := resp, accepting := accepting, hbclkMhz := hbclkMhz,
      h2d := h2d, d2h := d2h, mbxPoison := mbxPoison, mbxOpen := mbxOpen, h2dFull := h2dFull, d2hFull := d2hFull,
      stale := stale, sites := sites, links := links, ctxs := ctxs, cores := cores, curlew := curlew, drbg := drbg,
      tide := tide, spb := spb, tickets := tickets, encl := encl, enclTable := enclTable, enclV := enclV,
      dramChans := dramChans, enclCtl := enclCtl, ctxBaseSet := ctxBaseSet, siteBufSet := siteBufSet, fuses := fuses,
      sensed := sensed, inReset := inReset, boot := boot, ue := ue, elec := elec, port := port, fuseCtrl := fuseCtrl,
      sortGen := sortGen, wdtHalf := wdtHalf, wdtWarned := wdtWarned, scrubPos := scrubPos, replaced := replaced,
      time := time, arrivals := arrivals, sent := sent, upset := upset, free := free, pending := pending } :
          State).canonical = true := h

/-- Leaving out bytes and poisoned words keeps the canonical form, whatever else changes. -/
theorem canonical_filtered {s : State} {p : Host.Cell → Bool} {q : Nat × Bool → Bool} {regs snaps stagedLo resp
    accepting hbclkMhz h2d d2h mbxPoison mbxOpen h2dFull d2hFull stale sites links ctxs
    cores curlew drbg tide spb tickets encl enclTable enclV dramChans enclCtl ctxBaseSet siteBufSet fuses sensed
    inReset boot ue elec port fuseCtrl sortGen wdtHalf wdtWarned scrubPos replaced time arrivals sent upset free
    pending}
    (h : s.canonical = true) : ({ s with
      mem := s.mem.filter p, poison := s.poison.filter q,
      regs := regs, snaps := snaps, stagedLo := stagedLo, resp := resp, accepting := accepting, hbclkMhz := hbclkMhz,
      h2d := h2d, d2h := d2h, mbxPoison := mbxPoison, mbxOpen := mbxOpen, h2dFull := h2dFull, d2hFull := d2hFull,
      stale := stale, sites := sites, links := links, ctxs := ctxs, cores := cores, curlew := curlew, drbg := drbg,
      tide := tide, spb := spb, tickets := tickets, encl := encl, enclTable := enclTable, enclV := enclV,
      dramChans := dramChans, enclCtl := enclCtl, ctxBaseSet := ctxBaseSet, siteBufSet := siteBufSet, fuses := fuses,
      sensed := sensed, inReset := inReset, boot := boot, ue := ue, elec := elec, port := port, fuseCtrl := fuseCtrl,
      sortGen := sortGen, wdtHalf := wdtHalf, wdtWarned := wdtWarned, scrubPos := scrubPos, replaced := replaced,
      time := time, arrivals := arrivals, sent := sent, upset := upset, free := free, pending := pending } :
          State).canonical = true :=
  canonical_filter s p q h

theorem canonical_ite {c : Prop} [Decidable c] {s t : State} (hs : s.canonical = true) (ht : t.canonical = true) :
    (if c then s else t).canonical = true := by
  split
  · exact hs
  · exact ht

theorem canonical_ite_snd {α : Type} {c : Prop} [Decidable c] {p q : α × State} (hp : p.2.canonical = true)
    (hq : q.2.canonical = true) : (if c then p else q).2.canonical = true := by
  split
  · exact hp
  · exact hq

theorem OptCanonical.ite {c : Prop} [Decidable c] {p q : Option State} (hp : OptCanonical p) (hq : OptCanonical q) :
    OptCanonical (if c then p else q) := by
  split
  · exact hp
  · exact hq

theorem OptExcCanonical.ite {c : Prop} [Decidable c] {p q : Option (Exc × State)} (hp : OptExcCanonical p) (hq :
    OptExcCanonical q) :
    OptExcCanonical (if c then p else q) := by
  split
  · exact hp
  · exact hq

theorem OutCanonical.ite {c : Prop} [Decidable c] {p q : Out} (hp : OutCanonical p) (hq : OutCanonical q) :
    OutCanonical (if c then p else q) := by
  split
  · exact hp
  · exact hq

theorem XRCanonical.ite {α : Type} {c : Prop} [Decidable c] {p q : XR α} (hp : XRCanonical p) (hq : XRCanonical q) :
    XRCanonical (if c then p else q) := by
  split
  · exact hp
  · exact hq

theorem EffCanonical.ite {c : Prop} [Decidable c] {p q : XR Done} (hp : EffCanonical p) (hq : EffCanonical q) :
    EffCanonical (if c then p else q) := by
  split
  · exact hp
  · exact hq

theorem foldl_canonical {β : Type} {f : State → β → State} {l : List β} {s : State} (h : s.canonical = true)
    (hf : ∀ t b, t.canonical = true → (f t b).canonical = true) : (l.foldl f s).canonical = true :=
  foldl_keeps (fun s : State => s.canonical = true) f l s h hf

theorem OptCanonical.of_some {o : Option State} {s : State} (h : OptCanonical o) (ho : o = some s) :
    s.canonical = true := by
  rw [ho] at h
  exact h

theorem XRCanonical.of_ok {α : Type} {r : XR α} {a : α} {s : State} (h : XRCanonical r) (hr : r = .ok a s) :
    s.canonical = true := by
  rw [hr] at h
  exact h

theorem XRCanonical.of_exc {α : Type} {r : XR α} {e : Exc} {s : State} (h : XRCanonical r) (hr : r = .exc e s) :
    s.canonical = true := by
  rw [hr] at h
  exact h

theorem XRCanonical.bind {α β : Type} {r : XR α} {g : α → State → XR β} (h : XRCanonical r)
    (hg : ∀ a s, s.canonical = true → XRCanonical (g a s)) : XRCanonical (r.bind g) := by
  cases r with
  | ok a s => exact hg a s h
  | exc e s => exact h

theorem EffCanonical.bind {α : Type} {r : XR α} {g : α → State → XR Done} (h : XRCanonical r)
    (hg : ∀ a s, s.canonical = true → EffCanonical (g a s)) : EffCanonical (r.bind g) := by
  cases r with
  | ok a s => exact hg a s h
  | exc e s => exact h

theorem EffCanonical.of_ok {r : XR Done} {d : Done} {s : State} (h : EffCanonical r) (hr : r = .ok d s) :
    DoneCanonical d ∧ s.canonical = true := by
  rw [hr] at h
  exact h

theorem EffCanonical.of_exc {r : XR Done} {e : Exc} {s : State} (h : EffCanonical r) (hr : r = .exc e s) :
    s.canonical = true := by
  rw [hr] at h
  exact h

/-- The writes of a list of instructions that each keep the canonical form. -/
theorem foldl_canonical_mem {ds : List Done} {s : State} (h : s.canonical = true) (hd : ∀ d ∈ ds, DoneCanonical d) :
    (ds.foldl (fun s d => d.commit s) s).canonical = true := by
  induction ds generalizing s with
  | nil => exact h
  | cons d t ih => exact ih (hd d List.mem_cons_self s h) fun e he => hd e (List.mem_cons_of_mem _ he)

theorem smWf_redeal {β : Type} [DecidableEq β] (m : SMap β) (d : β) (old new : List Nat) (cap : Nat) :
    smWf (redeal m d old new cap) d = true := by
  refine foldl_keeps (fun t => smWf t d = true) _ m [] rfl fun t e ht => ?_
  split
  · exact ht
  · exact smWf_set t d _ _ ht

section

variable {s : State}

theorem canonical_orReg {r : Reg} {m : Word32} (h : s.canonical = true) : (s.orReg r m).canonical = true :=
  canonical_setReg _ _ _ h

theorem canonical_clrReg {r : Reg} {m : Word32} (h : s.canonical = true) : (s.clrReg r m).canonical = true :=
  canonical_setReg _ _ _ h

theorem canonical_bumpSat {r : Reg} {k : ℕ} (h : s.canonical = true) : (s.bumpSat r k).canonical = true :=
  canonical_setReg _ _ _ h

theorem canonical_bumpWrap {r : Reg} {k : ℕ} (h : s.canonical = true) : (s.bumpWrap r k).canonical = true :=
  canonical_setReg _ _ _ h

theorem canonical_setSite {n : SiteId} {v : Site} (h : s.canonical = true) : (s.setSite n v).canonical = true := h

theorem canonical_upSite {n : SiteId} {f : Site → Site} (h : s.canonical = true) : (s.upSite n f).canonical = true :=
  canonical_setSite h

theorem canonical_setLink {k : LinkId} {v : Link} (h : s.canonical = true) : (s.setLink k v).canonical = true := h

theorem canonical_setStation {k : LinkId} {t : StationId} {v : Station} (h : s.canonical = true) :
    (s.setStation k t v).canonical = true := canonical_setLink h

theorem canonical_setCtx {x : CtxId} {v : Ctx} (h : s.canonical = true) : (s.setCtx x v).canonical = true := h

theorem canonical_upCtx {x : CtxId} {f : Ctx → Ctx} (h : s.canonical = true) : (s.upCtx x f).canonical = true :=
  canonical_setCtx h

theorem canonical_setCore {c : ℕ} {v : Core} (h : s.canonical = true) : (s.setCore c v).canonical = true := h

theorem canonical_fresh (h : s.canonical = true) : s.fresh.2.canonical = true := h

theorem canonical_freshBytes {n : ℕ} (h : s.canonical = true) : (s.freshBytes n).2.canonical = true := h

theorem canonical_drawBytes {n : ℕ} (h : s.canonical = true) : (s.drawBytes n).2.canonical = true :=
  canonical_with (canonical_freshBytes h)

theorem canonical_setHint {k : ℕ} (h : s.canonical = true) : (s.setHint k).canonical = true := canonical_orReg h

theorem canonical_setLine {k : ℕ} (h : s.canonical = true) : (s.setLine k).canonical = true := canonical_orReg h

theorem canonical_setLineOpt {k : Option ℕ} (h : s.canonical = true) : (s.setLineOpt k).canonical = true := by
  unfold State.setLineOpt
  split
  · exact h
  · exact canonical_setLine h

theorem canonical_setAttn {n : SiteId} {k : ℕ} (h : s.canonical = true) : (s.setAttn n k).canonical = true :=
  canonical_setLineOpt (canonical_orReg h)

theorem canonical_setIrq {x : CtxId} {k : ℕ} (h : s.canonical = true) : (s.setIrq x k).canonical = true := canonical_orReg h

theorem canonical_noteStore {a : ℕ} {bs : List Byte} (h : s.canonical = true) : (s.noteStore a bs).canonical = true := h

theorem canonical_storeWrite {a : ℕ} {bs : List Byte} (h : s.canonical = true) : (s.storeWrite a bs).canonical = true :=
  canonical_agentWrite _ _ _ (canonical_noteStore h)

theorem canonical_lockRom (h : s.canonical = true) : s.lockRom.canonical = true := canonical_with (canonical_setReg _ _ _ h)

theorem canonical_mchk {source : ℕ} {core : ℕ} {boot : Bool} (h : s.canonical = true) :
    (s.mchk source core boot).canonical = true :=
  canonical_ite (canonical_setReg _ _ _ h) (canonical_setLine (canonical_setHint (canonical_setReg _ _ _ h)))

theorem canonical_mbxFound {path : ℕ} {agent : ℕ} {o : ℕ} (h : s.canonical = true) :
    (s.mbxFound path agent o).canonical = true :=
  canonical_integRec _ _ _ _ _ _ (canonical_mchk (canonical_with (canonical_fresh h)))

theorem canonical_noteUe {source : ℕ} {a : ℕ} {array : BitVec 2} {core : ℕ} {agent : ℕ} (h : s.canonical = true) :
    (s.noteUe source a array core agent).canonical = true :=
  canonical_ite (canonical_setHint (canonical_orReg (canonical_mchk (canonical_integRec _ _ _ _ _ _ h)))) (canonical_mchk
    (canonical_integRec _ _ _ _ _ _ h))

theorem canonical_ueFoundAs {source : ℕ} {a : ℕ} {array : BitVec 2} {core : ℕ} {agent : ℕ} (h : s.canonical = true) :
    (s.ueFoundAs source a array core agent).canonical = true := canonical_noteUe (canonical_poisonWord _ _ h)

theorem canonical_ueFound {a : ℕ} {array : BitVec 2} {core : ℕ} {agent : ℕ} (h : s.canonical = true) :
    (s.ueFound a array core agent).canonical = true := canonical_ueFoundAs h

theorem canonical_meet {a : ℕ} {core : ℕ} {agent : ℕ} (h : s.canonical = true) :
    (s.meet a core agent).canonical = true := by
  unfold State.meet
  split
  · exact h
  · exact canonical_ueFound h

theorem canonical_meetEntry {a : ℕ} {core : ℕ} {agent : ℕ} (h : s.canonical = true) :
    (s.meetEntry a core agent).canonical = true := by
  unfold State.meetEntry
  split
  · exact canonical_bumpSat h
  · exact canonical_ueFoundAs h

theorem canonical_usePoison {path : ℕ} {core : ℕ} {agent : ℕ} {a : ℕ} (h : s.canonical = true) :
    (s.usePoison path core agent a).canonical = true :=
  canonical_ite (canonical_meet h) (canonical_integRec _ _ _ _ _ _ (canonical_bumpSat h))

theorem canonical_countPoison {core : ℕ} {agent : ℕ} {ws : List ℕ} (h : s.canonical = true) :
    (s.countPoison core agent ws).canonical = true :=
  foldl_canonical h fun _ _ ht => canonical_ite (canonical_meet ht) (canonical_bumpSat ht)

theorem canonical_consumeAll {path : ℕ} {core : ℕ} {agent : ℕ} {ws : List ℕ} (h : s.canonical = true) :
    (s.consumeAll path core agent ws).canonical = true := by
  unfold State.consumeAll
  split
  · exact h
  · exact canonical_countPoison (canonical_usePoison h)

theorem canonical_withFound {l : List (ℕ × BitVec 2)} (h : s.canonical = true) : (s.withFound l).canonical = true :=
  canonical_with (foldl_canonical h fun _ _ ht => canonical_poisonWord _ _ ht)

theorem canonical_dropFlashPoison (h : s.canonical = true) : s.dropFlashPoison.canonical = true := by
  obtain ⟨hm, hf, hp⟩ := (canonical_iff s).1 h
  exact (canonical_iff _).2 ⟨hm, hf, smWf_filter _ _ _ hp⟩

theorem canonical_finding {f : State → State} {n : ℕ} {l : List (ℕ × BitVec 2)}
    (h : ∀ t, t.canonical = true → (f t).canonical = true) (hs : s.canonical = true) :
    (s.finding f n l).canonical = true := by
  induction n generalizing l with
  | zero => exact h _ hs
  | succ n ih =>
    have ht := h _ (canonical_withFound (l := l) hs)
    exact canonical_ite (h _ hs) (canonical_ite (canonical_dropFlashPoison ht) (ih))

theorem canonical_correct {f : State → State} {u : Upset} (h : s.canonical = true) : (s.correct f u).canonical = true :=
  foldl_canonical h fun _ _ ht => canonical_bumpSat ht

theorem canonical_withUpset {u : Upset} {f : State → State} (h : s.canonical = true)
    (hf : ∀ t, t.canonical = true → (f t).canonical = true) :
    (s.withUpset u f).canonical = true := canonical_finding (fun _ ht => hf _ ht) (canonical_correct h)

theorem canonical_setCoreState {c : ℕ} {v : CoreState} (h : s.canonical = true) :
    (s.setCoreState c v).canonical = true := canonical_setLine (canonical_setHint (canonical_setCore h))

theorem canonical_takeNmiWait {x : CtxId} (h : s.canonical = true) : (s.takeNmiWait x).canonical = true :=
  canonical_ite (canonical_upCtx (canonical_setCore h)) h

end

end Sys2Proof.Laws
end

section
/-! SUPPORT. The canonical form under Curlew and the links (spec/03, spec/04, spec/17). -/

namespace Sys2Proof.Laws

open Sys2Proof Sys2Proof.Machine

section

variable {s : State}

theorem canonical_readVault {t : SiteId} (h : s.canonical = true) : (s.readVault t).canonical = true :=
  canonical_ite (canonical_touch _ _ _ _ (canonical_consumeAll h)) h

theorem canonical_writeVault {base : ℕ} {t : SiteId} {e : List Byte} (h : s.canonical = true) :
    (s.writeVault base t e).canonical = true := canonical_ite (canonical_agentWrite _ _ _ h) h

theorem canonical_setKeySlot {k : ℕ} {v : KeySlot} (h : s.canonical = true) : (s.setKeySlot k v).canonical = true := h

theorem canonical_useSlot {k : ℕ} (h : s.canonical = true) : (s.useSlot k).canonical = true :=
  canonical_with (canonical_setKeySlot h)

theorem canonical_setKeyState {t : SiteId} {v : BitVec 2} (h : s.canonical = true) :
    (s.setKeyState t v).canonical = true := canonical_upSite h

theorem canonical_cwReq {reason : ℕ} {t : SiteId} (h : s.canonical = true) : (s.cwReq reason t).canonical = true :=
  canonical_setLine (canonical_ite (canonical_setReg _ _ _ h) (canonical_setReg _ _ _ h))

theorem canonical_loadSlot {k : ℕ} {t : SiteId} {u : Unwrapped} (h : s.canonical = true) :
    (s.loadSlot k t u).canonical = true :=
  canonical_setKeyState (canonical_with (canonical_setKeySlot (canonical_ite (canonical_upSite (canonical_ite
    (canonical_setKeyState h) h)) (canonical_ite (canonical_setKeyState h) h))))

theorem canonical_dropKey {t : SiteId} (h : s.canonical = true) : (s.dropKey t).canonical = true :=
  canonical_ite h (canonical_setKeyState h)

theorem canonical_loadKey {k : ℕ} {t : SiteId} (h : s.canonical = true) : (s.loadKey k t).canonical = true := by
  unfold State.loadKey
  split
  · exact canonical_loadSlot (canonical_readVault h)
  · exact canonical_cwReq (canonical_dropKey (canonical_readVault h))

theorem canonical_tryBegin {n : SiteId} (h : s.canonical = true) : (s.tryBegin n).canonical = true := by
  unfold State.tryBegin
  dsimp only
  split
  · exact h
  · refine canonical_ite h (canonical_ite (canonical_ite h (canonical_setAttn (canonical_upSite h))) (canonical_ite h ?_))
    split
    · exact h
    · exact canonical_useSlot (canonical_upSite (canonical_ite (canonical_readVault h) h))

theorem canonical_demandKey {n : SiteId} (h : s.canonical = true) : (s.demandKey n).canonical = true := by
  unfold State.demandKey
  refine canonical_ite (canonical_cwReq h) ?_
  split
  · exact h
  · exact canonical_loadKey h

theorem canonical_retry {n : SiteId} (h : s.canonical = true) : (s.retry n).canonical = true :=
  canonical_tryBegin (canonical_ite (canonical_demandKey h) h)

theorem canonical_retryAll (h : s.canonical = true) : s.retryAll.canonical = true :=
  foldl_canonical h fun _ _ ht => canonical_retry ht

theorem canonical_accept {n : SiteId} {k : AppendKind} (h : s.canonical = true) : (s.accept n k).canonical = true :=
  canonical_tryBegin (canonical_upSite h)

theorem canonical_addCounter {n : SiteId} {r : SReg} (h : s.canonical = true) : (s.addCounter n r).canonical = true :=
  canonical_ite (canonical_setAttn (canonical_setReg _ _ _ h)) (canonical_setReg _ _ _ h)

theorem canonical_addIf {b : Bool} {n : SiteId} {r : SReg} (h : s.canonical = true) : (s.addIf b n r).canonical = true :=
  canonical_ite (canonical_addCounter h) h

theorem canonical_settleCounters {n : SiteId} {w : Byte} (h : s.canonical = true) :
    (s.settleCounters n w).canonical = true := canonical_addIf (canonical_addIf (canonical_addIf (canonical_addIf h)))

theorem canonical_curlewReads {path : ℕ} {l : List (ℕ × ℕ)} (h : s.canonical = true) :
    (s.curlewReads path l).canonical = true :=
  foldl_canonical (canonical_consumeAll h) fun _ _ ht => canonical_touch _ _ _ _ ht

theorem canonical_siteIrq {n : SiteId} (h : s.canonical = true) : (s.siteIrq n).canonical = true :=
  canonical_ite (canonical_setIrq h) h

theorem canonical_siteEvent {n : SiteId} (h : s.canonical = true) : (s.siteEvent n).canonical = true :=
  canonical_ite (canonical_upSite h) (canonical_siteIrq h)

theorem canonical_closeTxn {n : SiteId} (h : s.canonical = true) : (s.closeTxn n).canonical = true :=
  canonical_ite (canonical_siteIrq (canonical_setAttn (canonical_upSite h))) (canonical_siteEvent (canonical_siteIrq
    (canonical_setAttn (canonical_upSite h))))

theorem canonical_doorbell {n : SiteId} {seq : ℕ} {status : ℕ} {notify : Bool} (h : s.canonical = true) :
    (s.doorbell n seq status notify).canonical = true :=
  canonical_ite (canonical_setIrq (canonical_setReg _ _ _ (canonical_setReg _ _ _ (canonical_bumpWrap (canonical_setReg _ _
    _ (canonical_setReg _ _ _ (canonical_setReg _ _ _ h))))))) (canonical_setReg _ _ _ (canonical_setReg _ _ _
    (canonical_bumpWrap (canonical_setReg _ _ _ (canonical_setReg _ _ _ (canonical_setReg _ _ _ h))))))

theorem canonical_applyRecord {n : SiteId} {k : AppendKind} {q : ℕ} {o : OpCopy} (h : s.canonical = true) :
    (s.applyRecord n k q o).canonical = true := by
  unfold State.applyRecord
  split
  · exact canonical_setReg _ _ _ h
  · exact canonical_closeTxn (canonical_settleCounters h)
  · exact canonical_closeTxn (canonical_addCounter h)
  · exact h
  · exact canonical_setAttn (canonical_upSite (foldl_canonical h fun _ _ ht => canonical_setReg _ _ _ ht))
  · exact canonical_doorbell h

theorem canonical_fillCheck {n : SiteId} (h : s.canonical = true) : (s.fillCheck n).canonical = true :=
  canonical_ite (canonical_setAttn h) h

theorem canonical_beginNext {n : SiteId} (h : s.canonical = true) : (s.beginNext n).canonical = true :=
  canonical_ite (foldl_canonical (canonical_tryBegin h) fun _ _ ht => canonical_tryBegin ht) (canonical_tryBegin h)

theorem canonical_makeVisible {n : SiteId} {a : Machine.Append} {o : OpCopy} {iv : List Byte} (h : s.canonical = true) :
    (s.makeVisible n a o iv).canonical = true :=
  canonical_beginNext (canonical_fillCheck (canonical_applyRecord (canonical_curlewReads (canonical_upSite (canonical_setReg
    _ _ _ (canonical_agentWrite _ _ _ h))))))

theorem canonical_sendFrame {k : LinkId} {t : StationId} {type : ℕ} {absent : Bool} {invert : Bool} {seq : BitVec 24}
    {utype : Byte} {payload : List Byte} (h : s.canonical = true) :
    (s.sendFrame k t type absent invert seq utype payload).canonical = true :=
  canonical_ite h (canonical_with (canonical_setStation h))

theorem canonical_sendHeld {n : SiteId} {f : OutFrame} (h : s.canonical = true) : (s.sendHeld n f).canonical = true := by
  unfold State.sendHeld
  dsimp only
  split
  · exact canonical_touch _ _ _ _ (canonical_sendFrame h)
  · exact canonical_integRec _ _ _ _ _ _ (canonical_bumpSat (canonical_countPoison (canonical_touch _ _ _ _
      (canonical_sendFrame h))))

theorem canonical_resend {n : SiteId} {fs : List OutFrame} (h : s.canonical = true) : (s.resend n fs).canonical = true := by
  induction fs generalizing s with
  | nil => exact h
  | cons f t ih => exact ih (canonical_bumpSat (canonical_sendHeld h))

theorem canonical_startSettle {n : SiteId} (h : s.canonical = true) : (s.startSettle n).canonical = true :=
  canonical_ite (canonical_accept h) h

theorem canonical_applyAck {n : SiteId} {ack : BitVec 24} (h : s.canonical = true) :
    (s.applyAck n ack).canonical = true :=
  canonical_ite (canonical_startSettle (canonical_setReg _ _ _ (canonical_upSite h))) h

theorem canonical_startHold {n : SiteId} (h : s.canonical = true) : (s.startHold n).canonical = true := canonical_upSite h

theorem canonical_txnLost {n : SiteId} (h : s.canonical = true) : (s.txnLost n).canonical = true := by
  unfold State.txnLost
  refine canonical_ite h ?_
  split
  · exact canonical_startHold (canonical_upSite h)
  · exact canonical_ite (canonical_upSite h) (canonical_startHold (canonical_upSite h))
  · exact h

theorem canonical_stationLost {k : LinkId} {t : StationId} (h : s.canonical = true) :
    (s.stationLost k t).canonical = true := by
  unfold State.stationLost
  refine canonical_ite ?_ h
  dsimp only
  split
  · exact canonical_bumpSat (canonical_setStation h)
  · exact canonical_txnLost (canonical_setAttn (canonical_bumpSat (canonical_setStation h)))

theorem canonical_linkLost {k : LinkId} (h : s.canonical = true) : (s.linkLost k).canonical = true :=
  foldl_canonical h fun _ _ ht => canonical_stationLost ht

theorem canonical_txnBack {n : SiteId} (h : s.canonical = true) : (s.txnBack n).canonical = true := by
  unfold State.txnBack
  dsimp only
  split
  · exact canonical_upSite h
  · exact canonical_ite (canonical_upSite h) h
  · exact h

theorem canonical_goBack {n : SiteId} (h : s.canonical = true) : (s.goBack n).canonical = true :=
  canonical_resend (canonical_upSite h)

theorem canonical_goBackDue {n : SiteId} (h : s.canonical = true) : (s.goBackDue n).canonical = true :=
  canonical_ite h (canonical_ite (canonical_stationLost h) (canonical_goBack h))

theorem canonical_inboxWrite {n : SiteId} {slot : ℕ} {f : FrameFields} {head : List Byte} (h : s.canonical = true) :
    (s.inboxWrite n slot f head).canonical = true := by
  unfold State.inboxWrite
  exact canonical_ite (canonical_with (canonical_upSite (canonical_agentWrite _ _ _ h))) (canonical_siteEvent
    (canonical_with (canonical_upSite (canonical_agentWrite _ _ _ h))))

theorem canonical_nak {k : LinkId} {t : StationId} {absent : Bool} (h : s.canonical = true) :
    (s.nak k t absent).canonical = true :=
  canonical_ite (canonical_sendFrame h) (canonical_ite (canonical_sendFrame (canonical_setStation h)) h)

theorem canonical_recvData {k : LinkId} {n : SiteId} {f : FrameFields} {head : List Byte} (h : s.canonical = true) :
    (s.recvData k n f head).canonical = true := by
  unfold State.recvData
  refine canonical_ite ?_ (canonical_ite (canonical_sendFrame h) (canonical_nak h))
  split
  · exact h
  · exact canonical_inboxWrite (canonical_setStation h)

theorem canonical_recvNak {n : SiteId} {before : List OutFrame} {f : FrameFields} (h : s.canonical = true) :
    (s.recvNak n before f).canonical = true := by
  unfold State.recvNak
  split
  · exact h
  · exact canonical_ite (canonical_goBackDue h) (canonical_ite (canonical_goBackDue h) (canonical_ite (canonical_resend h)
      h))

theorem canonical_helloReport {k : LinkId} {n : SiteId} {f : FrameFields} (h : s.canonical = true) :
    (s.helloReport k n f).canonical = true :=
  canonical_ite (canonical_ite h (canonical_ite (canonical_applyAck h) (canonical_ite h (canonical_bumpSat h))))
    (canonical_resend (canonical_ite h (canonical_ite (canonical_applyAck h) (canonical_ite h (canonical_bumpSat h)))))

theorem canonical_recvHello {k : LinkId} {f : FrameFields} (h : s.canonical = true) :
    (s.recvHello k f).canonical = true := by
  unfold State.recvHello
  dsimp only
  split
  · exact canonical_sendFrame (canonical_stationLost h)
  · exact canonical_startSettle (canonical_helloReport (canonical_txnBack (canonical_setAttn (canonical_sendFrame
      (canonical_setStation (canonical_stationLost h))))))

theorem canonical_bootHello {f : FrameFields} (h : s.canonical = true) : (s.bootHello f).canonical = true := by
  unfold State.bootHello
  refine canonical_ite ?_ (canonical_bumpSat ?_)
  · dsimp only
    split
    · exact canonical_sendFrame (canonical_setStation (canonical_stationLost h))
    · exact canonical_setAttn (canonical_sendFrame (canonical_setStation (canonical_stationLost h)))
  · dsimp only
    split
    · exact canonical_sendFrame (canonical_setStation (canonical_stationLost h))
    · exact canonical_setAttn (canonical_sendFrame (canonical_setStation (canonical_stationLost h)))

theorem canonical_recvBoot {f : FrameFields} (h : s.canonical = true) : (s.recvBoot f).canonical = true :=
  canonical_ite (canonical_bootHello h) (canonical_ite (canonical_ite (canonical_ite h (canonical_with (canonical_setStation
    h))) (canonical_ite (canonical_sendFrame h) (canonical_nak h))) h)

theorem canonical_directFrame {k : LinkId} {r : RxFrame} (h : s.canonical = true) :
    (s.directFrame k r).canonical = true := by
  unfold State.directFrame
  refine canonical_ite (canonical_recvHello h) ?_
  dsimp only
  split
  · exact canonical_ite (canonical_nak h) h
  · exact canonical_ite (canonical_recvData (canonical_ite (canonical_applyAck h) h)) (canonical_ite (canonical_recvNak
      (canonical_ite (canonical_applyAck h) h)) (canonical_ite (canonical_applyAck h) h))

theorem canonical_receive {k : LinkId} {r : RxFrame} (h : s.canonical = true) : (s.receive k r).canonical = true :=
  canonical_ite h (canonical_ite (canonical_bumpSat h) (canonical_ite (canonical_bumpSat h) (canonical_ite
    (canonical_bumpSat h) (canonical_ite (canonical_recvBoot h) (canonical_ite h (canonical_directFrame h))))))

theorem canonical_directAll {fs : List (LinkId × RxFrame)} (h : s.canonical = true) :
    (s.directAll fs).canonical = true := by
  induction fs generalizing s with
  | nil => exact h
  | cons p t ih => exact ih (canonical_ite (canonical_directFrame h) h)

theorem canonical_setLinkState {k : LinkId} {v : LinkState} (h : s.canonical = true) :
    (s.setLinkState k v).canonical = true :=
  canonical_ite (canonical_setLink (canonical_ite (canonical_linkLost h) h)) (canonical_setLine (canonical_setHint
    (canonical_setLink (canonical_ite (canonical_linkLost h) h))))

theorem canonical_linkCtrlWritten {k : LinkId} {old : Word32} (h : s.canonical = true) :
    (s.linkCtrlWritten k old).canonical = true :=
  canonical_ite (canonical_setLinkState h) (canonical_ite (canonical_ite h (canonical_setLinkState h)) (canonical_ite
    (canonical_setLinkState h) h))

end

end Sys2Proof.Laws
end

section
/-! SUPPORT. The canonical form under worlds, translation and the entry of handlers (spec/11, spec/12, spec/15, spec/16). -/

namespace Sys2Proof.Laws

open Sys2Proof Sys2Proof.Machine

section

variable {s : State}

theorem canonical_setExit {k : ℕ} {xpc : ℕ} (h : s.canonical = true) : (s.setExit k xpc).canonical = true :=
  canonical_memWrite _ _ _ h

theorem canonical_clearExit {k : ℕ} (h : s.canonical = true) : (s.clearExit k).canonical = true :=
  canonical_memWrite _ _ _ h

theorem canonical_leaveEncl {x : CtxId} {xpc : ℕ} (h : s.canonical = true) : (s.leaveEncl x xpc).canonical = true := by
  unfold State.leaveEncl
  split
  · exact h
  · exact canonical_setExit h

theorem canonical_choose {n : ℕ} (h : s.canonical = true) : (s.choose n).2.canonical = true :=
  canonical_ite_snd h (canonical_fresh h)

theorem canonical_walk {core : ℕ} {c : Ctx} {va : ℕ} (h : s.canonical = true) : (s.walk core c va).2.canonical = true := by
  unfold State.walk
  dsimp only
  split
  · exact canonical_ite (canonical_choose h) (canonical_setCore (canonical_choose h))
  · exact canonical_ite (canonical_choose h) (canonical_setCore (canonical_choose h))

theorem canonical_setTlb {core : ℕ} {a : TlbArray} {l : List TlbEntry} (h : s.canonical = true) :
    (s.setTlb core a l).canonical = true := canonical_setCore h

theorem canonical_tlbPut {core : ℕ} {a : TlbArray} {t : TlbEntry} (h : s.canonical = true) :
    (s.tlbPut core a t).canonical = true :=
  canonical_ite h (canonical_ite (canonical_setTlb h) (canonical_setTlb (canonical_fresh h)))

theorem canonical_walkPut {core : ℕ} {e : WalkEntry} (h : s.canonical = true) : (s.walkPut core e).canonical = true :=
  canonical_ite h (canonical_ite (canonical_setCore h) (canonical_setCore (canonical_fresh h)))

theorem canonical_fill {core : ℕ} {c : Ctx} {l1 : TlbArray} {va : ℕ} {t : TlbEntry} {ptrs : List (ℕ × ℕ)}
    (h : s.canonical = true) :
    (s.fill core c l1 va t ptrs).canonical = true :=
  foldl_canonical (canonical_tlbPut (canonical_tlbPut h)) fun _ _ ht => canonical_walkPut ht

theorem canonical_multiHit {core : ℕ} {lockedToo : Bool} (h : s.canonical = true) :
    (s.multiHit core lockedToo).canonical = true := canonical_mchk (canonical_setCore h)

theorem canonical_probe {core : ℕ} {a : TlbArray} {c : Ctx} {va : ℕ} (h : s.canonical = true) :
    (s.probe core a c va).2.canonical = true := by
  unfold State.probe
  refine canonical_ite_snd h ?_
  dsimp only
  split
  · exact canonical_setTlb (canonical_choose h)
  · exact canonical_ite_snd (canonical_choose h) (canonical_setTlb (canonical_choose h))

theorem canonical_walkFor {core : ℕ} {c : Ctx} {l1 : TlbArray} {va : ℕ} (h : s.canonical = true) :
    (s.walkFor core c l1 va).2.canonical = true := by
  unfold State.walkFor
  dsimp only
  split
  · exact canonical_ite (canonical_meetEntry (canonical_walk h)) (canonical_walk h)
  · exact canonical_fill (canonical_walk h)

theorem canonical_lookup {core : ℕ} {c : Ctx} {fetches : Bool} {va : ℕ} {not : Option ℕ} (h : s.canonical = true) :
    (s.lookup core c fetches va not).2.canonical = true := by
  unfold State.lookup
  dsimp only
  split
  · exact h
  · exact canonical_multiHit h
  · split
    · exact canonical_probe h
    · exact canonical_multiHit (canonical_probe h)
    · split
      · exact canonical_tlbPut (canonical_probe (canonical_probe h))
      · exact canonical_multiHit (canonical_probe (canonical_probe h))
      · exact canonical_walkFor (canonical_probe (canonical_probe h))

theorem canonical_checked {x : CtxId} {ctl : AccCtl} {k : Kind} {pa : ℕ} {e : Option Exc} (h : s.canonical = true) :
    (s.checked x ctl k pa e).canonical = true := canonical_countPoison h

theorem canonical_xlate {x : CtxId} {ctl : AccCtl} {k : Kind} {ea : ℕ} (h : s.canonical = true) :
    XRCanonical (s.xlate x ctl k ea) := by
  unfold State.xlate
  refine XRCanonical.ite h (XRCanonical.ite (XRCanonical.ite h ?_) ?_)
  · split
    · exact h
    · exact h
  · dsimp only
    split
    · exact canonical_lookup h
    · exact canonical_lookup h
    · split
      · exact canonical_checked (canonical_lookup h)
      · exact canonical_checked (canonical_lookup h)

theorem canonical_xlatePieces {x : CtxId} {ctl : AccCtl} {k : Kind} {ps : List (ℕ × ℕ)} (h : s.canonical = true) :
    XRCanonical (s.xlatePieces x ctl k ps) := by
  induction ps generalizing s with
  | nil => exact h
  | cons p t ih =>
    exact XRCanonical.bind (canonical_xlate h) fun _ _ hs => XRCanonical.bind (ih hs) fun _ _ ht => ht

theorem canonical_poisonHit {x : CtxId} {va : ℕ} {pa : ℕ} (h : s.canonical = true) :
    (s.poisonHit x va pa).2.canonical = true := canonical_usePoison h

theorem canonical_readPieces {x : CtxId} {k : Kind} {ea : ℕ} {ps : List (ℕ × ℕ)} (h : s.canonical = true) :
    XRCanonical (s.readPieces x k ea ps) := by
  induction ps generalizing s ea with
  | nil => exact h
  | cons p t ih =>
    refine XRCanonical.ite h ?_
    split
    · exact canonical_poisonHit h
    · exact XRCanonical.bind (ih (canonical_touch _ _ _ _ h)) fun _ _ ht => ht

theorem canonical_checkRead {x : CtxId} {ctl : AccCtl} {k : Kind} {word : Bool} {ps : List (ℕ × ℕ)}
    (h : s.canonical = true) :
    XRCanonical (s.checkRead x ctl k word ps) := by
  induction ps generalizing s with
  | nil => exact h
  | cons p t ih =>
    refine XRCanonical.bind (canonical_xlate h) fun pa s1 hs => XRCanonical.ite hs ?_
    split
    · exact canonical_poisonHit hs
    · exact XRCanonical.bind (ih hs) fun _ _ ht => ht

theorem canonical_touchPieces {ps : List (ℕ × ℕ)} {write : Bool} (h : s.canonical = true) :
    (s.touchPieces ps write).canonical = true := foldl_canonical h fun _ _ ht => canonical_touch _ _ _ _ ht

theorem canonical_checkWrite {x : CtxId} {ctl : AccCtl} {ea : ℕ} {len : ℕ} (h : s.canonical = true) :
    XRCanonical (s.checkWrite x ctl ea len) := canonical_xlatePieces h

theorem canonical_retirePieces {x : CtxId} {word : Bool} {ps : List (ℕ × ℕ)} {bs : List Byte} (h : s.canonical = true) :
    (s.retirePieces x word ps bs).canonical = true := by
  induction ps generalizing s bs with
  | nil => exact h
  | cons p t ih => exact ih (canonical_upCtx h)

theorem canonical_retireStore {x : CtxId} {word : Bool} {ps : List (ℕ × ℕ)} {bs : List Byte} (h : s.canonical = true) :
    (s.retireStore x word ps bs).canonical = true := canonical_retirePieces h

theorem canonical_readVector {x : CtxId} {csw : Word} {ea : ℕ} (h : s.canonical = true) :
    XRCanonical (s.readVector x csw ea) := by
  unfold State.readVector
  refine XRCanonical.ite h (XRCanonical.bind (XRCanonical.ite h ?_) fun a1 t2 ht3 => ?_)
  · dsimp only
    split
    · exact canonical_lookup h
    · exact canonical_lookup h
    · exact XRCanonical.ite (canonical_lookup h) (canonical_lookup h)
  · dsimp only
    split
    · exact ht3
    · exact XRCanonical.bind (canonical_readPieces ht3) fun _ _ ht => ht

theorem canonical_blockNmi {x : CtxId} {w : World} (h : s.canonical = true) : (s.blockNmi x w).canonical = true :=
  canonical_ite (canonical_orReg h) h

theorem canonical_enterSecure {x : CtxId} {v : ℕ} {i : EntryInfo} (h : s.canonical = true) :
    (s.enterSecure x v i).canonical = true := by
  unfold State.enterSecure
  dsimp only
  split
  · rename_i e4
    exact canonical_upCtx (XRCanonical.of_exc (canonical_readVector (canonical_upCtx h)) e4)
  · rename_i e8
    exact canonical_blockNmi (canonical_upCtx (canonical_leaveEncl (XRCanonical.of_ok (canonical_readVector (canonical_upCtx
      h)) e8)))

theorem canonical_enter {x : CtxId} {v : ℕ} {w : World} {i : EntryInfo} (h : s.canonical = true) :
    (s.enter x v w i).canonical = true := by
  unfold State.enter
  dsimp only
  split
  · exact canonical_enterSecure h
  · split
    · rename_i e6
      exact canonical_enterSecure (XRCanonical.of_exc (canonical_readVector (canonical_upCtx h)) e6)
    · rename_i e10
      exact canonical_upCtx (canonical_leaveEncl (XRCanonical.of_ok (canonical_readVector (canonical_upCtx h)) e10))

theorem canonical_setErrAddr {x : CtxId} {a : ℕ} (h : s.canonical = true) : (s.setErrAddr x a).canonical = true :=
  canonical_ite h (canonical_setReg _ _ _ (canonical_setReg _ _ _ h))

theorem canonical_setErrAddrOpt {x : CtxId} {a : Option ℕ} (h : s.canonical = true) :
    (s.setErrAddrOpt x a).canonical = true := by
  unfold State.setErrAddrOpt
  split
  · exact h
  · exact canonical_setErrAddr h

theorem canonical_raise {x : CtxId} {e : Exc} (h : s.canonical = true) : (s.raise x e).canonical = true := by
  unfold State.raise
  dsimp only
  split
  · exact canonical_enter (canonical_setErrAddrOpt h)
  · exact canonical_enter (canonical_setErrAddrOpt h)

theorem canonical_raiseFetch {x : CtxId} {e : Exc} (h : s.canonical = true) : (s.raiseFetch x e).canonical = true := by
  unfold State.raiseFetch
  dsimp only
  split
  · exact canonical_raise h
  · exact canonical_ite (canonical_upCtx h) (canonical_enterSecure h)

end

end Sys2Proof.Laws
end

section
/-! SUPPORT. The canonical form under tides and the dispatcher (spec/03, spec/21). -/

namespace Sys2Proof.Laws

open Sys2Proof Sys2Proof.Machine

section

variable {s : State}

theorem canonical_stage {r : Reg} {be : BitVec 4} {data : Word32} (h : s.canonical = true) :
    (s.stage r be data).canonical = true := h

theorem canonical_discardStaged (h : s.canonical = true) : s.discardStaged.canonical = true := h

theorem canonical_requestSave {n : SiteId} {r : SaveReason} (h : s.canonical = true) :
    (s.requestSave n r).canonical = true := canonical_ite (canonical_upSite h) h

theorem canonical_linkLosses {r : Reg} {e : StagedEntry} (h : s.canonical = true) :
    (s.linkLosses r e).canonical = true := by
  unfold State.linkLosses
  dsimp only
  split
  · exact canonical_ite h (canonical_stationLost (canonical_ite (canonical_stationLost h) h))
  · exact h

theorem canonical_noteConflicts {before : State} {k : LinkId} {t : StationId} (h : s.canonical = true) :
    (s.noteConflicts before k t).canonical = true := foldl_canonical h fun _ _ ht => canonical_setAttn ht

theorem canonical_entryEffect {before : State} {r : Reg} (h : s.canonical = true) :
    (s.entryEffect before r).canonical = true := by
  unfold State.entryEffect
  dsimp only
  split
  · exact canonical_noteConflicts h
  · exact canonical_ite h (canonical_requestSave h)
  · exact h

theorem canonical_entryStore {before : State} {e : Reg × StagedEntry} (h : s.canonical = true) :
    (s.entryStore before e).canonical = true := canonical_setReg _ _ _ h

theorem canonical_applyEntries {es : SMap StagedEntry} (h : s.canonical = true) : (s.applyEntries es).canonical = true :=
  foldl_canonical (foldl_canonical (foldl_canonical h fun _ _ ht => canonical_linkLosses ht) fun _ _ ht =>
    canonical_entryStore ht) fun _ _ ht => canonical_entryEffect ht

theorem canonical_tideDone (h : s.canonical = true) : s.tideDone.canonical = true :=
  canonical_setLine (canonical_setHint (canonical_bumpWrap h))

theorem canonical_convert {n : SiteId} {boundary : Bool} (h : s.canonical = true) :
    (s.convert n boundary).canonical = true :=
  canonical_ite h (canonical_tryBegin (canonical_ite (canonical_tideDone (canonical_setReg _ _ _ (canonical_with
    (canonical_applyEntries h)))) (canonical_setReg _ _ _ (canonical_with (canonical_applyEntries h)))))

theorem canonical_putBit {r : Reg} {k : ℕ} {b : Bool} (h : s.canonical = true) : (s.putBit r k b).canonical = true :=
  canonical_setReg _ _ _ h

theorem canonical_enRefused {n : SiteId} (h : s.canonical = true) : (s.enRefused n).canonical = true := canonical_putBit h

theorem canonical_setTState {n : SiteId} {t : TState} (h : s.canonical = true) : (s.setTState n t).canonical = true :=
  canonical_upSite h

theorem canonical_enterFaulted {n : SiteId} {code : ℕ} (h : s.canonical = true) :
    (s.enterFaulted n code).canonical = true := canonical_setAttn (canonical_setReg _ _ _ (canonical_setTState h))

theorem canonical_en0 {n : SiteId} (h : s.canonical = true) : (s.en0 n).canonical = true :=
  canonical_ite h (canonical_ite (canonical_enRefused h) (canonical_ite (canonical_requestSave (canonical_upSite h))
    (canonical_convert (canonical_setTState (canonical_putBit h)))))

theorem canonical_faultWritten {n : SiteId} (h : s.canonical = true) : (s.faultWritten n).canonical = true := by
  unfold State.faultWritten
  split
  · exact canonical_enterFaulted h
  · exact canonical_enterFaulted h
  · exact canonical_enterFaulted h
  · exact canonical_requestSave h
  · exact h
  · exact h

theorem canonical_resume {n : SiteId} {hold : Bool} (h : s.canonical = true) : (s.resume n hold).canonical = true :=
  canonical_ite (canonical_setReg _ _ _ (canonical_setTState h)) h

theorem canonical_holdWritten {n : SiteId} {b : Bool} (h : s.canonical = true) : (s.holdWritten n b).canonical = true := by
  unfold State.holdWritten
  refine canonical_ite (canonical_putBit h) (canonical_ite ?_ (canonical_ite (canonical_setTState (canonical_putBit h))
    (canonical_putBit h)))
  split
  · exact canonical_setTState (canonical_putBit h)
  · exact canonical_setTState (canonical_putBit h)
  · exact canonical_requestSave (canonical_putBit h)
  · exact canonical_putBit h
  · exact canonical_putBit h
  · exact canonical_putBit h

theorem canonical_en1 {n : SiteId} (h : s.canonical = true) : (s.en1 n).canonical = true :=
  canonical_ite h (canonical_ite (canonical_setTState (canonical_putBit h)) (canonical_enRefused h))

theorem canonical_autoWritten {n : SiteId} {b : Bool} (h : s.canonical = true) : (s.autoWritten n b).canonical = true :=
  canonical_ite (canonical_startSettle (canonical_resend (canonical_upSite (canonical_putBit h)))) (canonical_putBit h)

theorem canonical_ctrClear {n : SiteId} (h : s.canonical = true) : (s.ctrClear n).canonical = true := canonical_upSite h

theorem canonical_sbCtrlWrite {n : SiteId} {be : BitVec 4} {d : Word32} (h : s.canonical = true) :
    (s.sbCtrlWrite n be d).canonical = true := by
  unfold State.sbCtrlWrite
  extract_lets _ _ _ s1 s2 s3 s4 s5 s6
  have h1 : s1.canonical = true := canonical_ite (canonical_en0 h) h
  have h2 : s2.canonical = true := canonical_ite (canonical_faultWritten h1) h1
  have h3 : s3.canonical = true := canonical_ite (canonical_resume h2) h2
  have h4 : s4.canonical = true := canonical_ite (canonical_holdWritten h3) h3
  have h5 : s5.canonical = true := canonical_ite (canonical_en1 h4) h4
  have h6 : s6.canonical = true := canonical_ite (canonical_autoWritten h5) h5
  exact canonical_ite (canonical_ctrClear h6) h6

theorem canonical_dropPairs {x : CtxId} (h : s.canonical = true) : (s.dropPairs x).canonical = true := h

theorem canonical_clearSiteIrq {x : CtxId} (h : s.canonical = true) : (s.clearSiteIrq x).canonical = true :=
  canonical_clrReg h

theorem canonical_loadTenant {n : SiteId} {x : CtxId} (h : s.canonical = true) : (s.loadTenant n x).canonical = true := by
  unfold State.loadTenant
  exact canonical_ite (canonical_enterFaulted (canonical_usePoison (canonical_clearSiteIrq (canonical_dropPairs
    (canonical_touch _ _ _ _ h))))) (canonical_ite (canonical_enterFaulted (canonical_clearSiteIrq (canonical_dropPairs
    (canonical_touch _ _ _ _ h)))) (canonical_takeNmiWait (canonical_bumpWrap (canonical_upSite (canonical_setCtx
    (canonical_clearSiteIrq (canonical_dropPairs (canonical_touch _ _ _ _ h))))))))

theorem canonical_quantumPick {ws : List SiteId} {taken : List SiteId} (h : s.canonical = true) :
    (s.quantumPick ws taken).canonical = true := by
  induction ws generalizing s taken with
  | nil => exact h
  | cons w t ih =>
    refine canonical_ite (ih h) ?_
    split
    · exact ih h
    · exact ih (canonical_upSite (canonical_requestSave h))

theorem canonical_decideEn {n : SiteId} (h : s.canonical = true) : (s.decideEn n).canonical = true :=
  canonical_ite (canonical_ite (canonical_setTState (canonical_putBit (canonical_upSite h))) (canonical_enRefused
    (canonical_upSite h))) h

theorem canonical_saveTenant {n : SiteId} {r : SaveReason} (h : s.canonical = true) :
    (s.saveTenant n r).canonical = true :=
  canonical_convert (canonical_decideEn (canonical_ite (canonical_enterFaulted (canonical_upSite (canonical_clearSiteIrq
    (canonical_dropPairs (canonical_upCtx (canonical_agentWrite _ _ _ (canonical_leaveEncl h))))))) (canonical_upSite
    (canonical_clearSiteIrq (canonical_dropPairs (canonical_upCtx (canonical_agentWrite _ _ _ (canonical_leaveEncl h))))))))

theorem canonical_convertDue {cl : ℕ} (h : s.canonical = true) : (s.convertDue cl).canonical = true :=
  canonical_ite (foldl_canonical h fun _ _ ht => canonical_convert ht) h

end

end Sys2Proof.Laws
end

section
/-! SUPPORT. The canonical form under the flash, the microcode stores and the command rings (spec/17, spec/19, spec/20). -/

namespace Sys2Proof.Laws

open Sys2Proof Sys2Proof.Machine

section

variable {s : State}

theorem canonical_showJournal (h : s.canonical = true) : s.showJournal.canonical = true := by
  unfold State.showJournal
  split
  · exact canonical_setReg _ _ _ h
  · exact canonical_setReg _ _ _ h

theorem canonical_decTries (h : s.canonical = true) : s.decTries.canonical = true := by
  unfold State.decTries
  dsimp only
  split
  · exact h
  · exact canonical_program _ _ _ h

theorem canonical_takeSlot {c : Bool} (h : s.canonical = true) : (s.takeSlot c).2.canonical = true := by
  unfold State.takeSlot
  split
  · exact h
  · exact canonical_eraseFlash _ _ _ h

theorem canonical_recordTries {c : Bool} {new : List Byte} {n : ℕ} {bad : ℕ} (h : s.canonical = true) :
    (s.recordTries c new n bad).2.canonical = true := by
  induction n generalizing bad s with
  | zero => exact h
  | succ n ih =>
    have hp := canonical_takeSlot (c := c) h
    have ht := canonical_ite (c := bad = 0) (canonical_program _ (slotOfs c (s.takeSlot c).1) new hp)
      (canonical_programTorn _ (slotOfs c (s.takeSlot c).1) new hp)
    exact canonical_ite_snd (canonical_showJournal ht) (ih ht)

theorem canonical_writeRecord {bad : ℕ} {r : List Byte} (h : s.canonical = true) :
    (s.writeRecord bad r).2.canonical = true := canonical_recordTries h

theorem canonical_slotTorn {c : Bool} {i : ℕ} {k : ℕ} {new : List Byte} (h : s.canonical = true) :
    (s.slotTorn c i k new).canonical = true :=
  foldl_canonical (foldl_canonical h fun _ _ ht => canonical_program _ _ _ ht) fun _ _ ht => canonical_programTorn _ _ _ ht

theorem canonical_writeRecordTorn {r : List Byte} (h : s.canonical = true) : (s.writeRecordTorn r).canonical = true :=
  canonical_ite (canonical_eraseTorn _ _ _ (canonical_fresh h)) (canonical_slotTorn (canonical_takeSlot (canonical_fresh
    h)))

theorem canonical_eraseBank {b : Bool} {bad : Option ℕ} (h : s.canonical = true) :
    (s.eraseBank b bad).2.canonical = true := by
  unfold State.eraseBank
  dsimp only
  split
  · exact canonical_eraseFlash _ _ _ h
  · exact canonical_ite_snd (canonical_eraseFlash _ _ _ h) (canonical_ite_snd (canonical_eraseFlash _ _ _
      (canonical_eraseTorn _ _ _ (canonical_eraseFlash _ _ _ h))) (canonical_eraseTorn _ _ _ (canonical_eraseFlash _ _ _
      h)))

theorem canonical_programPages {n : ℕ} {bad : Option ℕ} {o : ℕ} {a : ℕ} (h : s.canonical = true) :
    (s.programPages n bad o a).2.canonical = true := by
  induction n generalizing bad o a s with
  | zero => exact h
  | succ n ih =>
    have ht := canonical_touch s a 256 false h
    have hp := canonical_ite (c := bad = some 0) (canonical_programTorn _ o ((s.touch a 256 false).memRead a 256) ht)
      (canonical_program _ o ((s.touch a 256 false).memRead a 256) ht)
    exact canonical_ite_snd ht (canonical_ite_snd ht (canonical_ite_snd hp (ih hp)))

theorem canonical_eraseBankTorn {b : Bool} (h : s.canonical = true) : (s.eraseBankTorn b).canonical = true :=
  canonical_ite (canonical_eraseFlash _ _ _ (canonical_fresh h)) (canonical_eraseTorn _ _ _ (canonical_eraseFlash _ _ _
    (canonical_fresh h)))

theorem canonical_programPagesTorn {n : ℕ} {k : ℕ} {o : ℕ} {a : ℕ} (h : s.canonical = true) :
    (s.programPagesTorn n k o a).canonical = true :=
  canonical_ite (canonical_programTorn _ _ _ (canonical_touch _ _ _ _ (canonical_programPages h))) (canonical_programPages
    h)

theorem canonical_calStore (h : s.canonical = true) : s.calStore.canonical = true :=
  canonical_program _ _ _ (canonical_eraseFlash _ _ _ h)

theorem canonical_calSaveTorn (h : s.canonical = true) : s.calSaveTorn.canonical = true :=
  canonical_ite (canonical_eraseTorn _ _ _ (canonical_fresh h)) (foldl_canonical (foldl_canonical (canonical_eraseFlash _ _
    _ (canonical_fresh h)) fun _ _ ht => canonical_program _ _ _ ht) fun _ _ ht => canonical_programTorn _ _ _ ht)

theorem canonical_storePatch {p : List Byte} (h : s.canonical = true) : (s.storePatch p).canonical = true :=
  canonical_with (canonical_setCore h)

theorem canonical_dropHooks (h : s.canonical = true) : s.dropHooks.canonical = true := canonical_with (canonical_setCore h)

theorem canonical_badCopy {core : ℕ} {w : ℕ × ℕ} (h : s.canonical = true) : (s.badCopy core w).canonical = true :=
  canonical_ite (canonical_bumpSat h) (canonical_integRec _ _ _ _ _ _ (canonical_mchk (canonical_fresh h)))

theorem canonical_ucFailed {c : ℕ} {addr : BitVec 14} {store : BitVec 2} (h : s.canonical = true) :
    (s.ucFailed c addr store).canonical = true := canonical_setReg _ _ _ h

theorem canonical_ucReload {c : ℕ} {addr : BitVec 14} {store : BitVec 2} {copyBad : Bool} (h : s.canonical = true) :
    (s.ucReload c addr store copyBad).canonical = true :=
  canonical_ite h (canonical_ite (canonical_badCopy h) (canonical_setCore h))

theorem canonical_endDesc {k : BitVec 3} {status : ℕ} {result : ℕ} (h : s.canonical = true) :
    (s.endDesc k status result).canonical = true :=
  canonical_setReg _ _ _ (canonical_agentWrite _ _ _ (canonical_agentWrite _ _ _ (canonical_touch _ _ _ _
    (canonical_consumeAll h))))

theorem canonical_skipBad {n : ℕ} {k : BitVec 3} (h : s.canonical = true) : (s.skipBad n k).canonical = true := by
  induction n generalizing s with
  | zero => exact h
  | succ n ih =>
    refine canonical_ite h ?_
    split
    · exact canonical_cwReq h
    · exact canonical_ite (ih (canonical_endDesc h)) h

theorem canonical_skipAll {k : BitVec 3} (h : s.canonical = true) : (s.skipAll k).canonical = true := canonical_skipBad h

theorem canonical_ringCommand {k : BitVec 3} {op : ℕ} {f : State → Desc → Option (ℕ × ℕ) × State}
    (h : s.canonical = true) (hf : ∀ t a, t.canonical = true → (f t a).2.canonical = true) :
    (s.ringCommand k op f).canonical = true := by
  unfold State.ringCommand
  split
  · exact h
  · next d hd =>
    have ht := hf s d h
    refine canonical_ite ?_ h
    split
    · exact canonical_skipAll (canonical_endDesc ht)
    · exact ht

theorem canonical_noteWrapped {l : List SiteId} {v : Bool} (h : s.canonical = true) :
    (s.noteWrapped l v).canonical = true := h

theorem canonical_genKeys {enc : Bool} {bbk : BitVec 256} {ts : List SiteId} (h : s.canonical = true) :
    (s.genKeys enc bbk ts).2.canonical = true := by
  induction ts generalizing s with
  | nil => exact h
  | cons t more ih =>
    have hw := canonical_drawBytes (n := 12) (canonical_drawBytes (n := 32) (canonical_readVault (t := t) h))
    exact canonical_ite_snd h (canonical_ite_snd (ih h) (ih (canonical_retry (canonical_noteWrapped
      (canonical_ite (canonical_setKeyState (canonical_writeVault hw)) (canonical_writeVault hw))))))

theorem canonical_withLast {d : Desc} {r : Option (ℕ × ℕ) × State} (h : r.2.canonical = true) :
    (withLast d r).2.canonical = true := canonical_ite_snd h h

theorem canonical_genKey {d : Desc} (h : s.canonical = true) : (s.genKey d).2.canonical = true :=
  canonical_ite_snd (canonical_withLast (canonical_genKeys h)) h

theorem canonical_kwrapAll {bbk : BitVec 256} {ts : List SiteId} (h : s.canonical = true) :
    (s.kwrapAll bbk ts).2.canonical = true := by
  induction ts generalizing s with
  | nil => exact h
  | cons t more ih =>
    have hr := canonical_readVault (t := t) h
    refine canonical_ite_snd (ih (canonical_writeVault (canonical_dropKey hr))) ?_
    split
    · exact canonical_dropKey hr
    · exact canonical_ite_snd h (ih (canonical_writeVault (canonical_drawBytes hr)))

theorem canonical_kwrapStaged {d : Desc} (h : s.canonical = true) : (s.kwrapStaged d).2.canonical = true :=
  canonical_ite_snd (canonical_ite_snd (canonical_noteWrapped (canonical_withLast (canonical_kwrapAll h)))
    (canonical_withLast (canonical_kwrapAll h))) h

theorem canonical_readSlots {n : SiteId} {q : ℕ} {r : ℕ} (h : s.canonical = true) :
    (s.readSlots n q r).canonical = true := canonical_curlewReads h

theorem canonical_verifyUnder {n : SiteId} {k : ℕ} {d : Desc} (h : s.canonical = true) :
    (s.verifyUnder n k d).2.canonical = true := by
  unfold State.verifyUnder
  dsimp only
  split
  · exact canonical_readSlots (canonical_useSlot h)
  · exact canonical_ite_snd (canonical_readSlots (canonical_useSlot h)) (canonical_cwReq (canonical_ite (canonical_useSlot
      h) (canonical_readSlots (canonical_useSlot h))))

theorem canonical_verify {d : Desc} (h : s.canonical = true) : (s.verify d).2.canonical = true := by
  unfold State.verify
  refine canonical_ite_snd h (canonical_ite_snd h ?_)
  dsimp only
  split
  · exact canonical_ite h (canonical_demandKey h)
  · exact canonical_verifyUnder (canonical_ite h (canonical_demandKey h))

theorem canonical_thermCross {seen : Option ℤ} {now : ℤ} {limit : ℤ} {k : ℕ} (h : s.canonical = true) :
    (s.thermCross seen now limit k).canonical = true :=
  canonical_ite (canonical_setLine (canonical_setHint (canonical_orReg h))) h

theorem canonical_thermCheck (h : s.canonical = true) : s.thermCheck.canonical = true := by
  unfold State.thermCheck
  dsimp only
  split
  · exact h
  · exact canonical_with (canonical_thermCross (canonical_thermCross h))

theorem canonical_thermSense {t : Therm} (h : s.canonical = true) : (s.thermSense t).canonical = true :=
  canonical_ite h (canonical_thermCheck h)

end

end Sys2Proof.Laws
end

section
/-! SUPPORT. The canonical form under resets and the boot ROM (spec/18). -/

namespace Sys2Proof.Laws

open Sys2Proof Sys2Proof.Machine

section

variable {s : State}

theorem canonical_startCtx {x : CtxId} {ptr : Word} {w : World} {occ : Occ} (h : s.canonical = true) :
    (s.startCtx x ptr w occ).canonical = true := canonical_takeNmiWait (canonical_putBit (canonical_setCtx h))

theorem canonical_tearUe (h : s.canonical = true) : s.tearUe.canonical = true := by
  unfold State.tearUe
  dsimp only
  split
  · exact h
  · split
    · exact canonical_writeRecordTorn h
    · exact canonical_eraseBankTorn h
    · exact canonical_ite (canonical_programPagesTorn (canonical_fresh h)) h
    · exact canonical_writeRecordTorn h
    · split
      · exact h
      · exact canonical_ite h (canonical_writeRecordTorn h)
    · exact canonical_ite (canonical_writeRecordTorn h) h
    · exact canonical_writeRecordTorn h
    · exact canonical_writeRecordTorn h
    · exact canonical_calSaveTorn h

theorem canonical_vaultWork {d : Desc} {l : List SiteId} (h : s.canonical = true) :
    (s.vaultWork d l).2.canonical = true := canonical_ite_snd (canonical_genKeys h) (canonical_kwrapAll h)

theorem canonical_tearRings (h : s.canonical = true) : s.tearRings.canonical = true := by
  unfold State.tearRings
  dsimp only
  split
  · exact h
  · split
    · exact canonical_vaultWork (canonical_fresh h)
    · exact canonical_ite (canonical_agentWrite _ _ _ (canonical_vaultWork (canonical_fresh h))) (canonical_vaultWork
        (canonical_fresh h))

theorem canonical_tearFuse {a : ℕ} (h : s.canonical = true) : (s.tearFuse a).canonical = true :=
  canonical_with (canonical_fresh h)

theorem canonical_tearAdvance {target : ℕ} (h : s.canonical = true) : (s.tearAdvance target).canonical = true :=
  canonical_ite (canonical_tearFuse (canonical_fresh h)) (canonical_tearFuse (canonical_with (canonical_fresh h)))

theorem canonical_abandonPulses (h : s.canonical = true) : s.abandonPulses.canonical = true :=
  canonical_with (canonical_ite (canonical_ite (canonical_tearAdvance (canonical_ite (canonical_tearFuse h) h))
    (canonical_tearFuse (canonical_ite (canonical_tearFuse h) h))) (canonical_ite (canonical_tearFuse h) h))

theorem canonical_chipReset {c : Cause} (h : s.canonical = true) : (s.chipReset c).canonical = true :=
  canonical_setReg _ _ _ (canonical_setReg _ _ _ (canonical_setReg _ _ _ (canonical_filtered (canonical_abandonPulses
    (canonical_tearRings (canonical_tearUe h))))))

theorem canonical_setPhase {p : ℕ} (h : s.canonical = true) : (s.setPhase p).canonical = true :=
  canonical_ite h (canonical_setHint (canonical_setReg _ _ _ h))

theorem canonical_bootErr {code : ℕ} (h : s.canonical = true) : (s.bootErr code).canonical = true :=
  canonical_ite (canonical_setReg _ _ _ h) h

theorem canonical_bootStep {n : ℕ} (h : s.canonical = true) : (s.bootStep n).canonical = true := canonical_setReg _ _ _ h

theorem canonical_setBoot {f : Boot → Boot} (h : s.canonical = true) : (s.setBoot f).canonical = true := h

theorem canonical_bootHalt {code : ℕ} (h : s.canonical = true) : (s.bootHalt code).canonical = true :=
  canonical_upCtx (canonical_setBoot (canonical_setPhase (canonical_bootErr h)))

theorem canonical_noteDroop {rails : BitVec 6} (h : s.canonical = true) : (s.noteDroop rails).canonical = true :=
  canonical_ite h (canonical_setLine (canonical_setHint (canonical_orReg h)))

theorem canonical_endInternalReset {bmode : BitVec 3} (h : s.canonical = true) :
    (s.endInternalReset bmode).canonical = true :=
  canonical_ite h (canonical_ite (canonical_bootHalt (canonical_setCore (canonical_startCtx (canonical_noteDroop
    (canonical_setReg _ _ _ h))))) (canonical_bootStep (canonical_setPhase (canonical_setCore (canonical_startCtx
    (canonical_noteDroop (canonical_setReg _ _ _ h)))))))

theorem canonical_openMbx {code : ℕ} (h : s.canonical = true) : (s.openMbx code).canonical = true :=
  canonical_with (canonical_setReg _ _ _ h)

theorem canonical_postReply {code : ℕ} {bs : List Byte} (h : s.canonical = true) :
    (s.postReply code bs).canonical = true := canonical_with (canonical_setReg _ _ _ h)

theorem canonical_bootReply {code : ℕ} (h : s.canonical = true) : (s.bootReply code).canonical = true :=
  canonical_ite (canonical_setBoot h) (canonical_postReply h)

theorem canonical_replyNow (h : s.canonical = true) : s.replyNow.canonical = true := by
  unfold State.replyNow
  split
  · exact h
  · exact canonical_ite h (canonical_postReply (canonical_setBoot h))

theorem canonical_setMeas {r : Fin 12 → Reg} {m : BitVec 384} (h : s.canonical = true) :
    (s.setMeas r m).canonical = true := foldl_canonical h fun _ _ ht => canonical_setReg _ _ _ ht

theorem canonical_decidePatch {img : List Byte} (h : s.canonical = true) : (s.decidePatch img).canonical = true :=
  canonical_ite (canonical_setBoot h) (canonical_ite (canonical_setBoot h) (canonical_ite (canonical_bootErr
    (canonical_setBoot h)) (canonical_ite (canonical_bootErr (canonical_dropHooks (canonical_storePatch (canonical_setBoot
    (canonical_setBoot h))))) (canonical_setMeas (canonical_setReg _ _ _ (canonical_setReg _ _ _ (canonical_setReg _ _ _
    (canonical_setBoot (canonical_storePatch (canonical_setBoot h))))))))))

theorem canonical_romMeets {at' : Option ℕ} {n : ℕ} (h : s.canonical = true) : (s.romMeets at' n).canonical = true := by
  unfold State.romMeets
  split
  · exact h
  · exact foldl_canonical h fun _ _ ht => canonical_meet ht

theorem canonical_loadBlocks {block : ℕ} {complete : Bool} {n : ℕ} {at' : Option ℕ} {dest : ℕ} {left : ℕ}
    {bs : List Byte} (h : s.canonical = true) :
    (s.loadBlocks block complete n at' dest left bs).2.canonical = true := by
  induction n generalizing s at' dest left bs with
  | zero => exact h
  | succ n ih =>
    exact canonical_ite_snd h (canonical_ite_snd (canonical_romMeets h) (ih (canonical_memWrite _ _ _ (canonical_romMeets
        h))))

theorem canonical_scannedTo {o : ℕ} (h : s.canonical = true) : (s.scannedTo o).canonical = true := canonical_setBoot h

theorem canonical_scanSet {win : Option ℕ} {complete : Bool} {bs : List Byte} {n : ℕ} {o : ℕ} (h : s.canonical = true) :
    (s.scanSet win complete bs n o).2.canonical = true := by
  induction n generalizing s o with
  | zero => exact h
  | succ n ih =>
    unfold State.scanSet
    have hs := fun {w k} => canonical_romMeets (at' := w) (n := k) (canonical_scannedTo (o := o) h)
    refine canonical_ite_snd hs (canonical_ite_snd hs (canonical_ite_snd hs (canonical_ite_snd hs (canonical_ite_snd hs
      (canonical_ite_snd (ih hs) ?_)))))
    split
    · dsimp only
      split
      · exact canonical_ite_snd (ih (canonical_decidePatch (canonical_loadBlocks (canonical_memWrite _ _ _ hs))))
          (canonical_loadBlocks (canonical_memWrite _ _ _ hs))
      · exact canonical_loadBlocks (canonical_memWrite _ _ _ hs)
    · exact hs

theorem canonical_loadSet {win : Option ℕ} {complete : Bool} {bs : List Byte} (h : s.canonical = true) :
    (s.loadSet win complete bs).2.canonical = true := canonical_scanSet h

theorem canonical_srcResult {code : ℕ} (h : s.canonical = true) : (s.srcResult code).canonical = true := canonical_orReg h

theorem canonical_takeBank {b : Bool} {second : Bool} (h : s.canonical = true) :
    (s.takeBank b second).canonical = true := canonical_setBoot (canonical_ite (canonical_decTries h) h)

theorem canonical_setUpd {v : Word32} (h : s.canonical = true) : (s.setUpd v).canonical = true :=
  canonical_ite h (canonical_setHint (canonical_setReg _ _ _ h))

theorem canonical_updAfterBoot {tried : Bool} {booted : Bool} (h : s.canonical = true) :
    (s.updAfterBoot tried booted).canonical = true := canonical_setUpd h

theorem canonical_bankBooted {b : Bool} (h : s.canonical = true) : (s.bankBooted b).canonical = true :=
  canonical_ite (canonical_setReg _ _ _ (canonical_setBoot (canonical_updAfterBoot h))) (canonical_ite (canonical_setReg _ _
    _ (canonical_setBoot (canonical_updAfterBoot h))) (canonical_setBoot (canonical_updAfterBoot h)))

theorem canonical_loadBanks (h : s.canonical = true) : s.loadBanks.2.canonical = true := by
  -- the load is an unknown of which only `hload` is known: the kernel must not run it when it compares the branches
  obtain ⟨load, hl, hload⟩ : ∃ load, State.loadSet = load ∧
      ∀ (t : State) w c bs, t.canonical = true → (load t w c bs).2.canonical = true :=
    ⟨_, rfl, fun t w c bs ht => canonical_loadSet ht⟩
  obtain ⟨f, hf⟩ : ∃ f, State.loadBanks = f := ⟨_, rfl⟩
  rw [hf]
  delta State.loadBanks at hf
  rw [hl] at hf
  subst hf
  have h1 := hload s (some (0xF200000000 + bankOfs s.boot.bank)) true (s.flashRead (bankOfs s.boot.bank) bankSize) h
  dsimp only
  split
  · exact canonical_bankBooted h1
  · refine canonical_ite_snd ?_ (canonical_updAfterBoot h1)
    split
    · exact canonical_bankBooted (hload _ _ _ _ (canonical_takeBank h1))
    · exact canonical_updAfterBoot (hload _ _ _ _ (canonical_takeBank h1))
    · exact hload _ _ _ _ (canonical_takeBank h1)
  · exact h1

theorem canonical_tryFlash (h : s.canonical = true) : s.tryFlash.2.canonical = true := by
  -- the load and the journal are unknowns: the kernel must not run them when it compares the branches
  obtain ⟨load, hl, hload⟩ : ∃ load, State.loadBanks = load ∧ ∀ t : State, t.canonical = true → (load t).2.canonical =
      true :=
    ⟨_, rfl, fun t ht => canonical_loadBanks ht⟩
  obtain ⟨sh, hs, hshow⟩ : ∃ sh, State.showJournal = sh ∧ ∀ t : State, t.canonical = true → (sh t).canonical = true :=
    ⟨_, rfl, fun t ht => canonical_showJournal ht⟩
  obtain ⟨f, hf⟩ : ∃ f, State.tryFlash = f := ⟨_, rfl⟩
  rw [hf]
  delta State.tryFlash at hf
  rw [hl, hs] at hf
  subst hf
  dsimp only
  refine canonical_ite_snd (hload _ h) ?_
  split
  · exact canonical_bootErr h
  · split
    · exact canonical_updAfterBoot (hshow _ h)
    · exact hload _ (canonical_takeBank (hshow _ h))

theorem canonical_tryStream (h : s.canonical = true) : s.tryStream.2.canonical = true := by
  unfold State.tryStream
  dsimp only
  split
  · exact canonical_ite_snd (canonical_loadSet h) (canonical_ite_snd (canonical_loadSet h) (canonical_loadSet h))
  · exact canonical_loadSet h
  · exact canonical_loadSet h

theorem canonical_trySource {kind : ℕ} {par : ℕ} (h : s.canonical = true) : (s.trySource kind par).2.canonical = true := by
  unfold State.trySource
  dsimp only
  split
  · exact canonical_tryFlash h
  · split
    · exact h
    · exact canonical_loadSet (canonical_setBoot h)
  · exact canonical_tryStream (canonical_ite h (canonical_setBoot (canonical_openMbx h)))
  · exact canonical_tryStream (canonical_ite h (canonical_setBoot (canonical_linkCtrlWritten (canonical_putBit h))))
  · exact h

theorem canonical_recovery (h : s.canonical = true) : s.recovery.canonical = true :=
  canonical_setBoot (canonical_openMbx (canonical_setPhase h))

theorem canonical_romJump {m : MonImage} {ver : ℕ} (h : s.canonical = true) : (s.romJump m ver).canonical = true :=
  canonical_setBoot (canonical_startCtx (canonical_lockRom (canonical_setPhase (canonical_setReg _ _ _ (canonical_bootStep
    (canonical_filtered (canonical_setReg _ _ _ (canonical_setReg _ _ _ (canonical_setReg _ _ _ (canonical_setReg _ _ _
    (canonical_setMeas (canonical_setReg _ _ _ (canonical_showJournal (canonical_bootStep h))))))))))))))

theorem canonical_writeDram (h : s.canonical = true) : s.writeDram.canonical = true :=
  canonical_ite (canonical_setHint (canonical_setBoot h)) (canonical_setBoot h)

theorem canonical_finishMon {m : MonImage} (h : s.canonical = true) : (s.finishMon m).canonical = true :=
  canonical_ite (canonical_setBoot (canonical_bootStep h)) (canonical_ite (canonical_ite (canonical_romJump
    (canonical_setReg _ _ _ (canonical_bootStep (canonical_writeDram (canonical_bootStep h))))) (canonical_setBoot
    (canonical_setReg _ _ _ (canonical_bootStep (canonical_writeDram (canonical_bootStep h)))))) (canonical_romJump
    (canonical_bootStep (canonical_writeDram (canonical_bootStep h)))))

theorem canonical_pairMon {m : MonImage} (h : s.canonical = true) : (s.pairMon m).canonical = true := by
  unfold State.pairMon
  extract_lets s0 _ s1 _ s2 s3 _ _ _ s4 s5
  have h0 : s0.canonical = true := canonical_bootStep h
  have h1 : s1.canonical = true := canonical_ite (canonical_setReg _ _ _ h0) h0
  have h2 : s2.canonical = true := canonical_ite h1 (canonical_setReg _ _ _ h1)
  have h4 : s4.canonical = true := canonical_with (canonical_bootStep h2)
  have h5 : s5.canonical = true := canonical_ite (canonical_setReg _ _ _ h4) h4
  exact canonical_ite (canonical_recovery (canonical_bootErr h1)) (canonical_finishMon h5)

theorem canonical_noteWait {r : LoadRes × State} (h : r.2.canonical = true) : (State.noteWait r).canonical = true :=
  canonical_setBoot h

theorem canonical_endSource {code : ℕ} (h : s.canonical = true) : (s.endSource code).canonical = true :=
  canonical_setBoot (canonical_srcResult (canonical_ite (canonical_bootReply h) h))

theorem canonical_runSources {n : ℕ} (h : s.canonical = true) : (s.runSources n).canonical = true := by
  induction n generalizing s with
  | zero => exact h
  | succ n ih =>
    unfold State.runSources
    split
    · exact canonical_recovery (canonical_bootErr h)
    · exact canonical_recovery (canonical_bootErr h)
    · next kind par _ _ =>
      have hr := canonical_trySource (kind := kind) (par := par) h
      dsimp only
      split
      · exact canonical_pairMon (canonical_endSource hr)
      · exact ih (canonical_setBoot (canonical_endSource hr))
      · exact canonical_noteWait hr

theorem canonical_failSource {c : ℕ} (h : s.canonical = true) : (s.failSource c).canonical = true :=
  canonical_runSources (canonical_setBoot (canonical_endSource h))

theorem canonical_recoveryResult {code : ℕ} (h : s.canonical = true) : (s.recoveryResult code).canonical = true :=
  canonical_setReg _ _ _ h

theorem canonical_recoveryLoad (h : s.canonical = true) : s.recoveryLoad.canonical = true := by
  unfold State.recoveryLoad
  dsimp only
  split
  · exact canonical_pairMon (canonical_bootReply (canonical_recoveryResult (canonical_setBoot (canonical_bootStep
      (canonical_tryStream h)))))
  · exact canonical_bootReply (canonical_recoveryResult (canonical_setBoot (canonical_tryStream h)))
  · exact canonical_noteWait (canonical_tryStream h)

theorem canonical_bootGo (h : s.canonical = true) : s.bootGo.canonical = true := by
  unfold State.bootGo
  split
  · exact canonical_runSources h
  · split
    · exact h
    · exact canonical_ite (canonical_finishMon h) h
  · split
    · exact h
    · exact canonical_ite (canonical_romJump h) h
  · exact canonical_ite h (canonical_recoveryLoad h)
  · exact h
  · exact h

theorem canonical_loadCal (h : s.canonical = true) : s.loadCal.canonical = true := by
  unfold State.loadCal
  dsimp only
  split
  · exact h
  · exact canonical_thermCheck (canonical_tideDone (foldl_canonical (canonical_setReg _ _ _ (canonical_setReg _ _ _
      (canonical_setReg _ _ _ (canonical_setReg _ _ _ h)))) fun _ _ ht => canonical_setReg _ _ _ ht))

theorem canonical_runRom {sramOk : Bool} {romOk : Bool} {badPatches : ℕ} {nor : Option (List Byte)}
    (h : s.canonical = true) :
    (s.runRom sramOk romOk badPatches nor).canonical = true :=
  canonical_ite h (canonical_ite (canonical_bootHalt (canonical_bootStep (canonical_setPhase h))) (canonical_ite
    (canonical_bootHalt (canonical_bootStep (canonical_loadCal (canonical_filtered (canonical_bootStep (canonical_setPhase
    h)))))) (canonical_runSources (canonical_setBoot (canonical_bootStep (canonical_setPhase (canonical_with
    (canonical_bootStep (canonical_bootStep (canonical_loadCal (canonical_filtered (canonical_bootStep (canonical_setPhase
    h)))))))))))))

theorem canonical_dealDram {new : List ℕ} {cap : ℕ} (h : s.canonical = true) : (s.dealDram new cap).canonical = true := by
  obtain ⟨hm, hf, hp⟩ := (canonical_iff s).1 h
  exact canonical_ite (canonical_filtered h)
    ((canonical_iff _).2 ⟨smWf_redeal _ _ _ _ _, hf, smWf_redeal _ _ _ _ _⟩)

theorem canonical_endTraining {chs : List Channel} (h : s.canonical = true) : (s.endTraining chs).canonical = true := by
  unfold State.endTraining
  refine canonical_ite h ?_
  extract_lets _ _ _ _ _ _ _ _ _ s1 s3 s4 s5 s6
  have h1 : s1.canonical = true := canonical_setReg _ _ _ (canonical_dealDram h)
  have h3 : s3.canonical = true := canonical_setReg _ _ _ h1
  have h4 : s4.canonical = true := canonical_ite (canonical_setReg _ _ _ h3) h3
  have h5 : s5.canonical = true := canonical_ite (canonical_bootErr h4) (canonical_ite (canonical_bootErr h4) h4)
  have h6 : s6.canonical = true := canonical_setBoot (canonical_with h5)
  exact canonical_bootGo h6

theorem canonical_romWord {words : List (BitVec 12 × WordFound)} {w : ℕ} (h : s.canonical = true) :
    (s.romWord words w).canonical = true := by
  unfold State.romWord
  refine canonical_ite (canonical_bumpSat h) ?_
  split
  · exact h
  · exact canonical_bumpSat h
  · exact canonical_mbxFound h

theorem canonical_romReads {words : List (BitVec 12 × WordFound)} (h : s.canonical = true) :
    (s.romReads words).canonical = true := foldl_canonical h fun _ _ ht => canonical_romWord ht

theorem canonical_consume {words : List (BitVec 12 × WordFound)} (h : s.canonical = true) :
    (s.consume words).canonical = true :=
  canonical_ite h (canonical_ite (canonical_ite (canonical_romReads h) h) (canonical_ite (canonical_chipReset (canonical_ite
    (canonical_romReads h) h)) (canonical_ite (canonical_bootReply (canonical_ite (canonical_romReads h) h))
    (canonical_bootGo (canonical_setBoot (canonical_ite (canonical_romReads h) h))))))

theorem canonical_consumeType {type : ℕ} {words : List (BitVec 12 × WordFound)} (h : s.canonical = true) :
    (s.consumeType type words).canonical = true := canonical_ite (canonical_consume h) h

theorem canonical_sourceTimeout (h : s.canonical = true) : s.sourceTimeout.canonical = true := by
  unfold State.sourceTimeout
  split
  · split
    · exact h
    · exact canonical_ite (canonical_failSource h) h
  · exact canonical_ite (canonical_bootReply (canonical_recoveryResult (canonical_setBoot h))) h
  · exact h

theorem canonical_rngTimeout (h : s.canonical = true) : s.rngTimeout.canonical = true :=
  canonical_ite (canonical_recovery (canonical_bootErr h)) h

theorem canonical_releaseCore {c : CoreId} (h : s.canonical = true) : (s.releaseCore c).canonical = true :=
  canonical_ite h (canonical_orReg h)

theorem canonical_freeCtx {x : CtxId} (h : s.canonical = true) : (s.freeCtx x).canonical = true := canonical_upCtx h

theorem canonical_startCore {c : CoreId} (h : s.canonical = true) : (s.startCore c).canonical = true :=
  canonical_setCoreState (canonical_startCtx (foldl_canonical (canonical_setCore h) fun _ _ ht => canonical_freeCtx ht))

theorem canonical_coreStarts {c : CoreId} {bad : Option (BitVec 2 × BitVec 14)} (h : s.canonical = true) :
    (s.coreStarts c bad).canonical = true := by
  unfold State.coreStarts
  refine canonical_ite ?_ h
  split
  · exact canonical_badCopy h
  · exact canonical_startCore h

theorem canonical_returnCore {c : CoreId} (h : s.canonical = true) : (s.returnCore c).canonical = true :=
  canonical_ite (canonical_setCoreState (canonical_clrReg h)) h

theorem canonical_returnFails {c : CoreId} {step : ℕ} (h : s.canonical = true) :
    (s.returnFails c step).canonical = true := canonical_setCoreState (canonical_setReg _ _ _ h)

theorem canonical_returnDone {c : CoreId} {failed : BitVec 2} {addr : BitVec 14} {store : BitVec 2}
    (h : s.canonical = true) :
    (s.returnDone c failed addr store).canonical = true := by
  unfold State.returnDone
  refine canonical_ite h ?_
  split
  · exact canonical_badCopy (canonical_ucFailed (canonical_returnFails h))
  · refine canonical_ite (canonical_ucFailed (canonical_returnFails h)) ?_
    split
    · exact canonical_ucFailed (canonical_returnFails h)
    · exact canonical_ite (canonical_ucFailed (canonical_returnFails (canonical_setCore h))) (canonical_startCore
        (canonical_setReg _ _ _ h))

theorem canonical_markFenced {c : CoreId} {reason : ℕ} (h : s.canonical = true) :
    (s.markFenced c reason).canonical = true :=
  canonical_setCoreState (canonical_setHint (canonical_setCore (canonical_setReg _ _ _ (canonical_setReg _ _ _ h))))

theorem canonical_fenceFor {c : CoreId} {why : ℕ} (h : s.canonical = true) : (s.fenceFor c why).canonical = true := by
  unfold State.fenceFor
  refine foldl_canonical (canonical_setCore h) fun t1 b2 ht3 => ?_
  split
  · exact canonical_requestSave ht3
  · exact ht3

theorem canonical_fenceReq {c : CoreId} (h : s.canonical = true) : (s.fenceReq c).canonical = true := by
  unfold State.fenceReq
  dsimp only
  split
  · exact canonical_ite (canonical_setCore h) (canonical_markFenced h)
  · exact canonical_ite h (canonical_fenceFor h)
  · exact h
  · exact h

theorem canonical_startPair {x : CtxId} {ptr : Word} {w : World} (h : s.canonical = true) :
    (s.startPair x ptr w).canonical = true := canonical_ite (canonical_startCtx h) h

end

end Sys2Proof.Laws
end

section
/-! SUPPORT. The canonical form under boundaries, the update engine, supplies, and reads of registers (spec/15, spec/19,
spec/23). -/

namespace Sys2Proof.Laws

open Sys2Proof Sys2Proof.Machine

section

variable {s : State}

theorem canonical_haltNow {x : CtxId} (h : s.canonical = true) : (s.haltNow x).canonical = true := canonical_upCtx h

theorem canonical_noteStops (h : s.canonical = true) : s.noteStops.canonical = true := h

theorem canonical_stopLoads (h : s.canonical = true) : s.stopLoads.canonical = true :=
  foldl_canonical h fun _ _ ht => canonical_upCtx ht

theorem canonical_heldFences (h : s.canonical = true) : s.heldFences.canonical = true :=
  foldl_canonical h fun _ _ ht => canonical_ite (canonical_markFenced ht) ht

theorem canonical_tideApply (h : s.canonical = true) : s.tideApply.canonical = true :=
  canonical_heldFences (canonical_directAll (foldl_canonical (canonical_tideDone (canonical_applyEntries
    (canonical_stopLoads h))) fun _ _ ht => canonical_tryBegin ht))

theorem canonical_tideStop (h : s.canonical = true) : s.tideStop.canonical = true :=
  canonical_ite (canonical_ite (canonical_tideApply (canonical_noteStops h)) (canonical_noteStops h)) h

theorem canonical_commitTide (h : s.canonical = true) : s.commitTide.canonical = true :=
  canonical_ite (canonical_tideDone h) (canonical_ite (canonical_tideStop (canonical_with h)) (foldl_canonical
    (canonical_ite (canonical_tideDone (canonical_setReg _ _ _ (canonical_with (canonical_applyEntries h))))
    (canonical_setReg _ _ _ (canonical_with (canonical_applyEntries h)))) fun _ _ ht => canonical_convert ht))

theorem canonical_tideWrite {r : Reg} {be : BitVec 4} {data : Word32} (h : s.canonical = true) :
    OptCanonical (s.tideWrite r be data) :=
  OptCanonical.ite trivial (OptCanonical.ite (canonical_stage h) (canonical_commitTide (canonical_stage h)))

theorem canonical_ueResult {code : ℕ} (h : s.canonical = true) : (s.ueResult code).canonical = true :=
  canonical_setUpd (canonical_setReg _ _ _ h)

theorem canonical_updShow {phase : ℕ} (h : s.canonical = true) : (s.updShow phase).canonical = true := canonical_setUpd h

theorem canonical_dropStage (h : s.canonical = true) : s.dropStage.canonical = true := h

theorem canonical_ueMove (h : s.canonical = true) : s.ueMove.canonical = true := h

theorem canonical_ueCmd {op : BitVec 4} (h : s.canonical = true) : (s.ueCmd op).canonical = true :=
  canonical_ite (canonical_ueResult h) (canonical_ite h (canonical_ite (canonical_ueResult h) (canonical_ite
    (canonical_updShow (canonical_ueMove (canonical_with (canonical_ite (canonical_dropStage h) h)))) (canonical_ueMove
    (canonical_with (canonical_ite (canonical_dropStage h) h))))))

theorem canonical_ueRecord {bad : ℕ} {r : List Byte} {phase : ℕ} (h : s.canonical = true) :
    (s.ueRecord bad r phase).canonical = true :=
  canonical_ite (canonical_ueResult (canonical_updShow (canonical_writeRecord h))) (canonical_ueResult
    (canonical_writeRecord h))

theorem canonical_ueWrite {c : UeOp} {bad : Option ℕ} (h : s.canonical = true) : (s.ueWrite c bad).canonical = true := by
  unfold State.ueWrite
  refine canonical_ite (canonical_ueResult h) (canonical_ite (canonical_ueResult h) ?_)
  dsimp only
  split
  · exact canonical_ueResult (canonical_programPages h)
  · exact canonical_ueResult (canonical_programPages h)
  · exact canonical_ueResult (canonical_consumeAll (canonical_fresh (canonical_programPages h)))

theorem canonical_ueStaged {m : MonImage} (h : s.canonical = true) : (s.ueStaged m).canonical = true :=
  canonical_with (canonical_setReg _ _ _ (canonical_setMeas h))

theorem canonical_ueVerifyWork {bad : ℕ} (h : s.canonical = true) : (s.ueVerifyWork bad).canonical = true := by
  -- what the check of the bank finds is an unknown: the kernel must not run it when it compares the branches
  obtain ⟨check, hc⟩ : ∃ check, State.verifyBank = check := ⟨_, rfl⟩
  obtain ⟨f, hf⟩ : ∃ f, State.ueVerifyWork = f := ⟨_, rfl⟩
  rw [hf]
  delta State.ueVerifyWork at hf
  rw [hc] at hf
  subst hf
  dsimp only
  split
  · exact canonical_ueResult h
  · exact canonical_ite
      (canonical_ite (canonical_ueResult h) (canonical_ueResult (canonical_updShow (canonical_ueStaged h))))
      (canonical_ite (canonical_ueResult (canonical_updShow (canonical_ueStaged (canonical_writeRecord h))))
        (canonical_ueResult (canonical_writeRecord h)))

theorem canonical_calSaveWork (h : s.canonical = true) : s.calSaveWork.canonical = true :=
  canonical_ueResult (canonical_calStore h)

theorem canonical_ueErase {bad : Option ℕ} (h : s.canonical = true) : (s.ueErase bad).canonical = true :=
  canonical_ite (canonical_ueResult (canonical_updShow (canonical_eraseBank h))) (canonical_ueResult (canonical_eraseBank
    h))

theorem canonical_ueDone {flash : FlashFault} (h : s.canonical = true) : (s.ueDone flash).canonical = true := by
  unfold State.ueDone
  dsimp only
  split
  · exact h
  · split
    · exact canonical_ueRecord h
    · exact canonical_ueErase h
    · exact canonical_ueWrite h
    · exact canonical_ueRecord h
    · exact canonical_ueVerifyWork h
    · exact canonical_ite (canonical_ueRecord h) (canonical_ueResult h)
    · exact canonical_ueRecord h
    · exact canonical_ueRecord h
    · exact canonical_calSaveWork h

theorem canonical_ueBlock (h : s.canonical = true) : s.ueBlock.canonical = true := by
  unfold State.ueBlock
  dsimp only
  split
  · exact canonical_ite (canonical_ueMove (canonical_eraseFlash _ _ _ h)) (canonical_ite h (canonical_ite (canonical_ueMove
      (canonical_with (canonical_programPages h))) h))
  · exact h

theorem canonical_ueTick (h : s.canonical = true) : s.ueTick.canonical = true :=
  canonical_ite h (canonical_ite (canonical_ueBlock (canonical_fresh h)) (canonical_fresh h))

theorem canonical_gather (h : s.canonical = true) : s.gather.canonical = true :=
  canonical_ite (canonical_with (canonical_fresh h)) h

theorem canonical_ucDisable (h : s.canonical = true) : s.ucDisable.canonical = true :=
  canonical_ite h (canonical_dropHooks (foldl_canonical (canonical_setReg _ _ _ (canonical_setReg _ _ _ (canonical_setReg _
    _ _ (canonical_setReg _ _ _ h)))) fun _ _ ht => canonical_setReg _ _ _ ht))

theorem canonical_updRequest {asks : Bool} {start : Bool} {abort : Bool} (h : s.canonical = true) :
    (s.updRequest asks start abort).canonical = true := canonical_setLine h

theorem canonical_droops {out : BitVec 6} (h : s.canonical = true) : (s.droops out).canonical = true :=
  canonical_ite h (canonical_noteDroop h)

theorem canonical_brownsOut {rail : BitVec 3} (h : s.canonical = true) : (s.brownsOut rail).canonical = true :=
  canonical_ite h (canonical_ite (canonical_droops h) (canonical_ite (canonical_abandonPulses (canonical_droops h))
    (canonical_chipReset (canonical_droops h))))

theorem canonical_refclkGood (h : s.canonical = true) : s.refclkGood.canonical = true := h

theorem canonical_clockLost {what : BitVec 2} (h : s.canonical = true) : (s.clockLost what).canonical = true :=
  canonical_ite h (canonical_ite (canonical_ite h (canonical_chipReset h)) (canonical_chipReset h))

theorem canonical_pllTick (h : s.canonical = true) : s.pllTick.canonical = true :=
  canonical_ite (canonical_ite (canonical_with (canonical_fresh h)) (canonical_fresh h)) h

theorem canonical_serdesLost (h : s.canonical = true) : s.serdesLost.canonical = true :=
  canonical_ite h (canonical_setLine (canonical_setHint (foldl_canonical h fun _ _ ht => canonical_ite
    (canonical_setLinkState ht) ht)))

theorem canonical_idle (h : s.canonical = true) : s.idle.canonical = true :=
  canonical_ite (canonical_pllTick h) (canonical_with (canonical_pllTick (canonical_ueTick (canonical_gather h))))

theorem canonical_vidMove {up : Bool} (h : s.canonical = true) : (s.vidMove up).canonical = true :=
  canonical_ite h (canonical_ite (canonical_ite h h) (canonical_ite h h))

theorem canonical_blow {a : ℕ} (h : s.canonical = true) : (s.blow a).canonical = true := h

theorem canonical_fuseResult {code : ℕ} (h : s.canonical = true) : (s.fuseResult code).canonical = true :=
  canonical_setReg _ _ _ h

theorem canonical_fuseStart {op : BitVec 3} {a : BitVec 12} {target : BitVec 3} (h : s.canonical = true) :
    (s.fuseStart op a target).canonical = true := by
  unfold State.fuseStart
  refine canonical_ite h ?_
  split
  · exact canonical_fuseResult h
  · exact h

theorem canonical_fuseDone {verified : Bool} (h : s.canonical = true) : (s.fuseDone verified).canonical = true :=
  canonical_ite h (canonical_ite (canonical_fuseResult h) (canonical_ite (canonical_fuseResult (canonical_blow h))
    (canonical_fuseResult (canonical_blow (canonical_blow h)))))

theorem canonical_readPair {q : Requester} {w : World} {lo : Reg} {high : Bool} (h : s.canonical = true) :
    (s.readPair q w lo high).2.canonical = true := by
  unfold State.readPair
  refine canonical_ite_snd ?_ h
  split
  · exact h
  · exact h

theorem canonical_updTaken {w : World} (h : s.canonical = true) : (s.updTaken w).canonical = true := canonical_ite h h

theorem canonical_regRead {q : Requester} {w : World} {r : Reg} (h : s.canonical = true) :
    (s.regRead q w r).2.canonical = true := by
  unfold State.regRead
  dsimp only
  split
  · exact canonical_ite_snd (canonical_with (canonical_fresh h)) h
  · exact canonical_updTaken h
  · split
    · exact canonical_readPair h
    · exact canonical_ite h (canonical_clrReg h)

end

end Sys2Proof.Laws
end

section
/-! SUPPORT. The canonical form under register writes, stores and accesses (spec/02, spec/13). -/

namespace Sys2Proof.Laws

open Sys2Proof Sys2Proof.Machine

section

variable {s : State}

theorem canonical_plainWrite {r : Reg} {be : BitVec 4} {d : Word32} (h : s.canonical = true) :
    (s.plainWrite r be d).canonical = true := canonical_setReg _ _ _ h

theorem canonical_maskedWrite {r : Reg} {be : BitVec 4} {mask : Word32} {d : Word32} (h : s.canonical = true) :
    (s.maskedWrite r be mask d).canonical = true := canonical_setReg _ _ _ h

theorem canonical_validClear {r : Reg} {be : BitVec 4} {d : Word32} (h : s.canonical = true) :
    (s.validClear r be d).canonical = true := canonical_ite (canonical_setReg _ _ _ h) h

theorem canonical_timerSet {x : CtxId} (h : s.canonical = true) : (s.timerSet x).canonical = true :=
  canonical_ite (canonical_setIrq h) h

theorem canonical_mbxWrite {be : BitVec 4} {d : Word32} (h : s.canonical = true) : (s.mbxWrite be d).canonical = true :=
  canonical_ite h (canonical_ite (canonical_replyNow (canonical_with (canonical_ite (canonical_setLine (canonical_with
    (canonical_plainWrite h))) (canonical_plainWrite h)))) (canonical_ite (canonical_setLine (canonical_with
    (canonical_plainWrite h))) (canonical_plainWrite h)))

theorem canonical_forBits {v : Word32} {f : State → ℕ → State}
    (h : ∀ t a, t.canonical = true → (f t a).canonical = true) (hs : s.canonical = true) :
    (forBits v f s).canonical = true := foldl_canonical hs fun _ _ ht => canonical_ite (h _ _ ht) ht

theorem canonical_takeStep {x : CtxId} (h : s.canonical = true) : (s.takeStep x).canonical = true :=
  canonical_ite (canonical_enter (canonical_upCtx h)) h

theorem canonical_takeDue {x : CtxId} (h : s.canonical = true) : (s.takeDue x).canonical = true := by
  unfold State.takeDue
  dsimp only
  split
  · exact canonical_ite (canonical_haltNow (canonical_upCtx (canonical_enter (canonical_upCtx h)))) (canonical_takeStep
      (canonical_upCtx (canonical_enter (canonical_upCtx h))))
  · exact canonical_takeStep h

theorem canonical_resumeCtx {x : CtxId} {step : Bool} (h : s.canonical = true) : (s.resumeCtx x step).canonical = true :=
  canonical_ite (canonical_takeDue (canonical_upCtx h)) (canonical_upCtx h)

theorem canonical_releaseWorld {w : World} (h : s.canonical = true) : (s.releaseWorld w).canonical = true :=
  foldl_canonical h fun _ _ ht => canonical_resumeCtx ht

theorem canonical_dbgWrite {be : BitVec 4} {d : Word32} (h : s.canonical = true) : (s.dbgWrite be d).canonical = true :=
  canonical_ite (canonical_ite (canonical_releaseWorld (canonical_ite (canonical_releaseWorld (canonical_setReg _ _ _ h))
    (canonical_setReg _ _ _ h))) (canonical_ite (canonical_releaseWorld (canonical_setReg _ _ _ h)) (canonical_setReg _ _ _
    h))) h

theorem canonical_saveOn {x : CtxId} {r : SaveReason} (h : s.canonical = true) : (s.saveOn x r).canonical = true := by
  unfold State.saveOn
  split
  · exact canonical_requestSave h
  · exact h

theorem canonical_dispatchWrite {c : CoreId} {be : BitVec 4} {d : Word32} (h : s.canonical = true) :
    (s.dispatchWrite c be d).canonical = true :=
  foldl_canonical (canonical_plainWrite h) fun _ _ ht => canonical_ite (canonical_saveOn ht) ht

theorem canonical_preemptWrite {c : CoreId} {be : BitVec 4} {d : Word32} (h : s.canonical = true) :
    (s.preemptWrite c be d).canonical = true := foldl_canonical h fun _ _ ht => canonical_ite (canonical_saveOn ht) ht

theorem canonical_cxWrite {w : World} {x : CtxId} {r : XReg} {be : BitVec 4} {d : Word32} (h : s.canonical = true) :
    (s.cxWrite w x r be d).canonical = true := by
  unfold State.cxWrite
  split
  · exact canonical_timerSet (canonical_maskedWrite h)
  · exact canonical_maskedWrite h
  · exact canonical_ite (canonical_setIrq h) h
  · exact canonical_ite (canonical_plainWrite h) h
  · exact h
  · exact h

theorem canonical_wdtWrite {be : BitVec 4} {d : Word32} (h : s.canonical = true) : (s.wdtWrite be d).canonical = true :=
  canonical_ite h (canonical_ite (canonical_with (canonical_setReg _ _ _ h)) (canonical_setReg _ _ _ h))

theorem canonical_wdtKick (h : s.canonical = true) : s.wdtKick.canonical = true := canonical_ite h h

theorem canonical_enclCommit {d : Word32} (h : s.canonical = true) : (s.enclCommit d).canonical = true :=
  canonical_ite (canonical_with (canonical_orReg h)) h

theorem canonical_enclReads (h : s.canonical = true) : s.enclReads.canonical = true := by
  unfold State.enclReads
  split
  · exact h
  · exact canonical_countPoison (canonical_fresh h)

theorem canonical_enclFails {c : ℕ} {n : ℕ} (h : s.canonical = true) : (s.enclFails c n).canonical = true :=
  canonical_setReg _ _ _ (canonical_ite h (canonical_enclReads h))

theorem canonical_enclDone (h : s.canonical = true) : s.enclDone.canonical = true := by
  unfold State.enclDone
  refine canonical_ite h (canonical_ite (canonical_ite h (canonical_with (canonical_setReg _ _ _ h))) ?_)
  dsimp only
  generalize ((List.range 2048).map (s.descriptor s.enclBase)).filter Descriptor.valid = ds
  generalize s.enclFailure ds = r
  cases r with
  | some p => exact canonical_enclFails h
  | none => exact canonical_ite h (canonical_with (canonical_setReg _ _ _ (canonical_enclReads h)))

theorem canonical_disposeResult {k : LinkId} {st : ℕ} {act : ℕ} {res : ℕ} (h : s.canonical = true) :
    (s.disposeResult k st act res).canonical = true := canonical_setReg _ _ _ h

theorem canonical_dispose {k : LinkId} {st : StationId} {act : ℕ} (h : s.canonical = true) :
    (s.dispose k st act).canonical = true := by
  unfold State.dispose
  refine canonical_ite (canonical_disposeResult h) ?_
  dsimp only
  split
  · exact canonical_disposeResult h
  · exact canonical_ite (canonical_ite (canonical_ite (canonical_disposeResult (canonical_startSettle (canonical_resend
      (canonical_upSite h)))) (canonical_disposeResult (canonical_upSite h))) (canonical_disposeResult h)) (canonical_ite
      (canonical_disposeResult (canonical_accept (canonical_upSite h))) (canonical_disposeResult h))

theorem canonical_stageLo {q : Requester} {lo : Reg} {be : BitVec 4} {d : Word32} (h : s.canonical = true) :
    (s.stageLo q lo be d).canonical = true := h

theorem canonical_dropLo {q : Requester} {lo : Reg} (h : s.canonical = true) : (s.dropLo q lo).canonical = true := h

theorem canonical_setPair {lo : Reg} {l : Word32} {hi : Word32} (h : s.canonical = true) :
    (s.setPair lo l hi).canonical = true := canonical_setReg _ _ _ (canonical_setReg _ _ _ h)

theorem canonical_installRing {n : SiteId} {l : Word32} {hi : Word32} (h : s.canonical = true) :
    (s.installRing n l hi).canonical = true :=
  canonical_tryBegin (canonical_upSite (canonical_setReg _ _ _ (canonical_setPair h)))

theorem canonical_applyPair {q : Requester} {w : World} {lo : Reg} {l : Word32} {hi : Word32} (h : s.canonical = true) :
    (s.applyPair q w lo l hi).canonical = true := by
  unfold State.applyPair
  dsimp only
  split
  · exact canonical_ite (canonical_with (canonical_setPair h)) h
  · exact canonical_ite (canonical_with (canonical_setPair h)) h
  iterate 5 · exact canonical_ite h (canonical_setPair h)
  · exact canonical_ite h (canonical_setCore (canonical_setPair h))
  · exact canonical_startPair h
  · exact canonical_startPair h
  · exact canonical_ite (canonical_installRing h) h
  · exact canonical_ite h (canonical_setPair h)
  · exact canonical_ite h (canonical_setPair h)
  · exact canonical_setPair h
  · exact canonical_timerSet (canonical_setPair h)
  iterate 4 · exact canonical_setPair h
  · exact h

theorem canonical_writePair {q : Requester} {w : World} {lo : Reg} {high : Bool} {be : BitVec 4} {d : Word32}
    (h : s.canonical = true) :
    (s.writePair q w lo high be d).2.canonical = true :=
  canonical_ite_snd (canonical_ite h (canonical_stageLo h)) (canonical_ite_snd h (canonical_ite_snd (canonical_dropLo h)
    (canonical_applyPair (canonical_dropLo h))))

theorem canonical_phaseWrite {be : BitVec 4} {d : Word32} (h : s.canonical = true) :
    (s.phaseWrite be d).canonical = true := canonical_ite (canonical_setPhase h) h

theorem canonical_nmiCtrlWrite {be : BitVec 4} {d : Word32} (h : s.canonical = true) :
    (s.nmiCtrlWrite be d).canonical = true := canonical_ite h (canonical_setReg _ _ _ h)

theorem canonical_cfgWrite {be : BitVec 4} {d : Word32} (h : s.canonical = true) : OptCanonical (s.cfgWrite be d) :=
  OptCanonical.ite trivial (canonical_ite (canonical_commitTide (canonical_ite (canonical_discardStaged h) h))
    (canonical_ite (canonical_discardStaged h) h))

theorem canonical_clkWrite {be : BitVec 4} {d : Word32} (h : s.canonical = true) : OptCanonical (s.clkWrite be d) :=
  OptCanonical.ite trivial (canonical_plainWrite h)

theorem canonical_gWrite {q : Requester} {w : World} {r : GReg} {be : BitVec 4} {d : Word32} (h : s.canonical = true) :
    OptCanonical (s.gWrite q w r be d) := by
  unfold State.gWrite
  dsimp only
  split
  · exact canonical_ite (canonical_phaseWrite h) h
  · exact canonical_validClear h
  · exact canonical_validClear h
  · exact canonical_mbxWrite h
  · exact canonical_cfgWrite h
  · exact canonical_ite (canonical_forBits (fun _ _ ht => canonical_releaseCore ht) h) h
  · exact canonical_forBits (fun _ _ ht => canonical_fenceReq ht) h
  · exact canonical_clkWrite h
  · exact canonical_ite (canonical_updRequest h) h
  · exact canonical_ite (canonical_nmiCtrlWrite h) h
  · exact canonical_thermCheck (canonical_plainWrite h)
  · exact canonical_plainWrite h

theorem canonical_sramWeirWrite {be : BitVec 4} {d : Word32} (h : s.canonical = true) :
    OptCanonical (s.sramWeirWrite be d) := OptCanonical.ite trivial (canonical_setReg _ _ _ h)

theorem canonical_fuseWrite {be : BitVec 4} {d : Word32} (h : s.canonical = true) :
    (s.fuseWrite be d).canonical = true := canonical_ite h (canonical_fuseStart (canonical_plainWrite h))

theorem canonical_secWaysWrite {be : BitVec 4} {d : Word32} (h : s.canonical = true) :
    (s.secWaysWrite be d).canonical = true := canonical_ite h (canonical_plainWrite h)

theorem canonical_scrubWrite {be : BitVec 4} {d : Word32} (h : s.canonical = true) :
    (s.scrubWrite be d).canonical = true := canonical_setReg _ _ _ h

theorem canonical_dWrite {w : World} {r : DReg} {be : BitVec 4} {d : Word32} (h : s.canonical = true) :
    OptCanonical (s.dWrite w r be d) := by
  unfold State.dWrite
  dsimp only
  split
  · exact canonical_maskedWrite h
  · exact canonical_maskedWrite h
  · exact canonical_ite (canonical_plainWrite h) h
  · exact canonical_secWaysWrite h
  · exact canonical_maskedWrite h
  · exact canonical_validClear h
  · exact canonical_scrubWrite h
  · exact canonical_sramWeirWrite h
  · exact canonical_enclCommit h
  · exact canonical_ite h (canonical_plainWrite h)
  · exact canonical_ite h (canonical_plainWrite h)
  · exact canonical_dbgWrite h
  · exact canonical_wdtWrite h
  · exact canonical_ite (canonical_wdtKick h) h
  · exact canonical_forBits (fun _ _ ht => canonical_returnCore ht) h
  · exact canonical_ueCmd h
  · exact canonical_ite (canonical_ucDisable h) h
  · exact canonical_fuseWrite h
  · exact canonical_plainWrite h

theorem canonical_cWrite {w : World} {c : CoreId} {r : CReg} {be : BitVec 4} {d : Word32} (h : s.canonical = true) :
    (s.cWrite w c r be d).canonical = true := by
  unfold State.cWrite
  split
  · exact canonical_dispatchWrite h
  · exact canonical_preemptWrite h
  · exact canonical_cxWrite h
  · exact canonical_plainWrite h

theorem canonical_bWrite {q : Requester} {w : World} {r : BReg} {be : BitVec 4} {d : Word32} (h : s.canonical = true) :
    (s.bWrite q w r be d).canonical = true := by
  unfold State.bWrite
  dsimp only
  split
  · exact canonical_ite (canonical_chipReset h) h
  · exact canonical_ite (canonical_plainWrite h) h
  · exact canonical_cxWrite h
  · exact h

theorem canonical_tailWrite {n : SiteId} {be : BitVec 4} {d : Word32} (h : s.canonical = true) :
    (s.tailWrite n be d).canonical = true := canonical_ite (canonical_tryBegin (canonical_setReg _ _ _ h)) h

theorem canonical_sWrite {n : SiteId} {r : SReg} {be : BitVec 4} {d : Word32} (h : s.canonical = true) :
    (s.sWrite n r be d).canonical = true := by
  unfold State.sWrite
  split
  · exact canonical_sbCtrlWrite h
  · exact canonical_tailWrite h
  · exact canonical_plainWrite h

theorem canonical_lWrite {k : LinkId} {r : LReg} {be : BitVec 4} {d : Word32} (h : s.canonical = true) :
    (s.lWrite k r be d).canonical = true := by
  unfold State.lWrite
  split
  · exact canonical_linkCtrlWritten (canonical_plainWrite h)
  · exact canonical_ite h (canonical_dispose h)
  · exact canonical_plainWrite h

theorem canonical_kWrite {r : KReg} {be : BitVec 4} {d : Word32} (h : s.canonical = true) :
    (s.kWrite r be d).canonical = true := by
  unfold State.kWrite
  split
  · exact canonical_ite (canonical_retryAll (canonical_validClear h)) h
  · exact canonical_skipAll (canonical_plainWrite h)
  · exact canonical_plainWrite h

theorem canonical_tWrite {r : TReg} {be : BitVec 4} {d : Word32} (h : s.canonical = true) :
    (s.tWrite r be d).canonical = true := by
  unfold State.tWrite
  split
  · exact canonical_timerSet (canonical_plainWrite h)
  · exact canonical_plainWrite h

theorem canonical_liveWrite {q : Requester} {w : World} {r : Reg} {be : BitVec 4} {d : Word32} (h : s.canonical = true)
    :
    OptCanonical (s.liveWrite q w r be d) := by
  unfold State.liveWrite
  split
  · exact canonical_gWrite h
  · exact canonical_dWrite h
  · exact canonical_cWrite h
  · exact canonical_bWrite h
  · exact canonical_sWrite h
  · exact canonical_lWrite h
  · exact canonical_kWrite h
  · exact h
  · exact canonical_tWrite h

theorem canonical_tideEmpty (h : s.canonical = true) : OptCanonical s.tideEmpty := OptCanonical.ite trivial h

theorem canonical_regWrite {q : Requester} {w : World} {r : Reg} {be : BitVec 4} {d : Word32} (h : s.canonical = true) :
    (s.regWrite q w r be d).2.canonical = true := by
  unfold State.regWrite
  split
  · exact canonical_writePair h
  · have hs : OptCanonical (some s) := h
    refine canonical_ite_snd h ?_
    split
    · exact h
    · next t he =>
      obtain ⟨s1, h1, h2⟩ := Option.bind_eq_some_iff.1 he
      have hs1 : OptCanonical (some s1) :=
        OptCanonical.of_some (OptCanonical.ite (OptCanonical.ite (canonical_tideEmpty h) (canonical_tideWrite h)) hs) h1
      exact OptCanonical.of_some (OptCanonical.ite hs1 (canonical_liveWrite hs1)) h2

theorem canonical_storeFail {x : CtxId} {addr : ℕ} {w : World} {cause : BitVec 8} (h : s.canonical = true) :
    (s.storeFail x addr w cause).canonical = true := canonical_setErrAddr (canonical_upCtx h)

theorem canonical_performMem {x : CtxId} {e : StoreEntry} (h : s.canonical = true) :
    (s.performMem x e).canonical = true := by
  unfold State.performMem
  split
  · exact canonical_storeWrite h
  · exact canonical_storeFail (canonical_integRec _ _ _ _ _ _ (canonical_storeWrite h))

theorem canonical_performReg {x : CtxId} {e : StoreEntry} (h : s.canonical = true) :
    (s.performReg x e).canonical = true := by
  unfold State.performReg
  dsimp only
  split
  · exact canonical_storeFail h
  · exact h
  · exact canonical_ite (canonical_regWrite h) (canonical_storeFail (canonical_regWrite h))

theorem canonical_perform {x : CtxId} {e : StoreEntry} (h : s.canonical = true) : (s.perform x e).canonical = true :=
  canonical_ite (canonical_storeFail h) (canonical_ite (canonical_performReg h) (canonical_performMem h))

theorem canonical_performNext {x : CtxId} (h : s.canonical = true) : (s.performNext x).canonical = true := by
  unfold State.performNext
  split
  · exact h
  · exact canonical_perform (canonical_upCtx h)

theorem canonical_performMany {n : ℕ} {x : CtxId} (h : s.canonical = true) : (s.performMany n x).canonical = true := by
  induction n generalizing s with
  | zero => exact h
  | succ n ih => exact ih (canonical_performNext h)

theorem canonical_drain {x : CtxId} (h : s.canonical = true) : (s.drain x).canonical = true := canonical_performMany h

theorem canonical_drained {x : CtxId} {f : State → State} (h : s.canonical = true)
    (hf : ∀ t, t.canonical = true → (f t).canonical = true) :
    (s.drained x f).canonical = true := canonical_ite (canonical_drain h) (hf _ (canonical_drain h))

theorem canonical_drainFor {x : CtxId} {a : ℕ} (h : s.canonical = true) : (s.drainFor x a).canonical = true :=
  canonical_ite (canonical_drain h) h

theorem canonical_done {v : Word32} (h : s.canonical = true) : (s.done v).canonical = true := h

theorem canonical_busErr {addr : ℕ} {code : ℕ} {write : Bool} {be : BitVec 4} {lanes : ℕ} {performed : Bool}
    (h : s.canonical = true) :
    (s.busErr addr code write be lanes performed).canonical = true :=
  canonical_with (canonical_setLine (canonical_setHint (canonical_ite (canonical_setReg _ _ _ h) (canonical_setReg _ _ _
    (canonical_setReg _ _ _ h)))))

theorem canonical_aperError {addr : ℕ} {o : ℕ} {code : ℕ} {write : Bool} {be : BitVec 4} (h : s.canonical = true) :
    (s.aperError addr o code write be).canonical = true := canonical_busErr (canonical_ite (canonical_usePoison h) h)

theorem canonical_aperRead {o : ℕ} (h : s.canonical = true) : (s.aperRead o).canonical = true :=
  canonical_done (canonical_touch _ _ _ _ h)

theorem canonical_h2dStore {o : ℕ} {be : BitVec 4} {d : Word32} (h : s.canonical = true) :
    (s.h2dStore o be d).canonical = true := h

theorem canonical_mbxStore {o : ℕ} {be : BitVec 4} {d : Word32} (h : s.canonical = true) :
    (s.mbxStore o be d).canonical = true :=
  canonical_ite (canonical_done (canonical_integRec _ _ _ _ _ _ (canonical_bumpSat (canonical_fresh h)))) (canonical_done
    (canonical_h2dStore h))

theorem canonical_mbxRead {wa : ℕ} {o : ℕ} {be : BitVec 4} {v : Word32} (h : s.canonical = true) :
    (s.mbxRead wa o be v).canonical = true :=
  canonical_ite (canonical_busErr (canonical_integRec _ _ _ _ _ _ (canonical_bumpSat (canonical_fresh h)))) (canonical_done
    h)

theorem canonical_hostReg {addr : ℕ} {r : Reg} {be : BitVec 4} {d : Word32} (h : s.canonical = true) :
    (s.hostReg addr r be d).canonical = true :=
  canonical_ite (canonical_busErr h) (canonical_ite (canonical_done h) (canonical_ite (canonical_done (canonical_regWrite
    h)) (canonical_busErr (canonical_regWrite h))))

theorem canonical_hostWrite {a : Access} {addr : ℕ} {d : Word32} (h : s.canonical = true) :
    (s.hostWrite a addr d).canonical = true := by
  unfold State.hostWrite
  refine canonical_ite h (canonical_ite (canonical_busErr h) (canonical_ite (canonical_busErr h) ?_))
  split
  · exact canonical_done h
  · exact canonical_hostReg h
  · exact canonical_ite (canonical_busErr h) (canonical_mbxStore h)
  · exact canonical_busErr h
  · split
    · exact canonical_aperError h
    · exact canonical_done (canonical_aperStore _ _ _ _ h)

theorem canonical_hostRead {a : Access} {addr : ℕ} (h : s.canonical = true) : (s.hostRead a addr).canonical = true := by
  unfold State.hostRead
  refine canonical_ite h (canonical_ite (canonical_busErr h) ?_)
  dsimp only
  split
  · exact canonical_done h
  · exact canonical_done (canonical_regRead h)
  · exact canonical_ite (canonical_mbxRead h) (canonical_busErr h)
  · exact canonical_ite (canonical_busErr h) (canonical_ite (canonical_mbxRead h) (canonical_done h))
  · split
    · exact canonical_aperError h
    · exact canonical_aperRead h

theorem canonical_hostTimeout {a : Access} {addr : ℕ} {write : Bool} {issued : Bool} {d : Word32}
    (h : s.canonical = true) :
    (s.hostTimeout a addr write issued d).canonical = true := by
  unfold State.hostTimeout
  dsimp only
  split
  · refine canonical_ite (canonical_hostWrite h) (canonical_ite h (canonical_ite (canonical_busErr h) (canonical_ite
      (canonical_busErr h) ?_)))
    split
    · exact canonical_aperError h
    · exact canonical_busErr (canonical_ite (canonical_aperStore _ _ _ _ h) (canonical_ite (canonical_touch _ _ _ _ h) h))
  · exact canonical_ite (canonical_hostWrite h) (canonical_hostRead h)

theorem canonical_violate {x : CtxId} {a : ℕ} {write : Bool} (h : s.canonical = true) :
    (s.violate x a write).canonical = true := canonical_raise (canonical_fresh h)

theorem canonical_ctxWrite {x : CtxId} {a : ℕ} {d : Word32} (h : s.canonical = true) :
    (s.ctxWrite x a d).canonical = true := canonical_ite (canonical_violate h) (canonical_perform (canonical_drain h))

theorem canonical_ctxRead {x : CtxId} {a : ℕ} (h : s.canonical = true) : (s.ctxRead x a).canonical = true := by
  unfold State.ctxRead
  refine canonical_ite (canonical_raise h) (canonical_ite (canonical_violate h) ?_)
  dsimp only
  split
  · exact h
  · exact canonical_done h
  · exact canonical_done (canonical_regRead (canonical_drainFor h))

theorem canonical_daeRegWrite {a : ℕ} {d : Word32} (h : s.canonical = true) : (s.daeRegWrite a d).canonical = true := by
  unfold State.daeRegWrite
  refine canonical_ite h ?_
  split
  · exact h
  · exact h
  · exact canonical_regWrite h

theorem canonical_daeRegRead {a : ℕ} (h : s.canonical = true) : (s.daeRegRead a).canonical = true := by
  unfold State.daeRegRead
  refine canonical_ite h ?_
  dsimp only
  split
  · exact h
  · exact canonical_done h
  · exact canonical_done (canonical_regRead h)

theorem canonical_accessWrite {a : Access} {addr : PhysAddr} {d : Word32} (h : s.canonical = true) :
    (s.accessWrite a addr d).canonical = true := by
  unfold State.accessWrite
  split
  · exact canonical_hostWrite h
  · exact canonical_ctxWrite h
  · exact canonical_daeRegWrite h

theorem canonical_accessRead {a : Access} {addr : PhysAddr} (h : s.canonical = true) :
    (s.accessRead a addr).canonical = true := by
  unfold State.accessRead
  split
  · exact canonical_hostRead h
  · exact canonical_ctxRead h
  · exact canonical_daeRegRead h

theorem canonical_writeReg {a : Access} {r : Reg} {d : Word32} (h : s.canonical = true) :
    (s.writeReg a r d).canonical = true := by
  unfold State.writeReg
  split
  · exact h
  · exact canonical_accessWrite h

theorem canonical_readReg {a : Access} {r : Reg} (h : s.canonical = true) : (s.readReg a r).canonical = true := by
  unfold State.readReg
  split
  · exact h
  · exact canonical_accessRead h

end

end Sys2Proof.Laws
end

section
/-! SUPPORT. The canonical form under the commands that are no instructions. -/

namespace Sys2Proof.Laws

open Sys2Proof Sys2Proof.Machine

section

variable {s : State}

theorem canonical_execRcRead {a : Access} {addr : PhysAddr} (h : s.canonical = true) :
    OutCanonical (execRcRead a addr s) := by
  unfold execRcRead
  split
  · exact h
  · exact canonical_ite h (canonical_accessRead h)

theorem canonical_execValidClear {a : Access} {addr : PhysAddr} {data : Word32} (h : s.canonical = true) :
    OutCanonical (execValidClear a addr data s) := by
  unfold execValidClear
  split
  · exact h
  · exact canonical_ite (canonical_accessWrite h) h

theorem canonical_execMailboxRead {a : Access} {addr : PhysAddr} {found : WordFound} (h : s.canonical = true) :
    OutCanonical (execMailboxRead a addr found s) := by
  unfold execMailboxRead
  refine canonical_ite (canonical_ite ?_ (canonical_accessRead h)) h
  split
  · exact canonical_accessRead h
  · exact canonical_accessRead (canonical_bumpSat h)
  · exact canonical_busErr (canonical_mbxFound h)

theorem canonical_monOpen (h : s.canonical = true) : s.monOpen.canonical = true := canonical_ite h h

theorem canonical_enterStoreErr {x : CtxId} {w : World} {e : StoreErr} (h : s.canonical = true) :
    (s.enterStoreErr x w e).canonical = true := canonical_enter (canonical_upCtx h)

theorem canonical_trySave {n : SiteId} {r : SaveReason} (h : s.canonical = true) : (s.trySave n r).canonical = true := by
  unfold State.trySave
  refine canonical_ite ?_ h
  dsimp only
  split
  · exact canonical_ite (canonical_enterStoreErr (canonical_drain h)) (canonical_saveTenant (canonical_drain h))
  · exact canonical_saveTenant (canonical_drain h)

theorem canonical_fenceSave {x : CtxId} (h : s.canonical = true) : (s.fenceSave x).canonical = true := by
  unfold State.fenceSave
  split
  · exact canonical_trySave h
  · exact h

theorem canonical_fenceDone {c : CoreId} (h : s.canonical = true) : (s.fenceDone c).canonical = true :=
  canonical_ite (canonical_ite (foldl_canonical h fun _ _ ht => canonical_fenceSave ht) (canonical_markFenced
    (foldl_canonical (foldl_canonical (foldl_canonical h fun _ _ ht => canonical_fenceSave ht) fun _ _ ht => canonical_drain
    ht) fun _ _ ht => canonical_freeCtx ht))) h

theorem canonical_execAssignWrite {a : Access} {addr : PhysAddr} {data : Word32} (h : s.canonical = true) :
    OutCanonical (execAssignWrite a addr data s) := by
  unfold execAssignWrite
  split
  · exact h
  · exact canonical_ite (canonical_accessWrite h) h

theorem canonical_enterAsync {x : CtxId} {v : ℕ} {w : World} (h : s.canonical = true) :
    (s.enterAsync x v w).canonical = true := canonical_enter h

theorem canonical_nmiCore {c : CoreId} (h : s.canonical = true) : (s.nmiCore c).canonical = true := by
  unfold State.nmiCore
  refine canonical_ite ?_ h
  dsimp only
  split
  · exact canonical_upCtx h
  · exact canonical_setCore h

theorem canonical_execInterruptEntry {x : CtxId} {u : Upset} (h : s.canonical = true) :
    OutCanonical (execInterruptEntry x u s) := by
  unfold execInterruptEntry
  refine canonical_withUpset h fun t1 ht2 => canonical_ite ?_ ht2
  split
  · exact ht2
  · exact canonical_tideStop (canonical_enterAsync ht2)

theorem canonical_execBusErrorEntry {x : CtxId} {u : Upset} (h : s.canonical = true) :
    OutCanonical (execBusErrorEntry x u s) := by
  unfold execBusErrorEntry
  refine canonical_withUpset h fun t1 ht2 => ?_
  split
  · exact ht2
  · exact canonical_tideStop (canonical_enterStoreErr ht2)

theorem canonical_storeParity {x : CtxId} (h : s.canonical = true) : (s.storeParity x).canonical = true := by
  unfold State.storeParity
  split
  · exact h
  · exact canonical_storeFail (canonical_integRec _ _ _ _ _ _ (canonical_upCtx h))

theorem canonical_execDispatchLoad {cl : BitVec 2} {u : Upset} (h : s.canonical = true) :
    OutCanonical (execDispatchLoad cl u s) := by
  unfold execDispatchLoad
  refine canonical_ite h ?_
  split
  · exact canonical_convertDue h
  · exact canonical_withUpset (canonical_convertDue h) fun _ ht => canonical_loadTenant ht

theorem canonical_execTenantSave {n : SiteId} {u : Upset} (h : s.canonical = true) :
    OutCanonical (execTenantSave n u s) := by
  unfold execTenantSave
  split
  · exact h
  · exact canonical_ite h (canonical_withUpset h fun _ ht => canonical_trySave ht)

theorem canonical_scrubPoison {a : ℕ} (h : s.canonical = true) : (s.scrubPoison a).canonical = true :=
  canonical_integRec _ _ _ _ _ _ (canonical_bumpSat h)

theorem canonical_scrubWord {a : ℕ} {outcome : BitVec 2} {apart : Bool} (h : s.canonical = true) :
    (s.scrubWord a outcome apart).canonical = true := by
  unfold State.scrubWord
  refine canonical_ite (canonical_scrubPoison h) ?_
  split
  · exact h
  · exact canonical_bumpSat h
  · exact canonical_ite (canonical_noteUe h) (canonical_ueFound h)
  · exact canonical_ite h (canonical_ite (canonical_scrubPoison h) (canonical_scrubPoison (canonical_poisonWord _ _ h)))

theorem canonical_setSignal {k : LinkId} {b : Bool} (h : s.canonical = true) : (s.setSignal k b).canonical = true :=
  canonical_setLink h

theorem canonical_execSignalLost {k : LinkId} (h : s.canonical = true) : OutCanonical (execSignalLost k s) := by
  unfold execSignalLost
  split
  · exact canonical_setLinkState (canonical_setSignal h)
  · exact canonical_setLinkState (canonical_setSignal h)
  · exact canonical_setSignal h
  · exact canonical_setSignal h
  · exact canonical_setSignal h

theorem canonical_frameIn {k : LinkId} {f : RxFrame} (h : s.canonical = true) : (s.frameIn k f).canonical = true :=
  canonical_bootGo (canonical_receive h)

theorem canonical_zeroJournalSlot {n : SiteId} (h : s.canonical = true) : (s.zeroJournalSlot n).canonical = true :=
  canonical_ite (canonical_agentWrite _ _ _ h) (canonical_cwReq h)

theorem canonical_endRevoked {n : SiteId} {a : Machine.Append} (h : s.canonical = true) :
    (s.endRevoked n a).canonical = true := by
  unfold State.endRevoked
  dsimp only
  split
  · exact canonical_beginNext (foldl_canonical (canonical_upSite (canonical_zeroJournalSlot h)) fun _ _ ht =>
      canonical_doorbell ht)
  · exact canonical_beginNext (canonical_upSite (canonical_zeroJournalSlot h))

theorem canonical_appendDone {n : SiteId} {a : Machine.Append} {o : OpCopy} (h : s.canonical = true) :
    (s.appendDone n a o).canonical = true :=
  canonical_ite (canonical_endRevoked h) (canonical_ite (canonical_cwReq h) (canonical_ite (canonical_ite
    (canonical_makeVisible (canonical_drawBytes h)) h) (canonical_makeVisible h)))

theorem canonical_mendRecord {w : ℕ} (h : s.canonical = true) : (s.mendRecord w).canonical = true :=
  canonical_integRec _ _ _ _ _ _ (canonical_fresh h)

theorem canonical_execAppendComplete {n : SiteId} {u : Upset} (h : s.canonical = true) :
    OutCanonical (execAppendComplete n u s) := by
  unfold execAppendComplete
  split
  · exact h
  · split
    · exact h
    · exact foldl_canonical (canonical_withUpset h fun _ ht => canonical_appendDone ht) fun _ _ ht => canonical_mendRecord
        ht

theorem canonical_kload {t : SiteId} {rest : List SiteId} (h : s.canonical = true) : (s.kload t rest).canonical = true := by
  unfold State.kload
  dsimp only
  split
  · exact h
  · exact canonical_retry (canonical_loadKey h)

theorem canonical_execKloadDone {u : Upset} (h : s.canonical = true) : OutCanonical (execKloadDone u s) := by
  unfold execKloadDone
  split
  · exact h
  · exact canonical_withUpset h fun _ ht => canonical_kload ht

theorem canonical_execCounterResidueRetry {n : SiteId} (h : s.canonical = true) :
    OutCanonical (execCounterResidueRetry n s) := by
  unfold execCounterResidueRetry
  dsimp only
  split
  · exact h
  · exact canonical_ite (canonical_integRec _ _ _ _ _ _ (canonical_fresh h)) h

theorem canonical_entropyLost (h : s.canonical = true) : s.entropyLost.canonical = true :=
  canonical_setLine (canonical_setHint h)

theorem canonical_sensors {t : Therm} (h : s.canonical = true) : (s.sensors t).canonical = true :=
  canonical_ite (canonical_chipReset h) (canonical_thermSense h)

theorem canonical_ueWriteCmd {a : Access} {op : ℕ} (h : s.canonical = true) : (s.ueWriteCmd a op).canonical = true :=
  canonical_writeReg h

theorem canonical_execKvaultWrite {a : Access} {addr : PhysAddr} {data : Word32} (h : s.canonical = true) :
    OutCanonical (execKvaultWrite a addr data s) := by
  unfold execKvaultWrite
  split
  iterate 4 · exact canonical_accessWrite h
  · exact h

end

end Sys2Proof.Laws
end

section
/-! SUPPORT. The canonical form under the fetch, the maintenance port and retirement (spec/05, spec/10, spec/22). -/

namespace Sys2Proof.Laws

open Sys2Proof Sys2Proof.Machine

section

variable {s : State}

theorem canonical_withOpnds {e : Env} {i : Ins} {f : List Val → List (BitVec 5 × Word) → XR Done}
    (h : s.canonical = true) (hf : ∀ a b, EffCanonical (f a b)) :
    EffCanonical (withOpnds e i s f) := by
  unfold withOpnds
  split
  · exact h
  · exact hf _ _

theorem canonical_setRegs {e : Env} {us : List (BitVec 5 × Word)} {f : Ctx → Ctx} : DoneCanonical (setRegs e us f) :=
  fun _ ht => canonical_upCtx ht

theorem canonical_fetchStop {x : CtxId} {e : FetchEnd} (h : s.canonical = true) : OptExcCanonical (s.fetchStop x e) := by
  unfold State.fetchStop
  split
  · exact trivial
  · exact h
  · exact canonical_poisonHit h

theorem canonical_leaveRom {x : CtxId} {pa : ℕ} (h : s.canonical = true) : (s.leaveRom x pa).canonical = true :=
  canonical_ite (canonical_lockRom h) h

theorem canonical_fetchPage {x : CtxId} {va : ℕ} {n : ℕ} (h : s.canonical = true) : XRCanonical (s.fetchPage x va n) :=
  XRCanonical.bind (canonical_xlate h) fun _ _ ht => canonical_ite (canonical_ite_snd (canonical_fresh (canonical_leaveRom
    ht)) (canonical_leaveRom ht)) (canonical_touch _ _ _ _ (canonical_ite_snd (canonical_fresh (canonical_leaveRom ht))
    (canonical_leaveRom ht)))

theorem canonical_captureW {bs : List Byte} (h : s.canonical = true) : (s.captureW bs).2.canonical = true :=
  canonical_ite_snd h (canonical_freshBytes h)

theorem canonical_captureForm {wform : Bool} {bs : List Byte} {n : ℕ} (h : s.canonical = true) :
    (s.captureForm wform bs n).2.canonical = true := canonical_ite_snd (canonical_captureW h) h

theorem canonical_clearArrived {e : Option ℕ} (h : s.canonical = true) : (s.clearArrived e).canonical = true := by
  unfold State.clearArrived
  split
  · exact h
  · exact canonical_clearExit h

theorem canonical_onState {α : Type} {r : XR α} {f : State → State} (h : XRCanonical r)
    (hf : ∀ t, t.canonical = true → (f t).canonical = true) :
    XRCanonical (XR.onState r f) := by
  cases r with
  | ok a s => exact hf _ h
  | exc e s => exact hf _ h

theorem canonical_decoded {c : Ctx} {pa : ℕ} {bs : List Byte} (h : s.canonical = true) :
    OptXRCanonical (s.decoded c pa bs) := by
  unfold State.decoded
  dsimp only
  split
  · exact trivial
  · exact canonical_captureForm (canonical_clearArrived h)
  · exact canonical_clearArrived (canonical_captureForm h)

theorem canonical_fetchOver {x : CtxId} {pa : ℕ} {n : ℕ} {left : ℕ} (h : s.canonical = true) :
    XRCanonical (s.fetchOver x pa n left) :=
  canonical_onState (canonical_fetchPage (canonical_ite (canonical_upCtx h) h)) fun _ ht => canonical_upCtx ht

theorem canonical_fetchSecond {x : CtxId} {pa : ℕ} {n : ℕ} {left : ℕ} {bs : List Byte} (h : s.canonical = true) :
    XRCanonical (s.fetchSecond x pa n left bs) := by
  unfold State.fetchSecond
  refine XRCanonical.bind (canonical_fetchOver h) fun a1 t2 ht3 => ?_
  split
  · rename_i e6
    exact OptXRCanonical.of_some (canonical_decoded ht3) e6
  · split
    · rename_i e11
      exact OptExcCanonical.of_some (canonical_fetchStop ht3) e11
    · exact ht3

theorem canonical_fetch {x : CtxId} (h : s.canonical = true) : XRCanonical (s.fetch x) := by
  unfold State.fetch
  refine XRCanonical.ite h (XRCanonical.bind (canonical_fetchPage h) fun a1 t2 ht3 => ?_)
  split
  · rename_i e6
    exact OptXRCanonical.of_some (canonical_decoded ht3) e6
  · split
    · rename_i e11
      exact OptExcCanonical.of_some (canonical_fetchStop ht3) e11
    · exact canonical_fetchSecond ht3

theorem canonical_setPort {f : Port → Port} (h : s.canonical = true) : (s.setPort f).canonical = true := h

theorem canonical_cutPulse (h : s.canonical = true) : s.cutPulse.canonical = true :=
  canonical_ite (canonical_setPort (canonical_tearFuse h)) h

theorem canonical_loadIr {i : PortIns} (h : s.canonical = true) : (s.loadIr i).canonical = true :=
  canonical_ite (canonical_chipReset (canonical_setPort (canonical_cutPulse h))) (canonical_setPort (canonical_cutPulse h))

theorem canonical_capture {v : ℕ} (h : s.canonical = true) : (s.capture v).canonical = true := canonical_setPort h

theorem canonical_scanBoundary {pins : ℕ} {update : ℕ} (h : s.canonical = true) :
    (s.scanBoundary pins update).canonical = true := canonical_setPort (canonical_capture h)

theorem canonical_abandonDae (h : s.canonical = true) : s.abandonDae.canonical = true :=
  canonical_ite (canonical_setPort (canonical_fresh h)) h

theorem canonical_progRequest {a : BitVec 12} (h : s.canonical = true) : (s.progRequest a).canonical = true := by
  unfold State.progRequest
  split
  · exact canonical_setPort h
  · exact canonical_setPort h

theorem canonical_sortBlow {i : ℕ} {n : ℕ} (h : s.canonical = true) : (s.sortBlow i n).canonical = true := by
  induction n generalizing s i with
  | zero => exact h
  | succ n ih => exact ih (canonical_ite (canonical_blow (canonical_fresh h)) (canonical_fresh h))

theorem canonical_sortRun {edges : ℕ} (h : s.canonical = true) : (s.sortRun edges).canonical = true :=
  canonical_ite (canonical_setPort h) (canonical_with (canonical_ite (canonical_tearFuse (canonical_sortBlow h))
    (canonical_sortBlow h)))

theorem canonical_lcAdvRun {target : ℕ} {edges : ℕ} (h : s.canonical = true) :
    (s.lcAdvRun target edges).canonical = true :=
  canonical_ite (canonical_setPort h) (canonical_setPort (canonical_ite (canonical_blow (canonical_ite (canonical_blow h)
    (canonical_ite h (canonical_tearFuse h)))) (canonical_ite (canonical_ite (canonical_blow h) (canonical_ite h
    (canonical_tearFuse h))) (canonical_tearFuse (canonical_ite (canonical_blow h) (canonical_ite h (canonical_tearFuse
    h)))))))

theorem canonical_daeEnd {result : ℕ} {rdata : ℕ} (h : s.canonical = true) : (s.daeEnd result rdata).canonical = true :=
  canonical_setPort h

theorem canonical_daePoison {q : DaeReq} (h : s.canonical = true) : (s.daePoison q).canonical = true :=
  canonical_ite (canonical_integRec _ _ _ _ _ _ (canonical_bumpSat (canonical_fresh h))) (canonical_usePoison
    (canonical_fresh h))

theorem canonical_daeMem {q : DaeReq} (h : s.canonical = true) : (s.daeMem q).canonical = true :=
  canonical_ite (canonical_ite (canonical_daeEnd (canonical_daePoison h)) (canonical_daeEnd h)) (canonical_ite
    (canonical_daeEnd (canonical_daePoison h)) (canonical_ite (canonical_daeEnd (canonical_memWrite _ _ _ h))
    (canonical_daeEnd h)))

theorem canonical_daeDev {q : DaeReq} (h : s.canonical = true) : (s.daeDev q).canonical = true := by
  unfold State.daeDev
  dsimp only
  split
  · exact canonical_daeEnd h
  · exact canonical_daeEnd h
  · exact canonical_ite (canonical_daeEnd (canonical_regWrite h)) (canonical_daeEnd (canonical_regRead h))

theorem canonical_daeWindow {q : DaeReq} (h : s.canonical = true) : (s.daeWindow q).canonical = true :=
  canonical_ite (canonical_daeEnd h) (canonical_ite (canonical_daeEnd h) (canonical_ite (canonical_daeEnd h) (canonical_ite
    (canonical_daeEnd h) (canonical_ite (canonical_daeEnd h) (canonical_ite (canonical_daeEnd (canonical_upCtx h))
    (canonical_daeEnd h))))))

theorem canonical_daeIssue (h : s.canonical = true) : s.daeIssue.canonical = true := by
  unfold State.daeIssue
  refine canonical_ite (canonical_daeWindow h) ?_
  split
  · exact canonical_daeEnd h
  · exact canonical_ite (canonical_daeDev h) (canonical_daeMem h)

theorem canonical_dbgCtrl {n : BitVec 7} {f : State → CtxId → State} (h : s.canonical = true)
    (hf : ∀ t a, t.canonical = true → (f t a).canonical = true) :
    (s.dbgCtrl n f).canonical = true :=
  canonical_ite (hf _ _ (canonical_setPort (canonical_capture (canonical_loadIr h)))) (canonical_setPort (canonical_capture
    (canonical_loadIr h)))

theorem canonical_keepFirst {best : Option (Exc × State)} {e : Exc × State} (h : OptExcCanonical best)
    (he : e.2.canonical = true) :
    OptExcCanonical (keepFirst best e) := by
  cases best with
  | none => exact he
  | some b => exact OptExcCanonical.ite he h

theorem canonical_evalAll {f : Ins → State → XR Done} {best : Option (Exc × State)} {is : List Ins}
    (h : ∀ a t, t.canonical = true → EffCanonical (f a t)) (hbest : OptExcCanonical best) (hs : s.canonical = true) :
    DonesCanonical (evalAll f best is s) := by
  induction is generalizing best s with
  | nil =>
    cases best with
    | none => exact ⟨fun d hd => absurd hd (List.not_mem_nil), hs⟩
    | some b => exact hbest
  | cons i t ih =>
    have hi := h i s hs
    unfold evalAll
    split
    · next e s' he =>
      exact ih (canonical_keepFirst hbest (show (e, s').2.canonical = true from EffCanonical.of_exc hi he)) hs
    · next d s' he =>
      obtain ⟨hd, hs'⟩ := EffCanonical.of_ok hi he
      have ht := ih (s := s') hbest hs'
      revert ht
      cases evalAll f best t s' with
      | ok l s2 => exact fun ht => ⟨List.forall_mem_cons.2 ⟨hd, ht.1⟩, ht.2⟩
      | exc e s2 => exact id

theorem canonical_noteStep {x : CtxId} {c0 : Ctx} {own : Option ℕ} (h : s.canonical = true) :
    (s.noteStep x c0 own).canonical = true := canonical_ite (canonical_upCtx h) h

theorem canonical_stepEnded {x : CtxId} (h : s.canonical = true) : (s.stepEnded x).canonical = true :=
  canonical_ite (canonical_upCtx h) h

theorem canonical_boundary {x : CtxId} (h : s.canonical = true) : (s.boundary x).canonical = true :=
  canonical_ite h (canonical_ite (canonical_haltNow (canonical_stepEnded h)) (canonical_takeDue (canonical_stepEnded h)))

theorem canonical_commitAll {x : CtxId} {f : Fetched} {ds : List Done} (h : s.canonical = true)
    (hds : ∀ d ∈ ds, DoneCanonical d) :
    (s.commitAll x f ds).canonical = true := foldl_canonical_mem (canonical_upCtx h) hds

theorem canonical_afterCommit {x : CtxId} {c0 : Ctx} {f : Fetched} {ds : List Done} (h : s.canonical = true) :
    (s.afterCommit x c0 f ds).canonical = true := canonical_boundary (canonical_noteStep (canonical_upCtx h))

theorem canonical_retire {x : CtxId} {c0 : Ctx} {f : Fetched} {ds : List Done} (h : s.canonical = true)
    (hds : ∀ d ∈ ds, DoneCanonical d) :
    (s.retire x c0 f ds).canonical = true :=
  canonical_ite (canonical_commitAll h hds) (canonical_afterCommit (canonical_commitAll h hds))

theorem canonical_endStep {x : CtxId} (h : s.canonical = true) : (s.endStep x).canonical = true :=
  canonical_ite (canonical_ite (canonical_haltNow (canonical_stepEnded h)) (canonical_stepEnded h)) h

theorem canonical_pauseAt {x : CtxId} {f : Fetched} {ds : List Done} (h : s.canonical = true)
    (hds : ∀ d ∈ ds, DoneCanonical d) :
    (s.pauseAt x f ds).canonical = true := canonical_endStep (canonical_upCtx (foldl_canonical_mem h hds))

theorem canonical_openAddr {e : Exc} (h : s.canonical = true) : (s.openAddr e).2.canonical = true :=
  canonical_ite_snd (canonical_fresh h) h

theorem canonical_abandon {x : CtxId} {n : SiteId} (h : s.canonical = true) : (s.abandon x n).canonical = true :=
  canonical_convert (canonical_decideEn (canonical_enterFaulted (canonical_upSite (canonical_clearSiteIrq
    (canonical_dropPairs (canonical_upCtx (canonical_drain h)))))))

theorem canonical_raiseIns {x : CtxId} {e : Exc} (h : s.canonical = true) : (s.raiseIns x e).canonical = true := by
  unfold State.raiseIns
  dsimp only
  split
  · exact canonical_abandon h
  · exact canonical_endStep (canonical_raise (canonical_openAddr h))

theorem canonical_fetchAddrOf {x : CtxId} {e : Exc} (h : s.canonical = true) : (s.fetchAddrOf x e).2.canonical = true :=
  canonical_ite_snd h (canonical_openAddr h)

theorem canonical_raiseFetched {x : CtxId} {e : Exc} (h : s.canonical = true) : (s.raiseFetched x e).canonical = true := by
  unfold State.raiseFetched
  dsimp only
  split
  · exact canonical_abandon h
  · exact canonical_endStep (canonical_ite (canonical_raise (canonical_fetchAddrOf h)) (canonical_raiseFetch
      (canonical_fetchAddrOf h)))

end

end Sys2Proof.Laws
end

section
/-! SUPPORT. The canonical form under the instructions of integers, memory, decimals, fractions, strings and sites
(spec/06 to spec/09, spec/04). -/

namespace Sys2Proof.Laws

open Sys2Proof Sys2Proof.Machine

section

variable {s : State}

theorem canonical_alu {f : Word → Word → Word} {e : Env} {i : Ins} (h : s.canonical = true) :
    EffCanonical (alu f e i s) := canonical_withOpnds h fun _ _ => ⟨canonical_setRegs, h⟩

theorem canonical_unary {f : Ins → Word → Word} {e : Env} {i : Ins} (h : s.canonical = true) :
    EffCanonical (unary f e i s) := canonical_withOpnds h fun _ _ => ⟨canonical_setRegs, h⟩

theorem canonical_goesOn : DoneCanonical (goesOn ) := fun _ ht => ht

theorem canonical_completes {f : State → State} (h : ∀ t, t.canonical = true → (f t).canonical = true)
    (hs : s.canonical = true) :
    EffCanonical (completes f s) := ⟨fun _ ht => h _ ht, hs⟩

theorem canonical_waits {f : State → State} (h : ∀ t, t.canonical = true → (f t).canonical = true)
    (hs : s.canonical = true) :
    EffCanonical (waits f s) := ⟨fun _ ht => h _ ht, hs⟩

theorem canonical_effMfsr {e : Env} {i : Ins} (h : s.canonical = true) : EffCanonical (effMfsr e i s) := by
  unfold effMfsr
  split
  · exact h
  · split
    · exact h
    · exact canonical_withOpnds h fun _ _ => ⟨canonical_setRegs, h⟩

theorem canonical_effMtsr {e : Env} {i : Ins} (h : s.canonical = true) : EffCanonical (effMtsr e i s) := by
  unfold effMtsr
  split
  · exact h
  · split
    · exact h
    · exact canonical_withOpnds h fun _ _ => ⟨canonical_setRegs, h⟩

theorem canonical_randTo {x : CtxId} {d : BitVec 5} {v : BitVec 5} (h : s.canonical = true) :
    (s.randTo x d v).canonical = true := canonical_ite (canonical_upCtx (canonical_drawBytes h)) (canonical_upCtx h)

theorem canonical_effRand {e : Env} {i : Ins} (h : s.canonical = true) : EffCanonical (effRand e i s) :=
  canonical_withOpnds h fun _ _ => canonical_completes (fun _ ht1 => canonical_randTo ht1) h

theorem canonical_transfers {taken : Bool} {target : Word} {call : Bool} : DoneCanonical (transfers taken target call) :=
  fun _ ht => ht

theorem canonical_effCallr {e : Env} {i : Ins} (h : s.canonical = true) : EffCanonical (effCallr e i s) :=
  EffCanonical.ite h (canonical_withOpnds h fun _ _ => ⟨canonical_transfers, h⟩)

theorem canonical_linkAddr {e : Env} (h : s.canonical = true) : (linkAddr e s).2.canonical = true := by
  unfold linkAddr
  refine canonical_ite_snd h ?_
  generalize (s.awaitsDelay e).fetch e.x = r
  cases r with
  | ok f t => exact h
  | exc x t =>
    generalize (s.awaitsDelay e).bundleLen e.x = b
    cases b with
    | none => exact canonical_fresh h
    | some n => exact h

theorem canonical_linkTo {e : Env} {d : BitVec 5} {target : Word} (h : s.canonical = true) :
    EffCanonical (linkTo e s d target) := ⟨fun _ ht => canonical_upCtx ht, canonical_linkAddr h⟩

theorem canonical_effRet {e : Env} {i : Ins} (h : s.canonical = true) : EffCanonical (effRet e i s) :=
  EffCanonical.ite h (EffCanonical.ite h ⟨fun _ ht => canonical_upCtx ht, h⟩)

theorem canonical_formTo {e : Env} {wform : Bool} {a : ℕ} (h : s.canonical = true) : EffCanonical (formTo e s wform a) :=
  EffCanonical.ite h ⟨fun _ ht => canonical_upCtx ht, h⟩

theorem canonical_effLoop {e : Env} {i : Ins} (h : s.canonical = true) : EffCanonical (effLoop e i s) := by
  unfold effLoop
  refine canonical_withOpnds h fun b1 b2 => ?_
  dsimp only
  split
  · exact h
  · exact ⟨canonical_setRegs, h⟩

theorem canonical_loadDevice {x : CtxId} {pa : ℕ} (h : s.canonical = true) : (s.loadDevice x pa).2.canonical = true := by
  unfold State.loadDevice
  dsimp only
  split
  · exact canonical_regRead (canonical_drainFor h)
  · exact canonical_drainFor h
  · exact canonical_drainFor h

theorem canonical_loadPieces {x : CtxId} {ps : List (ℕ × ℕ)} (h : s.canonical = true) :
    (s.loadPieces x ps).2.canonical = true := by
  unfold State.loadPieces
  split
  · exact canonical_ite_snd (canonical_loadDevice h) (canonical_touchPieces h)
  · exact canonical_touchPieces h

theorem canonical_loadTo {e : Env} {ctl : AccCtl} {signed : Bool} {size : ℕ} {vs : List Val}
    {us : List (BitVec 5 × Word)} (h : s.canonical = true) :
    EffCanonical (loadTo e s ctl signed size vs us) :=
  EffCanonical.ite h (EffCanonical.bind (canonical_checkRead h) fun _ _ ht => canonical_completes (fun _ ht1 =>
    canonical_upCtx (canonical_loadPieces ht1)) ht)

theorem canonical_storeWord {x : CtxId} {size : ℕ} {ps : List (ℕ × ℕ)} {v : Word} (h : s.canonical = true) :
    (s.storeWord x size ps v).canonical = true :=
  canonical_ite (canonical_drain (canonical_retireStore h)) (canonical_retireStore h)

theorem canonical_storeFrom {e : Env} {ctl : AccCtl} {size : ℕ} {vs : List Val} {us : List (BitVec 5 × Word)}
    (h : s.canonical = true) :
    EffCanonical (storeFrom e s ctl size vs us) :=
  EffCanonical.ite h (EffCanonical.bind (canonical_checkWrite h) fun _ _ ht => canonical_completes (fun _ ht1 =>
    canonical_upCtx (canonical_storeWord ht1)) ht)

theorem canonical_swap {x : CtxId} {d : BitVec 5} {us : List (BitVec 5 × Word)} {pa : ℕ} {cmp : Word} {new : Word}
    (h : s.canonical = true) :
    (s.swap x d us pa cmp new).canonical = true :=
  canonical_drained h fun _ ht => canonical_upCtx (canonical_ite (canonical_storeWrite ht) (canonical_touch _ _ _ _ ht))

theorem canonical_effCasD {e : Env} {i : Ins} (h : s.canonical = true) : EffCanonical (effCasD e i s) :=
  canonical_withOpnds h fun _ _ => EffCanonical.ite h (EffCanonical.bind (canonical_checkRead h) fun _ _ ht1 =>
    canonical_completes (fun _ ht2 => canonical_swap ht2) ht1)

theorem canonical_effSync {e : Env} {i : Ins} (h : s.canonical = true) : EffCanonical (effSync e i s) := by
  unfold effSync
  refine EffCanonical.ite (canonical_waits (fun t1 ht2 => canonical_drain ht2) h) ?_
  split
  · exact ⟨canonical_goesOn, canonical_drain h⟩
  · exact EffCanonical.ite (canonical_upCtx (canonical_drain h)) ⟨canonical_goesOn, canonical_drain h⟩

theorem canonical_meetKey {x : CtxId} {a : ℕ} (h : s.canonical = true) : (s.meetKey x a).canonical = true :=
  canonical_ite (canonical_countPoison h) h

theorem canonical_effKset {e : Env} {i : Ins} (h : s.canonical = true) : EffCanonical (effKset e i s) := by
  unfold effKset
  refine canonical_withOpnds h fun b1 b2 => ?_
  split
  · exact h
  · exact canonical_completes (fun _ ht => canonical_setKeyByte _ _ _ ht) h

theorem canonical_effKget {e : Env} {i : Ins} (h : s.canonical = true) : EffCanonical (effKget e i s) := by
  unfold effKget
  refine canonical_withOpnds h fun b1 b2 => ?_
  split
  · exact h
  · exact canonical_completes (fun _ ht => canonical_upCtx (canonical_meetKey ht)) h

theorem canonical_effKrst {e : Env} {i : Ins} (h : s.canonical = true) : EffCanonical (effKrst e i s) := by
  unfold effKrst
  refine canonical_withOpnds h fun b1 b2 => ?_
  dsimp only
  split
  · exact h
  · exact canonical_completes (fun _ ht => canonical_upCtx (canonical_setKeyByte _ _ _ (canonical_meetKey ht))) h

theorem canonical_lockSlot {core : ℕ} {slot : ℕ} {t : Option TlbEntry} (h : s.canonical = true) :
    (s.lockSlot core slot t).canonical = true := canonical_setCore h

theorem canonical_lockTarget {e : Env} {slot : ℕ} {ga : ℕ} (h : s.canonical = true) :
    XRCanonical (s.lockTarget e slot ga) := by
  unfold State.lockTarget
  refine XRCanonical.ite h (XRCanonical.ite h ?_)
  dsimp only
  split
  · exact canonical_lookup h
  · exact canonical_lookup h
  · exact canonical_lookup h

theorem canonical_effTlbl {e : Env} {i : Ins} (h : s.canonical = true) : EffCanonical (effTlbl e i s) :=
  EffCanonical.ite h (canonical_withOpnds h fun _ _ => EffCanonical.bind (canonical_lockTarget h) fun _ _ ht1 =>
    canonical_completes (fun _ ht2 => canonical_lockSlot ht2) ht1)

theorem canonical_effTlbu {e : Env} {i : Ins} (h : s.canonical = true) : EffCanonical (effTlbu e i s) :=
  EffCanonical.ite h (canonical_withOpnds h fun _ _ => canonical_completes (fun _ ht1 => canonical_lockSlot ht1) h)

theorem canonical_effTlbi {e : Env} {i : Ins} (h : s.canonical = true) : EffCanonical (effTlbi e i s) :=
  EffCanonical.ite h (canonical_withOpnds h fun _ _ => EffCanonical.ite h (EffCanonical.ite (canonical_waits (fun _ ht1 =>
    ht1) h) (canonical_completes (fun _ ht1 => canonical_setCore ht1) h)))

theorem canonical_removeOn {t : Tlbi} {core : ℕ} (h : s.canonical = true) : (s.removeOn t core).canonical = true :=
  canonical_setCore h

theorem canonical_tlbiDone {core : ℕ} (h : s.canonical = true) : (s.tlbiDone core).canonical = true := by
  unfold State.tlbiDone
  dsimp only
  split
  · exact h
  · exact canonical_ite (canonical_setCore (foldl_canonical h fun _ _ ht => canonical_removeOn ht)) h

theorem canonical_residueFail {x : CtxId} (h : s.canonical = true) : EffCanonical (s.residueFail x) :=
  canonical_integRec _ _ _ _ _ _ (canonical_fresh h)

theorem canonical_onRegs {e : Env} {l : List (BitVec 3)} {f : XR Done} (h : s.canonical = true) (hf : EffCanonical f) :
    EffCanonical (onRegs e s l f) := by
  unfold onRegs
  refine EffCanonical.ite (canonical_residueFail h) ?_
  split
  · exact h
  · exact hf

theorem canonical_toDecReg {e : Env} {d : BitVec 3} {v : ℤ} {cause : ℕ} {inexact : Bool} (h : s.canonical = true) :
    EffCanonical (toDecReg e s d v cause inexact) := by
  unfold toDecReg
  split
  · exact h
  · exact canonical_completes (fun _ ht => canonical_upCtx ht) h

theorem canonical_decTwo {f : ℤ → ℤ → ℤ} {e : Env} {i : Ins} (h : s.canonical = true) : EffCanonical (decTwo f e i s) :=
  canonical_withOpnds h fun _ _ => canonical_onRegs h (canonical_toDecReg h)

theorem canonical_decOne {f : ℤ → ℤ} {e : Env} {i : Ins} (h : s.canonical = true) : EffCanonical (decOne f e i s) :=
  canonical_withOpnds h fun _ _ => canonical_onRegs h (canonical_toDecReg h)

theorem canonical_decDiv {f : ℤ → ℤ → ℤ} {e : Env} {i : Ins} (h : s.canonical = true) : EffCanonical (decDiv f e i s) :=
  canonical_withOpnds h fun _ _ => canonical_onRegs h (EffCanonical.ite h (canonical_toDecReg h))

theorem canonical_effDsrr {e : Env} {i : Ins} (h : s.canonical = true) : EffCanonical (effDsrr e i s) :=
  canonical_withOpnds h fun _ _ => canonical_onRegs h (canonical_toDecReg h)

theorem canonical_effDcmp {e : Env} {i : Ins} (h : s.canonical = true) : EffCanonical (effDcmp e i s) :=
  canonical_withOpnds h fun _ _ => canonical_onRegs h ⟨canonical_setRegs, h⟩

theorem canonical_effDmov {e : Env} {i : Ins} (h : s.canonical = true) : EffCanonical (effDmov e i s) :=
  canonical_withOpnds h fun _ _ => EffCanonical.ite (canonical_residueFail h) (canonical_completes (fun _ ht1 =>
    canonical_upCtx ht1) h)

theorem canonical_effCvdb {e : Env} {i : Ins} (h : s.canonical = true) : EffCanonical (effCvdb e i s) :=
  canonical_withOpnds h fun _ _ => canonical_onRegs h (EffCanonical.ite h ⟨canonical_setRegs, h⟩)

theorem canonical_effDbcc {e : Env} {i : Ins} (h : s.canonical = true) : EffCanonical (effDbcc e i s) := by
  unfold effDbcc
  refine canonical_withOpnds h fun b1 b2 => ?_
  split
  · exact h
  · exact ⟨canonical_transfers, h⟩

theorem canonical_effDld {e : Env} {i : Ins} (h : s.canonical = true) : EffCanonical (effDld e i s) :=
  canonical_withOpnds h fun _ _ => EffCanonical.bind (canonical_checkRead h) fun _ _ ht1 => canonical_completes (fun _ ht2
    => canonical_upCtx (canonical_touchPieces ht2)) ht1

theorem canonical_effDst {e : Env} {i : Ins} (h : s.canonical = true) : EffCanonical (effDst e i s) := by
  unfold effDst
  refine canonical_withOpnds h fun b1 b2 => EffCanonical.bind (canonical_checkWrite h) fun a3 t4 ht5 => canonical_onRegs ht5
    ?_
  split
  · exact ht5
  · exact canonical_completes (fun _ ht => canonical_upCtx (canonical_retireStore ht)) ht5

theorem canonical_readPhase {x : CtxId} {k : Kind} {ps : List ((ℕ × ℕ) × ℕ × ℕ)} (h : s.canonical = true) :
    XRCanonical (s.readPhase x k ps) := by
  induction ps generalizing s with
  | nil => exact h
  | cons p t ih =>
    refine XRCanonical.ite h ?_
    split
    · exact canonical_poisonHit h
    · exact ih h

theorem canonical_readOp {e : Env} {k : Kind} {ea : ℕ} {len : ℕ} {ps : List (ℕ × ℕ)} (h : s.canonical = true) :
    XRCanonical (readOp e s k ea len ps) := XRCanonical.ite h (canonical_readPhase h)

theorem canonical_memPhases {e : Env} {i : Ins} {k1 : Kind} {ea1 : ℕ} {ea2 : ℕ} {f : MemOps → State → XR Done}
    (h : s.canonical = true) (hf : ∀ a t, t.canonical = true → EffCanonical (f a t)) :
    EffCanonical (memPhases e i s k1 ea1 ea2 f) :=
  EffCanonical.bind (canonical_xlatePieces h) fun _ _ ht => EffCanonical.bind (canonical_xlatePieces ht) fun _ _ ht1 =>
    EffCanonical.bind (canonical_readOp ht1) fun _ _ ht2 => EffCanonical.bind (canonical_readOp ht2) fun _ _ ht3 => hf _ _
    ht3

theorem canonical_storeOp1 {e : Env} {m : MemOps} {us : List (BitVec 5 × Word)} {bs : List Byte} {ovf : Bool}
    {inexact : Bool} (h : s.canonical = true) :
    (s.storeOp1 e m us bs ovf inexact).canonical = true :=
  canonical_upCtx (canonical_retireStore (canonical_touchPieces (canonical_touchPieces h)))

theorem canonical_toMemOp {e : Env} {i : Ins} {ea : ℕ} {m : MemOps} {us : List (BitVec 5 × Word)} {v : ℤ} {cause : ℕ}
    {inexact : Bool} (h : s.canonical = true) :
    EffCanonical (toMemOp e i s ea m us v cause inexact) := by
  unfold toMemOp
  split
  · exact h
  · exact canonical_completes (fun _ ht => canonical_storeOp1 ht) h

theorem canonical_memTwo {zero : Bool} {f : ℤ → ℤ → ℤ} {e : Env} {i : Ins} (h : s.canonical = true) :
    EffCanonical (memTwo zero f e i s) := by
  unfold memTwo
  refine canonical_withOpnds h fun b1 b2 => canonical_memPhases h fun b3 t4 ht5 => ?_
  split
  · exact ht5
  · exact EffCanonical.ite ht5 (canonical_toMemOp ht5)

theorem canonical_effMovp {e : Env} {i : Ins} (h : s.canonical = true) : EffCanonical (effMovp e i s) := by
  unfold effMovp
  refine canonical_withOpnds h fun b1 b2 => canonical_memPhases h fun b3 t4 ht5 => ?_
  split
  · exact ht5
  · exact canonical_toMemOp ht5

theorem canonical_effCmpp {e : Env} {i : Ins} (h : s.canonical = true) : EffCanonical (effCmpp e i s) := by
  unfold effCmpp
  refine canonical_withOpnds h fun b1 b2 => canonical_memPhases h fun b3 t4 ht5 => ?_
  split
  · exact ht5
  · exact canonical_completes (fun _ ht => canonical_upCtx (canonical_touchPieces (canonical_touchPieces ht))) ht5

theorem canonical_effShrp {e : Env} {i : Ins} (h : s.canonical = true) : EffCanonical (effShrp e i s) := by
  unfold effShrp
  refine canonical_withOpnds h fun b1 b2 => EffCanonical.bind (canonical_xlatePieces h) fun a3 t4 ht5 => EffCanonical.bind
    (canonical_readOp ht5) fun a6 t7 ht8 => ?_
  dsimp only
  split
  · exact ht8
  · exact canonical_toMemOp ht8

theorem canonical_effPacka {e : Env} {i : Ins} (h : s.canonical = true) : EffCanonical (effPacka e i s) := by
  unfold effPacka
  refine canonical_withOpnds h fun b1 b2 => canonical_memPhases h fun b3 t4 ht5 => ?_
  split
  · exact ht5
  · exact canonical_toMemOp ht5

theorem canonical_effUnpka {e : Env} {i : Ins} (h : s.canonical = true) : EffCanonical (effUnpka e i s) := by
  unfold effUnpka
  refine canonical_withOpnds h fun b1 b2 => canonical_memPhases h fun b3 t4 ht5 => ?_
  dsimp only
  split
  · exact ht5
  · exact EffCanonical.ite ht5 (canonical_completes (fun _ ht => canonical_storeOp1 ht) ht5)

theorem canonical_toFracReg {e : Env} {d : BitVec 5} {num : ℤ} {fb : ℕ} {sub : ℕ} {rm : ℕ} (h : s.canonical = true) :
    EffCanonical (toFracReg e s d num fb sub rm) := by
  unfold toFracReg
  split
  · exact h
  · exact canonical_completes (fun _ ht => canonical_upCtx ht) h

theorem canonical_toAcc {e : Env} {k : ℕ} {num : ℤ} {fb : ℕ} {rm : ℕ} (h : s.canonical = true) :
    EffCanonical (toAcc e s k num fb rm) := by
  unfold toAcc
  split
  · exact h
  · exact canonical_completes (fun _ ht => canonical_upCtx ht) h

theorem canonical_fracTwo {f : ℤ → ℤ → ℤ} {e : Env} {i : Ins} (h : s.canonical = true) :
    EffCanonical (fracTwo f e i s) := canonical_withOpnds h fun _ _ => canonical_toFracReg h

theorem canonical_fracOne {f : ℤ → ℤ} {e : Env} {i : Ins} (h : s.canonical = true) : EffCanonical (fracOne f e i s) :=
  canonical_withOpnds h fun _ _ => canonical_toFracReg h

theorem canonical_macWith {f : ℤ → ℤ → ℤ} {e : Env} {i : Ins} (h : s.canonical = true) :
    EffCanonical (macWith f e i s) := canonical_withOpnds h fun _ _ => canonical_toAcc h

theorem canonical_onBits {e : Env} {i : Ins} {k : Kind} {b : ℤ} {w : ℕ} {n : ℕ} {f : ℕ → List (ℕ × ℕ) → State → XR Done}
    (h : s.canonical = true) (hf : ∀ a b t, t.canonical = true → EffCanonical (f a b t)) :
    EffCanonical (onBits e i s k b w n f) := by
  unfold onBits
  split
  · exact h
  · exact EffCanonical.bind (canonical_checkRead h) fun _ _ ht => hf _ _ _ ht

theorem canonical_putBits {x : CtxId} {ps : List (ℕ × ℕ)} {b : ℕ} {w : ℕ} {v : ℕ} (h : s.canonical = true) :
    (s.putBits x ps b w v).canonical = true := canonical_drained h fun _ ht => canonical_writePieces _ _ _ ht

theorem canonical_effBset {e : Env} {i : Ins} (h : s.canonical = true) : EffCanonical (effBset e i s) :=
  canonical_withOpnds h fun _ _ => canonical_onBits h fun _ _ _ ht1 => canonical_completes (fun _ ht2 => canonical_putBits
    ht2) ht1

theorem canonical_effBclr {e : Env} {i : Ins} (h : s.canonical = true) : EffCanonical (effBclr e i s) :=
  canonical_withOpnds h fun _ _ => canonical_onBits h fun _ _ _ ht1 => canonical_completes (fun _ ht2 => canonical_putBits
    ht2) ht1

theorem canonical_effBtas {e : Env} {i : Ins} (h : s.canonical = true) : EffCanonical (effBtas e i s) :=
  canonical_withOpnds h fun _ _ => canonical_onBits h fun _ _ _ ht1 => canonical_completes (fun _ ht2 => canonical_upCtx
    (canonical_putBits ht2)) ht1

theorem canonical_bitsInto {e : Env} {d : BitVec 5} {ps : List (ℕ × ℕ)} {f : List Byte → Word} (h : s.canonical = true)
    :
    EffCanonical (bitsInto e d ps f s) := canonical_completes (fun _ ht => canonical_upCtx (canonical_touchPieces ht)) h

theorem canonical_effBtst {e : Env} {i : Ins} (h : s.canonical = true) : EffCanonical (effBtst e i s) :=
  canonical_withOpnds h fun _ _ => canonical_onBits h fun _ _ _ ht1 => canonical_bitsInto ht1

theorem canonical_effBfext {e : Env} {i : Ins} (h : s.canonical = true) : EffCanonical (effBfext e i s) :=
  canonical_withOpnds h fun _ _ => canonical_onBits h fun _ _ _ ht1 => canonical_bitsInto ht1

theorem canonical_effBfins {e : Env} {i : Ins} (h : s.canonical = true) : EffCanonical (effBfins e i s) :=
  canonical_withOpnds h fun _ _ => canonical_onBits h fun _ _ _ ht1 => canonical_completes (fun _ ht2 => canonical_putBits
    ht2) ht1

theorem canonical_effBpop {e : Env} {i : Ins} (h : s.canonical = true) : EffCanonical (effBpop e i s) :=
  canonical_withOpnds h fun _ _ => canonical_onBits h fun _ _ _ ht1 => canonical_bitsInto ht1

theorem canonical_effBff {e : Env} {i : Ins} (h : s.canonical = true) : EffCanonical (effBff e i s) :=
  canonical_withOpnds h fun _ _ => canonical_onBits h fun _ _ _ ht1 => canonical_bitsInto ht1

theorem canonical_bitBranch {set : Bool} {e : Env} {i : Ins} (h : s.canonical = true) :
    EffCanonical (bitBranch set e i s) :=
  canonical_withOpnds h fun _ _ => canonical_onBits h fun _ _ _ ht1 => ⟨fun _ ht2 => canonical_touchPieces ht2, ht1⟩

theorem canonical_strMismatch {e : Env} (h : s.canonical = true) : (strMismatch e s).2.canonical = true :=
  canonical_ite_snd h (canonical_fresh h)

theorem canonical_stepPoison {x : CtxId} {va : ℕ} {pa : ℕ} (h : s.canonical = true) :
    (s.stepPoison x va pa).2.canonical = true := canonical_poisonHit h

theorem canonical_stepDrop {x : CtxId} {va : ℕ} {pa : ℕ} (h : s.canonical = true) :
    (s.stepDrop x va pa).2.canonical = true :=
  canonical_ite_snd (canonical_bumpSat (canonical_poisonHit h)) (canonical_integRec _ _ _ _ _ _ (canonical_bumpSat h))

theorem canonical_strRead {e : Env} {ctl : AccCtl} {a : StepAcc} {va : ℕ} (h : s.canonical = true) :
    XRCanonical (strRead e ctl a va s) := by
  unfold strRead
  refine XRCanonical.bind (canonical_xlate h) fun a1 t2 ht3 => XRCanonical.ite ht3 ?_
  split
  · exact ht3
  · exact XRCanonical.ite (canonical_stepPoison ht3) ht3

theorem canonical_strWrite {e : Env} {ctl : AccCtl} {a : StepAcc} {va : ℕ} {b : Byte} (h : s.canonical = true) :
    XRCanonical (strWrite e ctl a va b s) := XRCanonical.bind (canonical_xlate h) fun _ _ ht => ht

theorem canonical_endStrStep {x : CtxId} {a : StepAcc} (h : s.canonical = true) : (s.endStrStep x a).canonical = true :=
  foldl_canonical (foldl_canonical h fun _ _ ht => canonical_markFrame _ _ _ ht) fun _ _ ht => canonical_retirePieces ht

theorem canonical_checkRest {k : StrKind} {a : StepAcc} {is : List ℕ} (h : StrKindCanonical k) (hs : s.canonical = true)
    :
    XRCanonical (checkRest k a is s) := by
  induction is generalizing a s with
  | nil => exact hs
  | cons i t ih => exact XRCanonical.bind (h.rest i a s hs) fun _ _ hs => ih hs

theorem canonical_strStep {k : StrKind} {st : StrSt} {a : StepAcc} {is : List ℕ} (h : StrKindCanonical k)
    (hs : s.canonical = true) :
    XRCanonical (strStep k st a is s) := by
  induction is generalizing st a s with
  | nil => exact hs
  | cons i t ih =>
    refine XRCanonical.bind (h.pos st i a s hs) fun r s hs => ?_
    split
    · exact ih hs
    · exact hs
    · exact XRCanonical.bind (canonical_checkRest h hs) fun _ _ hs => hs

theorem canonical_lastStep {k : StrKind} {last : Bool} {r : StepEnd × StepAcc} (h : StrKindCanonical k)
    (hs : s.canonical = true) :
    XRCanonical (lastStep k last r s) := by
  unfold lastStep
  split
  · exact XRCanonical.ite (XRCanonical.bind (h.fin _ _ _ hs) fun _ _ ht => ht) hs
  · exact hs
  · exact hs

theorem canonical_strEnd {e : Env} {d : Option (BitVec 5)} {r : Word} (h : s.canonical = true) :
    EffCanonical (strEnd e d r s) := canonical_completes (fun _ ht => canonical_upCtx ht) h

theorem canonical_strPoint {e : Env} {o : Op} {done : ℕ} {st : StrSt} (h : s.canonical = true) :
    (s.strPoint e o done st).canonical = true := canonical_upCtx h

theorem canonical_strRun {e : Env} {o : Op} {k : StrKind} {d : Option (BitVec 5)} {n : ℕ} {fuel : ℕ} {done : ℕ}
    {st : StrSt} (h : StrKindCanonical k) (hs : s.canonical = true) :
    EffCanonical (strRun e o k d n fuel done st s) := by
  induction fuel generalizing done st s with
  | zero => exact ⟨fun _ ht => ht, hs⟩
  | succ n ih =>
    refine EffCanonical.bind (XRCanonical.bind (canonical_strStep h hs) fun _ _ hs => canonical_lastStep h hs) fun r s hs
        => ?_
    split
    · exact canonical_stepDrop hs
    · have he := fun a => canonical_endStrStep (x := e.x) (a := a) hs
      split
      · exact hs
      · exact canonical_strEnd (he _)
      · exact EffCanonical.ite (canonical_strEnd (he _)) (ih (canonical_strPoint (he _)))

theorem canonical_strIns {e : Env} {o : Op} {k : StrKind} {d : Option (BitVec 5)} {n : ℕ} (h : StrKindCanonical k)
    (hs : s.canonical = true) :
    EffCanonical (strIns e o k d n s) :=
  EffCanonical.ite (EffCanonical.ite (canonical_strRun h (canonical_strPoint hs)) (canonical_strMismatch hs))
    (EffCanonical.ite (canonical_strEnd hs) (canonical_strRun h hs))

theorem canonical_movePos {e : Env} {ctl : AccCtl} {d : Word} {src : Word} : StrKindCanonical (movePos e ctl d src) :=
  ⟨fun _ _ _ _ ht => XRCanonical.bind (canonical_strRead ht) fun _ _ ht1 => XRCanonical.bind (canonical_strWrite ht1) fun _
    _ ht2 => ht2, fun _ _ _ ht => ht, fun _ _ _ ht => ht⟩

theorem canonical_effTrst {e : Env} {i : Ins} (h : s.canonical = true) : EffCanonical (effTrst e i s) :=
  canonical_withOpnds h fun _ _ => canonical_strIns ⟨fun _ _ _ _ ht1 => XRCanonical.bind (canonical_strRead ht1) fun _ _ ht2
    => XRCanonical.bind (canonical_strRead ht2) fun _ _ ht3 => XRCanonical.bind (canonical_strWrite ht3) fun _ _ ht4 => ht4,
    fun _ _ _ ht1 => ht1, fun _ _ _ ht1 => ht1⟩ h

theorem canonical_effScns {e : Env} {i : Ins} (h : s.canonical = true) : EffCanonical (effScns e i s) :=
  canonical_withOpnds h fun _ _ => canonical_strIns ⟨fun _ _ _ _ ht1 => XRCanonical.bind (canonical_strRead ht1) fun _ _ ht2
    => XRCanonical.bind (canonical_strRead ht2) fun _ _ ht3 => ht3, fun _ _ _ ht1 => ht1, fun _ _ _ ht1 => ht1⟩ h

theorem canonical_effCmps {e : Env} {i : Ins} (h : s.canonical = true) : EffCanonical (effCmps e i s) :=
  canonical_withOpnds h fun _ _ => canonical_strIns ⟨fun _ _ _ _ ht1 => XRCanonical.bind (canonical_strRead ht1) fun _ _ ht2
    => XRCanonical.bind (canonical_strRead ht2) fun _ _ ht3 => ht3, fun _ _ _ ht1 => ht1, fun _ _ _ ht1 => ht1⟩ h

theorem canonical_findSign {e : Env} {ctl : AccCtl} {g : EditArgs} {ofs : ℕ} {j : ℕ} {n : ℕ} {a : StepAcc}
    (h : s.canonical = true) :
    XRCanonical (findSign e ctl g ofs j n a s) := by
  induction n generalizing j a s with
  | zero => exact h
  | succ n ih =>
    refine XRCanonical.bind (canonical_strRead h) fun r s hs => ?_
    split
    · exact hs
    · exact ih hs

theorem canonical_locate {e : Env} {ctl : AccCtl} {g : EditArgs} {st : StrSt} {a : StepAcc} (h : s.canonical = true) :
    XRCanonical (locate e ctl g st a s) := by
  unfold locate
  refine XRCanonical.ite h (XRCanonical.bind (canonical_findSign h) fun a1 t2 ht3 => ?_)
  split
  · exact ht3
  · exact ht3

theorem canonical_nextNibble {e : Env} {ctl : AccCtl} {g : EditArgs} {st : StrSt} {a : StepAcc} (h : s.canonical = true)
    :
    XRCanonical (nextNibble e ctl g st a s) := XRCanonical.bind (canonical_strRead h) fun _ _ ht => ht

theorem canonical_endField {e : Env} {ctl : AccCtl} {g : EditArgs} {addr : ℕ} {st : StrSt} {a : StepAcc}
    (h : s.canonical = true) :
    XRCanonical (endField e ctl g addr st a s) :=
  XRCanonical.ite h (XRCanonical.bind (canonical_nextNibble h) fun _ _ ht => XRCanonical.ite ht ht)

theorem canonical_digitSlot {e : Env} {ctl : AccCtl} {g : EditArgs} {trigger : Bool} {st : StrSt} {i : ℕ} {a : StepAcc}
    (h : s.canonical = true) :
    XRCanonical (digitSlot e ctl g trigger st i a s) := by
  unfold digitSlot
  refine XRCanonical.bind (canonical_locate h) fun a1 t2 ht3 => ?_
  dsimp only
  split
  · exact ht3
  · exact XRCanonical.bind (canonical_nextNibble ht3) fun _ _ ht => XRCanonical.ite ht ht

theorem canonical_editByte {e : Env} {ctl : AccCtl} {g : EditArgs} {st : StrSt} {i : ℕ} {p : Byte} {a : StepAcc}
    (h : s.canonical = true) :
    XRCanonical (editByte e ctl g st i p a s) := by
  unfold editByte
  dsimp only
  split
  · exact canonical_digitSlot h
  · exact canonical_digitSlot h
  · refine XRCanonical.bind (canonical_endField h) fun a7 t8 ht9 => ?_
    split
    · exact ht9
    · exact ht9
  · refine XRCanonical.bind (canonical_locate h) fun a18 t19 ht20 => ?_
    split
    · exact ht20
    · exact ht20
  · exact h
  · exact h

theorem canonical_editKind {e : Env} {ctl : AccCtl} {g : EditArgs} : StrKindCanonical (editKind e ctl g) := by
  refine ⟨fun st i a s hs => ?_, fun i a s hs => ?_, fun st a s hs => ?_⟩
  · refine XRCanonical.bind (canonical_strRead hs) fun p s hs => XRCanonical.bind (canonical_editByte hs) fun r s hs => ?_
    split <;> exact XRCanonical.bind (canonical_strWrite hs) fun _ _ ht => ht
  · exact XRCanonical.bind (canonical_strRead hs) fun p s hs => canonical_strWrite hs
  · refine XRCanonical.bind (canonical_endField hs) fun r s hs => ?_
    split <;> exact hs

theorem canonical_effEdit {e : Env} {i : Ins} (h : s.canonical = true) : EffCanonical (effEdit e i s) :=
  canonical_withOpnds h fun _ _ => canonical_strIns canonical_editKind h

theorem canonical_effEdpos {e : Env} {i : Ins} (h : s.canonical = true) : EffCanonical (effEdpos e i s) :=
  canonical_withOpnds h fun _ _ => canonical_strIns canonical_editKind h

theorem canonical_putG {x : CtxId} {d : BitVec 5} {v : Word} (h : s.canonical = true) :
    (s.putG x d v).canonical = true := canonical_upCtx h

theorem canonical_withStatus {e : Env} {d : BitVec 5} {code : ℕ} (h : s.canonical = true) :
    EffCanonical (withStatus e d code s) := canonical_completes (fun _ ht => canonical_putG ht) h

theorem canonical_onTenant {e : Env} {i : Ins} {addrAt : ℕ} {align : ℕ} {f : List Val → XR Done}
    (h : s.canonical = true) (hf : ∀ a, EffCanonical (f a)) :
    EffCanonical (onTenant e i addrAt align s f) :=
  EffCanonical.ite h (canonical_withOpnds h fun _ _ => EffCanonical.ite h (hf _))

theorem canonical_dropLost {x : CtxId} {n : SiteId} {lost : List InFrame} {rest : List InFrame} (h : s.canonical = true)
    :
    (s.dropLost x n lost rest).canonical = true :=
  foldl_canonical (canonical_ite h (canonical_upSite h)) fun _ _ ht => canonical_integRec _ _ _ _ _ _ (canonical_bumpSat
    (canonical_meet (canonical_meet (canonical_touch _ _ _ _ ht))))

theorem canonical_copyUnit {x : CtxId} {src : ℕ} {u : ℕ × ℕ} (h : s.canonical = true) :
    (s.copyUnit x src u).canonical = true :=
  canonical_ite (canonical_storeFail h) (canonical_ite (canonical_bumpSat (canonical_touch _ _ _ _ (canonical_poisonWord _ _
    (canonical_meet h)))) (canonical_performMem h))

theorem canonical_copyUnits {x : CtxId} {src : ℕ} {us : List (ℕ × ℕ)} (h : s.canonical = true) :
    (s.copyUnits x src us).canonical = true := by
  induction us generalizing s src with
  | nil => exact h
  | cons u t ih => exact ih (canonical_copyUnit h)

theorem canonical_takeFrame {x : CtxId} {n : SiteId} {d : BitVec 5} {lost : List InFrame} {f : InFrame}
    {rest : List InFrame} {ps : List (ℕ × ℕ)} (h : s.canonical = true) :
    (s.takeFrame x n d lost f rest ps).canonical = true :=
  canonical_drained (canonical_dropLost h) fun _ ht => canonical_putG (canonical_upSite (canonical_copyUnits
    (canonical_touch _ _ _ _ ht)))

theorem canonical_takeNone {e : Env} {n : SiteId} {d : BitVec 5} {poll : Bool} {lost : List InFrame}
    (h : s.canonical = true) :
    EffCanonical (takeNone e n d poll lost s) :=
  EffCanonical.ite (canonical_completes (fun _ ht => canonical_putG (canonical_dropLost ht)) h) (canonical_waits (fun _ ht
    => canonical_requestSave (canonical_dropLost ht)) h)

theorem canonical_takeFrom {e : Env} {n : SiteId} {vs : List Val} {poll : Bool} {lost : List InFrame}
    {fs : List InFrame} (h : s.canonical = true) :
    EffCanonical (takeFrom e n vs poll lost s fs) := by
  unfold takeFrom
  split
  · exact canonical_takeNone h
  · exact EffCanonical.ite (canonical_waits (fun _ ht => ht) h) (EffCanonical.bind (canonical_checkWrite h) fun _ _ ht =>
      canonical_completes (fun _ ht1 => canonical_takeFrame ht1) ht)

theorem canonical_effSiteTake {e : Env} {i : Ins} (h : s.canonical = true) : EffCanonical (effSiteTake e i s) :=
  canonical_onTenant h fun _ => EffCanonical.ite (canonical_takeFrom h) (canonical_takeNone h)

theorem canonical_holdFrame {n : SiteId} {f : OutFrame} {payload : List Byte} (h : s.canonical = true) :
    (s.holdFrame n f payload).canonical = true := by
  unfold State.holdFrame
  exact canonical_upSite (canonical_setReg _ _ _ (canonical_agentWrite _ _ _ h))

theorem canonical_postFrame {x : CtxId} {n : SiteId} {d : BitVec 5} {slot : ℕ} {len : ℕ} {utype : Byte}
    {ps : List (ℕ × ℕ)} (h : s.canonical = true) :
    (s.postFrame x n d slot len utype ps).canonical = true := by
  unfold State.postFrame
  exact canonical_drained h fun _ ht => canonical_putG (canonical_ite (canonical_sendHeld (canonical_holdFrame
    (canonical_touchPieces ht))) (canonical_holdFrame (canonical_touchPieces ht)))

theorem canonical_effSitePost {e : Env} {i : Ins} (h : s.canonical = true) : EffCanonical (effSitePost e i s) := by
  unfold effSitePost
  refine canonical_onTenant h fun b1 => EffCanonical.ite (canonical_withStatus h) (EffCanonical.ite (canonical_withStatus h)
    (EffCanonical.ite (canonical_withStatus h) ?_))
  split
  · exact EffCanonical.ite (canonical_waits (fun _ ht => ht) h) (canonical_withStatus h)
  · exact EffCanonical.bind (canonical_checkRead h) fun _ _ ht => canonical_completes (fun _ ht1 => canonical_postFrame ht1)
      ht

theorem canonical_closeTo {n : SiteId} (h : s.canonical = true) : (s.closeTo n).canonical = true :=
  canonical_ite (canonical_startSettle (canonical_upSite h)) (canonical_startHold (canonical_upSite h))

theorem canonical_settleTxn {x : CtxId} {n : SiteId} {d : BitVec 5} {w : Word} {ps : List (ℕ × ℕ)}
    (h : s.canonical = true) :
    (s.settleTxn x n d w ps).canonical = true :=
  canonical_drained h fun _ ht => canonical_putG (canonical_ite (canonical_requestSave (canonical_closeTo (canonical_upSite
    (canonical_agentWrite _ _ _ (canonical_touchPieces ht))))) (canonical_closeTo (canonical_upSite (canonical_agentWrite _
    _ _ (canonical_touchPieces ht)))))

theorem canonical_effSiteSettle {e : Env} {i : Ins} (h : s.canonical = true) : EffCanonical (effSiteSettle e i s) :=
  canonical_onTenant h fun _ => EffCanonical.ite (canonical_withStatus h) (EffCanonical.ite (canonical_withStatus h)
    (EffCanonical.bind (canonical_checkRead h) fun _ _ ht1 => canonical_completes (fun _ ht2 => canonical_settleTxn ht2)
    ht1))

theorem canonical_lapp {x : CtxId} {n : SiteId} {d : BitVec 5} {w : Word} {ps : List (ℕ × ℕ)} (h : s.canonical = true) :
    (s.lapp x n d w ps).canonical = true := canonical_putG (canonical_accept (canonical_touchPieces h))

theorem canonical_effLapp {e : Env} {i : Ins} (h : s.canonical = true) : EffCanonical (effLapp e i s) :=
  canonical_onTenant h fun _ => EffCanonical.ite (canonical_withStatus h) (EffCanonical.ite (canonical_withStatus h)
    (EffCanonical.ite (canonical_withStatus h) (EffCanonical.bind (canonical_checkRead h) fun _ _ ht1 => canonical_completes
    (fun _ ht2 => canonical_lapp ht2) ht1)))

theorem canonical_onKeys {e : Env} {i : Ins} {f : List Val → XR Done} (h : s.canonical = true)
    (hf : ∀ a, EffCanonical (f a)) :
    EffCanonical (onKeys e i s f) := EffCanonical.ite h (EffCanonical.ite h (canonical_withOpnds h fun _ _ => hf _))

theorem canonical_queueLoad {t : SiteId} (h : s.canonical = true) : (s.queueLoad t).canonical = true := h

theorem canonical_effKload {e : Env} {i : Ins} (h : s.canonical = true) : EffCanonical (effKload e i s) :=
  canonical_onKeys h fun _ => EffCanonical.ite (canonical_withStatus h) (canonical_completes (fun _ ht1 => canonical_putG
    (canonical_queueLoad ht1)) h)

theorem canonical_loadsOf {t : SiteId} {ts : List SiteId} (h : s.canonical = true) : (s.loadsOf t ts).canonical = true := by
  induction ts generalizing s with
  | nil => exact h
  | cons u l ih => exact canonical_ite (ih (canonical_kload h)) (ih h)

theorem canonical_zeroSlot {t : SiteId} {k : ℕ} (h : s.canonical = true) : (s.zeroSlot t k).canonical = true :=
  canonical_setKeySlot (canonical_upSite h)

theorem canonical_keyErase {x : CtxId} {d : BitVec 5} {t : SiteId} (h : s.canonical = true) :
    (s.keyErase x d t).canonical = true := by
  unfold State.keyErase
  dsimp only
  split
  · exact canonical_putG (canonical_setAttn (canonical_setKeyState (canonical_loadsOf h)))
  · exact canonical_putG (canonical_setAttn (canonical_setKeyState (canonical_zeroSlot (canonical_loadsOf h))))

theorem canonical_effKerase {e : Env} {i : Ins} (h : s.canonical = true) : EffCanonical (effKerase e i s) :=
  canonical_onKeys h fun _ => canonical_completes (fun _ ht1 => canonical_keyErase ht1) h

end

end Sys2Proof.Laws
end

section
/-! SUPPORT. The canonical form under Spoonbill, the gates, and every command and step (spec/09, spec/16). -/

namespace Sys2Proof.Laws

open Sys2Proof Sys2Proof.Machine

section

variable {s : State}

theorem canonical_setUnit {u : ℕ} {l : List SpbCmd} (h : s.canonical = true) : (s.setUnit u l).canonical = true := h

theorem canonical_setTicket {n : SiteId} {k : ℕ} {v : Ticket} (h : s.canonical = true) :
    (s.setTicket n k v).canonical = true := h

theorem canonical_submit {e : Env} {d : BitVec 5} {k : ℕ} {ps : List (ℕ × ℕ)} (h : s.canonical = true) :
    (s.submit e d k ps).canonical = true :=
  canonical_putG (canonical_setTicket (canonical_setUnit (canonical_touchPieces h)))

theorem canonical_effSpbGo {e : Env} {i : Ins} (h : s.canonical = true) : EffCanonical (effSpbGo e i s) := by
  unfold effSpbGo
  refine canonical_onTenant h fun b1 => EffCanonical.bind (canonical_checkRead h) fun a2 t3 ht4 => ?_
  split
  · exact canonical_withStatus ht4
  · exact EffCanonical.ite (canonical_withStatus ht4) (canonical_completes (fun _ ht => canonical_submit ht) ht4)

theorem canonical_collect {x : CtxId} {n : SiteId} {d : BitVec 5} {k : ℕ} {status : Word32} (h : s.canonical = true) :
    (s.collect x n d k status).canonical = true := canonical_putG (canonical_setTicket h)

theorem canonical_effSpbWait {e : Env} {i : Ins} (h : s.canonical = true) : EffCanonical (effSpbWait e i s) := by
  unfold effSpbWait
  refine canonical_onTenant h fun b1 => ?_
  dsimp only
  split
  · exact canonical_withStatus h
  · exact EffCanonical.ite (canonical_withStatus h) (canonical_waits (fun _ ht => ht) h)
  · exact canonical_completes (fun _ ht => canonical_collect ht) h

theorem canonical_spbWrite {ps : List (ℕ × ℕ)} {bs : List Byte} (h : s.canonical = true) :
    (s.spbWrite ps bs).canonical = true :=
  canonical_writePieces _ _ _ (foldl_canonical h fun _ _ ht => canonical_agentWrite _ _ _ (canonical_freshBytes ht))

theorem canonical_spbWriteOuts {l : List (ℕ × List (ℕ × ℕ) × List Byte)} (h : s.canonical = true) :
    (s.spbWriteOuts l).canonical = true := by
  unfold State.spbWriteOuts
  split
  · exact canonical_ite (canonical_spbWrite (canonical_spbWrite h)) (canonical_spbWrite (canonical_spbWrite h))
  · exact foldl_canonical h fun _ _ ht => canonical_spbWrite ht

theorem canonical_spbKeys {c : Ctx} {ps : List (ℕ × ℕ)} (h : s.canonical = true) : (s.spbKeys c ps).canonical = true :=
  canonical_countPoison h

theorem canonical_spbField {k : SpbCmd} {o : ℕ} {v : ℕ} (h : s.canonical = true) : (s.spbField k o v).canonical = true :=
  canonical_ite (canonical_agentWrite _ _ _ h) (canonical_agentWrite _ _ _ h)

theorem canonical_spbEnd {u : ℕ} {k : SpbCmd} {status : ℕ} (h : s.canonical = true) :
    (s.spbEnd u k status).canonical = true := canonical_setTicket (canonical_setUnit (canonical_spbField h))

theorem canonical_orFree {v : Option ℕ} (h : s.canonical = true) : (s.orFree v).2.canonical = true := by
  unfold State.orFree
  split
  · exact h
  · exact canonical_fresh h

theorem canonical_spbStop {u : ℕ} {k : SpbCmd} {x : SpbStop} (h : s.canonical = true) :
    (s.spbStop u k x).canonical = true := by
  unfold State.spbStop
  dsimp only
  split
  · exact canonical_spbEnd (canonical_usePoison h)
  · refine canonical_spbEnd (canonical_agentWrite _ _ _ ?_)
    split
    · exact canonical_orFree h
    · exact canonical_meetEntry (canonical_orFree h)

theorem canonical_spbReadPhase {u : ℕ} {k : SpbCmd} {d : SpbDesc} (h : s.canonical = true) :
    (s.spbReadPhase u k d).canonical = true := by
  unfold State.spbReadPhase
  dsimp only
  split
  · exact canonical_spbStop (canonical_touchPieces (canonical_spbKeys h))
  · split
    · exact canonical_spbStop (canonical_touchPieces (canonical_spbKeys h))
    · exact canonical_spbEnd (canonical_spbField (canonical_spbWriteOuts (canonical_spbKeys (canonical_touchPieces
        (canonical_spbKeys h)))))

theorem canonical_spbPhases {u : ℕ} {k : SpbCmd} {d : SpbDesc} (h : s.canonical = true) :
    (s.spbPhases u k d).canonical = true := by
  unfold State.spbPhases
  split
  · exact canonical_spbStop h
  · exact canonical_spbReadPhase (canonical_spbKeys h)

theorem canonical_spbRun {u : ℕ} {k : SpbCmd} (h : s.canonical = true) : (s.spbRun u k).canonical = true := by
  unfold State.spbRun
  split
  · exact canonical_spbPhases h
  · exact canonical_spbEnd h
  · exact canonical_spbEnd (canonical_fresh h)

theorem canonical_spbComplete {u : ℕ} {other : ℕ} (h : s.canonical = true) : (s.spbComplete u other).canonical = true := by
  unfold State.spbComplete
  split
  · exact h
  · exact canonical_ite h (canonical_spbRun h)

theorem canonical_unblockNmi {x : CtxId} {leaves : Bool} (h : s.canonical = true) :
    (s.unblockNmi x leaves).canonical = true := canonical_ite (canonical_clrReg h) h

theorem canonical_returnBy {e : Env} {f : Ctx → Ctx} : DoneCanonical (returnBy e f) :=
  fun _ ht => canonical_unblockNmi (canonical_upCtx ht)

theorem canonical_effXret {e : Env} {i : Ins} (h : s.canonical = true) : EffCanonical (effXret e i s) := by
  unfold effXret
  split
  · exact h
  · exact ⟨canonical_returnBy, h⟩

theorem canonical_effSysret {e : Env} {i : Ins} (h : s.canonical = true) : EffCanonical (effSysret e i s) := by
  unfold effSysret
  split
  · exact h
  · exact ⟨canonical_returnBy, h⟩

theorem canonical_effMonret {e : Env} {i : Ins} (h : s.canonical = true) : EffCanonical (effMonret e i s) :=
  EffCanonical.ite h (EffCanonical.ite h (EffCanonical.ite h ⟨canonical_returnBy, h⟩))

theorem canonical_effMoncall {e : Env} {i : Ins} (h : s.canonical = true) : EffCanonical (effMoncall e i s) :=
  EffCanonical.ite h ⟨fun _ ht => canonical_blockNmi (canonical_upCtx (canonical_leaveEncl ht)), h⟩

theorem canonical_onExc {α : Type} {r : XR α} {f : Exc → Exc} (h : XRCanonical r) : XRCanonical (XR.onExc r f) := by
  cases r with
  | ok a s => exact h
  | exc e s => exact h

theorem canonical_gatePlace {e : Env} {n : ℕ} {ea : ℕ} (h : s.canonical = true) : XRCanonical (s.gatePlace e n ea) := by
  unfold State.gatePlace
  refine XRCanonical.ite h (XRCanonical.bind (XRCanonical.ite h ?_) fun a1 t2 ht3 => ?_)
  · dsimp only
    split
    · exact canonical_lookup h
    · exact canonical_lookup h
    · exact XRCanonical.ite (canonical_lookup h) (canonical_lookup h)
  · split
    · exact ht3
    · exact ht3

theorem canonical_readGateAt {e : Env} {n : ℕ} (h : s.canonical = true) : XRCanonical (s.readGateAt e n) := by
  unfold State.readGateAt
  refine XRCanonical.bind (canonical_gatePlace h) fun a1 t2 ht3 => XRCanonical.ite ht3 ?_
  split
  · exact canonical_poisonHit ht3
  · exact ht3

theorem canonical_ptrCheck {e : Env} {g : Gate} {n : ℕ} {i : ℕ} (h : s.canonical = true) :
    XRCanonical (s.ptrCheck e g n i) := XRCanonical.bind (canonical_onExc (canonical_xlatePieces h)) fun _ _ ht => ht

theorem canonical_argCheck {e : Env} {g : Gate} {n : ℕ} {i : ℕ} (h : s.canonical = true) :
    XRCanonical (s.argCheck e g n i) := XRCanonical.ite (XRCanonical.ite (canonical_ptrCheck h) h) (XRCanonical.ite h h)

theorem canonical_argChecks {e : Env} {g : Gate} {n : ℕ} {is : List ℕ} (h : s.canonical = true) :
    XRCanonical (s.argChecks e g n is) := by
  induction is generalizing s with
  | nil => exact h
  | cons i t ih => exact XRCanonical.bind (canonical_argCheck h) fun _ _ hs => ih hs

theorem canonical_frameCheck {e : Env} {g : Gate} {n : ℕ} (h : s.canonical = true) : XRCanonical (s.frameCheck e g n) :=
  XRCanonical.ite (canonical_fresh h) (canonical_onExc (canonical_onState (canonical_xlatePieces (canonical_upCtx h)) fun _
    ht => canonical_upCtx ht))

theorem canonical_gateExits {e : Env} {g : Gate} (h : s.canonical = true) : (s.gateExits e g).canonical = true := by
  unfold State.gateExits
  dsimp only
  split
  · split
    · exact h
    · exact canonical_setExit h
  · refine canonical_clearExit ?_
    split
    · exact h
    · exact canonical_setExit h

theorem canonical_gateCall {e : Env} {g : Gate} {n : ℕ} {pa : ℕ} {ps : List (ℕ × ℕ)} (h : s.canonical = true) :
    (s.gateCall e g n pa ps).canonical = true :=
  canonical_upCtx (canonical_gateExits (canonical_retireStore (canonical_touch _ _ _ _ h)))

theorem canonical_effGcall {e : Env} {i : Ins} (h : s.canonical = true) : EffCanonical (effGcall e i s) := by
  unfold effGcall
  refine EffCanonical.ite h (EffCanonical.bind (canonical_readGateAt h) fun a1 t2 ht3 => ?_)
  split
  · exact ht3
  · exact EffCanonical.bind (canonical_argChecks ht3) fun _ _ ht => EffCanonical.bind (canonical_frameCheck ht) fun _ _ ht1
      => ⟨fun _ ht2 => canonical_gateCall ht2, ht1⟩

theorem canonical_returnPlace {x : CtxId} {c : Ctx} {va : ℕ} (h : s.canonical = true) :
    XRCanonical (s.returnPlace x c va) := by
  unfold State.returnPlace
  refine XRCanonical.ite h ?_
  dsimp only
  split
  · exact canonical_lookup h
  · exact canonical_lookup h
  · exact canonical_lookup h

theorem canonical_returnMet {x : CtxId} {pa : Option ℕ} (h : s.canonical = true) : (s.returnMet x pa).canonical = true := by
  unfold State.returnMet
  split
  · exact h
  · exact canonical_countPoison h

theorem canonical_gretFrame {e : Env} (h : s.canonical = true) : XRCanonical (s.gretFrame e) :=
  XRCanonical.ite (canonical_fresh h) (XRCanonical.bind (canonical_onExc (canonical_checkRead h)) fun _ _ ht => ht)

theorem canonical_gateBack {e : Env} {ps : List (ℕ × ℕ)} {sp : Word} {csw : Word} (h : s.canonical = true) :
    (s.gateBack e ps sp csw).canonical = true := canonical_upCtx (canonical_touchPieces h)

theorem canonical_effGret {e : Env} {i : Ins} (h : s.canonical = true) : EffCanonical (effGret e i s) := by
  unfold effGret
  refine EffCanonical.ite h (EffCanonical.ite h (EffCanonical.bind (canonical_gretFrame h) fun a1 t2 ht3 => EffCanonical.ite
    ht3 (EffCanonical.bind (canonical_returnPlace ht3) fun a4 t5 ht6 => ?_)))
  split
  · exact canonical_returnMet ht6
  · exact ⟨fun _ ht => canonical_gateBack ht, canonical_returnMet ht6⟩

theorem canonical_effect {o : Op} {e : Env} {i : Ins} (h : s.canonical = true) : EffCanonical (effect o e i s) := by
  unfold effect
  split
  · exact ⟨canonical_goesOn, h⟩
  · exact ⟨fun _ ht => canonical_upCtx ht, h⟩
  · exact EffCanonical.ite h h
  · exact canonical_effSync h
  · exact canonical_formTo h
  · exact canonical_formTo h
  · exact ⟨fun _ ht => canonical_upCtx (canonical_leaveEncl ht), h⟩
  · exact canonical_effSysret h
  · exact canonical_effXret h
  · exact canonical_effGcall h
  · exact canonical_effGret h
  · exact canonical_effMoncall h
  · exact canonical_effMonret h
  · exact canonical_effMfsr h
  · exact canonical_effMtsr h
  · exact canonical_effRand h
  iterate 23 · exact canonical_alu h
  iterate 6 · exact canonical_unary h
  · exact canonical_withOpnds h fun _ _ => ⟨canonical_setRegs, h⟩
  · exact canonical_withOpnds h fun _ _ => canonical_loadTo h
  · exact canonical_withOpnds h fun _ _ => canonical_storeFrom h
  · exact canonical_effCasD h
  · exact canonical_withOpnds h fun _ _ => canonical_loadTo h
  · exact canonical_withOpnds h fun _ _ => canonical_storeFrom h
  · exact canonical_withOpnds h fun _ _ => ⟨canonical_transfers, h⟩
  · exact canonical_effDbcc h
  · exact canonical_bitBranch h
  · exact canonical_bitBranch h
  · exact ⟨canonical_transfers, h⟩
  · exact canonical_withOpnds h fun _ _ => ⟨canonical_transfers, h⟩
  · exact EffCanonical.ite h ⟨canonical_transfers, h⟩
  · exact canonical_effCallr h
  · exact canonical_withOpnds h fun _ _ => canonical_linkTo h
  · exact canonical_withOpnds h fun _ _ => canonical_linkTo h
  · exact canonical_effRet h
  · exact canonical_effLoop h
  · exact ⟨canonical_setRegs, h⟩
  · exact canonical_effMovp h
  iterate 4 · exact canonical_memTwo h
  · exact canonical_effShrp h
  · exact canonical_effCmpp h
  · exact canonical_effPacka h
  · exact canonical_effUnpka h
  · exact canonical_decTwo h
  · exact canonical_decTwo h
  · exact canonical_decOne h
  · exact canonical_decOne h
  · exact canonical_decTwo h
  · exact canonical_decDiv h
  · exact canonical_decDiv h
  · exact canonical_effDsrr h
  · exact canonical_effDcmp h
  · exact canonical_effDmov h
  · exact canonical_withOpnds h fun _ _ => canonical_toDecReg h
  · exact canonical_effCvdb h
  · exact canonical_effDld h
  · exact canonical_effDst h
  · exact canonical_withOpnds h fun _ _ => canonical_strIns canonical_movePos h
  · exact canonical_withOpnds h fun _ _ => canonical_strIns canonical_movePos h
  · exact canonical_effTrst h
  · exact canonical_effScns h
  · exact canonical_effCmps h
  · exact canonical_effEdit h
  · exact canonical_effEdpos h
  · exact canonical_fracTwo h
  · exact canonical_fracTwo h
  · exact canonical_fracOne h
  · exact canonical_fracOne h
  · exact canonical_withOpnds h fun _ _ => canonical_toFracReg h
  · exact canonical_macWith h
  · exact canonical_macWith h
  · exact canonical_withOpnds h fun _ _ => canonical_toAcc h
  · exact canonical_withOpnds h fun _ _ => canonical_toAcc h
  · exact canonical_withOpnds h fun _ _ => canonical_toFracReg h
  · exact canonical_withOpnds h fun _ _ => ⟨canonical_setRegs, h⟩
  · exact canonical_withOpnds h fun _ _ => ⟨canonical_setRegs, h⟩
  · exact canonical_effBset h
  · exact canonical_effBclr h
  · exact canonical_effBtas h
  · exact canonical_effBtst h
  · exact canonical_effBfext h
  · exact canonical_effBfins h
  · exact canonical_effBpop h
  · exact canonical_effBff h
  · exact canonical_effSpbGo h
  · exact canonical_effSpbWait h
  · exact canonical_effSiteTake h
  · exact canonical_effSitePost h
  · exact canonical_effSiteSettle h
  · exact canonical_effLapp h
  · exact canonical_effTlbi h
  · exact canonical_effTlbl h
  · exact canonical_effTlbu h
  · exact canonical_effKset h
  · exact canonical_effKget h
  · exact canonical_effKrst h
  · exact canonical_effKload h
  · exact canonical_effKerase h

theorem canonical_evalOne {e : Env} {i : Ins} (h : s.canonical = true) : EffCanonical (evalOne e i s) :=
  EffCanonical.ite h (EffCanonical.ite h (canonical_effect h))

theorem canonical_earlyExc {e : Env} {f : Fetched} (h : s.canonical = true) : OptExcCanonical (earlyExc e f s) := by
  unfold earlyExc
  dsimp only
  have ha := OptExcCanonical.ite (c := (e.c.sip && !f.insns.any (fun i => i.op.isString)) = true)
    (show OptExcCanonical (some (strMismatch e s)) from canonical_strMismatch h) (show OptExcCanonical none from trivial)
  refine OptExcCanonical.ite (canonical_keepFirst ha ?_) ha
  generalize (if (e.c.sip && !f.insns.any (fun i => i.op.isString)) = true then some (strMismatch e s) else none) = o at ha
  cases o with
  | none => exact h
  | some p => exact ha

theorem canonical_finish {s0 : State} {x : CtxId} {f : Fetched} {ds : List Done} (h : s.canonical = true)
    (hs0 : s0.canonical = true) (hds : ∀ d ∈ ds, DoneCanonical d) :
    (s.finish s0 x f ds).canonical = true :=
  canonical_ite (foldl_canonical_mem (canonical_upCtx hs0) fun d hd => hds d (List.mem_of_mem_filter hd))
    (canonical_ite (canonical_pauseAt h hds) (canonical_retire h hds))

theorem canonical_execute {s0 : State} {x : CtxId} {f : Fetched} {steps : ℕ} (h : s.canonical = true)
    (hs0 : s0.canonical = true) :
    (s.execute s0 x f steps).canonical = true := by
  have he := canonical_evalAll (is := f.insns) (fun i t (ht : t.canonical = true) => canonical_evalOne (e := envOf s x f
      steps) (i := i) ht)
    (canonical_earlyExc (e := envOf s x f steps) (f := f) h) h
  unfold State.execute
  split
  · next e s1 hr =>
    rw [hr] at he
    exact canonical_ite he (canonical_raiseIns he)
  · next ds s1 hr =>
    rw [hr] at he
    exact canonical_ite he.2 (canonical_finish he.2 hs0 he.1)

theorem canonical_fetchReplay {x : CtxId} {d : DelayBranch} (h : s.canonical = true) : XRCanonical (s.fetchReplay x d) := by
  unfold State.fetchReplay
  dsimp only
  split
  · rename_i e4
    exact canonical_upCtx (XRCanonical.of_exc (canonical_fetch (canonical_upCtx h)) e4)
  · rename_i e8
    exact canonical_onState (canonical_fetch (canonical_upCtx (XRCanonical.of_ok (canonical_fetch (canonical_upCtx h)) e8)))
      fun _ ht => canonical_upCtx ht

theorem canonical_fetchNext {x : CtxId} (h : s.canonical = true) : XRCanonical (s.fetchNext x) := by
  unfold State.fetchNext
  split
  · exact canonical_fetch h
  · exact XRCanonical.ite (canonical_fetchReplay h) (canonical_fetch h)

theorem canonical_command {x : CtxId} {o : Op} {steps : ℕ} (h : s.canonical = true) :
    (s.command x o steps).canonical = true := by
  unfold State.command
  refine canonical_ite h ?_
  split
  · rename_i e4
    exact canonical_raiseFetched (XRCanonical.of_exc (canonical_fetchNext h) e4)
  · rename_i e8
    exact canonical_ite (canonical_execute (XRCanonical.of_ok (canonical_fetchNext h) e8) h) h

theorem canonical_attempt {s s1 : State} {x : CtxId} {o : Op} {steps : Nat} {f : Fetched} {r : XR (List Done)}
    (h : s.canonical = true) (hr : s.attempt x o steps = some (f, s1, r)) :
    s1.canonical = true ∧ DonesCanonical r := by
  unfold State.attempt at hr
  split at hr
  · cases hr
  · split at hr
    · cases hr
    · next f' t hf =>
      have ht : t.canonical = true := XRCanonical.of_ok (canonical_fetchNext h) hf
      split at hr
      · cases hr
        exact ⟨ht, canonical_evalAll (fun i u hu => canonical_evalOne hu) (canonical_earlyExc ht) ht⟩
      · cases hr

theorem canonical_loseReg {x : CtxId} {r : ℕ} (h : s.canonical = true) : (s.loseReg x r).canonical = true :=
  canonical_ite (canonical_upCtx (canonical_fresh h)) (canonical_ite (canonical_upCtx (canonical_fresh (canonical_fresh h)))
    (canonical_upCtx (canonical_fresh h)))

theorem canonical_regParity {x : CtxId} {r : ℕ} (h : s.canonical = true) : (s.regParity x r).canonical = true :=
  canonical_raiseIns (canonical_integRec _ _ _ _ _ _ (canonical_fresh (canonical_loseReg h)))

theorem canonical_ucParity {x : CtxId} {store : BitVec 2} {addr : BitVec 14} {copyBad : Bool} (h : s.canonical = true) :
    (s.ucParity x store addr copyBad).canonical = true :=
  canonical_ite (canonical_fenceFor (canonical_upCtx (canonical_ucReload (canonical_setCore (canonical_ucFailed
    (canonical_mchk h)))))) (canonical_raiseIns (canonical_ucReload (canonical_setCore (canonical_ucFailed (canonical_mchk
    h)))))

theorem canonical_ucMeets {x : CtxId} {o : Op} {steps : ℕ} {store : BitVec 2} {addr : BitVec 14} {copyBad : Bool}
    (h : s.canonical = true) :
    (s.ucMeets x o steps store addr copyBad).canonical = true := by
  have hc := canonical_command (x := x) (o := o) (steps := steps) h
  unfold State.ucMeets
  refine canonical_ite hc ?_
  split
  · exact hc
  · next f s1 r hr =>
    obtain ⟨hs1, -⟩ := canonical_attempt h hr
    exact canonical_ite (canonical_ite (canonical_ucParity hc) hc) (canonical_ite (canonical_ucParity hs1) hc)

theorem canonical_meetsUpset {x : CtxId} {o : Op} {steps : ℕ} {u : Upset} (h : s.canonical = true) :
    (s.meetsUpset x o steps u).canonical = true := by
  have hc := fun {t : State} (ht : t.canonical = true) => canonical_command (x := x) (o := o) (steps := steps) ht
  unfold State.meetsUpset
  split
  · exact hc h
  · exact canonical_withUpset (canonical_ite (canonical_bumpSat h) h) fun t ht => hc ht
  · exact canonical_withUpset (canonical_ite (canonical_bumpSat h) h) fun t ht => hc ht
  · exact canonical_withUpset (canonical_ite (canonical_bumpSat h) h) fun t ht => hc ht
  · split
    · exact hc h
    · next f s1 q hr => exact canonical_ite (canonical_regParity (canonical_attempt h hr).1) (hc h)
  · exact canonical_ucMeets h
  · split
    · next f s1 ds s2 hr =>
      refine canonical_ite (hc h) (canonical_ite ?_ (hc (canonical_ite h (canonical_bumpSat h))))
      have hx := canonical_residueFail (x := x) (canonical_attempt h hr).1
      split
      · next e t he => exact canonical_raiseIns (EffCanonical.of_exc hx he)
      · next a t he => exact (EffCanonical.of_ok hx he).2
    · exact hc h

theorem canonical_commandUpset {x : CtxId} {o : Op} {steps : ℕ} {u : Upset} (h : s.canonical = true) :
    (s.commandUpset x o steps u).canonical = true :=
  canonical_ite (canonical_tideStop (canonical_meetsUpset (canonical_tideStop h))) (canonical_meetsUpset h)

theorem canonical_exec {i : Instr} (h : s.canonical = true) : OutCanonical (exec i s) := by
  unfold exec
  split
  · exact canonical_accessWrite h
  · exact canonical_ite (canonical_setHint h) h
  · exact canonical_execRcRead h
  · exact canonical_ite (canonical_accessRead h) h
  · exact canonical_ite (canonical_accessRead h) h
  · exact canonical_ite (canonical_accessWrite h) h
  · exact canonical_ite (canonical_accessWrite h) h
  · exact canonical_execValidClear h
  · exact canonical_ite (canonical_withUpset h fun _ ht => canonical_accessRead ht) h
  · exact canonical_ite (canonical_accessWrite h) h
  · exact canonical_ite (canonical_hostTimeout h) h
  · exact canonical_ite (canonical_accessWrite h) h
  · exact canonical_execMailboxRead h
  · exact canonical_ite (canonical_writeReg h) h
  · exact canonical_ite (canonical_writeReg h) h
  · exact canonical_withUpset h fun _ ht => canonical_consume (canonical_monOpen ht)
  · exact canonical_ite (canonical_postReply (canonical_monOpen h)) h
  · exact canonical_ite h h
  · exact canonical_readReg h
  · exact canonical_writeReg h
  · exact canonical_writeReg h
  · exact canonical_ite (canonical_writeReg h) h
  · exact canonical_ite (canonical_writeReg h) h
  · exact canonical_ite (canonical_readReg h) h
  · exact canonical_ite (canonical_writeReg h) h
  · exact canonical_ite (canonical_writeReg h) h
  · exact canonical_ite (canonical_accessWrite h) h
  · exact canonical_ite (canonical_accessWrite h) h
  · exact canonical_withUpset h fun _ ht => canonical_convert ht
  · exact canonical_ite (canonical_requestSave h) h
  · exact canonical_writeReg h
  · exact canonical_withUpset h fun _ ht => canonical_fenceDone ht
  · exact canonical_writeReg h
  · exact canonical_coreStarts h
  · exact canonical_writeReg h
  · exact canonical_returnDone h
  · exact canonical_writeReg h
  iterate 6 · exact canonical_ite (canonical_writeReg h) h
  · exact canonical_ite (canonical_withUpset h fun _ ht => canonical_writeReg ht) h
  · exact canonical_ite (canonical_writeReg h) h
  · exact canonical_ite (canonical_withUpset h fun _ ht => canonical_accept ht) h
  · exact canonical_withUpset h fun _ ht => canonical_writeReg ht
  iterate 8 · exact canonical_writeReg h
  · exact canonical_execAssignWrite h
  iterate 4 · exact canonical_writeReg h
  · exact canonical_ite (canonical_setHint (canonical_setIrq h)) h
  · exact canonical_ite (canonical_chipReset h) h
  · exact canonical_writeReg h
  · exact canonical_timerSet h
  · exact foldl_canonical (canonical_upCtx h) fun _ _ ht => canonical_nmiCore ht
  · exact canonical_withUpset h fun _ ht => canonical_ite (canonical_tideStop (canonical_enterAsync (canonical_upCtx ht)))
      ht
  · exact canonical_execInterruptEntry h
  · exact canonical_execBusErrorEntry h
  · exact canonical_ite (canonical_storeParity h) (canonical_ite (canonical_performNext h) h)
  · exact canonical_execDispatchLoad h
  · exact canonical_execTenantSave h
  · exact canonical_ite h (canonical_quantumPick h)
  · exact canonical_ite (canonical_setLinkState (canonical_setSignal h)) (canonical_setSignal h)
  · exact canonical_execSignalLost h
  · exact canonical_ite (canonical_setLinkState h) h
  · exact canonical_ite (canonical_setLinkState h) h
  · exact canonical_writeReg h
  · exact canonical_ite (canonical_writeReg h) h
  · exact canonical_ite (canonical_writeReg h) h
  · exact canonical_writeReg h
  · exact canonical_ite (canonical_bumpSat (canonical_setLinkState h)) h
  iterate 5 · exact canonical_withUpset h fun _ ht => canonical_frameIn ht
  · exact canonical_ite (canonical_sendFrame h) h
  · exact canonical_withUpset h fun _ ht => canonical_goBackDue ht
  · exact canonical_ite (canonical_sendFrame h) h
  · exact canonical_stationLost h
  · exact canonical_withUpset h fun _ ht => canonical_ite (canonical_setAttn (foldl_canonical (canonical_upSite ht) fun _ _
      ht1 => canonical_accept ht1)) ht
  · exact canonical_ite (canonical_withUpset h fun _ ht => canonical_writeReg ht) h
  · exact canonical_ite (canonical_withUpset h fun _ ht => canonical_writeReg ht) h
  · exact canonical_execAppendComplete h
  · exact canonical_withUpset h fun _ ht => canonical_retry ht
  · exact canonical_withUpset h fun _ ht => canonical_retry ht
  · exact canonical_ite (canonical_withUpset h fun _ ht => canonical_writeReg ht) h
  · exact canonical_execKloadDone h
  · exact canonical_withUpset h fun _ ht => canonical_writeReg ht
  · exact canonical_withUpset h fun _ ht => canonical_ringCommand ht fun _ _ ht1 => canonical_genKey ht1
  · exact canonical_withUpset h fun _ ht => canonical_ringCommand ht fun _ _ ht1 => canonical_kwrapStaged ht1
  · exact canonical_withUpset h fun _ ht => canonical_ringCommand ht fun _ _ ht1 => canonical_verify ht1
  · exact canonical_execCounterResidueRetry h
  · exact canonical_withUpset h fun _ ht => canonical_spbComplete ht
  · exact canonical_withUpset h fun _ ht => canonical_spbComplete ht
  · exact canonical_ite (canonical_bootGo (canonical_setLine h)) h
  · exact canonical_ite h (canonical_entropyLost h)
  · exact canonical_ite (canonical_ite h (canonical_entropyLost h)) h
  · exact canonical_ite (canonical_ite (canonical_bumpWrap (canonical_with (canonical_scrubWord h))) (canonical_with
      (canonical_scrubWord h))) h
  · exact canonical_tlbiDone h
  · exact canonical_ite (canonical_chipReset h) h
  · exact canonical_ite (canonical_chipReset h) h
  · exact canonical_clockLost h
  · exact canonical_refclkGood h
  · exact canonical_serdesLost h
  · exact canonical_brownsOut h
  · exact canonical_droops h
  · exact canonical_sensors h
  · exact canonical_sensors h
  · exact canonical_sensors h
  · exact canonical_vidMove h
  · exact canonical_endInternalReset h
  · exact canonical_ite h (canonical_setReg _ _ _ h)
  · exact canonical_withUpset h fun _ ht => canonical_runRom ht
  · exact canonical_withUpset h fun _ ht => canonical_endTraining ht
  · exact canonical_withUpset h fun _ ht => canonical_sourceTimeout ht
  · exact canonical_rngTimeout h
  · exact canonical_withUpset h fun _ ht => canonical_consumeType ht
  · exact canonical_withUpset h fun _ ht => canonical_consumeType ht
  · exact canonical_consumeType h
  · exact canonical_writeReg h
  · exact canonical_writeReg h
  iterate 9 · exact canonical_ueWriteCmd h
  · exact canonical_withUpset h fun _ ht => canonical_ueDone ht
  · exact canonical_ite (canonical_writeReg h) h
  · exact canonical_writeReg h
  · exact canonical_writeReg h
  · exact canonical_execKvaultWrite h
  · exact foldl_canonical (canonical_setPort (canonical_cutPulse (canonical_abandonDae h))) fun _ _ ht => canonical_upCtx ht
  · exact canonical_scanBoundary (canonical_loadIr h)
  · exact canonical_capture (canonical_loadIr h)
  · exact canonical_scanBoundary (canonical_loadIr h)
  iterate 5 · exact canonical_capture (canonical_loadIr h)
  · exact canonical_ite h h
  · exact canonical_ite (canonical_capture (canonical_loadIr h)) (canonical_ite (canonical_progRequest (canonical_capture
      (canonical_loadIr h))) (canonical_setPort (canonical_capture (canonical_loadIr h))))
  · exact canonical_ite (canonical_setPort (canonical_ite (canonical_blow h) (canonical_tearFuse h))) h
  · exact canonical_ite (canonical_sortRun (canonical_capture (canonical_loadIr h))) (canonical_capture (canonical_loadIr
      h))
  · exact canonical_lcAdvRun (canonical_capture (canonical_loadIr h))
  · exact canonical_ite (canonical_setPort (canonical_capture (canonical_loadIr h))) (canonical_capture (canonical_loadIr
      h))
  · exact canonical_ite (canonical_withUpset h fun _ ht => canonical_daeIssue ht) h
  · exact canonical_ite (canonical_daeEnd (canonical_ite (canonical_daeIssue h) h)) h
  · exact canonical_dbgCtrl h fun _ _ ht => canonical_ite ht (canonical_upCtx ht)
  · exact canonical_ite (canonical_haltNow h) h
  · exact canonical_dbgCtrl h fun _ _ ht => canonical_resumeCtx ht
  · exact canonical_dbgCtrl h fun _ _ ht => canonical_ite (canonical_resumeCtx ht) ht
  · exact canonical_ite (canonical_chipReset (canonical_capture (canonical_fresh (canonical_loadIr h)))) (canonical_capture
      (canonical_fresh (canonical_loadIr h)))
  iterate 128 · exact canonical_commandUpset h
  · exact canonical_performNext h
  · exact canonical_fuseDone h
  · exact canonical_withUpset h fun _ ht => canonical_enclDone ht
  · exact canonical_ite h h

theorem canonical_step (h : s.canonical = true) : OutCanonical (step s) := by
  unfold step
  split
  · exact canonical_idle h
  · exact canonical_exec h

end

/-- Settles O60: the command at the front of the queue keeps the canonical form, and so does an idle step. -/
theorem everyStepKeepsTheCanonicalForm : Obligations.EveryStepKeepsTheCanonicalForm := by
  unfold Obligations.EveryStepKeepsTheCanonicalForm
  intro s t h hstep
  have ht := canonical_step h
  rw [hstep] at ht
  exact ht

end Sys2Proof.Laws
end

section
/-! SUPPORT. A chip reset (spec/18), and a scan of the maintenance port (spec/22): what they leave. -/

namespace Sys2Proof.Laws

open Sys2Proof Sys2Proof.Machine

variable {s : State} {c : Cause}

/-- The causes that RESET_CAUSE collects (R435). -/
theorem reg_chipReset_cause (hc : c ≠ .por) :
    (s.chipReset c).reg (.g .resetCause) = s.reg (.g .resetCause) ||| BitVec.ofNat 32 (2 ^ c.bit) := by
  rw [State.chipReset, reg_setReg_other _ _ _ _ (by simp), reg_setReg_other _ _ _ _ (by simp), reg_setReg_same, if_neg hc]

theorem reg_chipReset_cause_por : (s.chipReset .por).reg (.g .resetCause) = 1 := by
  rw [State.chipReset, reg_setReg_other _ _ _ _ (by simp), reg_setReg_other _ _ _ _ (by simp), reg_setReg_same]
  rfl

theorem reg_chipReset_scratch1 :
    (s.chipReset c).reg (.g .scratch1) = if c = .por then 0 else s.reg (.g .scratch1) := by
  rw [State.chipReset, reg_setReg_other _ _ _ _ (by simp), reg_setReg_same]
  rfl

theorem reg_chipReset_status : (s.chipReset c).reg (.boot .status)
    = BitVec.ofNat 32 (2 * bit (!c.zeroes && (!s.inReset || bitAt (s.reg (.boot .status)) 1))) := by
  rw [State.chipReset, reg_setReg_same]

/-- Every other register takes its reset value (R434). -/
theorem reg_chipReset_other {r : Reg} (hc : r ≠ .g .resetCause) (h1 : r ≠ .g .scratch1) (hs : r ≠ .boot .status) :
    (s.chipReset c).reg r = r.spec.reset := by
  rw [State.chipReset, reg_setReg_other _ _ _ _ hs, reg_setReg_other _ _ _ _ h1, reg_setReg_other _ _ _ _ hc]
  rfl

/-- A chip reset drops every context but the pending halt requests (R527). -/
theorem ctxs_chipReset (hc : c ≠ .por) : (s.chipReset c).ctxs = keepHalts s.ctxs := if_neg hc

/-- A scan changes nothing of the machine but the port, a fuse whose pulse it cuts, and the randomness it takes (R529). -/
structure OnlyPort (s t : State) : Prop where
  regs : t.regs = s.regs
  mem : t.mem = s.mem
  inReset : t.inReset = s.inReset
  ctxs : t.ctxs = s.ctxs
  sites : t.sites = s.sites
  cores : t.cores = s.cores
  sensed : t.sensed = s.sensed
  fuses : s.port.fuse.busy = false → t.fuses = s.fuses

theorem onlyPort_cutPulse (s : State) : OnlyPort s s.cutPulse := by
  unfold State.cutPulse
  split
  · next hb => exact ⟨rfl, rfl, rfl, rfl, rfl, rfl, rfl, fun h => absurd (h.symm.trans hb) Bool.false_ne_true⟩
  · exact ⟨rfl, rfl, rfl, rfl, rfl, rfl, rfl, fun _ => rfl⟩

theorem loadIr_of_not_holds {i : PortIns} (hi : i.holds = false) :
    s.loadIr i = s.cutPulse.setPort (fun p => { p with ir := i, irCap := s.irCapture }) := by
  rw [State.loadIr, hi]
  rfl

theorem onlyPort_loadIr {i : PortIns} (hi : i.holds = false) : OnlyPort s (s.loadIr i) := by
  rw [loadIr_of_not_holds hi]
  obtain ⟨hr, hm, hin, hx, hs, hc, he, hf⟩ := onlyPort_cutPulse s
  exact ⟨hr, hm, hin, hx, hs, hc, he, hf⟩

theorem ir_loadIr {i : PortIns} (hi : i.holds = false) : (s.loadIr i).port.ir = i := by
  rw [loadIr_of_not_holds hi]
  rfl

theorem OnlyPort.reg {s t : State} (h : OnlyPort s t) (r : Reg) : t.reg r = s.reg r := by
  rw [State.reg, State.reg, h.regs]

/-- The enables of the port follow the registers and the fuses that were sensed. -/
theorem OnlyPort.dbgEn {s t : State} (h : OnlyPort s t) : t.dbgEn = s.dbgEn := by
  have hl : t.lcState = s.lcState := by
    unfold State.lcState State.fuseField
    rw [h.sensed]
  rw [State.dbgEn, State.dbgEn, State.dbgCeil, State.dbgCeil, hl, h.reg]

end Sys2Proof.Laws
end

section
/-! PROOFS. The state after power-on reset, and a reset by the maintenance port (O59, O58). -/

namespace Sys2Proof.Proofs.Reset

open Sys2Proof Sys2Proof.Machine Sys2Proof.Laws

theorem assignBit_allOnes {k : Nat} (hk : k < 64) : assignBit 0xFFFFFFFF 0xFFFFFFFF k = .secure := by
  have hone : ∀ n, n < 32 → bitAt (0xFFFFFFFF : Word32) n = true := by decide
  unfold assignBit
  by_cases h : k < 32
  · rw [if_pos h, hone k h, if_pos rfl]
  · rw [if_neg h, hone (k - 32) (by omega), if_pos rfl]

/-- Settles O59: nothing is listed in the reset state, so every register reads its reset value. -/
theorem resetStateHoldsTheSpecsValues : Obligations.ResetStateHoldsTheSpecsValues := by
  unfold Obligations.ResetStateHoldsTheSpecsValues
  have htimer (x : CtxId) : State.reset.timerWorld x = .secure := by
    unfold State.timerWorld
    by_cases hx : x.val = 64
    · exact if_pos hx
    · exact (if_neg hx).trans (assignBit_allOnes (by omega))
  have hg (x : CtxId) (g : BitVec 5) : (State.reset.ctx x).getG g = 0 := by
    by_cases h : g = 0
    · exact if_pos h
    · exact if_neg h
  exact ⟨rfl, rfl, rfl, fun _ => rfl, rfl, rfl, fun k => assignBit_allOnes k.isLt, htimer, rfl, rfl, rfl, rfl, rfl, rfl,
    fun _ => rfl, fun _ => rfl, fun x => ⟨rfl, hg x⟩, fun _ => rfl⟩

/-- Settles O58: with the value and an enable the scan ends in a chip reset of cause TAP, and else in the scan alone. -/
theorem tapResetNeedsItsValueAndAnEnable : Obligations.TapResetNeedsItsValueAndAnEnable := by
  unfold Obligations.TapResetNeedsItsValueAndAnEnable
  intro s v able
  have hport := onlyPort_loadIr (s := s) (i := .tapReset) rfl
  let s1 := (s.loadIr .tapReset).fresh.2.capture ((s.loadIr .tapReset).fresh.1.toNat % 256)
  have hs1 : OnlyPort s s1 := ⟨hport.regs, hport.mem, hport.inReset, hport.ctxs, hport.sites, hport.cores, hport.sensed,
    hport.fuses⟩
  have hexec : exec (.tapReset v) s
      = .next (if v = 0xA5 ∧ (bitAt s1.dbgEn 0 || bitAt s1.dbgEn 2) = true then s1.chipReset .tap else s1) := rfl
  have hable : (bitAt s1.dbgEn 0 || bitAt s1.dbgEn 2) = true ↔ able := by rw [hs1.dbgEn, Bool.or_eq_true]
  constructor
  · intro hv ha
    refine ⟨s1.chipReset .tap, hexec.trans (congrArg _ (if_pos ⟨hv, hable.2 ha⟩)), rfl, ?_, ?_, rfl, fun r hc h1 hs =>
      reg_chipReset_other hc h1 hs⟩
    · rw [reg_chipReset_cause (by decide), hs1.reg]
      rfl
    · rw [ctxs_chipReset (by decide), hs1.ctxs]
  · intro hno
    have hnot : ¬ (v = 0xA5 ∧ (bitAt s1.dbgEn 0 || bitAt s1.dbgEn 2) = true) := fun ⟨hv, ha⟩ =>
      hno.elim (fun h => h hv) fun h => h (hable.1 ha)
    exact ⟨s1, hexec.trans (congrArg _ (if_neg hnot)), hs1.regs, hs1.mem, hs1.inReset, hs1.ctxs, hs1.sites, hs1.cores,
      hs1.fuses, ir_loadIr (s := s) (i := .tapReset) rfl⟩

end Sys2Proof.Proofs.Reset
end

section
/-! PROOFS. TLBL, TLBU and TLBI (O15). -/

namespace Sys2Proof.Proofs.Lookaside

open Sys2Proof Sys2Proof.Machine Sys2Proof.Laws

variable {s s1 s2 : State} {x : CtxId} {i : Ins} {f : Fetched} {o : Op} {k : Nat}

/-- A change of a core leaves every context as it is. -/
theorem buffersOnly_upCore (x : CtxId) (k : Nat) (g : Core → Core) :
    BuffersOnly x (fun t => t.setCore k (g (t.core k))) :=
  ⟨fun _ _ => rfl, fun _ => rfl, fun s => ⟨(s.ctx x).storeBuf, rfl⟩⟩

/-- An instruction that executes alone and changes its core completes with that. -/
theorem commandUpset_upCore (g : Core → Core) (h : s.alone x = some (i, f, s1)) (ho : i.op = o)
    (he : effect o (envOf s1 x f 0) i s1 = completes (fun t => t.setCore k (g (t.core k))) s2) (hr : s2.inReset = false)
    (hq : (s2.ctx x).quiet = true) :
    s.commandUpset x o 0 .none = (s2.setCore k (g (s2.core k))).afterIns x f id := by
  refine commandUpset_performs (m := fun t => t.setCore k (g (t.core k))) h ho he rfl (buffersOnly_upCore x k g) ?_
    (fun c => .refl c) hr hq
  rw [(buffersOnly_upCore x k g).retired, upCtx_upCtx]
  rfl

/-- Settles O15: each of the three changes its core alone, once the lookup has given the translation. -/
theorem lookasideInstructionsComplete : Obligations.LookasideInstructionsComplete := by
  unfold Obligations.LookasideInstructionsComplete
  intro s s1 x i f h hu c k lock
  obtain ⟨hq, hr⟩ := alone_quiet h
  have huser : (envOf s1 x f 0).user = false := hu
  refine ⟨fun p q t s2 ho hops ht hr2 hq2 => ?_, fun p ho hops => ?_, fun p q ho hops hw hl hn => ?_⟩
  · have heff : effTlbl (envOf s1 x f 0) i s1 = completes (fun v => v.lockSlot k ((c.getG p).toNat % 16) (some t)) s2 := by
      rw [effTlbl, huser, if_neg Bool.false_ne_true, withOpnds_regs _ [p, q] hops]
      exact congrArg (fun r : XR TlbEntry => r.bind _) ht
    exact congrArg _ (commandUpset_upCore (fun v => { v with locked := smSet v.locked none _ (some t) }) h ho heff hr2 hq2)
  · have heff : effTlbu (envOf s1 x f 0) i s1 = completes (fun v => v.lockSlot k ((c.getG p).toNat % 16) none) s1 := by
      rw [effTlbu, huser, if_neg Bool.false_ne_true, withOpnds_regs _ [p] hops]
      rfl
    exact congrArg _ (commandUpset_upCore (fun v => { v with locked := smSet v.locked none _ none }) h ho heff hr hq)
  · have heff : effTlbi (envOf s1 x f 0) i s1 = completes (fun v => v.setCore k { v.core k with tlbis := (v.core k).tlbis ++
        [{ ctx := x, span := BitVec.ofNat 2 i.num, walk := decide (4 ≤ i.num), va := (c.getG p).toNat % 2 ^ 48
           sel := c.getG q }] }) s1 := by
      rw [effTlbi, huser, if_neg Bool.false_ne_true, withOpnds_regs _ [p, q] hops]
      have hworld : ¬ (bitAt (c.getG q) 24 ∧ c.world = .nonSecure) := fun ⟨hb, hn⟩ => hw.elim
        (fun h0 => Bool.false_ne_true (h0.symm.trans hb)) fun hs => by rw [hs] at hn; cases hn
      have hspan : BitVec.ofNat 2 (i.num % 4) = BitVec.ofNat 2 i.num := BitVec.eq_of_toNat_eq (by simp)
      have hwalk : bitAt (BitVec.ofNat 3 i.num) 2 = decide (4 ≤ i.num) := by
        interval_cases i.num <;> rfl
      refine (if_neg hworld).trans ((if_neg (by exact Nat.not_le.2 hl)).trans ?_)
      rw [hspan, hwalk]
      rfl
    exact congrArg _ (commandUpset_upCore (fun v => { v with tlbis := v.tlbis ++ [_] }) h ho heff hr hq)

end Sys2Proof.Proofs.Lookaside
end

section
/-! SUPPORT. Appends that begin reach no context (spec/17, R410, R421, R426); the word of a status (spec/04). -/

namespace Sys2Proof.Laws

open Sys2Proof Sys2Proof.Machine

@[simp] theorem standing_setAttn (s : State) (n : SiteId) (k : Nat) : standing (s.setAttn n k) = standing s := by
  rw [State.setAttn]
  cases attnLine k <;> rfl

@[simp] theorem standing_readVault (s : State) (n : SiteId) : standing (s.readVault n) = standing s :=
  standing_readsOnly (.readVault s n)

@[simp] theorem standing_upSite (s : State) (n : SiteId) (f : Site → Site) : standing (s.upSite n f) = standing s := rfl

@[simp] theorem standing_useSlot (s : State) (k : Nat) : standing (s.useSlot k) = standing s := rfl

@[simp] theorem standing_tryBegin (s : State) (n : SiteId) : standing (s.tryBegin n) = standing s := by
  unfold State.tryBegin
  split
  · rfl
  · next a l _ =>
    by_cases hidle : (a.began.isSome || Tide.hasSite s.tide.entries n || !(s.site n).ringSet) = true
    · rw [if_pos hidle]
    rw [if_neg hidle]
    by_cases hfull : s.ringFull n = true
    · rw [if_pos hfull]
      split <;> simp
    rw [if_neg hfull]
    by_cases hbusy : 8 ≤ s.opCount
    · rw [if_pos hbusy]
    rw [if_neg hbusy]
    cases s.liveSlot n with
    | none => rfl
    | some k =>
      by_cases hsite : a.kind.ofSite = true
      · simp [hsite]
      · simp [hsite]

@[simp] theorem standing_accept (s : State) (n : SiteId) (k : AppendKind) : standing (s.accept n k) = standing s :=
  (standing_tryBegin _ n).trans rfl

/-- A status stands in the top byte of its word. -/
theorem statusWord_zero (code : Nat) : statusWord code 0 = BitVec.ofNat 64 (code * 2 ^ 56) := by
  rw [statusWord, Nat.add_zero]

end Sys2Proof.Laws
end

section
/-! PROOFS. LAPP (O27). -/

namespace Sys2Proof.Proofs.JournalInstructions

open Sys2Proof Sys2Proof.Machine Sys2Proof.Laws Sys2Proof.Proofs.SpoonbillInstructions Sys2Proof.Proofs.Bits

variable {s s1 s2 : State} {e : Env} {i : Ins} {g b q : Val} {us : List (BitVec 5 × Word)} {ps : List (Nat × Nat)}

/-- The code of an append is the byte of its control word. -/
theorem ofNat_code (w : Word) : BitVec.ofNat 8 (bitsOf w 31 24) = BitVec.ofNat 8 (w.toNat / 2 ^ 24) :=
  BitVec.eq_of_toNat_eq (by simp [bitsOf, Nat.shiftRight_eq_div_pow])

/-! ## The checks of LAPP in their order -/

section

variable (ht : e.c.ten = true) (hv : evalOpnds e i e.c 0 i.ops = .ok ([g, b, q], us)) (ha : q.word.toNat % 16 = 0)
include ht hv ha

theorem effLapp_noRing (hset : (s.site e.c.tag).ringSet = false) : effLapp e i s = withStatus e g.rn 5 s := by
  refine (onTenant_aligned ht hv ha _).trans ?_
  simp only [hset, Bool.not_false, if_true, valAt_zero]

theorem effLapp_bad (hset : (s.site e.c.tag).ringSet = true) (hgood : lappGood b.word = false) :
    effLapp e i s = withStatus e g.rn 4 s := by
  refine (onTenant_aligned ht hv ha _).trans ?_
  simp only [hset, hgood, valAt_succ, valAt_zero, Bool.not_true, Bool.not_false, Bool.false_eq_true, if_false, if_true]

theorem effLapp_full (hset : (s.site e.c.tag).ringSet = true) (hgood : lappGood b.word = true)
    (hfull : s.lappFull e.c.tag = true) : effLapp e i s = withStatus e g.rn 2 s := by
  refine (onTenant_aligned ht hv ha _).trans ?_
  simp only [hset, hgood, hfull, valAt_succ, valAt_zero, Bool.not_true, Bool.false_eq_true, if_false, if_true]

theorem effLapp_queues (hset : (s.site e.c.tag).ringSet = true) (hgood : lappGood b.word = true)
    (hfull : s.lappFull e.c.tag = false)
    (hx : s.checkRead e.x { own := e.own } .read false (pagePieces q.word.toNat (bitsOf b.word 11 0)) = .ok ps s2) :
    effLapp e i s = completes (fun t => t.lapp e.x e.c.tag g.rn b.word ps) s2 := by
  refine (onTenant_aligned ht hv ha _).trans ?_
  simp only [hset, hgood, hfull, hx, ok_bind, valAt_succ, valAt_zero, Bool.not_true, Bool.false_eq_true, if_false]

end

/-- Settles O27: the checks in their order, and an append that passes them all enters the queue. -/
theorem lappQueuesAnAppend : Obligations.LappQueuesAnAppend := by
  unfold Obligations.LappQueuesAnAppend
  intro s s1 s2 x i f g b q us ps h hten ho hv ha n w status
  obtain ⟨hq, hr⟩ := alone_quiet h
  have hstatus (code : Nat) (he : effLapp (envOf s1 x f 0) i s1 = withStatus (envOf s1 x f 0) g.rn code s1) :
      exec (.lapp x) s = .next (status code) := by
    have hcmd := commandUpset_withStatus h ho he hr hq
    rw [statusWord_zero] at hcmd
    exact congrArg _ hcmd
  refine ⟨fun hset => hstatus 5 (effLapp_noRing hten hv ha hset),
    fun hset hgood => hstatus 4 (effLapp_bad hten hv ha hset hgood),
    fun hset hgood hfull => hstatus 2 (effLapp_full hten hv ha hset hgood hfull), fun hset hgood hfull hx hr2 hq2 => ?_⟩
  let p (t : State) : State := ((t.touchPieces ps false).accept n
    (.lapp (BitVec.ofNat 8 (w.toNat / 2 ^ 24)) (bitAt w 16) (bitAt w 17) (s2.peekPieces x ps))).upCtx x (fun c => c.setG g.rn 0)
  have hlen : bitsOf b.word 11 0 = w.toNat % 2 ^ 12 := rfl
  rw [← hlen] at hx
  have hstays (t : State) : standing ((t.touchPieces ps false).accept n
      (.lapp (BitVec.ofNat 8 (w.toNat / 2 ^ 24)) (bitAt w 16) (bitAt w 17) (s2.peekPieces x ps))) = standing t :=
    (standing_accept _ n _).trans (standing_touchPieces t ps false)
  have hcmd : s.commandUpset x .lapp 0 .none = s2.through x f p := by
    refine commandUpset_through h ho (effLapp_queues hten hv ha hset hgood hfull hx) hr2 hq2 (fun own => ?_) (fun t => ?_)
      fun t => ?_
    · have hbytes := peekPieces_retired s2 x own ps
      rw [State.lapp, ofNat_code]
      exact congrArg (fun bs => (State.accept _ n (.lapp _ _ _ bs)).putG x g.rn 0) hbytes
    · obtain ⟨-, hreset, -⟩ := standing_eq_iff.mp (hstays t)
      exact hreset
    · obtain ⟨hctxs, -⟩ := standing_eq_iff.mp (hstays t)
      rw [ctx_upCtx_same, ctx_of_ctxs hctxs]
      exact .setG _ _ _
  exact congrArg _ hcmd

end Sys2Proof.Proofs.JournalInstructions
end

section
/-! PROOFS. KLOAD and KERASE (O28). -/

namespace Sys2Proof.Proofs.KeyCommands

open Sys2Proof Sys2Proof.Machine Sys2Proof.Laws Sys2Proof.Proofs.SpoonbillInstructions

variable {s s1 : State} {x : CtxId} {i : Ins} {f : Fetched} {e : Env} {g b : Val} {us : List (BitVec 5 × Word)} {n : SiteId} {k : Nat}

/-- An instruction of the secure supervisor goes on with its operands (R412). -/
theorem onKeys_secure (hu : e.user = false) (hw : e.c.world = .secure) {vs : List Val}
    (hv : evalOpnds e i e.c 0 i.ops = .ok (vs, us)) (q : List Val → XR Done) : onKeys e i s q = q vs := by
  have hns : ¬ e.c.world = .nonSecure := fun h => by rw [hw] at h; cases h
  rw [onKeys, hu, if_neg Bool.false_ne_true, if_neg hns]
  exact withOpnds_ok hv _

/-! ## KLOAD (R411) -/

theorem buffersOnly_queueLoad (x : CtxId) (n : SiteId) : BuffersOnly x (fun s => s.queueLoad n) :=
  ⟨fun _ _ => rfl, fun _ => rfl, fun s => ⟨(s.ctx x).storeBuf, rfl⟩⟩

/-! ## KERASE (R412) -/

/-- The state in which a tenant's key is erased. -/
def keyErased (s : State) (n : SiteId) : State :=
  match s.slotOf n with
  | none => (s.setKeyState n 3).setAttn n 7
  | some k => ((s.zeroSlot n k).setKeyState n 3).setAttn n 7

/-- What KERASE gives: the slot that held the key, with the bit that says so (R412). -/
def slotWord (s : State) (n : SiteId) : Word :=
  match s.slotOf n with
  | none => 0
  | some k => BitVec.ofNat 64 (64 + k)

/-- With no load waiting KERASE is the erasure alone. -/
theorem keyErase_noLoads (h : s.curlew.loads = []) (x : CtxId) (d : BitVec 5) (n : SiteId) :
    s.keyErase x d n = (keyErased s n).upCtx x (fun c => c.setG d (slotWord s n)) := by
  have hs : s.loadsOf n s.curlew.loads = s := by
    have hl : s.curlew.loads.filter (fun u => decide (u ≠ n)) = s.curlew.loads := by rw [h]; rfl
    rw [h, State.loadsOf, hl]
  rw [State.keyErase, hs, keyErased, slotWord]
  cases hk : s.slotOf n with
  | none => rfl
  | some k =>
    dsimp only
    rw [statusWord, Nat.zero_mul, Nat.zero_add]
    rfl

theorem standing_keyErased (s : State) (n : SiteId) : standing (keyErased s n) = standing s := by
  rw [keyErased]
  cases s.slotOf n with
  | none => exact standing_setAttn _ _ _
  | some k => exact (standing_setAttn _ _ _).trans (standing_upSite _ _ _)

theorem buffersOnly_keyErased (x : CtxId) (n : SiteId) : BuffersOnly x (fun s => keyErased s n) := by
  have hstays (s : State) := standing_eq_iff.mp (standing_keyErased s n)
  refine ⟨fun s own => ?_, fun s => (hstays s).2.1, fun s => ⟨(s.ctx x).storeBuf, ctx_of_ctxs (hstays s).1 x⟩⟩
  have hslot : (s.upCtx x (fun c => c.retired own)).slotOf n = s.slotOf n := rfl
  have hattn (t : State) : (t.upCtx x (fun c => c.retired own)).setAttn n 7 = (t.setAttn n 7).upCtx x (fun c => c.retired own) := rfl
  have hstate (t : State) : (t.upCtx x (fun c => c.retired own)).setKeyState n 3
      = (t.setKeyState n 3).upCtx x (fun c => c.retired own) := rfl
  rw [keyErased, keyErased, hslot]
  cases s.slotOf n with
  | none => exact (congrArg (fun t : State => t.setAttn n 7) (hstate s)).trans (hattn (s.setKeyState n 3))
  | some k =>
    have hzero : (s.upCtx x (fun c => c.retired own)).zeroSlot n k = (s.zeroSlot n k).upCtx x (fun c => c.retired own) := rfl
    exact (congrArg (fun t : State => (t.setKeyState n 3).setAttn n 7) hzero).trans
      ((congrArg (fun t : State => t.setAttn n 7) (hstate (s.zeroSlot n k))).trans (hattn ((s.zeroSlot n k).setKeyState n 3)))

theorem keyState_keyErased (s : State) (n : SiteId) : ((keyErased s n).site n).keyState = 3 := by
  have hset (t : State) : (((t.setKeyState n 3).setAttn n 7).site n).keyState = 3 :=
    congrArg Site.keyState (site_setSite_same t n _)
  rw [keyErased]
  cases s.slotOf n with
  | none => exact hset s
  | some k => exact hset (s.zeroSlot n k)

theorem mem_keyErased (s : State) (n : SiteId) : (keyErased s n).mem = s.mem := by
  have hattn (t : State) : (t.setAttn n 7).mem = t.mem := rfl
  rw [keyErased]
  cases s.slotOf n with
  | none => exact (hattn _).trans (setSite_mem _ _ _)
  | some k => exact (hattn _).trans ((setSite_mem (s.zeroSlot n k) _ _).trans (setSite_mem s n (markRevoked (s.site n))))

/-- The slot that holds the key is zeroed, its generation one higher. -/
theorem slots_keyErased (h : s.slotOf n = some k) :
    (keyErased s n).curlew.slots = smSet s.curlew.slots {} k { gen := (s.keySlot k).gen + 1 } := by
  have hattn (t : State) : ((t.setKeyState n 3).setAttn n 7).curlew = t.curlew := rfl
  rw [keyErased, h]
  exact (congrArg Curlew.slots (hattn _)).trans rfl

theorem keySlot_keyErased_same (h : s.slotOf n = some k) : (keyErased s n).keySlot k = { gen := (s.keySlot k).gen + 1 } := by
  rw [State.keySlot, slots_keyErased h]
  exact smGet_set_same _ _ _ _

theorem keySlot_keyErased_other (h : s.slotOf n ≠ some k) : (keyErased s n).keySlot k = s.keySlot k := by
  cases hk : s.slotOf n with
  | none =>
    rw [keyErased, hk]
    rfl
  | some j =>
    rw [State.keySlot, slots_keyErased hk]
    exact smGet_set_other _ _ _ _ _ _ fun hj => h (by rw [hk, hj])

/-- Settles O28: a load joins the queue where there is room, and with none waiting an erasure takes hold at once. -/
theorem keyLoadsQueueAndErasesTakeHold : Obligations.KeyLoadsQueueAndErasesTakeHold := by
  unfold Obligations.KeyLoadsQueueAndErasesTakeHold
  intro s s1 x i f g b us h hu hw hv n q
  obtain ⟨hq, hr⟩ := alone_quiet h
  have hkeys := onKeys_secure (e := envOf s1 x f 0) (i := i) (s := s1) hu hw hv
  refine ⟨fun ho hroom => ?_, fun ho hfull => ?_, fun ho hnone => ?_⟩
  · have heff : effKload (envOf s1 x f 0) i s1
        = completes (fun t => (t.queueLoad n).upCtx x (fun c => c.setG g.rn 0)) s1 :=
      (hkeys _).trans (if_neg (Nat.not_le.2 hroom))
    have hcmd := commandUpset_performs h ho heff rfl (buffersOnly_queueLoad x n) rfl (fun c => .setG c _ _) hr hq
    exact congrArg _ hcmd
  · have heff : effKload (envOf s1 x f 0) i s1 = withStatus (envOf s1 x f 0) g.rn 1 s1 := (hkeys _).trans (if_pos hfull)
    have hcmd := commandUpset_withStatus h ho heff hr hq
    rw [statusWord_zero] at hcmd
    exact congrArg _ hcmd
  · have heff : effKerase (envOf s1 x f 0) i s1 = completes (fun t => t.keyErase x g.rn n) s1 := hkeys _
    have hcmd := commandUpset_performs (m := fun t => keyErased t n) (u := fun c => c.setG g.rn (slotWord s1 n)) h ho heff rfl
      (buffersOnly_keyErased x n) (keyErase_noLoads (s := s1.upCtx x (fun c => c.retired f.own)) hnone x g.rn n)
      (fun c => .setG c _ _) hr hq
    refine ⟨(keyErased s1 n).afterIns x f (fun c => c.setG g.rn (slotWord s1 n)), congrArg Host.Outcome.next hcmd, keyState_keyErased s1 n, fun k hk => keySlot_keyErased_same hk,
      fun k hk => keySlot_keyErased_other hk, ?_, mem_keyErased s1 n⟩
    rw [State.afterIns, ctx_upCtx_same, ctx_of_ctxs (standing_eq_iff.mp (standing_keyErased s1 n)).1, slotWord] <;> rfl

end Sys2Proof.Proofs.KeyCommands
end

section
/-! SUPPORT. Stores that are performed, and stores that fail (spec/13 R312, R313; spec/15 R356). -/

namespace Sys2Proof.Laws

open Sys2Proof Sys2Proof.Machine

variable {s : State} {x y : CtxId} {e : StoreEntry} {a : Nat} {bs : List Byte} {fs : List Nat}

/-! ## Marks in sound words -/

/-- A mark in a word that is not poisoned changes no register (R280, R337). -/
theorem regs_markFrame {f : Nat} {m : Byte} (h : s.keyV = true → s.poisoned (s.keyBase + f) = false) :
    (s.markFrame f m).regs = s.regs := by
  unfold State.markFrame
  by_cases hv : (s.keyV && decide (f * 4096 < s.dramSize)) = true
  · rw [if_pos hv, h (Bool.and_eq_true_iff.mp hv).1]
    rfl
  · rw [if_neg hv]

/-- Marks in words that are not poisoned change no register. -/
theorem regs_markFrames {m : Byte} (h : ∀ f ∈ fs, s.keyV = true → s.poisoned (s.keyBase + f) = false) :
    (fs.foldl (fun s f => s.markFrame f m) s).regs = s.regs := by
  induction fs generalizing s with
  | nil => rfl
  | cons f fs ih =>
    have hf := regs_markFrame (m := m) (h f List.mem_cons_self)
    have hpoison : (s.markFrame f m).poison = s.poison := (MarksOnly.markFrame s f m).keeps State.poison fun _ _ _ => rfl
    have hkeyV : (s.markFrame f m).keyV = s.keyV := by rw [State.keyV, State.keyV, State.reg, State.reg, hf]
    have hbase : (s.markFrame f m).keyBase = s.keyBase := by
      simp only [State.keyBase, State.pairBase, State.reg, hf]
    refine (ih fun g hg hv => ?_).trans hf
    rw [State.poisoned, hpoison, hbase]
    exact h g (List.mem_cons_of_mem _ hg) (hkeyV ▸ hv)

theorem smGet_dropPoison {p : SMap Bool} {k : Nat} (h : smGet p false k = false) (ws : List Nat) :
    smGet (dropPoison p ws) false k = false :=
  foldl_keeps (fun q => smGet q false k = false) _ ws p h fun q w hq => by
    by_cases hk : k = w
    · rw [hk]
      exact smGet_set_same _ _ _ _
    · rw [smGet_set_other _ _ _ _ _ _ hk, hq]

/-- A write that drops no word and marks no poisoned one changes no register. -/
theorem regs_agentWrite (h : s.droppedWords a bs.length = [])
    (hkey : ∀ f ∈ framesOf a bs.length, s.keyV = true → s.poisoned (s.keyBase + f) = false) :
    (s.agentWrite a bs).regs = s.regs := by
  have hframes : s.writtenFrames a bs.length = framesOf a bs.length := by
    rw [State.writtenFrames, h]
    rfl
  rw [State.agentWrite, hframes, memWrite_whole h]
  exact regs_markFrames fun f hf hv => smGet_dropPoison (hkey f hf hv) _

/-! ## The oldest store (R313) -/

/-- The oldest store has left the buffer of its context. -/
def dequeued (s : State) (x : CtxId) (rest : List StoreEntry) : State := s.upCtx x (fun c => { c with storeBuf := rest })

/-- A store that meets no hole in memory and drops no word is a write of its bytes. -/
theorem perform_mem (hhole : s.storeHole x e = false) (hmem : s.region e.addr = .dram ∨ s.region e.addr = .sram)
    (hdrop : s.droppedWords e.addr e.bytes.length = []) : s.perform x e = s.storeWrite e.addr e.bytes := by
  have hdev : ¬ s.region e.addr = .device := by rcases hmem with h | h <;> rw [h] <;> decide
  rw [State.perform, hhole, if_neg Bool.false_ne_true, if_neg hdev, State.performMem, hdrop]

/-- What a store that fails leaves: memory and every other context, and the record of its own (R356). -/
theorem storeFail_leaves (s : State) (x : CtxId) (addr : Nat) (w : World) (cause : BitVec 8) :
    (s.storeFail x addr w cause).mem = s.mem
    ∧ (s.storeFail x addr w cause).ctx x = { s.ctx x with storeErr := some (match (s.ctx x).storeErr with
        | none => { addr := addr, world := w, cause := cause, ovf := false }
        | some r => { r with ovf := true }) }
    ∧ ∀ y, y ≠ x → (s.storeFail x addr w cause).ctx y = s.ctx y := by
  have hset (t : State) : (t.setErrAddr x addr).mem = t.mem ∧ (t.setErrAddr x addr).ctxs = t.ctxs := by
    unfold State.setErrAddr
    split <;> exact ⟨rfl, rfl⟩
  refine ⟨(hset _).1, ?_, fun y hy => ?_⟩
  · rw [State.storeFail, ctx_of_ctxs (hset _).2, ctx_upCtx_same] <;> rfl
  · rw [State.storeFail, ctx_of_ctxs (hset _).2, ctx_upCtx_other _ _ _ _ hy]

end Sys2Proof.Laws
end

section
/-! PROOFS. Stores are performed oldest first (O34). -/

namespace Sys2Proof.Proofs.Stores

open Sys2Proof Sys2Proof.Machine Sys2Proof.Laws

variable {s : State} {x : CtxId} {e : StoreEntry} {rest : List StoreEntry}

theorem performNext_cons (h : (s.ctx x).storeBuf = e :: rest) : s.performNext x = (dequeued s x rest).perform x e := by
  rw [State.performNext, h]
  rfl

theorem storeParity_cons (h : (s.ctx x).storeBuf = e :: rest) : s.storeParity x
    = ((dequeued s x rest).integRec 6 9 (coreOf x % 16) (agentOf x) (wordOf e.addr)).storeFail x e.addr e.world 5 := by
  rw [State.storeParity, h]
  rfl

/-- The oldest store that fails leaves the buffer, and its context has the record. -/
theorem fails_of_storeFail {o : Instr} {t : State} {cause : BitVec 8} (hexec : exec o s = .next (t.storeFail x e.addr e.world cause))
    (hmem : t.mem = s.mem) (hctxs : t.ctxs = (dequeued s x rest).ctxs) :
    Answers o s (fun t => t.mem = s.mem ∧ (t.ctx x).storeBuf = rest
      ∧ (t.ctx x).storeErr = some (match (s.ctx x).storeErr with
        | none => { addr := e.addr, world := e.world, cause := cause, ovf := false }
        | some r => { r with ovf := true })
      ∧ ∀ y, y ≠ x → t.ctx y = s.ctx y) := by
  obtain ⟨hm, hx, hy⟩ := storeFail_leaves t x e.addr e.world cause
  have hown : t.ctx x = { s.ctx x with storeBuf := rest } := (ctx_of_ctxs hctxs x).trans (ctx_upCtx_same _ _ _)
  refine ⟨_, hexec, hm.trans hmem, ?_, ?_, fun y h => ?_⟩
  · rw [hx, hown]
  · rw [hx, hown]
  · rw [hy y h, ctx_of_ctxs hctxs, dequeued, ctx_upCtx_other _ _ _ _ h]

/-- Settles O34: the store that is performed is a write of its bytes, and one that meets a hole or fails its parity is recorded. -/
theorem storesArePerformedOldestFirst : Obligations.StoresArePerformedOldestFirst := by
  unfold Obligations.StoresArePerformedOldestFirst
  intro s x e rest hbuf record fails
  have hnext := performNext_cons hbuf
  refine ⟨fun hhole hmem hdrop hkey => ?_, fun hhole => ⟨?_, ?_⟩, ?_⟩
  · let t := (dequeued s x rest).noteStore e.addr e.bytes
    have hexec : exec (.storePerformed x) s = .next (t.agentWrite e.addr e.bytes) :=
      congrArg Host.Outcome.next (hnext.trans (perform_mem (s := dequeued s x rest) hhole hmem hdrop))
    have hctxs : (t.agentWrite e.addr e.bytes).ctxs = (dequeued s x rest).ctxs :=
      (standing_eq_iff.mp (standing_agentWrite t e.addr e.bytes)).1
    refine ⟨_, hexec, fun k hk hout => ?_, fun a ha hout => ?_, ?_, fun y hy => ?_, regs_agentWrite (s := t) hdrop hkey⟩
    · rw [memByte_agentWrite (s := t) hdrop hout, if_pos ⟨by omega, by omega⟩, Nat.add_sub_cancel_left]
    · rw [memByte_agentWrite (s := t) hdrop hout, if_neg (by omega)]
      rfl
    · exact (ctx_of_ctxs hctxs x).trans (ctx_upCtx_same _ _ _)
    · exact (ctx_of_ctxs hctxs y).trans (ctx_upCtx_other _ _ _ _ hy)
  · have hexec : exec (.storePerformed x) s = .next ((dequeued s x rest).storeFail x e.addr e.world 3) :=
      congrArg Host.Outcome.next (hnext.trans (if_pos hhole))
    exact fails_of_storeFail hexec rfl rfl
  · have hrefused : s.storeRefused x = true := by rw [State.storeRefused, hbuf]; simp [hhole]
    have hexec : exec (.storeBusError x false) s = .next ((dequeued s x rest).storeFail x e.addr e.world 3) :=
      congrArg Host.Outcome.next ((if_pos hrefused).trans (hnext.trans (if_pos hhole)))
    exact fails_of_storeFail hexec rfl rfl
  · have hrec : RegsOnly (dequeued s x rest)
        ((dequeued s x rest).integRec 6 9 (coreOf x % 16) (agentOf x) (wordOf e.addr)) := integRec_regsOnly _ _ _ _ _
    have hexec : exec (.storeBusError x true) s = .next (((dequeued s x rest).integRec 6 9 (coreOf x % 16) (agentOf x)
        (wordOf e.addr)).storeFail x e.addr e.world 5) := congrArg Host.Outcome.next (storeParity_cons hbuf)
    exact fails_of_storeFail hexec (hrec.keeps State.mem fun _ _ => rfl) (hrec.keeps State.ctxs fun _ _ => rfl)

end Sys2Proof.Proofs.Stores
end

section
/-! SUPPORT. A mode change that also reaches memory and NMI (spec/15 R353, R369; spec/16 R380, R387). -/

namespace Sys2Proof.Laws

open Sys2Proof Sys2Proof.Machine

variable {s s0 t : State} {x : CtxId} {f : Fetched} {u : Ctx → Ctx} {m q : State → State}

/-- An operation that commutes with every change of a context and reaches no context. -/
structure BesideCtx (x : CtxId) (q : State → State) : Prop where
  upCtx : ∀ s w, (q s).upCtx x w = q (s.upCtx x w)
  ctx : ∀ s, (q s).ctx x = s.ctx x
  inReset : ∀ s, (q s).inReset = s.inReset

namespace BesideCtx

theorem id (x : CtxId) : BesideCtx x (fun s => s) := ⟨fun _ _ => rfl, fun _ => rfl, fun _ => rfl⟩

theorem orReg (x : CtxId) (r : Reg) (v : Word32) : BesideCtx x (fun s => s.orReg r v) :=
  ⟨fun _ _ => rfl, fun _ => rfl, fun _ => rfl⟩

/-- A write of memory outside any context. -/
theorem memWrite (x : CtxId) (a : Nat) (bs : List Byte) : BesideCtx x (fun s => s.memWrite a bs) := by
  refine ⟨fun s w => ?_, fun s => ?_, fun s => ?_⟩
  · have hdrop : (s.upCtx x w).droppedWords a bs.length = s.droppedWords a bs.length := rfl
    unfold State.memWrite
    rw [hdrop]
    dsimp only
    split <;> rfl
  · exact ctx_of_ctxs (standing_eq_iff.mp (standing_memWrite s a bs)).1 x
  · exact (standing_eq_iff.mp (standing_memWrite s a bs)).2.1

end BesideCtx

/-- An instruction that executes alone and changes the mode of its context, with what it does before in memory and the store
buffer (`t`) and after beside the context (`q`). -/
theorem finish_modeThrough (hq : (s.ctx x).quiet = true) (hm : m (s.upCtx x (fun c => c.retired f.own))
      = t.upCtx x (fun c => c.retired f.own)) (hctx : ∃ l, t.ctx x = { s.ctx x with storeBuf := l }) (hr : t.inReset = false)
    (hbeside : BesideCtx x q) (hl : (u ((t.ctx x).retired f.own)).loads = [])
    (hdue : NothingDue (u ((t.ctx x).retired f.own))) :
    s.finish s0 x f [{ commit := fun t => q ((m t).upCtx x u), ctl := .mode }] = q (t.afterMode x f u) := by
  obtain ⟨hdelay, -, -, hloads, hss, -⟩ := quiet_parts hq
  have hbegun : s.upCtx x (fun c => c.begun f.own) = s.upCtx x (fun c => c.retired f.own) :=
    upCtx_congr (begun_noLoads hloads _)
  have hcommit : s.commitAll x f [{ commit := fun t => q ((m t).upCtx x u), ctl := .mode }]
      = q (t.upCtx x (fun c => u (c.retired f.own))) := by
    simp only [State.commitAll, List.foldl_cons, List.foldl_nil, hbegun, hm, upCtx_upCtx]
  have hmode : (t.upCtx x (fun c => u (c.retired f.own))).upCtx x (fun c => c.follow (s.ctx x) f .mode) = t.afterMode x f u := by
    obtain ⟨l, hshadow⟩ := hctx
    rw [upCtx_upCtx, State.afterMode]
    refine upCtx_congr ?_
    have hsame : (t.ctx x).shadow = (s.ctx x).shadow := by rw [hshadow]
    simp only [follow_mode hdelay, completeLoads_none hl, hsame]
  have hctl : ctlOf [{ commit := fun t => q ((m t).upCtx x u), ctl := .mode }] = .mode := rfl
  have hreset : (s.commitAll x f [{ commit := fun t => q ((m t).upCtx x u), ctl := .mode }]).inReset = false := by
    rw [hcommit, hbeside.inReset]
    exact hr
  rw [finish_retires rfl rfl hss hreset, hcommit, hbeside.upCtx, hctl, hmode]
  refine boundary_nothingDue ?_
  rw [hbeside.ctx, State.afterMode, ctx_upCtx_same]
  exact hdue.congr rfl rfl rfl

end Sys2Proof.Laws
end

section
/-! PROOFS. SYSC and MONCALL (O29). -/

namespace Sys2Proof.Proofs.Calls

open Sys2Proof Sys2Proof.Machine Sys2Proof.Laws Sys2Proof.Proofs.Returns

variable {s s1 : State} {x : CtxId} {i : Ins} {f : Fetched} {o : Op} {u : Ctx → Ctx} {q : State → State}

/-- The state in which an instruction of an enclave that is left has written its exit record (R387). -/
def exited (s : State) (f : Fetched) : State :=
  match f.own with
  | none => s
  | some e => s.setExit e f.next

theorem leaveEncl_retired (s : State) (x : CtxId) (f : Fetched) :
    (s.upCtx x (fun c => c.retired f.own)).leaveEncl x f.next = (exited s f).upCtx x (fun c => c.retired f.own) := by
  have hown : ((s.upCtx x (fun c => c.retired f.own)).ctx x).inEncl = f.own := by
    rw [ctx_upCtx_same]
    rfl
  rw [State.leaveEncl, hown, exited]
  cases f.own with
  | none => rfl
  | some e => exact ((BesideCtx.memWrite x (s.exitAddr e) _).upCtx s _).symm

theorem exited_keeps (s : State) (x : CtxId) (f : Fetched) : (exited s f).ctx x = s.ctx x ∧ (exited s f).inReset = s.inReset := by
  rw [exited]
  cases f.own with
  | none => exact ⟨rfl, rfl⟩
  | some e =>
    have hw := BesideCtx.memWrite x (s.exitAddr e) (leBytes 8 (2 ^ 63 + f.next % 2 ^ 48))
    exact ⟨hw.ctx s, hw.inReset s⟩

/-- A call that leaves the context at a handler: the exit record, the writes of the context, and what it blocks. -/
theorem commandUpset_call (h : s.alone x = some (i, f, s1)) (ho : i.op = o)
    (he : effect o (envOf s1 x f 0) i s1
      = .ok { commit := fun t => q ((t.leaveEncl x f.next).upCtx x (fun c => u c.completeLoads)), ctl := .mode } s1)
    (hq : BesideCtx x q) (hl : (u ((s1.ctx x).retired f.own)).loads = []) (hdue : NothingDue (u ((s1.ctx x).retired f.own))) :
    s.commandUpset x o 0 .none = q ((exited s1 f).afterMode x f u) := by
  obtain ⟨hquiet, hr⟩ := alone_quiet h
  obtain ⟨-, -, -, hloads, -⟩ := quiet_parts hquiet
  obtain ⟨hctx, hreset⟩ := exited_keeps s1 x f
  have hcomplete : ((s1.ctx x).retired f.own).completeLoads = (s1.ctx x).retired f.own := completeLoads_none hloads
  rw [commandUpset_completes h ho he hr]
  refine (finish_modeThrough (m := fun t => t.leaveEncl x f.next) (u := fun c => u c.completeLoads) hquiet
    (leaveEncl_retired s1 x f) ⟨_, hctx⟩ (hreset.trans hr) hq ?_ ?_).trans ?_
  · rw [hctx, hcomplete]
    exact hl
  · rw [hctx, hcomplete]
    exact hdue
  · refine congrArg q (upCtx_congr ?_)
    dsimp only
    rw [hctx, hcomplete]

/-- What a call writes of a context leaves alone: the loads, and what may fall due. -/
theorem sysCall_keeps (c : Ctx) (e : Env) : (sysCall c e).loads = c.loads ∧ (NothingDue c → NothingDue (sysCall c e)) := by
  obtain ⟨hloads, hdue⟩ := setBank_setG_keeps c e.c.world { c.bank e.c.world with
    xpc := BitVec.ofNat 48 e.next, xsp := e.c.getG spReg, xcsw := e.c.csw } spReg (e.c.bank e.c.world).feSp
  exact ⟨hloads, fun h => (hdue h).congr rfl rfl rfl⟩

theorem monCall_keeps (c : Ctx) (e : Env) : (monCall c e).loads = c.loads ∧ (NothingDue c → NothingDue (monCall c e)) := by
  unfold monCall
  dsimp only
  rw [setG_eq]
  exact ⟨rfl, fun h => h.congr rfl rfl rfl⟩

/-- A call counts one mode change more, which its context's own writes do not (R149). -/
theorem modes_setG (c : Ctx) (r : BitVec 5) (v : Word) : (c.setG r v).modes = c.modes := by rw [setG_eq]

theorem modes_sysCall (c : Ctx) (e : Env) : (sysCall c e).modes = c.modes := by
  refine (modes_setG _ _ _).trans ?_
  cases e.c.world <;> rfl

theorem modes_monCall (c : Ctx) (e : Env) : (monCall c e).modes = c.modes := (modes_setG _ _ _).trans rfl

/-- The state that a supervisor outside the secure world calls the monitor from. -/
theorem effMoncall_calls {e : Env} (hu : e.c.isUser = false) (hw : e.c.world = .nonSecure) :
    effMoncall e i s = .ok { commit := fun t => ((t.leaveEncl e.x e.next).upCtx e.x
      (fun c => monCall c.completeLoads e)).orReg (cxReg e.x .nmi) 2, ctl := .mode } s := by
  have hno : ¬ (e.user = true ∨ e.c.world = .secure) := by
    rw [Env.user, hu, hw]
    decide
  exact if_neg hno

/-- Settles O29: both calls by the one rule of calls, each with its own bank and CSW. -/
theorem systemAndMonitorCalls : Obligations.SystemAndMonitorCalls := by
  unfold Obligations.SystemAndMonitorCalls
  intro s s1 x i f h c left
  obtain ⟨hquiet, hr⟩ := alone_quiet h
  obtain ⟨-, -, -, hloads, -, hdue⟩ := quiet_parts hquiet
  obtain ⟨hctx, -⟩ := exited_keeps s1 x f
  have hdue' : NothingDue (c.retired f.own) := hdue.congr rfl rfl rfl
  refine ⟨fun ho => ?_, fun ho hu hw => ?_⟩
  · obtain ⟨hl, hd⟩ := sysCall_keeps (c.retired f.own) (envOf s1 x f 0)
    have hcmd := commandUpset_call (u := fun c => sysCall c (envOf s1 x f 0)) h ho rfl (.id x) (hl.trans hloads) (hd hdue')
    refine congrArg Host.Outcome.next (hcmd.trans (upCtx_congr ?_))
    dsimp only
    rw [hctx, modes_sysCall]
    rfl
  · obtain ⟨hl, hd⟩ := monCall_keeps (c.retired f.own) (envOf s1 x f 0)
    have hcmd := commandUpset_call (u := fun c => monCall c (envOf s1 x f 0)) (q := fun t => t.orReg (cxReg x .nmi) 2) h ho
      (effMoncall_calls (i := i) (e := envOf s1 x f 0) hu hw) (.orReg x (cxReg x .nmi) 2) (hl.trans hloads) (hd hdue')
    refine congrArg Host.Outcome.next (hcmd.trans (congrArg (fun t : State => t.orReg (cxReg x .nmi) 2) (upCtx_congr ?_)))
    dsimp only
    rw [hctx, modes_monCall]
    rfl

end Sys2Proof.Proofs.Calls
end

section
/-! SUPPORT. The stores and exit records of a gate (spec/15 R369, spec/16 R387). -/

namespace Sys2Proof.Laws

open Sys2Proof Sys2Proof.Machine

variable {s t : State} {x y : CtxId} {q : State → State}

/-- An operation beside the contexts changes no store buffer. -/
theorem BesideCtx.buffersOnly (h : BesideCtx x q) : BuffersOnly x q :=
  ⟨fun s _ => (h.upCtx s _).symm, h.inReset, fun s => ⟨(s.ctx x).storeBuf, h.ctx s⟩⟩

/-- The stores that retire enter the buffer of their context, whatever else the state holds. -/
theorem ctx_retirePieces_congr {word : Bool} (h : t.ctx x = s.ctx x) (ps : List (Nat × Nat)) (bs : List Byte) :
    (t.retirePieces x word ps bs).ctx x = (s.retirePieces x word ps bs).ctx x := by
  induction ps generalizing s t bs with
  | nil => exact h
  | cons p ps ih =>
    refine ih ?_ _
    rw [ctx_upCtx_same, ctx_upCtx_same, h]

/-- They enter no other context's. -/
theorem ctx_retirePieces_other {word : Bool} (h : y ≠ x) (s : State) (ps : List (Nat × Nat)) (bs : List Byte) :
    (s.retirePieces x word ps bs).ctx y = s.ctx y := by
  induction ps generalizing s bs with
  | nil => rfl
  | cons p ps ih => exact (ih _ _).trans (ctx_upCtx_other _ _ _ _ h)

theorem ctxs_touch (s : State) (a len : Nat) (write : Bool) : (s.touch a len write).ctxs = s.ctxs :=
  (MarksOnly.touch s a len write).keeps State.ctxs fun _ _ _ => rfl

/-! ## General registers -/

theorem getG_setG_same (c : Ctx) (r : BitVec 5) (v : Word) (h : r ≠ 0) : (c.setG r v).getG r = v := by
  rw [setG_eq, if_neg h, Ctx.getG, if_neg h]
  exact smGet_set_same _ _ _ _

theorem getG_setG_other (c : Ctx) (r r' : BitVec 5) (v : Word) (h : r' ≠ r) : (c.setG r v).getG r' = c.getG r' := by
  have hn : r'.toNat ≠ r.toNat := fun e => h (BitVec.eq_of_toNat_eq e)
  by_cases h0 : r = 0
  · rw [setG_eq, if_pos h0]
  · rw [setG_eq, if_neg h0]
    unfold Ctx.getG
    exact congrArg (fun v => if r' = 0 then 0 else v) (smGet_set_other c.g 0 0 r.toNat r'.toNat v hn)

/-! ## What a gate's entry does beside its context -/

theorem besideCtx_setExit (x : CtxId) (k a : Nat) : BesideCtx x (fun s => s.setExit k a) :=
  ⟨fun s _ => (BesideCtx.memWrite x (s.exitAddr k) _).upCtx s _, fun s => (BesideCtx.memWrite x (s.exitAddr k) _).ctx s,
    fun s => (BesideCtx.memWrite x (s.exitAddr k) _).inReset s⟩

theorem besideCtx_clearExit (x : CtxId) (k : Nat) : BesideCtx x (fun s => s.clearExit k) :=
  ⟨fun s _ => (BesideCtx.memWrite x (s.exitAddr k) _).upCtx s _, fun s => (BesideCtx.memWrite x (s.exitAddr k) _).ctx s,
    fun s => (BesideCtx.memWrite x (s.exitAddr k) _).inReset s⟩

theorem BesideCtx.comp {m n : State → State} (hm : BesideCtx x m) (hn : BesideCtx x n) : BesideCtx x (fun s => n (m s)) :=
  ⟨fun s w => (hn.upCtx _ w).trans (congrArg n (hm.upCtx s w)), fun s => (hn.ctx _).trans (hm.ctx s),
    fun s => (hn.inReset _).trans (hm.inReset s)⟩

/-- The exit records that a gate writes (R387). -/
theorem besideCtx_gateExits (x : CtxId) (e : Env) (g : Gate) : BesideCtx x (fun s => s.gateExits e g) := by
  unfold State.gateExits
  cases e.own with
  | none =>
    cases g.enclave with
    | none => exact .id x
    | some k => exact besideCtx_clearExit x k
  | some j =>
    cases g.enclave with
    | none => exact besideCtx_setExit x j e.next
    | some k => exact (besideCtx_setExit x j e.next).comp (besideCtx_clearExit x k)

end Sys2Proof.Laws
end

section
/-! PROOFS. GCALL and GRET (O31). -/

namespace Sys2Proof.Proofs.Gates

open Sys2Proof Sys2Proof.Machine Sys2Proof.Laws

variable {s s1 s2 : State} {x y : CtxId} {i : Ins} {f : Fetched} {o : Op} {u : Ctx → Ctx} {e : Env} {g : Gate} {c : Ctx} {pa : Nat}
  {ps : List (Nat × Nat)}

/-! ## The context that a gate enters -/

/-- The entry pushed is the top. -/
theorem top_push (c : Ctx) (v : Word) (h : c.rsp.toNat ≤ 16) : (c.push v).top = v := by
  unfold Ctx.push Ctx.top
  by_cases hroom : c.rsp.toNat < 16
  · rw [if_pos hroom]
    have hrsp : (c.rsp + 1).toNat - 1 = c.rsp.toNat := by
      rw [BitVec.toNat_add]
      have hone : (1 : BitVec 5).toNat = 1 := rfl
      omega
    rw [hrsp]
    exact smGet_set_same _ _ _ _
  · have hfull : c.rsp.toNat - 1 = 15 := by omega
    rw [if_neg hroom]
    dsimp only
    rw [hfull, List.range_succ, List.foldl_append]
    exact smGet_set_same _ _ _ _

/-- The context that a gate enters, with no load outstanding. -/
theorem gateEnter_eq (c : Ctx) (e : Env) (g : Gate) (hl : c.loads = []) :
    gateEnter c e g = { ((c.push (gateReturn e)).setG 31 (gateSp e g)).goTo (bitsOf g.target 47 0) with
      csw := gateCsw e.c.csw g
      arrival := (match g.enclave with
        | none => .none
        | some k => .gate k) } := by
  rw [gateEnter, completeLoads_none hl] <;> rfl

/-- What a gate's entry leaves in its context. -/
theorem gateEnter_spec (c : Ctx) (e : Env) (g : Gate) (hl : c.loads = []) (hr : c.rsp.toNat ≤ 16) :
    (gateEnter c e g).pc = g.target.setWidth 48 ∧ (gateEnter c e g).getG 31 = gateSp e g
    ∧ (gateEnter c e g).csw = gateCsw e.c.csw g ∧ (gateEnter c e g).top = gateReturn e
    ∧ (gateEnter c e g).storeBuf = c.storeBuf ∧ (∀ r, r ≠ 31 → (gateEnter c e g).getG r = c.getG r)
    ∧ (gateEnter c e g).loads = [] ∧ (NothingDue c → NothingDue (gateEnter c e g)) := by
  have htop := top_push c (gateReturn e) hr
  obtain ⟨rs, p, hpush⟩ := push_eq c (gateReturn e)
  rw [hpush] at htop
  rw [gateEnter_eq c e g hl, hpush]
  refine ⟨?_, ?_, rfl, htop, rfl, fun r h => ?_, hl, fun h => h.congr rfl rfl rfl⟩
  · exact BitVec.eq_of_toNat_eq (by simp [Ctx.goTo, bitsOf])
  · exact getG_setG_same _ _ _ (by decide)
  · exact getG_setG_other _ _ _ _ h

/-! ## The stores and records of a gate's entry -/

/-- What a GCALL does but for the registers of its context. -/
def gateStores (s : State) (e : Env) (g : Gate) (n pa : Nat) (ps : List (Nat × Nat)) : State :=
  ((s.touch pa 32 false).retireStore e.x false ps (gateFrame e g n)).gateExits e g

theorem buffersOnly_gateStores (e : Env) (g : Gate) (n pa : Nat) (ps : List (Nat × Nat)) :
    BuffersOnly e.x (fun s => gateStores s e g n pa ps) :=
  ((BuffersOnly.touchPieces e.x [(pa, 32)] false).comp (.retireStore e.x false ps _)).comp (besideCtx_gateExits e.x e g).buffersOnly

theorem storeBuf_gateStores (s : State) (e : Env) (g : Gate) (n pa : Nat) (ps : List (Nat × Nat)) :
    ((gateStores s e g n pa ps).ctx e.x).storeBuf = ((s.retireStore e.x false ps (gateFrame e g n)).ctx e.x).storeBuf := by
  rw [gateStores, (besideCtx_gateExits e.x e g).ctx]
  exact congrArg Ctx.storeBuf (ctx_retirePieces_congr (ctx_of_ctxs (ctxs_touch s pa 32 false) e.x) _ _)

theorem ctx_gateStores_other (h : y ≠ e.x) (s : State) (g : Gate) (n pa : Nat) (ps : List (Nat × Nat)) :
    (gateStores s e g n pa ps).ctx y = s.ctx y := by
  rw [gateStores, (besideCtx_gateExits y e g).ctx]
  exact (ctx_retirePieces_other h _ _ _).trans (ctx_of_ctxs (ctxs_touch s pa 32 false) y)

/-- GCALL through a descriptor that passes every check, with arguments and a frame that pass theirs (R369). -/
theorem effGcall_calls {sa sb : State} (hp : e.c.pushTraps = false) (hg : s.readGateAt e i.num = .ok (pa, g) sa)
    (hok : sa.gateRefusal e g i.num = none) (ha : sa.argChecks e g i.num (List.range g.argc) = .ok () sb)
    (hf : sb.frameCheck e g i.num = .ok ps s2) :
    effGcall e i s = .ok { commit := fun t => (gateStores t e g i.num pa ps).upCtx e.x (fun c => gateEnter c e g), ctl := .mode } s2 := by
  rw [effGcall, hp, if_neg Bool.false_ne_true, hg, ok_bind, hok]
  rw [ha, ok_bind, hf, ok_bind]
  rfl

/-- GRET from a frame that passes its checks (R370). -/
theorem effGret_returns {s3 : State} {sp w : Word} {p : Option Nat} (hr : e.c.rsp ≠ 0) (ht : bitAt e.c.top 62 = true)
    (hf : s.gretFrame e = .ok (ps, sp, w) s2) (hw : retCswBad e.c w = false)
    (hp : s2.returnPlace e.x { e.c with csw := gretCsw w e.c.top } (bitsOf e.c.top 47 0) = .ok p s3)
    (he : s3.returnEncl (bitsOf e.c.top 47 0) p = none) :
    effGret e i s = .ok { commit := fun t => t.gateBack e ps sp (gretCsw w e.c.top), ctl := .mode } (s3.returnMet e.x p) := by
  rw [effGret, if_neg hr, ht, Bool.not_true, if_neg Bool.false_ne_true, hf, ok_bind]
  rw [hw, if_neg Bool.false_ne_true]
  dsimp only
  rw [hp, ok_bind, he]

/-- Settles O31: each by the rule of mode changes, with the stores of the one and the reads of the other before it. -/
theorem gatesCallAndReturn : Obligations.GatesCallAndReturn := by
  unfold Obligations.GatesCallAndReturn
  intro s s1 x i f h c e
  obtain ⟨hq, hr⟩ := alone_quiet h
  constructor
  · intro g pa sa sb s2 ps ho hp hg hok ha hf hr2 hc hrsp sp frame
    have hstores := buffersOnly_gateStores e g i.num pa ps
    obtain ⟨l, hl⟩ := hstores.ctx s2
    have hqc : (s2.ctx x).quiet = true := hc ▸ hq
    obtain ⟨-, -, -, hloads, -, hdue⟩ := quiet_parts hqc
    let k := ((gateStores s2 e g i.num pa ps).ctx x).retired f.own
    have hk : k = ({ s2.ctx x with storeBuf := l } : Ctx).retired f.own := congrArg (fun c => c.retired f.own) hl
    have hkl : k.loads = [] := by rw [hk]; exact hloads
    have hkr : k.rsp.toNat ≤ 16 := by rw [hk]; exact hc ▸ hrsp
    have hkdue : NothingDue k := by rw [hk]; exact hdue.congr rfl rfl rfl
    obtain ⟨hpc, h31, hcsw, htop, hbuf, hregs, henterLoads, henterDue⟩ := gateEnter_spec k e g hkl hkr
    have hfinish := finish_modeThrough (s0 := s) (m := fun t => gateStores t e g i.num pa ps) (u := fun c => gateEnter c e g) hqc
      (hstores.retired s2 f.own) ⟨l, hl⟩ ((hstores.inReset s2).trans hr2) (.id x) henterLoads (henterDue hkdue)
    have hcmd := (commandUpset_completes h ho (effGcall_calls (e := e) hp hg hok ha hf) hr2).trans hfinish
    have hctx : ((gateStores s2 e g i.num pa ps).afterMode x f (fun c => gateEnter c e g)).ctx x
        = { gateEnter k e g with
            shadow := !((gateStores s2 e g i.num pa ps).ctx x).shadow, modes := (gateEnter k e g).modes + 1 } :=
      ctx_upCtx_same _ _ _
    refine ⟨_, congrArg Host.Outcome.next hcmd, ?_, ?_, ?_, ?_, ?_, fun r hr31 => ?_, fun y hy => ?_⟩
    · rw [hctx]; exact hpc
    · rw [hctx]; exact h31
    · rw [hctx]; exact hcsw
    · rw [hctx]; exact htop
    · rw [hctx]
      exact hbuf.trans (storeBuf_gateStores s2 e g i.num pa ps)
    · rw [hctx]
      refine (hregs r hr31).trans ?_
      rw [hk]
      rfl
    · exact (ctx_upCtx_other _ _ _ _ hy).trans (ctx_gateStores_other (e := e) hy s2 g i.num pa ps)
  · intro sp w s2 s3 ps p ho hrsp htop hf hw csw m hp he hrm hqm
    have hreads := BuffersOnly.touchPieces x ps false
    obtain ⟨l, hl⟩ := hreads.ctx m
    obtain ⟨-, -, -, hloads, -, hdue⟩ := quiet_parts hqm
    let u : Ctx → Ctx := fun c => { (c.completeLoads.pop.setG spReg sp).goTo (bitsOf e.c.top 47 0) with csw := csw, arrival := .back }
    let k := ((m.touchPieces ps false).ctx x).retired f.own
    have hk : k = ({ m.ctx x with storeBuf := l } : Ctx).retired f.own := congrArg (fun c => c.retired f.own) hl
    have hkl : k.loads = [] := by rw [hk]; exact hloads
    have hkdue : NothingDue k := by rw [hk]; exact hdue.congr rfl rfl rfl
    have hu : u k = { (k.pop.setG spReg sp).goTo (bitsOf e.c.top 47 0) with csw := csw, arrival := .back } := by
      dsimp only [u]
      rw [completeLoads_none hkl]
    have hul : (u k).loads = [] ∧ NothingDue (u k) := by
      rw [hu, setG_eq]
      exact ⟨hkl, hkdue.congr rfl rfl rfl⟩
    have hfinish := finish_modeThrough (s0 := s) (m := fun t => t.touchPieces ps false) (u := u) hqm (hreads.retired m f.own)
      ⟨l, hl⟩ ((hreads.inReset m).trans hrm) (.id x) hul.1 hul.2
    have hcmd := (commandUpset_completes h ho (effGret_returns (e := e) (i := i) hrsp htop hf hw hp he) hrm).trans hfinish
    refine congrArg Host.Outcome.next (hcmd.trans (upCtx_congr ?_))
    exact congrArg (fun d : Ctx => { d with shadow := !((m.touchPieces ps false).ctx x).shadow, modes := d.modes + 1 }) hu

end Sys2Proof.Proofs.Gates
end

section
/-! SUPPORT. A bit set in a register (spec/02 R50, spec/15 R363). -/

namespace Sys2Proof.Laws

open Sys2Proof Sys2Proof.Machine

theorem bitAt_orReg (s : State) (r : Reg) {k : Nat} (h : k < 32) :
    bitAt ((s.orReg r (BitVec.ofNat 32 (2 ^ k))).reg r) k = true := by
  rw [reg_orReg_same, bitAt_or, bitAt_ofNat _ h, Nat.testBit_two_pow_self, Bool.or_true]

theorem bitAt_setHint (s : State) {k : Nat} (h : k < 32) : bitAt ((s.setHint k).reg (.g .hintStatus)) k = true := bitAt_orReg s _ h

theorem bitAt_setLine (s : State) {k : Nat} (h : k < 32) : bitAt ((s.setLine k).reg (.d .irqLinePend)) k = true := bitAt_orReg s _ h

end Sys2Proof.Laws
end

section
/-! SUPPORT. Key loads (spec/17, R409 to R411): the queues they leave, the vault read, the slot that is loaded. -/

namespace Sys2Proof.Laws

open Sys2Proof Sys2Proof.Machine

variable {s t u : State} {n : SiteId} {k : Nat}

/-! ## What the loads and retries of a site leave -/

/-- The contexts, the links, the frames sent, the port, and the queue and the transaction of every other site are as they were. -/
structure SparesOthers (n : SiteId) (s t : State) : Prop where
  ctxs : t.ctxs = s.ctxs
  links : t.links = s.links
  sent : t.sent = s.sent
  port : t.port = s.port
  site : ∀ m, m ≠ n → (t.site m).appends.map Append.kind = (s.site m).appends.map Append.kind ∧ (t.site m).txn = (s.site m).txn

namespace SparesOthers

theorem refl (s : State) : SparesOthers n s s := ⟨rfl, rfl, rfl, rfl, fun _ _ => ⟨rfl, rfl⟩⟩

theorem trans (h : SparesOthers n s t) (h' : SparesOthers n t u) : SparesOthers n s u :=
  ⟨h'.ctxs.trans h.ctxs, h'.links.trans h.links, h'.sent.trans h.sent, h'.port.trans h.port, fun m hm =>
    ⟨(h'.site m hm).1.trans (h.site m hm).1, (h'.site m hm).2.trans (h.site m hm).2⟩⟩

theorem of_sites (hc : t.ctxs = s.ctxs) (hl : t.links = s.links) (hs : t.sent = s.sent) (hp : t.port = s.port)
    (h : t.sites = s.sites) : SparesOthers n s t := by
  refine ⟨hc, hl, hs, hp, fun m _ => ?_⟩
  rw [State.site, State.site, h]
  exact ⟨rfl, rfl⟩

theorem ite {c : Prop} [Decidable c] (h : SparesOthers n s t) (k : SparesOthers n s u) : SparesOthers n s (if c then t else u) := by
  split
  · exact h
  · exact k

theorem reads (h : ReadsOnly s t) : SparesOthers n s t :=
  of_sites (h.keeps State.ctxs fun _ _ _ _ _ => rfl) (h.keeps State.links fun _ _ _ _ _ => rfl)
    (h.keeps State.sent fun _ _ _ _ _ => rfl) (h.keeps State.port fun _ _ _ _ _ => rfl) (h.keeps State.sites fun _ _ _ _ _ => rfl)

/-- A change of one site's entry that keeps the kinds of its appends and its transaction. -/
theorem upSite (s : State) (m : SiteId) (f : Site → Site) (hk : ∀ v, (f v).appends.map Append.kind = v.appends.map Append.kind)
    (ht : ∀ v, (f v).txn = v.txn) : SparesOthers n s (s.upSite m f) := by
  refine ⟨rfl, rfl, rfl, rfl, fun j _ => ?_⟩
  by_cases h : j = m
  · subst h
    rw [State.upSite, site_setSite_same]
    exact ⟨hk _, ht _⟩
  · rw [State.upSite, site_setSite_other _ _ _ _ h]
    exact ⟨rfl, rfl⟩

/-- Whatever becomes of the site itself. -/
theorem upSite_same (s : State) (f : Site → Site) : SparesOthers n s (s.upSite n f) := by
  refine ⟨rfl, rfl, rfl, rfl, fun j h => ?_⟩
  rw [State.upSite, site_setSite_other _ _ _ _ h]
  exact ⟨rfl, rfl⟩

theorem setKeyState (s : State) (m : SiteId) (v : BitVec 2) : SparesOthers n s (s.setKeyState m v) :=
  upSite s m _ (fun _ => rfl) (fun _ => rfl)

theorem setReg (s : State) (r : Reg) (v : Word32) : SparesOthers n s (s.setReg r v) := of_sites rfl rfl rfl rfl rfl

theorem foldl {β : Type} (f : State → β → State) (l : List β) (s : State) (hf : ∀ s b, SparesOthers n s (f s b)) :
    SparesOthers n s (l.foldl f s) :=
  foldl_keeps (SparesOthers n s) f l s (refl s) fun t b h => h.trans (hf t b)

theorem cwReq (s : State) (reason : Nat) (m : SiteId) : SparesOthers n s (s.cwReq reason m) :=
  (ite (setReg s _ _) (setReg s _ _)).trans (setReg _ _ _)

theorem dropKey (s : State) (m : SiteId) : SparesOthers n s (s.dropKey m) := ite (refl s) (setKeyState s m 0)

theorem markSuperseded_keeps (v : Site) : (markSuperseded v).appends.map Append.kind = v.appends.map Append.kind
    ∧ (markSuperseded v).txn = v.txn := by
  unfold markSuperseded
  split
  · next h => rw [h]; exact ⟨rfl, rfl⟩
  · exact ⟨rfl, rfl⟩

theorem loadSlot (s : State) (k : Nat) (m : SiteId) (w : Unwrapped) : SparesOthers n s (s.loadSlot k m w) := by
  have hold : SparesOthers n s (if (s.keySlot k).loaded && decide ((s.keySlot k).tenant ≠ m)
      && decide ((s.site (s.keySlot k).tenant).keyState = 2) then s.setKeyState (s.keySlot k).tenant 1 else s) :=
    ite (setKeyState s _ _) (refl s)
  have hsuper (v : State) : SparesOthers n v (if (s.keySlot k).loaded && decide ((s.keySlot k).tenant = m) then
      v.upSite m markSuperseded else v) :=
    ite (upSite v m _ (fun v => (markSuperseded_keeps v).1) (fun v => (markSuperseded_keeps v).2)) (refl v)
  have hslot (v : State) (c : KeySlot) (j : Nat) :
      SparesOthers n v { v.setKeySlot k c with curlew := { (v.setKeySlot k c).curlew with useCount := j } } := of_sites rfl rfl rfl rfl rfl
  exact ((hold.trans (hsuper _)).trans (hslot _ _ _)).trans (setKeyState _ _ _)

theorem loadKey (s : State) (k : Nat) (m : SiteId) : SparesOthers n s (s.loadKey k m) := by
  unfold State.loadKey
  split
  · exact (reads (.readVault s m)).trans (loadSlot _ _ _ _)
  · exact ((reads (.readVault s m)).trans (dropKey _ _)).trans (cwReq _ _ _)

theorem demandKey (s : State) (m : SiteId) : SparesOthers n s (s.demandKey m) := by
  refine ite (cwReq s _ _) ?_
  split
  · exact refl s
  · exact loadKey _ _ _

theorem setAttn (s : State) (m : SiteId) (j : Nat) : SparesOthers n s (s.setAttn m j) := by
  rw [State.setAttn]
  cases attnLine j with
  | none => exact setReg _ _ _
  | some l => exact (setReg _ _ _).trans (setReg _ _ _)

theorem tryBegin (s : State) : SparesOthers n s (s.tryBegin n) := by
  unfold State.tryBegin
  split
  · exact refl s
  · refine ite (refl s) (ite (ite (refl s) ((upSite_same s _).trans (setAttn _ _ _))) (ite (refl s) ?_))
    split
    · exact refl s
    · have hread (c : Bool) : SparesOthers n s (if c then s.readVault n else s) := ite (reads (.readVault s n)) (refl s)
      have huse (v : State) (j : Nat) : SparesOthers n v (v.useSlot j) := of_sites rfl rfl rfl rfl rfl
      exact ((hread _).trans (upSite_same _ _)).trans (huse _ _)

theorem retry (s : State) : SparesOthers n s (s.retry n) := (ite (demandKey s n) (refl s)).trans (tryBegin _)

theorem kload (s : State) (rest : List SiteId) : SparesOthers n s (s.kload n rest) := by
  unfold State.kload
  split
  · exact refl s
  · have hloads : SparesOthers n s { s with curlew := { s.curlew with loads := rest } } := of_sites rfl rfl rfl rfl rfl
    exact (hloads.trans (loadKey _ _ _)).trans (retry _)

/-- The search for the words that a command finds uncorrectable. -/
theorem finding {f : State → State} (hf : ∀ s, SparesOthers n s (f s)) (j : Nat) (l : List (Nat × BitVec 2)) (s : State) :
    SparesOthers n s (State.finding f j l s) := by
  induction j generalizing l with
  | zero => exact hf s
  | succ j ih =>
    have hfound : SparesOthers n s (s.withFound l) :=
      (foldl (fun (s : State) (e : Nat × BitVec 2) => s.poisonWord e.1) l s fun _ _ => of_sites rfl rfl rfl rfl rfl).trans (of_sites rfl rfl rfl rfl rfl)
    have hdrop (v : State) : SparesOthers n v v.dropFlashPoison := of_sites rfl rfl rfl rfl rfl
    exact ite (hf s) (ite ((hfound.trans (hf _)).trans (hdrop _)) (ih _))

theorem correct (f : State → State) (up : Upset) (s : State) : SparesOthers n s (s.correct f up) :=
  foldl _ _ s fun _ _ => setReg _ _ _

theorem withUpset {f : State → State} (hf : ∀ s, SparesOthers n s (f s)) (up : Upset) (s : State) :
    SparesOthers n s (s.withUpset up f) :=
  (correct f up s).trans (finding hf _ _ _)

end SparesOthers

/-! ## The vault read of a sound entry (R337, R410) -/

theorem anyPoison_poisoned {a len : Nat} (h : s.anyPoison a len = false) {i : Nat} (hi : i < len) : s.poisoned (a + i) = false := by
  have hall : ∀ j ∈ List.range len, s.poisoned (a + j) = false := by simpa [State.anyPoison] using h
  exact hall i (List.mem_range.mpr hi)

/-- A range without poison has no poisoned word. -/
theorem poisonWords_none {a len : Nat} (h : s.anyPoison a len = false) : s.poisonWords a len = [] := by
  unfold State.poisonWords
  by_cases hl : len = 0
  · rw [if_pos hl]
  · rw [if_neg hl, List.filter_eq_nil_iff]
    intro w hw
    obtain ⟨i, hi, rfl⟩ := List.mem_map.mp hw
    have hi := List.mem_range.mp hi
    have hword : wordOf ((a / 8 + i) * 8) = wordOf (a + (max a ((a / 8 + i) * 8) - a)) := by
      unfold wordOf
      omega
    have hclean : s.poisoned (a + (max a ((a / 8 + i) * 8) - a)) = false := anyPoison_poisoned h (by omega)
    rw [State.poisoned] at hclean ⊢
    rw [hword, hclean]
    exact Bool.false_ne_true

theorem readVault_clean (h : s.anyPoison (s.vaultBase + 128 * n.toNat) 128 = false) : MarksOnly s (s.readVault n) := by
  unfold State.readVault
  rw [poisonWords_none h]
  split
  · exact .touch s _ _ _
  · exact .refl s

/-- 128 bytes at a multiple of 128 lie in one frame. -/
theorem framesOf_entry {a : Nat} (h : a % 128 = 0) : framesOf a 128 = [a / 4096] := by
  have hcount : (a + 128 - 1) / 4096 + 1 - a / 4096 = 1 := by omega
  rw [framesOf, if_neg (by decide), hcount]
  rfl

/-- The place of a tenant's entry. -/
theorem vaultBase_aligned (s : State) (n : SiteId) : (s.vaultBase + 128 * n.toNat) % 128 = 0 := by
  rw [State.vaultBase, State.pairBase, Nat.shiftLeft_eq]
  omega

/-- Where the key byte of the entry's frame is sound, the read changes no register. -/
theorem regs_readVault (h : s.anyPoison (s.vaultBase + 128 * n.toNat) 128 = false)
    (hk : s.keyV = true → s.poisoned (s.keyBase + (s.vaultBase + 128 * n.toNat) / 4096) = false) : (s.readVault n).regs = s.regs := by
  unfold State.readVault
  rw [poisonWords_none h]
  split
  · refine regs_markFrames (s := s) fun f hf => ?_
    rw [framesOf_entry (vaultBase_aligned s n)] at hf
    rw [List.mem_singleton.mp hf]
    exact hk
  · rfl

/-! ## The slot that a load fills -/

/-- What stands in slot k once the key of tenant n is loaded there. -/
def filledSlot (s : State) (n : SiteId) (k : Nat) (w : Unwrapped) : KeySlot :=
  { loaded := true, tenant := n, key := w.key, epoch := w.epoch, encSite := w.encSite, gen := (s.keySlot k).gen + 1
    used := s.curlew.useCount + 1 }

/-- The state with that slot filled. -/
def slotFilled (s : State) (n : SiteId) (k : Nat) (w : Unwrapped) : State :=
  { s with curlew := { s.curlew with slots := smSet s.curlew.slots {} k (filledSlot s n k w), useCount := s.curlew.useCount + 1 } }

theorem keySlot_slotFilled_same (s : State) (n : SiteId) (k : Nat) (w : Unwrapped) :
    (slotFilled s n k w).keySlot k = filledSlot s n k w := smGet_set_same s.curlew.slots {} k (filledSlot s n k w)

theorem keySlot_slotFilled_other {j : Nat} (h : j ≠ k) (s : State) (n : SiteId) (w : Unwrapped) :
    (slotFilled s n k w).keySlot j = s.keySlot j :=
  smGet_set_other s.curlew.slots {} {} k j (filledSlot s n k w) h

/-- A load into a free slot. -/
theorem loadSlot_free (h : (s.keySlot k).loaded = false) (w : Unwrapped) :
    s.loadSlot k n w = (slotFilled s n k w).setKeyState n 2 := by
  unfold State.loadSlot
  simp only [h, Bool.false_and, Bool.false_eq_true, if_false]
  rfl

theorem minBy_mem {α : Type} {f : α → Nat} {l : List α} {a : α} (h : minBy f l = some a) : a ∈ l := by
  induction l generalizing a with
  | nil => cases h
  | cons b l ih =>
    unfold minBy at h
    cases hl : minBy f l with
    | none =>
      rw [hl] at h
      exact List.mem_cons.mpr (.inl (Option.some.inj h).symm)
    | some c =>
      rw [hl] at h
      dsimp only at h
      split at h
      · exact List.mem_cons.mpr (.inl (Option.some.inj h).symm)
      · exact List.mem_cons_of_mem _ (Option.some.inj h ▸ ih hl)

theorem chooseSlot_lt (h : s.chooseSlot = some k) : k < 64 := by
  unfold State.chooseSlot at h
  split at h
  · next j hj => exact List.mem_range.mp (Option.some.inj h ▸ List.mem_of_find?_eq_some hj)
  · exact List.mem_range.mp (List.mem_filter.mp (minBy_mem h)).1

end Sys2Proof.Laws
end

section
/-! PROOFS. Key loads and retries (O47). -/

namespace Sys2Proof.Proofs.KeyLoads

open Sys2Proof Sys2Proof.Machine Sys2Proof.Laws

variable {s t : State} {n : SiteId} {k : Nat} {w : Unwrapped}

/-- Slot k holds the unwrapped key of tenant n, one generation higher, and nothing else beside the key array has changed; no
register has where the key byte of the entry's frame is sound. -/
structure KeyLoaded (s : State) (n : SiteId) (k : Nat) (w : Unwrapped) (t : State) : Prop where
  slot : ∃ used, t.keySlot k = { loaded := true, tenant := n, key := w.key, epoch := w.epoch, encSite := w.encSite
                                 gen := (s.keySlot k).gen + 1, used := used }
  other : ∀ j, j ≠ k → t.keySlot j = s.keySlot j
  keyState : (t.site n).keyState = 2
  memByte : ∀ b, s.inKeyArray b = false → t.memByte b = s.memByte b
  regs : (s.keyV = true → s.poisoned (s.keyBase + (s.vaultBase + 128 * n.toNat) / 4096) = false) → t.regs = s.regs

theorem clean_of_unwrap (h : s.unwrap n = some w) : s.anyPoison (s.vaultBase + 128 * n.toNat) 128 = false := by
  unfold State.unwrap at h
  split at h
  · next hr => simpa using (Bool.and_eq_true_iff.mp hr).2
  · cases h

/-- What a load from a readable entry into a free slot leaves. -/
theorem loadKey_sound (h : s.unwrap n = some w) : s.loadKey k n = (s.readVault n).loadSlot k n w := by
  rw [State.loadKey, h]

theorem keySlot_of_marks (h : MarksOnly s t) (j : Nat) : t.keySlot j = s.keySlot j :=
  h.keeps (fun v => v.keySlot j) fun _ _ _ => rfl

theorem keyLoaded_loadKey (hfree : (s.keySlot k).loaded = false) (h : s.unwrap n = some w) : KeyLoaded s n k w (s.loadKey k n) := by
  have hclean := clean_of_unwrap h
  have hmarks := readVault_clean hclean
  have hslot := keySlot_of_marks hmarks
  rw [loadKey_sound h, loadSlot_free ((congrArg KeySlot.loaded (hslot k)).trans hfree)]
  refine ⟨⟨(s.readVault n).curlew.useCount + 1, ?_⟩, fun j hj => ?_, ?_, hmarks.memByte, regs_readVault hclean⟩
  · rw [← hslot k]
    exact keySlot_slotFilled_same _ n k w
  · exact (keySlot_slotFilled_other hj _ n w).trans (hslot j)
  · exact congrArg Site.keyState (site_setSite_same _ n _)

/-- An append that begins under the key in slot k. -/
theorem tryBegin_begins {a : Append} {l : List Append} (ha : (s.site n).appends = a :: l)
    (hidle : (a.began.isSome || Tide.hasSite s.tide.entries n || !(s.site n).ringSet) = false) (hfull : s.ringFull n = false)
    (hcount : s.opCount < 8) (hlive : s.liveSlot n = some k) : ∃ o : OpCopy, o.key = (s.keySlot k).key ∧ o.slot = k
      ∧ s.tryBegin n = ((if a.kind.ofSite then s.readVault n else s).upSite n
          (fun v => { v with appends := { a with began := some o, waitSpace := false } :: l })).useSlot k := by
  unfold State.tryBegin
  rw [ha]
  dsimp only
  rw [hidle, hfull, hlive, if_neg Bool.false_ne_true, if_neg Bool.false_ne_true, if_neg (Nat.not_le.2 hcount)]
  exact ⟨_, rfl, rfl, rfl⟩

/-- What the load leaves of what a beginning asks. -/
theorem loadKey_leaves (hfree : (s.keySlot k).loaded = false) (h : s.unwrap n = some w) :
    ∃ v : State, MarksOnly s v ∧ s.loadKey k n = (slotFilled v n k w).setKeyState n 2 := by
  have hmarks := readVault_clean (clean_of_unwrap h)
  refine ⟨s.readVault n, hmarks, ?_⟩
  rw [loadKey_sound h, loadSlot_free ((congrArg KeySlot.loaded (keySlot_of_marks hmarks k)).trans hfree)]

/-- The number of operations under way does not grow where an entry without one is put in. -/
theorem ops_smSet_le (m : SMap Site) (j : Nat) (v : Site) (hv : v.op = none) :
    ((smSet m {} j v).filter (fun e => e.2.op.isSome)).length ≤ (m.filter (fun e => e.2.op.isSome)).length := by
  have hput (l : SMap Site) : (smPut l j v).filter (fun e => e.2.op.isSome) = l.filter (fun e => e.2.op.isSome) := by
    induction l with
    | nil => simp [smPut, hv]
    | cons e l ih =>
      unfold smPut
      split
      · simp [hv]
      · rw [List.filter_cons, List.filter_cons, ih]
  have hdrop : ((smDrop m j).filter (fun e => e.2.op.isSome)).length ≤ (m.filter (fun e => e.2.op.isSome)).length :=
    ((List.filter_sublist (l := m)).filter _).length_le
  unfold smSet
  split
  · exact hdrop
  · rw [hput]
    exact hdrop

theorem slotOf_slotFilled (hk : k < 64) (h : s.slotOf n = none) (w : Unwrapped) : (slotFilled s n k w).slotOf n = some k := by
  have hnone := List.find?_eq_none.mp h
  refine List.find?_range_eq_some.mpr ⟨?_, List.mem_range.mpr hk, fun j hj => ?_⟩
  · rw [keySlot_slotFilled_same]
    simp [filledSlot]
  · have hj64 := hnone j (List.mem_range.mpr (hj.trans hk))
    rw [keySlot_slotFilled_other hj.ne]
    exact Bool.not_eq_true' _ ▸ Bool.eq_false_iff.mpr hj64

/-- The slot, once used, still holds the key, and the site's entry may change in all but its key state. -/
theorem KeyLoaded.used {u : State} {f : Site → Site} (h : KeyLoaded s n k w t) (hm : MarksOnly t u)
    (hin : ∀ b, t.inKeyArray b = s.inKeyArray b)
    (hregs : (s.keyV = true → s.poisoned (s.keyBase + (s.vaultBase + 128 * n.toNat) / 4096) = false) → u.regs = t.regs)
    (hf : ∀ v, (f v).keyState = v.keyState) : KeyLoaded s n k w ((u.upSite n f).useSlot k) := by
  have hslot (j : Nat) : (u.upSite n f).keySlot j = t.keySlot j := keySlot_of_marks hm j
  have hcurlew : (u.upSite n f).curlew = u.curlew := setSite_curlew _ _ _
  obtain ⟨used, hused⟩ := h.slot
  refine ⟨⟨(u.upSite n f).curlew.useCount + 1, ?_⟩, fun j hj => ?_, ?_, fun b hb => ?_, fun hk => (hregs hk).trans (h.regs hk)⟩
  · refine (smGet_set_same (u.upSite n f).curlew.slots {} k _).trans ?_
    rw [hslot, hused]
  · exact (smGet_set_other (u.upSite n f).curlew.slots {} {} k j _ hj).trans ((hslot j).trans (h.other j hj))
  · have hsite : ((u.upSite n f).useSlot k).site n = f (u.site n) := site_setSite_same _ _ _
    rw [hsite, hf, hm.keeps (fun v => v.site n) fun _ _ _ => rfl]
    exact h.keyState
  · exact (hm.memByte b ((hin b).trans hb)).trans (h.memByte b hb)

theorem ringFull_congr (h : ∀ r, r ≠ .d .integPoisonDrop → t.reg r = s.reg r) : t.ringFull n = s.ringFull n := by
  have hreg (r : SReg) : t.reg (.site n r) = s.reg (.site n r) := h _ (by simp)
  rw [State.ringFull, State.ringFull, State.retained, State.retained, State.ringSlots, State.ringSlots, State.head, State.head,
    State.tail, State.tail, hreg, hreg, hreg]

/-- An append that asks for its key. -/
theorem asks_of_needsKey (h : s.needsKey n = true) : ∃ (a : Append) (l : List Append), (s.site n).appends = a :: l ∧ a.began = none
    ∧ Tide.hasSite s.tide.entries n = false ∧ (s.site n).ringSet = true ∧ s.ringFull n = false := by
  unfold State.needsKey at h
  split at h
  · cases h
  · next a l ha =>
    simp only [Bool.and_eq_true, Option.isNone_iff_eq_none, Bool.not_eq_true'] at h
    obtain ⟨⟨⟨⟨hb, ht⟩, hr⟩, hf⟩, -⟩ := h
    exact ⟨a, l, ha, hb, ht, hr, hf⟩

/-- A site that asks for its key, which loads, has its oldest append begun under it. -/
theorem retry_begins (hslot : s.slotOf n = none) (hchoose : s.chooseSlot = some k) (hfree : (s.keySlot k).loaded = false)
    (hw : s.unwrap n = some w) (hneeds : s.needsKey n = true) (hstate : (s.site n).keyState ≠ 3) (hcount : s.opCount < 8) :
    KeyLoaded s n k w (s.retry n) ∧ ∃ o : OpCopy, ((s.retry n).site n).op = some o ∧ o.key = w.key ∧ o.slot = k := by
  obtain ⟨v, hmarks, hload⟩ := loadKey_leaves hfree hw
  have hloaded := keyLoaded_loadKey hfree hw
  obtain ⟨a, l, ha, hbegan, htide, hring, hfull⟩ := asks_of_needsKey hneeds
  have hdemand : s.retry n = (s.loadKey k n).tryBegin n := by
    rw [State.retry, if_pos hneeds, State.demandKey, if_neg hstate, hslot, hchoose]
    rfl
  have hsites : v.sites = s.sites := hmarks.keeps State.sites fun _ _ _ => rfl
  have hsite : (s.loadKey k n).site n = { s.site n with keyState := 2 } := by
    rw [hload, State.setKeyState, State.upSite, site_setSite_same]
    exact congrArg (fun m => { smGet m {} n.toNat with keyState := 2 }) hsites
  have hslots : (s.loadKey k n).slotOf n = some k := by
    rw [hload]
    exact slotOf_slotFilled (chooseSlot_lt hchoose) ((hmarks.keeps (fun u => u.slotOf n) fun _ _ _ => rfl).trans hslot) w
  have hlive : (s.loadKey k n).liveSlot n = some k := by rw [State.liveSlot, if_pos hloaded.keyState, hslots]
  have hops : (s.loadKey k n).opCount < 8 := by
    refine Nat.lt_of_le_of_lt ?_ hcount
    rw [hload]
    have hle := ops_smSet_le s.sites n.toNat { s.site n with keyState := 2 } (by rw [Site.op, ha]; exact hbegan)
    have hput : (((slotFilled v n k w).setKeyState n 2)).sites = smSet s.sites {} n.toNat { s.site n with keyState := 2 } := by
      exact congrArg (fun m => smSet m {} n.toNat { smGet m {} n.toNat with keyState := 2 }) hsites
    rw [State.opCount, hput]
    exact hle
  have hfull2 : (s.loadKey k n).ringFull n = false := by
    rw [hload]
    exact (ringFull_congr (s := s) (t := (slotFilled v n k w).setKeyState n 2) hmarks.reg).trans hfull
  have htide2 : (s.loadKey k n).tide = s.tide := by
    rw [hload]
    exact hmarks.keeps State.tide fun _ _ _ => rfl
  obtain ⟨o, hkey, hoslot, hbegin⟩ := tryBegin_begins (s := s.loadKey k n) (n := n) (k := k) (a := a) (l := l)
    (by rw [hsite]; exact ha) (by rw [hbegan, htide2, htide, hsite, hring]; rfl) hfull2 hops hlive
  have hreg (r : Reg) (hr : r ≠ .d .integPoisonDrop) : (s.loadKey k n).reg r = s.reg r := by
    rw [hload]
    exact hmarks.reg r hr
  have hvault : (s.loadKey k n).vaultBase = s.vaultBase := by
    rw [State.vaultBase, State.vaultBase, State.pairBase, State.pairBase, hreg _ (by simp), hreg _ (by simp)]
  have hpoison : (s.loadKey k n).poison = s.poison := by
    rw [hload]
    exact hmarks.keeps State.poison fun _ _ _ => rfl
  have hclean : (s.loadKey k n).anyPoison ((s.loadKey k n).vaultBase + 128 * n.toNat) 128 = false := by
    rw [hvault, anyPoison_congr hpoison]
    exact clean_of_unwrap hw
  have hread : MarksOnly (s.loadKey k n) (if a.kind.ofSite then (s.loadKey k n).readVault n else s.loadKey k n) := by
    split
    · exact readVault_clean hclean
    · exact .refl _
  rw [hdemand, hbegin]
  refine ⟨hloaded.used hread (fun b => inKeyArray_congr fun r hr => hreg r (by rcases hr with rfl | rfl | rfl <;> simp)) (fun hk => ?_)
    fun _ => rfl, o, ?_, ?_, hoslot⟩
  · split
    · refine regs_readVault hclean ?_
      rw [State.keyV, State.keyBase, State.pairBase, hreg _ (by simp), hreg _ (by simp), hvault, State.poisoned, hpoison]
      exact hk
    · rfl
  · exact congrArg Site.op (site_setSite_same _ n _)
  · obtain ⟨used, hused⟩ := hloaded.slot
    rw [hkey, hused]

/-- A key load of a site with nothing to append. -/
theorem kload_loads {rest : List SiteId} (hslot : s.slotOf n = none) (hchoose : s.chooseSlot = some k)
    (hfree : (s.keySlot k).loaded = false) (hw : s.unwrap n = some w) (ha : (s.site n).appends = []) :
    KeyLoaded s n k w (s.kload n rest) ∧ (s.kload n rest).curlew.loads = rest := by
  let q : State := { s with curlew := { s.curlew with loads := rest } }
  have hloaded : KeyLoaded q n k w (q.loadKey k n) := keyLoaded_loadKey hfree hw
  obtain ⟨v, hmarks, hload⟩ := loadKey_leaves (s := q) hfree hw
  have hsites : v.sites = s.sites := hmarks.keeps State.sites fun _ _ _ => rfl
  have happends : ((q.loadKey k n).site n).appends = [] := by
    rw [hload, State.setKeyState, State.upSite, site_setSite_same]
    refine (congrArg (fun m : SMap Site => (smGet m {} n.toNat).appends) hsites).trans ha
  have hneeds : (q.loadKey k n).needsKey n = false := by rw [State.needsKey, happends]
  have hkload : s.kload n rest = q.loadKey k n := by
    have hretry : (q.loadKey k n).retry n = q.loadKey k n := by
      rw [State.retry, hneeds, if_neg Bool.false_ne_true, tryBegin_none happends]
    rw [State.kload, hslot, hchoose]
    exact hretry
  have hloads : (q.loadKey k n).curlew.loads = rest := by
    rw [hload]
    exact hmarks.keeps (fun v => v.curlew.loads) fun _ _ _ => rfl
  rw [hkload]
  exact ⟨⟨hloaded.slot, hloaded.other, hloaded.keyState, hloaded.memByte, hloaded.regs⟩, hloads⟩

/-- VALID of CW_REQ is written 1: the record is freed and every waiting operation is tried again (R410). -/
theorem cwReqClear_valid {a : Access} {d : Word32} (hr : s.reaches a (.curlew .cwReq) d = true) (hw : writes1 a d 0 = true) :
    exec (.cwReqClear a d) s = .next (((s.setReg (.curlew .cwReq) 0).retryAll).complete a) := by
  have hseen : bitAt (seen (lanesOf a) d) 0 = true := hw
  have hlive : s.liveWrite (whoOf a) (s.accWorld a (.curlew .cwReq)) (.curlew .cwReq) (lanesOf a) d
      = some (s.setReg (.curlew .cwReq) 0).retryAll := by
    simp only [State.liveWrite, State.kWrite, State.validClear, hseen, if_true]
  rw [exec, execCwReqClear, if_pos hw, withUpset_none, writeReg_live hr rfl rfl (by simp) hlive]

/-- A failed residue check of a begun settlement or write-off (R344). -/
theorem counterResidueRetry_begun {p : Append} {more : List Append} (ha : (s.site n).appends = p :: more) (hb : p.began.isSome = true)
    (hkind : p.kind = .settle ∨ p.kind = .writeOff) :
    exec (.counterResidueRetry n) s = .next (s.fresh.2.integRec 8 7 0 5 (s.fresh.1.toNat % 2 ^ 40)) := by
  rw [exec, execCounterResidueRetry, ha]
  exact congrArg Host.Outcome.next (if_pos ⟨hb, hkind⟩)

/-- What the record of a failed residue check holds. -/
theorem integRec_residue (hv : bitAt (s.reg (.d .integRecInfo)) 0 = false) (at0 : Nat) :
    let t := s.integRec 8 7 0 5 at0
    t.reg (.d .integRecInfo) = BitVec.ofNat 32 (1 + 8 * 16 + 7 * 256 + 0 * 65536 + 5 * 1048576)
      ∧ bitAt (t.reg (.d .irqLinePend)) 10 = true := by
  refine ⟨integRec_recorded _ _ _ _ _ hv, ?_⟩
  unfold State.integRec
  dsimp only
  rw [if_neg (by simp [hv])]
  exact bitAt_setLine _ (by decide)

/-- Settles O47: the loads and retries spare every other site whatever they meet, and a load from a readable entry into a free
slot fills it. -/
theorem keysAreLoaded : Obligations.KeysAreLoaded := by
  unfold Obligations.KeysAreLoaded
  refine ⟨?_, fun s a d => cwReqClear_valid, ?_⟩
  · intro s n up answers
    have hanswers (i : Instr) (t : State) (hi : exec i s = .next t) (h : SparesOthers n s t) : answers i :=
      ⟨t, hi, h.ctxs, h.links, h.sent, h.site⟩
    refine ⟨hanswers _ _ rfl (.withUpset .retry up s), hanswers _ _ rfl (.withUpset .retry up s), ?_, fun hl => ?_, fun hl => ?_⟩
    · refine hanswers _ _ rfl ?_
      split
      · exact .refl s
      · have hrec := integRec_regsOnly (s := s.fresh.2) 8 7 0 5 (s.fresh.1.toNat % 2 ^ 40)
        exact .ite (.of_sites (hrec.keeps State.ctxs fun _ _ => rfl) (hrec.keeps State.links fun _ _ => rfl)
          (hrec.keeps State.sent fun _ _ => rfl) (hrec.keeps State.port fun _ _ => rfl) (hrec.keeps State.sites fun _ _ => rfl)) (.refl s)
    · obtain ⟨rest, hrest⟩ := List.head?_eq_some_iff.mp hl
      exact hanswers _ _ (by rw [exec, execKloadDone, hrest]) (.withUpset (fun s => .kload s rest) up s)
    · rw [exec, execKloadDone, hl]
  · intro s n k w v loaded
    have hloaded {t : State} (h : KeyLoaded s n k w t) : loaded t := by
      obtain ⟨used, hused⟩ := h.slot
      have hslot {β : Type} (f : KeySlot → β) := congrArg f hused
      exact ⟨hslot KeySlot.loaded, hslot KeySlot.tenant, hslot KeySlot.key, hslot KeySlot.epoch, hslot KeySlot.encSite,
        hslot KeySlot.gen, h.keyState, h.other, h.memByte, h.regs⟩
    refine ⟨fun hslot hchoose hfree hw => ⟨fun hneeds hstate hcount => ?_, fun rest hrest ha => ?_⟩,
      fun p more ha hb hkind hv => ?_⟩
    · intro begun
      obtain ⟨hload, hop⟩ := retry_begins hslot hchoose hfree hw hneeds hstate hcount
      exact ⟨⟨_, rfl, hloaded hload, hop⟩, ⟨_, rfl, hloaded hload, hop⟩⟩
    · obtain ⟨hload, hloads⟩ := kload_loads (rest := rest) hslot hchoose hfree hw ha
      exact ⟨_, by rw [exec, execKloadDone, hrest]; rfl, hloaded hload, hloads⟩
    · have hrec := integRec_regsOnly (s := s.fresh.2) 8 7 0 5 (s.fresh.1.toNat % 2 ^ 40)
      obtain ⟨hinfo, hline⟩ := integRec_residue (s := s.fresh.2) hv (s.fresh.1.toNat % 2 ^ 40)
      refine ⟨_, counterResidueRetry_begun ha hb hkind, ?_, ?_, ?_, hline, hrec.keeps State.sites fun _ _ => rfl,
        hrec.keeps State.mem fun _ _ => rfl⟩
      · rw [hinfo]; rfl
      · rw [hinfo]; rfl
      · rw [hinfo]; rfl

end Sys2Proof.Proofs.KeyLoads
end

section
/-! SUPPORT. What Curlew's reads and writes leave (spec/14, R336, R337): the bytes outside a range, the registers beside the
integrity records, and poison. -/

namespace Sys2Proof.Laws

open Sys2Proof Sys2Proof.Machine

variable {s t u : State} {P Q : Nat → Prop} {a b len k : Nat} {bs : List Byte} {ws : List Nat} {r : Reg} {n : SiteId}

/-- The registers in which a read or a write of memory counts and records what it meets. -/
def integrityRegs : List Reg :=
  [.d .integPoisonDrop, .d .integPoisonUse, .d .integRecInfo, .d .integRecAddrLo, .d .integRecAddrHi, .d .irqLinePend]

/-- Outside P and the key array memory is as it was; no word becomes poisoned, only the integrity records change among the
registers, and the tenants, the update engine and Curlew stay. -/
structure Within (P : Nat → Prop) (s t : State) : Prop where
  upset : t.upset = s.upset
  poisoned : ∀ a, s.poisoned a = false → t.poisoned a = false
  reg : ∀ r, r ∉ integrityRegs → t.reg r = s.reg r
  memByte : ∀ b, ¬ P b → s.inKeyArray b = false → t.memByte b = s.memByte b
  sites : t.sites = s.sites
  ue : t.ue = s.ue
  curlew : t.curlew = s.curlew

/-- Outside P and the key array memory is as it was, no word becomes poisoned, and of the registers only the integrity records
change. -/
structure Spares (P : Nat → Prop) (s t : State) : Prop where
  upset : t.upset = s.upset
  poisoned : ∀ a, s.poisoned a = false → t.poisoned a = false
  reg : ∀ r, r ∉ integrityRegs → t.reg r = s.reg r
  memByte : ∀ b, ¬ P b → s.inKeyArray b = false → t.memByte b = s.memByte b

theorem Within.spares (h : Within P s t) : Spares P s t := ⟨h.upset, h.poisoned, h.reg, h.memByte⟩

theorem Spares.inKeyArray (h : Spares P s t) (b : Nat) : t.inKeyArray b = s.inKeyArray b :=
  inKeyArray_congr fun r hr => h.reg r (by rcases hr with rfl | rfl | rfl <;> simp [integrityRegs])

theorem Spares.trans (h : Spares P s t) (k : Spares P t u) : Spares P s u :=
  ⟨k.upset.trans h.upset, fun a ha => k.poisoned a (h.poisoned a ha), fun r hr => (k.reg r hr).trans (h.reg r hr),
    fun b hp hb => (k.memByte b hp ((h.inKeyArray b).trans hb)).trans (h.memByte b hp hb)⟩

namespace Within

theorem refl (s : State) : Within P s s := ⟨rfl, fun _ h => h, fun _ _ => rfl, fun _ _ _ => rfl, rfl, rfl, rfl⟩

theorem inKeyArray (h : Within P s t) (b : Nat) : t.inKeyArray b = s.inKeyArray b := h.spares.inKeyArray b

theorem trans (h : Within P s t) (k : Within P t u) : Within P s u :=
  ⟨k.upset.trans h.upset, fun a ha => k.poisoned a (h.poisoned a ha), fun r hr => (k.reg r hr).trans (h.reg r hr),
    fun b hp hb => (k.memByte b hp ((h.inKeyArray b).trans hb)).trans (h.memByte b hp hb), k.sites.trans h.sites,
    k.ue.trans h.ue, k.curlew.trans h.curlew⟩

theorem mono (h : Within P s t) (hpq : ∀ b, P b → Q b) : Within Q s t :=
  { h with memByte := fun b hq hb => h.memByte b (fun hp => hq (hpq b hp)) hb }

theorem ite {c : Prop} [Decidable c] (h : Within P s t) (k : Within P s u) : Within P s (if c then t else u) := by
  split
  · exact h
  · exact k

theorem setReg (s : State) (v : Word32) (h : r ∈ integrityRegs) : Within P s (s.setReg r v) :=
  ⟨rfl, fun _ h => h, fun q hq => reg_setReg_other s r q v fun e => hq (e ▸ h), fun _ _ _ => rfl, rfl, rfl, rfl⟩

theorem bumpSat (s : State) (v : Nat) (h : r ∈ integrityRegs) : Within P s (s.bumpSat r v) := setReg s _ h

theorem marks (h : MarksOnly s t) : Within P s t :=
  ⟨h.keeps State.upset fun _ _ _ => rfl, fun a ha => (h.keeps (fun v => v.poisoned a) fun _ _ _ => rfl).trans ha,
    fun r hr => h.reg r fun e => hr (by simp [integrityRegs, e]), fun b _ hb => h.memByte b hb,
    h.keeps State.sites fun _ _ _ => rfl, h.keeps State.ue fun _ _ _ => rfl, h.keeps State.curlew fun _ _ _ => rfl⟩

theorem foldl {β : Type} (f : State → β → State) (l : List β) (s : State) (hs : s.upset = [])
    (hf : ∀ t b, t.upset = [] → Within P t (f t b)) : Within P s (l.foldl f s) := by
  induction l generalizing s with
  | nil => exact refl s
  | cons b l ih =>
    have hb := hf s b hs
    exact hb.trans (ih _ (hb.upset.trans hs))

theorem integRec (s : State) (path cause core agent a : Nat) : Within P s (s.integRec path cause core agent a) :=
  ite (setReg s _ (by simp [integrityRegs]))
    ((((setReg s _ (by simp [integrityRegs])).trans (setReg _ _ (by simp [integrityRegs]))).trans
      (setReg _ _ (by simp [integrityRegs]))).trans (setReg _ _ (by simp [integrityRegs])))

/-- Where the command under way finds no word uncorrectable, it detects none. -/
theorem detects_none (h : s.upset = []) (a : Nat) : s.detects a = false := by rw [State.detects, h, List.any_nil]

theorem countPoison (core agent : Nat) (ws : List Nat) (s : State) (h : s.upset = []) : Within P s (s.countPoison core agent ws) :=
  foldl _ ws s h fun t w ht => by
    rw [detects_none ht, if_neg Bool.false_ne_true]
    exact bumpSat t 1 (by simp [integrityRegs])

theorem consumeAll (path core agent : Nat) (ws : List Nat) (s : State) (h : s.upset = []) :
    Within P s (s.consumeAll path core agent ws) := by
  cases ws with
  | nil => exact refl s
  | cons w ws =>
    have hfirst : Within P s (s.usePoison path core agent w) := by
      rw [State.usePoison, detects_none h, if_neg Bool.false_ne_true]
      exact (bumpSat s 1 (by simp [integrityRegs])).trans (integRec _ _ _ _ _ _)
    exact hfirst.trans (countPoison core agent ws _ (hfirst.upset.trans h))

theorem readVault (s : State) (n : SiteId) (h : s.upset = []) : Within P s (s.readVault n) :=
  ite ((consumeAll _ _ _ _ s h).trans (marks (.touch _ _ _ _))) (refl s)

theorem curlewReads (path : Nat) (l : List (Nat × Nat)) (s : State) (h : s.upset = []) : Within P s (s.curlewReads path l) := by
  have hconsume : Within P s (s.consumeAll path 0 5 (l.flatMap fun p => s.poisonWords p.1 p.2)) := consumeAll _ _ _ _ s h
  exact hconsume.trans (foldl _ l _ (hconsume.upset.trans h) fun t p _ => marks (.touch t p.1 p.2 false))

end Within

/-! ## A write of an agent -/

/-- A write leaves out the bytes of the words it drops (R337). -/
theorem smGet_memSetBut (bs : List Byte) (m : List Host.Cell) (a b : Nat) (but : List Nat) :
    smGet (memSetBut m a bs but) 0 b
      = if a ≤ b ∧ b < a + bs.length ∧ but.contains (wordOf b) = false then bs.getD (b - a) 0 else smGet m 0 b := by
  induction bs generalizing m a with
  | nil => rw [if_neg (by simp; omega)]; rfl
  | cons v bs ih =>
    rw [memSetBut, ih]
    by_cases hin : a + 1 ≤ b ∧ b < a + 1 + bs.length ∧ but.contains (wordOf b) = false
    · obtain ⟨hlo, hhi, hw⟩ := hin
      rw [if_pos ⟨hlo, hhi, hw⟩, if_pos ⟨by omega, by rw [List.length_cons]; omega, hw⟩, show b - a = (b - (a + 1)) + 1 by omega,
        List.getD_cons_succ]
    · rw [if_neg hin]
      by_cases hb : b = a
      · subst hb
        cases hw : but.contains (wordOf b) with
        | true => rw [if_pos rfl, if_neg (by simp)]
        | false =>
          rw [if_neg Bool.false_ne_true, smGet_memSet, if_pos rfl, if_pos ⟨le_refl b, by simp, rfl⟩]
          simp
      · have hout : ¬ (a ≤ b ∧ b < a + (v :: bs).length ∧ but.contains (wordOf b) = false) := by
          rintro ⟨hlo, hhi, hw⟩
          rw [List.length_cons] at hhi
          exact hin ⟨by omega, by omega, hw⟩
        rw [if_neg hout]
        split
        · rfl
        · rw [smGet_memSet, if_neg hb]

theorem memByte_memWrite (s : State) (a b : Nat) (bs : List Byte) : (s.memWrite a bs).memByte b
    = if a ≤ b ∧ b < a + bs.length ∧ (s.droppedWords a bs.length).contains (wordOf b) = false then bs.getD (b - a) 0
      else s.memByte b := by
  unfold State.memWrite
  dsimp only
  split <;> exact smGet_memSetBut bs s.mem a b _

theorem within_memWrite (s : State) (a : Nat) (bs : List Byte) :
    Within (fun b => a ≤ b ∧ b < a + bs.length) s (s.memWrite a bs) := by
  have hmem (b : Nat) (hb : ¬ (a ≤ b ∧ b < a + bs.length)) : (s.memWrite a bs).memByte b = s.memByte b := by
    rw [memByte_memWrite, if_neg fun h => hb ⟨h.1, h.2.1⟩]
  refine ⟨?_, fun c hc => ?_, fun r hr => ?_, fun b hb _ => hmem b hb, ?_, ?_, ?_⟩ <;> unfold State.memWrite <;> dsimp only <;> split
  · rfl
  · rfl
  · exact smGet_dropPoison hc _
  · exact smGet_dropPoison hc _
  · rfl
  · exact reg_bumpSat_other _ _ fun e => hr (by simp [integrityRegs, e])
  all_goals rfl

theorem within_agentWrite (s : State) (a : Nat) (bs : List Byte) :
    Within (fun b => a ≤ b ∧ b < a + bs.length) s (s.agentWrite a bs) :=
  (within_memWrite s a bs).trans (.marks (.foldl _ _ _))

/-- A byte of a word that the write does not drop. -/
theorem agentWrite_byte (hlo : a ≤ b) (hhi : b < a + bs.length) (hw : s.poisoned b = false ∨ covers a bs.length b = true)
    (hkey : s.inKeyArray b = false) : (s.agentWrite a bs).memByte b = bs.getD (b - a) 0 := by
  have hkept : (s.droppedWords a bs.length).contains (wordOf b) = false := by
    rw [← Bool.not_eq_true, List.contains_iff_mem, State.droppedWords, List.mem_filter]
    rintro ⟨-, h⟩
    have hww : wordOf (wordOf b) = wordOf b := by unfold wordOf; omega
    rw [State.poisoned, covers, hww] at h
    rw [State.poisoned, covers] at hw
    rcases hw with hw | hw <;> simp [hw] at h
  have hmarks : MarksOnly (s.memWrite a bs) (s.agentWrite a bs) := .foldl _ _ _
  rw [hmarks.memByte b (((within_memWrite s a bs).inKeyArray b).trans hkey), memByte_memWrite, if_pos ⟨hlo, hhi, hkept⟩]

theorem smGet_dropPoison_mem {p : SMap Bool} {k : Nat} (ws : List Nat) (h : k ∈ ws) : smGet (dropPoison p ws) false k = false := by
  induction ws generalizing p with
  | nil => cases h
  | cons w ws ih =>
    rcases List.mem_cons.mp h with rfl | h
    · exact smGet_dropPoison (smGet_set_same _ _ _ _) ws
    · exact ih h

/-- A write takes away the poison of a word that it covers (R337). -/
theorem agentWrite_clean (hlo : a ≤ b) (hhi : b < a + bs.length) (hw : covers a bs.length b = true) :
    (s.agentWrite a bs).poisoned b = false := by
  have hmarks : MarksOnly (s.memWrite a bs) (s.agentWrite a bs) := .foldl _ _ _
  have hmem : wordOf b ∈ (((List.range bs.length).map (fun i => wordOf (a + i))).eraseDups).filter (fun w => covers a bs.length w) := by
    have hww : wordOf (wordOf b) = wordOf b := by unfold wordOf; omega
    rw [List.mem_filter, List.mem_eraseDups, covers, hww]
    refine ⟨List.mem_map.mpr ⟨b - a, List.mem_range.mpr (by omega), by rw [Nat.add_sub_cancel' hlo]⟩, hw⟩
  rw [hmarks.keeps (fun v => v.poisoned b) fun _ _ _ => rfl]
  unfold State.memWrite
  dsimp only
  split <;> exact smGet_dropPoison_mem _ hmem

end Sys2Proof.Laws
end

section
/-! PROOFS. The command rings (O48). -/

namespace Sys2Proof.Proofs.CommandRings

open Sys2Proof Sys2Proof.Machine Sys2Proof.Laws

variable {s t u : State} {k : BitVec 3} {d : Desc} {n : SiteId} {st res op : Nat} {P : Nat → Prop}

/-! ## A descriptor that ends (R429) -/

/-- The bytes of a descriptor that Curlew may read and write. -/
def DescSound (s : State) (k : BitVec 3) : Prop :=
  ∀ i, i < 64 → s.poisoned (s.descAddr k + i) = false ∧ s.inKeyArray (s.descAddr k + i) = false

theorem descAddr_spares (h : Spares P s t) : t.descAddr k = s.descAddr k ∧ t.crCons k = s.crCons k ∧ t.crProd k = s.crProd k := by
  have hreg (r : KReg) : t.reg (.curlew r) = s.reg (.curlew r) := h.reg _ (by simp [integrityRegs])
  refine ⟨?_, ?_, ?_⟩
  · rw [State.descAddr, State.descAddr, State.crBase, State.crBase, State.pairBase, State.pairBase, State.crCons, State.crCons, hreg,
      hreg, hreg]
  · rw [State.crCons, State.crCons, hreg]
  · rw [State.crProd, State.crProd, hreg]

theorem DescSound.spares (h : DescSound s k) (hw : Spares P s t) : DescSound t k := fun i hi => by
  rw [(descAddr_spares hw).1]
  exact ⟨hw.poisoned _ (h i hi).1, (hw.inKeyArray _).trans (h i hi).2⟩

/-- STATUS and RESULT stand in the descriptor, CR_CONS is past it, and nothing else has changed. -/
structure Ended (u : State) (k : BitVec 3) (st res : Nat) (t : State) : Prop where
  status : t.memByte (u.descAddr k + 1) = BitVec.ofNat 8 st
  result : ∀ i, i < 4 → t.memByte (u.descAddr k + 0x10 + i) = byteOf res i
  cons : t.crCons k = (u.crCons k + 1) % 65536
  prod : t.crProd k = u.crProd k
  memByte : ∀ b, ¬ (u.descAddr k ≤ b ∧ b < u.descAddr k + 0x18) → u.inKeyArray b = false → t.memByte b = u.memByte b
  poisoned : ∀ a, u.poisoned a = false → t.poisoned a = false
  sites : t.sites = u.sites
  ue : t.ue = u.ue

theorem memRead_length (s : State) (a len : Nat) : (s.memRead a len).length = len := by simp [State.memRead]

/-- RESULT written into the descriptor at an address, after the descriptor is read. -/
def resultBytes (u : State) (a res : Nat) : State :=
  ((u.consumeAll 5 0 5 (u.poisonWords a 64)).touch a 64 false).agentWrite (a + 0x10) (leBytes 4 res ++ u.memRead (a + 0x14) 4)

/-- STATUS after it. -/
def endBytes (u : State) (a st res : Nat) : State :=
  (resultBytes u a res).agentWrite a
    ((resultBytes u a res).memRead a 1 ++ [BitVec.ofNat 8 st] ++ (resultBytes u a res).memRead (a + 2) 6)

theorem endDesc_eq (u : State) (k : BitVec 3) (st res : Nat) : u.endDesc k st res
    = (endBytes u (u.descAddr k) st res).setReg (.curlew (.crCons k)) (BitVec.ofNat 32 ((u.crCons k + 1) % 65536)) := rfl

section

variable {a : Nat} (hu : u.upset = [])
  (hd : ∀ i, i < 64 → u.poisoned (a + i) = false ∧ u.inKeyArray (a + i) = false)

include hu

theorem within_read : Within (fun b => a ≤ b ∧ b < a + 0x18) u ((u.consumeAll 5 0 5 (u.poisonWords a 64)).touch a 64 false) :=
  (Within.consumeAll _ _ _ _ u hu).trans (.marks (.touch _ _ _ _))

theorem within_resultBytes (res : Nat) : Within (fun b => a ≤ b ∧ b < a + 0x18) u (resultBytes u a res) := by
  refine (within_read hu).trans ((within_agentWrite _ _ _).mono fun b hb => ?_)
  have hl : (leBytes 4 res ++ u.memRead (a + 0x14) 4).length = 8 := by simp [memRead_length, leBytes]
  omega

theorem within_endBytes (st res : Nat) : Within (fun b => a ≤ b ∧ b < a + 0x18) u (endBytes u a st res) := by
  refine (within_resultBytes hu res).trans ((within_agentWrite _ _ _).mono fun b hb => ?_)
  simp only [List.length_append, memRead_length, List.length_singleton] at hb
  omega

include hd

theorem endBytes_status (st res : Nat) : (endBytes u a st res).memByte (a + 1) = BitVec.ofNat 8 st := by
  have h := within_resultBytes (a := a) hu res
  obtain ⟨hp, hk⟩ := hd 1 (by decide)
  refine (agentWrite_byte (by omega) (by simp [memRead_length]) (.inl (h.poisoned _ hp)) ((h.inKeyArray _).trans hk)).trans ?_
  rw [Nat.add_sub_cancel_left]
  rfl

theorem endBytes_result (st res : Nat) {i : Nat} (hi : i < 4) : (endBytes u a st res).memByte (a + 0x10 + i) = byteOf res i := by
  have h := within_resultBytes (a := a) hu res
  have h0 := within_read (a := a) hu
  obtain ⟨hp, hk⟩ := hd (0x10 + i) (by omega)
  rw [← Nat.add_assoc] at hp hk
  have hkept : (endBytes u a st res).memByte (a + 0x10 + i) = (resultBytes u a res).memByte (a + 0x10 + i) :=
    (within_agentWrite _ _ _).memByte _ (by simp only [List.length_append, memRead_length, List.length_singleton]; omega)
      ((h.inKeyArray _).trans hk)
  have hwrite : (resultBytes u a res).memByte (a + 0x10 + i) = (leBytes 4 res ++ u.memRead (a + 0x14) 4).getD (a + 0x10 + i - (a + 0x10)) 0 :=
    agentWrite_byte (by omega) (by simp only [List.length_append, memRead_length, leBytes_length]; omega) (.inl (h0.poisoned _ hp)) ((h0.inKeyArray _).trans hk)
  rw [hkept, hwrite, Nat.add_sub_cancel_left]
  interval_cases i <;> rfl

end

theorem crCons_setReg (v : State) (k : BitVec 3) (c : Nat) :
    (v.setReg (.curlew (.crCons k)) (BitVec.ofNat 32 (c % 65536))).crCons k = c % 65536 := by
  rw [State.crCons, reg_setReg_same, bitsOf_ofNat _ _ (by decide)]
  simp

theorem endDesc_ended (hd : DescSound u k) (hu : u.upset = []) (st res : Nat) : Ended u k st res (u.endDesc k st res) := by
  have h := within_endBytes (a := u.descAddr k) hu st res
  have hmem (v : State) (r : Reg) (c : Word32) (b : Nat) : (v.setReg r c).memByte b = v.memByte b := rfl
  have hpoison (v : State) (r : Reg) (c : Word32) (b : Nat) : (v.setReg r c).poisoned b = v.poisoned b := rfl
  rw [endDesc_eq]
  refine ⟨(hmem _ _ _ _).trans (endBytes_status hu hd st res), fun i hi => (hmem _ _ _ _).trans (endBytes_result hu hd st res hi),
    crCons_setReg _ k _, ?_, fun b hb hk => (hmem _ _ _ _).trans (h.memByte b hb hk),
    fun b hb => (hpoison _ _ _ _).trans (h.poisoned b hb), (setReg_sites _ _ _).trans h.sites, (setReg_ue _ _ _).trans h.ue⟩
  rw [State.crProd, reg_setReg_other _ _ _ _ (by simp)]
  exact (descAddr_spares h.spares).2.2

/-- The last command posted, which answers at once: its descriptor ends, and nothing follows it. -/
theorem ringCommand_ends {f : State → Desc → Option (Nat × Nat) × State} (hd : s.nextDesc k = some d) (hb : s.badDesc k d = false)
    (hsound : DescSound s k) (hupset : s.upset = []) (hone : s.crProd k = (s.crCons k + 1) % 65536)
    (hop : d.op = op) (hf : f s d = (some (st, res), u)) (hu : Spares P s u) :
    ∃ t, s.ringCommand k op f = t ∧ Ended u k st res t := by
  obtain ⟨-, hcons, hprod⟩ := descAddr_spares (k := k) hu
  have he := endDesc_ended (hsound.spares hu) (hu.upset.trans hupset) st res
  have hlast : (65536 + (u.endDesc k st res).crProd k - (u.endDesc k st res).crCons k) % 65536 = 0 := by
    rw [he.prod, he.cons, hcons, hprod, hone]
    omega
  refine ⟨_, ?_, he⟩
  rw [State.ringCommand, hd]
  refine (if_pos ⟨hop, hb⟩).trans ?_
  rw [hf]
  exact congrArg (fun j => State.skipBad j (u.endDesc k st res) k) hlast

/-- What a command leaves of memory outside its entry and its descriptor, and its answer in the descriptor. -/
theorem Ended.answer (he : Ended u k st res t) (hu : Spares P s u) :
    t.memByte (s.descAddr k + 1) = BitVec.ofNat 8 st ∧ (∀ i, i < 4 → t.memByte (s.descAddr k + 0x10 + i) = byteOf res i)
      ∧ t.crCons k = (s.crCons k + 1) % 65536 := by
  obtain ⟨haddr, hcons, -⟩ := descAddr_spares (k := k) hu
  rw [← haddr, ← hcons]
  exact ⟨he.status, he.result, he.cons⟩

theorem Ended.kept (he : Ended u k st res t) (hu : Spares P s u) {b : Nat}
    (hb : b < s.descAddr k ∨ s.descAddr k + 0x18 ≤ b) (hk : s.inKeyArray b = false) : t.memByte b = u.memByte b := by
  rw [← (descAddr_spares (k := k) hu).1] at hb
  exact he.memByte b (by omega) ((hu.inKeyArray b).trans hk)

theorem Ended.frame (he : Ended u k st res t) (hu : Spares P s u) {b : Nat} (hp : ¬ P b)
    (hb : b < s.descAddr k ∨ s.descAddr k + 0x18 ≤ b) (hk : s.inKeyArray b = false) : t.memByte b = s.memByte b :=
  (he.kept hu hb hk).trans (hu.memByte b hp hk)

theorem tenants_one (hf : d.first = n.toNat) (hl : d.last = n.toNat) : d.tenants = [n] := by
  have hcount : d.last + 1 - d.first = 1 := by omega
  rw [Desc.tenants, hcount, hf]
  simp

/-! ## GENKEY (R408) -/

/-- The state and the bytes once GENKEY has read the entry and drawn. -/
def drawn (s : State) (n : SiteId) : List Byte × List Byte × State :=
  (((s.readVault n).drawBytes 32).1, (((s.readVault n).drawBytes 32).2.drawBytes 12).1, (((s.readVault n).drawBytes 32).2.drawBytes 12).2)

/-- The entry that GENKEY writes. -/
def freshEntry (s : State) (n : SiteId) (enc : Bool) : List Byte :=
  wrapEntry (deriveKw s.curlew.bbk n s.uidBytes) n
    { key := BitVec.ofNat 256 (beNat (drawn s n).1), encSite := enc, epoch := BitVec.ofNat 16 (nextEpoch (s.vaultEntry s.vaultBase n)) }
    (drawn s n).2.1

theorem genKey_one (hv : s.vaultV = true) (hi : s.drbg.instantiated = true) (hr : s.vaultReach s.vaultBase n = true)
    (hf : d.first = n.toNat) (hl : d.last = n.toNat) :
    let s1 := (drawn s n).2.2.writeVault s.vaultBase n (freshEntry s n (decide (d.flags = 1)))
    let s2 := if (s1.site n).keyState = 0 ∨ (s1.site n).keyState = 3 then s1.setKeyState n 1 else s1
    s.genKey d = (some (1, n.toNat), (s2.noteWrapped [n] false).retry n) := by
  intro s1 s2
  rw [State.genKey, if_pos hv, tenants_one hf hl, State.genKeys, hi, hr]
  rw [Bool.not_true, if_neg Bool.false_ne_true, if_neg Bool.false_ne_true, State.genKeys, withLast, if_pos rfl, hl]
  rfl

theorem within_drawBytes (s : State) (j : Nat) : Within P s (s.drawBytes j).2 :=
  ⟨rfl, fun _ h => h, fun _ _ => rfl, fun _ _ _ => rfl, rfl, rfl, rfl⟩

theorem drawBytes_length (s : State) (j : Nat) : (s.drawBytes j).1.length = j := by
  rw [State.drawBytes, State.freshBytes, List.length_map, List.length_range]

theorem within_drawn (s : State) (n : SiteId) (h : s.upset = []) : Within P s (drawn s n).2.2 :=
  ((Within.readVault s n h).trans (within_drawBytes _ 32)).trans (within_drawBytes _ 12)

theorem writeVault_reached {base : Nat} {e : List Byte} (hw : Spares P s t) (hk : s.inKeyArray (base + 128 * n.toNat) = false) :
    t.writeVault base n e = t.agentWrite (base + 128 * n.toNat) e := by
  rw [State.writeVault, State.vaultReach, hw.inKeyArray, hk]
  rfl

theorem retry_none (h : (s.site n).appends = []) : s.retry n = s := by
  have hneeds : s.needsKey n = false := by rw [State.needsKey, h]
  rw [State.retry, hneeds, if_neg Bool.false_ne_true, tryBegin_none h]

/-! ### The entry -/

theorem wrapEntry_begins (kw : BitVec 256) (n : SiteId) (w : Unwrapped) (iv : List Byte) : ∃ rest : List Byte,
    wrapEntry kw n w iv = byteOf (1 + 2 * bit w.encSite) 0 :: byteOf (1 + 2 * bit w.encSite) 1 :: byteOf n.toNat 0 :: byteOf n.toNat 1
      :: byteOf w.epoch.toNat 0 :: byteOf w.epoch.toNat 1 :: rest ∧ 10 ≤ rest.length :=
  ⟨List.replicate 10 0 ++ iv ++ List.replicate 4 0 ++ _ ++ _ ++ _, by simp only [wrapEntry, List.append_assoc]; rfl, by simp⟩

theorem wrapEntry_length (kw : BitVec 256) (n : SiteId) (w : Unwrapped) {iv : List Byte} (h : iv.length = 12) :
    (wrapEntry kw n w iv).length ≤ 128 := by
  have hct : (gcmCrypt kw iv (beBytes 32 w.key.toNat)).length ≤ 32 := by
    rw [gcmCrypt, xorBytes, List.length_map, List.length_zip]
    refine (Nat.min_le_left _ _).trans ?_
    rw [beBytes, List.length_reverse, leBytes_length]
  simp only [wrapEntry, List.length_append, leBytes_length, List.length_replicate, h]
  omega

theorem leNat_bytes2 {e : Nat} (h : e < 65536) : leNat [byteOf e 0, byteOf e 1] = e := by
  simp only [leNat, byteOf, BitVec.toNat_ofNat, Nat.shiftRight_eq_div_pow]
  omega

theorem nextEpoch_lt (old : List Byte) : nextEpoch old < 65536 := by
  have h := leNat_lt (slice old 4 2)
  have hl : (slice old 4 2).length ≤ 2 := by rw [slice, List.length_take]; omega
  have hp : 2 ^ (8 * (slice old 4 2).length) ≤ 2 ^ 16 := Nat.pow_le_pow_right (by decide) (by omega)
  unfold nextEpoch
  dsimp only
  split <;> omega

/-- The epoch is read from the first six bytes of the entry. -/
theorem nextEpoch_vaultEntry (s : State) (n : SiteId) : nextEpoch (s.vaultEntry s.vaultBase n)
    = (let old := s.memRead (s.vaultBase + 128 * n.toNat) 6
       let e := leNat (old.drop 4)
       if leNat (old.take 1) % 2 = 0 ∨ e = 65535 then 1 else e + 1) := by
  have hprefix : s.memRead (s.vaultBase + 128 * n.toNat) 6 = (s.vaultEntry s.vaultBase n).take 6 := by
    rw [State.vaultEntry, State.memRead, State.memRead, ← List.map_take]
    rfl
  have h1 : slice (s.vaultEntry s.vaultBase n) 4 2 = ((s.vaultEntry s.vaultBase n).take 6).drop 4 := by
    rw [slice, List.drop_take]
  have h2 : slice (s.vaultEntry s.vaultBase n) 0 1 = ((s.vaultEntry s.vaultBase n).take 6).take 1 := by
    rw [slice, List.take_take]
    rfl
  rw [hprefix, nextEpoch, h1, h2]

/-! ### The state that it leaves -/

/-- The bytes of one tenant's entry. -/
def entryRange (e0 : Nat) (b : Nat) : Prop := e0 ≤ b ∧ b < e0 + 128

/-- The key state that GENKEY leaves (R412). -/
def genState (v : BitVec 2) : BitVec 2 := if v = 0 ∨ v = 3 then 1 else v

/-- The state that GENKEY for one tenant leaves. -/
structure KeyMade (s : State) (n : SiteId) (enc : Bool) (u : State) : Prop where
  spares : Spares (entryRange (s.vaultBase + 128 * n.toNat)) s u
  entry : ∀ i, i < 6 → u.memByte (s.vaultBase + 128 * n.toNat + i) = (freshEntry s n enc).getD i 0
    ∧ u.poisoned (s.vaultBase + 128 * n.toNat + i) = false
  keyState : (u.site n).keyState = genState (s.site n).keyState
  wrapped : smGet u.ue.wrapped false n.toNat = false

/-- A change of the tenant's entry, or of what the update engine keeps, touches no memory. -/
theorem spares_of_fields {s1 s2 : State} (h : Spares P s s1) (hu : s2.upset = s1.upset) (hp : s2.poison = s1.poison) (hr : s2.regs = s1.regs)
    (hm : s2.mem = s1.mem) : Spares P s s2 := by
  refine ⟨hu.trans h.upset, fun a ha => ?_, fun r hi => ?_, fun b hb hk => ?_⟩
  · rw [State.poisoned, hp]
    exact h.poisoned a ha
  · rw [State.reg, hr]
    exact h.reg r hi
  · rw [State.memByte, hm]
    exact h.memByte b hb hk

/-- The bytes of an entry that is written, in the words that it covers. -/
theorem entry_written {v : State} {e0 i : Nat} {bs : List Byte} (he : e0 % 8 = 0) (hi : i / 8 * 8 + 8 ≤ bs.length)
    (hk : v.inKeyArray (e0 + i) = false) :
    (v.agentWrite e0 bs).memByte (e0 + i) = bs.getD i 0 ∧ (v.agentWrite e0 bs).poisoned (e0 + i) = false := by
  have hw : wordOf (e0 + i) = e0 + i / 8 * 8 := by unfold wordOf; omega
  have hc : covers e0 bs.length (e0 + i) = true := by
    rw [covers, hw]
    simp only [Bool.and_eq_true, decide_eq_true_eq]
    omega
  refine ⟨(agentWrite_byte (by omega) (by omega) (.inr hc) hk).trans ?_, agentWrite_clean (by omega) (by omega) hc⟩
  rw [Nat.add_sub_cancel_left]

theorem freshEntry_length (s : State) (n : SiteId) (enc : Bool) : 8 ≤ (freshEntry s n enc).length ∧ (freshEntry s n enc).length ≤ 128 := by
  obtain ⟨rest, hbegins, hrest⟩ := wrapEntry_begins (deriveKw s.curlew.bbk n s.uidBytes) n { key := BitVec.ofNat 256 (beNat (drawn s n).1), encSite := enc, epoch := BitVec.ofNat 16 (nextEpoch (s.vaultEntry s.vaultBase n)) } (drawn s n).2.1
  refine ⟨?_, wrapEntry_length _ _ _ ?_⟩
  · rw [freshEntry, hbegins]
    simp only [List.length_cons]
    omega
  · exact drawBytes_length _ 12

theorem keyMade_genKey (hupset : s.upset = []) (hk : ∀ i, i < 128 → s.inKeyArray (s.vaultBase + 128 * n.toNat + i) = false)
    (enc : Bool) (ha : (s.site n).appends = []) :
    let s1 := (drawn s n).2.2.writeVault s.vaultBase n (freshEntry s n enc)
    let s2 := if (s1.site n).keyState = 0 ∨ (s1.site n).keyState = 3 then s1.setKeyState n 1 else s1
    KeyMade s n enc ((s2.noteWrapped [n] false).retry n) := by
  intro s1 s2
  obtain ⟨hlo, hhi⟩ := freshEntry_length s n enc
  have hk0 := hk 0 (by decide)
  rw [Nat.add_zero] at hk0
  have hdrawn : Within (entryRange (s.vaultBase + 128 * n.toNat)) s (drawn s n).2.2 := within_drawn s n hupset
  have hs1 : s1 = (drawn s n).2.2.agentWrite (s.vaultBase + 128 * n.toNat) (freshEntry s n enc) :=
    writeVault_reached hdrawn.spares hk0
  have hw1 : Within (entryRange (s.vaultBase + 128 * n.toNat)) s s1 := by
    rw [hs1]
    exact hdrawn.trans ((within_agentWrite _ _ _).mono fun b hb => ⟨hb.1, by omega⟩)
  have hsite : s1.site n = s.site n := congrArg (fun m : SMap Site => smGet m {} n.toNat) hw1.sites
  have hnext : ∃ v : Site, v.keyState = genState (s.site n).keyState ∧ v.appends = [] ∧ s2.site n = v
      ∧ s2.upset = s1.upset ∧ s2.poison = s1.poison ∧ s2.regs = s1.regs ∧ s2.mem = s1.mem := by
    by_cases hstate : (s1.site n).keyState = 0 ∨ (s1.site n).keyState = 3
    · refine ⟨{ s1.site n with keyState := 1 }, ?_, ?_, ?_, ?_⟩
      · rw [genState, ← hsite, if_pos hstate]
      · rw [hsite]; exact ha
      · simp only [s2, if_pos hstate]
        exact site_setSite_same _ _ _
      · simp only [s2, if_pos hstate]
        exact ⟨rfl, rfl, rfl, rfl⟩
    · refine ⟨s1.site n, ?_, ?_, ?_, ?_⟩
      · rw [genState, ← hsite, if_neg hstate]
      · rw [hsite]; exact ha
      · simp only [s2, if_neg hstate]
      · simp only [s2, if_neg hstate, and_self]
  obtain ⟨v, hv, hva, hsite2, hupset2, hpoison2, hregs2, hmem2⟩ := hnext
  have hretry : (s2.noteWrapped [n] false).retry n = s2.noteWrapped [n] false := retry_none (by rw [← hva, ← hsite2]; rfl)
  have hnoted (w : State) : (w.noteWrapped [n] false).upset = w.upset ∧ (w.noteWrapped [n] false).poison = w.poison
      ∧ (w.noteWrapped [n] false).regs = w.regs ∧ (w.noteWrapped [n] false).mem = w.mem := ⟨rfl, rfl, rfl, rfl⟩
  obtain ⟨hu, hp, hr, hm⟩ := hnoted s2
  rw [hretry]
  refine ⟨spares_of_fields hw1.spares (hu.trans hupset2) (hp.trans hpoison2) (hr.trans hregs2) (hm.trans hmem2), fun i hi => ?_, ?_, ?_⟩
  · have hin : (drawn s n).2.2.inKeyArray (s.vaultBase + 128 * n.toNat + i) = false := (hdrawn.inKeyArray _).trans (hk i (by omega))
    have he : (s.vaultBase + 128 * n.toNat) % 8 = 0 := by have := vaultBase_aligned s n; omega
    have hbyte (b : Nat) : (s2.noteWrapped [n] false).memByte b = s1.memByte b := congrArg (fun m => smGet m 0 b) (hm.trans hmem2)
    have hword (b : Nat) : (s2.noteWrapped [n] false).poisoned b = s1.poisoned b :=
      congrArg (fun p => smGet p false (wordOf b)) (hp.trans hpoison2)
    rw [hbyte, hword, hs1]
    exact entry_written he (by omega) hin
  · exact (congrArg Site.keyState hsite2).trans hv
  · exact smGet_set_same s2.ue.wrapped false n.toNat false

/-! ## KWRAP_STAGED (R408) -/

/-- The state that KWRAP_STAGED leaves for one tenant whose entry is empty. -/
def stagedEmpty (s : State) (n : SiteId) : State :=
  (((s.readVault n).dropKey n).writeVault s.stageBase n (List.replicate 128 0)).noteWrapped [n] true

theorem kwrap_one (hv : s.ue.stageValid = true) (hs : s.stageV = true) (he : s.vaultEmpty n = true) (hf : d.first = n.toNat)
    (hl : d.last = n.toNat) : s.kwrapStaged d = (some (1, n.toNat), stagedEmpty s n) := by
  rw [State.kwrapStaged, hv, hs, Bool.and_true, if_pos rfl, tenants_one hf hl, State.kwrapAll, he, if_pos rfl, State.kwrapAll, withLast,
    if_pos rfl, hl]
  exact if_pos rfl

/-- What it leaves. -/
structure KeyStaged (s : State) (n : SiteId) (u : State) : Prop where
  spares : Spares (entryRange (s.stageBase + 128 * n.toNat)) s u
  entry : ∀ i, i < 128 → u.memByte (s.stageBase + 128 * n.toNat + i) = 0
  keyState : (u.site n).keyState = if (s.site n).keyState = 3 then 3 else 0
  wrapped : smGet u.ue.wrapped false n.toNat = true

theorem dropKey_fields (s : State) (n : SiteId) : (s.dropKey n).upset = s.upset ∧ (s.dropKey n).poison = s.poison
    ∧ (s.dropKey n).regs = s.regs ∧ (s.dropKey n).mem = s.mem := by
  unfold State.dropKey
  split <;> exact ⟨rfl, rfl, rfl, rfl⟩

theorem keyState_dropKey (s : State) (n : SiteId) :
    ((s.dropKey n).site n).keyState = if (s.site n).keyState = 3 then 3 else 0 := by
  unfold State.dropKey
  split
  · next h => exact h
  · exact congrArg Site.keyState (site_setSite_same _ _ _)

theorem stageBase_aligned (s : State) (n : SiteId) : (s.stageBase + 128 * n.toNat) % 8 = 0 := by
  rw [State.stageBase, State.pairBase, Nat.shiftLeft_eq]
  omega

theorem keyStaged_stagedEmpty (hupset : s.upset = []) (hk : ∀ i, i < 128 → s.inKeyArray (s.stageBase + 128 * n.toNat + i) = false) :
    KeyStaged s n (stagedEmpty s n) := by
  have hk0 := hk 0 (by decide)
  rw [Nat.add_zero] at hk0
  have hread : Within (entryRange (s.stageBase + 128 * n.toNat)) s (s.readVault n) := .readVault s n hupset
  obtain ⟨hu, hp, hr, hm⟩ := dropKey_fields (s.readVault n) n
  have hdrop : Spares (entryRange (s.stageBase + 128 * n.toNat)) s ((s.readVault n).dropKey n) :=
    spares_of_fields hread.spares hu hp hr hm
  obtain ⟨v, hv⟩ : ∃ v, v = (s.readVault n).dropKey n := ⟨_, rfl⟩
  obtain ⟨w, hw⟩ : ∃ w, w = v.agentWrite (s.stageBase + 128 * n.toNat) (List.replicate 128 0) := ⟨_, rfl⟩
  have hwrite : Within (entryRange (s.stageBase + 128 * n.toNat)) v w := by
    rw [hw]
    exact (within_agentWrite _ _ _).mono fun b hb => hb
  have hentry (i : Nat) (hi : i < 128) : w.memByte (s.stageBase + 128 * n.toNat + i) = 0 := by
    rw [hw]
    refine (entry_written (v := v) (stageBase_aligned s n) (by rw [List.length_replicate]; omega)
      ((hv ▸ hdrop.inKeyArray _).trans (hk i hi))).1.trans ?_
    exact List.getD_replicate _ hi
  have hstate : (w.site n).keyState = if (s.site n).keyState = 3 then 3 else 0 := by
    have hsite : w.site n = v.site n := congrArg (fun m : SMap Site => smGet m {} n.toNat) hwrite.sites
    rw [hsite, hv, keyState_dropKey]
    exact congrArg (fun m : SMap Site => if (smGet m {} n.toNat).keyState = 3 then 3 else 0) hread.sites
  rw [stagedEmpty, writeVault_reached hdrop hk0, ← hv, ← hw]
  rw [← hv] at hdrop
  exact ⟨spares_of_fields (hdrop.trans hwrite.spares) rfl rfl rfl rfl, hentry, hstate,
    smGet_set_same w.ue.wrapped false n.toNat true⟩

/-! ## VERIFY (R430) -/

theorem slotsReached_all {q m : Nat} (h : ∀ i, i < m → s.meetsKeyArray (s.slotAddr n (q + i)) 0x1000 = false) :
    s.slotsReached n q m = m := by
  have hall : ∀ i ∈ List.range m, (!s.meetsKeyArray (s.slotAddr n (q + i)) 0x1000) = true := fun i hi => by
    rw [h i (List.mem_range.mp hi)]
    rfl
  rw [State.slotsReached, List.takeWhile_eq_self_iff.mpr hall, List.length_range]

/-- VERIFY of records that all lie outside the key array, under a key that is loaded: it answers the first record that fails. -/
theorem verify_reached {j : Nat} (hf : d.first = n.toNat) (hlive : s.liveSlot n = some j) (h1 : 1 ≤ d.seqFrom)
    (htail : s.tail n < d.seqFrom) (hhead : d.seqTo ≤ s.head n) (htide : Tide.hasSite s.tide.entries n = false)
    (hmeets : ∀ q, d.seqFrom ≤ q + 1 → q ≤ d.seqTo → s.meetsKeyArray (s.slotAddr n q) 0x1000 = false) :
    ∃ r, s.verify d = (match s.verifyFrom n (s.keySlot j) ((s.slotBytes n (d.seqFrom - 1)).drop 0xFE0)
          ((List.range (d.seqTo + 1 - d.seqFrom)).map (fun i => d.seqFrom + i)) with
        | none => (some (1, d.seqTo), (s.useSlot j).readSlots n (d.seqFrom - 1) r)
        | some q => (some (7, q), (s.useSlot j).readSlots n (d.seqFrom - 1) r)) := by
  have hn : BitVec.ofNat 10 d.first = n := by rw [hf, BitVec.ofNat_toNat, BitVec.setWidth_eq]
  have hm : s.slotsReached n (d.seqFrom - 1) (d.seqTo + 2 - d.seqFrom) = d.seqTo + 2 - d.seqFrom :=
    slotsReached_all fun i hi => hmeets _ (by omega) (by omega)
  have hrange : d.seqTo + 2 - d.seqFrom - 1 = d.seqTo + 1 - d.seqFrom := by omega
  have hsome : (s.liveSlot n).isSome = true := by rw [hlive]; rfl
  unfold State.verify
  dsimp only
  rw [hn, if_neg (by omega), htide, if_neg Bool.false_ne_true, if_pos hsome, hlive]
  dsimp only
  unfold State.verifyUnder
  dsimp only
  rw [hm, hrange]
  cases s.verifyFrom n (s.keySlot j) ((s.slotBytes n (d.seqFrom - 1)).drop 0xFE0)
      ((List.range (d.seqTo + 1 - d.seqFrom)).map (fun i => d.seqFrom + i)) with
  | none => exact ⟨d.seqTo, if_pos (le_refl _)⟩
  | some q => exact ⟨q, rfl⟩

theorem spares_readSlots (h : s.upset = []) (j q r : Nat) : Spares P s ((s.useSlot j).readSlots n q r) := by
  have huse : Spares P s (s.useSlot j) := ⟨rfl, fun _ h => h, fun _ _ => rfl, fun _ _ _ => rfl⟩
  exact huse.trans (Within.curlewReads 5 _ (s.useSlot j) h).spares

/-! ## The obligation -/

/-- A post of descriptors of which the first is good (R429). -/
theorem crProdWrite_good {a : Access} {data : Word32} (hr : s.reaches a (.curlew (.crProd k)) data = true)
    (hd : (s.setReg (.curlew (.crProd k)) (mergeBits (s.reg (.curlew (.crProd k)))
      (laneMask (lanesOf a) &&& (KReg.spec (.crProd k)).rw) data)).nextDesc k = some d)
    (hb : (s.setReg (.curlew (.crProd k)) (mergeBits (s.reg (.curlew (.crProd k)))
      (laneMask (lanesOf a) &&& (KReg.spec (.crProd k)).rw) data)).badDesc k d = false) :
    exec (.crProdWrite a k data) s = .next ((s.setReg (.curlew (.crProd k)) (mergeBits (s.reg (.curlew (.crProd k)))
      (laneMask (lanesOf a) &&& (KReg.spec (.crProd k)).rw) data)).complete a) := by
  obtain ⟨s1, hs1⟩ : ∃ s1, s1 = s.setReg (.curlew (.crProd k)) (mergeBits (s.reg (.curlew (.crProd k)))
    (laneMask (lanesOf a) &&& (KReg.spec (.crProd k)).rw) data) := ⟨_, rfl⟩
  rw [← hs1] at hd hb ⊢
  have hplain : s.plainWrite (.curlew (.crProd k)) (lanesOf a) data = s1 := by
    have hkeep : (~~~0#32 : Word32) = BitVec.allOnes 32 := rfl
    rw [hs1]
    simp only [State.plainWrite, Reg.spec, KReg.spec, RegSpec.apply, BitVec.ofNat_eq_ofNat, BitVec.and_zero, BitVec.zero_and, hkeep,
      BitVec.and_allOnes, BitVec.or_zero]
  have hskip (j : Nat) : State.skipBad j s1 k = s1 := by
    cases j with
    | zero => rfl
    | succ j =>
      rw [State.skipBad, hd]
      dsimp only
      rw [hb, if_neg Bool.false_ne_true, ite_self]
  have hlive : s.liveWrite (whoOf a) (s.accWorld a (.curlew (.crProd k))) (.curlew (.crProd k)) (lanesOf a) data = some s1 := by
    simp only [State.liveWrite, State.kWrite, hplain, State.skipAll, hskip]
  rw [exec, execCrProdWrite, withUpset_none, writeReg_live hr rfl rfl (by simp) hlive]

/-- The first bytes of the entry that GENKEY writes: its flags and its epoch. -/
theorem freshEntry_bytes (s : State) (n : SiteId) (enc : Bool) :
    (freshEntry s n enc).getD 0 0 = BitVec.ofNat 8 (1 + 2 * bit enc)
      ∧ leNat [(freshEntry s n enc).getD 4 0, (freshEntry s n enc).getD 5 0] = nextEpoch (s.vaultEntry s.vaultBase n) := by
  obtain ⟨rest, hbegins, -⟩ := wrapEntry_begins (deriveKw s.curlew.bbk n s.uidBytes) n { key := BitVec.ofNat 256 (beNat (drawn s n).1), encSite := enc, epoch := BitVec.ofNat 16 (nextEpoch (s.vaultEntry s.vaultBase n)) } (drawn s n).2.1
  have hlt := nextEpoch_lt (s.vaultEntry s.vaultBase n)
  rw [freshEntry, hbegins]
  refine ⟨by cases enc <;> rfl, ?_⟩
  simp only [List.getD_cons_succ, List.getD_cons_zero, BitVec.toNat_ofNat]
  rw [Nat.mod_eq_of_lt (by omega)]
  exact leNat_bytes2 hlt

theorem memRead_two {a : Nat} (h0 : t.poisoned a = false) (h1 : t.poisoned (a + 1) = false) :
    t.memRead a 2 = [t.memByte a, t.memByte (a + 1)] := by
  have hrange : List.range 2 = [0, 1] := rfl
  rw [State.memRead, hrange, List.map_cons, List.map_cons, List.map_nil, Nat.add_zero, h0, h1, if_neg Bool.false_ne_true,
    if_neg Bool.false_ne_true]

section

variable (hd : s.nextDesc k = some d) (hb : s.badDesc k d = false) (hsound : DescSound s k) (hupset : s.upset = [])
  (hone : s.crProd k = (s.crCons k + 1) % 65536) (hf : d.first = n.toNat) (hl : d.last = n.toNat)

include hd hb hsound hupset hone hf hl

theorem genkey_answers (hop : d.op = 1) (hv : s.vaultV = true) (hi : s.drbg.instantiated = true) (ha : (s.site n).appends = [])
    (hfree : ∀ i, i < 128 → s.inKeyArray (s.vaultBase + 128 * n.toNat + i) = false) :
    ∃ u t, exec (.genkey k) s = .next t ∧ KeyMade s n (decide (d.flags = 1)) u ∧ Ended u k 1 n.toNat t := by
  have hfree0 := hfree 0 (by decide)
  rw [Nat.add_zero] at hfree0
  have hr : s.vaultReach s.vaultBase n = true := by rw [State.vaultReach, hfree0]; rfl
  have hmade := keyMade_genKey hupset hfree (decide (d.flags = 1)) ha
  obtain ⟨t, ht, he⟩ := ringCommand_ends hd hb hsound hupset hone hop (genKey_one hv hi hr hf hl) hmade.spares
  exact ⟨_, t, congrArg Host.Outcome.next ht, hmade, he⟩

theorem kwrap_answers (hop : d.op = 2) (hv : s.ue.stageValid = true) (hst : s.stageV = true) (hempty : s.vaultEmpty n = true)
    (hfree : ∀ i, i < 128 → s.inKeyArray (s.stageBase + 128 * n.toNat + i) = false) :
    ∃ u t, exec (.kwrapStaged k) s = .next t ∧ KeyStaged s n u ∧ Ended u k 1 n.toNat t := by
  have hstaged := keyStaged_stagedEmpty hupset hfree
  obtain ⟨t, ht, he⟩ := ringCommand_ends hd hb hsound hupset hone hop (kwrap_one hv hst hempty hf hl) hstaged.spares
  exact ⟨_, t, congrArg Host.Outcome.next ht, hstaged, he⟩

end

/-- Settles O48: each command is the state it leaves (`KeyMade`, `KeyStaged`, or reads alone) with its descriptor ended. -/
theorem commandRings : Obligations.CommandRings := by
  unfold Obligations.CommandRings
  intro s a k n data d at0 done
  constructor
  · intro hr s1 hd hb
    exact crProdWrite_good hr hd hb
  intro hd hb hkeys hclean hupset hone hf hl ha free
  have hsound : DescSound s k := fun i hi => ⟨anyPoison_poisoned hclean hi, hkeys i hi⟩
  refine ⟨?_, ?_, ?_⟩
  · intro hop hv hi e0 hfree hapart
    obtain ⟨u, t, ht, hmade, he⟩ := genkey_answers hd hb hsound hupset hone hf hl hop hv hi ha hfree
    obtain ⟨hflags, hepoch⟩ := freshEntry_bytes s n (decide (d.flags = 1))
    have hkept (i : Nat) (hi : i < 6) : t.memByte (e0 + i) = (freshEntry s n (decide (d.flags = 1))).getD i 0
        ∧ t.poisoned (e0 + i) = false :=
      ⟨(he.kept hmade.spares (by omega) (hfree i (by omega))).trans (hmade.entry i hi).1, he.poisoned _ (hmade.entry i hi).2⟩
    have h0 := (hkept 0 (by decide)).1
    rw [Nat.add_zero] at h0
    refine ⟨t, ht, he.answer hmade.spares, h0.trans hflags, ?_, ?_, ?_, fun b hout hdesc hk =>
      he.frame hmade.spares (fun hin : entryRange _ b => by unfold entryRange at hin; omega) hdesc hk⟩
    · obtain ⟨h4, hp4⟩ := hkept 4 (by decide)
      obtain ⟨h5, hp5⟩ := hkept 5 (by decide)
      rw [memRead_two hp4 (by rw [Nat.add_assoc]; exact hp5), h4, Nat.add_assoc, h5, hepoch, nextEpoch_vaultEntry]
    · rw [State.site, he.sites]
      exact hmade.keyState
    · rw [he.ue]
      exact hmade.wrapped
  · intro hop hv hst hempty e0 hfree hapart
    obtain ⟨u, t, ht, hstaged, he⟩ := kwrap_answers hd hb hsound hupset hone hf hl hop hv hst hempty hfree
    refine ⟨t, ht, he.answer hstaged.spares, fun i hi => (he.kept hstaged.spares (by omega) (hfree i hi)).trans (hstaged.entry i hi),
      ?_, ?_, fun b hout hdesc hk =>
      he.frame hstaged.spares (fun hin : entryRange _ b => by unfold entryRange at hin; omega) hdesc hk⟩
    · rw [State.site, he.sites]
      exact hstaged.keyState
    · rw [he.ue]
      exact hstaged.wrapped
  · intro j hop hlive h1 htail hhead htide hmeets bad
    obtain ⟨r, hr⟩ := verify_reached hf hlive h1 htail hhead htide hmeets
    have hreads : Spares (fun _ => False) s ((s.useSlot j).readSlots n (d.seqFrom - 1) r) := spares_readSlots hupset j _ r
    cases hbad : s.verifyFrom n (s.keySlot j) ((s.slotBytes n (d.seqFrom - 1)).drop 0xFE0)
        ((List.range (d.seqTo + 1 - d.seqFrom)).map (fun i => d.seqFrom + i)) with
    | none =>
      rw [hbad] at hr
      obtain ⟨t, ht, he⟩ := ringCommand_ends hd hb hsound hupset hone hop hr hreads
      refine ⟨t, congrArg Host.Outcome.next ht, ?_, fun b hdesc hk => he.frame hreads id hdesc hk⟩
      simp only [bad, hbad]
      exact he.answer hreads
    | some q =>
      rw [hbad] at hr
      obtain ⟨t, ht, he⟩ := ringCommand_ends hd hb hsound hupset hone hop hr hreads
      refine ⟨t, congrArg Host.Outcome.next ht, ?_, fun b hdesc hk => he.frame hreads id hdesc hk⟩
      simp only [bad, hbad]
      exact he.answer hreads

end Sys2Proof.Proofs.CommandRings
end

section
/-! PROOFS. Tide writes: staged, committed, discarded, converted, refused (O41). -/

namespace Sys2Proof.Proofs.TideWrites

open Sys2Proof Sys2Proof.Machine Sys2Proof.Laws Sys2Proof.Proofs.Tides

variable {s t : State} {a : Access} {addr : PhysAddr} {data : Word32} {r : Reg} {n : SiteId}

/-! ## Writes of a tide-class register (R498, R500) -/

theorem inTide_idle (h : s.tide.busy = false) : s.inTide r = false := by
  rw [State.inTide, h, Bool.and_false, Bool.false_and]

/-- A register of the tide class is half of no pair. -/
theorem pairOf_tide (h : r.isTide = true) : r.pairOf = none := by
  unfold Reg.isTide at h
  split at h
  iterate 7 · rfl
  · cases h

/-- A write that meets the tide fields of a register in no tide leaves what the tide's rule leaves. -/
theorem regWrite_tide {q : Requester} {w : World} {be : BitVec 4} (hb : s.tide.busy = false) (ht : r.isTide = true) (h3 : r ≠ .d .l3Ctrl)
    (hl : r.tideLanes be = true) (hbe : be ≠ 0) (hw : s.tideWrite r be data = some t) : s.regWrite q w r be data = (true, t) := by
  rw [State.regWrite, pairOf_tide ht]
  dsimp only
  rw [hl, if_pos rfl, if_neg hbe, hw, inTide_idle hb, if_neg Bool.false_ne_true, Option.bind_some, if_pos ⟨ht, h3⟩]

theorem accessWrite_tide (hn : namesReg a addr r) (hr : s.reaches a r data = true) (hb : s.tide.busy = false) (ht : r.isTide = true)
    (h3 : r ≠ .d .l3Ctrl) (hl : r.tideLanes (lanesOf a) = true) (hbe : lanesOf a ≠ 0)
    (hw : s.tideWrite r (lanesOf a) data = some t) : s.accessWrite a addr data = t.complete a := by
  refine accessWrite_reg s t a addr r data hn hr (regWrite_tide hb ht h3 hl hbe hw) ?_
  rintro rfl
  cases ht

theorem namesTide_of (hn : namesReg a addr r) (ht : r.isTide = true) : namesTide a addr = true := by
  rw [namesTide, placeReg_names a addr r hn]
  exact ht

theorem tideWrite_staging {be : BitVec 4} (hb : s.tide.busy = false) (h : s.staging = true) :
    s.tideWrite r be data = some (s.stage r be data) := by
  rw [State.tideWrite, hb, h]
  rfl

theorem tideWrite_direct {be : BitVec 4} (hb : s.tide.busy = false) (h : s.staging = false) :
    s.tideWrite r be data = some (s.stage r be data).commitTide := by
  rw [State.tideWrite, hb, h]
  rfl

/-- A write of CFG_COMMIT that discards and does not commit (R501). -/
theorem exec_discard (hr : s.reaches a (.g .cfgCommit) data = true) (h0 : writes1 a data 0 = false) (h1 : writes1 a data 1 = true) :
    exec (.discard a data) s = .next (s.discardStaged.complete a) := by
  have hw : s.liveWrite (whoOf a) (s.accWorld a (.g .cfgCommit)) (.g .cfgCommit) (lanesOf a) data = some s.discardStaged := by
    change s.cfgWrite (lanesOf a) data = _
    unfold writes1 at h0 h1
    simp only [State.cfgWrite, h0, h1, Bool.false_and, Bool.false_eq_true, if_false, if_true]
  rw [exec, execDiscard, if_pos h1, writeReg_live hr rfl rfl (by simp) hw]

/-! ## Conversion (R508) -/

/-- A site whose tenant is not loaded converts. -/
theorem convert_unloaded (hb : s.tide.busy = true) (hs : s.tide.stopping = false) (he : (entriesOf s.tide.entries n).isEmpty = false)
    (hl : (s.site n).tstate ≠ .loaded) (hop : s.opInFlight n = false) :
    s.convert n false = (let rest := s.tide.entries.filter (fun e => decide ((regAt e.1).bind Reg.tideSite ≠ some n))
      let s1 : State := { s.applyEntries (entriesOf s.tide.entries n) with tide := { s.tide with entries := rest } }
      let v := s1.reg (.g .cfgProgress)
      let s2 := s1.setReg (.g .cfgProgress) (setBits v 10 0 (bitsOf v 10 0 + 1))
      (if rest.isEmpty then s2.tideDone else s2).tryBegin n) := by
  rw [State.convert, hb, hs, he, hop, decide_eq_false hl]
  rfl

/-- A tenant that stays loaded is asked to save (R508). -/
theorem exec_tideForce (hb : s.tide.busy = true) (hs : s.tide.stopping = false) (he : (entriesOf s.tide.entries n).isEmpty = false)
    (hl : (s.site n).tstate = .loaded) (hsave : (s.site n).save = none) :
    exec (.tideForce n) s = .next (s.upSite n (fun v => { v with save := some .tide })) := by
  rw [exec, execTideForce, hb, hs, he, if_pos (by decide), State.requestSave, if_pos hl]
  have hover : SaveReason.over (s.site n).save .tide = .tide := by rw [hsave]; rfl
  exact congrArg (fun r => Host.Outcome.next (s.setSite n { s.site n with save := some r })) hover

/-! ## Refusals (R503) -/

/-- A host write that reaches a register and is refused ends with BUSY. -/
theorem hostWrite_refused (hq : a.req = .host) (hn : namesReg a addr r) (hr : s.reaches a r data = true) (hm : r ≠ .g .mbxCtrl)
    (hw : s.regWrite .host .nonSecure r a.be data = (false, s)) :
    s.accessWrite a addr data = s.busErr (addr.toNat % 2 ^ 24) 4 true a.be 0 false := by
  simp only [namesReg, regAddrFor, hq] at hn
  obtain ⟨hplace, hlt, hal⟩ := hostPlace_addr r _ hn
  have hmod : addr.toNat % 2 ^ 24 = addr.toNat := Nat.mod_eq_of_lt hlt
  have hdiv : addr.toNat / 4 * 4 = addr.toNat := by omega
  simp only [State.reaches, hq, hn, Bool.and_eq_true, decide_eq_true_eq, Bool.not_eq_true'] at hr
  obtain ⟨⟨⟨hans, hhap⟩, hlanes⟩, hshut⟩ := hr
  have hreg : s.hostReg addr.toNat r a.be data = s.busErr addr.toNat 4 true a.be 0 false := by
    rw [State.hostReg, if_neg (fun h => hm h.1), hshut, if_neg Bool.false_ne_true, hw]
    rfl
  rw [hmod] at hhap ⊢
  simp only [State.accessWrite, hq, hmod, State.hostWrite, hans, hhap, hlanes, hdiv, hplace, hreg, Bool.not_true, Bool.false_eq_true,
    if_false, ne_eq, not_true_eq_false]

theorem regWrite_inTide {q : Requester} {w : World} {be : BitVec 4} (hb : s.tide.busy = true) (ht : r.isTide = true)
    (he : ∃ e ∈ s.tide.entries, e.1 = r.addr) : s.regWrite q w r be data = (false, s) := by
  have hin : s.inTide r = true := by
    obtain ⟨e, hmem, haddr⟩ := he
    rw [State.inTide, ht, hb]
    exact List.any_eq_true.mpr ⟨e, hmem, decide_eq_true haddr⟩
  rw [State.regWrite, pairOf_tide ht]
  exact if_pos hin

theorem regWrite_commitBusy {q : Requester} {w : World} {be : BitVec 4} (hb : s.tide.busy = true) (h0 : bitAt (seen be data) 0 = true) :
    s.regWrite q w (.g .cfgCommit) be data = (false, s) := by
  have hw : s.liveWrite q w (.g .cfgCommit) be data = none := by
    change s.cfgWrite be data = none
    rw [State.cfgWrite, h0, hb]
    rfl
  have hcase : (some s).bind (fun s => s.liveWrite q w (.g .cfgCommit) be data) = none := hw
  change (match (some s).bind (fun s => s.liveWrite q w (.g .cfgCommit) be data) with
    | none => (false, s)
    | some t => (true, t)) = _
  rw [hcase]

/-- Settles O41. -/
theorem tidesAreStagedAndConverted : Obligations.TidesAreStagedAndConverted := by
  unfold Obligations.TidesAreStagedAndConverted
  refine ⟨?_, ?_, ?_⟩
  · intro s a addr data r hb lanes old set staged
    refine ⟨fun hn ht h3 hr hl hbe => ⟨fun hst => ?_, fun hst => ?_⟩, fun hr h0 h1 => exec_commit hr hb h0 h1,
      fun hr h0 h1 => exec_discard hr h0 h1⟩
    · have hstaging : s.staging = true := hst
      rw [exec, execTideStageWrite, namesTide_of hn ht, hstaging, Bool.and_true, if_pos rfl,
        accessWrite_tide hn hr hb ht h3 hl hbe (tideWrite_staging hb hstaging)]
      rfl
    · have hstaging : s.staging = false := hst
      rw [exec, execTideImmediateWrite, namesTide_of hn ht, hstaging, Bool.not_false, Bool.and_true, if_pos rfl,
        accessWrite_tide hn hr hb ht h3 hl hbe (tideWrite_direct hb hstaging)]
      rfl
  · intro s n hb hs he rest s1 v s2
    refine ⟨fun hl hop => ?_, fun hl hsave => exec_tideForce hb hs he hl hsave⟩
    rw [exec, execTenantConversion, withUpset_none, convert_unloaded hb hs he hl hop]
  · intro s a addr data r hq hb hr hn busy
    have hbe : lanesOf a = a.be := by rw [lanesOf, hq]
    refine ⟨fun ht he => ?_, ?_⟩
    · exact congrArg Host.Outcome.next
        (hostWrite_refused hq hn hr (fun h => by rw [h] at ht; cases ht) (regWrite_inTide hb ht he))
    · rintro rfl h0
      rw [writes1, hbe] at h0
      exact congrArg Host.Outcome.next (hostWrite_refused hq hn hr (by simp) (regWrite_commitBusy hb h0))

end Sys2Proof.Proofs.TideWrites
end

section
/-! SUPPORT. Work on flash (spec/19), and the port through a chip reset (spec/18 R434, spec/22 R528). -/

namespace Sys2Proof.Laws

open Sys2Proof Sys2Proof.Machine

variable {s t u : State} {n : SiteId}

/-! ## Work on flash -/

/-- The second state differs from the first in flash, in the randomness drawn, and in memory and the registers at most. -/
def FlashWork (s t : State) : Prop := { t with flash := s.flash, free := s.free, mem := s.mem, regs := s.regs } = s

namespace FlashWork

theorem refl (s : State) : FlashWork s s := rfl

theorem trans (h : FlashWork s t) (k : FlashWork t u) : FlashWork s u := by
  have hfields : { ({ u with flash := t.flash, free := t.free, mem := t.mem, regs := t.regs } : State) with
      flash := s.flash, free := s.free, mem := s.mem, regs := s.regs } = s := by rw [k]; exact h
  exact hfields

/-- Whatever depends on none of these stays. -/
theorem keeps {β : Type} (h : FlashWork s t) (f : State → β)
    (hf : ∀ v a b c d, f { v with flash := a, free := b, mem := c, regs := d } = f v) : f t = f s := by
  rw [← hf t s.flash s.free s.mem s.regs, h]

theorem ite {c : Prop} [Decidable c] (h : FlashWork s t) (k : FlashWork s u) : FlashWork s (if c then t else u) := by
  split
  · exact h
  · exact k

theorem iteSnd {α : Type} {c : Prop} [Decidable c] {p q : α × State} (h : FlashWork s p.2) (k : FlashWork s q.2) :
    FlashWork s (if c then p else q).2 := by
  split
  · exact h
  · exact k

theorem foldl {β : Type} (f : State → β → State) (l : List β) (s : State) (hf : ∀ s b, FlashWork s (f s b)) :
    FlashWork s (l.foldl f s) :=
  foldl_keeps (FlashWork s) f l s (refl s) fun t b h => h.trans (hf t b)

theorem marks (h : MarksOnly s t) : FlashWork s t := by
  have hflash : t.flash = s.flash := h.keeps State.flash fun _ _ _ => rfl
  have hfree : t.free = s.free := h.keeps State.free fun _ _ _ => rfl
  have hfields : { ({ t with regs := s.regs, mem := s.mem } : State) with flash := s.flash, free := s.free } = s := by rw [h.fields]
  exact hfields

theorem fresh (s : State) : FlashWork s s.fresh.2 := rfl

theorem program (s : State) (o : Nat) (bs : List Byte) : FlashWork s (s.program o bs) := rfl

theorem programTorn (s : State) (o : Nat) (bs : List Byte) : FlashWork s (s.programTorn o bs) := rfl

theorem eraseFlash (s : State) (o n : Nat) : FlashWork s (s.eraseFlash o n) := rfl

theorem eraseTorn (s : State) (o n : Nat) : FlashWork s (s.eraseTorn o n) := rfl

theorem takeSlot (s : State) (c : Bool) : FlashWork s (s.takeSlot c).2 := by
  unfold State.takeSlot
  split
  · exact refl s
  · exact eraseFlash s _ _

theorem slotTorn (s : State) (c : Bool) (i k : Nat) (new : List Byte) : FlashWork s (s.slotTorn c i k new) :=
  (foldl _ _ s fun s _ => program s _ _).trans (foldl _ _ _ fun s _ => programTorn s _ _)

theorem writeRecordTorn (s : State) (r : List Byte) : FlashWork s (s.writeRecordTorn r) :=
  ite ((fresh s).trans (eraseTorn _ _ _)) (((fresh s).trans (takeSlot _ _)).trans (slotTorn _ _ _ _ _))

theorem programPages (n : Nat) (bad : Option Nat) (o a : Nat) (s : State) : FlashWork s (s.programPages n bad o a).2 := by
  induction n generalizing bad o a s with
  | zero => exact refl s
  | succ n ih =>
    have ht : FlashWork s (s.touch a 256 false) := marks (.touch s a 256 false)
    have hp := ite (c := bad = some 0) (programTorn (s.touch a 256 false) o ((s.touch a 256 false).memRead a 256))
      (program (s.touch a 256 false) o ((s.touch a 256 false).memRead a 256))
    exact iteSnd ht (iteSnd ht (iteSnd (ht.trans hp) ((ht.trans hp).trans (ih _ _ _ _))))

theorem programPagesTorn (n k o a : Nat) (s : State) : FlashWork s (s.programPagesTorn n k o a) :=
  ite (((programPages _ _ _ _ s).trans (marks (.touch _ _ _ _))).trans (programTorn _ _ _)) (programPages _ _ _ _ s)

theorem eraseBankTorn (s : State) (b : Bool) : FlashWork s (s.eraseBankTorn b) :=
  ite ((fresh s).trans (eraseFlash _ _ _)) (((fresh s).trans (eraseFlash _ _ _)).trans (eraseTorn _ _ _))

theorem calSaveTorn (s : State) : FlashWork s s.calSaveTorn :=
  ite ((fresh s).trans (eraseTorn _ _ _)) ((((fresh s).trans (eraseFlash _ _ _)).trans
    (foldl _ _ _ fun s _ => program s _ _)).trans (foldl _ _ _ fun s _ => programTorn s _ _))

/-- What a chip reset cuts short of the update engine's work touches nothing else (R476). -/
theorem tearUe (s : State) : FlashWork s s.tearUe := by
  unfold State.tearUe
  dsimp only
  split
  · exact refl s
  · split
    · exact writeRecordTorn s _
    · exact eraseBankTorn s _
    · exact ite ((fresh s).trans (programPagesTorn _ _ _ _ _)) (refl s)
    · exact writeRecordTorn s _
    · split
      · exact refl s
      · exact ite (refl s) (writeRecordTorn s _)
    · exact ite (writeRecordTorn s _) (refl s)
    · exact writeRecordTorn s _
    · exact writeRecordTorn s _
    · exact calSaveTorn s

end FlashWork

/-! ## The port through a chip reset -/

theorem port_ite {c : Prop} [Decidable c] {p : Port} (h : t.port = p) (k : u.port = p) : (if c then t else u).port = p := by
  split
  · exact h
  · exact k

theorem port_agentWrite (s : State) (a : Nat) (bs : List Byte) : (s.agentWrite a bs).port = s.port := by
  have hmarks : MarksOnly (s.memWrite a bs) (s.agentWrite a bs) := .foldl _ _ _
  have hwrite : (s.memWrite a bs).port = s.port := by
    unfold State.memWrite
    dsimp only
    split <;> rfl
  exact (hmarks.keeps State.port fun _ _ _ => rfl).trans hwrite

theorem port_writeVault (s : State) (base : Nat) (n : SiteId) (e : List Byte) : (s.writeVault base n e).port = s.port := by
  unfold State.writeVault
  split
  · exact port_agentWrite _ _ _
  · rfl

theorem port_readVault (s : State) (n : SiteId) : (s.readVault n).port = s.port :=
  (ReadsOnly.readVault s n).keeps State.port fun _ _ _ _ _ => rfl

theorem port_genKeys (enc : Bool) (bbk : BitVec 256) (l : List SiteId) (s : State) : (s.genKeys enc bbk l).2.port = s.port := by
  induction l generalizing s with
  | nil => rfl
  | cons n l ih =>
    unfold State.genKeys
    split
    · rfl
    · split
      · exact ih s
      · dsimp only
        refine (ih _).trans (((SparesOthers.retry _).port).trans ?_)
        have hdraw (v : State) (j : Nat) : (v.drawBytes j).2.port = v.port := rfl
        have hkeys (v : State) (c : Prop) [Decidable c] : ((if c then v.setKeyState n 1 else v).noteWrapped [n] false).port = v.port := by
          split <;> rfl
        exact (hkeys _ _).trans ((port_writeVault _ _ _ _).trans ((hdraw _ _).trans ((hdraw _ _).trans (port_readVault s n))))

theorem port_dropKey (s : State) (n : SiteId) : (s.dropKey n).port = s.port := (SparesOthers.dropKey (n := n) s n).port

theorem port_kwrapAll (bbk : BitVec 256) (l : List SiteId) (s : State) : (s.kwrapAll bbk l).2.port = s.port := by
  induction l generalizing s with
  | nil => rfl
  | cons n l ih =>
    unfold State.kwrapAll
    split
    · exact (ih _).trans ((port_writeVault _ _ _ _).trans ((port_dropKey _ _).trans (port_readVault s n)))
    · split
      · exact (port_dropKey _ _).trans (port_readVault s n)
      · split
        · rfl
        · exact (ih _).trans ((port_writeVault _ _ _ _).trans (port_readVault s n))

theorem port_vaultWork (s : State) (d : Desc) (l : List SiteId) : (s.vaultWork d l).2.port = s.port := by
  unfold State.vaultWork
  split
  · exact port_genKeys _ _ _ _
  · exact port_kwrapAll _ _ _

theorem port_tearRings (s : State) : s.tearRings.port = s.port := by
  unfold State.tearRings
  split
  · rfl
  · dsimp only
    split
    · exact port_vaultWork _ _ _
    · exact port_ite ((port_agentWrite _ _ _).trans (port_vaultWork _ _ _)) (port_vaultWork _ _ _)

theorem ir_abandonPulses (s : State) : s.abandonPulses.port.ir = s.port.ir ∧ s.abandonPulses.port.irCap = s.port.irCap := by
  have hadvance (v : State) (a : Nat) : (v.tearAdvance a).port = v.port := port_ite (c := bitAt v.fresh.1 0 = true) rfl rfl
  have hport (v : State) : (if v.fuseCtrl.busy then
      (if v.fuseCtrl.op = 2 then v.tearAdvance v.fuseCtrl.target.toNat else v.tearFuse v.fuseCtrl.addr.toNat) else v).port = v.port :=
    port_ite (port_ite (hadvance _ _) rfl) rfl
  have hall := (hport (if s.port.fuse.busy then s.tearFuse s.port.fuse.addr.toNat else s)).trans (port_ite (p := s.port) rfl rfl)
  have hir := congrArg Port.ir hall
  have hcap := congrArg Port.irCap hall
  exact ⟨hir, hcap⟩

/-- A chip reset other than POR leaves the port's instruction (R528). -/
theorem ir_chipReset {c : Cause} (hc : c ≠ .por) (s : State) :
    (s.chipReset c).port.ir = s.port.ir ∧ (s.chipReset c).port.irCap = s.port.irCap := by
  have hport : (s.chipReset c).port = s.tearUe.tearRings.abandonPulses.port.afterReset c := rfl
  have hstart : s.tearUe.tearRings.port = s.port := (port_tearRings _).trans ((FlashWork.tearUe s).keeps State.port fun _ _ _ _ _ => rfl)
  have hafter (p : Port) : (p.afterReset c).ir = p.ir ∧ (p.afterReset c).irCap = p.irCap := by
    unfold Port.afterReset
    rw [if_neg hc]
    split <;> exact ⟨rfl, rfl⟩
  rw [hport, (hafter _).1, (hafter _).2, (ir_abandonPulses _).1, (ir_abandonPulses _).2, hstart]
  exact ⟨rfl, rfl⟩

end Sys2Proof.Laws
end

section
/-! PROOFS. The instructions of the maintenance port (O57). -/

namespace Sys2Proof.Proofs.MaintenancePort

open Sys2Proof Sys2Proof.Machine Sys2Proof.Laws

variable {s t : State} {i : PortIns}

/-! ## A scan with no pulse under way -/

/-- The state in which an instruction has become current. -/
def scanned (s : State) (i : PortIns) : State := s.setPort (fun p => { p with ir := i, irCap := s.irCapture })

theorem loadIr_idle (hb : s.port.fuse.busy = false) (hi : i.holds = false) : s.loadIr i = scanned s i := by
  have hcut : s.cutPulse = s := by rw [State.cutPulse, hb, if_neg Bool.false_ne_true]
  rw [loadIr_of_not_holds hi, hcut]
  rfl

/-- An instruction that holds a chip reset: it starts one where none is held. -/
theorem loadIr_holds (hb : s.port.fuse.busy = false) (hi : i.holds = true) :
    s.loadIr i = if s.port.holdsReset then scanned s i else (scanned s i).chipReset .tap := by
  have hcut : s.cutPulse = s := by rw [State.cutPulse, hb, if_neg Bool.false_ne_true]
  rw [State.loadIr, hcut, hi, Bool.true_and]
  cases s.port.holdsReset <;> rfl

/-- What such an instruction leaves, whatever is then captured. -/
theorem holds_spec (hb : s.port.fuse.busy = false) (hi : i.holds = true) :
    (s.loadIr i).port.ir = i ∧ (s.loadIr i).port.irCap = s.irCapture
    ∧ (s.port.holdsReset = false → (s.loadIr i).inReset = true
        ∧ (s.loadIr i).reg (.g .resetCause) = s.reg (.g .resetCause) ||| 0x80)
    ∧ (s.port.holdsReset = true → (s.loadIr i).regs = s.regs ∧ (s.loadIr i).mem = s.mem ∧ (s.loadIr i).inReset = s.inReset
        ∧ (s.loadIr i).ctxs = s.ctxs) := by
  rw [loadIr_holds hb hi]
  cases hh : s.port.holdsReset with
  | true => exact ⟨rfl, rfl, fun h => absurd h (by decide), fun _ => ⟨rfl, rfl, rfl, rfl⟩⟩
  | false =>
    obtain ⟨hir, hcap⟩ := ir_chipReset (c := .tap) (by decide) (scanned s i)
    exact ⟨hir, hcap, fun _ => ⟨rfl, reg_chipReset_cause (by decide)⟩, fun h => absurd h (by decide)⟩

/-- A code that names no instruction acts as BYPASS (R520). -/
theorem ofCode_bypass {code : Byte} (h : code.toNat ∉ [0, 1, 2, 3, 4, 0x10, 0x11, 0x20, 0x21, 0x22, 0x30, 0x31, 0x32]) :
    PortIns.ofCode code = .bypass := by
  unfold PortIns.ofCode
  split
  iterate 13 next heq => exact absurd (by rw [heq]; decide) h
  rfl

/-! ## TEST_LOGIC_RESET (R518) -/

theorem ctx_foldl_clear (l : List CtxId) (hl : l.Nodup) (s : State) (x : CtxId) :
    (l.foldl (fun s x => s.upCtx x (fun c => { c with haltReq := false })) s).ctx x
      = if x ∈ l then { s.ctx x with haltReq := false } else s.ctx x := by
  induction l generalizing s with
  | nil => rfl
  | cons y l ih =>
    obtain ⟨hy, hl⟩ := List.nodup_cons.mp hl
    rw [List.foldl_cons, ih hl]
    by_cases hxy : x = y
    · subst hxy
      rw [if_neg hy, if_pos (List.mem_cons_self), ctx_upCtx_same]
    · rw [ctx_upCtx_other _ _ _ _ hxy]
      by_cases hx : x ∈ l
      · rw [if_pos hx, if_pos (List.mem_cons_of_mem _ hx)]
      · rw [if_neg hx, if_neg (by simp [hxy, hx])]

/-- What the folding over the contexts leaves. -/
theorem foldl_clear_keeps {β : Type} (f : State → β) (hf : ∀ (v : State) (m : SMap Ctx), f { v with ctxs := m } = f v) (l : List CtxId)
    (s : State) : f (l.foldl (fun s x => s.upCtx x (fun c => { c with haltReq := false })) s) = f s := by
  induction l generalizing s with
  | nil => rfl
  | cons y l ih => exact (ih _).trans (hf s _)

/-- What TEST_LOGIC_RESET does beside the contexts: an access that is pending is abandoned and a pulse cut short. -/
def tlrPort (s : State) : State := s.abandonDae.cutPulse.setPort (fun p => { p with ir := .idcode })

theorem onlyPort_tlrPort (s : State) : OnlyPort s (tlrPort s) := by
  have hdae : OnlyPort s s.abandonDae ∧ s.abandonDae.port.fuse = s.port.fuse := by
    unfold State.abandonDae
    split <;> exact ⟨⟨rfl, rfl, rfl, rfl, rfl, rfl, rfl, fun _ => rfl⟩, rfl⟩
  obtain ⟨⟨hr, hm, hin, hx, hs, hc, he, hf⟩, hfuse⟩ := hdae
  obtain ⟨hr', hm', hin', hx', hs', hc', he', hf'⟩ := onlyPort_cutPulse s.abandonDae
  exact ⟨hr'.trans hr, hm'.trans hm, hin'.trans hin, hx'.trans hx, hs'.trans hs, hc'.trans hc, he'.trans he,
    fun hb => (hf' (by rw [hfuse]; exact hb)).trans (hf hb)⟩

theorem port_tlrPort (s : State) : (tlrPort s).port.ir = .idcode ∧ (tlrPort s).port.dae.pending = false
    ∧ (tlrPort s).port.fuse.busy = false := by
  have hdae : s.abandonDae.port.dae.pending = false := by
    unfold State.abandonDae
    split
    · rfl
    · next h => simpa using h
  have hcut (v : State) : v.cutPulse.port.dae = v.port.dae ∧ v.cutPulse.port.fuse.busy = false := by
    unfold State.cutPulse
    split
    · exact ⟨rfl, rfl⟩
    · next h => exact ⟨rfl, by simpa using h⟩
  refine ⟨rfl, ?_, (hcut s.abandonDae).2⟩
  rw [← hdae, ← (hcut s.abandonDae).1]
  rfl

/-- The state that TEST_LOGIC_RESET leaves (R518). -/
def tlrLeaves (s : State) : State := allCtxs.foldl (fun s x => s.upCtx x (fun c => { c with haltReq := false })) (tlrPort s)

theorem tlr_port (s : State) : (tlrLeaves s).port = (tlrPort s).port := foldl_clear_keeps State.port (fun _ _ => rfl) _ _

theorem tlr_fuses (s : State) : (tlrLeaves s).fuses = (tlrPort s).fuses := foldl_clear_keeps State.fuses (fun _ _ => rfl) _ _

theorem tlr_quiet (s : State) : (tlrLeaves s).regs = s.regs ∧ (tlrLeaves s).mem = s.mem ∧ (tlrLeaves s).inReset = s.inReset :=
  ⟨(foldl_clear_keeps State.regs (fun _ _ => rfl) _ _).trans (onlyPort_tlrPort s).regs,
    (foldl_clear_keeps State.mem (fun _ _ => rfl) _ _).trans (onlyPort_tlrPort s).mem,
    (foldl_clear_keeps State.inReset (fun _ _ => rfl) _ _).trans (onlyPort_tlrPort s).inReset⟩

theorem tlr_ctx (s : State) (x : CtxId) : (tlrLeaves s).ctx x = { s.ctx x with haltReq := false } := by
  have hfold := ctx_foldl_clear allCtxs nodup_allCtxs (tlrPort s) x
  rw [if_pos (mem_allCtxs x), ctx_of_ctxs (onlyPort_tlrPort s).ctxs] at hfold
  exact hfold

/-! ## A pulse that a scan cuts short (R529) -/

/-- The port's pulse is over, and only its own bit may have changed. -/
structure PulseCut (s t : State) : Prop where
  busy : t.port.fuse.busy = false
  regs : t.regs = s.regs
  mem : t.mem = s.mem
  inReset : t.inReset = s.inReset
  fuses : ∀ n, n ≠ s.port.fuse.addr.toNat → smGet t.fuses false n = smGet s.fuses false n

theorem cutPulse_fuses (s : State) {n : Nat} (hn : n ≠ s.port.fuse.addr.toNat) :
    smGet s.cutPulse.fuses false n = smGet s.fuses false n := by
  unfold State.cutPulse
  split
  · exact smGet_set_other s.fuses false false s.port.fuse.addr.toNat n _ hn
  · rfl

theorem cutPulse_busy (s : State) : s.cutPulse.port.fuse.busy = false := by
  unfold State.cutPulse
  split
  · rfl
  · next h => simpa using h

theorem pulseCut_loadIr (hi : i.holds = false) : PulseCut s (s.loadIr i) := by
  have hport := onlyPort_loadIr (s := s) hi
  have hbusy : (s.loadIr i).port.fuse.busy = false := by
    rw [loadIr_of_not_holds hi]
    exact cutPulse_busy s
  have hfuses : (s.loadIr i).fuses = s.cutPulse.fuses := by
    rw [loadIr_of_not_holds hi]
    rfl
  exact ⟨hbusy, hport.regs, hport.mem, hport.inReset, fun n hn => by rw [hfuses]; exact cutPulse_fuses s hn⟩

/-- A change of the port that leaves its pulse alone. -/
theorem PulseCut.setPort (h : PulseCut s t) (f : Port → Port) (hf : ∀ p, (f p).fuse = p.fuse) : PulseCut s (t.setPort f) :=
  ⟨(congrArg PortFuse.busy (hf t.port)).trans h.busy, h.regs, h.mem, h.inReset, h.fuses⟩

theorem PulseCut.capture (h : PulseCut s t) (v : Nat) : PulseCut s (t.capture v) := h.setPort _ fun _ => rfl

theorem pulseCut_tlr (s : State) : PulseCut s (tlrLeaves s) := by
  obtain ⟨hr, hm, hin⟩ := tlr_quiet s
  refine ⟨by rw [tlr_port]; exact (port_tlrPort s).2.2, hr, hm, hin, fun n hn => ?_⟩
  have hdae : s.abandonDae.port.fuse = s.port.fuse ∧ s.abandonDae.fuses = s.fuses := by
    unfold State.abandonDae
    split <;> exact ⟨rfl, rfl⟩
  have hcut := cutPulse_fuses s.abandonDae (n := n) (by rw [hdae.1]; exact hn)
  rw [hdae.2] at hcut
  rw [tlr_fuses]
  exact hcut

/-! ## Fuses (R529, R530, R533) -/

theorem smGet_blow (s : State) (a n : Nat) : smGet (s.blow a).fuses false n = (smGet s.fuses false n || decide (n = a)) := by
  by_cases h : n = a
  · subst h
    rw [decide_eq_true rfl, Bool.or_true]
    exact smGet_set_same s.fuses false n true
  · rw [decide_eq_false h, Bool.or_false]
    exact smGet_set_other s.fuses false false a n true h

/-- SORT_GEN blows the bits that it draws as 1. -/
theorem sortBlow_fuses (j : Nat) (s : State) (k n : Nat) : smGet (s.sortBlow k j).fuses false n
    = (smGet s.fuses false n
      || (List.range j).any (fun i => decide (sortBit (k + i) = n) && bitAt (Config.freeWord (s.free + i)) 0)) := by
  induction j generalizing s k with
  | zero => simp [State.sortBlow]
  | succ j ih =>
    have hfree (c : Prop) [Decidable c] : (if c then s.fresh.2.blow (sortBit k) else s.fresh.2).free = s.free + 1 := by
      split <;> rfl
    have hfirst : smGet (if bitAt s.fresh.1 0 = true then s.fresh.2.blow (sortBit k) else s.fresh.2).fuses false n
        = (smGet s.fuses false n || (decide (sortBit k = n) && bitAt (Config.freeWord s.free) 0)) := by
      have hdrawn : s.fresh.1 = Config.freeWord s.free := rfl
      rw [hdrawn]
      cases hbit : bitAt (Config.freeWord s.free) 0 with
      | true =>
        rw [if_pos rfl, smGet_blow, Bool.and_true, decide_eq_decide.mpr eq_comm]
        rfl
      | false =>
        rw [if_neg Bool.false_ne_true, Bool.and_false, Bool.or_false]
        rfl
    have hshift (i : Nat) : k + 1 + i = k + (i + 1) ∧ s.free + 1 + i = s.free + (i + 1) := ⟨by omega, by omega⟩
    rw [State.sortBlow, ih, hfree, hfirst, List.range_succ_eq_map, List.any_cons, List.any_map, Bool.or_assoc]
    simp only [Function.comp_def, Nat.succ_eq_add_one, (hshift _).1, (hshift _).2, Nat.add_zero]

/-- And leaves the rest. -/
theorem sortBlow_keeps {β : Type} (f : State → β) (hf : ∀ (v : State) (a : Nat) (m : SMap Bool), f { v with free := a, fuses := m } = f v)
    (j : Nat) (s : State) (k : Nat) : f (s.sortBlow k j) = f s := by
  induction j generalizing s k with
  | zero => rfl
  | succ j ih =>
    refine (ih _ _).trans ?_
    split
    · exact hf s _ _
    · exact hf s _ _

/-- A request that is not refused, with the edges of all its bits (R530). -/
theorem sortRun_done {edges : Nat} (hr : s.sortRefused = false) (he : 320 * 256 ≤ edges) : s.sortRun edges
    = (let s1 := { s with drbg := s.drbg.request }.sortBlow 0 320
       { s1 with sortGen := s1.sortGen || true, port := { s1.port with sort := { done := true }, sortBits := 320 } }) := by
  have hn : min 320 (edges / 256) = 320 := by omega
  unfold State.sortRun
  rw [hr, if_neg Bool.false_ne_true]
  dsimp only
  rw [hn, if_neg (by omega)]
  rfl

/-- An advance that is permitted, with the edges of both bits (R533). -/
theorem lcAdvRun_done {target edges : Nat} (hok : s.lcAdvOk target = true) (hs : s.fuseSupplyBad = false) (hb : s.fuseCtrl.busy = false)
    (he : 512 ≤ edges) : s.lcAdvRun target edges
      = ((s.blow (2 * target - 2)).blow (2 * target - 2 + 1)).setPort (fun p => { p with lcAdv := { done := true } }) := by
  unfold State.lcAdvRun
  rw [hok, hs, hb]
  dsimp only
  rw [if_neg (by decide), if_pos (show 256 ≤ edges by omega), if_pos he, decide_eq_true he]

theorem lcAdvOk_pos {target : Nat} (h : s.lcAdvOk target = true) : 1 ≤ target := by
  unfold State.lcAdvOk at h
  split at h
  · simp only [Bool.and_eq_true, decide_eq_true_eq] at h
    omega
  · have := of_decide_eq_true h
    omega
  · have := of_decide_eq_true h
    omega
  · have := of_decide_eq_true h
    omega
  · cases h

/-- A program request of an address (R529). -/
theorem fuseProg_request (hb : s.port.fuse.busy = false) (adr : BitVec 12) :
    exec (.fuseProg (BitVec.ofNat 20 (adr.toNat + 0x1000))) s
      = .next (((scanned s .fuseProg).capture s.progCapture).progRequest adr) := by
  have hlt := adr.isLt
  have hhi : bitsOf (BitVec.ofNat 20 (adr.toNat + 0x1000)) 19 16 = 0 := by
    rw [bitsOf, BitVec.toNat_ofNat, Nat.shiftRight_eq_div_pow]
    omega
  have hop : bitsOf (BitVec.ofNat 20 (adr.toNat + 0x1000)) 15 12 = 1 := by
    rw [bitsOf, BitVec.toNat_ofNat, Nat.shiftRight_eq_div_pow]
    omega
  have hadr : (BitVec.ofNat 20 (adr.toNat + 0x1000)).setWidth 12 = adr := by
    apply BitVec.eq_of_toNat_eq
    simp only [BitVec.toNat_setWidth, BitVec.toNat_ofNat]
    omega
  rw [exec, execFuseProg, loadIr_idle hb rfl, hhi, hop, hadr]
  exact congrArg Host.Outcome.next ((if_neg (not_not_intro rfl)).trans (if_pos rfl))

/-! ## Contexts (R527) -/

/-- A DBG_CTRL operation on a context that its number names. -/
theorem dbgCtrl_idle (hb : s.port.fuse.busy = false) (n : BitVec 7) (hn : n.toNat ≤ 64) (f : State → CtxId → State) :
    s.dbgCtrl n f = f (((scanned s .dbgCtrl).capture s.dbgCapture).setPort (fun p => { p with dbgCtx := n })) (Fin.ofNat 65 n.toNat) := by
  rw [State.dbgCtrl, loadIr_idle hb rfl]
  exact if_pos hn

/-- A release of a halted context that owes nothing. -/
theorem resumeCtx_plain {x : CtxId} (h : (s.ctx x).halted = true) (hd : (s.ctx x).dbgBytes = []) (ht : (s.ctx x).trapDue = none)
    (hs : (s.ctx x).stepDue = false) (step : Bool) : s.resumeCtx x step
      = s.setCtx x { s.ctx x with halted := false, haltReq := false, stepping := step } := by
  have happly : (s.ctx x).dbgApply = s.ctx x := by
    rw [Ctx.dbgApply, hd]
    rfl
  have hup : s.upCtx x (fun c => { c.dbgApply with halted := false, haltReq := false, stepping := step })
      = s.setCtx x { s.ctx x with halted := false, haltReq := false, stepping := step } := by
    rw [State.upCtx, happly]
  have htrap : ((s.setCtx x { s.ctx x with halted := false, haltReq := false, stepping := step }).ctx x).trapDue = none := by
    rw [ctx_setCtx_same]
    exact ht
  have hstep : ((s.setCtx x { s.ctx x with halted := false, haltReq := false, stepping := step }).ctx x).stepDue = false := by
    rw [ctx_setCtx_same]
    exact hs
  rw [State.resumeCtx, if_pos h, hup, State.takeDue, htrap]
  dsimp only
  rw [State.takeStep, hstep]
  rfl

/-! ## Debug accesses (R524 to R526) -/

theorem daeIssue_refused {c : Nat} (hw : (daeReq s.port.dae.req).window = false) (h : s.daeRefusal (daeReq s.port.dae.req) = some c) :
    s.daeIssue = s.daeEnd c 0 := by
  rw [State.daeIssue, hw, h]
  rfl

theorem daeIssue_mem (hw : (daeReq s.port.dae.req).window = false) (h : s.daeRefusal (daeReq s.port.dae.req) = none)
    (hr : s.region (daeReq s.port.dae.req).addr = .dram ∨ s.region (daeReq s.port.dae.req).addr = .sram)
    (hp : s.poisoned (daeReq s.port.dae.req).addr = false) : s.daeIssue
      = if (daeReq s.port.dae.req).wr then
          (s.memWrite (daeReq s.port.dae.req).addr (leBytes (daeReq s.port.dae.req).size (daeReq s.port.dae.req).wdata.toNat)).daeEnd 0 0
        else s.daeEnd 0 (leNat (s.memRead (daeReq s.port.dae.req).addr (daeReq s.port.dae.req).size)) := by
  have hdev : s.region (daeReq s.port.dae.req).addr ≠ .device := by rcases hr with hr | hr <;> rw [hr] <;> decide
  have hflash : s.region (daeReq s.port.dae.req).addr ≠ .flash := by rcases hr with hr | hr <;> rw [hr] <;> decide
  rw [State.daeIssue, hw, h]
  refine (if_neg hdev).trans ?_
  rw [State.daeMem, if_neg hflash, hp, Bool.false_and, if_neg Bool.false_ne_true]

/-- An access that is not refused lies in one word (R524). -/
theorem dae_word (h : s.daeRefusal (daeReq s.port.dae.req) = none) {k : Nat} (hk : k < (daeReq s.port.dae.req).size) :
    wordOf ((daeReq s.port.dae.req).addr + k) = wordOf (daeReq s.port.dae.req).addr
      ∧ s.inKeyArray (daeReq s.port.dae.req).addr = false := by
  have hbus : s.daeBus (daeReq s.port.dae.req) = false := by
    unfold State.daeRefusal at h
    split at h
    · cases h
    · split at h
      · cases h
      · next hb => simpa using hb
  simp only [State.daeBus, Bool.or_eq_false_iff, decide_eq_false_iff_not, not_not] at hbus
  obtain ⟨⟨⟨-, hal⟩, hkey⟩, -⟩ := hbus
  refine ⟨?_, hkey⟩
  have hsize : (daeReq s.port.dae.req).size = 2 ^ bitsOf s.port.dae.req 42 41 := rfl
  have hlt : bitsOf s.port.dae.req 42 41 < 4 := Nat.mod_lt _ (by decide)
  rw [hsize] at hal hk
  unfold wordOf
  interval_cases bitsOf s.port.dae.req 42 41 <;> omega

theorem dae_clean (h : s.daeRefusal (daeReq s.port.dae.req) = none) (hp : s.poisoned (daeReq s.port.dae.req).addr = false) {k : Nat}
    (hk : k < (daeReq s.port.dae.req).size) : s.poisoned ((daeReq s.port.dae.req).addr + k) = false := by
  rw [State.poisoned, (dae_word h hk).1]
  exact hp

theorem memRead_clean {a len : Nat} (h : ∀ k, k < len → s.poisoned (a + k) = false) :
    s.memRead a len = (List.range len).map (fun k => s.memByte (a + k)) := by
  refine List.map_congr_left fun k hk => ?_
  rw [h k (List.mem_range.mp hk), if_neg Bool.false_ne_true]

theorem droppedWords_clean {a len : Nat} (h : ∀ k, k < len → s.poisoned (a + k) = false) : s.droppedWords a len = [] := by
  rw [State.droppedWords, List.filter_eq_nil_iff]
  intro w hw
  obtain ⟨k, hk, rfl⟩ := List.mem_map.mp (List.mem_eraseDups.mp hw)
  have hww : wordOf (wordOf (a + k)) = wordOf (a + k) := by unfold wordOf; omega
  have hclean := h k (List.mem_range.mp hk)
  rw [State.poisoned] at hclean ⊢
  rw [hww, hclean]
  exact Bool.false_ne_true

/-- A pending access under no detection. -/
theorem exec_daeComplete (h : s.port.dae.pending = true) : exec .daeComplete s = .next s.daeIssue := by
  rw [exec, execDaeComplete, h, if_pos rfl, withUpset_none]

/-- An access to the window of a context that is not halted. -/
theorem daeIssue_unhalted (hw : (daeReq s.port.dae.req).window = true) (hr : s.inReset = false) (hc : (daeReq s.port.dae.req).clean = true)
    (hal : (daeReq s.port.dae.req).addr % (daeReq s.port.dae.req).size = 0) (ha : (daeReq s.port.dae.req).addr < 65 * 0x400)
    (hh : (s.ctx (Fin.ofNat 65 ((daeReq s.port.dae.req).addr / 0x400))).halted = false) : s.daeIssue = s.daeEnd 10 0 := by
  have hrange : ¬ (65 * 0x400 ≤ (daeReq s.port.dae.req).addr) := by omega
  have hopen : ¬ ((!(daeReq s.port.dae.req).clean || decide ((daeReq s.port.dae.req).addr % (daeReq s.port.dae.req).size ≠ 0)
      || decide (65 * 0x400 ≤ (daeReq s.port.dae.req).addr)) = true) := by
    rw [hc, decide_eq_false (not_not_intro hal), decide_eq_false hrange]
    decide
  rw [State.daeIssue, hw]
  refine (if_pos rfl).trans ?_
  rw [State.daeWindow, hr, if_neg Bool.false_ne_true, if_neg hopen]
  refine if_pos ?_
  rw [hh]
  rfl

/-! ## What each instruction answers -/

/-- An instruction is current, and its scan has captured a value. -/
def Current (s t : State) (i : PortIns) (dr : Nat) : Prop := t.port.ir = i ∧ t.port.irCap = s.irCapture ∧ t.port.dr = dr

/-- The registers, memory and the reset stay. -/
def Quiet (s t : State) : Prop := t.regs = s.regs ∧ t.mem = s.mem ∧ t.inReset = s.inReset

/-- A chip reset that the port holds: one of cause TAP where none was held. -/
def HoldsReset (s t : State) : Prop :=
  (s.port.holdsReset = false → t.inReset = true ∧ t.reg (.g .resetCause) = s.reg (.g .resetCause) ||| 0x80)
    ∧ (s.port.holdsReset = true → Quiet s t ∧ t.ctxs = s.ctxs)

section

variable (hb : s.port.fuse.busy = false)

include hb

theorem holdsReset_loadIr (hi : i.holds = true) : (s.loadIr i).port.ir = i ∧ (s.loadIr i).port.irCap = s.irCapture
    ∧ HoldsReset s (s.loadIr i) := by
  obtain ⟨hir, hcap, htap, hheld⟩ := holds_spec hb hi
  exact ⟨hir, hcap, htap, fun h => ⟨⟨(hheld h).1, (hheld h).2.1, (hheld h).2.2.1⟩, (hheld h).2.2.2⟩⟩

theorem boundary_answers {pins update : Nat} (hp : pins < 2 ^ 1184) (hu : update < 2 ^ 1184) :
    Answers (.extest pins update) s (fun t => Current s t .extest pins ∧ t.port.boundary = update ∧ HoldsReset s t)
      ∧ Answers (.samplePreload pins update) s (fun t => Current s t .sample pins ∧ t.port.boundary = update ∧ Quiet s t) := by
  have hbits : boundaryBits = 1184 := rfl
  have hpins : pins % 2 ^ boundaryBits = pins := by
    rw [hbits]
    exact Nat.mod_eq_of_lt hp
  have hupdate : update % 2 ^ boundaryBits = update := by
    rw [hbits]
    exact Nat.mod_eq_of_lt hu
  obtain ⟨hir, hcap, hholds⟩ := holdsReset_loadIr (i := .extest) hb rfl
  refine ⟨⟨_, rfl, ⟨hir, hcap, hpins⟩, hupdate, hholds⟩, ⟨_, rfl, ?_⟩⟩
  rw [loadIr_idle hb rfl]
  exact ⟨⟨rfl, rfl, hpins⟩, hupdate, rfl, rfl, rfl⟩

theorem fuseProg_answers (adr : BitVec 12) : Answers (.fuseProg (BitVec.ofNat 20 (adr.toNat + 0x1000))) s (fun t =>
    Current s t .fuseProg s.progCapture ∧ t.fuses = s.fuses ∧ t.port.fuse = match s.progRefusal adr.toNat with
      | none => { addr := adr, busy := true }
      | some c => { addr := adr, reason := BitVec.ofNat 4 c }) := by
  have hrefusal : ((scanned s .fuseProg).capture s.progCapture).progRefusal adr.toNat = s.progRefusal adr.toNat := rfl
  refine ⟨_, fuseProg_request hb adr, ?_⟩
  rw [State.progRequest, hrefusal]
  cases s.progRefusal adr.toNat <;> exact ⟨⟨rfl, rfl, rfl⟩, rfl, rfl⟩

theorem sortGen_answers (edges : Nat) :
    (s.sortRefused = true → Answers (.sortGen 0x5A edges) s (fun t => Current s t .sortGen s.sortCapture
        ∧ t.port.sort = { reason := 1 } ∧ t.fuses = s.fuses))
    ∧ (s.sortRefused = false → 320 * 256 ≤ edges → Answers (.sortGen 0x5A edges) s (fun t => Current s t .sortGen s.sortCapture
        ∧ t.sortGen = true ∧ t.port.sort = { done := true } ∧ t.port.sortBits = 320
        ∧ ∀ n, smGet t.fuses false n = (smGet s.fuses false n
          || (List.range 320).any (fun i => decide (sortBit i = n) && bitAt (Config.freeWord (s.free + i)) 0)))) := by
  have hexec : exec (.sortGen 0x5A edges) s = .next (((scanned s .sortGen).capture s.sortCapture).sortRun edges) := by
    rw [exec, execSortGen, loadIr_idle hb rfl]
    rfl
  have hrefused : ((scanned s .sortGen).capture s.sortCapture).sortRefused = s.sortRefused := rfl
  refine ⟨fun h => ⟨_, hexec, ?_⟩, fun h he => ⟨_, hexec, ?_⟩⟩
  · rw [State.sortRun, hrefused, if_pos h]
    exact ⟨⟨rfl, rfl, rfl⟩, rfl, rfl⟩
  · rw [sortRun_done (hrefused.trans h) he]
    obtain ⟨v, hv⟩ : ∃ v, v = { (scanned s .sortGen).capture s.sortCapture with
      drbg := ((scanned s .sortGen).capture s.sortCapture).drbg.request } := ⟨_, rfl⟩
    obtain ⟨w, hw⟩ : ∃ w, w = v.sortBlow 0 320 := ⟨_, rfl⟩
    have hport : w.port = v.port := by
      rw [hw]
      exact sortBlow_keeps State.port (fun _ _ _ => rfl) _ _ _
    have hfuses (n : Nat) := sortBlow_fuses 320 v 0 n
    simp only [Nat.zero_add, ← hw] at hfuses
    rw [← hv, ← hw]
    have hir : v.port.ir = .sortGen ∧ v.port.irCap = s.irCapture ∧ v.port.dr = s.sortCapture ∧ v.fuses = s.fuses ∧ v.free = s.free := by
      rw [hv]
      exact ⟨rfl, rfl, rfl, rfl, rfl⟩
    obtain ⟨hir, hcap, hdr, hf, hfree⟩ := hir
    rw [hf, hfree] at hfuses
    exact ⟨⟨(congrArg Port.ir hport).trans hir, (congrArg Port.irCap hport).trans hcap, (congrArg Port.dr hport).trans hdr⟩,
      Bool.or_true _, rfl, rfl, hfuses⟩

theorem lcAdv_answers (v : BitVec 16) (edges : Nat) :
    let target := bitsOf v 2 0
    let shown := s.lcNow + 256 * bit s.port.lcAdv.done + 512 * bit (decide (s.port.lcAdv.reason ≠ 0))
    ((s.lcAdvOk target = false ∨ s.fuseSupplyBad = true ∨ s.fuseCtrl.busy = true) →
        Answers (.lcAdv v edges) s (fun t => Current s t .lcAdv shown ∧ t.port.lcAdv = { reason := 1 } ∧ t.fuses = s.fuses))
      ∧ (s.lcAdvOk target = true → s.fuseSupplyBad = false → s.fuseCtrl.busy = false → 512 ≤ edges →
        Answers (.lcAdv v edges) s (fun t => Current s t .lcAdv shown ∧ t.port.lcAdv = { done := true }
          ∧ ∀ n, smGet t.fuses false n
            = (smGet s.fuses false n || (decide (n = 2 * target - 2) || decide (n = 2 * target - 1))))) := by
  intro target shown
  have hexec : exec (.lcAdv v edges) s = .next (((scanned s .lcAdv).capture shown).lcAdvRun target edges) := by
    rw [exec, execLcAdv, loadIr_idle hb rfl]
    rfl
  have hok : ((scanned s .lcAdv).capture shown).lcAdvOk target = s.lcAdvOk target := rfl
  refine ⟨fun h => ⟨_, hexec, ?_⟩, fun h hs hf he => ⟨_, hexec, ?_⟩⟩
  · have hrefused : (!((scanned s .lcAdv).capture shown).lcAdvOk target || ((scanned s .lcAdv).capture shown).fuseSupplyBad
        || ((scanned s .lcAdv).capture shown).fuseCtrl.busy) = true := by
      have hsupply : ((scanned s .lcAdv).capture shown).fuseSupplyBad = s.fuseSupplyBad := rfl
      have hbusy : ((scanned s .lcAdv).capture shown).fuseCtrl.busy = s.fuseCtrl.busy := rfl
      rw [hok, hsupply, hbusy]
      rcases h with h | h | h <;> simp [h]
    rw [State.lcAdvRun, if_pos hrefused]
    exact ⟨⟨rfl, rfl, rfl⟩, rfl, rfl⟩
  · rw [lcAdvRun_done (hok.trans h) hs hf he]
    refine ⟨⟨rfl, rfl, rfl⟩, rfl, fun n => ?_⟩
    have hpos := lcAdvOk_pos h
    have htop : 2 * target - 2 + 1 = 2 * target - 1 := by omega
    refine (smGet_blow (((scanned s .lcAdv).capture shown).blow (2 * target - 2)) _ n).trans ?_
    rw [smGet_blow, htop, Bool.or_assoc]
    rfl

/-- A DBG_CTRL operation, by what it makes of its context. -/
theorem dbgCtrl_answers {n : BitVec 7} {x : CtxId} (hn : n.toNat ≤ 64) (hx : Fin.ofNat 65 n.toNat = x) (ins : Instr)
    (f : State → CtxId → State) (c : Ctx) (hins : exec ins s = .next (s.dbgCtrl n f))
    (hf : ∀ v : State, v.ctxs = s.ctxs → f v x = v.setCtx x c ∨ (f v x = v ∧ c = s.ctx x)) :
    Answers ins s (fun t => (Current s t .dbgCtrl s.dbgCapture ∧ t.port.dbgCtx = n ∧ Quiet s t ∧ ∀ y, y ≠ x → t.ctx y = s.ctx y)
      ∧ t.ctx x = c) := by
  obtain ⟨v, hv⟩ : ∃ v, v = ((scanned s .dbgCtrl).capture s.dbgCapture).setPort (fun p => { p with dbgCtx := n }) := ⟨_, rfl⟩
  have hexec : exec ins s = .next (f v x) := by rw [hins, dbgCtrl_idle hb n hn f, ← hv, hx]
  have hport : Current s v .dbgCtrl s.dbgCapture ∧ v.port.dbgCtx = n ∧ Quiet s v ∧ v.ctxs = s.ctxs := by
    rw [hv]
    exact ⟨⟨rfl, rfl, rfl⟩, rfl, ⟨rfl, rfl, rfl⟩, rfl⟩
  obtain ⟨hcur, hnum, hquiet, hctxs⟩ := hport
  refine ⟨_, hexec, ?_⟩
  rcases hf v hctxs with h | ⟨h, hc⟩
  · rw [h]
    exact ⟨⟨hcur, hnum, hquiet, fun y hy => (ctx_setCtx_other _ _ _ _ hy).trans (ctx_of_ctxs hctxs y)⟩, ctx_setCtx_same _ _ _⟩
  · rw [h]
    exact ⟨⟨hcur, hnum, hquiet, fun y _ => ctx_of_ctxs hctxs y⟩, (ctx_of_ctxs hctxs x).trans hc.symm⟩

/-- HALT, RELEASE and STEP (R527). -/
theorem dbg_answers {n : BitVec 7} {x : CtxId} (hn : n.toNat ≤ 64) (hx : Fin.ofNat 65 n.toNat = x) :
    let chosen := fun (t : State) => Current s t .dbgCtrl s.dbgCapture ∧ t.port.dbgCtx = n ∧ Quiet s t ∧ ∀ y, y ≠ x → t.ctx y = s.ctx y
    ((s.ctx x).halted = false → Answers (.halt n true) s (fun t => chosen t ∧ t.ctx x = { s.ctx x with haltReq := true }))
    ∧ Answers (.halt n false) s (fun t => chosen t ∧ t.ctx x = s.ctx x)
    ∧ ((s.ctx x).halted = true → (s.ctx x).dbgBytes = [] → (s.ctx x).trapDue = none → (s.ctx x).stepDue = false →
        Answers (.release n) s (fun t => chosen t ∧ t.ctx x = { s.ctx x with halted := false, haltReq := false, stepping := false })
        ∧ Answers (.step n) s (fun t => chosen t ∧ t.ctx x = { s.ctx x with halted := false, haltReq := false, stepping := true })) := by
  intro chosen
  refine ⟨fun hh => ?_, ?_, fun hh hd ht hs => ?_⟩
  · refine dbgCtrl_answers hb hn hx (.halt n true) _ _ rfl fun v hv => .inl ?_
    rw [ctx_of_ctxs hv, hh, State.upCtx, ctx_of_ctxs hv]
    rfl
  · refine dbgCtrl_answers hb hn hx (.halt n false) _ _ rfl fun v hv => .inr ⟨?_, rfl⟩
    rw [Bool.not_false, Bool.or_true, if_pos rfl]
  · have hresume (v : State) (hv : v.ctxs = s.ctxs) (step : Bool) : v.resumeCtx x step
        = v.setCtx x { s.ctx x with halted := false, haltReq := false, stepping := step } := by
      have hc := ctx_of_ctxs hv x
      rw [resumeCtx_plain (by rw [hc]; exact hh) (by rw [hc]; exact hd) (by rw [hc]; exact ht) (by rw [hc]; exact hs), hc]
    refine ⟨dbgCtrl_answers hb hn hx (.release n) _ _ rfl fun v hv => .inl (hresume v hv false),
      dbgCtrl_answers hb hn hx (.step n) _ _ rfl fun v hv => .inl ?_⟩
    rw [ctx_of_ctxs hv, if_pos hh, hresume v hv true]

end

/-- A pulse of the port ends, whole or cut short (R529). -/
theorem pulse_answers (hb : s.port.fuse.busy = true) :
    Answers (.fusePulseDone true) s (fun t => t.port.fuse.busy = false ∧ t.port.fuse.done = true
        ∧ ∀ n, smGet t.fuses false n = (smGet s.fuses false n || decide (n = s.port.fuse.addr.toNat)))
      ∧ Answers (.fusePulseDone false) s (fun t => t.port.fuse.busy = false ∧ t.port.fuse.done = false
        ∧ ∀ n, n ≠ s.port.fuse.addr.toNat → smGet t.fuses false n = smGet s.fuses false n) := by
  refine ⟨⟨_, congrArg Host.Outcome.next (if_pos hb), rfl, rfl, fun n => smGet_blow s _ n⟩,
    ⟨_, congrArg Host.Outcome.next (if_pos hb), rfl, rfl, fun n hn => ?_⟩⟩
  exact smGet_set_other s.fuses false false s.port.fuse.addr.toNat n _ hn

/-- Every scan cuts a pulse that is under way (R529). -/
theorem cut_answers :
    let cut := fun (i : Instr) => Answers i s (fun t => t.port.fuse.busy = false ∧ Quiet s t
      ∧ ∀ n, n ≠ s.port.fuse.addr.toNat → smGet t.fuses false n = smGet s.fuses false n)
    cut .idcode ∧ cut (.bypass 0xFF) ∧ cut .idRead ∧ cut .calRead ∧ cut .testLogicReset
    ∧ (∀ pins update, cut (.samplePreload pins update)) ∧ (∀ v, cut (.dae v)) ∧ (∀ n, cut (.halt n false)) := by
  intro cut
  have hcut (ins : Instr) (t : State) (hi : exec ins s = .next t) (h : PulseCut s t) : cut ins :=
    ⟨t, hi, h.busy, ⟨h.regs, h.mem, h.inReset⟩, h.fuses⟩
  have hload (i : PortIns) (hi : i.holds = false) (v : Nat) : PulseCut s ((s.loadIr i).capture v) := (pulseCut_loadIr hi).capture v
  refine ⟨hcut _ _ rfl (hload _ rfl _), hcut _ _ rfl (hload .bypass rfl _), hcut _ _ rfl (hload _ rfl _), hcut _ _ rfl (hload _ rfl _),
    hcut _ _ rfl (pulseCut_tlr s), fun pins update => hcut _ _ rfl ((hload _ rfl _).setPort _ fun _ => rfl), fun v => ?_, fun n => ?_⟩
  · refine hcut _ _ rfl ?_
    split
    · exact (hload _ rfl _).setPort _ fun _ => rfl
    · exact hload _ rfl _
  · refine hcut _ _ rfl ?_
    have hdone := (hload .dbgCtrl rfl (s.loadIr .dbgCtrl).dbgCapture).setPort (fun p => { p with dbgCtx := n }) fun _ => rfl
    unfold State.dbgCtrl
    split
    · dsimp only
      rw [Bool.not_false, Bool.or_true, if_pos rfl]
      exact hdone
    · exact hdone

/-- Debug accesses (R524 to R526). -/
theorem dae_answers (hp : s.port.dae.pending = true) :
    let q := daeReq s.port.dae.req
    let ended := fun (t : State) (c v : Nat) => t.port.dae = { s.port.dae with
      pending := false, done := true, result := BitVec.ofNat 4 c, rdata := BitVec.ofNat 64 v }
    let plain := q.window = false ∧ s.daeRefusal q = none ∧ (s.region q.addr = .dram ∨ s.region q.addr = .sram)
      ∧ s.poisoned q.addr = false
    (∀ c, q.window = false → s.daeRefusal q = some c → Answers .daeComplete s (fun t => ended t c 0 ∧ Quiet s t))
    ∧ (plain → q.wr = false → Answers .daeComplete s (fun t => Quiet s t
        ∧ ended t 0 (leNat ((List.range q.size).map (fun k => s.memByte (q.addr + k))))))
    ∧ (plain → q.wr = true → Answers .daeComplete s (fun t => ended t 0 0 ∧ t.regs = s.regs
        ∧ (∀ k, k < q.size → t.memByte (q.addr + k) = byteOf q.wdata.toNat k)
        ∧ (∀ b, b < q.addr ∨ q.addr + q.size ≤ b → t.memByte b = s.memByte b)))
    ∧ (q.window = true → s.inReset = false → q.clean = true → q.addr % q.size = 0 → q.addr < 65 * 0x400 →
        (s.ctx (Fin.ofNat 65 (q.addr / 0x400))).halted = false → Answers .daeComplete s (fun t => ended t 10 0 ∧ Quiet s t))
    ∧ Answers (.daeTimeout false) s (fun t => ended t 7 0 ∧ Quiet s t) := by
  intro q ended plain
  have hcomplete := exec_daeComplete hp
  refine ⟨fun c hw hc => ⟨_, hcomplete, ?_⟩, fun ⟨hw, hr, hreg, hpo⟩ hwr => ⟨_, hcomplete, ?_⟩, fun ⟨hw, hr, hreg, hpo⟩ hwr => ⟨_, hcomplete, ?_⟩,
    fun hw hin hcl hal ha hh => ⟨_, hcomplete, ?_⟩, ⟨_, congrArg Host.Outcome.next (if_pos hp), rfl, rfl, rfl, rfl⟩⟩
  · rw [daeIssue_refused hw hc]
    exact ⟨rfl, rfl, rfl, rfl⟩
  · rw [daeIssue_mem hw hr hreg hpo, if_neg (by rw [hwr]; exact Bool.false_ne_true),
      memRead_clean fun k hk => dae_clean hr hpo hk]
    exact ⟨⟨rfl, rfl, rfl⟩, rfl⟩
  · have hdrop : s.droppedWords q.addr (leBytes q.size q.wdata.toNat).length = [] := by
      rw [leBytes_length]
      exact droppedWords_clean fun k hk => dae_clean hr hpo hk
    rw [daeIssue_mem hw hr hreg hpo, if_pos hwr, memWrite_whole hdrop]
    have hbyte (b : Nat) : smGet (memSetAll s.mem q.addr (leBytes q.size q.wdata.toNat)) 0 b
        = if q.addr ≤ b ∧ b < q.addr + q.size then (leBytes q.size q.wdata.toNat).getD (b - q.addr) 0 else s.memByte b := by
      rw [smGet_memSetAll, leBytes_length]
      rfl
    refine ⟨rfl, rfl, fun k hk => (hbyte _).trans ?_, fun b hb => (hbyte b).trans (if_neg (by omega))⟩
    rw [if_pos ⟨by omega, by omega⟩, Nat.add_sub_cancel_left, leBytes, List.getD_eq_getElem?_getD, List.getElem?_map,
      List.getElem?_range hk]
    rfl
  · rw [daeIssue_unhalted hw hin hcl hal ha hh]
    exact ⟨rfl, rfl, rfl, rfl⟩

/-- Settles O57. -/
theorem maintenancePortInstructions : Obligations.MaintenancePortInstructions := by
  unfold Obligations.MaintenancePortInstructions
  intro s cur loaded quiet tap holds blown
  refine ⟨fun hb => ⟨?_, ?_, ?_, ?_, fun pins update => boundary_answers hb, ?_, ?_, ?_, fuseProg_answers hb, sortGen_answers hb,
    lcAdv_answers hb, ?_, fun n hn => dbg_answers hb hn rfl⟩, ?_, pulse_answers, fun _ => cut_answers, dae_answers⟩
  · rw [exec, execIdcode, loadIr_idle hb rfl]
    rfl
  · intro code hcode
    rw [exec, execBypass, ofCode_bypass hcode, loadIr_idle hb rfl]
    rfl
  · obtain ⟨hir, hcap, hholds⟩ := holdsReset_loadIr (i := .clamp) hb rfl
    exact ⟨_, rfl, ⟨hir, hcap, rfl⟩, hholds⟩
  · obtain ⟨hir, hcap, hholds⟩ := holdsReset_loadIr (i := .highz) hb rfl
    exact ⟨_, rfl, ⟨hir, hcap, rfl⟩, hholds⟩
  · obtain ⟨hir, hdae, -⟩ := port_tlrPort s
    refine ⟨tlrLeaves s, rfl, ?_, ?_, tlr_quiet s, fun x => ?_⟩
    · rw [tlr_port]; exact hir
    · rw [tlr_port]; exact hdae
    · rw [tlr_ctx]; exact ⟨rfl, rfl, rfl⟩
  · refine ⟨_, rfl, ?_⟩
    rw [loadIr_idle hb rfl]
    exact ⟨⟨rfl, rfl, rfl⟩, rfl, rfl, rfl⟩
  · rw [exec, execCalRead, loadIr_idle hb rfl]
    rfl
  · intro v
    have hexec : exec (.dae v) s = .next (if bitAt v 44 then ((scanned s .dae).capture s.daeCapture).setPort
        (fun p => { p with dae := { req := v, pending := true } }) else (scanned s .dae).capture s.daeCapture) := by
      rw [exec, execDae, loadIr_idle hb rfl]
      rfl
    refine ⟨_, hexec, ?_⟩
    cases bitAt v 44 <;> exact ⟨⟨rfl, rfl, rfl⟩, ⟨rfl, rfl, rfl⟩, rfl⟩
  · intro hir hs hf
    have hok : ((decide (s.port.ir = .idRead) || decide (s.port.ir = .calRead)) && !s.port.sensed && !s.fuseSupplyBad) = true := by
      rw [hs, hf]
      rcases hir with h | h <;> simp [h]
    rw [exec, execPortFuseSense, if_pos hok]

end Sys2Proof.Proofs.MaintenancePort
end

section
/-! SUPPORT. The registers that the supply and temperature sensors write choose no vault command (spec/18, spec/23). -/

namespace Sys2Proof.Laws

open Sys2Proof Sys2Proof.Machine

/-- The registers in which a droop is shown (R547). -/
def DroopReg (r : Reg) : Prop := r = .g .vmonStatus ∨ r = .g .hintStatus ∨ r = .d .irqLinePend

/-- Two states whose registers agree but where a droop is shown, and that agree in memory, poison and enclaves. -/
structure ButDroops (s t : State) : Prop where
  reg : ∀ q, ¬ DroopReg q → t.reg q = s.reg q
  mem : t.mem = s.mem
  poison : t.poison = s.poison
  encl : t.encl = s.encl

namespace ButDroops

variable {s t u : State} {r : Reg}

theorem refl (s : State) : ButDroops s s := ⟨fun _ _ => rfl, rfl, rfl, rfl⟩

theorem trans (h : ButDroops s t) (h' : ButDroops t u) : ButDroops s u :=
  ⟨fun q hq => (h'.reg q hq).trans (h.reg q hq), h'.mem.trans h.mem, h'.poison.trans h.poison, h'.encl.trans h.encl⟩

theorem setReg (s : State) (v : Word32) (hr : DroopReg r) : ButDroops s (s.setReg r v) :=
  ⟨fun q hq => reg_setReg_other s r q v fun e => hq (e ▸ hr), rfl, rfl, rfl⟩

theorem noteDroop (s : State) (rails : BitVec 6) : ButDroops s (s.noteDroop rails) := by
  unfold State.noteDroop
  split
  · exact refl s
  · exact ((setReg s _ (.inl rfl)).trans (setReg _ _ (.inr (.inl rfl)))).trans (setReg _ _ (.inr (.inr rfl)))

theorem pairBase (h : ButDroops s t) {lo hi : Reg} (hl : ¬ DroopReg lo) (hh : ¬ DroopReg hi) (n : Nat) :
    t.pairBase lo hi n = s.pairBase lo hi n := by
  rw [State.pairBase, State.pairBase, h.reg lo hl, h.reg hi hh]

theorem dramSize (h : ButDroops s t) : t.dramSize = s.dramSize := by
  simp only [State.dramSize, State.channels, h.reg (.g .dramStatus) (by simp [DroopReg])]

theorem region (h : ButDroops s t) (a : Nat) : t.region a = s.region a := by
  rw [State.region, State.region, h.dramSize]

theorem inKeyArray (h : ButDroops s t) (a : Nat) : t.inKeyArray a = s.inKeyArray a := by
  have hbase : t.keyBase = s.keyBase := h.pairBase (by simp [DroopReg]) (by simp [DroopReg]) _
  rw [State.inKeyArray, State.inKeyArray, State.keyV, State.keyV, h.reg _ (by simp [DroopReg]), hbase, h.dramSize]

theorem weirCause (h : ButDroops s t) (a : Nat) : t.weirCause a = s.weirCause a := by
  have hdram : t.secWeir = s.secWeir := h.pairBase (by simp [DroopReg]) (by simp [DroopReg]) _
  have hsram : t.sramWeir = s.sramWeir := by rw [State.sramWeir, State.sramWeir, h.reg _ (by simp [DroopReg])]
  rw [State.weirCause, State.weirCause, hdram, hsram]

theorem agentAllowed (h : ButDroops s t) (a : Nat) : t.agentAllowed a = s.agentAllowed a := by
  rw [State.agentAllowed, State.agentAllowed, h.weirCause, State.enclAt, State.enclAt, h.encl]

theorem ringWorld (h : ButDroops s t) (k : BitVec 3) : t.ringWorld k = s.ringWorld k := by
  rw [State.ringWorld, State.ringWorld, h.reg _ (by simp [DroopReg])]

theorem descAddr (h : ButDroops s t) (k : BitVec 3) : t.descAddr k = s.descAddr k := by
  simp only [State.descAddr, State.crBase, State.crCons, h.reg (.curlew (.crCons k)) (by simp [DroopReg]),
    h.reg (.curlew (.crBaseLo k)) (by simp [DroopReg]),
    h.pairBase (lo := .curlew (.crBaseLo k)) (hi := .curlew (.crBaseHi k)) (by simp [DroopReg]) (by simp [DroopReg])]

theorem descReach (h : ButDroops s t) (k : BitVec 3) : t.descReach k = s.descReach k := by
  simp only [State.descReach, h.region, h.descAddr, h.inKeyArray, h.ringWorld, h.agentAllowed]

theorem memRead (h : ButDroops s t) (a n : Nat) : t.memRead a n = s.memRead a n :=
  memRead_congr h.poison fun i _ => congrArg (smGet · 0 (a + i)) h.mem

theorem crCons (h : ButDroops s t) (k : BitVec 3) : t.crCons k = s.crCons k := by
  rw [State.crCons, State.crCons, h.reg _ (by simp [DroopReg])]

theorem crProd (h : ButDroops s t) (k : BitVec 3) : t.crProd k = s.crProd k := by
  rw [State.crProd, State.crProd, h.reg _ (by simp [DroopReg])]

theorem nextDesc (h : ButDroops s t) (k : BitVec 3) : t.nextDesc k = s.nextDesc k := by
  rw [State.nextDesc, State.nextDesc, h.crCons, h.crProd, h.descReach, h.descAddr, h.memRead]

theorem siteWorld (h : ButDroops s t) (n : SiteId) : t.siteWorld n = s.siteWorld n := by
  simp only [State.siteWorld, State.linkWorld, State.siteLink, h.reg (.site n .link) (by simp [DroopReg]),
    h.reg (.d .assignLinkLo) (by simp [DroopReg]), h.reg (.d .assignLinkHi) (by simp [DroopReg])]

theorem badDesc (h : ButDroops s t) (k : BitVec 3) (d : Desc) : t.badDesc k d = s.badDesc k d := by
  rw [State.badDesc, State.badDesc, h.ringWorld, h.siteWorld]

theorem vaultRings (h : ButDroops s t) (hue : t.ue = s.ue) : t.vaultRings = s.vaultRings := by
  have hv : t.vaultV = s.vaultV := by rw [State.vaultV, State.vaultV, h.reg _ (by simp [DroopReg])]
  have hs : t.stageV = s.stageV := by rw [State.stageV, State.stageV, h.reg _ (by simp [DroopReg])]
  unfold State.vaultRings
  rw [hv, hs, hue, funext h.nextDesc, funext fun k => funext (h.badDesc k)]

end ButDroops
end Sys2Proof.Laws
end

section
/-! PROOFS. Resets, clocks, supplies, sensors and the random bit generator (O54). -/

namespace Sys2Proof.Proofs.Resets

open Sys2Proof Sys2Proof.Machine Sys2Proof.Laws

variable {s t u : State} {c : Cause}

/-! ## What a chip reset leaves -/

/-- No update and no vault command of a ring is under way (R476). -/
def Calm (s : State) : Prop := s.ue.busy = none ∧ s.vaultRings = []

/-- A chip reset has begun, with RESET_CAUSE and SCRATCH1 as given (R434, R435). -/
def Down (s t : State) (cause scratch : Word32) : Prop :=
  t.inReset = true ∧ t.reg (.g .resetCause) = cause ∧ t.reg (.g .scratch1) = scratch
    ∧ (∀ r, r ≠ .g .resetCause → r ≠ .g .scratch1 → r ≠ .boot .status → t.reg r = r.spec.reset)
    ∧ t.cores = [] ∧ t.sites = [] ∧ t.pending = s.pending
    ∧ (Calm s → ∀ b, 0x8000000000 ≤ b → t.memByte b = s.memByte b)

theorem memByte_chipReset (s : State) (c : Cause) (b : Nat) : (s.chipReset c).memByte b
    = if s.survives c b then s.tearUe.tearRings.abandonPulses.memByte b else 0 :=
  smGet_filter _ 0 (s.survives c) b

section

variable {β : Type} (f : State → β) (hf : ∀ v x y p c, f { v with fuses := x, free := y, port := p, fuseCtrl := c } = f v)
include hf

theorem tearFuse_keeps (s : State) (a : Nat) : f (s.tearFuse a) = f s := hf s _ _ s.port s.fuseCtrl

theorem tearAdvance_keeps (s : State) (n : Nat) : f (s.tearAdvance n) = f s := by
  unfold State.tearAdvance
  dsimp only
  split
  · exact (tearFuse_keeps f hf _ _).trans (hf s s.fuses _ s.port s.fuseCtrl)
  · exact (tearFuse_keeps f hf _ _).trans (hf s _ _ s.port s.fuseCtrl)

/-- Cutting fuse pulses short touches the fuses, the port and the free choices alone (R531). -/
theorem abandonPulses_keeps (s : State) : f s.abandonPulses = f s := by
  have hport : f (if s.port.fuse.busy then s.tearFuse s.port.fuse.addr.toNat else s) = f s := by
    split
    · exact tearFuse_keeps f hf s _
    · rfl
  unfold State.abandonPulses
  generalize (if s.port.fuse.busy then s.tearFuse s.port.fuse.addr.toNat else s) = u at hport ⊢
  refine (hf _ _ _ _ _).trans (Eq.trans ?_ hport)
  split
  · split
    · exact tearAdvance_keeps f hf u _
    · exact tearFuse_keeps f hf u _
  · rfl

end

/-- With nothing under way a reset leaves what survives as it was. -/
theorem memByte_chipReset_calm (hs : Calm s) (c : Cause) (b : Nat) :
    (s.chipReset c).memByte b = if s.survives c b then s.memByte b else 0 := by
  have hue : s.tearUe = s := by rw [State.tearUe, hs.1]
  have hrings : s.tearRings = s := by rw [State.tearRings, hs.2]
  rw [memByte_chipReset, hue, hrings, abandonPulses_keeps (State.memByte · b) fun _ _ _ _ _ => rfl]

/-- Memory above DRAM survives each reset. -/
theorem survives_high (s : State) (c : Cause) {b : Nat} (hb : 0x8000000000 ≤ b) : s.survives c b = true :=
  if_neg (Nat.not_lt.mpr hb)

theorem down_chipReset (s : State) (hc : c ≠ .por) : Down s (s.chipReset c)
    (s.reg (.g .resetCause) ||| BitVec.ofNat 32 (2 ^ c.bit)) (s.reg (.g .scratch1)) :=
  ⟨rfl, reg_chipReset_cause hc, reg_chipReset_scratch1.trans (if_neg hc), fun _ hr h1 hs => reg_chipReset_other hr h1 hs,
    rfl, rfl, rfl, fun hs b hb => by rw [memByte_chipReset_calm hs, survives_high s c hb, if_pos rfl]⟩

theorem down_por (s : State) : Down s (s.chipReset .por) 1 0 :=
  ⟨rfl, reg_chipReset_cause_por, reg_chipReset_scratch1, fun _ hr h1 hs => reg_chipReset_other hr h1 hs, rfl, rfl, rfl,
    fun hs b hb => by rw [memByte_chipReset_calm hs, survives_high s _ hb, if_pos rfl]⟩

/-- A cause that loses DRAM leaves it zero (Table 18.1). -/
theorem dram_lost (s : State) (hc : c.zeroes = true) {b : Nat} (hb : b < 0x8000000000) : (s.chipReset c).memByte b = 0 := by
  rw [memByte_chipReset, State.survives, if_pos hb, hc]
  rfl

/-- A reset that loses DRAM: BC_STATUS does not say that it is kept. -/
def Lost (s t : State) (m : Word32) : Prop :=
  Down s t (s.reg (.g .resetCause) ||| m) (s.reg (.g .scratch1)) ∧ t.ctxs = keepHalts s.ctxs
    ∧ (∀ b, b < 0x8000000000 → t.memByte b = 0) ∧ bitAt (t.reg (.boot .status)) 1 = false

theorem lost_chipReset (s : State) (hc : c ≠ .por) (hz : c.zeroes = true) :
    Lost s (s.chipReset c) (BitVec.ofNat 32 (2 ^ c.bit)) := by
  refine ⟨down_chipReset s hc, ctxs_chipReset hc, fun b hb => dram_lost s hz hb, ?_⟩
  rw [reg_chipReset_status, hz]
  cases !s.inReset || bitAt (s.reg (.boot .status)) 1 <;> rfl

/-- A reset that keeps DRAM but for what the reset scrub takes (R435). -/
def Kept (s t : State) (m : Word32) : Prop :=
  Down s t (s.reg (.g .resetCause) ||| m) (s.reg (.g .scratch1)) ∧ t.ctxs = keepHalts s.ctxs
    ∧ (Calm s → ∀ b, b < 0x8000000000 → t.memByte b = if s.scrubbed b then 0 else s.memByte b)
    ∧ bitAt (t.reg (.boot .status)) 1 = (!s.inReset || bitAt (s.reg (.boot .status)) 1)

theorem kept_chipReset (s : State) (hc : c ≠ .por) (hz : c.zeroes = false) :
    Kept s (s.chipReset c) (BitVec.ofNat 32 (2 ^ c.bit)) := by
  refine ⟨down_chipReset s hc, ctxs_chipReset hc, fun hs b hb => ?_, ?_⟩
  · rw [memByte_chipReset_calm hs, State.survives, if_pos hb, hz]
    cases s.scrubbed b <;> rfl
  · rw [reg_chipReset_status, hz]
    cases !s.inReset || bitAt (s.reg (.boot .status)) 1 <;> rfl

/-! ## Supplies -/

theorem noteDroop_reg (s : State) (rails : BitVec 6) {q : Reg} (hq : ¬ DroopReg q) : (s.noteDroop rails).reg q = s.reg q :=
  (ButDroops.noteDroop s rails).reg q hq

theorem droops_running (hp : s.elec.porst = false) (out : BitVec 6) : s.droops out
    = ({ s with elec := { s.elec with railOut := out } } : State).noteDroop (out &&& ~~~s.elec.railOut) := by
  rw [State.droops, hp]
  rfl

theorem noteDroop_regsOnly (s : State) (rails : BitVec 6) : RegsOnly s (s.noteDroop rails) := .ite (.refl s) rfl

/-- A brownout's droop is noted before the reset, which loses DRAM all the same. -/
theorem lost_brownout (hp : s.elec.porst = false) (out : BitVec 6) : Lost s ((s.droops out).chipReset .brownout) 0x10 := by
  rw [droops_running hp]
  obtain ⟨e, he⟩ : ∃ e, e = ({ s.elec with railOut := out } : Elec) := ⟨_, rfl⟩
  rw [← he]
  obtain ⟨rails, hrails⟩ : ∃ x, x = out &&& ~~~s.elec.railOut := ⟨_, rfl⟩
  rw [← hrails]
  have hbut := ButDroops.noteDroop { s with elec := e } rails
  have honly := noteDroop_regsOnly { s with elec := e } rails
  generalize State.noteDroop { s with elec := e } rails = d at hbut honly
  have hue : d.ue = s.ue := honly.keeps State.ue fun _ _ => rfl
  have hcause : d.reg (.g .resetCause) = s.reg (.g .resetCause) := hbut.reg _ (by simp [DroopReg])
  have hscratch : d.reg (.g .scratch1) = s.reg (.g .scratch1) := hbut.reg _ (by simp [DroopReg])
  have hcalm (h : Calm s) : Calm d := ⟨(congrArg (·.busy) hue).trans h.1, (hbut.vaultRings hue).trans h.2⟩
  obtain ⟨⟨h1, h2, h3, h4, h5, h6, h7, h8⟩, hx, hzero, hkept⟩ := lost_chipReset (c := .brownout) d (by decide) rfl
  refine ⟨⟨h1, ?_, ?_, h4, h5, h6, h7.trans (honly.keeps State.pending fun _ _ => rfl), fun hs b hb => (h8 (hcalm hs) b hb).trans ?_⟩, ?_, hzero, hkept⟩
  · rw [h2, hcause]
    rfl
  · rw [h3, hscratch]
  · exact honly.memByte b
  · rw [hx, honly.ctxs]

/-- Each rail that newly droops is shown (R547). -/
theorem noteDroop_shows (s : State) {rails : BitVec 6} {i : Nat} (hi : i < 6) (h : bitAt rails i = true) :
    bitAt ((s.noteDroop rails).reg (.g .vmonStatus)) (16 + i) = true
      ∧ bitAt ((s.noteDroop rails).reg (.g .hintStatus)) 20 = true
      ∧ bitAt ((s.noteDroop rails).reg (.d .irqLinePend)) 12 = true := by
  have hne : rails ≠ 0 := by
    rintro rfl
    simp [bitAt] at h
  rw [State.noteDroop, if_neg hne]
  refine ⟨?_, ?_, bitAt_setLine _ (by decide)⟩
  · rw [reg_setLine_other 12 (by simp), reg_setHint_other 20 (by simp), reg_orReg_same, bitAt_or, bitAt_ofNat _ (by omega)]
    have hbit : (rails.toNat * 65536).testBit (16 + i) = true := by
      rw [show (65536 : Nat) = 2 ^ 16 from rfl, Nat.testBit_mul_two_pow]
      simpa [bitAt, BitVec.getLsbD] using h
    rw [hbit, Bool.or_true]
  · rw [reg_setLine_other 12 (by simp)]
    exact bitAt_setHint _ (by decide)

theorem droops_railOut (hp : s.elec.porst = false) (out : BitVec 6) : (s.droops out).elec.railOut = out := by
  rw [droops_running hp]
  exact congrArg Elec.railOut ((noteDroop_regsOnly _ _).keeps State.elec fun _ _ => rfl)

theorem droops_same (hp : s.elec.porst = false) (out : BitVec 6) :
    (s.droops out).mem = s.mem ∧ (s.droops out).ctxs = s.ctxs ∧ (s.droops out).inReset = s.inReset := by
  rw [droops_running hp]
  have honly := noteDroop_regsOnly { s with elec := { s.elec with railOut := out } } (out &&& ~~~s.elec.railOut)
  exact ⟨honly.keeps State.mem fun _ _ => rfl, honly.ctxs, honly.keeps State.inReset fun _ _ => rfl⟩

theorem bitAt_rail {rails : BitVec 6} {i : Nat} (hi : i < 6) : bitAt (rails ||| BitVec.ofNat 6 (2 ^ i)) i = true := by
  rw [bitAt, BitVec.getLsbD_or, BitVec.getLsbD_ofNat, Nat.testBit_two_pow_self, decide_eq_true hi, Bool.true_and, Bool.or_true]

/-- A droop is shown for each rail that newly leaves its limits, and for no other. -/
theorem droops_shows (hp : s.elec.porst = false) (out : BitVec 6) : (s.droops out).elec.railOut = out
    ∧ ((s.droops out).mem = s.mem ∧ (s.droops out).ctxs = s.ctxs ∧ (s.droops out).inReset = s.inReset)
    ∧ (∀ i, i < 6 → bitAt out i = true → bitAt s.elec.railOut i = false →
        bitAt ((s.droops out).reg (.g .vmonStatus)) (16 + i) = true
          ∧ bitAt ((s.droops out).reg (.g .hintStatus)) 20 = true ∧ bitAt ((s.droops out).reg (.d .irqLinePend)) 12 = true)
    ∧ ((∀ i, i < 6 → bitAt out i = true → bitAt s.elec.railOut i = true) → (s.droops out).regs = s.regs) := by
  refine ⟨droops_railOut hp out, droops_same hp out, fun i hi ho hs => ?_, fun hall => ?_⟩
  · rw [droops_running hp]
    refine noteDroop_shows _ hi ?_
    rw [bitAt, BitVec.getLsbD_and, BitVec.getLsbD_not]
    simpa [hi] using ⟨ho, hs⟩
  · have hnone : out &&& ~~~s.elec.railOut = 0 := by
      refine BitVec.eq_of_getLsbD_eq fun i hi => ?_
      rw [BitVec.getLsbD_and, BitVec.getLsbD_not]
      have h := hall i hi
      rw [bitAt, bitAt] at h
      cases ho : out.getLsbD i <;> simp_all
    rw [droops_running hp, hnone]
    rfl

/-! ## Clocks -/

/-- Without REFCLK no PLL is locked, and outside reset that resets the chip (R549). -/
theorem clockLost_clock (h : s.elec.refclkOk = true) : s.clockLost 0
    = if s.inReset then { s with elec := { s.elec with refclkOk := false, pllLock := 0 } }
      else ({ s with elec := { s.elec with refclkOk := false, pllLock := 0 } } : State).chipReset .clkloss := by
  rw [State.clockLost, h]
  rfl

theorem clockLost_pll {what : BitVec 2} (h : s.elec.refclkOk = true) (hw : what ≠ 0) : s.clockLost what
    = ({ s with elec := { s.elec with pllLock := s.elec.pllLock &&& ~~~pllMask what } } : State).chipReset .clkloss := by
  rw [State.clockLost, h, if_neg hw]
  rfl

/-! ## Links at a loss of lock -/

/-- The second state has the controls of every link, the memory and the contexts of the first. -/
structure Controls (s t : State) : Prop where
  ctrl : ∀ j, t.reg (.link j .ctrl) = s.reg (.link j .ctrl)
  elec : t.elec = s.elec
  mem : t.mem = s.mem
  ctxs : t.ctxs = s.ctxs
  inReset : t.inReset = s.inReset

namespace Controls

theorem refl (s : State) : Controls s s := ⟨fun _ => rfl, rfl, rfl, rfl, rfl⟩

theorem trans (h : Controls s t) (h' : Controls t u) : Controls s u :=
  ⟨fun j => (h'.ctrl j).trans (h.ctrl j), h'.elec.trans h.elec, h'.mem.trans h.mem, h'.ctxs.trans h.ctxs,
    h'.inReset.trans h.inReset⟩

theorem setReg {r : Reg} (s : State) (v : Word32) (h : ∀ j, .link j .ctrl ≠ r) : Controls s (s.setReg r v) :=
  ⟨fun j => reg_setReg_other s r _ v (h j), rfl, rfl, rfl, rfl⟩

theorem setAttn (s : State) (n : SiteId) (b : Nat) : Controls s (s.setAttn n b) := by
  have hattn : Controls s (s.orReg (.site n .attn) (BitVec.ofNat 32 (2 ^ b))) := setReg s _ (by simp)
  rw [State.setAttn]
  cases attnLine b with
  | none => exact hattn
  | some l => exact hattn.trans (setReg _ _ (by simp))

theorem txnLost (s : State) (n : SiteId) : Controls s (s.txnLost n) := by
  unfold State.txnLost
  dsimp only
  split
  · exact refl s
  · split
    · exact ⟨fun _ => rfl, rfl, rfl, rfl, rfl⟩
    · split <;> exact ⟨fun _ => rfl, rfl, rfl, rfl, rfl⟩
    · exact refl s

theorem stationLost (s : State) (k : LinkId) (y : StationId) : Controls s (s.stationLost k y) := by
  have hgone : Controls s ((s.setStation k y { s.station k y with present := false }).bumpSat (.link k .lost) 1) :=
    Controls.trans (t := s.setStation k y { s.station k y with present := false }) ⟨fun _ => rfl, rfl, rfl, rfl, rfl⟩
      (setReg _ _ (by simp))
  unfold State.stationLost
  dsimp only
  split
  · split
    · exact hgone
    · exact hgone.trans ((setAttn _ _ _).trans (txnLost _ _))
  · exact refl s

theorem linkLost (s : State) (k : LinkId) : Controls s (s.linkLost k) :=
  foldl_keeps (Controls s) _ _ s (refl s) fun t _ h => h.trans (stationLost t k _)

theorem setLinkState (s : State) (k : LinkId) (hup : (s.link k).state = .up) {v : LinkState} (hv : v ≠ .up) :
    Controls s (s.setLinkState k v) := by
  rw [setLinkState_falls hup hv]
  have hset (t : State) (w : Link) : Controls t (t.setLink k w) := ⟨fun _ => rfl, rfl, rfl, rfl, rfl⟩
  exact (linkLost s k).trans ((hset _ _).trans ((setReg _ _ (by simp)).trans (setReg _ _ (by simp))))

end Controls

theorem linkBase_ne_up (s : State) (k : LinkId) : s.linkBase k ≠ .up := by
  unfold State.linkBase
  split_ifs <;> simp

/-- What a loss of lock does to one link: one that is UP leaves it (R86). -/
def dropLink (s : State) (i : Nat) : State :=
  if (s.link (BitVec.ofNat 6 i)).state = .up then s.setLinkState (BitVec.ofNat 6 i) (s.linkBase (BitVec.ofNat 6 i)) else s

/-- The links below a number have been dealt with: those that were UP have left it and lost their stations. -/
structure Dropped (s t : State) (n : Nat) : Prop where
  controls : Controls s t
  ahead : ∀ k : LinkId, n ≤ k.toNat → t.link k = s.link k
  below : ∀ k, (s.link k).state ≠ .up → t.link k = s.link k
  fallen : ∀ k : LinkId, k.toNat < n → (s.link k).state = .up →
    (t.link k).state = s.linkBase k ∧ ∀ y : StationId, (t.station k y).present = false

/-- One more link is dealt with. -/
theorem Dropped.step {n : Nat} (h : Dropped s t n) (hn : n < 64) : Dropped s (dropLink t n) (n + 1) := by
  obtain ⟨k, hk⟩ : ∃ k : LinkId, k = BitVec.ofNat 6 n := ⟨_, rfl⟩
  have hkn : k.toNat = n := by rw [hk, BitVec.toNat_ofNat, Nat.mod_eq_of_lt hn]
  have hlink : t.link k = s.link k := h.ahead k (by omega)
  rw [dropLink, ← hk, hlink]
  have hlow {j : LinkId} (hj : j.toNat < n + 1) (hne : j ≠ k) : j.toNat < n := by
    have : j.toNat ≠ k.toNat := fun e => hne (BitVec.eq_of_toNat_eq e)
    omega
  by_cases hup : (s.link k).state = .up
  · rw [if_pos hup]
    have hbase : t.linkBase k = s.linkBase k := by
      unfold State.linkBase State.linkEn State.linkFence
      rw [hlink, h.controls.ctrl]
    rw [hbase]
    have hupt : (t.link k).state = .up := by rw [hlink, hup]
    have hmoved := LinkMoved.setLinkState t k (linkBase_ne_up s k)
    obtain ⟨hgone, -, -⟩ := hmoved.falls hupt (linkBase_ne_up s k)
    refine ⟨h.controls.trans (.setLinkState t k hupt (linkBase_ne_up s k)), fun j hj => ?_, fun j hj => ?_, fun j hj hju => ?_⟩
    · rw [hmoved.frame.others j (fun e => by subst e; omega), h.ahead j (by omega)]
    · rw [hmoved.frame.others j (fun e => hj (e ▸ hup)), h.below j hj]
    · by_cases hjk : j = k
      · rw [hjk]
        exact ⟨hmoved.state, hgone⟩
      · have hother := hmoved.frame.others j hjk
        obtain ⟨hst, hy⟩ := h.fallen j (hlow hj hjk) hju
        exact ⟨by rw [hother, hst], fun y => by rw [State.station, hother]; exact hy y⟩
  · rw [if_neg hup]
    exact ⟨h.controls, fun j hj => h.ahead j (by omega), h.below, fun j hj hju =>
      h.fallen j (hlow hj fun e => hup (e ▸ hju)) hju⟩

theorem dropped_foldl (s : State) : ∀ n, n ≤ 64 → Dropped s ((List.range n).foldl dropLink s) n
  | 0, _ => ⟨.refl s, fun _ _ => rfl, fun _ _ => rfl, fun _ h => absurd h (Nat.not_lt_zero _)⟩
  | n + 1, hn => by
    rw [List.range_succ, List.foldl_append]
    exact (dropped_foldl s n (by omega)).step (by omega)

/-- At a SERDES loss of lock every link that was UP has left it (R551). -/
theorem serdesLost_eq (h : s.elec.refclkOk = true) : s.serdesLost
    = (((List.range 64).foldl dropLink { s with elec := { s.elec with pllLock := s.elec.pllLock &&& 0xB } }).setHint 21).setLine 12 := by
  rw [State.serdesLost, h]
  rfl

/-! ## The sensors -/

/-- What TMAX is read from: the thermometers, the fuses and THERM_USER_OFS. -/
theorem tmax_congr (ht : t.elec.therm = s.elec.therm) (hs : t.sensed = s.sensed)
    (hr : t.reg (.g .thermUserOfs) = s.reg (.g .thermUserOfs)) : t.tmax = s.tmax := by
  have hread : t.hottest = s.hottest := by
    unfold State.hottest State.thermRead State.thermEff State.thermGain State.thermFact State.fuseField
    rw [hs, hr]
  rw [State.tmax, State.tmax, ht, hread]

theorem thermCross_regsOnly (s : State) (seen : Option Int) (now limit : Int) (k : Nat) :
    RegsOnly s (s.thermCross seen now limit k) := .ite rfl (.refl s)

/-- A limit that TMAX reaches from below is shown (R543). -/
theorem thermCross_shows (s : State) {seen : Option Int} {now limit : Int} {k : Nat} (hk : k < 32) (hl : limit ≤ now)
    (hb : ∀ y, seen = some y → y < limit) :
    bitAt ((s.thermCross seen now limit k).reg (.g .thermStatus)) k = true
      ∧ bitAt ((s.thermCross seen now limit k).reg (.g .hintStatus)) 19 = true
      ∧ bitAt ((s.thermCross seen now limit k).reg (.d .irqLinePend)) 11 = true := by
  have heq : s.thermCross seen now limit k
      = ((s.orReg (.g .thermStatus) (BitVec.ofNat 32 (2 ^ k))).setHint 19).setLine 11 := by
    unfold State.thermCross
    cases seen with
    | none => exact if_pos (by simpa using hl)
    | some y => exact if_pos (by simpa using ⟨hb y rfl, hl⟩)
  rw [heq]
  refine ⟨?_, ?_, bitAt_setLine _ (by decide)⟩
  · rw [reg_setLine_other 11 (by simp), reg_setHint_other 19 (by simp)]
    exact bitAt_orReg _ _ hk
  · rw [reg_setLine_other 11 (by simp)]
    exact bitAt_setHint _ (by decide)

/-- A crossing clears no bit. -/
theorem thermCross_bit (s : State) (seen : Option Int) (now limit : Int) (k : Nat) (q : Reg) {i : Nat}
    (h : bitAt (s.reg q) i = true) : bitAt ((s.thermCross seen now limit k).reg q) i = true := by
  have hor (u : State) (r : Reg) (m : Word32) (hu : bitAt (u.reg q) i = true) : bitAt ((u.orReg r m).reg q) i = true := by
    by_cases hq : q = r
    · rw [hq, reg_orReg_same, bitAt_or, ← hq, hu]
      rfl
    · rwa [reg_orReg_other _ _ _ _ hq]
  unfold State.thermCross
  dsimp only
  split_ifs
  · exact hor _ _ _ (hor _ _ _ (hor _ _ _ h))
  · exact h

/-- A limit that TMAX does not reach shows nothing. -/
theorem thermCross_low (s : State) (seen : Option Int) {now limit : Int} (k : Nat) (h : now < limit) :
    s.thermCross seen now limit k = s := by
  unfold State.thermCross
  exact if_neg (by simp [h])

/-- Both limits compared with TMAX (R543). -/
def crossed (s : State) (x : Int) : State :=
  (s.thermCross s.elec.tmaxSeen x 100 16).thermCross s.elec.tmaxSeen x 105 17

theorem crossed_regsOnly (s : State) (x : Int) : RegsOnly s (crossed s x) :=
  (thermCross_regsOnly s _ _ _ _).trans (thermCross_regsOnly _ _ _ _ _)

theorem crossed_shows (s : State) {x lim : Int} {bit : Nat} (h : (lim = 100 ∧ bit = 16) ∨ (lim = 105 ∧ bit = 17))
    (hl : lim ≤ x) (hb : ∀ y, s.elec.tmaxSeen = some y → y < lim) :
    bitAt ((crossed s x).reg (.g .thermStatus)) bit = true ∧ bitAt ((crossed s x).reg (.g .hintStatus)) 19 = true
      ∧ bitAt ((crossed s x).reg (.d .irqLinePend)) 11 = true := by
  rcases h with ⟨rfl, rfl⟩ | ⟨rfl, rfl⟩
  · obtain ⟨h1, h2, h3⟩ := thermCross_shows s (k := 16) (by decide) hl hb
    exact ⟨thermCross_bit _ _ _ _ _ _ h1, thermCross_bit _ _ _ _ _ _ h2, thermCross_bit _ _ _ _ _ _ h3⟩
  · exact thermCross_shows _ (by decide) hl hb

theorem thermCheck_some {x : Int} {h : Nat} (ht : s.tmax = some (x, h)) :
    s.thermCheck = { crossed s x with elec := { (crossed s x).elec with tmaxSeen := some x } } := by
  rw [State.thermCheck, ht]
  rfl

/-- The state in which the sensors have read. -/
def thermRead (s : State) (r : Therm) : State := { s with elec := { s.elec with therm := some r } }

/-- The sensors read, and TMAX is compared with its limits. -/
theorem thermSense_reads (hin : s.inReset = false) (r : Therm) :
    (s.thermSense r).elec.therm = some r
      ∧ ((s.thermSense r).mem = s.mem ∧ (s.thermSense r).ctxs = s.ctxs ∧ (s.thermSense r).inReset = s.inReset)
      ∧ ∀ x h, (s.thermSense r).tmax = some (x, h) → (s.thermSense r).elec.tmaxSeen = some x
        ∧ (x < 100 → (s.thermSense r).regs = s.regs)
        ∧ ∀ lim bit, (lim = 100 ∧ bit = 16) ∨ (lim = 105 ∧ bit = 17) → lim ≤ x →
          (∀ y, s.elec.tmaxSeen = some y → y < lim) →
          bitAt ((s.thermSense r).reg (.g .thermStatus)) bit = true
            ∧ bitAt ((s.thermSense r).reg (.g .hintStatus)) 19 = true
            ∧ bitAt ((s.thermSense r).reg (.d .irqLinePend)) 11 = true := by
  have heq : s.thermSense r = (thermRead s r).thermCheck :=
    if_neg (by rw [hin]; exact Bool.false_ne_true)
  obtain ⟨⟨x, k⟩, hx⟩ : ∃ p, (thermRead s r).tmax = some p := ⟨_, rfl⟩
  have honly := crossed_regsOnly (thermRead s r) x
  have helec : (crossed (thermRead s r) x).elec = (thermRead s r).elec := honly.keeps State.elec fun _ _ => rfl
  have htherm : (crossed (thermRead s r) x).elec.therm = some r := congrArg Elec.therm helec
  rw [heq, thermCheck_some hx]
  refine ⟨htherm, ⟨honly.keeps State.mem fun _ _ => rfl, honly.ctxs, honly.keeps State.inReset fun _ _ => rfl⟩,
    fun y h hy => ?_⟩
  have hsame : State.tmax { crossed (thermRead s r) x with elec := { (crossed (thermRead s r) x).elec with tmaxSeen := some x } }
      = (thermRead s r).tmax := by
    refine tmax_congr htherm honly.sensed ?_
    exact (thermCross_reg _ _ _ _ (by simp) (by simp) (by simp)).trans
      (thermCross_reg _ _ _ _ (by simp) (by simp) (by simp))
  obtain ⟨rfl, -⟩ := Prod.mk.inj (Option.some.inj (hx.symm.trans (hsame.symm.trans hy)))
  refine ⟨rfl, fun hlow => ?_, fun lim bit hlim hle hbelow => crossed_shows (thermRead s r) hlim hle hbelow⟩
  show (crossed (thermRead s r) x).regs = s.regs
  rw [crossed, thermCross_low _ _ _ hlow, thermCross_low _ _ _ (hlow.trans (by decide))]
  rfl

/-! ## The end of the internal reset (R436, R447) -/

/-- Starting a context touches registers, contexts and cores alone. -/
theorem startCtx_keeps {β : Type} (f : State → β) (hf : ∀ v m x c, f { v with regs := m, ctxs := x, cores := c } = f v)
    (s : State) (x : CtxId) (ptr : Word) (w : World) (occ : Occ) : f (s.startCtx x ptr w occ) = f s := by
  unfold State.startCtx State.takeNmiWait
  dsimp only
  split <;> exact hf s _ _ _

/-- A started context has its occupant, and every register of it is zero. -/
theorem startCtx_zeroed (s : State) (x : CtxId) (ptr : Word) (w : World) (occ : Occ) :
    ((s.startCtx x ptr w occ).ctx x).occ = occ ∧ ∀ g, ((s.startCtx x ptr w occ).ctx x).getG g = 0 := by
  have hz (c : Ctx) (hc : c.g = []) (g : BitVec 5) : c.getG g = 0 := by
    unfold Ctx.getG
    rw [hc]
    exact ite_self _
  unfold State.startCtx State.takeNmiWait
  dsimp only
  split
  · rw [ctx_upCtx_same, setCore_ctx, State.putBit, setReg_ctx, ctx_setCtx_same]
    exact ⟨rfl, hz _ rfl⟩
  · rw [State.putBit, setReg_ctx, ctx_setCtx_same]
    exact ⟨rfl, hz _ rfl⟩

/-- The chip has sensed its fuses, and the boot core is ready (R436). -/
def awoken (s : State) (bmode : BitVec 3) : State :=
  { s with
    inReset := false, time := 0, sensed := s.fuses, elec := { s.elec with pllLock := 0xF }
    port := { s.port with sensed := true }
    boot := { phase := .ready, bmode := bmode } }

/-- BC_STATUS shows the lock, a held debug and the boot mode. -/
def statusShown (s : State) (bmode : BitVec 3) : State :=
  s.setReg (.boot .status) (setBits (setBit (setBit (s.reg (.boot .status)) 4 (!decide (s.fuseField 0x240 1 = 1))) 3 s.holdsDebug)
    10 8 bmode.toNat)

/-- The boot core starts at the ROM. -/
def romRuns (s : State) : State :=
  (s.startCtx bootCtx (BitVec.ofNat 64 romFirst) .secure .monitor).setCore 16 { state := .running }

theorem endInternalReset_eq (bmode : BitVec 3) (hin : s.inReset = true) (hclk : s.elec.refclkOk = true)
    (hport : s.port.holdsReset = false) (hp : s.elec.porst = false) (hr : s.elec.resetN = false)
    (hrail : bitAt s.elec.railOut 5 = false) :
    s.endInternalReset bmode
      = ((romRuns ((statusShown (awoken s bmode) bmode).noteDroop s.elec.railOut)).setPhase 1).bootStep 1 := by
  rw [State.endInternalReset, hin, hclk, hport, hp, hr, hrail]
  simp only [Bool.not_true, Bool.or_false, Bool.false_eq_true, if_false, Bool.not_false, Bool.or_true]
  rfl

/-- What the first steps of the ROM leave alone. -/
theorem romRuns_keeps {β : Type} (f : State → β) (hf : ∀ v m x c, f { v with regs := m, ctxs := x, cores := c } = f v)
    (s : State) (bmode : BitVec 3) (rails : BitVec 6) :
    f (((romRuns ((statusShown s bmode).noteDroop rails)).setPhase 1).bootStep 1) = f s := by
  have hregs (v : State) (m : SMap Word32) : f { v with regs := m } = f v := hf v m v.ctxs v.cores
  have hstart := startCtx_keeps f hf ((statusShown s bmode).noteDroop rails) bootCtx (BitVec.ofNat 64 romFirst) .secure .monitor
  calc f (((romRuns ((statusShown s bmode).noteDroop rails)).setPhase 1).bootStep 1)
      = f (romRuns ((statusShown s bmode).noteDroop rails)) :=
        ((setPhase_regsOnly _ 1).trans (.setReg _ _ _)).keeps f hregs
    _ = f ((statusShown s bmode).noteDroop rails) := (hf _ _ _ _).trans hstart
    _ = f s := (RegsOnly.trans (.setReg _ _ _) (noteDroop_regsOnly _ _)).keeps f hregs

/-- After the internal reset the boot core runs the ROM from its first address. -/
theorem internalResetEnd_starts (bmode : BitVec 3) (hin : s.inReset = true) (hclk : s.elec.refclkOk = true)
    (hport : s.port.holdsReset = false) (hp : s.elec.porst = false) (hr : s.elec.resetN = false)
    (hrail : bitAt s.elec.railOut 5 = false) :
    Answers (.internalResetEnd bmode) s (fun t => t.inReset = false ∧ t.time = 0 ∧ t.sensed = s.fuses ∧ t.port.sensed = true
      ∧ t.boot.phase = .ready ∧ t.bootPhase = 1 ∧ t.boot.bmode = bmode ∧ bitsOf (t.reg (.boot .status)) 10 8 = bmode.toNat
      ∧ bitAt (t.reg (.boot .status)) 3 = decide (t.lcState = 2 ∨ t.lcState = 3)
      ∧ (t.core 16).state = .running ∧ (t.ctx bootCtx).pc = 0xFFFFF00000 ∧ (t.ctx bootCtx).world = .secure
      ∧ (t.ctx bootCtx).occ = .monitor ∧ (∀ g, (t.ctx bootCtx).getG g = 0) ∧ t.mem = s.mem) := by
  refine ⟨_, congrArg Host.Outcome.next (endInternalReset_eq bmode hin hclk hport hp hr hrail), ?_⟩
  obtain ⟨a, ha⟩ : ∃ a, a = awoken s bmode := ⟨_, rfl⟩
  obtain ⟨n, hn⟩ : ∃ n, n = (statusShown a bmode).noteDroop s.elec.railOut := ⟨_, rfl⟩
  have hkeeps {β : Type} (f : State → β) (hf : ∀ v m x c, f { v with regs := m, ctxs := x, cores := c } = f v) :
      f (((romRuns n).setPhase 1).bootStep 1) = f a := hn ▸ romRuns_keeps f hf a bmode _
  rw [← ha, ← hn]
  have honly : RegsOnly (romRuns n) (((romRuns n).setPhase 1).bootStep 1) := (setPhase_regsOnly _ 1).trans (.setReg _ _ _)
  have hctx : (((romRuns n).setPhase 1).bootStep 1).ctx bootCtx
      = (n.startCtx bootCtx (BitVec.ofNat 64 romFirst) .secure .monitor).ctx bootCtx :=
    (honly.keeps (State.ctx · bootCtx) fun _ _ => rfl).trans (setCore_ctx _ _ _ _)
  have hstatus : (((romRuns n).setPhase 1).bootStep 1).reg (.boot .status) = setBits
      (setBit (setBit (a.reg (.boot .status)) 4 (!decide (a.fuseField 0x240 1 = 1))) 3 a.holdsDebug) 10 8 bmode.toNat := by
    rw [State.bootStep, reg_setReg_other _ _ _ _ (by simp), setPhase_reg 1 (by simp) (by simp)]
    refine (startCtx_reg (s := n) bootCtx _ .secure .monitor (by simp [cxReg])).trans ?_
    rw [hn, noteDroop_reg _ _ (by simp [DroopReg])]
    exact reg_setReg_same _ _ _
  have hlc : (((romRuns n).setPhase 1).bootStep 1).lcState = a.lcState := hkeeps State.lcState fun _ _ _ _ => rfl
  have hboot : (((romRuns n).setPhase 1).bootStep 1).boot = a.boot := hkeeps State.boot fun _ _ _ _ => rfl
  obtain ⟨hpc, hworld⟩ := startCtx_ctx (s := n) bootCtx (BitVec.ofNat 64 romFirst) .secure .monitor
  obtain ⟨hocc, hzero⟩ := startCtx_zeroed n bootCtx (BitVec.ofNat 64 romFirst) .secure .monitor
  refine ⟨?_, ?_, ?_, ?_, ?_, ?_, ?_, ?_, ?_, ?_, ?_, ?_, ?_, ?_, ?_⟩
  · exact (hkeeps State.inReset fun _ _ _ _ => rfl).trans (ha ▸ rfl)
  · exact (hkeeps State.time fun _ _ _ _ => rfl).trans (ha ▸ rfl)
  · exact (hkeeps State.sensed fun _ _ _ _ => rfl).trans (ha ▸ rfl)
  · exact (hkeeps (·.port.sensed) fun _ _ _ _ => rfl).trans (ha ▸ rfl)
  · rw [hboot, ha]
    rfl
  · exact (bootPhase_congr (reg_setReg_other _ _ _ _ (by simp))).trans (bootPhase_setPhase 1)
  · rw [hboot, ha]
    rfl
  · rw [hstatus, bitsOf_setBits_same _ _ _ _ (by decide)]
    exact Nat.mod_eq_of_lt bmode.isLt
  · rw [hstatus, bitAt_setBits, if_neg (by decide), bitAt_setBit_same _ _ _ (by decide), hlc, State.holdsDebug,
      Bool.decide_or]
  · rw [honly.keeps (State.core · 16) fun _ _ => rfl, romRuns, core_setCore_same]
  · rw [hctx, hpc]
    rfl
  · rw [hctx, hworld]
  · rw [hctx, hocc]
  · intro g
    rw [hctx, hzero]
  · exact (hkeeps State.mem fun _ _ _ _ => rfl).trans (ha ▸ rfl)

/-! ## The random bit generator (R414 to R416) -/

theorem entropyLost_shows (s : State) : s.entropyLost.drbg.instantiated = false ∧ s.entropyLost.drbg.startupPass = false
    ∧ s.entropyLost.drbg.healthFail = true ∧ s.entropyLost.drbg.collected = 0
    ∧ bitAt (s.entropyLost.reg (.g .hintStatus)) 25 = true ∧ bitAt (s.entropyLost.reg (.d .irqLinePend)) 13 = true
    ∧ s.entropyLost.mem = s.mem ∧ s.entropyLost.ctxs = s.ctxs ∧ s.entropyLost.inReset = s.inReset := by
  refine ⟨rfl, rfl, rfl, rfl, ?_, bitAt_setLine _ (by decide), rfl, rfl, rfl⟩
  rw [State.entropyLost, reg_setLine_other 13 (by simp)]
  exact bitAt_setHint _ (by decide)

/-- Randomness changes nothing that a boot ROM at rest waits for (R415). -/
theorem bootGo_rests (h : s.boot.phase = .off ∨ s.boot.phase = .ready) : s.bootGo = s := by
  unfold State.bootGo
  rcases h with h | h <;> rw [h]

/-- With REFCLK, outside reset, the generator becomes ready. -/
theorem rngReady_eq (hclk : s.elec.refclkOk = true) (hin : s.inReset = false) (hd : s.drbg.instantiated = false)
    (hb : s.boot.phase = .off ∨ s.boot.phase = .ready) : exec .rngReady s
      = .next (({ s with drbg := { s.drbg with collected := 512, startupPass := true, instantiated := true } } : State).setLine 13) := by
  refine congrArg Host.Outcome.next ((if_pos ?_).trans (bootGo_rests hb))
  rw [hclk, hin, hd]
  rfl

/-! ## The resets by the boot core (R447, R450) -/

/-- What the boot core writes in the secure world to a register of its own, with no store before it, is performed. -/
theorem bootWrite {a : Access} {r : BReg} {data : Word32} (hq : a.req = .ctx bootCtx) (hw : (s.ctx bootCtx).world = .secure)
    (hr : s.reaches a (.boot r) data = true) (hp : (Reg.boot r).pairOf = none) (ht : (Reg.boot r).isTide = false) : s.writeReg a (.boot r) data = s.bWrite (.ctx bootCtx) .secure r 0xF data := by
  have hlive : s.liveWrite (whoOf a) (s.accWorld a (.boot r)) (.boot r) (lanesOf a) data
      = some (s.bWrite (.ctx bootCtx) .secure r 0xF data) := by
    simp only [whoOf, State.accWorld, lanesOf, hq, hw]
    rfl
  rw [writeReg_live hr hp ht (by simp) hlive, State.complete, hq]

theorem seen_all (data : Word32) : seen 0xF data = data := BitVec.and_allOnes

theorem soft_resets {a : Access} {data : Word32} (hq : a.req = .ctx bootCtx) (hw : (s.ctx bootCtx).world = .secure)
    (hr : s.reaches a (.boot .softReset) data = true) (h0 : bitAt data 0 = true) (h8 : bitsOf data 15 8 = 0xA5) :
    exec (.soft a data) s = .next (s.chipReset .soft) := by
  refine congrArg Host.Outcome.next ((bootWrite hq hw hr rfl rfl).trans ?_)
  rw [State.bWrite, seen_all, h0, h8]
  rfl

theorem romLock_sets {a : Access} {data : Word32} (hq : a.req = .ctx bootCtx) (hw : (s.ctx bootCtx).world = .secure)
    (hr : s.reaches a (.boot .romLock) data = true) :
    exec (.romLock a data) s = .next (s.setReg (.boot .romLock) (s.reg (.boot .romLock) ||| (data &&& 1))) := by
  refine congrArg Host.Outcome.next ((bootWrite hq hw hr rfl rfl).trans ?_)
  have happly (old : Word32) : RegSpec.apply { w1s := 0x1 } old (laneMask 0xF) data = old ||| (data &&& 1) := by
    have hkeep : (~~~0#32 : Word32) = BitVec.allOnes 32 := rfl
    have hlane : laneMask 0xF &&& 1 = 1 := by decide
    have hlock : laneMask 0xF &&& 1 &&& data = data &&& 1 := by rw [hlane, BitVec.and_comm]
    refine Eq.trans ?_ (congrArg (old ||| ·) hlock)
    simp only [RegSpec.apply, mergeBits, BitVec.ofNat_eq_ofNat, BitVec.and_zero, BitVec.zero_and, BitVec.or_zero, hkeep,
      BitVec.and_allOnes]
  exact congrArg (s.setReg _) (happly _)

/-- Settles O54: a reset leaves what its cause keeps, and each event beside it changes what its rule names. -/
theorem resetsClocksSuppliesAndRandomness : Obligations.ResetsClocksSuppliesAndRandomness := by
  unfold Obligations.ResetsClocksSuppliesAndRandomness
  intro s calm down lost kept same entropyLost running
  have hlost (e : Elec) (c : Cause) (hc : c ≠ .por) (hz : c.zeroes = true) :
      lost (({ s with elec := e } : State).chipReset c) (BitVec.ofNat 32 (2 ^ c.bit)) :=
    lost_chipReset { s with elec := e } hc hz
  have hkept (e : Elec) (c : Cause) (hc : c ≠ .por) (hz : c.zeroes = false) :
      kept (({ s with elec := e } : State).chipReset c) (BitVec.ofNat 32 (2 ^ c.bit)) :=
    kept_chipReset { s with elec := e } hc hz
  have hentropy : entropyLost s.entropyLost := entropyLost_shows s
  refine ⟨?por, rfl, ?pin, rfl, ?soft, ?lock, ?clock, rfl, ?serdes, ?out, ?brown, ?fuses, ?noted, ?droop, ?trip, ?sense, ?vid, ?up, ?stay,
    ?zero, ?rng, ?health, ?seed, ?fail⟩
  case por =>
    exact ⟨_, rfl, down_por { s with elec := { s.elec with porst := true } }, fun b hb => dram_lost _ rfl hb, rfl, rfl, rfl⟩
  case pin => exact ⟨_, rfl, hkept { s.elec with resetN := true } .pin (by decide) rfl, rfl⟩
  case soft =>
    intro a data hq hw hr h0 h8
    exact ⟨_, soft_resets hq hw hr h0 h8, hkept s.elec .soft (by decide) rfl⟩
  case lock => exact fun a data hq hw hr => romLock_sets hq hw hr
  case clock =>
    intro hclk
    refine ⟨fun hin => ?_, fun hin => ?_, fun what hwhat => ?_⟩
    · exact ⟨_, congrArg Host.Outcome.next ((clockLost_clock hclk).trans (if_neg (by rw [hin]; exact Bool.false_ne_true))),
        hlost _ .clkloss (by decide) rfl, rfl, rfl⟩
    · exact congrArg Host.Outcome.next ((clockLost_clock hclk).trans (if_pos hin))
    · exact ⟨_, congrArg Host.Outcome.next (clockLost_pll hclk hwhat), hlost _ .clkloss (by decide) rfl, hclk, rfl⟩
  case serdes =>
    intro hclk
    refine ⟨_, congrArg Host.Outcome.next (serdesLost_eq hclk), ?_⟩
    obtain ⟨e, he⟩ : ∃ e, e = ({ s.elec with pllLock := s.elec.pllLock &&& 0xB } : Elec) := ⟨_, rfl⟩
    have hd := dropped_foldl { s with elec := e } 64 le_rfl
    rw [← he]
    generalize (List.range 64).foldl dropLink { s with elec := e } = d at hd ⊢
    obtain ⟨⟨-, helec, hmem, hctx, hin⟩, -, hbelow, hfallen⟩ := hd
    refine ⟨fun k hk => hbelow k hk, fun k hk => hfallen k k.isLt hk, ?_, bitAt_setLine _ (by decide), ?_, hmem, hctx, hin⟩
    · rw [reg_setLine_other 12 (by simp)]
      exact bitAt_setHint _ (by decide)
    · exact (congrArg Elec.pllLock helec).trans (he ▸ rfl)
  case out =>
    intro hp rail hrail
    simp only [exec, execBrownout, State.brownsOut, State.droops, hp, if_neg (show ¬ 5 < rail.toNat by omega), if_true]
  case brown =>
    intro hp rail hrail
    refine ⟨_, ?_, lost_brownout hp (s.elec.railOut ||| BitVec.ofNat 6 (2 ^ rail.toNat)), ?_⟩
    · have hne : rail ≠ 5 := by rintro rfl; simp at hrail
      simp only [exec, execBrownout, State.brownsOut, hp, if_neg (show ¬ 5 < rail.toNat by omega), if_neg hne, Bool.false_eq_true,
        if_false]
    · exact (congrArg (bitAt · _) (droops_railOut hp _)).trans (bitAt_rail (by omega))
  case fuses =>
    intro hp
    refine ⟨(s.droops (s.elec.railOut ||| BitVec.ofNat 6 (2 ^ 5))).abandonPulses, ?_, ?_⟩
    · simp only [exec, execBrownout, State.brownsOut, hp]
      rfl
    · have hrail := droops_railOut hp (s.elec.railOut ||| BitVec.ofNat 6 (2 ^ 5))
      obtain ⟨hmem, hctx, hin⟩ := droops_same hp (s.elec.railOut ||| BitVec.ofNat 6 (2 ^ 5))
      generalize s.droops (s.elec.railOut ||| BitVec.ofNat 6 (2 ^ 5)) = d at hrail hmem hctx hin ⊢
      have helec : d.abandonPulses.elec = d.elec := abandonPulses_keeps State.elec (fun _ _ _ _ _ => rfl) d
      refine ⟨?_, rfl, rfl, ?_, ?_, ?_⟩
      · rw [helec, hrail]
        exact bitAt_rail (by decide)
      · exact (abandonPulses_keeps State.mem (fun _ _ _ _ _ => rfl) d).trans hmem
      · exact (abandonPulses_keeps State.ctxs (fun _ _ _ _ _ => rfl) d).trans hctx
      · exact (abandonPulses_keeps State.inReset (fun _ _ _ _ _ => rfl) d).trans hin
  case noted =>
    intro hp out
    simp only [exec, execDroop, State.droops, hp, if_true]
  case droop =>
    intro hp out
    exact ⟨_, rfl, droops_shows hp out⟩
  case trip =>
    intro r hr
    have hreset : s.sensors r = s.chipReset .thermtrip := if_pos hr
    have hall := hlost s.elec .thermtrip (by decide) rfl
    exact ⟨⟨_, congrArg Host.Outcome.next hreset, hall⟩, ⟨_, congrArg Host.Outcome.next hreset, hall⟩,
      ⟨_, congrArg Host.Outcome.next hreset, hall⟩⟩
  case sense =>
    intro hin r hr sensed
    have hsense : s.sensors r = s.thermSense r := if_neg (by rw [hr]; exact Bool.false_ne_true)
    have hall : sensed (s.thermSense r) := thermSense_reads hin r
    exact ⟨⟨_, congrArg Host.Outcome.next hsense, hall⟩, ⟨_, congrArg Host.Outcome.next hsense, hall⟩,
      ⟨_, congrArg Host.Outcome.next hsense, hall⟩⟩
  case vid =>
    intro hin up
    refine congrArg Host.Outcome.next ((if_neg (by rw [hin]; exact Bool.false_ne_true)).trans ?_)
    cases up
    · by_cases h : 20 < s.elec.vid.toNat
      · simp [h]
      · simp [h]
    · by_cases h : s.elec.vid.toNat < 50
      · simp [h]
      · simp [h]
  case up => exact fun bmode hin hclk hport hp hr hrail => internalResetEnd_starts bmode hin hclk hport hp hr hrail
  case stay =>
    intro bmode h
    refine congrArg Host.Outcome.next (if_pos ?_)
    rcases h with h | h <;> simp [h]
  case zero => exact fun hin => congrArg Host.Outcome.next (if_neg (by rw [hin]; exact Bool.false_ne_true))
  case rng =>
    intro hin hclk hdrbg hphase
    exact ⟨_, rngReady_eq hclk hin hdrbg hphase, rfl, rfl, rfl, rfl, bitAt_setLine _ (by decide), rfl, rfl, rfl⟩
  case health => exact fun hin => ⟨_, congrArg Host.Outcome.next (if_neg (by rw [hin]; exact Bool.false_ne_true)), hentropy⟩
  case seed => exact fun h => congrArg Host.Outcome.next (if_pos h)
  case fail => exact fun h => ⟨_, congrArg Host.Outcome.next (if_pos h), hentropy⟩

end Sys2Proof.Proofs.Resets
end

section
/-! PROOFS. Interrupts, NMIs, bus errors, halts, scrubbing and the completion of TLBI (O51). -/

namespace Sys2Proof.Proofs.Events

open Sys2Proof Sys2Proof.Machine Sys2Proof.Laws

variable {s t u : State} {a : Access} {x : CtxId} {data : Word32}

/-! ## Doorbells (R362) -/

theorem liveWrite_cxReg (q : Requester) (w : World) (r : XReg) (be : BitVec 4) (d : Word32) :
    s.liveWrite q w (cxReg x r) be d = some (s.cxWrite w x r be d) := by
  unfold cxReg
  split
  · next h =>
    have hx : x = bootCtx := Fin.ext h
    rw [hx]
    rfl
  · next h =>
    have hlt : x.val < 64 := by omega
    have hx : ctxOf (BitVec.ofNat 4 (x.val / 4)) (BitVec.ofNat 2 (x.val % 4)) = x := by
      apply Fin.ext
      have hdiv := Nat.mod_lt (x.val) (show 0 < 4 by decide)
      have hsum := Nat.div_add_mod x.val 4
      rw [ctxOf, Fin.val_ofNat, BitVec.toNat_ofNat, BitVec.toNat_ofNat, Nat.mod_eq_of_lt (show x.val / 4 < 2 ^ 4 by omega),
        Nat.mod_eq_of_lt (show x.val % 4 < 2 ^ 2 by omega), hsum]
      exact Nat.mod_eq_of_lt x.isLt
    show some (s.cxWrite w (ctxOf _ _) r be d) = _
    rw [hx]

/-- A doorbell that its writer's world may ring sets its pending bit. -/
theorem ring_sets (hr : s.reaches a (cxReg x .doorbell) data = true) (h1 : writes1 a data 0 = true) :
    exec (.ring a x data) s = .next ((if bitAt (s.irqMask (s.accWorld a (cxReg x .doorbell)) x) 2
      then s.setReg (cxReg x .irqPend) (s.reg (cxReg x .irqPend) ||| 4) else s).complete a) := by
  have hpair : (cxReg x .doorbell).pairOf = none := by
    unfold cxReg
    split <;> rfl
  have htide : (cxReg x .doorbell).isTide = false := by
    unfold cxReg
    split <;> rfl
  refine congrArg Host.Outcome.next (writeReg_live hr hpair htide (by unfold cxReg; split <;> simp) ?_)
  rw [liveWrite_cxReg, State.cxWrite, show bitAt (seen (lanesOf a) data) 0 = true from h1, Bool.true_and]
  rfl

theorem timerCompare_eq : exec (.timerCompare x) s
    = .next (if bitAt (s.reg (.timer (.ctrl x))) 0 = true ∧ s.timerCmp x ≤ s.time
        then s.setReg (cxReg x .irqPend) (s.reg (cxReg x .irqPend) ||| 2) else s) := by
  refine congrArg Host.Outcome.next ?_
  by_cases h : bitAt (s.reg (.timer (.ctrl x))) 0 = true ∧ s.timerCmp x ≤ s.time
  · rw [if_pos h, State.timerSet, State.timerDue, if_pos (by simpa using h)]
    rfl
  · rw [if_neg h, State.timerSet, State.timerDue, if_neg (by simpa using h)]

/-! ## NMIs (R365) -/

/-- An NMI makes more contexts and cores pending, and changes nothing else. -/
structure NmiMore (s t : State) : Prop where
  regs : t.regs = s.regs
  mem : t.mem = s.mem
  occ : ∀ x, (t.ctx x).occ = (s.ctx x).occ
  state : ∀ c, (t.core c).state = (s.core c).state
  pend : ∀ x, (s.ctx x).nmiPend = true → (t.ctx x).nmiPend = true
  wait : ∀ c, (s.core c).nmiWait = true → (t.core c).nmiWait = true

namespace NmiMore

theorem refl (s : State) : NmiMore s s := ⟨rfl, rfl, fun _ => rfl, fun _ => rfl, fun _ h => h, fun _ h => h⟩

theorem trans (h : NmiMore s t) (h' : NmiMore t u) : NmiMore s u :=
  ⟨h'.regs.trans h.regs, h'.mem.trans h.mem, fun x => (h'.occ x).trans (h.occ x), fun c => (h'.state c).trans (h.state c),
    fun x hx => h'.pend x (h.pend x hx), fun c hc => h'.wait c (h.wait c hc)⟩

theorem upCtx (s : State) (x : CtxId) : NmiMore s (s.upCtx x (fun k => { k with nmiPend := true })) := by
  refine ⟨rfl, rfl, fun y => ?_, fun _ => rfl, fun y hy => ?_, fun _ h => h⟩
  · by_cases h : y = x
    · rw [h, ctx_upCtx_same]
    · rw [ctx_upCtx_other _ _ _ _ h]
  · by_cases h : y = x
    · rw [h, ctx_upCtx_same]
    · rwa [ctx_upCtx_other _ _ _ _ h]

theorem setCore (s : State) (c : Nat) : NmiMore s (s.setCore c { s.core c with nmiWait := true }) := by
  refine ⟨rfl, rfl, fun _ => rfl, fun d => ?_, fun _ h => h, fun d hd => ?_⟩
  · by_cases h : d = c
    · rw [h, core_setCore_same]
    · rw [core_setCore_other _ _ _ _ h]
  · by_cases h : d = c
    · rw [h, core_setCore_same]
    · rwa [core_setCore_other _ _ _ _ h]

theorem nmiCore (s : State) (c : CoreId) : NmiMore s (s.nmiCore c) := by
  unfold State.nmiCore
  split
  · split
    · exact upCtx s _
    · exact setCore s _
  · exact refl s

theorem foldl (l : List CoreId) (s : State) : NmiMore s (l.foldl State.nmiCore s) :=
  foldl_keeps (NmiMore s) _ l s (refl s) fun t c h => h.trans (nmiCore t c)

end NmiMore

/-- A running core that NMI_CTRL selects has the NMI in its lowest occupied context, or waits for one. -/
def NmiReached (s : State) (c : CoreId) (t : State) : Prop :=
  ((∀ i : BitVec 2, (s.ctx (ctxOf c i)).occ = .free) → (t.core c.toNat).nmiWait = true)
    ∧ ∀ i : BitVec 2, (s.ctx (ctxOf c i)).occ ≠ .free → (∀ j : BitVec 2, j < i → (s.ctx (ctxOf c j)).occ = .free) →
      (t.ctx (ctxOf c i)).nmiPend = true

/-- What a search of a rising list finds comes before all else that passes. -/
theorem find_lowest {α : Type} {r : α → α → Prop} {p : α → Bool} {l : List α} {b : α} (hl : l.Pairwise r)
    (h : l.find? p = some b) : b ∈ l ∧ p b = true ∧ ∀ a, a ∈ l → p a = true → a = b ∨ r b a := by
  obtain ⟨hb, front, back, rfl, hfront⟩ := List.find?_eq_some_iff_append.mp h
  refine ⟨by simp, hb, fun a ha hp => ?_⟩
  rcases List.mem_append.mp ha with ha | ha
  · simpa [hp] using hfront a ha
  · rcases List.mem_cons.mp ha with rfl | ha
    · exact .inl rfl
    · exact .inr ((List.pairwise_cons.mp (List.pairwise_append.mp hl).2.1).1 a ha)

/-- The first of a core's contexts that passes a test. -/
theorem find_coreCtxs (c : CoreId) (p : CtxId → Bool) :
    (∀ i : BitVec 2, p (ctxOf c i) = false) ∧ (coreCtxs c).find? p = none
      ∨ ∃ i : BitVec 2, p (ctxOf c i) = true ∧ (∀ j : BitVec 2, j < i → p (ctxOf c j) = false)
        ∧ (coreCtxs c).find? p = some (ctxOf c i) := by
  have hmem : ∀ i : BitVec 2, i ∈ ([0, 1, 2, 3] : List (BitVec 2)) := by decide
  have hrise : ([0, 1, 2, 3] : List (BitVec 2)).Pairwise (· < ·) := by decide
  rw [coreCtxs, List.find?_map]
  cases hf : ([0, 1, 2, 3] : List (BitVec 2)).find? (p ∘ ctxOf c) with
  | none => exact .inl ⟨fun i => by simpa using List.find?_eq_none.mp hf i (hmem i), rfl⟩
  | some i =>
    obtain ⟨-, hi, hlow⟩ := find_lowest hrise hf
    refine .inr ⟨i, hi, fun j hj => ?_, rfl⟩
    by_contra hne
    rcases hlow j (hmem j) (by simpa using hne) with h | h
    · exact absurd hj (h ▸ BitVec.lt_irrefl j)
    · exact absurd hj (BitVec.lt_asymm h)

theorem nmiCore_reaches (c : CoreId) (hc : bitAt (s.reg (.g .nmiCtrl)) c.toNat = true) (hrun : (s.core c.toNat).state = .running) :
    NmiReached s c (s.nmiCore c) := by
  unfold State.nmiCore
  rw [hc, hrun, decide_eq_true rfl, Bool.and_true, if_pos rfl]
  rcases find_coreCtxs c (fun x => decide ((s.ctx x).occ ≠ .free)) with ⟨hfree, hnone⟩ | ⟨i, hi, hlow, hsome⟩
  · rw [hnone]
    refine ⟨fun _ => ?_, fun j hj _ => absurd (hfree j) (by simpa using hj)⟩
    dsimp only
    rw [core_setCore_same]
  · rw [hsome]
    refine ⟨fun hfree => absurd (hfree i) (by simpa using hi), fun j hj hbelow => ?_⟩
    have hji : j = i := by
      rcases BitVec.lt_trichotomy j i with h | h | h
      · exact absurd (hlow j h) (by simpa using hj)
      · exact h
      · exact absurd (hbelow i h) (by simpa using hi)
    dsimp only
    rw [hji, ctx_upCtx_same]

theorem NmiReached.more (h : NmiReached s c t) (hm : NmiMore t u) : NmiReached s c u :=
  ⟨fun hf => hm.wait _ (h.1 hf), fun i hi hl => hm.pend _ (h.2 i hi hl)⟩

theorem NmiReached.before (h : NmiReached t c u) (hm : NmiMore s t) : NmiReached s c u :=
  ⟨fun hf => h.1 fun i => (hm.occ _).trans (hf i),
    fun i hi hl => h.2 i (fun e => hi ((hm.occ _).symm.trans e)) fun j hj => (hm.occ _).trans (hl j hj)⟩

theorem foldl_nmiCore_reaches (l : List CoreId) (s : State) {c : CoreId} (hl : c ∈ l)
    (hc : bitAt (s.reg (.g .nmiCtrl)) c.toNat = true) (hrun : (s.core c.toNat).state = .running) :
    NmiReached s c (l.foldl State.nmiCore s) := by
  induction l generalizing s with
  | nil => cases hl
  | cons d l ih =>
    have hm := NmiMore.nmiCore s d
    rcases List.mem_cons.mp hl with rfl | h
    · exact (nmiCore_reaches c hc hrun).more (.foldl l _)
    · have hreg : (s.nmiCore d).reg (.g .nmiCtrl) = s.reg (.g .nmiCtrl) := congrArg (smGet · _ _) hm.regs
      exact (ih _ h (by rw [hreg, hc]) (by rw [hm.state, hrun])).before hm

/-- An NMI reaches the boot core and each running core that NMI_CTRL selects. -/
theorem nmi_reaches (s : State) : Answers .nmiN s (fun t => (t.ctx bootCtx).nmiPend = true ∧ t.regs = s.regs ∧ t.mem = s.mem
    ∧ ∀ c : CoreId, bitAt (s.reg (.g .nmiCtrl)) c.toNat = true → (s.core c.toNat).state = .running → NmiReached s c t) := by
  have hboot := NmiMore.upCtx s bootCtx
  refine ⟨_, rfl, ?_⟩
  have hall := NmiMore.foldl ((List.range 16).map (BitVec.ofNat 4)) (s.upCtx bootCtx (fun k => { k with nmiPend := true }))
  refine ⟨hall.pend _ (by rw [ctx_upCtx_same]), hall.regs.trans hboot.regs, hall.mem.trans hboot.mem, fun c hc hrun => ?_⟩
  have hmem : c ∈ (List.range 16).map (BitVec.ofNat 4) :=
    List.mem_map.mpr ⟨c.toNat, List.mem_range.mpr c.isLt, by rw [BitVec.ofNat_toNat, BitVec.setWidth_eq]⟩
  have hreach := foldl_nmiCore_reaches _ (s.upCtx bootCtx (fun k => { k with nmiPend := true })) hmem hc
    ((hboot.state _).trans hrun)
  exact hreach.before hboot

/-! ## Entries (R355, R357, Table 21.2) -/

/-- An asynchronous entry returns to where the context stands. -/
def asyncEntry (s : State) (x : CtxId) : EntryInfo := { xpc := (s.ctx x).pc, xaddr := 0, xinfo := 0, async := true, dly := none }

theorem nmiEntry_enters (h : s.nmiReady x = true) : exec (.nmiEntry x) s
    = .next (((s.upCtx x (fun c => { c with nmiPend := false })).enter x 2 .secure (asyncEntry s x)).tideStop) := by
  have hpc : ((s.upCtx x (fun c => { c with nmiPend := false })).ctx x).pc = (s.ctx x).pc := by rw [ctx_upCtx_same]
  refine congrArg Host.Outcome.next ((withUpset_none _ _).trans ((if_pos h).trans ?_))
  rw [State.enterAsync, hpc]
  rfl

theorem interruptEntry_enters {v : Nat} {w : World} (h : s.openBoundary x = true) (hn : s.nextIrq x = some (v, w)) :
    exec (.interruptEntry x) s = .next ((s.enter x v w (asyncEntry s x)).tideStop) := by
  refine congrArg Host.Outcome.next ((withUpset_none _ _).trans ((if_pos h).trans ?_))
  rw [hn]
  rfl

/-- A recorded bus error is taken in the world it was recorded for, with interrupts on. -/
theorem busErrorEntry_enters {e : StoreErr} (h : s.busErrReady x = some e) : e.world = (s.ctx x).world ∧ (s.ctx x).ie = true
    ∧ exec (.busErrorEntry x) s = .next (((s.upCtx x (fun c => { c with storeErr := none })).enter x 3 e.world
        { asyncEntry s x with xaddr := e.addr, xinfo := e.cause.toNat + (if e.ovf then 512 else 0) }).tideStop) := by
  have hrun : exec (.busErrorEntry x) s = .next (s.enterStoreErr x e.world e).tideStop := by
    refine congrArg Host.Outcome.next ((withUpset_none _ _).trans ?_)
    rw [h]
  have hinfo : 512 * bit e.ovf = if e.ovf then 512 else 0 := by cases e.ovf <;> rfl
  unfold State.busErrReady at h
  dsimp only at h
  split at h
  · next hb =>
    rw [Bool.and_eq_true] at hb
    cases he : (s.ctx x).storeErr with
    | none => simp [he] at h
    | some f =>
      simp only [he, Option.ite_none_right_eq_some, Option.some.injEq] at h
      obtain ⟨hw, rfl⟩ := h
      refine ⟨hw, hb.2, hrun.trans ?_⟩
      rw [State.enterStoreErr, hinfo]
      rfl
  · cases h

/-! ## Interrupts (R360, R361) -/

/-- Sources are offered lowest vector first. -/
theorem offered_rises (s : State) (x : CtxId) : (s.offered x).Pairwise fun p q => p.1 < q.1 := by
  unfold State.offered
  refine List.pairwise_append.mpr ⟨?_, ?_, ?_⟩
  · refine List.pairwise_filterMap.mpr (List.Pairwise.imp (R := fun p q => p.1 < q.1) ?_ (by simp))
    intro p q hpq b hb b' hb'
    simp only [Option.ite_none_right_eq_some, Option.some.injEq] at hb hb'
    obtain ⟨-, rfl⟩ := hb
    obtain ⟨-, rfl⟩ := hb'
    exact Nat.add_lt_add_left hpq 25
  · refine List.pairwise_filterMap.mpr (List.Pairwise.imp ?_ List.pairwise_lt_range)
    intro k l hkl b hb b' hb'
    simp only [Option.ite_none_right_eq_some, Option.some.injEq] at hb hb'
    obtain ⟨-, rfl⟩ := hb
    obtain ⟨-, rfl⟩ := hb'
    exact Nat.add_lt_add_left hkl 32
  · intro p hp q hq
    obtain ⟨i, hi, hip⟩ := List.mem_filterMap.mp hp
    obtain ⟨k, -, hkq⟩ := List.mem_filterMap.mp hq
    simp only [Option.ite_none_right_eq_some, Option.some.injEq] at hip hkq
    obtain ⟨-, rfl⟩ := hip
    obtain ⟨-, rfl⟩ := hkq
    have hi4 : i.1 < 4 := by
      simp only [List.mem_cons, List.not_mem_nil, or_false] at hi
      rcases hi with rfl | rfl | rfl | rfl <;> simp
    show 25 + i.1 < 32 + k
    omega

/-- The interrupt taken is offered and permitted, secure where a secure one is, and the lowest of its world. -/
theorem nextIrq_least {v : Nat} {w : World} (h : s.nextIrq x = some (v, w)) :
    (v, w) ∈ s.offered x ∧ (s.ctx x).permits w = true
      ∧ ∀ p, p ∈ s.offered x → (s.ctx x).permits p.2 = true → (p.2 = .secure → w = .secure) ∧ (p.2 = w → v ≤ p.1) := by
  have hrise := (offered_rises s x).filter fun p => (s.ctx x).permits p.2
  have hin (p : Nat × World) : p ∈ (s.offered x).filter (fun p => (s.ctx x).permits p.2)
      ↔ p ∈ s.offered x ∧ (s.ctx x).permits p.2 = true := List.mem_filter
  unfold State.nextIrq at h
  dsimp only at h
  generalize (s.offered x).filter (fun p => (s.ctx x).permits p.2) = l at h hrise hin
  cases hf : l.find? (fun p => decide (p.2 = .secure)) with
  | some b =>
    rw [hf] at h
    obtain rfl := Option.some.inj h
    obtain ⟨hmem, hsec, hlow⟩ := find_lowest hrise hf
    obtain ⟨ho, hp⟩ := (hin _).mp hmem
    refine ⟨ho, hp, fun q hq hqp => ⟨fun _ => of_decide_eq_true hsec, fun hw => ?_⟩⟩
    rcases hlow q ((hin q).mpr ⟨hq, hqp⟩) (by rw [hw]; exact hsec) with e | e
    · rw [e]
    · exact e.le
  | none =>
    rw [hf] at h
    dsimp only at h
    cases l with
    | nil => cases h
    | cons b l =>
      obtain rfl := Option.some.inj h
      obtain ⟨ho, hp⟩ := (hin _).mp (List.mem_cons_self ..)
      refine ⟨ho, hp, fun q hq hqp => ?_⟩
      have hql := (hin q).mpr ⟨hq, hqp⟩
      refine ⟨fun hs => absurd (decide_eq_true hs) (List.find?_eq_none.mp hf q hql), fun _ => ?_⟩
      rcases List.mem_cons.mp hql with e | e
      · rw [e]
      · exact ((List.pairwise_cons.mp hrise).1 q e).le

/-! ## The patrol scrubber (R335, R336, R338) -/

/-- The scrubber moves to its next word, and completes a pass after the last (R338). -/
def scrubMoves (s t : State) : State :=
  if s.dramSize ≤ s.scrubPos + 8 then { t with scrubPos := 0 }.bumpWrap (.d .scrubStatus) 1 else { t with scrubPos := s.scrubPos + 8 }

theorem patrolScrub_eq (hon : bitAt (s.reg (.d .scrubCtrl)) 0 = true) (hsize : 8 ≤ s.dramSize) (o : BitVec 2) (apart : Bool) :
    exec (.patrolScrub o apart) s = .next (scrubMoves s (s.scrubWord s.scrubPos o apart)) :=
  congrArg Host.Outcome.next (if_pos (by rw [hon, decide_eq_true hsize]; rfl))

theorem scrubMoves_pos (s t : State) :
    (scrubMoves s t).scrubPos = if s.dramSize ≤ s.scrubPos + 8 then 0 else s.scrubPos + 8 := by
  unfold scrubMoves
  split <;> rfl

theorem scrubMoves_status (s t : State) : (scrubMoves s t).reg (.d .scrubStatus)
    = t.reg (.d .scrubStatus) + if s.dramSize ≤ s.scrubPos + 8 then 1 else 0 := by
  unfold scrubMoves
  split
  · exact reg_setReg_same _ _ _
  · exact (BitVec.add_zero _).symm

theorem scrubMoves_reg (s t : State) {r : Reg} (h : r ≠ .d .scrubStatus) : (scrubMoves s t).reg r = t.reg r := by
  unfold scrubMoves
  split
  · exact reg_setReg_other _ _ _ _ h
  · rfl

theorem scrubMoves_keeps {β : Type} (f : State → β) (hf : ∀ v m p, f { v with regs := m, scrubPos := p } = f v) (s t : State) :
    f (scrubMoves s t) = f t := by
  unfold scrubMoves
  split <;> exact hf t _ _

/-- The scrubber has moved on, and no context has changed. -/
def Moved (s t : State) : Prop :=
  t.scrubPos = (if s.dramSize ≤ s.scrubPos + 8 then 0 else s.scrubPos + 8)
    ∧ t.reg (.d .scrubStatus) = s.reg (.d .scrubStatus) + (if s.dramSize ≤ s.scrubPos + 8 then 1 else 0) ∧ t.ctxs = s.ctxs

/-- A read of the scrubber that leaves SCRUB_STATUS and the contexts moves it on. -/
theorem scrub_moved (hr : t.reg (.d .scrubStatus) = s.reg (.d .scrubStatus)) (hc : t.ctxs = s.ctxs) : Moved s (scrubMoves s t) := by
  refine ⟨scrubMoves_pos s t, ?_, (scrubMoves_keeps State.ctxs (fun _ _ _ => rfl) s t).trans hc⟩
  rw [scrubMoves_status, hr]

theorem scrubPoison_regsOnly (s : State) (a : Nat) : RegsOnly s (s.scrubPoison a) :=
  (RegsOnly.setReg s _ _).trans (integRec_regsOnly _ _ _ _ _)

theorem scrubPoison_reg (s : State) (a : Nat) {q : Reg} (hp : q ≠ .d .integPoisonUse) (hi : q ≠ .d .integRecInfo)
    (hlo : q ≠ .d .integRecAddrLo) (hhi : q ≠ .d .integRecAddrHi) (hl : q ≠ .d .irqLinePend) :
    (s.scrubPoison a).reg q = s.reg q := by
  rw [State.scrubPoison, reg_integRec_other _ _ _ _ _ hi hlo hhi hl, reg_bumpSat_other _ _ hp]

theorem bumpSat_counts (s : State) (r : Reg) (k : Nat) :
    ((s.bumpSat r k).reg r).toNat = min ((s.reg r).toNat + k) 0xFFFFFFFF := by
  rw [State.bumpSat, reg_setReg_same, BitVec.toNat_ofNat]
  omega

theorem scrubPoison_counts (s : State) (a : Nat) : ((s.scrubPoison a).reg (.d .integPoisonUse)).toNat
    = min ((s.reg (.d .integPoisonUse)).toNat + 1) 0xFFFFFFFF := by
  rw [State.scrubPoison, reg_integRec_other _ _ _ _ _ (by simp) (by simp) (by simp) (by simp), bumpSat_counts]

/-- Poisoning a word changes its own bytes alone (R332). -/
theorem poisonWord_poisons (s : State) (a : Nat) : (s.poisonWord a).poisoned a = true
    ∧ ∀ b, wordOf b ≠ wordOf a → (s.poisonWord a).memByte b = s.memByte b := by
  refine ⟨smGet_set_same s.poison false (wordOf a) true, fun b hb => ?_⟩
  refine (smGet_memSetAll _ s.mem (wordOf a) b).trans (if_neg ?_)
  rw [List.length_replicate]
  unfold wordOf at hb ⊢
  omega

/-- An error record stands once one is made, or has been (R344). -/
theorem integRec_valid (s : State) (path cause core agent a : Nat) :
    bitAt ((s.integRec path cause core agent a).reg (.d .integRecInfo)) 0 = true := by
  cases h : bitAt (s.reg (.d .integRecInfo)) 0 with
  | true =>
    rw [State.integRec, if_pos h, reg_setReg_same, bitAt_or, h]
    rfl
  | false =>
    rw [integRec_recorded _ _ _ _ _ h, bitAt_ofNat _ (by decide), Nat.testBit_zero]
    exact decide_eq_true (by omega)

theorem mchk_valid (s : State) (source core : Nat) (boot : Bool) : bitAt ((s.mchk source core boot).reg (.g .mchkStatus)) 0 = true := by
  cases h : bitAt (s.reg (.g .mchkStatus)) 0 with
  | true =>
    rw [State.mchk, if_pos h, reg_setReg_same, bitAt_or, h]
    rfl
  | false =>
    rw [mchk_recorded _ _ _ h, bitAt_ofNat _ (by decide), Nat.testBit_zero]
    exact decide_eq_true (by omega)

/-- An uncorrectable word in DRAM is told and recorded (R335, R336). -/
theorem noteUe_shows (s : State) (a : Nat) : bitAt ((s.noteUe 6 a 0 0 7).reg (.g .dramStatus)) 24 = true
    ∧ bitAt ((s.noteUe 6 a 0 0 7).reg (.g .hintStatus)) 22 = true ∧ bitAt ((s.noteUe 6 a 0 0 7).reg (.g .mchkStatus)) 0 = true
    ∧ bitAt ((s.noteUe 6 a 0 0 7).reg (.d .integRecInfo)) 0 = true := by
  rw [State.noteUe, if_pos rfl]
  refine ⟨?_, bitAt_setHint _ (by decide), ?_, ?_⟩
  · rw [reg_setHint_other 22 (by simp)]
    exact bitAt_orReg _ _ (k := 24) (by decide)
  · rw [reg_setHint_other 22 (by simp), reg_orReg_other _ _ _ _ (by simp)]
    exact mchk_valid _ _ _ _
  · rw [reg_setHint_other 22 (by simp), reg_orReg_other _ _ _ _ (by simp), reg_mchk_other _ _ _ (by simp) (by simp) (by simp)]
    exact integRec_valid _ _ _ _ _ _

theorem noteUe_status (s : State) (a : Nat) :
    (s.noteUe 6 a 0 0 7).reg (.d .scrubStatus) = s.reg (.d .scrubStatus) := by
  rw [State.noteUe, if_pos rfl, reg_setHint_other 22 (by simp), reg_orReg_other _ _ _ _ (by simp),
    reg_mchk_other _ _ _ (by simp) (by simp) (by simp), reg_integRec_other _ _ _ _ _ (by simp) (by simp) (by simp) (by simp)]

theorem noteUe_regsOnly (s : State) (a : Nat) : RegsOnly s (s.noteUe 6 a 0 0 7) :=
  .ite ((((integRec_regsOnly _ _ _ _ _).trans (mchk_regsOnly _ _ _)).trans (.setReg _ _ _)).trans (.setReg _ _ _))
    ((integRec_regsOnly _ _ _ _ _).trans (mchk_regsOnly _ _ _))

/-- The scrubber's reads of a word that is not poisoned. -/
theorem scrub_sound (hon : bitAt (s.reg (.d .scrubCtrl)) 0 = true) (hsize : 8 ≤ s.dramSize) (hp : s.poisoned s.scrubPos = false) :
    Answers (.patrolScrub 0) s (fun t => Moved s t ∧ t.mem = s.mem ∧ ∀ r, r ≠ .d .scrubStatus → t.reg r = s.reg r)
      ∧ Answers (.patrolScrub 1) s (fun t => Moved s t ∧ t.mem = s.mem
        ∧ (t.reg (.d .integCeDram)).toNat = min ((s.reg (.d .integCeDram)).toNat + 1) 0xFFFFFFFF
        ∧ ∀ r, r ≠ .d .scrubStatus → r ≠ .d .integCeDram → t.reg r = s.reg r)
      ∧ Answers (.patrolScrub 2) s (fun t => Moved s t ∧ t.poisoned s.scrubPos = true ∧ bitAt (t.reg (.g .dramStatus)) 24 = true
        ∧ bitAt (t.reg (.g .hintStatus)) 22 = true ∧ bitAt (t.reg (.g .mchkStatus)) 0 = true
        ∧ bitAt (t.reg (.d .integRecInfo)) 0 = true
        ∧ ∀ b, wordOf b ≠ wordOf s.scrubPos → t.memByte b = s.memByte b) := by
  have hword {o : BitVec 2} {t : State} (h : s.scrubWord s.scrubPos o false = t) :
      exec (.patrolScrub o) s = .next (scrubMoves s t) := h ▸ patrolScrub_eq hon hsize o false
  have hclean : s.scrubWord s.scrubPos 0 false = s := by
    rw [State.scrubWord, hp]
    rfl
  have hcounted : s.scrubWord s.scrubPos 1 false = s.bumpSat (.d .integCeDram) 1 := by
    rw [State.scrubWord, hp]
    rfl
  have hlost : s.scrubWord s.scrubPos 2 false = (s.poisonWord s.scrubPos).noteUe 6 s.scrubPos 0 0 7 := by
    rw [State.scrubWord, hp]
    rfl
  have hmem (t : State) : (scrubMoves s t).mem = t.mem := scrubMoves_keeps State.mem (fun _ _ _ => rfl) s t
  refine ⟨⟨_, hword hclean, scrub_moved rfl rfl, hmem s, fun r hr => scrubMoves_reg s s hr⟩,
    ⟨_, hword hcounted, scrub_moved (reg_bumpSat_other _ _ (by simp)) rfl, hmem _, ?_, fun r hr hc => ?_⟩,
    ⟨_, hword hlost, scrub_moved (noteUe_status _ _) (noteUe_regsOnly _ _).ctxs, ?_⟩⟩
  · rw [scrubMoves_reg _ _ (by simp), bumpSat_counts]
  · rw [scrubMoves_reg _ _ hr, reg_bumpSat_other _ _ hc]
  · obtain ⟨hpo, hbytes⟩ := poisonWord_poisons s s.scrubPos
    obtain ⟨hd, hh, hm, hi⟩ := noteUe_shows (s.poisonWord s.scrubPos) s.scrubPos
    have honly := noteUe_regsOnly (s.poisonWord s.scrubPos) s.scrubPos
    refine ⟨?_, ?_, ?_, ?_, ?_, fun b hb => ?_⟩
    · rw [scrubMoves_keeps (State.poisoned · s.scrubPos) fun _ _ _ => rfl]
      exact (honly.keeps (State.poisoned · s.scrubPos) fun _ _ => rfl).trans hpo
    · rwa [scrubMoves_reg _ _ (by simp)]
    · rwa [scrubMoves_reg _ _ (by simp)]
    · rwa [scrubMoves_reg _ _ (by simp)]
    · rwa [scrubMoves_reg _ _ (by simp)]
    · rw [scrubMoves_keeps (State.memByte · b) fun _ _ _ => rfl]
      exact (honly.memByte b).trans (hbytes b hb)

/-- The scrubber's reads of a poisoned word. -/
theorem scrub_poisoned (hon : bitAt (s.reg (.d .scrubCtrl)) 0 = true) (hsize : 8 ≤ s.dramSize) (hp : s.poisoned s.scrubPos = true) :
    Answers (.patrolScrub 0 true) s (fun t => Moved s t ∧ t.mem = s.mem ∧ ∀ r, r ≠ .d .scrubStatus → t.reg r = s.reg r)
      ∧ ∀ o, Answers (.patrolScrub o) s (fun t => Moved s t ∧ t.mem = s.mem
        ∧ (t.reg (.d .integPoisonUse)).toNat = min ((s.reg (.d .integPoisonUse)).toNat + 1) 0xFFFFFFFF) := by
  have hmem (t : State) : (scrubMoves s t).mem = t.mem := scrubMoves_keeps State.mem (fun _ _ _ => rfl) s t
  refine ⟨⟨_, patrolScrub_eq hon hsize 0 true, ?_⟩, fun o => ⟨_, patrolScrub_eq hon hsize o false, ?_⟩⟩
  · have hword : s.scrubWord s.scrubPos 0 true = s := by
      rw [State.scrubWord, hp]
      rfl
    rw [hword]
    exact ⟨scrub_moved rfl rfl, hmem s, fun r hr => scrubMoves_reg s s hr⟩
  · have hword : s.scrubWord s.scrubPos o false = s.scrubPoison s.scrubPos := by
      rw [State.scrubWord, hp]
      rfl
    have honly := scrubPoison_regsOnly s s.scrubPos
    rw [hword]
    refine ⟨scrub_moved (scrubPoison_reg s _ (by simp) (by simp) (by simp) (by simp) (by simp)) honly.ctxs,
      (hmem _).trans (honly.keeps State.mem fun _ _ => rfl), ?_⟩
    rw [scrubMoves_reg _ _ (by simp), scrubPoison_counts]

/-! ## The completion of TLBI (R298) -/

/-- The cores below a number hold no entry that a TLBI takes, and all else stays. -/
structure Removed (t : Tlbi) (s u : State) (n : Nat) : Prop where
  regs : u.regs = s.regs
  mem : u.mem = s.mem
  ctxs : u.ctxs = s.ctxs
  locked : ∀ c, (u.core c).locked = (s.core c).locked
  tlbis : ∀ c, (u.core c).tlbis = (s.core c).tlbis
  ahead : ∀ c, n ≤ c → u.core c = s.core c
  tlbs : ∀ c, c < n → ∀ b : TlbArray, (u.core c).tlbs.get b = ((s.core c).tlbs.get b).filter fun e => !t.takes e
  wcache : ∀ c, c < n → (u.core c).wcache = (s.core c).wcache.filter fun e => !t.takesWalk e

theorem get_keep (k : Tlbs) (f : TlbEntry → Bool) (b : TlbArray) : (k.keep f).get b = (k.get b).filter f := by
  cases b <;> rfl

theorem Removed.step {t : Tlbi} {n : Nat} (h : Removed t s u n) : Removed t s (u.removeOn t n) (n + 1) := by
  have hsame : (u.removeOn t n).core n = { u.core n with
      tlbs := (u.core n).tlbs.keep (fun e => !t.takes e), wcache := (u.core n).wcache.filter (fun e => !t.takesWalk e) } :=
    core_setCore_same _ _ _
  have hother {c : Nat} (hc : c ≠ n) : (u.removeOn t n).core c = u.core c := core_setCore_other _ _ _ _ hc
  have hn : u.core n = s.core n := h.ahead n le_rfl
  refine ⟨h.regs, h.mem, h.ctxs, fun c => ?_, fun c => ?_, fun c hc => ?_, fun c hc b => ?_, fun c hc => ?_⟩
  · by_cases hcn : c = n
    · rw [hcn, hsame, hn]
    · rw [hother hcn, h.locked]
  · by_cases hcn : c = n
    · rw [hcn, hsame, hn]
    · rw [hother hcn, h.tlbis]
  · rw [hother (by omega), h.ahead c (by omega)]
  · by_cases hcn : c = n
    · rw [hcn, hsame, get_keep, hn]
    · rw [hother hcn, h.tlbs c (by omega)]
  · by_cases hcn : c = n
    · rw [hcn, hsame, hn]
    · rw [hother hcn, h.wcache c (by omega)]

theorem removed_foldl (t : Tlbi) (s : State) : ∀ n, Removed t s ((List.range n).foldl (fun s c => s.removeOn t c) s) n
  | 0 => ⟨rfl, rfl, rfl, fun _ => rfl, fun _ => rfl, fun _ _ => rfl, fun _ h => absurd h (Nat.not_lt_zero _),
      fun _ h => absurd h (Nat.not_lt_zero _)⟩
  | n + 1 => by
    rw [List.range_succ, List.foldl_append]
    exact (removed_foldl t s n).step

/-- Nothing that could have used a removed translation waits (R298). -/
theorem tlbiReady_of {t : Tlbi} (hb : ∀ x, (s.ctx x).storeBuf = [])
    (hk : ∀ u : BitVec 2, ∀ k, k ∈ smGet s.spb [] u.toNat → t.waitsFor k = false) : s.tlbiReady t = true := by
  rw [State.tlbiReady, Bool.and_eq_true, List.all_eq_true, List.all_eq_true]
  refine ⟨fun x _ => by rw [hb x]; rfl, fun u hu => List.all_eq_true.mpr fun k hk' => ?_⟩
  have hlt : u < 2 ^ 2 := List.mem_range.mp hu
  have hun : (BitVec.ofNat 2 u).toNat = u := by rw [BitVec.toNat_ofNat, Nat.mod_eq_of_lt hlt]
  rw [hk (BitVec.ofNat 2 u) k (by rwa [hun])]
  rfl

theorem tlbiComplete_removes {core : Fin 17} {t : Tlbi} {rest : List Tlbi} (hq : (s.core core.val).tlbis = t :: rest)
    (hb : ∀ x, (s.ctx x).storeBuf = [])
    (hk : ∀ u : BitVec 2, ∀ k, k ∈ smGet s.spb [] u.toNat → t.waitsFor k = false) :
    Answers (.tlbiComplete core) s (fun u =>
      (u.core core.val).tlbis = rest ∧ u.regs = s.regs ∧ u.mem = s.mem ∧ u.ctxs = s.ctxs
      ∧ (∀ c : Fin 17, (∀ b : TlbArray, (u.core c.val).tlbs.get b = ((s.core c.val).tlbs.get b).filter (fun e => !t.takes e))
          ∧ (u.core c.val).wcache = (s.core c.val).wcache.filter (fun e => !t.takesWalk e)
          ∧ (u.core c.val).locked = (s.core c.val).locked ∧ (c ≠ core → (u.core c.val).tlbis = (s.core c.val).tlbis))) := by
  have hr := removed_foldl t s 17
  have heq : exec (.tlbiComplete core) s = .next (((List.range 17).foldl (fun s c => s.removeOn t c) s).setCore core.val
      { ((List.range 17).foldl (fun s c => s.removeOn t c) s).core core.val with tlbis := rest }) := by
    show Host.Outcome.next (s.tlbiDone core.val) = _
    rw [State.tlbiDone, hq]
    exact congrArg Host.Outcome.next (if_pos (tlbiReady_of hb hk))
  refine ⟨_, heq, ?_⟩
  generalize (List.range 17).foldl (fun s c => s.removeOn t c) s = u at hr
  refine ⟨by rw [core_setCore_same], hr.regs, hr.mem, hr.ctxs, fun c => ?_⟩
  by_cases hc : c = core
  · rw [hc, core_setCore_same]
    exact ⟨hr.tlbs _ core.isLt, hr.wcache _ core.isLt, hr.locked _, fun h => absurd rfl h⟩
  · rw [core_setCore_other _ _ _ _ fun e => hc (Fin.ext e)]
    exact ⟨hr.tlbs _ c.isLt, hr.wcache _ c.isLt, hr.locked _, fun _ => hr.tlbis _⟩

/-! ## The obligation -/

/-- Settles O51: each event between instructions does what its rule says. -/
theorem eventsBetweenInstructions : Obligations.EventsBetweenInstructions := by
  unfold Obligations.EventsBetweenInstructions
  refine ⟨?_, ?_, fun s core t rest hq hb hk => tlbiComplete_removes hq hb hk⟩
  · intro s a x data pend entry stop
    refine ⟨fun hr h1 => ring_sets hr h1, timerCompare_eq, nmi_reaches s, fun hready => nmiEntry_enters hready,
      fun v w hopen hnext => ⟨interruptEntry_enters hopen hnext, nextIrq_least hnext⟩,
      fun e he => busErrorEntry_enters he, fun hat hhalt => ?_⟩
    exact congrArg Host.Outcome.next (if_pos (by rw [hat, hhalt]; rfl))
  · intro s hon hsize moved
    exact ⟨fun hp => scrub_sound hon hsize hp, fun hp => (scrub_poisoned hon hsize hp).1, fun hp => (scrub_poisoned hon hsize hp).2⟩

end Sys2Proof.Proofs.Events
end

section
/-! PROOFS. The life cycle of the ledger cores: a fence that is already under way (O43). -/

namespace Sys2Proof.Proofs.CoreLife

open Sys2Proof Sys2Proof.Machine Sys2Proof.Laws

/-- Core 0 runs a loaded tenant and has a fence under way, and no save of the tenant is asked for. -/
def fencingLoaded : State :=
  { inReset := false
    cores := [(0, { state := .running, fencing := true })]
    ctxs := [(0, { occ := .tenant 0 }), (bootCtx.val, { csw := 2 })]
    sites := [(0, { tstate := .loaded })] }

/-- An access of the boot core. -/
def bootAccess : Access := { req := .ctx bootCtx, be := 0, hap := true, hdp := 0 }

/-- FENCE_REQ of core 0. -/
def fenceCore0 : Word32 := 0x10000

theorem fenceCore0_reaches : fencingLoaded.reaches bootAccess (.g .coreFence) fenceCore0 = true := by decide +kernel

theorem fenceCore0_names (k : CoreId) : writes1 bootAccess fenceCore0 (16 + k.toNat) = decide (k = 0) := by
  revert k
  decide

/-- A fence that is under way asks for no save a second time (R484, R511). -/
theorem fenceReq_asks_nothing (t : State) (h : exec (.fenceReq bootAccess fenceCore0) fencingLoaded = .next t) :
    (t.site 0).save = none := by
  have hsame : ((fencingLoaded.writeReg bootAccess (.g .coreFence) fenceCore0).site 0).save = none := by decide +kernel
  obtain rfl := Host.Outcome.next.inj h
  exact hsame

/-- Refutes O43: its clause on a fence of a running core has the save of every loaded tenant asked for after each write of
FENCE_REQ, in every state. Where the fence is already under way the write changes nothing (R484), so in a state whose fencing core
holds a loaded tenant with no save asked for, none is asked for after it. -/
theorem not_ledgerCoreLifeCycle : ¬ Obligations.LedgerCoreLifeCycle := by
  unfold Obligations.LedgerCoreLifeCycle
  rintro ⟨-, hfence⟩
  obtain ⟨hreq, -⟩ := hfence fencingLoaded bootAccess 0 fenceCore0 rfl
  obtain ⟨-, hrunning⟩ := hreq fenceCore0_reaches fenceCore0_names
  obtain ⟨t, hexec, -, -, -, -, hsaved⟩ := hrunning rfl
  exact hsaved 0 0 rfl rfl (fenceReq_asks_nothing t hexec)

end Sys2Proof.Proofs.CoreLife
end

section
/-! PROOFS. The update engine: a WRITE whose count of programmed pages passes its length (O56). -/

namespace Sys2Proof.Proofs.UpdateEngine

open Sys2Proof Sys2Proof.Machine Sys2Proof.Laws

/-- A WRITE of one page from SRAM that counts far more pages as programmed: where it would go on reading lies beyond SRAM. -/
def pastItsEnd : UeOp := { op := 3, src := 0xF000000000, ofs := 0, len := 256, ok := false, pages := 0x10000 }

/-- The engine is busy with it. -/
def writingPastItsEnd : State := { inReset := false, ue := { busy := some pastItsEnd } }

/-- Its source is in SRAM, outside the key array (Table 19.7). -/
theorem pastItsEnd_source : writingPastItsEnd.ueSource pastItsEnd.src pastItsEnd.len = true := by decide +kernel

theorem pastItsEnd_sound : writingPastItsEnd.anyPoison pastItsEnd.src pastItsEnd.len = false := by decide +kernel

/-- What is left of the source is refused, and the WRITE ends with 0x65 (R470, Table 19.7). -/
theorem ueCommandDone_refuses (t : State) (h : exec (.ueCommandDone .none) writingPastItsEnd = .next t) :
    bitsOf (t.reg (.d .ueStatus)) 15 8 = 0x65 := by
  have hresult : bitsOf ((writingPastItsEnd.ueDone .none).reg (.d .ueStatus)) 15 8 = 0x65 := by decide +kernel
  obtain rfl := Host.Outcome.next.inj h
  exact hresult

/-- Refutes O56: its clause on WRITE holds for every busy WRITE whose length and source are good, and does not ask that the pages
counted as programmed are no more than the WRITE has. Where they are more, the rest of the source that the engine checks begins
beyond the source's end; here it lies beyond SRAM, and the WRITE ends with 0x65, not with 0. -/
theorem not_updateEngineAndFuseOperations : ¬ Obligations.UpdateEngineAndFuseOperations := by
  unfold Obligations.UpdateEngineAndFuseOperations
  rintro ⟨-, hdone, -⟩
  obtain ⟨-, -, -, -, -, -, -, -, hwrite, -⟩ := hdone writingPastItsEnd pastItsEnd rfl
  have hnone (i : Nat) (hlow : 256 * pastItsEnd.pages ≤ i) (hhigh : i < pastItsEnd.len) :
      writingPastItsEnd.flashByte (bankOfs writingPastItsEnd.ueTarget + pastItsEnd.ofs + i) = 0xFF :=
    absurd (hlow.trans_lt hhigh) (by decide)
  obtain ⟨t, hexec, -, hresult, -⟩ := hwrite rfl (by decide) (by decide) (by decide) (by decide) pastItsEnd_source pastItsEnd_sound hnone
  exact absurd (hresult.symm.trans (ueCommandDone_refuses t hexec)) (by decide)

end Sys2Proof.Proofs.UpdateEngine
end
